-- ==== Sys2Proof/Word.lean ====
section
/-! DEFINITION. The words of the part: bytes, 32-bit registers, 64-bit pairs and granules (00_scope.md R2). -/

namespace Sys2Proof

/-- A byte of memory. -/
abbrev Byte := BitVec 8
/-- A register: 32 bits, little-endian (00 R2). -/
abbrev Word := BitVec 32
/-- A 64-bit quantity: a pair of registers, or a core register (00 R2, 05 R125). -/
abbrev DWord := BitVec 64

end Sys2Proof
end

