-- ==== Sys2Proof/Syntax.lean ====
section
/-! DEFINITION. The commands of the part: one constructor of Instr for each row of spec/opcode_table.json, with the row's operands (95_what_each_step_holds.md). -/

namespace Sys2Proof

/-- Logical Bay (01 R11). -/
abbrev BayNo := Fin 32
/-- Vector cores 0 to 3 and scalar cores 0 (4) and 1 (5) of a Bay (08 R223). -/
abbrev CoreNo := Fin 6
/-- A core's register number. -/
abbrev RegNo := Fin 32
/-- Stack (01 R9). -/
abbrev StackNo := Fin 8
/-- Shelver: stack × 4 + its number in the stack (07 R182). -/
abbrev ShelverNo := Fin 32
/-- Partition (01 R16). -/
abbrev PartNo := Fin 8
/-- Otfold function (15 R422). -/
abbrev FnNo := Fin 9
/-- Fabric port (01 R9). -/
abbrev FabricPort := Fin 24
/-- A protected link: fabric ports 0 to 23, then Otfold ports 0 and 1 (11 R305, 16 R444). -/
abbrev LinkNo := Fin 26
/-- Caching agent (08 R223). -/
abbrev AgentNo := Fin 256
/-- A device-local physical address (06 R153). -/
abbrev PAddr := BitVec 46

/-- Who makes a register access: the Registrar, a core of a Bay, the driver on a function, or the sequencer (03 R79, 15 R425, 18 R522). -/
inductive Writer where
  | registrar
  | core (bay : BayNo) (core : CoreNo)
  | driver (fn : FnNo)
  | sequencer
  deriving DecidableEq, Repr

/-- A register block (15 R425, 04 R124, 16 R463, 17 R493, 18 R522). -/
inductive Block where
  | bay (b : BayNo)
  | matrix (b : BayNo) (c : Fin 4)
  | stack (k : StackNo)
  | shelver (sh : ShelverNo)
  /-- The Catalogue's map is 0x4000 bytes: a page of 4 KiB, then the offset in it. -/
  | catalogue (page : Fin 4)
  /-- The fabric block is 0x30000 bytes: a page of 4 KiB, then the offset in it. -/
  | fabric (page : Fin 48)
  | timePower
  | fn (f : FnNo)
  | otfold (p : Fin 2)
  | security
  | sequencer
  deriving DecidableEq, Repr

/-- A 64-bit register pair, by its block and the offset of its _LO register (00 R2). -/
structure RegPair where
  blk : Block
  off : BitVec 12
  deriving DecidableEq, Repr

/-- A status register, by its block and offset (00 R5). -/
structure StatusReg where
  blk : Block
  off : BitVec 12
  deriving DecidableEq, Repr

/-- Where a parity error is found (03 R62, R63, R88, 06 R163, R167). -/
inductive ParitySite where
  /-- A link of a plane (0, 1, or 2 the Card network) between two routers. -/
  | link (plane : Fin 3) (a b : Fin 49)
  /-- A read of a row of a Bay bank; the re-read is clean where the replay succeeds. -/
  | bank (bay : BayNo) (bank : Fin 16) (row : BitVec 13)
  /-- A crossbar path of a Bay. -/
  | crossbar (bay : BayNo) (port : Fin 12)
  /-- The interface of a stack, by channel. -/
  | stackLink (k : StackNo) (channel : Fin 32)
  /-- A sector of an MSC line. -/
  | mscSector (line : PAddr) (upper : Bool)
  /-- An entry of the Catalogue. -/
  | catalogueEntry (index : Nat)
  deriving DecidableEq, Repr

/-- A Card network endpoint: router number and endpoint (03 R84, R85). -/
structure CardEnd where
  router : BitVec 6
  ep : BitVec 4
  deriving DecidableEq, Repr

/-- What a memory request asks for. -/
inductive MemOp where
  | read (bytes : Fin 129)
  | write (data : List Byte)
  deriving DecidableEq, Repr

/-- Who sends a request to a stack controller (06 R157, R172). -/
inductive MemFrom where
  /-- A Bay's mover, or a core's outside access. -/
  | bay (b : BayNo)
  /-- An inbound fabric access admitted by a window of a partition, through a port group. -/
  | inbound (group : Fin 4) (part : PartNo)
  /-- A collective engine, for a partition. -/
  | collective (group : Fin 4) (part : PartNo)
  /-- An uncached companion access on a port, for a function. -/
  | otfold (port : Fin 2) (fn : FnNo)
  /-- The Registrar. -/
  | registrar
  /-- A Shelver's transfer over the interface, for a partition; queue 8 serves the Registrar. -/
  | shelver (sh : ShelverNo) (queue : Fin 9)
  deriving DecidableEq, Repr

/-- A memory request at its stack controller (06 R155, R168). -/
structure MemReq where
  src : MemFrom
  addr : PAddr
  op : MemOp
  /-- NO_ALLOCATE (06 R161). -/
  noAllocate : Bool
  /-- Symbols that the base die finds in error on a read of DRAM, per 32-byte chunk of the line, lowest first (06 R168). -/
  errors : List Nat
  deriving DecidableEq, Repr

/-- The kind of access that a lookup asks for (09 R253). -/
inductive Access where
  | read | write | atomic | fetch
  deriving DecidableEq, Repr

/-- What a Catalogue lookup is keyed by: a context of a partition, or a receiving-side window (09 R253). -/
inductive LookupKey where
  | ctx (part : PartNo) (index : Fin 4096)
  | window (w : Fin 256)
  deriving DecidableEq, Repr

/-- What a handshake brings (11 R303, R312, 16 R442, R443, 17 R479). -/
structure PeerInfo where
  /-- Whether the peer's identity verifies. -/
  verified : Bool
  /-- Peer device identifier and port. -/
  device : BitVec 14
  port : Fin 32
  /-- Peer's bond size, and the ports of the bond that came up. -/
  bondSize : Fin 5
  members : List (Fin 24)
  /-- The session's link secret S, which the key exchange yields. -/
  secret : BitVec 512
  /-- Digest of the peer's DevID. -/
  devId : BitVec 512
  /-- Otfold: companion caching agents, CACHES_CLEAN and the companion's lane count. -/
  agents : Fin 33
  cachesClean : Bool
  lanes : Fin 9
  deriving DecidableEq, Repr

/-- A fabric packet: its 32-byte header and its payload (11 R314). -/
structure Packet where
  hdr : BitVec 256
  payload : List Byte
  deriving DecidableEq, Repr

/-- A mailbox command in progress: its function and its free-running slot index (15 R430). -/
structure MbSlot where
  fn : FnNo
  index : BitVec 16
  deriving DecidableEq, Repr

/-- An Otfold message: its 16-byte header and its data (16 R446). -/
structure OtHead where
  hdr : BitVec 128
  data : List Byte
  deriving DecidableEq, Repr

/-- The commands of spec/opcode_table.json, in its order. -/
inductive Instr where
  /-- A read of a _LO register latches the whole 64-bit value and stores its _HI half in the shadow (R3). -/
  | loReadLatch (pair : RegPair)
  /-- A write to the _LO register of a writable pair is held, and a second write replaces the first (R4). -/
  | loWriteHold (who : Writer) (pair : RegPair) (v : Word)
  /-- A write to _HI makes the full 64-bit value take effect, using the held _LO value (R4). -/
  | hiWriteCommit (who : Writer) (pair : RegPair) (v : Word)
  /-- A write of EVT_SEQ to a status register clears the status only when it matches the current EVT_SEQ (R5). -/
  | statusSeqClear (who : Writer) (reg : StatusReg) (v : Word)
  /-- A write to a register that has no row of its own, applied under its access code and RSVD_POLICY (R8). -/
  | registerWrite (who : Writer) (blk : Block) (off : BitVec 12) (v : Word)
  /-- A posted write to a slow-domain register takes effect within 3 slow edges (R7). -/
  | slowWriteEffect
  /-- A write to BANK_OWNER starts a handover for each bank whose code changes, or sets BAD_OWNER_CODE for a reserved code (R65). -/
  | bankOwnerWrite (who : Writer) (bay : BayNo) (hi : Bool) (v : Word)
  /-- The old owner's outstanding accesses complete, HANDOVER_PENDING clears and the new owner gains the bank (R65). -/
  | handoverComplete (bay : BayNo) (bank : Fin 16)
  /-- The Bay runtime advances MOVERp_WR, which queues descriptors and passes LOOKAHEAD ranges on (R69). -/
  | moverWrWrite (bay : BayNo) (port : Fin 2) (wr : BitVec 16)
  /-- Once MOVERp_WR covers a group, the mover has every page of the group translated before any descriptor runs (R71). -/
  | groupPretranslate (bay : BayNo) (port : Fin 2)
  /-- A group waiting for tile translation buffer entries proceeds when the other port's tile frees them (R72). -/
  | ttbEntriesFree (bay : BayNo) (port : Fin 2)
  /-- A TILE_BEGIN descriptor opens a group of GROUP_COUNT descriptors (R71). -/
  | moverTileBegin (bay : BayNo) (port : Fin 2)
  /-- A LOAD descriptor moves runs from memory into Bay memory (R69). -/
  | moverLoad (bay : BayNo) (port : Fin 2)
  /-- A STORE descriptor moves runs from Bay memory to memory, completing when every write is acknowledged (R69). -/
  | moverStore (bay : BayNo) (port : Fin 2)
  /-- A COPY_LOCAL descriptor copies between Bay offsets (R69). -/
  | moverCopyLocal (bay : BayNo) (port : Fin 2)
  /-- A FILL descriptor writes FILL_PATTERN repeated into Bay memory (R69). -/
  | moverFill (bay : BayNo) (port : Fin 2)
  /-- A PREFETCH descriptor brings memory lines into the MSC (R69). -/
  | moverPrefetch (bay : BayNo) (port : Fin 2)
  /-- A descriptor's transfers finish; MOVERp_RD advances and MOVER_NOTIFY is sent if requested (R73). -/
  | moverDescriptorComplete (bay : BayNo) (port : Fin 2)
  /-- RESUME written to MOVERp_CTRL retries a halted port from MOVERp_RD (R73). -/
  | moverResume (bay : BayNo) (port : Fin 2)
  /-- FLUSH written to MOVERp_CTRL discards every descriptor up to MOVERp_WR (R73). -/
  | moverFlush (bay : BayNo) (port : Fin 2)
  /-- INTERVAL_US passes in IDLE and the test engine picks the next region and enters COPY (R75). -/
  | testIntervalExpire (bay : BayNo)
  /-- The region has been copied to the shadow and the engine enters TEST (R75). -/
  | testCopyDone (bay : BayNo)
  /-- March C- ends on the region; failing rows are mapped to spares and the engine enters RESTORE (R77). -/
  | marchCDone (bay : BayNo) (failed : BitVec 16)
  /-- The shadow has been copied back and the engine returns to IDLE (R75). -/
  | testRestoreDone (bay : BayNo)
  /-- A Bay reset stops the mover, drains writes, clears the test engine, sets owners to NONE and zeroes Bay memory (R78). -/
  | bayReset (bay : BayNo)
  /-- Writes that have not drained within 100 µs of a Bay reset are squashed (R78). -/
  | bayResetDrainLimit (bay : BayNo)
  /-- The Registrar sets a CORE_FENCE bit, closing the core's port and endpoint and handling its tile (R90). -/
  | coreFenceWrite (bay : BayNo) (core : Fin 10)
  /-- A receiver finds a parity error, discards the flit and asks for a replay from the retry buffer (R62). -/
  | flitParityError (site : ParitySite) (replayOk : Bool)
  /-- No flit or idle token arrives on an on-die link for 1,024 cycles and the link is declared failed (R91). -/
  | linkSilence (plane : Fin 3) (a : Fin 49) (b : Fin 49)
  /-- A router's self-check reports a fault and the router is declared failed (R91). -/
  | routerSelfCheckFault (router : Fin 48)
  /-- The Registrar installs recomputed router tables after a network failure (R91). -/
  | routeTablesInstall
  /-- A bulk-plane request passes its issue-plus-200 µs deadline and its requester reports TIMEOUT (R92). -/
  | requestDeadline (index : Nat)
  /-- A Card network message held for want of credit is injected when its destination has a credit (R87). -/
  | cardInject (index : Nat)
  /-- A Card network DOORBELL reaches its endpoint and advances a queue's write index (R185). -/
  | doorbell (sh : ShelverNo) (queue : Fin 16) (index : BitVec 16)
  /-- A Card network FENCE_SIGNAL message reaches its endpoint (R84). -/
  | fenceSignalMsg (src : CardEnd) (dst : CardEnd) (arg : Word)
  /-- TILE_DISPATCH with OP RUN makes the Bay runtime run a tile through the steps of R146 (R146). -/
  | tileRun (bay : BayNo)
  /-- TILE_DISPATCH with OP PREEMPT makes the Bay runtime end the tile at its step boundary (R409). -/
  | tilePreempt (bay : BayNo)
  /-- TILE_DISPATCH with OP KILL resets the Bay and returns the tile unplaced (R410). -/
  | tileKill (bay : BayNo)
  /-- The Bay runtime's TILE_DONE reaches the Registrar, which completes, parks or returns the tile (R407). -/
  | tileDone
  /-- A Card network INTERRUPT message reaches its endpoint (R84). -/
  | interrupt (src : CardEnd) (dst : CardEnd) (arg : Word)
  /-- A Card network POWER_CMD message reaches a Bay's clock and power controller (R84). -/
  | powerCmd (src : CardEnd) (dst : CardEnd) (arg : Word)
  /-- A MOVER_NOTIFY message reaches the Bay runtime on descriptor completion (R69). -/
  | moverNotify (bay : BayNo)
  /-- A FAULT_REPORT reaches the Bay runtime or Registrar, which stops the tile or reports the event (R149). -/
  | faultReport
  /-- A USER message enters a kernel endpoint's receive queue (R140). -/
  | user (dst : CardEnd)
  /-- A ROUTER_CTRL message from the Registrar reaches a router's endpoint 0 (R84). -/
  | routerCtrl (src : CardEnd) (dst : CardEnd) (arg : Word)
  /-- A write to MX_PUSH_S copies kernel control's staged descriptor into the FIFO (R96). -/
  | mxPushS (bay : BayNo) (mx : Fin 4) (writer : Fin 6)
  /-- A write to MX_PUSH_V copies vector core c's staged descriptor into the FIFO (R96). -/
  | mxPushV (bay : BayNo) (mx : Fin 4) (writer : Fin 6)
  /-- A NOP descriptor starts in FIFO order and does nothing (R97). -/
  | mxNop (bay : BayNo) (mx : Fin 4)
  /-- LOAD_TILE copies rows from Bay memory to the operand store (R116). -/
  | loadTile (bay : BayNo) (mx : Fin 4)
  /-- STORE_TILE copies rows from the operand store to Bay memory (R116). -/
  | storeTile (bay : BayNo) (mx : Fin 4)
  /-- ANCHOR_SET clears every cell and sets the anchor state (R104). -/
  | anchorSet (bay : BayNo) (mx : Fin 4)
  /-- EXP_SCAN folds operand exponents into the anchor state (R105). -/
  | expScan (bay : BayNo) (mx : Fin 4)
  /-- MMA adds exact products of A and B into the accumulator cells (R107). -/
  | mma (bay : BayNo) (mx : Fin 4)
  /-- MMA_FP64 adds sliced FP64 products of the selected tier (R108). -/
  | mmaFp64 (bay : BayNo) (mx : Fin 4)
  /-- CONV accumulates an implicit-GEMM convolution (R109). -/
  | conv (bay : BayNo) (mx : Fin 4)
  /-- ACC_READ reads out the accumulator with bias and epilogue to Bay memory (R110). -/
  | accRead (bay : BayNo) (mx : Fin 4)
  /-- ACC_SAVE writes cell records and the anchor block to Bay memory (R114). -/
  | accSave (bay : BayNo) (mx : Fin 4)
  /-- ACC_LOAD clears cells and loads records and anchor state from Bay memory (R115). -/
  | accLoad (bay : BayNo) (mx : Fin 4)
  /-- QUANT_MX quantises an operand-store panel to an MX format (R113). -/
  | quantMx (bay : BayNo) (mx : Fin 4)
  /-- A matrix descriptor completes in FIFO order and MX_DONE advances (R97). -/
  | mxDescriptorComplete (bay : BayNo) (mx : Fin 4)
  /-- 32 cycles pass and the ramp level rises or falls by one (R117). -/
  | rampStep (bay : BayNo) (mx : Fin 4) (up : Bool)
  /-- RESUME written to MX_CTRL restarts the descriptor at the head of the FIFO (R119). -/
  | mxResume (bay : BayNo) (mx : Fin 4)
  /-- FLUSH written to MX_CTRL discards every descriptor in the FIFO and clears HALTED (R119). -/
  | mxFlush (bay : BayNo) (mx : Fin 4)
  /-- A matrix core reset ends descriptors, clears state and zeroes the operand store (R123). -/
  | matrixCoreReset (bay : BayNo) (mx : Fin 4)
  /-- A core executes a standard RISC-V instruction of its implemented options (R125). -/
  | riscvInstruction (bay : BayNo) (core : CoreNo) (word : Word)
  /-- CN.SEND sends a USER message after waiting for a credit (R139). -/
  | cnSend (bay : BayNo) (core : CoreNo) (rd rs1 rs2 : RegNo)
  /-- CN.TRYSEND sends a USER message only if a credit is free (R139). -/
  | cnTrysend (bay : BayNo) (core : CoreNo) (rd rs1 rs2 : RegNo)
  /-- CN.RECV takes the oldest message or waits until one arrives or the deadline passes (R140). -/
  | cnRecv (bay : BayNo) (core : CoreNo) (rd rs1 : RegNo)
  /-- The deadline of a waiting CN.RECV passes and it returns 0 (R140). -/
  | cnRecvDeadline (bay : BayNo) (core : CoreNo)
  /-- DS.READ returns the Datestamp at the Bay's router after earlier instructions complete (R141). -/
  | dsRead (bay : BayNo) (core : CoreNo) (rd : RegNo)
  /-- DS.WAIT waits until Datestamp reaches x[rs1] (R141). -/
  | dsWait (bay : BayNo) (core : CoreNo) (rd rs1 : RegNo)
  /-- Datestamp reaches the DS.WAIT target and the instruction returns (R141). -/
  | dsWaitReturn (bay : BayNo) (core : CoreNo)
  /-- TILE.YIELD ends the issuing core's part of the tile, possibly ending the compute phase (R142). -/
  | tileYield (bay : BayNo) (core : CoreNo) (rs1 : RegNo)
  /-- BAY.GIVE asks the Bay runtime to hand banks to an owner code (R138). -/
  | bayGive (bay : BayNo) (core : CoreNo) (rd rs1 rs2 : RegNo)
  /-- BAY.OWN returns the 16 bank owner codes (R138). -/
  | bayOwn (bay : BayNo) (core : CoreNo) (rd : RegNo)
  /-- VA.SETA clears accumulator entries and sets their anchors (R134). -/
  | vaSeta (bay : BayNo) (core : CoreNo) (rs1 : RegNo) (vm : Bool)
  /-- VA.ADD.V adds vector elements into accumulator entries (R134). -/
  | vaAddV (bay : BayNo) (core : CoreNo) (vs2 : RegNo) (vm : Bool)
  /-- VA.MAC.VV adds element products into accumulator entries (R134). -/
  | vaMacVv (bay : BayNo) (core : CoreNo) (vs2 vs1 : RegNo) (vm : Bool)
  /-- VA.RED.V adds every active element into ACC[XCTL.ACC] (R134). -/
  | vaRedV (bay : BayNo) (core : CoreNo) (vs2 : RegNo) (vm : Bool)
  /-- VA.REDMAC.VV adds every active product into ACC[XCTL.ACC] (R134). -/
  | vaRedmacVv (bay : BayNo) (core : CoreNo) (vs2 vs1 : RegNo) (vm : Bool)
  /-- VA.RD.V reads out accumulator entries into a vector register (R134). -/
  | vaRdV (bay : BayNo) (core : CoreNo) (vd : RegNo) (vm : Bool)
  /-- VA.RDX reads out one accumulator entry into vd[0] (R134). -/
  | vaRdx (bay : BayNo) (core : CoreNo) (vd rs1 : RegNo)
  /-- VA.SAVE writes the 64 accumulator records to memory (R134). -/
  | vaSave (bay : BayNo) (core : CoreNo) (rs1 : RegNo)
  /-- VA.LOAD loads the 64 accumulator records from memory (R134). -/
  | vaLoad (bay : BayNo) (core : CoreNo) (rs1 : RegNo)
  /-- VA.ADDREC adds a record into ACC[XCTL.ACC] or raises ANCHOR_MISMATCH (R135). -/
  | vaAddrec (bay : BayNo) (core : CoreNo) (rs1 : RegNo)
  /-- VFEXPMAX.VS returns the largest element exponent against vs1[0] (R134). -/
  | vfexpmaxVs (bay : BayNo) (core : CoreNo) (vd vs2 vs1 : RegNo) (vm : Bool)
  /-- The function group evaluates 2^x on each active element (R136). -/
  | vfexp2 (bay : BayNo) (core : CoreNo) (vd vs2 : RegNo) (vm bf16 : Bool)
  /-- The function group evaluates log2 x on each active element (R136). -/
  | vflog2 (bay : BayNo) (core : CoreNo) (vd vs2 : RegNo) (vm bf16 : Bool)
  /-- The function group evaluates sin(pi x) on each active element (R136). -/
  | vfsinpi (bay : BayNo) (core : CoreNo) (vd vs2 : RegNo) (vm bf16 : Bool)
  /-- The function group evaluates cos(pi x) on each active element (R136). -/
  | vfcospi (bay : BayNo) (core : CoreNo) (vd vs2 : RegNo) (vm bf16 : Bool)
  /-- The function group evaluates tanh x on each active element (R136). -/
  | vftanh (bay : BayNo) (core : CoreNo) (vd vs2 : RegNo) (vm bf16 : Bool)
  /-- The function group evaluates erf x on each active element (R136). -/
  | vferf (bay : BayNo) (core : CoreNo) (vd vs2 : RegNo) (vm bf16 : Bool)
  /-- The function group evaluates 1/sqrt x on each active element (R136). -/
  | vfrsqrt (bay : BayNo) (core : CoreNo) (vd vs2 : RegNo) (vm bf16 : Bool)
  /-- The function group evaluates 1/x on each active element (R136). -/
  | vfrecip (bay : BayNo) (core : CoreNo) (vd vs2 : RegNo) (vm bf16 : Bool)
  /-- VBL2D loads a register group from rows of Bay memory (R137). -/
  | vbl2d (bay : BayNo) (core : CoreNo) (vd rs1 rs2 : RegNo) (rowCode : Fin 8) (regCode : Fin 4)
  /-- VBS2D stores a register group to rows of Bay memory (R137). -/
  | vbs2d (bay : BayNo) (core : CoreNo) (vs3 rs1 rs2 : RegNo) (rowCode : Fin 8) (regCode : Fin 4)
  /-- START_AT is reached and a gang tile's kernel starts (R406). -/
  | gangStart (bay : BayNo)
  /-- A memory request reaches its stack controller and is served through the owner check, MSC, directory and DRAM (R155). -/
  | stackRequest (req : MemReq)
  /-- MSC_MAINT op WRITEBACK_PART writes back dirty sectors in a partition's ways (R162). -/
  | writebackPart (k : StackNo) (part : PartNo)
  /-- MSC_MAINT op FLUSH_PART writes back and invalidates a partition's ways (R162). -/
  | flushPart (k : StackNo) (part : PartNo)
  /-- MSC_MAINT op FLUSH_SHELF writes back and invalidates every line of a Shelf (R162). -/
  | flushShelf (k : StackNo) (shelf : Fin 16)
  /-- MSC_MAINT op FLUSH_ALL writes back and invalidates every line (R162). -/
  | flushAll (k : StackNo)
  /-- A maintenance operation finishes, BUSY clears and DONE is set (R162). -/
  | mscMaintDone (k : StackNo)
  /-- A mover's address range reaches the look-ahead prefetcher, or is dropped when 64 are held (R165). -/
  | lookaheadRange (k : StackNo) (bay : BayNo) (order : Nat) (addr : PAddr) (bytes : BitVec 34)
  /-- A prefetcher issues a fetch into the MSC once queue occupancy is below QUEUE_THRESH.LO (R166). -/
  | prefetchIssue (k : StackNo)
  /-- A stack link lane fails and is replaced by a spare, or the channel fails (R167). -/
  | laneFail (k : StackNo) (channel : Fin 32)
  /-- The patrol scrub reads a chunk, correcting or poisoning it (R170). -/
  | patrolScrub (k : StackNo) (symbols : Nat)
  /-- The hottest DRAM die is sampled and the stack's temperature state may change (R171). -/
  | dramTempSample (k : StackNo) (temp : BitVec 8)
  /-- A regulation window boundary copies USED, clears it, applies new D and EFF and resets real-time caps (R173). -/
  | regulationWindow (k : StackNo)
  /-- A Shelver NOP command completes after admission and its publish step (R188). -/
  | shNop (sh : ShelverNo)
  /-- COPY copies runs from SRC to DST (R194). -/
  | shCopy (sh : ShelverNo)
  /-- FILL writes IMM repeated over DST (R195). -/
  | shFill (sh : ShelverNo)
  /-- GATHER writes indexed table elements to DST (R196). -/
  | shGather (sh : ShelverNo)
  /-- SCATTER writes SRC elements to indexed table positions (R196). -/
  | shScatter (sh : ShelverNo)
  /-- REDUCE reduces segments of elements into results at DST (R197). -/
  | shReduce (sh : ShelverNo)
  /-- ATOMIC applies commutative updates to indexed targets at their home (R198). -/
  | shAtomic (sh : ShelverNo)
  /-- SCAN reports the largest exponent and NaN and infinity counts (R199). -/
  | shScan (sh : ShelverNo)
  /-- TRANSPOSE writes the transpose of a source matrix (R200). -/
  | shTranspose (sh : ShelverNo)
  /-- MEASURE writes the SHA3-512 digest of a range (R201). -/
  | shMeasure (sh : ShelverNo)
  /-- SCRUB reads and corrects chunks of a range in place (R202). -/
  | shScrub (sh : ShelverNo)
  /-- PATTERN_TEST writes, reads and complements a pattern and then writes zero (R202). -/
  | shPatternTest (sh : ShelverNo) (failed : List (BitVec 34))
  /-- PREFETCH installs a range's lines in the MSC (R203). -/
  | shPrefetch (sh : ShelverNo)
  /-- SEAL_INGEST decrypts and verifies ciphertext records into sealed pages (R204). -/
  | shSealIngest (sh : ShelverNo)
  /-- MIGRATE starts the mirror and copies a range under new compression (R205). -/
  | shMigrate (sh : ShelverNo)
  /-- A 64 KiB chunk ends and the Shelver chooses the next queue by round robin (R191). -/
  | shelverChunkDone (sh : ShelverNo)
  /-- A command's writes are acknowledged; it publishes, writes its completion record and notifies (R192). -/
  | shelverComplete (sh : ShelverNo)
  /-- A chunk makes no progress for SH_WATCHDOG; the Shelver resets and the command is STATE_LOST (R221). -/
  | shWatchdogExpire (sh : ShelverNo)
  /-- A scratch parity error resets the Shelver and loses the running command (R221). -/
  | scratchParityError (sh : ShelverNo)
  /-- HALT written to SH_CTRL stops the Shelver at the next chunk boundary (R221). -/
  | halt (sh : ShelverNo)
  /-- STOP written to MIRROR_CTRL ends the migration mirror (R205). -/
  | mirrorStop (sh : ShelverNo)
  /-- Dirty lines of a Codex or Abridged block are merged, re-encoded and written with the tag byte (R213). -/
  | compressedWriteback (block : PAddr)
  /-- A RD_SHARED request reaches the home and is served by the directory (R226). -/
  | rdShared (agent : AgentNo) (line : PAddr)
  /-- A RD_OWN request reaches the home and grants the line in M (R226). -/
  | rdOwn (agent : AgentNo) (line : PAddr)
  /-- An UPGRADE request reaches the home and invalidates other holders (R226). -/
  | upgrade (agent : AgentNo) (line : PAddr)
  /-- A WRITEBACK reaches the home and returns dirty data (R226). -/
  | writeback (agent : AgentNo) (line : PAddr) (poison : Bool) (data : BitVec 1024)
  /-- A CLEAN_EVICT removes its agent from the directory entry (R226). -/
  | cleanEvict (agent : AgentNo) (line : PAddr)
  /-- A SNP_SHARE reaches a holding agent, which answers after its hold (R451). -/
  | snpShare (agent : AgentNo) (line : PAddr)
  /-- A SNP_INV reaches a holding agent, which invalidates the line (R451). -/
  | snpInv (agent : AgentNo) (line : PAddr)
  /-- A SNP_DATA reaches an M or O holder, which returns a copy (R451). -/
  | snpData (agent : AgentNo) (line : PAddr)
  /-- A snoop answer reaches the home, which completes the waiting request (R451). -/
  | snpRsp (agent : AgentNo) (line : PAddr) (state : Fin 4) (poison : Bool) (data : BitVec 1024)
  /-- A GRANT reaches the requesting agent with the line's state and data (R447). -/
  | grant (agent : AgentNo) (line : PAddr)
  /-- The 200 ns hold of a newly won line ends and a deferred snoop is answered or sent (R231). -/
  | snoopHoldExpire (agent : AgentNo) (line : PAddr)
  /-- A far AMO reaches the home, which takes the line from all holders and performs it (R233). -/
  | farAmo (agent : AgentNo) (tag : BitVec 12) (addr : PAddr) (op : Fin 10) (double : Bool) (operand compare : DWord)
  /-- A snoop passes SNOOP_DEADLINE; the agent is treated as not holding and dirty lines are poisoned (R239). -/
  | snoopDeadline (line : PAddr)
  /-- A core's L1D flush before fencing has not completed after 20 µs and the wrapper closes anyway (R240). -/
  | l1dFlushTimeout (bay : BayNo) (core : CoreNo)
  /-- A requester presents a lookup or batch to the Catalogue, which hits or takes or joins a miss record (R253). -/
  | catalogueLookup (req : Fin 1024) (key : LookupKey) (va : BitVec 57) (access : Access) (pages : Nat)
  /-- Registrar firmware walks the tables for a miss record and installs the entry or fails it (R256). -/
  | tableWalk (record : Fin 512)
  /-- A DIRTY message reaches the Catalogue, which appends a dirty-log record and acknowledges (R268). -/
  | dirty (key : LookupKey) (va : BitVec 57)
  /-- A MAP_CHUNK carrying part of a new map reaches a member and is relayed (R282). -/
  | mapChunk
  /-- A PREPARE reaches a member, which checks it and votes (R284). -/
  | prepare
  /-- A VOTE reaches a relay or the coordinator, which combines votes of its subtree (R283). -/
  | vote
  /-- A COMMIT reaches a member, which enters SWITCHING or switches at once (R286). -/
  | commit
  /-- An ABORT reaches a member, which returns to STEADY and frees reservations (R285). -/
  | concAbort
  /-- A DRAIN(E) reaches a member, which may end grace for epoch E (R288). -/
  | drain
  /-- A QUERY from a new coordinator reaches a member, which answers with STATE (R290). -/
  | query
  /-- A STATE answer reaches the new coordinator (R290). -/
  | state
  /-- PREPARE_DEADLINE passes at the coordinator, which commits or aborts the round (R286). -/
  | prepareDeadline (handle : Word)
  /-- Datestamp reaches SWITCH_AT and the member makes the new map current (R285). -/
  | switchAt (handle : Word)
  /-- GRACE_LIMIT passes since the switch and the member ends grace for the old epoch (R288). -/
  | graceLimit (handle : Word)
  /-- The 1 ms wait for STATE ends and the new coordinator commits or aborts (R290). -/
  | recoverStateWait (handle : Word)
  /-- Equaliser training or signal lock completes and the port enters ALIGN (R303). -/
  | trainDone (port : LinkNo) (badLanes : BitVec 8)
  /-- Codeword lock and deskew complete and the port enters HANDSHAKE (R303). -/
  | alignDone (port : LinkNo)
  /-- The identity and key exchange completes and the port enters UP or fails to DOWN (R479). -/
  | handshakeDone (port : LinkNo) (peer : PeerInfo)
  /-- A bring-up step overruns its limit; the port returns to DOWN, or enters HELD at the retrain limit (R303). -/
  | linkStepLimit (port : LinkNo)
  /-- An Otfold port leaves HELD by itself 10 s after entry (R442). -/
  | heldTimeout (port : Fin 2)
  /-- A DATA flit arrives; its frame is verified and decrypted on LAST, and ACK or NACK is applied (R309). -/
  | dataFlit (port : LinkNo) (flit : BitVec 2048)
  /-- A CTRL flit arrives, carrying credits and authenticated as GMAC (R305). -/
  | ctrlFlit (port : LinkNo) (flit : BitVec 2048)
  /-- An IDLE flit arrives carrying only ACK and NACK (R305). -/
  | idleFlit (port : LinkNo) (flit : BitVec 2048)
  /-- A TIME flit arrives and the part measures its peer's offset and may discipline to it (R340). -/
  | timeFlit (port : LinkNo) (flit : BitVec 2048)
  /-- Datestamp crosses a multiple of 16,384 ns and each UP link sends a TIME flit (R339). -/
  | timeFlitSend (port : FabricPort)
  /-- A flit fails CRC or FEC; it and later flits are discarded and a NACK is sent (R306). -/
  | flitCrcError (port : LinkNo) (fec : Bool)
  /-- A frame's tag fails; it is discarded and requested again, and a second failure fails the link (R311). -/
  | frameAuthFail (port : LinkNo)
  /-- No flit arrives for 10 µs and the link fails (R307). -/
  | flitSilence (port : LinkNo)
  /-- FEC lock stays lost for 1 µs and the link fails (R307). -/
  | fecLockLoss (port : LinkNo)
  /-- The frame counter reaches 2^32 and the link moves to the next key (R310). -/
  | keyRollover (port : LinkNo)
  /-- An RD packet arrives and is forwarded, refused or performed through window policing (R322). -/
  | rd (port : FabricPort) (pkt : Packet)
  /-- A WR packet arrives and is forwarded, refused or performed (R322). -/
  | wr (port : FabricPort) (pkt : Packet)
  /-- An ATOMIC packet arrives and is performed as a far AMO at the home (R324). -/
  | atomic (port : FabricPort) (pkt : Packet)
  /-- An RD_RESP arrives and completes its request, or is written to the receiving tray (R323). -/
  | rdResp (port : FabricPort) (pkt : Packet)
  /-- A WR_ACK arrives and completes its write or marks a parked tag done (R323). -/
  | wrAck (port : FabricPort) (pkt : Packet)
  /-- An ATOMIC_RESP arrives with the old value and completes its request (R323). -/
  | atomicResp (port : FabricPort) (pkt : Packet)
  /-- A COLL packet arrives at a collective engine and is combined or checked (R329). -/
  | coll (port : FabricPort) (pkt : Packet)
  /-- A CONC packet arrives and goes to the Registrar as a Concordance message (R322). -/
  | conc (port : FabricPort) (pkt : Packet)
  /-- A MGMT packet arrives and goes to the Registrar by MTYPE (R439). -/
  | mgmt (port : FabricPort) (pkt : Packet)
  /-- A fabric request's DEADLINE passes without response and it ends with TIMEOUT (R323). -/
  | fabricDeadline (tag : BitVec 16)
  /-- A requester stalled for want of a fabric tag proceeds when one frees (R321). -/
  | tagFree
  /-- An ALLREDUCE collective reduces elements over all members onto every member (R327). -/
  | allreduce (engine : Fin 4) (id : Nat)
  /-- A REDUCE collective writes the reduction on ROOT only (R327). -/
  | collReduce (engine : Fin 4) (id : Nat)
  /-- A BROADCAST collective writes ROOT's SRC to every member (R327). -/
  | broadcast (engine : Fin 4) (id : Nat)
  /-- An ALLGATHER collective gathers every member's elements on every member (R327). -/
  | allgather (engine : Fin 4) (id : Nat)
  /-- A REDUCE_SCATTER collective gives each member its slice of the reduction (R327). -/
  | reduceScatter (engine : Fin 4) (id : Nat)
  /-- A BARRIER collective completes after every member has arrived (R327). -/
  | barrier (engine : Fin 4) (id : Nat)
  /-- An EXP_MAX collective finds the largest exponent over all members (R327). -/
  | expMax (engine : Fin 4) (id : Nat)
  /-- START_AT is reached and the engine begins sending the collective's packets (R329). -/
  | collStartAt (engine : Fin 4) (id : Nat)
  /-- A member's DONE reaches the publisher, which publishes once all have reported (R330). -/
  | collDone (engine : Fin 4) (pkt : Packet)
  /-- COMPLETE from the publisher reaches a member, which completes the collective (R330). -/
  | collComplete (engine : Fin 4) (pkt : Packet)
  /-- A collective's DEADLINE passes and it ends with TIMEOUT on every member (R331). -/
  | collDeadline (engine : Fin 4) (id : Nat)
  /-- A SYNC_IN rising edge is stamped and accepted or rejected for discipline (R338). -/
  | syncIn (stamp : DWord)
  /-- No SYNC_IN pulse is accepted for 2.5 s and the source counts as lost (R338). -/
  | syncInLoss
  /-- Datestamp reaches a multiple of 10^9 ns and SYNC_OUT pulses for 1 µs (R534). -/
  | syncOutPulse
  /-- A power epoch begins; Bays switch to the decided code and the Ledger is written to stack memory (R346). -/
  | powerEpochBoundary
  /-- At epoch offset 262,144 ns each member computes and sends its frequency vote (R349). -/
  | voteInstant
  /-- At the vote deadline the coordinator decides the lowest vote and sends DECIDE (R351). -/
  | voteDeadline (handle : Word)
  /-- At the voltage offset the regulator begins the next epoch's voltage, or a member without DECIDE chooses its code (R352). -/
  | voltageOffset
  /-- A power vote MGMT packet reaches a relay or the coordinator (R351). -/
  | powerVote
  /-- A DECIDE MGMT packet reaches a member with the code for the next epoch (R351). -/
  | decide
  /-- A 1 µs package power sample updates the window averages and may trigger clip stages (R357). -/
  | powerSample (mw : Nat)
  /-- A Bay's supply falls below threshold and the Bay stretches at level 4 (R348). -/
  | droopDetect (bay : BayNo)
  /-- The supply has stayed above threshold for 64 cycles and the stretch level falls by one every 32 cycles (R348). -/
  | droopRelease (bay : BayNo)
  /-- After a clip ends, stretch levels fall by one every 32 cycles (R357). -/
  | stretchDecay (bay : BayNo)
  /-- A junction sensor update adjusts the throttle code or stretches the Bay (R360). -/
  | thermalSensorSample (bay : BayNo) (temp : BitVec 8)
  /-- A sensor reaches 108 °C or a stack enters TRIP; clocks stop and RESET_FAIL is asserted (R513). -/
  | thermalTrip
  /-- A 900 s boost bucket boundary rolls the residency record and may exhaust or restore boost (R359). -/
  | boostBucket
  /-- A DISPATCH queue command runs tiles of its image on the Volume's Bays (R380). -/
  | dispatch (cmd : Nat)
  /-- A SHELVE queue command submits a Shelver command to a Shelver queue (R381). -/
  | shelve (cmd : Nat)
  /-- A held SHELVE command is submitted when a slot frees in the target queue (R382). -/
  | shelveSubmit (k : StackNo)
  /-- A COLLECTIVE queue command hands a descriptor to the collective engine (R383). -/
  | collective (cmd : Nat)
  /-- A HINT queue command records a phase hint with the power controller (R384). -/
  | hint (cmd : Nat)
  /-- A SYNC queue command waits and signals fences only (R379). -/
  | sync (cmd : Nat)
  /-- The Registrar reads and accepts a command from a resident queue when in-flight and ring limits allow (R368). -/
  | queueRead (queue : BitVec 16) (command : BitVec 2048)
  /-- A queue with unread commands is given a resident slot taken from another queue (R368). -/
  | queueSwapIn (queue : BitVec 16)
  /-- A command's wait fence, barrier and context conditions hold and it is released to the scheduler (R378). -/
  | commandRelease (cmd : Nat)
  /-- A Bay of a Volume becomes free and the Registrar places the next tile on it (R405). -/
  | tilePlace (handle : Word) (bay : BayNo)
  /-- A context holds a Volume's Bays beyond TIMESLICE while another waits, and its tiles are pre-empted (R402). -/
  | timesliceExpire (handle : Word) (ctx : Fin 32768)
  /-- A tile's watchdog deadline passes and hang handling begins (R408). -/
  | tileWatchdog (bay : BayNo)
  /-- PREEMPT_GRACE passes without the compute phase ending and the Registrar sends KILL (R410). -/
  | preemptGraceExpire (bay : BayNo)
  /-- The Bay runtime does not answer RUN, PREEMPT or KILL within 100 µs and the Bay is reset (R504). -/
  | runtimeResponseTimeout (bay : BayNo)
  /-- PREEMPT_AT is reached and a member pre-empts the Volume's tiles (R416). -/
  | preemptAt (handle : Word)
  /-- RESUME_AT is reached and a member resumes placement on the Volume (R416). -/
  | resumeAt (handle : Word)
  /-- A VOL_PREEMPT relay MGMT packet reaches a member (R416). -/
  | volPreemptRelay
  /-- A member's report that its Bays are free reaches the issuing part (R416). -/
  | volPreemptReport
  /-- An FM_MESSAGE MGMT packet arrives, is posted on function 0 and acknowledged (R439). -/
  | fmMessage
  /-- An FM_ACK arrives and completes its FM_SEND (R439). -/
  | fmAck
  /-- FM_SEND has no FM_ACK after 200 µs and completes with TIMEOUT (R437). -/
  | fmSendTimeout (slot : MbSlot)
  /-- A write to MB_DB advances the mailbox write index, or is ignored with MB_BAD_DB (R430). -/
  | mbDb (fn : FnNo) (v : Word)
  /-- The Registrar reads a mailbox slot when its previous response is written and fewer than 16 commands run (R430). -/
  | mailboxRead (fn : FnNo) (data : BitVec 2048)
  /-- A write to a queue's CMD_DB is stamped and delivered as the command ring's write index (R426). -/
  | cmdDb (fn : FnNo) (queue : BitVec 16) (v : Word)
  /-- A write to a queue's CPL_DB returns completion slots (R426). -/
  | cplDb (fn : FnNo) (queue : BitVec 16) (v : Word)
  /-- A write to IRQ_MASK that clears the mask of a pending vector sends its interrupt message (R427). -/
  | irqMaskWrite (fn : FnNo) (hi : Bool) (v : Word)
  /-- Every 1 ms while a pair serves, HEARTBEAT advances by one (R423). -/
  | heartbeat
  /-- CONFIG_SET option 1 selects RSVD_POLICY Z or P (R436). -/
  | rsvdPolicy (slot : MbSlot)
  /-- CONFIG_SET option 2 sets or clears ISOLATED and TDM together (R436). -/
  | isolation (slot : MbSlot)
  /-- CONFIG_SET option 3 sets or clears BOOST_EN (R436). -/
  | boostEn (slot : MbSlot)
  /-- CONFIG_SET option 4 sets or clears HINTS_EN (R436). -/
  | hintsEn (slot : MbSlot)
  /-- CONFIG_SET option 5 sets the device identifier while no port is UP (R436). -/
  | deviceId (slot : MbSlot)
  /-- CONFIG_SET option 6 sets PERIOD_H of every stack (R436). -/
  | scrubPeriod (slot : MbSlot)
  /-- COLOPHON_READ copies a snapshot of the Colophon view to companion memory (R398). -/
  | colophonRead (slot : MbSlot)
  /-- PART_MODE changes the partition mode while every partition is idle (R275). -/
  | partMode (slot : MbSlot)
  /-- PART_RELEASE under DRAIN lets work complete before releasing the partition (R299). -/
  | partReleaseDrain (slot : MbSlot)
  /-- PART_RELEASE under SQUASH destroys the partition's work and then releases it (R299). -/
  | partReleaseSquash (slot : MbSlot)
  /-- DRAIN_LIMIT passes and remaining work is handled as under SQUASH (R299). -/
  | drainLimit (part : PartNo)
  /-- At the scheduled window boundary the Shelvers begin zeroing the released partition's Shelves (R488). -/
  | partitionScrub (part : PartNo)
  /-- PART_QUIESCE pre-empts and saves every context and stops the partition's queues (R301). -/
  | partQuiesce (slot : MbSlot)
  /-- PART_QUIESCE with CANCEL resumes a quiesced partition (R301). -/
  | partQuiesceCancel (slot : MbSlot)
  /-- PART_EXPORT writes the partition's state image and its digest (R301). -/
  | partExport (slot : MbSlot)
  /-- PART_IMPORT verifies and installs a state image (R301). -/
  | partImport (slot : MbSlot)
  /-- DS_SET arms a Datestamp step at the next accepted SYNC_IN pulse (R342). -/
  | dsSet (slot : MbSlot)
  /-- PWR_SET with WHAT 0 sets the part cap, stretching Bays at once if power exceeds it (R361). -/
  | pwrCap (slot : MbSlot)
  /-- PWR_SET with WHAT 1 sets a Volume's FREQ_TARGET (R350). -/
  | freqTarget (slot : MbSlot)
  /-- SCHED_SET sets TIMESLICE and PREEMPT_GRACE of the partition (R402). -/
  | schedSet (slot : MbSlot)
  /-- BW_GUARANTEE commits, changes or withdraws a bandwidth guarantee after admission (R177). -/
  | bwGuarantee (slot : MbSlot)
  /-- ROUTE_LOAD loads a route table into the standby bank (R319). -/
  | routeLoad (slot : MbSlot) (table : List Byte)
  /-- PORT_CONFIG writes a port's FP_CTRL, enabling, configuring or retraining it (R304). -/
  | portConfig (slot : MbSlot)
  /-- MAINT_FUSE makes soft repairs permanent and raises SEC_VERSION (R77). -/
  | maintFuse (slot : MbSlot)
  /-- FM_SEND sends fabric-manager payload to another part's Registrar (R439). -/
  | fmSend (slot : MbSlot)
  /-- CTX_CREATE creates a context with its root, fault mode, seed and save area (R371). -/
  | ctxCreate (slot : MbSlot)
  /-- CTX_SET changes a context's SEED (R371). -/
  | ctxSet (slot : MbSlot)
  /-- CTX_RESUME re-checks the save area and makes a FAULTED context RUNNABLE (R373). -/
  | ctxResume (slot : MbSlot)
  /-- CTX_DESTROY destroys a context and its queues within 5 ms (R395). -/
  | ctxDestroy (slot : MbSlot)
  /-- T + 1 ms passes and tiles of a destroyed context or queue still running are killed by Bay reset (R395). -/
  | destroyTileKill (bay : BayNo)
  /-- FAULT_ACK returns fault ring slots (R374). -/
  | faultAck (slot : MbSlot)
  /-- FAULT_RETRY walks a page again and resumes or fails the record's holders (R261). -/
  | faultRetry (slot : MbSlot)
  /-- FAULT_ABORT ends every holder of a record with its STATUS (R261). -/
  | faultAbort (slot : MbSlot)
  /-- QUEUE_CREATE creates a queue with its rings and vector (R376). -/
  | queueCreate (slot : MbSlot)
  /-- QUEUE_DESTROY ends one queue's commands and releases it (R396). -/
  | queueDestroy (slot : MbSlot)
  /-- IMAGE_REGISTER checks and registers a kernel image (R144). -/
  | imageRegister (slot : MbSlot)
  /-- IMAGE_UNREGISTER drops a kernel-image registration's hold (R393). -/
  | imageUnregister (slot : MbSlot)
  /-- MEM_ALLOC reserves and zeroes a contiguous range in the partition's Shelves (R392). -/
  | memAlloc (slot : MbSlot)
  /-- MEM_IMPORT gives a context a hold on a LIVE memory object (R393). -/
  | memImport (slot : MbSlot)
  /-- MEM_FREE drops the issuing context's hold on a memory object (R393). -/
  | memFree (slot : MbSlot)
  /-- MEM_RECLAIM releases a QUARANTINED memory object (R394). -/
  | memReclaim (slot : MbSlot)
  /-- FENCE_TABLE sets the partition's fence table (R388). -/
  | fenceTable (slot : MbSlot)
  /-- FENCE_ALLOC allocates a fence with an initial value (R388). -/
  | fenceAlloc (slot : MbSlot)
  /-- FENCE_SIGNAL raises a fence's value and releases its waiters (R389). -/
  | fenceSignal (slot : MbSlot)
  /-- FENCE_RESET clears a fence's poison (R390). -/
  | fenceReset (slot : MbSlot)
  /-- FENCE_FREE retires a fence (R391). -/
  | fenceFree (slot : MbSlot)
  /-- FENCE_WAIT registers a wait that posts FENCE_REACHED when the fence reaches the value or is poisoned (R438). -/
  | fenceWait (slot : MbSlot)
  /-- CAT_INVALIDATE removes covered translations and drains accesses that used them (R264). -/
  | catInvalidate (slot : MbSlot)
  /-- DLOG_SET sets the dirty-log ring and enables it (R269). -/
  | dlogSet (slot : MbSlot)
  /-- DLOG_RETURN sets DLOG_RD and clears OVERFLOW (R270). -/
  | dlogReturn (slot : MbSlot)
  /-- WIN_SET writes a receiving-side window entry (R266). -/
  | winSet (slot : MbSlot)
  /-- WIN_CLEAR clears a window's VALID (R266). -/
  | winClear (slot : MbSlot)
  /-- LEDGER_RING sets or replaces the partition's Ledger ring (R419). -/
  | ledgerRing (slot : MbSlot)
  /-- LEDGER_ACK returns Ledger ring slots and lets held records be written (R419). -/
  | ledgerAck (slot : MbSlot)
  /-- LEDGER_QUERY writes a context's or the part's running counters as a record (R421). -/
  | ledgerQuery (slot : MbSlot)
  /-- VOL_CREATE creates a Volume, by a round when it spans parts (R281). -/
  | volCreate (slot : MbSlot) (map : List Byte)
  /-- VOL_MODIFY opens a round that replaces the Volume's map (R281). -/
  | volModify (slot : MbSlot) (map : List Byte)
  /-- VOL_DESTROY opens a round to an empty map and frees the handle (R281). -/
  | volDestroy (slot : MbSlot)
  /-- VOL_RECOVER makes this part coordinator and resolves a failed coordinator's round (R290). -/
  | volRecover (slot : MbSlot)
  /-- VOL_PREEMPT relays a whole-Volume pre-emption to every member (R416). -/
  | volPreempt (slot : MbSlot)
  /-- VOL_RESUME resumes placement on a pre-empted Volume (R416). -/
  | volResume (slot : MbSlot)
  /-- SHELF_MIGRATE phase COPY runs MIGRATE with the mirror left active (R294). -/
  | shelfMigrateCopy (slot : MbSlot)
  /-- SHELF_MIGRATE phase FINISH invalidates, flushes, stops the mirror and zeroes the source (R295). -/
  | shelfMigrateFinish (slot : MbSlot)
  /-- SEAL_POLICY sets the partition's policy of allowed image digests (R481). -/
  | sealPolicy (slot : MbSlot) (policy : List Byte)
  /-- ATTEST writes a signed Provenance report, optionally with an ephemeral KEM key (R477). -/
  | attest (slot : MbSlot)
  /-- KEY_IMPORT decapsulates and unwraps a weight key into a Carrel slot (R482). -/
  | keyImport (slot : MbSlot) (blob : List Byte)
  /-- KEY_DESTROY empties a key slot (R480). -/
  | keyDestroy (slot : MbSlot)
  /-- PEER_READ returns a port peer's DevID digest (R480). -/
  | peerRead (slot : MbSlot)
  /-- LC_RETURN phase 0 draws and returns a challenge (R467). -/
  | lcReturnChallenge (slot : MbSlot)
  /-- LC_RETURN phase 1 verifies the token, wipes the Carrel and moves the part to RETURN (R467). -/
  | lcReturnToken (slot : MbSlot) (token : List Byte)
  /-- PEER_STATE FAILED ends collectives naming the device and counts its votes as MISSING (R519). -/
  | peerStateFailed (slot : MbSlot)
  /-- PEER_STATE RESTORED reports that the device serves again (R519). -/
  | peerStateRestored (slot : MbSlot)
  /-- A partition reset resets its Bays, ends its Shelver work, flushes its ways and replays its tiles (R508). -/
  | partReset (slot : MbSlot)
  /-- DEVICE_RESET performs a device warm reset, optionally reloading the image (R519). -/
  | deviceReset (slot : MbSlot)
  /-- A companion RD_NC is checked and served as an uncached read (R449). -/
  | rdNc (port : Fin 2) (m : OtHead)
  /-- A companion WR_NC is checked and served as an uncached write (R449). -/
  | wrNc (port : Fin 2) (m : OtHead)
  /-- A companion ATOMIC message is performed as a far AMO and returns the old value (R452). -/
  | otAtomic (port : Fin 2) (m : OtHead)
  /-- A REG_RD reads a function register window word (R453). -/
  | regRd (port : Fin 2) (m : OtHead)
  /-- A REG_WR writes a function register window word, posted (R453). -/
  | regWr (port : Fin 2) (m : OtHead)
  /-- A TIME_REQ is answered with a TIME_RSP carrying T_RX and T_TX (R457). -/
  | timeReq (port : Fin 2) (m : OtHead)
  /-- A DATA response reaches its requester, completing a CM_RD or read (R454). -/
  | data (port : Fin 2) (m : OtHead)
  /-- An ACK response reaches its requester, completing a write (R454). -/
  | ack (port : Fin 2) (m : OtHead)
  /-- A CM request passes OT_DEADLINE and is reissued when the port is UP (R455). -/
  | cmDeadline (tag : BitVec 12)
  /-- An Otfold lane fails and the port retrains on one half or stays DOWN (R441). -/
  | otLaneFail (port : Fin 2) (lane : Fin 8)
  /-- RETRAIN written to OT_CTRL makes a HELD port train again (R442). -/
  | otRetrain (port : Fin 2)
  /-- A tamper sensor fires; the Carrel is wiped, TAMPER_COUNT advanced and a Device-fatal event raised (R475). -/
  | tamper
  /-- The MCTP GET_PROVENANCE command returns a device-scope report (R478). -/
  | getProvenance (nonce : BitVec 512)
  /-- The MCTP GET_TELEMETRY command returns the 32-byte telemetry block (R539). -/
  | getTelemetry
  /-- The MCTP SET_PWR_CAP command sets PWR_CAP (R538). -/
  | setPwrCap (watts : BitVec 16)
  /-- The MCTP GET_RESET_STATUS command returns RST_CAUSE, BR_STATUS and BOOT_COUNT (R538). -/
  | getResetStatus
  /-- The MCTP CLEAR_ALERT command clears ALERTS bits whose conditions no longer hold (R539). -/
  | clearAlert (mask : BitVec 16)
  /-- Every 1 s the telemetry block is refreshed (R538). -/
  | telemetryRefresh
  /-- Rails come within limits and the internal power-on reset is released (R495). -/
  | powerOnReset
  /-- A rail falls below 90 % of nominal for 1 µs and holds every block in power-on reset (R532). -/
  | railBelowThreshold
  /-- RESET_N goes low and the 1 µs assertion filter starts (R495). -/
  | resetNFall
  /-- RESET_N rises before 1 µs low and the pulse is ignored (R495). -/
  | shortPulse
  /-- RESET_N has been low for 1 µs and a device warm reset is requested (R495). -/
  | resetNAssert
  /-- RESET_N rises; straps are latched and start-up begins (R497). -/
  | resetNRise (clkMode : Fin 4) (slot : Fin 8) (bootSrc : Fin 4) (refclk : Bool)
  /-- The boot source finishes delivering the image, or fails, and the boot ROM checks or retries (R499). -/
  | imageReadDone (cause : Fin 6) (image : List Byte)
  /-- LOAD written to BR_CMD reads the image from companion memory and checks it (R500). -/
  | bootLoad
  /-- RETRY_SOURCE written to BR_CMD makes the boot ROM read the strapped source again (R500). -/
  | retrySource
  /-- Ndomond does not kick the watchdog for 5 ms and failover begins (R504). -/
  | registrarWatchdog
  /-- A lockstep comparator mismatch hands control to the standby pair (R509). -/
  | lockstepMismatch (pair : Fin 2)
  /-- The failed pair's reset and self-test end and it becomes the standby (R510). -/
  | pairResetDone (passed : Bool)
  /-- Both pairs have failed and the sequencer restarts the Registrar (R511). -/
  | registrarRestart
  /-- A reset overruns its allowance and the sequencer starts the next level (R507). -/
  | stepTimerOverrun (level : Fin 8) (instance_ : Nat)
  /-- A Device-fatal event closes every wrapper and performs a device warm reset (R512). -/
  | deviceFatal (cause : Fin 8)
  /-- A device warm reset flushes the MSCs, enters self-refresh and restarts the part (R494). -/
  | deviceWarmReset (cause : Fin 8)
  /-- The JTAG BYPASS instruction (R540). -/
  | bypass
  /-- The JTAG IDCODE instruction returns the identification code (R540). -/
  | idcode
  /-- The JTAG SAMPLE/PRELOAD instruction (R540). -/
  | samplePreload (cells : Nat)
  /-- The JTAG CLAMP instruction, effective only while RESET_N is low (R540). -/
  | clamp
  /-- The JTAG HIGHZ instruction, effective only while RESET_N is low (R540). -/
  | highz
  /-- The JTAG EXTEST instruction, effective only while RESET_N is low (R540). -/
  | extest (cells : Nat)
  /-- The IEEE 1149.6 EXTEST_PULSE instruction, effective only while RESET_N is low (R540). -/
  | extestPulse (cells : Nat)
  /-- The IEEE 1149.6 EXTEST_TRAIN instruction, effective only while RESET_N is low (R540). -/
  | extestTrain (cells : Nat)
  /-- A reference clock that was missing at step 2 of start-up starts running, and start-up continues past step 2 (R497). -/
  | refclkPresent
  /-- A fenced vector or scalar core's reset completes, and the Registrar clears its CORE_FENCE bit and reopens it (R90). -/
  | coreResetDone (bay : BayNo) (core : Fin 10)
  /-- A Bay reset reports completion, after which the wrapper may reopen and replays may use the Bay again (R503). -/
  | bayResetDone (bay : BayNo)
  /-- A Shelver reset completes within 100 µs and the Shelver serves its kept queued commands again (R221). -/
  | shelverResetDone (sh : ShelverNo)
  /-- An MSC flush before self-refresh entry has not finished within 1 ms, so the controller loses its remaining dirty lines and a Device-fatal event is raised (R180). -/
  | mscFlushLimit (k : StackNo)
  /-- VOL_PREEMPT completes with TIMEOUT when a member has not reported by PREEMPT_AT + PREEMPT_GRACE + 500 µs (R416). -/
  | volPreemptTimeout (handle : Word)
  /-- A mailbox command that has been read but not started by its DEADLINE completes with TIMEOUT and has no effect (R432). -/
  | mailboxDeadline (slot : MbSlot)
  /-- An ephemeral ML-KEM key expires 600 s after its STAMP and is destroyed (R477). -/
  | kemKeyExpiry (key : Fin 32)
  /-- A fuse program pulse ends, and a reset that was delayed by the pulse takes effect and sets FUSE_DELAY (R502). -/
  | fusePulseEnd
  /-- SMB_CLOCK is held low for 35 ms and the part abandons the SMBus transaction (R537). -/
  | smbusClockLowTimeout
  /-- In isolated mode, the waiters of a miss resume exactly at allocation plus 25 µs (R490). -/
  | missFixedResume (record : Fin 512)
  /-- In isolated mode, a mailbox command whose R437 bound is a fixed time is answered exactly at that bound after it is read (R490). -/
  | mailboxFixedAnswer (slot : MbSlot)
  /-- The one-second interval for a source's Corrected events ends, and an ERROR with COUNT of the events since the last one is posted (R516). -/
  | correctedReportInterval (source : Nat)
  /-- A collective ABORT from another member reaches a collective engine, which completes the collective with TIMEOUT or ABORTED (R331). -/
  | collAbort (engine : Fin 4) (pkt : Packet)
  deriving DecidableEq, Repr

end Sys2Proof
end

