-- ==== Sys2Proof/Decode.lean ====
section
/-! DEFINITION. The table gives its rows no bits: no word spells a command. -/

namespace Sys2Proof

/-- The command that a word spells by the table's bits; the table gives none (spec/opcode_table.json). -/
def decodeTableWord (_nbits _w : Nat) : Option Instr := none

end Sys2Proof
end

