-- ==== Sys2Proof/Config.lean ====
section
/-! DEFINITION. What the spec leaves open: free values, each a constant with no body, and what differs from part to part. -/

namespace Sys2Proof.Config

/-- A byte of an undefined or mixed content, by the counter of free values (03 R78, 05 R148, 07 R208; assumption 3). -/
opaque freeByte : Nat → Byte
/-- A value of 64 bits that the spec leaves open, by the counter of free values (assumption 3). -/
opaque freeWord : Nat → DWord
/-- A value of 512 bits drawn or computed by means the spec does not give, by the counter of free values (17; assumption 3). -/
opaque freeWide : Nat → BitVec 512
/-- The reserved bits of the registers on function 0 that are live test controls under P, by block number and offset (00 R6; assumption 3). -/
opaque testControls : Nat → Nat → Word
/-- Which of the encodings that R52's bound leaves a function gives, by function, width and input (02 R52; assumption 22). -/
opaque functionPick : Nat → Nat → Nat → Nat
/-- Where within R55's bound an activation's value lies, by activation and input (02 R55; assumption 22). -/
opaque activationPick : Nat → Nat → BitVec 512
/-- A Volume's relative power at a frequency code, from the part's fused voltage and frequency table (12 R364; assumption 21). -/
opaque powerScale : Nat → Nat
/-- The unique device secret (17 R464, R469; assumption 21). -/
opaque uds : BitVec 256
/-- The boot ROM's digests of the firmware signing keys, by KEY_INDEX (17 R471; assumption 21). -/
opaque signerDigest : Nat → BitVec 512
/-- Tvedwen's return key (17 R467; assumption 21). -/
opaque returnKey : List Byte
/-- Rows that the repair fuses have room for (15 R435, 17 R464; assumption 21). -/
opaque fuseRoom : Nat
/-- ML-DSA-87: the public key of a seed, a signature under a seed, and verification, none of them computed by this model (17 R469; assumption 20). -/
opaque dsaPublic : List Byte → List Byte
opaque dsaSign : List Byte → List Byte → List Byte
opaque dsaVerify : List Byte → List Byte → List Byte → Bool
/-- ML-KEM-1024: the encapsulation key of a key pair, and the shared secret that it decapsulates from a ciphertext (17 R477, R482; assumption 20). -/
opaque kemPublic : Nat → List Byte
opaque kemDecap : Nat → List Byte → List Byte
/-- Tvedwen's JEDEC manufacturer code (19 R540; assumption 21). -/
opaque jedecCode : BitVec 11
/-- Which vl a vset gives where V 1.0 leaves a range, by AVL and VLMAX (05 R126; assumption 20). -/
opaque vlChoice : Nat → Nat → Nat

end Sys2Proof.Config
end

