-- ==== Sys2Proof/Machine/Bits.lean ====
section
/-! DEFINITION. Bit fields, little-endian bytes, keyed tables and byte memories: the plain data every other file is written over. -/

namespace Sys2Proof.Machine

/-- The `w` bits of `v` that begin at bit `lo` of byte `off`, as descriptor and record tables number them (03 R69, 13 R385). -/
def fld {n : Nat} (v : BitVec n) (off lo w : Nat) : Nat := (v.toNat >>> (8 * off + lo)) % 2 ^ w

/-- Bit `lo` of byte `off`. -/
def flag {n : Nat} (v : BitVec n) (off lo : Nat) : Bool := fld v off lo 1 == 1

/-- The `w` bits of the number `v` from bit `lo`. -/
def bitsAt (v lo w : Nat) : Nat := (v >>> lo) % 2 ^ w

/-- A field of a word under construction: `x` cut to `w` bits, placed at bit `lo`. -/
def put (x lo w : Nat) : Nat := (x % 2 ^ w) <<< lo

/-- A Boolean as a bit. -/
def bit (b : Bool) : Nat := if b then 1 else 0

/-- Two's complement of the low `w` bits of `v`. -/
def sext (v w : Nat) : Int := let x := v % 2 ^ w; if x < 2 ^ (w - 1) then x else (x : Int) - (2 ^ w : Nat)

/-- An integer as `w` bits of two's complement. -/
def toBits (x : Int) (w : Nat) : Nat := (x % ((2 ^ w : Nat) : Int)).toNat

/-- `n` bytes of `v`, least significant first (00 R2). -/
def bytesLE : Nat → Nat → List Byte
  | 0, _ => []
  | n + 1, v => BitVec.ofNat 8 v :: bytesLE n (v / 256)

/-- The number whose little-endian bytes are `bs`. -/
def natLE : List Byte → Nat
  | [] => 0
  | b :: bs => b.toNat + 256 * natLE bs

/-- `n` rounded down, or up, to a multiple of `k`. -/
def alignDown (n k : Nat) : Nat := n - n % k
def alignUp (n k : Nat) : Nat := (n + k - 1) / k * k

/-- Floor of the binary logarithm (0 for 0). -/
def log2 (n : Nat) : Nat := Nat.log2 n

/-- Whether `n` is a power of two. -/
def isPow2 (n : Nat) : Bool := n != 0 && n &&& (n - 1) == 0

/-! Keyed tables: key and value pairs, keys strictly rising, so that equal tables are equal data. -/

/-- A sparse table. -/
abbrev Tbl (α : Type) := List (Nat × α)

namespace Tbl

/-- The entry of a key. -/
def find {α : Type} : Tbl α → Nat → Option α
  | [], _ => none
  | (k, v) :: t, i => if k = i then some v else if i < k then none else find t i

/-- The entry of a key, or what an unlisted key holds. -/
def getD {α : Type} (t : Tbl α) (i : Nat) (d : α) : α := (find t i).getD d

/-- Sets an entry. -/
def put {α : Type} : Tbl α → Nat → α → Tbl α
  | [], i, v => [(i, v)]
  | (k, w) :: t, i, v => if k = i then (i, v) :: t else if i < k then (i, v) :: (k, w) :: t else (k, w) :: put t i v

/-- Removes an entry. -/
def del {α : Type} : Tbl α → Nat → Tbl α
  | [], _ => []
  | (k, w) :: t, i => if k = i then t else (k, w) :: del t i

/-- Rewrites an entry that stands. -/
def upd {α : Type} (t : Tbl α) (i : Nat) (f : α → α) : Tbl α :=
  match find t i with
  | some v => put t i (f v)
  | none => t

/-- Rewrites an entry, an unlisted one taken as `d`. -/
def updD {α : Type} (t : Tbl α) (i : Nat) (d : α) (f : α → α) : Tbl α := put t i (f (getD t i d))

/-- Whether a key is listed. -/
def has {α : Type} (t : Tbl α) (i : Nat) : Bool := (find t i).isSome

/-- The entries that satisfy a test. -/
def keep {α : Type} (t : Tbl α) (p : Nat → α → Bool) : Tbl α := List.filter (fun e => p e.1 e.2) t

/-- Every value rewritten. -/
def mapV {α : Type} (t : Tbl α) (f : Nat → α → α) : Tbl α := List.map (fun e => (e.1, f e.1 e.2)) t

/-- The smallest key not below `lo` that is not listed, below `hi`. -/
def freeKey {α : Type} (t : Tbl α) (lo hi : Nat) : Option Nat :=
  ((List.range (t.length + 1)).map (· + lo)).find? (fun k => decide (k < hi) && !has t k)

/-- The canonical form: keys strictly rising. -/
def wf {α : Type} : Tbl α → Bool
  | [] => true
  | [_] => true
  | (a, _) :: (b, w) :: t => decide (a < b) && wf ((b, w) :: t)

end Tbl

/-! Byte memories: an unlisted address reads as zero; addresses strictly rising; no zero listed. -/

/-- A byte-addressed memory. -/
abbrev Mem := List Host.Cell

namespace Mem

/-- What an address no write has reached reads as (assumption 2). -/
def unlisted : Byte := 0#8

/-- One byte. -/
def read : Mem → Nat → Byte
  | [], _ => unlisted
  | (k, v) :: m, a => if k = a then v else if a < k then unlisted else read m a

/-- One byte written; writing what an unlisted address reads as removes the entry. -/
def write : Mem → Nat → Byte → Mem
  | [], a, b => if b = unlisted then [] else [(a, b)]
  | (k, v) :: m, a, b =>
    if k = a then (if b = unlisted then m else (a, b) :: m)
    else if a < k then (if b = unlisted then (k, v) :: m else (a, b) :: (k, v) :: m)
    else (k, v) :: write m a b

/-- `n` bytes from `a`. -/
def readN (m : Mem) (a n : Nat) : List Byte := (List.range n).map (fun i => read m (a + i))

/-- Bytes written from `a` up. -/
def writeN : Mem → Nat → List Byte → Mem
  | m, _, [] => m
  | m, a, b :: bs => writeN (write m a b) (a + 1) bs

/-- A little-endian number of `n` bytes at `a`. -/
def readLE (m : Mem) (a n : Nat) : Nat := natLE (readN m a n)

/-- A little-endian number of `n` bytes written at `a`. -/
def writeLE (m : Mem) (a n v : Nat) : Mem := writeN m a (bytesLE n v)

/-- Every byte of [`lo`, `hi`) back to what an unlisted address reads as. -/
def clear (m : Mem) (lo hi : Nat) : Mem := List.filter (fun c => decide (c.1 < lo ∨ hi ≤ c.1)) m

/-- The canonical form. -/
def wf : Mem → Bool
  | [] => true
  | [(_, v)] => v != unlisted
  | (a, v) :: (b, w) :: m => decide (a < b) && v != unlisted && wf ((b, w) :: m)

end Mem

/-! Small sets of numbers, rising, without repeats. -/

/-- A set of numbers. -/
abbrev NSet := List Nat

namespace NSet

/-- Adds a member. -/
def ins : NSet → Nat → NSet
  | [], a => [a]
  | b :: t, a => if a = b then b :: t else if a < b then a :: b :: t else b :: ins t a

/-- Removes a member. -/
def rem (s : NSet) (a : Nat) : NSet := List.filter (fun b => b != a) s

end NSet

/-- A list entry rewritten by position. -/
def setAt {α : Type} : List α → Nat → α → List α
  | [], _, _ => []
  | _ :: t, 0, v => v :: t
  | a :: t, i + 1, v => a :: setAt t i v

/-- `n` copies of a list, joined. -/
def cycleTo {α : Type} (p : List α) (n : Nat) : List α := ((List.replicate (n / max p.length 1 + 1) p).flatten).take n

/-- A list cut into pieces of `k`. -/
def chunks {α : Type} (k : Nat) (l : List α) : List (List α) :=
  (List.range ((l.length + k - 1) / max k 1)).map (fun i => (l.drop (i * k)).take k)

end Sys2Proof.Machine
end

