-- ==== Sys2Proof/Machine/Flags.lean ====
section
/-! DEFINITION. Status registers: EVT_SEQ, events that set flags, and the sequence write that clears them (00_scope.md R5). -/

namespace Sys2Proof.Machine

/-- EVT_SEQ of a status register (00 R5). -/
def evtSeq (r : Word) : Nat := r.toNat % 65536

/-- An event: EVT_SEQ advances by one, the fields of `mask` take the bits of `v` (00 R5). -/
def statusEvent (r : Word) (mask v : Nat) : Word :=
  (r &&& ~~~(BitVec.ofNat 32 (mask ||| 0xFFFF))) ||| (BitVec.ofNat 32 v &&& BitVec.ofNat 32 mask &&& 0xFFFF0000#32)
    ||| BitVec.ofNat 32 ((evtSeq r + 1) % 65536)

/-- An event that sets one flag and leaves the others. -/
def statusFlag (r : Word) (b : Nat) : Word := statusEvent r (2 ^ b) (2 ^ b)

/-- A sequence write: the flags of `clearable` clear only where the value written is the present EVT_SEQ; EVT_SEQ stays (00 R5). -/
def statusClear (r : Word) (clearable v : Nat) : Word :=
  if v % 65536 == evtSeq r then r &&& ~~~(BitVec.ofNat 32 clearable &&& 0xFFFF0000#32) else r

/-- A counter that saturates at 32 bits. -/
def satInc (r : Word) (n : Nat := 1) : Word := BitVec.ofNat 32 (min (r.toNat + n) 0xFFFFFFFF)

end Sys2Proof.Machine
end

