-- ==== Sys2Proof/Machine/StateCat.lean ====
section
/-! DEFINITION. State records of the Catalogue (09_translation.md). -/

namespace Sys2Proof.Machine

/-- An entry of the Catalogue, or a local translation filled from one (09 R252, R253). -/
structure CatEntry where
  /-- Context as partition × 4096 + index, or 2^20 + window (09 R252). -/
  key : Nat
  /-- Partition in whose share it lies (09 R252). -/
  part : Nat
  /-- Virtual base of the extent, and its bytes (09 R249). -/
  va : Nat
  bytes : Nat
  /-- The leaf (09 R246, R247). -/
  leaf : DWord
  /-- Dirty mask of a DLOG page (09 R268). -/
  mask : Nat := 0
  deriving DecidableEq, Repr

/-- A requester that waits on a miss record (09 R253, R255). -/
structure Waiter where
  /-- Requester number (09 R253). -/
  req : Nat
  /-- Mover port, Shelver queue, or collective that presented the lookup. -/
  port : Nat := 0
  /-- 0 read, 1 write, 2 fetch, 3 AMO (09 R259). -/
  access : Nat
  /-- The failing address it would name. -/
  va : Nat
  deriving DecidableEq, Repr

/-- A miss record (09 R255). -/
structure MissRec where
  key : Nat
  part : Nat
  /-- The 2 MiB-aligned virtual address. -/
  va : Nat
  waiters : List Waiter := []
  /-- Datestamp at which it was taken (09 R257). -/
  taken : Nat := 0
  /-- In isolated mode, whether the walk has ended and its waiters wait for the fixed instant (17 R490). -/
  walked : Bool := false
  deriving DecidableEq, Repr

/-- A window entry (09 R266). -/
structure WinEntry where
  part : Nat
  r : Bool
  w : Bool
  atomic : Bool
  sealPeer : Bool
  volume : Nat
  root : Nat
  limit : Nat
  deriving DecidableEq, Repr

/-- A partition's dirty-log block (09 R269, R272). -/
structure Dlog where
  /-- DLOG_BASE (09 R272); reset 0. -/
  base : DWord := 0#64
  /-- DLOG_CTRL (09 R272); reset 0x28. -/
  ctrl : Word := 0x28#32
  /-- DLOG_WR (09 R272); reset 0. -/
  wr : Word := 0#32
  /-- DLOG_RD (09 R272); reset 0. -/
  rd : Word := 0#32
  deriving DecidableEq, Repr

/-- A CAT_INVALIDATE that runs (09 R263, R264). -/
structure Inval where
  /-- Partition whose translations it covers. -/
  part : Nat
  /-- 0 a range of a context, 1 a context, 2 a range of a window, 3 the partition. -/
  scope : Nat
  key : Nat
  base : Nat
  bytes : Nat
  /-- Miss records of the scope that were busy when it started and have not been walked since. -/
  misses : NSet := []
  /-- Whether no translation of the scope remains since it started (09 R264 point 1). -/
  clear : Bool := false
  /-- Whether the misses of the scope are held until a SHELF_MIGRATE FINISH serves them (10 R295). -/
  hold : Bool := false
  deriving DecidableEq, Repr

/-- The Catalogue (09 R252, R272). -/
structure Cat where
  /-- CAT_STATUS (09 R272); reset 0. -/
  status : Word := 0#32
  /-- MISS_COUNT (09 R272); reset 0. -/
  missCount : Word := 0#32
  /-- FAULT_COUNT (09 R272); reset 0. -/
  faultCount : Word := 0#32
  /-- WALK_MAX in ns (09 R272); reset 0. -/
  walkMax : Word := 0#32
  /-- Entries, most recently used first (09 R252); none. -/
  entries : List CatEntry := []
  /-- Miss records 0 to 511 (09 R255); none. -/
  misses : Tbl MissRec := []
  /-- ROOT pairs as last written of context slots that hold no context, 0 where not listed (09 R272); reset 0. -/
  roots : Tbl DWord := []
  /-- Receiving-side windows (09 R266); none. -/
  windows : Tbl WinEntry := []
  /-- Window entries written word by word and not VALID, 0 where not listed (09 R266, R272); reset 0. -/
  winWords : Tbl (BitVec 256) := []
  /-- Dirty-log blocks by partition, as after reset where not listed (09 R272). -/
  dlog : Tbl Dlog := []
  /-- Invalidations that run, by function × 65536 + mailbox index (09 R264); none. -/
  invals : Tbl Inval := []
  /-- Local translations of a core, most recent first, by its requester number: at most 32; of a collective engine: at most 128 (09 R253); none. -/
  locals : Tbl (List CatEntry) := []
  deriving DecidableEq, Repr

end Sys2Proof.Machine
end

