-- ==== Sys2Proof/Machine/Numerics.lean ====
section
/-! DEFINITION. Number formats, rounding, MX blocks, the A192 accumulator, FP64 slicing and stochastic rounding (02_arithmetic.md R22 to R50, R56). -/

namespace Sys2Proof.Machine

/-- The floating-point formats of R24. -/
inductive FloatFmt where
  | fp64 | fp32 | bf16 | fp16 | e4m3 | e5m2 | e3m2 | e2m3 | e2m1
  deriving DecidableEq, Repr

/-- Element formats of MX blocks (R22, R24). -/
inductive MxElem where
  | flt (f : FloatFmt)
  | int8
  deriving DecidableEq, Repr

/-- The formats that a 5-bit code of R22 names. -/
inductive Fmt where
  | flt (f : FloatFmt)
  | int8 | int32 | e8m0
  | mx (e : MxElem)
  | a192
  deriving DecidableEq, Repr

/-- The format of a code; a reserved code has none (R22). -/
def Fmt.ofCode : Nat → Option Fmt
  | 0x00 => some (.flt .fp64) | 0x01 => some (.flt .fp32) | 0x02 => some (.flt .bf16)
  | 0x03 => some (.flt .fp16) | 0x04 => some (.flt .e4m3) | 0x05 => some (.flt .e5m2)
  | 0x06 => some (.flt .e3m2) | 0x07 => some (.flt .e2m3) | 0x08 => some (.flt .e2m1)
  | 0x09 => some .int8 | 0x0A => some .int32 | 0x0B => some .e8m0
  | 0x10 => some (.mx (.flt .e4m3)) | 0x11 => some (.mx (.flt .e5m2))
  | 0x12 => some (.mx (.flt .e3m2)) | 0x13 => some (.mx (.flt .e2m3))
  | 0x14 => some (.mx (.flt .e2m1)) | 0x15 => some (.mx .int8)
  | 0x1F => some .a192
  | _ => none

namespace FloatFmt

/-- Exponent bits, mantissa bits and bias (R24). -/
def eb : FloatFmt → Nat
  | .fp64 => 11 | .fp32 => 8 | .bf16 => 8 | .fp16 => 5 | .e4m3 => 4 | .e5m2 => 5 | .e3m2 => 3 | .e2m3 => 2 | .e2m1 => 2
def mb : FloatFmt → Nat
  | .fp64 => 52 | .fp32 => 23 | .bf16 => 7 | .fp16 => 10 | .e4m3 => 3 | .e5m2 => 2 | .e3m2 => 2 | .e2m3 => 3 | .e2m1 => 1
def bias : FloatFmt → Nat
  | .fp64 => 1023 | .fp32 => 127 | .bf16 => 127 | .fp16 => 15 | .e4m3 => 7 | .e5m2 => 15 | .e3m2 => 3 | .e2m3 => 1 | .e2m1 => 1

/-- Whether the format has infinities (R24). -/
def hasInf : FloatFmt → Bool
  | .fp64 | .fp32 | .bf16 | .fp16 | .e5m2 => true
  | _ => false

/-- Element width in bits (R22). -/
def width (f : FloatFmt) : Nat := 1 + f.eb + f.mb

/-- The exponent of the least normal number. -/
def emin (f : FloatFmt) : Int := 1 - (f.bias : Int)

/-- The encoding of the largest finite magnitude (R24). -/
def maxEnc (f : FloatFmt) : Nat :=
  if f.hasInf then (2 ^ f.eb - 1) * 2 ^ f.mb - 1 else if f = .e4m3 then 0x7E else 2 ^ (f.eb + f.mb) - 1

/-- emax of R24. -/
def emax (f : FloatFmt) : Int :=
  if f.hasInf then (2 ^ f.eb - 2 : Nat) - (f.bias : Int) else (2 ^ f.eb - 1 : Nat) - (f.bias : Int)

/-- The encoding of +infinity, where there is one. -/
def infEnc (f : FloatFmt) : Nat := (2 ^ f.eb - 1) * 2 ^ f.mb

/-- The canonical NaN of R26; a format without NaN stores +0 (R28). -/
def nanEnc : FloatFmt → Nat
  | .fp64 => 0x7FF8000000000000 | .fp32 => 0x7FC00000 | .bf16 => 0x7FC0 | .fp16 => 0x7E00
  | .e4m3 => 0x7F | .e5m2 => 0x7E | _ => 0

/-- Whether the format has a NaN. -/
def hasNan : FloatFmt → Bool
  | .e3m2 | .e2m3 | .e2m1 => false
  | _ => true

end FloatFmt

/-- Element width in bits of a format (R22). -/
def Fmt.width : Fmt → Nat
  | .flt f => f.width
  | .int8 | .e8m0 => 8
  | .int32 => 32
  | .mx (.flt f) => f.width
  | .mx .int8 => 8
  | .a192 => 256

/-- Whether the format is an MX format. -/
def Fmt.isMx : Fmt → Bool
  | .mx _ => true
  | _ => false

/-- emax of an MX element (R24). -/
def MxElem.emax : MxElem → Int
  | .flt f => f.emax
  | .int8 => 0

/-- A number read from memory: NaN, an infinity, or (−1)^neg × m × 2^e exactly. -/
inductive Val where
  | nan
  | inf (neg : Bool)
  | fin (neg : Bool) (m : Nat) (e : Int)
  deriving DecidableEq, Repr

/-- +0. -/
def Val.zero : Val := .fin false 0 0

/-- An integer as a value. -/
def Val.ofInt (i : Int) (e : Int := 0) : Val := .fin (decide (i < 0)) i.natAbs e

/-- The value of a float's bits (R24 to R26). -/
def decodeFloat (f : FloatFmt) (w : Nat) : Val :=
  let m := w % 2 ^ f.mb
  let e := (w >>> f.mb) % 2 ^ f.eb
  let neg := (w >>> (f.mb + f.eb)) % 2 == 1
  if f.hasInf && e == 2 ^ f.eb - 1 then (if m == 0 then .inf neg else .nan)
  else if f == .e4m3 && e == 15 && m == 7 then .nan
  else if e == 0 then .fin neg m (f.emin - f.mb)
  else .fin neg (2 ^ f.mb + m) ((e : Int) - f.bias - f.mb)

/-- The value of an MX element under its scale byte (R30, R31). -/
def decodeMx (el : MxElem) (scale w : Nat) : Val :=
  if scale == 255 then .nan else
  let sh : Int := (scale : Int) - 127
  match el with
  | .int8 => Val.ofInt (sext w 8) (sh - 6)
  | .flt f =>
    match decodeFloat f w with
    | .fin n m e => .fin n m (e + sh)
    | v => v

/-- The value of an element that needs no scale. -/
def decodePlain : Fmt → Nat → Val
  | .flt f, w => decodeFloat f w
  | .int8, w => Val.ofInt (sext w 8)
  | .int32, w => Val.ofInt (sext w 32)
  | .e8m0, w => if w % 256 == 255 then .nan else .fin false 1 ((w % 256 : Nat) - 127)
  | .mx e, w => decodeMx e 127 w
  | .a192, _ => .nan

/-! Exact arithmetic. -/

namespace Val

/-- The sign. -/
def sign : Val → Bool
  | .nan => false | .inf n => n | .fin n _ _ => n

def neg : Val → Val
  | .nan => .nan | .inf n => .inf (!n) | .fin n m e => .fin (!n) m e

def abs : Val → Val
  | .nan => .nan | .inf _ => .inf false | .fin _ m e => .fin false m e

def isZero : Val → Bool
  | .fin _ 0 _ => true
  | _ => false

def isNan : Val → Bool
  | .nan => true | _ => false

def isInf : Val → Bool
  | .inf _ => true | _ => false

/-- The signed integer that a finite value is, in units of 2^q, for q not above its exponent. -/
def scaled (v : Val) (q : Int) : Int :=
  match v with
  | .fin n m e => (if n then -1 else 1) * ((m : Int) * (2 ^ (e - q).toNat : Nat))
  | _ => 0

def expo : Val → Int
  | .fin _ _ e => e | _ => 0

/-- The exact product; Inf × 0 is NaN (R35). -/
def mul : Val → Val → Val
  | .nan, _ => .nan
  | _, .nan => .nan
  | .inf a, .inf b => .inf (a != b)
  | .inf a, .fin b m _ => if m == 0 then .nan else .inf (a != b)
  | .fin a m _, .inf b => if m == 0 then .nan else .inf (a != b)
  | .fin a m e, .fin b n f => .fin (a != b) (m * n) (e + f)

/-- The exact sum; Inf − Inf is NaN; an exact cancellation gives +0, or −0 where `negZero` says so. -/
def add (negZero : Bool) : Val → Val → Val
  | .nan, _ => .nan
  | _, .nan => .nan
  | .inf a, .inf b => if a == b then .inf a else .nan
  | .inf a, _ => .inf a
  | _, .inf b => .inf b
  | .fin a m e, .fin b n f =>
    let q := min e f
    let s := (Val.fin a m e).scaled q + (Val.fin b n f).scaled q
    if s == 0 then .fin (if a == b then a else negZero) 0 0 else .fin (decide (s < 0)) s.natAbs q

/-- Exact comparison of two numbers that are not NaN: −1, 0 or 1. -/
def cmp : Val → Val → Int
  | .inf a, .inf b => if a == b then 0 else if a then -1 else 1
  | .inf a, _ => if a then -1 else 1
  | _, .inf b => if b then 1 else -1
  | .fin a m e, .fin b n f =>
    let q := min e f
    let d := (Val.fin a m e).scaled q - (Val.fin b n f).scaled q
    if d < 0 then -1 else if d == 0 then 0 else 1
  | _, _ => 0

/-- floor(log2 |v|) of a finite nonzero value. -/
def exponent? : Val → Option Int
  | .fin _ m e => if m == 0 then none else some ((log2 m : Int) + e)
  | _ => none

end Val

/-! Rounding and conversion (R27, R28, R56). -/

/-- Rounding modes: R27's five, and RISC-V's round to nearest with ties away (05 R125). -/
inductive RMode where
  | rne | rtz | rdn | rup | sr | rmm
  deriving DecidableEq, Repr

/-- The mode of a 3-bit code; codes 5 to 7 are reserved (R27). -/
def RMode.ofCode : Nat → Option RMode
  | 0 => some .rne | 1 => some .rtz | 2 => some .rdn | 3 => some .rup | 4 => some .sr | _ => none

/-- How one element is rounded: the mode, SAT, and the number r that R49 draws for it. -/
structure Rnd where
  mode : RMode
  sat : Bool := false
  r : Nat := 0
  deriving DecidableEq, Repr

namespace Exc
/-- The flags of R56. -/
def nx : Nat := 1
def uf : Nat := 2
def ov : Nat := 4
def dz : Nat := 8
def iv : Nat := 16
def ao : Nat := 32
def at_ : Nat := 64
def satF : Nat := 128
def mxn : Nat := 256
end Exc

/-- The magnitude m × 2^e rounded to a multiple of 2^q, in units of 2^q (R27, R49). -/
def roundMag (mode : RMode) (neg : Bool) (m : Nat) (e q : Int) (r : Nat) : Nat :=
  if q ≤ e then m * 2 ^ (e - q).toNat
  else
    let d := (q - e).toNat
    let n := m >>> d
    let rem := m % 2 ^ d
    let up := match mode with
      | .rne => decide (2 * rem > 2 ^ d) || (2 * rem == 2 ^ d && n % 2 == 1)
      | .rtz => false
      | .rdn => neg && rem != 0
      | .rup => !neg && rem != 0
      | .sr => decide (r < rem * 2 ^ 32 / 2 ^ d)
      | .rmm => decide (2 * rem ≥ 2 ^ d)
    if up then n + 1 else n

/-- Whether m × 2^e is a multiple of 2^q. -/
def exactAt (m : Nat) (e q : Int) : Bool := decide (q ≤ e) || m % 2 ^ (q - e).toNat == 0

/-- The rules of R28 for an overflow in a float format: the bits and the flags. -/
def overflowTo (f : FloatFmt) (rd : Rnd) (neg : Bool) : Nat × Nat :=
  let s := if neg then 2 ^ (f.eb + f.mb) else 0
  let away := match rd.mode with
    | .rtz => false
    | .rdn => neg
    | .rup => !neg
    | _ => true
  if rd.sat || !f.hasNan then (s + f.maxEnc, Exc.ov ||| Exc.nx ||| Exc.satF)
  else if !away then (s + f.maxEnc, Exc.ov ||| Exc.nx ||| (if f.hasInf then 0 else Exc.satF))
  else if f.hasInf then (s + f.infEnc, Exc.ov ||| Exc.nx)
  else (f.nanEnc, Exc.ov ||| Exc.nx ||| Exc.iv)

/-- A finite magnitude m × 2^e rounded into a float format: the bits and the flags (R28, R56). -/
def roundFinite (f : FloatFmt) (rd : Rnd) (neg : Bool) (m : Nat) (e : Int) : Nat × Nat :=
  let s := if neg then 2 ^ (f.eb + f.mb) else 0
  if m == 0 then (s, 0) else
  let ex := (log2 m : Int) + e
  let qu := ex - f.mb
  let q := max qu (f.emin - f.mb)
  let n := roundMag rd.mode neg m e q rd.r
  let enc := ((q - (f.emin - f.mb)).toNat) * 2 ^ f.mb + n
  let inexact := !exactAt m e q
  if enc > f.maxEnc then overflowTo f rd neg else
  let nu := roundMag rd.mode neg m e qu rd.r
  let tiny := decide (ex < f.emin) && decide (nu < 2 ^ (f.emin - qu).toNat)
  (s + enc, if inexact then Exc.nx ||| (if tiny then Exc.uf else 0) else 0)

/-- A conversion to a float format: the bits and the flags (R26, R28). -/
def toFloat (f : FloatFmt) (rd : Rnd) : Val → Nat × Nat
  | .nan => if f.hasNan then (f.nanEnc, 0) else (0, Exc.nx ||| Exc.satF ||| Exc.iv)
  | .inf n =>
    let s := if n then 2 ^ (f.eb + f.mb) else 0
    if f.hasInf then (s + f.infEnc, 0)
    else if f.hasNan then (f.nanEnc, Exc.iv)
    else (s + f.maxEnc, Exc.nx ||| Exc.satF)
  | .fin n m e => roundFinite f rd n m e

/-- A conversion to a two's-complement integer of `w` bits (R28). -/
def toInteger (w : Nat) (rd : Rnd) : Val → Nat × Nat
  | .nan => (0, Exc.nx ||| Exc.satF ||| Exc.iv)
  | .inf n => (if n then 2 ^ (w - 1) else 2 ^ (w - 1) - 1, Exc.nx ||| Exc.satF)
  | .fin n m e =>
    let k := roundMag rd.mode n m e 0 rd.r
    if !n && k > 2 ^ (w - 1) - 1 then (2 ^ (w - 1) - 1, Exc.ov ||| Exc.nx ||| Exc.satF)
    else if n && k > 2 ^ (w - 1) then (2 ^ (w - 1), Exc.ov ||| Exc.nx ||| Exc.satF)
    else (toBits (if n then -(k : Int) else k) w, if exactAt m e 0 then 0 else Exc.nx)

/-- A conversion to a format that needs no scale. -/
def toPlain (f : Fmt) (rd : Rnd) (v : Val) : Nat × Nat :=
  match f with
  | .flt g => toFloat g rd v
  | .int8 => toInteger 8 rd v
  | .int32 => toInteger 32 rd v
  | _ => (0, 0)

/-! MX blocks (R29, R30). -/

/-- The largest exponent of a list of values. -/
def maxExp (vs : List Val) : Option Int :=
  vs.foldl (fun acc v => match acc, v.exponent? with
    | none, x => x
    | some a, some b => some (max a b)
    | some a, none => some a) none

/-- An element of an MX block, rounded with saturation (R29). -/
def toMxElem (el : MxElem) (rd : Rnd) (v : Val) : Nat × Nat :=
  match el with
  | .flt f => toFloat f { rd with sat := true } v
  | .int8 =>
    match v with
    | .fin n m e => toInteger 8 rd (.fin n m (e + 6))
    | _ => (0, 0)

/-- A block quantised: the scale byte, the element bits and the flags (R29, R30). The k-th element is rounded as `rd k` says; a zero keeps
its sign (R25). -/
def quantMx (el : MxElem) (rd : Nat → Rnd) (vs : List Val) : Nat × List Nat × Nat :=
  let infKept := el == .flt .e5m2
  if vs.any (fun v => v.isNan || (v.isInf && !infKept)) then
    (0xFF, vs.map (fun _ => 0), Exc.iv ||| Exc.mxn)
  else
    let x := match maxExp vs with
      | none => -127
      | some em => min (max (em - el.emax) (-127)) 127
    let rs := (vs.zipIdx).map (fun p => toMxElem el (rd p.2) (match p.1 with
      | .fin n m e => .fin n m (e - x)
      | v => v))
    ((x + 127).toNat, rs.map (·.1), rs.foldl (fun a r => a ||| r.2) 0)

/-! The A192 accumulator (R32 to R41). -/

/-- An A192 value: EXT:V as one 224-bit integer, the anchor, and the six sticky flags (R33). -/
structure A192 where
  sum : BitVec 224 := 0#224
  anchor : BitVec 13 := 0x1000#13
  flags : BitVec 6 := 0#6
  deriving DecidableEq, Repr

namespace A192

/-- The sticky flags, by their place in the record from bit 237. -/
def fNan : BitVec 6 := 1#6
def fPinf : BitVec 6 := 2#6
def fNinf : BitVec 6 := 4#6
def fPovf : BitVec 6 := 8#6
def fNovf : BitVec 6 := 16#6
def fTrunc : BitVec 6 := 32#6

/-- The weight exponent of bit 0 of V (R32). -/
def lsb (a : A192) : Int := a.anchor.toInt - 190

/-- A cleared accumulator at an anchor. -/
def cleared (anchor : Int) : A192 := { anchor := BitVec.ofInt 13 anchor }

/-- The 32-byte record (R33). -/
def toRec (a : A192) : BitVec 256 := BitVec.ofNat 256 (a.sum.toNat + a.anchor.toNat <<< 224 + a.flags.toNat <<< 237)

/-- A record read; its reserved bits are ignored (R33). -/
def ofRec (r : BitVec 256) : A192 :=
  { sum := r.extractLsb' 0 224, anchor := r.extractLsb' 224 13, flags := r.extractLsb' 237 6 }

/-- One term, truncated on its own and added exactly (R34 to R36). -/
def addTerm (a : A192) : Val → A192
  | .nan => { a with flags := a.flags ||| fNan }
  | .inf n => { a with flags := a.flags ||| (if n then fNinf else fPinf) }
  | .fin n m e =>
    let d := e - a.lsb
    let x : Int := if n then -(m : Int) else m
    let t : Int := if d ≥ 0 then x * (2 ^ d.toNat : Nat) else x.fdiv (2 ^ (-d).toNat : Nat)
    let tr := decide (d < 0) && m % 2 ^ (-d).toNat != 0
    let fl := if tr then a.flags ||| fTrunc else a.flags
    if t ≥ (2 ^ 191 : Nat) then { a with flags := fl ||| fPovf }
    else if t < -((2 ^ 191 : Nat) : Int) then { a with flags := fl ||| fNovf }
    else { a with sum := a.sum + BitVec.ofInt 224 t, flags := fl }

/-- Two values of one anchor added (R36, R41). -/
def addRec (a b : A192) : A192 := { a with sum := a.sum + b.sum, flags := a.flags ||| b.flags }

/-- The value that read-out rounds, with the flags of cases 1 to 5 of R37. -/
def readValue (a : A192) : Val × Nat :=
  let has := fun (f : BitVec 6) => a.flags &&& f != 0#6
  let s := a.sum.toInt
  let hi : Val := Val.ofInt ((2 ^ 191 : Nat) - 1) a.lsb
  let lo : Val := Val.ofInt (-((2 ^ 191 : Nat) : Int)) a.lsb
  if has fNan || (has fPinf && has fNinf) then (.nan, Exc.iv)
  else if has fPinf then (.inf false, 0)
  else if has fNinf then (.inf true, 0)
  else if has fPovf && has fNovf then (.nan, Exc.iv ||| Exc.ao)
  else if has fPovf then (hi, Exc.ao)
  else if has fNovf then (lo, Exc.ao)
  else if s ≥ (2 ^ 191 : Nat) then (hi, Exc.ao)
  else if s < -((2 ^ 191 : Nat) : Int) then (lo, Exc.ao)
  else (Val.ofInt s a.lsb, 0)

/-- The flags a read-out adds: AT where TRUNC is set (R37). -/
def atFlag (a : A192) : Nat := if a.flags &&& fTrunc != 0#6 then Exc.at_ else 0

/-- Read-out to a format other than 0x1F and the MX formats, in one rounding (R37). -/
def readOut (a : A192) (f : Fmt) (rd : Rnd) : Nat × Nat :=
  let (v, fl) := a.readValue
  let (w, g) := toPlain f rd v
  (w, fl ||| g ||| a.atFlag)

end A192

/-- The automatic anchor of R40: −4096 where an operand has no finite nonzero element. -/
def autoAnchor (ea eb : Option Int) (h : Nat) : Int :=
  match ea, eb with
  | some a, some b => min (max (a + b + 1 + h) (-4096)) 4095
  | _, _ => -4096

/-! FP64 by slicing (R45 to R48). -/

/-- e_r of R45: one more than the largest exponent of the finite nonzero elements, or 0. -/
def sliceExp (vs : List Val) : Int := match maxExp vs with | some e => e + 1 | none => 0

/-- Whether an element is sliced under the exponent e: −2^e ≤ a < 2^e (R45). -/
def sliceable (v : Val) (e : Int) : Bool :=
  match v with
  | .fin n m x =>
    match v.exponent? with
    | none => true
    | some f => decide (f < e) || (n && f == e && m == 2 ^ (e - x).toNat)
  | _ => false

/-- m of R45. -/
def sliceInt (v : Val) (e : Int) : Int :=
  match v with
  | .fin n m x =>
    let d := x + 56 - e
    let y : Int := if n then -(m : Int) else m
    if d ≥ 0 then y * (2 ^ d.toNat : Nat) else y.fdiv (2 ^ (-d).toNat : Nat)
  | _ => 0

/-- Slice s of m, s from 1 to 8 (R45). -/
def slice (m : Int) (s : Nat) : Int := if s == 1 then m.fdiv (2 ^ 49 : Nat) else (m.fdiv (2 ^ (56 - 7 * s) : Nat)) % 128

/-- The slice pairs of a tier: all 64 for E, s + t ≤ 9 for F (R46, R47). -/
def tierPairs (tierE : Bool) : List (Nat × Nat) :=
  ((List.range 8).flatMap (fun s => (List.range 8).map (fun t => (s + 1, t + 1)))).filter
    (fun p => tierE || decide (p.1 + p.2 ≤ 9))

/-- The sum over a tier's pairs of one product of two sliced elements, in units of 2^(e_r + e_c − 112). -/
def sliceProduct (tierE : Bool) (ma mb : Int) : Int :=
  (tierPairs tierE).foldl (fun acc p => acc + slice ma p.1 * slice mb p.2 * (2 ^ (112 - 7 * (p.1 + p.2)) : Nat)) 0

/-! Stochastic rounding (R49, R50). -/

/-- mix of R49, modulo 2^64. -/
def srMix (z : DWord) : DWord :=
  let z := (z ^^^ (z >>> 30)) * 0xBF58476D1CE4E5B9#64
  let z := (z ^^^ (z >>> 27)) * 0x94D049BB133111EB#64
  z ^^^ (z >>> 31)

/-- r of R49. -/
def srDraw (seed : DWord) (stream row col : Nat) : Nat :=
  let w := (BitVec.ofNat 64 stream <<< 48) ||| (BitVec.ofNat 64 row <<< 24) ||| BitVec.ofNat 64 col
  (srMix (srMix seed ^^^ w) >>> 32).toNat

/-- r for a path without rows and columns: the 48-bit element index (R50). -/
def srDrawIndex (seed : DWord) (stream index : Nat) : Nat := srDraw seed stream ((index >>> 24) % 2 ^ 24) (index % 2 ^ 24)

/-! Packed arrays (R23). -/

/-- Element n of a packed array of w-bit elements, the array as a number. -/
def packedElem (a w n : Nat) : Nat := (a >>> (w * n)) % 2 ^ w

/-- Elements packed, least significant first, as bytes. -/
def packElems (w : Nat) (xs : List Nat) : List Byte :=
  bytesLE ((w * xs.length + 7) / 8) ((xs.zipIdx).foldl (fun acc p => acc + (p.1 % 2 ^ w) <<< (w * p.2)) 0)

/-- n elements of w bits unpacked from bytes. -/
def unpackElems (w n : Nat) (bs : List Byte) : List Nat := let a := natLE bs; (List.range n).map (packedElem a w)

end Sys2Proof.Machine
end

