-- ==== Sys2Proof/Machine/StateBay.lean ====
section
/-! DEFINITION. State records of a Bay's memory, mover, test engine and wrapper, and of the on-die networks (03_bays.md), and of the reset sequencer (18_reset_recovery.md). -/

namespace Sys2Proof.Machine

/-- A translation held by a mover's tile translation buffer (03 R72). -/
structure TtbEntry where
  /-- Context, as partition × 4096 + index. -/
  ctx : Nat
  /-- First virtual address of the extent (03 R72, 09 R249). -/
  va : Nat
  /-- Bytes of the extent. -/
  bytes : Nat
  /-- The leaf (09 R246). -/
  leaf : DWord
  /-- Tiles that hold it. -/
  tiles : NSet
  /-- Whether an invalidation has hit it and waits for the tile's end. -/
  hit : Bool := false
  deriving DecidableEq, Repr

/-- A mover descriptor that has started (03 R73). -/
structure MoverOp where
  /-- The 64-byte descriptor (03 R69). -/
  desc : BitVec 512
  /-- Order in which it was accepted (03 R69, ORDERED). -/
  order : Nat
  /-- Its index in its group (03 R70). -/
  group : Nat
  /-- Fabric requests it waits for. -/
  waits : Nat := 0
  /-- Cause and virtual address of a failure that a response brought (03 R70). -/
  bad : Option (Nat × Nat × Nat) := none
  deriving DecidableEq, Repr

/-- One mover port (03 R69 to R74, R79). -/
structure MoverPort where
  /-- MOVERp_RING_BASE (03 R79); reset 0. -/
  ringBase : Word := 0#32
  /-- MOVERp_RING_SIZE (03 R79); reset 0x40. -/
  ringSize : Word := 0x40#32
  /-- MOVERp_WR, 16 bits (03 R79); reset 0. -/
  wr : Nat := 0
  /-- MOVERp_RD, 16 bits (03 R79); reset 0. -/
  rd : Nat := 0
  /-- MOVERp_FAULT (03 R79); reset 0. -/
  fault : Word := 0#32
  /-- MOVERp_FAULT_VA, address and group index (03 R70, R79); reset 0. -/
  faultVa : DWord := 0#64
  /-- Halted (03 R73); reset false. -/
  halted : Bool := false
  /-- Cause and address of the group's failing check, kept for the fault record; none. -/
  cause : Nat := 0
  /-- Order numbers of the descriptors from RD to WR (03 R69, ORDERED); none. -/
  orders : List Nat := []
  /-- Descriptors started and not completed, oldest first (03 R73); none. -/
  started : List MoverOp := []
  /-- Descriptors of the present group that have been pre-translated and not yet started (03 R71); 0. -/
  ready : Nat := 0
  /-- Size of the present group (03 R71); 0. -/
  groupSize : Nat := 0
  /-- Whether the present group waits for tile translation buffer entries (03 R72); false. -/
  ttbWait : Bool := false
  /-- Tile whose descriptors the port runs (05 R146); 0 none. -/
  tile : Nat := 0
  /-- SEQ of the RETRY fault record on which the port is held (09 R261); none. -/
  heldOn : Option Nat := none
  deriving DecidableEq, Repr

/-- The transparent bank test (03 R75 to R77). -/
structure TestEngine where
  /-- TEST_CTRL (03 R79); reset 0x00640001. -/
  ctrl : Word := 0x00640001#32
  /-- State, 0 IDLE to 3 RESTORE (03 R75); reset 0. -/
  state : Nat := 0
  /-- Bank of the region (03 R75); reset 0. -/
  bank : Nat := 0
  /-- Region, 0 to 383 (03 R75); reset 0. -/
  region : Nat := 0
  /-- Completed passes, 16 bits (03 R79); reset 0. -/
  passes : Nat := 0
  /-- The 4 KiB shadow (03 R75); reset 0. -/
  shadow : Mem := []
  /-- Datestamp at which IDLE began (03 R75); reset 0. -/
  idleAt : Nat := 0
  /-- Regions queued for immediate test, as bank × 384 + region (03 R63); none. -/
  queue : List Nat := []
  /-- Regions left redirected to their shadow (03 R77): region and contents; none. -/
  redirected : Tbl Mem := []
  deriving DecidableEq, Repr

/-- A wrapper's state (18 R503). -/
inductive Wrapper where
  | open_ | closing | closed
  deriving DecidableEq, Repr

/-- A Card network message (03 R84). -/
structure Card where
  /-- Source router and endpoint. -/
  srcRouter : Nat
  srcEp : Nat
  /-- Destination router and endpoint. -/
  dstRouter : Nat
  dstEp : Nat
  /-- TYPE. -/
  type : Nat
  /-- ARG. -/
  arg : Word
  /-- Payload flits. -/
  payload : List DWord := []
  deriving DecidableEq, Repr

/-- A FAULT_REPORT on its way to the Bay runtime or the Registrar (03 R90, 05 R149). -/
structure Report where
  /-- Bay concerned, 32 for the Registrar. -/
  bay : Nat
  /-- Core by crossbar port that reports; 15 none. -/
  core : Nat
  /-- Status. -/
  status : Nat
  /-- mcause, mtval and pc (05 R149); of a matrix core its cause and the descriptor's TAG (04 R118). -/
  mcause : Nat := 0
  mtval : Nat := 0
  pc : Nat := 0
  deriving DecidableEq, Repr

/-- A link of an on-die network: plane 0 or 1, or 2 for the Card network, and its two routers (03 R80, R84, R91). -/
structure NetLink where
  /-- The plane (03 R80). -/
  plane : Nat
  /-- Its two routers (03 R80). -/
  a : Nat
  b : Nat
  deriving DecidableEq, Repr

/-- A request on the bulk planes that has not been answered (03 R92). -/
structure BulkReq where
  /-- Who waits: 0 a mover port, 1 any other requester. -/
  mover : Bool
  /-- Bay of a mover, or the requester number of R253. -/
  who : Nat
  /-- Mover port. -/
  port : Nat
  /-- Its deadline: Datestamp of issue plus 200 µs. -/
  deadline : Nat
  /-- Virtual address concerned. -/
  va : Nat
  deriving DecidableEq, Repr

/-- The on-die networks (03 R62, R80 to R93). -/
structure Nets where
  /-- Replays in a row that failed, by link or path number (03 R62); 0. -/
  replayFails : Tbl Nat := []
  /-- Links declared failed (03 R91); none. -/
  failedLinks : List NetLink := []
  /-- Routers declared failed (03 R91); none. -/
  failedRouters : NSet := []
  /-- Failures for which the routing tables are not yet recomputed (03 R91); false. -/
  tablesStale : Bool := false
  /-- Failed links that the tables in force route around (03 R83); none. -/
  routedLinks : List NetLink := []
  /-- Failed routers that the tables in force route around (03 R83); none. -/
  routedRouters : NSet := []
  /-- Card network messages held at their sources for want of a credit, oldest first (03 R87); none. -/
  held : List Card := []
  /-- Messages delivered to each endpoint and not yet taken, by router × 16 + endpoint (03 R87); none. -/
  queues : Tbl (List Card) := []
  /-- The latest message of each type that an endpoint has taken and that gives no other effect, by (router × 16 + endpoint) × 16 + type (03 R84); none. -/
  arrived : Tbl Card := []
  /-- Requests with deadlines on the bulk planes (03 R92); none. -/
  requests : List BulkReq := []
  /-- Corrected events of the networks (03 R62); 0. -/
  corrected : Nat := 0
  deriving DecidableEq, Repr

/-- A supply and signal pin's level is a Bool; the reset sequencer's state (18 R494 to R522). -/
structure Seq where
  /-- Whether every rail is within its limits (18 R495); reset false. -/
  railsGood : Bool := false
  /-- Level of RESET_N (18 R495); reset false (low). -/
  resetN : Bool := false
  /-- Datestamp at which RESET_N fell (18 R495); none. -/
  fellAt : Option Nat := none
  /-- Whether a device warm reset waits for RESET_N to rise (18 R495, R501); false. -/
  warmHeld : Bool := false
  /-- Whether CLK_MODE and BOARD_SLOT have been latched since power-on (18 R496); false. -/
  latched : Bool := false
  /-- Start-up step of R497 reached, 12 once SERVING (18 R497); reset 0. -/
  step : Nat := 0
  /-- Datestamp of the rising edge that began start-up (18 R497); 0. -/
  startAt : Nat := 0
  /-- RST_CAUSE (18 R522); reset 0. -/
  rstCause : Word := 0#32
  /-- RST_STATUS (18 R522); reset 0. -/
  rstStatus : Word := 0#32
  /-- STRAPS (18 R496, R522); reset 0 until latched. -/
  straps : Word := 0#32
  /-- Failed boot attempts since the last SERVING (18 R499); reset 0. -/
  attempts : Nat := 0
  /-- Failed boot attempts in a row (18 R499); 0. -/
  tries : Nat := 0
  /-- Warm resets since power-on (18 R522); reset 0. -/
  warmResets : Nat := 0
  /-- Active Registrar pair (18 R522); reset 0. -/
  activePair : Nat := 0
  /-- Pair 0 healthy (18 R522); reset false. -/
  healthy0 : Bool := false
  /-- Pair 1 healthy (18 R522); reset false. -/
  healthy1 : Bool := false
  /-- Failovers since power-on (18 R522); reset 0. -/
  failovers : Nat := 0
  /-- LADDER: running level, instance and start (18 R522); none. -/
  ladder : Option (Nat × Nat × Nat) := none
  /-- START_TIME in µs (18 R522); reset 0. -/
  startTime : Nat := 0
  /-- Partition resets, 16 bits saturating (18 R522); reset 0. -/
  partResets : Nat := 0
  /-- Suspect replays, 16 bits saturating (18 R522); reset 0. -/
  suspectReplays : Nat := 0
  /-- FW_STATE [1:0]: 0 BOOT, 1 SERVING, 2 FAILOVER, 3 RESTARTING (15 R423); reset 0. -/
  fwState : Nat := 0
  /-- Standby pair ready (15 R423, 18 R510); reset false. -/
  standby : Bool := false
  /-- BR_STATUS state: 0 LOADING, 1 WAIT, 2 VERIFYING, 3 DONE (18 R500); reset 0. -/
  brState : Nat := 0
  /-- BOOT_CAUSE (18 R500, 17 R471); reset 0. -/
  bootCause : Nat := 0
  /-- LOAD_CAUSE (18 R500); reset 0. -/
  loadCause : Nat := 0
  /-- BR_ADDR (18 R500); reset 0. -/
  brAddr : DWord := 0#64
  /-- BR_LEN (18 R500); reset 0. -/
  brLen : Word := 0#32
  /-- BR_RESULT (18 R500); reset 0. -/
  brResult : Word := 0#32
  /-- Image bytes that a LOAD has read so far (18 R500); none. -/
  bootImage : List Byte := []
  /-- Whether a LOAD is reading its image from companion memory (18 R500); false. -/
  loading : Bool := false
  /-- RESET_FAIL asserted (18 R513); false. -/
  resetFail : Bool := false
  /-- Whether every clock but the sequencer's and the time unit's is stopped (18 R513); false. -/
  clocksStopped : Bool := false
  /-- End of a fuse program pulse that runs (18 R502); none. -/
  fusePulse : Option Nat := none
  /-- Resets delayed by the pulse: level and instance (18 R502); none. -/
  fuseWaits : List (Nat × Nat) := []
  /-- Resets in progress: level, instance, start (18 R494); none. -/
  running : List (Nat × Nat × Nat) := []
  /-- Persisting Device-fatal fault: function 0 alone is served (18 R512); false. -/
  fnZeroOnly : Bool := false
  /-- Faults that persist through a warm reset: lost stack-controller router, both Spine crossings, CHANNEL_FAIL (18 R512); false. -/
  persistentFault : Bool := false
  /-- Whether DEVICE_RESET waits to answer: function 0's mailbox index (18 R519); none. -/
  resetReply : Option Nat := none
  /-- Bays that hung, with the context and the Datestamp (18 R506); none. -/
  hangs : List (Nat × Nat × Nat) := []
  /-- What runs towards SERVING: 0 nothing, 1 a Registrar restart, 2 a device warm reset, 3 start-up after power-on (18 R494, R497); reset 3. -/
  restart : Nat := 3
  /-- Datestamp at which it began (18 R494, R507); 0. -/
  restartAt : Nat := 0
  /-- Stacks whose MSC flush of the warm reset has not ended (06 R180, 18 R520); none. -/
  flushing : NSet := []
  /-- Whether a warm reset's flush lost lines, so that contexts end after it (06 R180); false. -/
  flushLost : Bool := false
  /-- Whether a Device-fatal event has been reported and its warm reset has not begun (18 R512); false. -/
  fatalPosted : Bool := false
  /-- Whether the warm reset at work reads its image from the source again (18 R519); false. -/
  reload : Bool := false
  /-- Devices whose PEER_STATE is FAILED (18 R519); none. -/
  peersDown : NSet := []
  /-- JTAG instruction register's instruction, by number (19 R540); reset 1 (IDCODE). -/
  jtag : Nat := 1
  /-- JTAG data shifted out last (19 R540); reset 0. -/
  jtagOut : Nat := 0
  /-- Boundary-scan cells that drive the pins under CLAMP and EXTEST (19 R540); reset 0. -/
  boundary : Nat := 0
  deriving DecidableEq, Repr

end Sys2Proof.Machine
end

