-- ==== Sys2Proof/Machine/StateCores.lean ====
section
/-! DEFINITION. State records of the matrix cores (04_matrix_operations.md), of the vector and scalar cores (05_vector_scalar.md), and of a whole Bay. -/

namespace Sys2Proof.Machine

/-- An accumulator cell: EXT:V and the six sticky flags; its anchor is the core's (04 R94, 02 R33). -/
structure Cell where
  sum : BitVec 224 := 0#224
  flags : BitVec 6 := 0#6
  deriving DecidableEq, Repr

/-- A descriptor in a matrix core's FIFO (04 R96, R97). -/
structure MxDesc where
  /-- The 128-byte descriptor. -/
  desc : BitVec 1024
  /-- Whether it has run and waits to complete in FIFO order. -/
  ran : Bool := false
  deriving DecidableEq, Repr

/-- The anchor state of a matrix core (04 R104 to R106). -/
structure AnchorState where
  /-- ANCHOR_BASE, 13 bits (04 R104); core reset −4096. -/
  base : BitVec 13 := 0x1000#13
  /-- ANCHOR_MODE (02 R39); core reset 3 KEEP. -/
  mode : Nat := 3
  /-- Locked (04 R106); core reset false. -/
  locked : Bool := false
  /-- SLICE (04 R104); core reset false. -/
  slice : Bool := false
  /-- E_A (04 R105); core reset none. -/
  ea : Option Int := none
  /-- E_B (04 R105); core reset none. -/
  eb : Option Int := none
  /-- TERMS_LOG2 (02 R40); core reset 0. -/
  terms : Nat := 0
  /-- ROW_EXP of 128 rows (04 R105); core reset none. -/
  rowExp : Tbl Int := []
  /-- COL_EXP of 128 columns (04 R105); core reset none. -/
  colExp : Tbl Int := []
  deriving DecidableEq, Repr

/-- A matrix core (04 R94 to R124). -/
structure MatrixCore where
  /-- Operand store, 1 MiB (04 R94); core reset 0. -/
  store : Mem := []
  /-- Accumulator cells, by row × 128 + column, zero where not listed (04 R94); core reset 0. -/
  cells : Tbl Cell := []
  /-- Anchor state (04 R104, R123). -/
  anchor : AnchorState := {}
  /-- FIFO, at most 32 descriptors, oldest first (04 R96); core reset empty. -/
  fifo : List MxDesc := []
  /-- Staging window S, 128 B (04 R96, R124); core reset 0. -/
  stageS : BitVec 1024 := 0#1024
  /-- Staging window V of each vector core, 128 B (04 R96, R124); core reset 0. -/
  stageV : BitVec 1024 := 0#1024
  /-- MX_DONE, wraps at 32 bits (04 R124); core reset 0. -/
  done : Word := 0#32
  /-- MX_STATUS (04 R124); core reset 0. -/
  status : Word := 0#32
  /-- MX_FAULT_INFO (04 R124); core reset 0. -/
  faultInfo : Word := 0#32
  /-- MX_EXC, 9 bits (04 R124); core reset 0. -/
  exc : Nat := 0
  /-- MX_RAMP, 0 to 8 (04 R117, R124); core reset 0. -/
  ramp : Nat := 0
  /-- Whether any descriptor with TRAP_AO ended with AO (02 R57). -/
  trapAo : Bool := false
  deriving DecidableEq, Repr

/-- An L1D line of an agent (08 R225). -/
inductive Moesi where
  | m | o | e | s
  deriving DecidableEq, Repr

/-- A line that a part's L1D holds (08 R225, R231). -/
structure L1Line where
  st : Moesi
  data : BitVec 1024
  /-- Poison of its 32-byte chunks (06 R169). -/
  poison : BitVec 4 := 0#4
  /-- End of the hold of a line won in E or M (08 R231). -/
  holdUntil : Nat := 0
  deriving DecidableEq, Repr

/-- A message in a core's receive queue (05 R140). -/
structure UserMsg where
  /-- Datestamp of arrival. -/
  stamp : Nat
  /-- Source VBAY, endpoint and LEN. -/
  vbay : Nat
  ep : Nat
  len : Nat
  arg : Word
  payload : List DWord
  deriving DecidableEq, Repr

/-- What a core that cannot go on waits for. -/
inductive CoreWait where
  /-- CN.SEND until its message, held for want of a credit, is injected; destination register (05 R139). -/
  | send (rd : Nat)
  /-- CN.RECV until a deadline, destination register (05 R140). -/
  | recv (deadline rd : Nat)
  /-- DS.WAIT until a Datestamp, destination register (05 R141). -/
  | until (target rd : Nat)
  deriving DecidableEq, Repr

/-- A remote access of a core (11 R324): on its way, or answered with a status and bytes. -/
inductive CoreRemote where
  | waits
  | done (status : Nat) (data : List Byte)
  deriving DecidableEq, Repr

/-- A vector or scalar core (05 R125 to R149). -/
structure Core where
  /-- pc (05 R125); core reset 0 (assumption 1). -/
  pc : DWord := 0#64
  /-- x1 to x31, zero where not listed (05 R125, R147); core reset 0 (assumption 1). -/
  x : Tbl DWord := []
  /-- f0 to f31, zero where not listed (05 R125, R147); core reset 0 (assumption 1). -/
  f : Tbl DWord := []
  /-- v0 to v31 of a vector core, 4,096 bits each, zero where not listed (05 R126, R147); core reset 0 (assumption 1). -/
  v : Tbl (BitVec 4096) := []
  /-- fflags and frm: fcsr [7:0] (05 R125, R147); core reset 0 (assumption 1). -/
  fcsr : Nat := 0
  /-- vtype; vill is bit 63 (05 R147); core reset vill (assumption 1). -/
  vtype : DWord := 0x8000000000000000#64
  /-- vl (05 R147); core reset 0 (assumption 1). -/
  vl : Nat := 0
  /-- vstart (05 R125); core reset 0 (assumption 1). -/
  vstart : Nat := 0
  /-- vxrm and vxsat: vcsr [2:0] (05 R125); core reset 0 (assumption 1). -/
  vcsr : Nat := 0
  /-- Bits 5 to 8 of XFLAGS; bits 0 to 4 are fflags (05 R131); core reset 0. -/
  xflagsHi : Nat := 0
  /-- XCTL (05 R131); core reset 0. -/
  xctl : Word := 0#32
  /-- XORIGIN, 48 bits (05 R131); core reset 0. -/
  xorigin : Nat := 0
  /-- CN_PAY0 to CN_PAY2 (05 R131); core reset 0. -/
  cnPay : Tbl DWord := []
  /-- CN_RPAY0 to CN_RPAY2 (05 R131); core reset 0. -/
  cnRpay : Tbl DWord := []
  /-- Machine mode (05 R127); core reset true (assumption 1). -/
  machine : Bool := true
  /-- The machine-mode CSRs, by CSR number, zero where not listed (05 R127, R149); core reset 0 (assumption 1). -/
  mcsr : Tbl DWord := []
  /-- LR reservation: the line and its 8-byte range (08 R232); none. -/
  reservation : Option Nat := none
  /-- cycle (05 R131); 0 at tile entry. -/
  cycle : Nat := 0
  /-- instret (05 R131); 0 at tile entry. -/
  instret : Nat := 0
  /-- ACC[0] to ACC[63], cleared at anchor −4096 where not listed (05 R133); core reset. -/
  acc : Tbl A192 := []
  /-- Local store of a vector core, 512 KiB (05 R129); core reset 0 (assumption 1). -/
  localStore : Mem := []
  /-- Virtual lines that the L1I holds (05 R129, 08 R224); none. -/
  l1i : NSet := []
  /-- Lines the L1D holds, by line number of the direct address (08 R225); none. -/
  l1d : Tbl L1Line := []
  /-- Near or far predictor, 4,096 two-bit counters, 1 where not listed (08 R234); core reset 1. -/
  predictor : Tbl Nat := []
  /-- Receive queue, at most 16 messages, oldest first (05 R140, 03 R87); empty. -/
  recv : List UserMsg := []
  /-- What it waits for (05 R140, R141); none. -/
  wait : Option CoreWait := none
  /-- Remote access of the instruction at pc (11 R324); none. -/
  remote : Option CoreRemote := none
  /-- Whether the AMO at pc, which waits, needed a snoop of another agent (08 R234); false. -/
  snooped : Bool := false
  /-- Whether kernel code runs on it (05 R146); false. -/
  running : Bool := false
  /-- Whether a trap has stopped it (05 R149); false. -/
  trapped : Bool := false
  /-- SEED of the running context, which kernel code cannot read (05 R134); 0. -/
  seed : DWord := 0#64
  deriving DecidableEq, Repr

/-- A BAY.GIVE or another request served by the Bay runtime keeps no state; what a Bay holds (03, 04, 05). -/
structure Bay where
  /-- Bay memory, 24 MiB (03 R60); reset 0 (03 R78, 18 R497). -/
  mem : Mem := []
  /-- BANK_OWNER_0_7 and BANK_OWNER_8_15, bank b in bits 4b+3..4b (03 R64, R79); reset all ones. -/
  owners : DWord := 0xFFFFFFFFFFFFFFFF#64
  /-- HANDOVER_PENDING (03 R65, R79); reset 0. -/
  pending : BitVec 16 := 0#16
  /-- CORE_FENCE, one bit per crossbar port (03 R79, R90); reset 0. -/
  coreFence : BitVec 10 := 0#10
  /-- Cores whose reset under a fence is running (03 R90); none. -/
  coreResets : NSet := []
  /-- BAY_STATUS (03 R79); reset 0. -/
  status : Word := 0#32
  /-- PARITY_CORRECTED (03 R79); reset 0. -/
  parityCorrected : Word := 0#32
  /-- Rows that met a persistent parity error on a first attempt of the running tile (03 R63); none. -/
  parityRows : NSet := []
  /-- SPARE_USED, 4 bits per bank (03 R79); reset 0 (assumption 1: per part). -/
  spareUsed : DWord := 0#64
  /-- Those of them held in fuses, laid out alike (03 R77, R79); per part: reset 0 (assumption 21). -/
  spareFused : DWord := 0#64
  /-- SPARE_UNFUSED (03 R79); reset 0. -/
  spareUnfused : BitVec 16 := 0#16
  /-- Mover ports 0 and 1 (03 R69). -/
  mover0 : MoverPort := {}
  mover1 : MoverPort := {}
  /-- Next order number of a mover descriptor (03 R69, ORDERED); 1. -/
  moverOrder : Nat := 1
  /-- Tile translation buffer, at most 256 entries (03 R72); none. -/
  ttb : List TtbEntry := []
  /-- Transparent bank test (03 R75). -/
  test : TestEngine := {}
  /-- Matrix cores 0 to 3 (04 R94). -/
  mx0 : MatrixCore := {}
  mx1 : MatrixCore := {}
  mx2 : MatrixCore := {}
  mx3 : MatrixCore := {}
  /-- Vector cores 0 to 3 and scalar cores 0 and 1, agents 0 to 5 of the Bay (03 R59, 08 R223). -/
  core0 : Core := {}
  core1 : Core := {}
  core2 : Core := {}
  core3 : Core := {}
  core4 : Core := {}
  core5 : Core := {}
  /-- Isolation wrapper (18 R503); OPEN. -/
  wrapper : Wrapper := .open_
  /-- Datestamp at which a Bay reset began (03 R78, 18 R494); none. -/
  resetAt : Option Nat := none
  /-- Whether the Bay is fenced until the next device warm reset (18 R506); false. -/
  fenced : Bool := false
  /-- Context of the last tile, as partition × 4096 + index + 1; 0 none (05 R148). -/
  lastCtx : Nat := 0
  /-- The tile that runs, by tile number; 0 none (05 R146). -/
  tile : Nat := 0
  /-- The tile whose steps 1 to 3 overlap it; 0 none (05 R146). -/
  nextTile : Nat := 0
  /-- TILE_DISPATCH messages on their way to the Bay runtime (14 R407): OP and tile number; none. -/
  inbox : List (Nat × Nat) := []
  /-- MOVER_NOTIFY messages on their way to the Bay runtime: port and TAG (03 R69); none. -/
  notes : List (Nat × Nat) := []
  /-- Count of writes issued to memory and not yet drained (03 R78); 0. -/
  draining : Nat := 0
  deriving DecidableEq, Repr

namespace Bay

/-- A matrix core by number. -/
def mx (b : Bay) (c : Nat) : MatrixCore := match c with | 0 => b.mx0 | 1 => b.mx1 | 2 => b.mx2 | _ => b.mx3

/-- A matrix core rewritten. -/
def setMx (b : Bay) (c : Nat) (m : MatrixCore) : Bay :=
  match c with
  | 0 => { b with mx0 := m } | 1 => { b with mx1 := m } | 2 => { b with mx2 := m } | _ => { b with mx3 := m }

/-- A vector or scalar core by its agent index in the Bay (08 R223). -/
def core (b : Bay) (c : Nat) : Core :=
  match c with
  | 0 => b.core0 | 1 => b.core1 | 2 => b.core2 | 3 => b.core3 | 4 => b.core4 | _ => b.core5

/-- A core rewritten. -/
def setCore (b : Bay) (c : Nat) (k : Core) : Bay :=
  match c with
  | 0 => { b with core0 := k } | 1 => { b with core1 := k } | 2 => { b with core2 := k }
  | 3 => { b with core3 := k } | 4 => { b with core4 := k } | _ => { b with core5 := k }

/-- A mover port. -/
def mover (b : Bay) (p : Nat) : MoverPort := if p = 0 then b.mover0 else b.mover1

/-- A mover port rewritten. -/
def setMover (b : Bay) (p : Nat) (m : MoverPort) : Bay := if p = 0 then { b with mover0 := m } else { b with mover1 := m }

end Bay

end Sys2Proof.Machine
end

