-- ==== Sys2Proof/Machine/StateOt.lean ====
section
/-! DEFINITION. State records of a protected link (11_fabric.md R303 to R313) and of the Otfold ports and the companion-memory requests (16_otfold_link.md). -/

namespace Sys2Proof.Machine

/-- A link's state: 0 DOWN, 1 TRAIN, 2 ALIGN, 3 HANDSHAKE, 4 UP, 5 HELD (11 R303), its flits and its keys (11 R305 to R311). -/
structure Link where
  /-- State (11 R303); reset 0 DOWN. -/
  state : Nat := 0
  /-- Datestamp at which the state was entered (11 R303); 0. -/
  since : Nat := 0
  /-- Datestamp of the last flit of any type (11 R307); 0. -/
  lastFlit : Nat := 0
  /-- SEQ of the next flit to send, modulo 4,096 (11 R305); 0. -/
  txSeq : Nat := 0
  /-- SEQ expected next, modulo 4,096 (11 R306); 0. -/
  rxSeq : Nat := 0
  /-- Flits sent and not acknowledged: SEQ and bytes, at most 1,024 (11 R306); none. -/
  retry : List (Nat × BitVec 2048) := []
  /-- Whether it waits for a replay it asked for (11 R306); false. -/
  nackSent : Bool := false
  /-- Consecutive replays of the flit awaited that failed (11 R307); 0. -/
  replayFails : Nat := 0
  /-- SEQ of the last replay asked of this side, and how often in a row (11 R307); none. -/
  asked : Option (Nat × Nat) := none
  /-- Frames that wait for room in the retry buffer, oldest first: FTYPE and payload (11 R306); none. -/
  waitTx : List (Nat × List Byte) := []
  /-- Whether the frame now expected has failed authentication once (11 R311); false. -/
  authOnce : Bool := false
  /-- Flits of a frame received and not yet verified (11 R311); none. -/
  frame : List (BitVec 2048) := []
  /-- Frame counter C of each direction (11 R309); 0. -/
  txFrame : Nat := 0
  rxFrame : Nat := 0
  /-- Key index n of each direction (11 R308, R310); 0. -/
  txKey : Nat := 0
  rxKey : Nat := 0
  /-- The link secret S of the session, 64 bytes (11 R308); 0. -/
  secret : BitVec 512 := 0#512
  /-- Datestamps of the retrains of the last 60 s (11 R304); none. -/
  retrains : List Nat := []
  /-- Replays counted, saturating (11 R332, 16 R463); reset 0. -/
  replays : Word := 0#32
  /-- Codewords corrected and uncorrectable, saturating (11 R332, 16 R463); reset 0. -/
  fecCorr : Word := 0#32
  fecUncorr : Word := 0#32
  /-- Frames failing authentication, saturating (11 R332, 16 R463); reset 0. -/
  authFail : Word := 0#32
  /-- Lanes that have failed, a bit each (11 R302, 16 R441); 0. -/
  badLanes : Nat := 0
  deriving DecidableEq, Repr

/-- An Otfold port (16 R440 to R463). -/
structure OtPort where
  /-- The link of the port (16 R444). -/
  link : Link := {}
  /-- OT_CTRL (16 R463); reset 0x7FD. -/
  ctrl : Word := 0x7FD#32
  /-- OT_STATUS (16 R463); reset 0. -/
  status : Word := 0#32
  /-- Lanes up: 0, 4 or 8 (16 R463); reset 0. -/
  lanes : Nat := 0
  /-- Companion agents given at HANDSHAKE (16 R442); reset 0. -/
  agents : Nat := 0
  /-- OT_DEADLINE (16 R463); reset 0x3E8. -/
  deadline : Word := 0x3E8#32
  /-- AGENT_DOWN (16 R460); reset 0. -/
  agentDown : Word := 0#32
  /-- BAD_MESSAGE_COUNT, saturating (16 R463); reset 0. -/
  badMessages : Word := 0#32
  /-- Companion requests accepted and not yet answered, by tag (16 R447, R463); none. -/
  tags : Tbl OtHead := []
  deriving DecidableEq, Repr

/-- What the answer of a CM request is for (16 R454). -/
inductive CmUse where
  /-- A record or table the part writes. -/
  | record
  /-- An event ring entry (16 R455). -/
  | event
  /-- A piece of the boot image (18 R500): byte offset in the image. -/
  | boot (offset : Nat)
  deriving DecidableEq, Repr

/-- A CM_RD or CM_WR outstanding (16 R454, R455). -/
structure CmReq where
  tag : Nat
  fn : Nat
  addr : Nat
  /-- Bytes written; none for a read. -/
  data : List Byte
  /-- Bytes read; 0 for a write. -/
  read : Nat := 0
  use : CmUse := .record
  deadline : Nat
  /-- Whether it is on a link, or waits for a port to be UP. -/
  sent : Bool := true
  /-- Port it was last sent on. -/
  port : Nat := 0
  deriving DecidableEq, Repr

/-- A message the part sends to the companion (16 R446, R447). -/
inductive OtMsg where
  /-- A snoop: 0 SNP_SHARE, 1 SNP_INV, 2 SNP_DATA. -/
  | snoop (port agent kind line : Nat)
  | grant (port agent line state : Nat) (poison : Bool) (data : Option (BitVec 1024))
  /-- DATA: port, function, tag, status, poison and bytes. -/
  | data (port fn tag status : Nat) (poison : Bool) (bytes : List Byte)
  | ack (port fn tag status : Nat)
  | intr (fn vector : Nat)
  /-- TIME_RSP: T_RX and T_TX, or none where the request is refused (16 R457). -/
  | timeRsp (port fn tag status : Nat) (bytes : List Byte)
  deriving DecidableEq, Repr

/-- The Otfold side as a whole. -/
structure Ot where
  /-- Ports 0 and 1 (16 R440). -/
  port0 : OtPort := {}
  port1 : OtPort := {}
  /-- CM requests outstanding, oldest first (16 R454); none. -/
  cm : List CmReq := []
  /-- Next CM tag; 0. -/
  nextTag : Nat := 0
  /-- INTR messages that wait for earlier CM_WRs of their function: function, vector, last CM tag (16 R458); none. -/
  intrWait : List (Nat × Nat × Nat) := []
  /-- Messages sent to the companion, oldest first (16 R447). -/
  out : List OtMsg := []
  /-- Seal map: 2 MiB pages of direct addresses marked, kept alike by both ports (16 R450); none. -/
  sealMap : NSet := []
  deriving DecidableEq, Repr

namespace Ot
def port (o : Ot) (p : Nat) : OtPort := if p = 0 then o.port0 else o.port1
def setPort (o : Ot) (p : Nat) (x : OtPort) : Ot := if p = 0 then { o with port0 := x } else { o with port1 := x }
end Ot

end Sys2Proof.Machine
end

