-- ==== Sys2Proof/Machine/StateFab.lean ====
section
/-! DEFINITION. State records of the fabric: ports, route tables, outstanding requests and collective engines (11_fabric.md). -/

namespace Sys2Proof.Machine

/-- A fabric port (11 R302 to R313, R332). -/
structure FabPort where
  /-- Its link; a bond's is its leader's (11 R312). -/
  link : Link := {}
  /-- FP_CTRL (11 R332); reset 0. -/
  ctrl : Word := 0#32
  /-- FP_STATUS (11 R332); reset 0. -/
  status : Word := 0#32
  /-- FP_PEER: peer device and port (11 R332); none. -/
  peer : Option (Nat × Nat) := none
  /-- Bond size taken at the last TRAIN (11 R312, R332); 1. -/
  bond : Nat := 1
  /-- Members of the bond that are up (11 R313); none. -/
  members : List Nat := []
  deriving DecidableEq, Repr

/-- Who waits for a fabric request's answer (11 R321, R324, 03 R69, 14 R413). -/
inductive FabWho where
  /-- A mover port's descriptor, by its order number; a read's data go to the Bay offset. -/
  | mover (bay port order va dest : Nat)
  /-- A core's load, store or AMO: the core keeps what comes back. -/
  | core (bay core : Nat)
  /-- A parked tile's (14 R413): the tile, and a load's Bay offset. -/
  | parked (tile dest : Nat)
  deriving DecidableEq, Repr

/-- A request that needs a response (11 R321). -/
structure FabReq where
  /-- Port that it leaves by (11 R321). -/
  port : Nat := 0
  /-- Header and payload as sent. -/
  pkt : Packet
  /-- DEADLINE (11 R323). -/
  deadline : Nat
  who : FabWho
  /-- Which bytes of a read's data were asked for: first, and how many. -/
  skip : Nat := 0
  want : Nat := 0
  deriving DecidableEq, Repr

/-- An open collective (11 R325 to R331). -/
structure Coll where
  /-- The 128-byte descriptor (11 R326). -/
  desc : BitVec 1024
  /-- Queue command that issued it. -/
  cmd : Nat := 0
  /-- Context, as partition × 4096 + index. -/
  key : Nat := 0
  /-- Member devices of the map at EPOCH, in rank order (11 R327). -/
  members : List Nat := []
  /-- Fabric ports of this part that the Volume binds (10 R276). -/
  ports : Nat := 0
  /-- Whether START_AT has been reached (11 R329); false. -/
  started : Bool := false
  /-- Step: 0 nothing sent, 1 seal flags sent, 2 exponents sent, 3 data sent, 4 DST written and DONE sent (11 R328, R330, 17 R486); 0. -/
  step : Nat := 0
  /-- What has been received, by step × 65536 + rank: the element offsets and the bytes; none. -/
  got : Tbl (NSet × Mem) := []
  /-- Ranks whose DONE the publisher holds (11 R330); none. -/
  done : NSet := []
  /-- Flags of this member's read-outs (11 R328); 0. -/
  exc : Nat := 0
  /-- Status other than OK that a trapped AO of some member gives it (11 R326, R330); 0. -/
  trapped : Nat := 0
  /-- Status that a failed translation gives it (09 R260, 11 R331); none. -/
  bad : Option Nat := none
  deriving DecidableEq, Repr

/-- A collective engine (11 R325, R332). -/
structure CollEngine where
  /-- CE_STATUS (11 R332); reset 0. -/
  status : Word := 0#32
  /-- Open collectives, by Volume handle × 2^32 + COLL_ID, at most 16 (11 R325); none. -/
  open_ : Tbl Coll := []
  /-- Packets that arrived before their descriptor, oldest first (11 R329); none. -/
  held : List Packet := []
  deriving DecidableEq, Repr

/-- The fabric (11 R332). -/
structure Fab where
  /-- FAB_DEVICE_ID, 14 bits (11 R332); reset all ones in [13:3], BOARD_SLOT in [2:0], 0 until latched. -/
  deviceId : Nat := 0x3FF8
  /-- FAB_STATUS (11 R332); reset 0. -/
  status : Word := 0#32
  /-- FAB_MARGIN (11 R332); reset 0x14. -/
  margin : Word := 0x14#32
  /-- NO_ROUTE_COUNT, LOOP_COUNT and MALFORMED_COUNT, saturating (11 R332); reset 0. -/
  noRoute : Word := 0#32
  loops : Word := 0#32
  malformed : Word := 0#32
  /-- Messages of reserved Concordance codes, or of handles not known, discarded (10 R282); 0. -/
  concDropped : Nat := 0
  /-- Ports 0 to 23, as after reset where not listed (11 R332). -/
  ports : Tbl FabPort := []
  /-- Partition that holds each port, p × 24/n onwards where not listed (10 R273). -/
  holder : Tbl Nat := []
  /-- Route-table entries, by bank × 16384 + device, 0 where not listed (11 R317, R319); reset 0. -/
  routes : Tbl Nat := []
  /-- Active bank (11 R332); reset 0. -/
  bank : Nat := 0
  /-- Digest of the table loaded into the standby bank (11 R319); none. -/
  standby : Option (BitVec 512) := none
  /-- Requests that hold tags, by tag (11 R321); none. -/
  tags : Tbl FabReq := []
  /-- Requests that wait for a tag, oldest first (11 R321); none. -/
  stalled : List FabReq := []
  /-- Packets handed to ports, oldest first: port and packet (11 R314, R318). -/
  out : List (Nat × Packet) := []
  /-- Collective engines 0 to 3 (11 R325). -/
  engines : Tbl CollEngine := []
  /-- Concordance messages that have reached the Registrar, oldest first: arrival stamp and packet (10 R282, 11 R322); none. -/
  concIn : List (Nat × Packet) := []
  /-- MGMT packets that have reached the Registrar, oldest first: arrival stamp and packet (15 R439); none. -/
  mgmtIn : List (Nat × Packet) := []
  /-- Sequence number of the next MGMT packet sent (15 R439); 1. -/
  mgmtSeq : Nat := 1
  /-- FM_SENDs that wait for an FM_ACK, by sequence number: function and mailbox index (15 R439); none. -/
  fmSends : Tbl (Nat × Nat) := []
  deriving DecidableEq, Repr

namespace Fab
def port (f : Fab) (p : Nat) : FabPort := Tbl.getD f.ports p {}
def engine (f : Fab) (g : Nat) : CollEngine := Tbl.getD f.engines g {}
end Fab

end Sys2Proof.Machine
end

