-- ==== Sys2Proof/Machine/StateMem.lean ====
section
/-! DEFINITION. State records of the stacks, the memory-side cache, regulation and the directory (06_memory.md, 08_coherence.md). -/

namespace Sys2Proof.Machine

/-- A 64-byte sector of an MSC line (06 R159). -/
structure Sector where
  valid : Bool := false
  dirty : Bool := false
  /-- Poison of its two 32-byte chunks (06 R168, R169). -/
  poison : BitVec 2 := 0#2
  data : BitVec 512 := 0#512
  deriving DecidableEq, Repr

/-- An MSC line (06 R159). -/
structure MscLine where
  way : Nat
  /-- Attribute word of its page: compression word, SEALED and partition (07 R209, 17 R484). -/
  cmp : Nat := 0
  s0 : Sector := {}
  s1 : Sector := {}
  deriving DecidableEq, Repr

/-- A directory state (08 R226); a line held by no agent has no entry. -/
inductive DirState where
  | shared | excl | owned
  deriving DecidableEq, Repr

/-- A directory entry (08 R228, R229). -/
structure DirEntry where
  st : DirState
  bcast : Bool := false
  /-- Holders that the pointers name; the first is the owner of an EXCL or OWNED line. -/
  holders : List Nat := []
  /-- Way of the set (08 R228). -/
  way : Nat := 0
  /-- Attribute word of the line's page. -/
  attr : Nat := 0
  /-- Order of last use (08 R230). -/
  used : Nat := 0
  /-- Datestamp of the last grant of the line in E or M, and to whom (08 R231). -/
  grantAt : Nat := 0
  grantTo : Nat := 256
  deriving DecidableEq, Repr

/-- A coherent or outside request that waits at its home for snoop answers (08 R226, R237). -/
inductive HomeReq where
  | rdShared (agent : Nat)
  | rdOwn (agent : Nat)
  | upgrade (agent : Nat)
  /-- An eviction of a directory entry (08 R230). -/
  | recallLine
  /-- A far AMO: agent, tag, address, operation, size and operand (08 R233, 16 R452). -/
  | farAmo (agent tag addr op bytes operand : Nat)
  /-- An outside engine's read or write (08 R237): the line is copied from, or freed of, its holders. -/
  | outside (write : Bool)
  deriving DecidableEq, Repr

/-- A line with a request in service at its home (08 R226). -/
structure HomeTxn where
  req : HomeReq
  /-- Partition it serves, and attribute word of the line's page. -/
  part : Nat
  attr : Nat := 0
  /-- Agents whose answers are awaited. -/
  await : NSet := []
  /-- Datestamp by which they must answer (08 R239). -/
  deadline : Nat := 0
  /-- Data that an answer returned, and whether it is poisoned. -/
  data : Option (BitVec 1024) := none
  poison : Bool := false
  /-- Whether the M holder went to O, and keeps the duty to write back. -/
  kept : Bool := false
  /-- Whether another agent was snooped (08 R234). -/
  snooped : Bool := false
  /-- Owner, and the holders that stay, when the request began. -/
  owner : Option Nat := none
  stay : List Nat := []
  deriving DecidableEq, Repr

/-- A grant on its way to its agent (08 R226, 16 R447): 0 S, 1 E, 2 M. -/
structure Grant where
  agent : Nat
  line : Nat
  st : Nat
  poison : BitVec 4 := 0#4
  data : Option (BitVec 1024) := none
  deriving DecidableEq, Repr

/-- A snoop on its way to its agent: 0 SNP_SHARE, 1 SNP_INV, 2 SNP_DATA; or one that its agent has deferred (08 R231). -/
structure Snoop where
  agent : Nat
  line : Nat
  kind : Nat
  deferred : Bool := false
  deriving DecidableEq, Repr

/-- The answer of a part's L1D on its way to the home: 0 NOT_HELD, 1 CLEAN, 2 DATA_DIRTY, 3 DATA_KEPT (16 R451). -/
structure SnpAns where
  agent : Nat
  line : Nat
  st : Nat
  poison : BitVec 4 := 0#4
  data : Option (BitVec 1024) := none
  deriving DecidableEq, Repr

/-- A stride prefetch stream (06 R164). -/
structure Stream where
  master : Nat
  part : Nat
  /-- Direct line number of the latest demand miss. -/
  last : Nat
  stride : Int
  /-- Misses seen with this stride. -/
  hits : Nat
  used : Nat
  /-- Next line to fetch. -/
  next : Int
  deriving DecidableEq, Repr

/-- A look-ahead range (06 R165). -/
structure LaRange where
  /-- Bay and port whose descriptor sent it, and the descriptor's order number. -/
  bay : Nat
  order : Nat
  /-- Direct address of the first byte, bytes, and bytes already fetched. -/
  addr : Nat
  bytes : Nat
  next : Nat := 0
  deriving DecidableEq, Repr

/-- What a memory request was answered with: status, poison of each 32-byte chunk that it read, and the bytes. -/
structure MemAns where
  status : Nat := 0
  poison : Bool := false
  data : List Byte := []
  deriving DecidableEq, Repr

/-- A stack controller and its base die's registers (06 R151 to R181, 08 R242). -/
structure Stack where
  /-- SC_INFO fewest spare lanes (06 R181); 2. -/
  spareLanes : Nat := 2
  /-- Spare lanes used by each of 32 channels, each direction together (06 R167); 0. -/
  lanesUsed : Tbl Nat := []
  /-- SC_STATUS (06 R181); reset 0. -/
  status : Word := 0#32
  /-- DRAM_TEMP hottest die, °C (06 R181); reset 0. -/
  temp : Nat := 0
  /-- State: 0 NORMAL to 3 TRIP (06 R171); reset 0. -/
  state : Nat := 0
  /-- State that a sample has called for and that the next window boundary takes (06 R171); reset 0. -/
  nextState : Nat := 0
  /-- DELIVERABLE (06 R181); reset 0x7080. -/
  deliverable : Nat := 0x7080
  /-- QUEUE_THRESH (06 R181); reset 0x008000C0. -/
  queueThresh : Word := 0x008000C0#32
  /-- Requests in the controller's queue, oldest first (06 R174); none. -/
  queue : List MemReq := []
  /-- Answer of the last request served; the model's own; none. -/
  answer : Option MemAns := none
  /-- Enforcing (06 R174); reset false. -/
  enforcing : Bool := false
  /-- MSC_CTRL (06 R181); reset 0. -/
  mscCtrl : Word := 0#32
  /-- MSC_MAINT_STATUS (06 R181); reset 0. -/
  maintStatus : Word := 0#32
  /-- Operation that runs: op, partition, Shelf index (06 R162); none. -/
  maint : Option (Nat × Nat × Nat) := none
  /-- PF_CTRL (06 R181); reset 0x00100803. -/
  pfCtrl : Word := 0x00100803#32
  /-- PF_DROPS (06 R181); reset 0. -/
  pfDrops : Word := 0#32
  /-- Stride streams, at most 64 (06 R164); none. -/
  streams : List Stream := []
  /-- Look-ahead ranges, at most 64, oldest first (06 R165); none. -/
  ranges : List LaRange := []
  /-- ECC_CORR_COUNT (06 R181); reset 0. -/
  eccCorr : Word := 0#32
  /-- ERR_ADDR (06 R181); reset 0. -/
  errAddr : DWord := 0#64
  /-- SCRUB_CTRL (06 R181); reset 0xC. -/
  scrubCtrl : Word := 0xC#32
  /-- SCRUB_STATUS (06 R181); reset 0. -/
  scrubPasses : Word := 0#32
  /-- Chunk the patrol scrub reads next (06 R170); 0. -/
  scrubAt : Nat := 0
  /-- SHELF_OWNER masks of Shelf indices 0 to 15, 0 where not listed (06 R157, R181); reset 0. -/
  shelfOwner : Tbl Nat := []
  /-- GUAR of masters 0 to 43: granules and HIGH at bit 16, 0 where not listed (06 R177, R181); reset 0. -/
  guar : Tbl Nat := []
  /-- GUAR values to take at the next window boundary (06 R181); none. -/
  guarNext : Tbl Nat := []
  /-- EFF of masters, 0 where not listed (06 R179, R181); reset 0. -/
  eff : Tbl Nat := []
  /-- USED of the last completed window (06 R173, R181); reset 0. -/
  used : Tbl Nat := []
  /-- Granules charged in the running window (06 R173); 0. -/
  usedNow : Tbl Nat := []
  /-- Whether the stack is in self-refresh (06 R180); false. -/
  selfRefresh : Bool := false
  /-- COH_STATUS (08 R242); reset 0. -/
  cohStatus : Word := 0#32
  /-- DIR_RECALLS (08 R242); reset 0. -/
  dirRecalls : Word := 0#32
  /-- FAR_ATOMICS (08 R242); reset 0. -/
  farAtomics : Word := 0#32
  /-- SNOOP_DEADLINE (08 R242); reset 0x64. -/
  snoopDeadline : Word := 0x64#32
  /-- Lines on which a far AMO was performed in the running regulation window (08 R234); none. -/
  farLines : NSet := []
  deriving DecidableEq, Repr

/-- Memory below the caches and the homes' bookkeeping. -/
structure Memory where
  /-- Stack memory, by direct physical address (06 R153); reset 0 (assumption 2). -/
  dram : Mem := []
  /-- Poisoned 32-byte chunks, by direct address / 32 (06 R168); none. -/
  poison : NSet := []
  /-- MSC lines, by direct address / 128 (06 R159); none. -/
  msc : Tbl MscLine := []
  /-- Pseudo-LRU trees, by (stack × 8192 + set) × 8 + partition (06 R160); 0. -/
  plru : Tbl Nat := []
  /-- Directory entries, by direct address / 128 (08 R228); none. -/
  dir : Tbl DirEntry := []
  /-- Order of the last directory use (08 R230); 0. -/
  dirClock : Nat := 0
  /-- Requests in service, by line (08 R226); none. -/
  txns : Tbl HomeTxn := []
  /-- Grants, snoops and answers on their way (08 R226); none. -/
  grants : List Grant := []
  snoops : List Snoop := []
  answers : List SnpAns := []
  /-- Copies that a holder has given an outside read which waits to be made again, by line (08 R237); none. -/
  copies : Tbl (BitVec 1024) := []
  deriving DecidableEq, Repr

end Sys2Proof.Machine
end

