-- ==== Sys2Proof/Machine/StatePwr.lean ====
section
/-! DEFINITION. State records of time and power (12_time_and_power.md). -/

namespace Sys2Proof.Machine

/-- Time transfer on one link: a port, or the leader of a bond (12 R339, R340). -/
structure LinkTime where
  /-- T_TX of the last TIME flit received, and its arrival (12 R339); 0 if none. -/
  echoTx : Nat := 0
  echoRx : Nat := 0
  /-- QUALITY and LOCKED that the peer reported (12 R339); 255, false. -/
  quality : Nat := 255
  locked : Bool := false
  /-- Peer device identifier, for a tie (12 R340); 0. -/
  device : Nat := 0
  /-- Datestamp at which this side last sent a TIME flit (12 R339); 0. -/
  sentAt : Nat := 0
  deriving DecidableEq, Repr

/-- A logical Bay's clock (12 R345 to R348, R360, R367). -/
structure BayPwr where
  /-- Current code (12 R345, R367); reset 0. -/
  code : Nat := 0
  /-- Code decided for the next epoch (12 R367); reset 0. -/
  next : Nat := 0
  /-- Stretch levels that droop, clips and caps, and the thermal throttle ask for (12 R347); reset 0. -/
  droop : Nat := 0
  clip : Nat := 0
  thermal : Nat := 0
  /-- The hottest of its sensors, °C (12 R360); reset 0. -/
  temp : Nat := 0
  deriving DecidableEq, Repr

/-- A frequency vote (12 R351). -/
structure PwrVote where
  /-- Epoch index that it is for. -/
  epoch : Nat := 0
  code : Nat := 0
  /-- 0 TARGET, 1 BOOST, 2 POWER, 3 THERMAL, 4 HINT, 5 CAP, 6 MISSING. -/
  reason : Nat := 0
  /-- Lowest device that voted the code. -/
  device : Nat := 0
  deriving DecidableEq, Repr

/-- What the power controller keeps of a Volume (12 R349 to R364). -/
structure PwrVol where
  /-- FREQ_TARGET (12 R350); 50. -/
  target : Nat := 50
  /-- Code in force (12 R349); 0. -/
  code : Nat := 0
  /-- This part's own vote (12 R350); none before the first. -/
  own : Option PwrVote := none
  /-- Votes held, by the device that sent each (12 R351); none. -/
  held : Tbl PwrVote := []
  /-- Last vote of each device below this part, for a missing one (12 R351); none. -/
  last : Tbl Nat := []
  /-- Epoch whose vote has been passed up, and whose code this coordinator has decided (12 R351); 0. -/
  passed : Nat := 0
  decided : Nat := 0
  /-- Epoch and code of the DECIDE held (12 R351, R352); none. -/
  decide_ : Option (Nat × Nat) := none
  /-- Throttle code (12 R360); 58. -/
  throttle : Nat := 58
  /-- What stage 4 lets it vote (12 R357); none while it is not lowered. -/
  allow : Option Nat := none
  /-- Whether boost is granted for the next epoch (12 R358); false. -/
  boost : Bool := false
  /-- Its modelled energy in the running and in the last epoch, nJ (12 R364, R365); 0. -/
  energyNow : Nat := 0
  energyLast : Nat := 0
  deriving DecidableEq, Repr

/-- A phase hint (12 R355, 13 R384). -/
structure PwrHint where
  volume : Nat
  cls : Nat
  start : Nat
  epochs : Nat
  /-- Its HINT command, by acceptance number, and the context. -/
  cmd : Nat := 0
  ctx : Nat := 0
  deriving DecidableEq, Repr

/-- Time and power (12 R333 to R367). -/
structure Pwr where
  /-- DS_STATUS (12 R367); reset 0. -/
  dsStatus : Word := 0#32
  /-- DS_CTRL (12 R367); reset 3. -/
  dsCtrl : Word := 3#32
  /-- DS_SET (12 R367); reset 0. -/
  dsSet : DWord := 0#64
  /-- Whether a write of DS_SET_HI has armed a step (12 R342, R367); false. -/
  dsArmed : Bool := false
  /-- The mailbox command that waits for the step: function 0's index (15 R435); none. -/
  dsCmd : Option Nat := none
  /-- DS_OFFSET in ns (12 R367); reset 0. -/
  dsOffset : Int := 0
  /-- DS_SOURCE source: 0 none, 1 SYNC_IN, 2 link (12 R367); reset 0. -/
  source : Nat := 0
  /-- DS_SOURCE parent port or bond leader (12 R367); reset 0. -/
  parent : Nat := 0
  /-- DS_SOURCE own QUALITY (12 R339, R367); reset 0xFF. -/
  quality : Nat := 255
  /-- DS_ERR_BOUND when it was last set (12 R367); reset 0xFFFF. -/
  errBound : Nat := 0xFFFF
  /-- Datestamp at which HOLDOVER began (12 R337); none. -/
  holdSince : Option Nat := none
  /-- SYNC_COUNT pulses accepted, 16 bits (12 R367); reset 0. -/
  accepted : Nat := 0
  /-- SYNC_COUNT pulses rejected, 16 bits (12 R367); reset 0. -/
  rejected : Nat := 0
  /-- Datestamp of the last pulse accepted (12 R338); none. -/
  pulseAt : Option Nat := none
  /-- Offsets of the last consecutive pulses rejected, newest first, at most 3 (12 R338); none. -/
  farRun : List Int := []
  /-- Consecutive measurements of at most 20 ns (12 R337); 0. -/
  good : Nat := 0
  /-- Correction still to be made by slewing, in ns (12 R334); 0. -/
  slew : Int := 0
  /-- Ticks until slewing may change one again (12 R334); 0. -/
  slewWait : Nat := 0
  /-- Time transfer by link (12 R339); none. -/
  links : Tbl LinkTime := []
  /-- Datestamp second at which SYNC_OUT last pulsed (19 R534); none. -/
  syncOut : Option Nat := none
  /-- PWR_STATUS (12 R367); reset 0. -/
  status : Word := 0#32
  /-- PWR_CTRL (12 R367); reset 4. -/
  ctrl : Word := 4#32
  /-- ISOLATED and TDM as the next epoch boundary sets them (12 R363); none. -/
  isoNext : Option Bool := none
  /-- PWR_CAP in W (12 R367); reset 0x3E8. -/
  cap : Nat := 0x3E8
  /-- Package power samples of the last 60 s, mW, newest first (12 R356); none. -/
  samples : List Nat := []
  /-- TJ_MAX hottest sensor, its Bay (12 R367); reset 0. -/
  tjMax : Nat := 0
  tjBay : Nat := 0
  /-- Boost residency of the running bucket, in ns, and of the 95 before it, newest first (12 R359); 0 and 135 s each. -/
  boostNow : Nat := 0
  boostPast : List Nat := List.replicate 95 135000000000
  /-- Datestamp up to which residency has been summed (12 R359); 0. -/
  boostMark : Nat := 0
  /-- PKG_ENERGY in nJ (12 R367); reset 0. -/
  pkgNj : Nat := 0
  /-- MODEL_ENERGY in nJ (12 R367); reset 0. -/
  modelNj : Nat := 0
  /-- DROOP_COUNT, saturating (12 R367); reset 0. -/
  droops : Word := 0#32
  /-- CLIP_COUNT 4 ms and 2 s clips, 16 bits each, saturating (12 R367); reset 0. -/
  clips4 : Nat := 0
  clips2 : Nat := 0
  /-- Bay clocks by logical Bay, as after reset where not listed (12 R367). -/
  bays : Tbl BayPwr := []
  /-- Volumes by handle, as for a new Volume where not listed (12 R350). -/
  vols : Tbl PwrVol := []
  /-- Hints in force (12 R355); none. -/
  hints : List PwrHint := []
  /-- Whether the 4 ms, 2 s and 60 s clips last, and whether a cap's stretch does (12 R357, R361); false. -/
  clip4 : Bool := false
  clip2 : Bool := false
  clip60 : Bool := false
  capped : Bool := false
  /-- Epoch before which boost is withheld (12 R357); 0. -/
  boostHold : Nat := 0
  /-- Whether the wear budget is spent (12 R359); false. -/
  worn : Bool := false
  /-- Last epoch of each of the events of R349 (12 R349): boundary, vote instant, voltage offset; 0, and none before the first. -/
  boundary : Nat := 0
  voteDone : Option Nat := none
  voltDone : Option Nat := none
  /-- Modelled energy of no Volume in the running and in the last epoch, nJ (12 R365); 0. -/
  restNow : Nat := 0
  restLast : Nat := 0
  deriving DecidableEq, Repr

namespace Pwr
def bay (p : Pwr) (b : Nat) : BayPwr := Tbl.getD p.bays b {}
def setBay (p : Pwr) (b : Nat) (x : BayPwr) : Pwr := { p with bays := Tbl.put p.bays b x }
def vol (p : Pwr) (h : Nat) : PwrVol := Tbl.getD p.vols h {}
def setVol (p : Pwr) (h : Nat) (v : PwrVol) : Pwr := { p with vols := Tbl.put p.vols h v }
def link (p : Pwr) (q : Nat) : LinkTime := Tbl.getD p.links q {}
/-- STATE of DS_STATUS: 0 FREE, 1 ACQUIRE, 2 LOCKED, 3 HOLDOVER (12 R367). -/
def dsState (p : Pwr) : Nat := bitsAt p.dsStatus.toNat 16 2
end Pwr

/-- A Bay's stretch level: the highest asked for (12 R347). -/
def BayPwr.level (x : BayPwr) : Nat := max x.droop (max x.clip x.thermal)

end Sys2Proof.Machine
end

