-- ==== Sys2Proof/Machine/StateRegs.lean ====
section
/-! DEFINITION. What the register interface itself holds: shadows, held halves and posted writes (00_scope.md R3 to R8). -/

namespace Sys2Proof.Machine

/-- A posted write of a slow-domain register (00 R7). -/
structure SlowWrite where
  who : Writer
  blk : Block
  off : Nat
  v : Word
  deriving DecidableEq, Repr

/-- The register interface. -/
structure Regs where
  /-- _HI shadows, by register, 0 where not listed (00 R3); reset 0. -/
  shadow : Tbl Word := []
  /-- Held _LO values, by register, 0 where not listed (00 R4); reset 0 (assumption 1). -/
  held : Tbl Word := []
  /-- Posted writes that have not taken effect, oldest first (00 R7); none. -/
  slow : List SlowWrite := []
  /-- RSVD_POLICY of function 0: true is P (00 R6); reset Z. -/
  policyP : Bool := false
  /-- Reserved bits that are live test controls, as last written under P, by register (00 R6); none written. -/
  test : Tbl Word := []
  deriving DecidableEq, Repr

/-- A number for each register block. -/
def blockKey : Block → Nat
  | .bay b => b | .matrix b c => 32 + 4 * b + c | .stack k => 160 + k | .shelver n => 168 + n | .catalogue p => 200 + p | .fabric p => 204 + p
  | .timePower => 252 | .fn f => 253 + f | .otfold p => 262 + p | .security => 264 | .sequencer => 265

/-- A number for each register. -/
def regKey (blk : Block) (off : Nat) : Nat := blockKey blk * 4096 + off % 4096

end Sys2Proof.Machine
end

