-- ==== Sys2Proof/Machine/StateSec.lean ====
section
/-! DEFINITION. State records of the security block: fuses, the Carrel, seal policies and reports (17_security.md). -/

namespace Sys2Proof.Machine

/-- A weight key in a Carrel key slot (17 R473, R482). -/
structure KeySlot where
  key : BitVec 256
  salt : BitVec 32
  id : BitVec 32
  deriving DecidableEq, Repr

/-- An ephemeral KEM key (17 R477): the report it went into, and what decapsulation under it draws on. -/
structure KemKey where
  part : Nat
  /-- Generation of its handle. -/
  gen : Nat
  stamp : Nat
  /-- Report digest RD (17 R476). -/
  rd : BitVec 512
  /-- The free value that stands for the key pair (assumption 3). -/
  seed : Nat
  deriving DecidableEq, Repr

/-- A seal policy in force (17 R481). -/
structure Policy where
  digests : List (BitVec 512)
  allowPeer : Bool
  digest : BitVec 512
  deriving DecidableEq, Repr

/-- The security block (17 R464 to R493). -/
structure Sec where
  /-- LC steps (17 R464, R493); per part: reset 2, SECURED (17 R466, assumption 21). -/
  lc : Nat := 2
  /-- UDS_KILL (17 R464, R493); per part: reset false (assumption 21). -/
  udsKill : Bool := false
  /-- SEC_VERSION (17 R464, R493); per part: reset 0 (assumption 21). -/
  secVersion : Nat := 0
  /-- FW_KEY_REVOKE, one step for each signing key, a bit each (17 R464); per part: reset 0 (assumption 21). -/
  revoke : Nat := 0
  /-- TAMPER_COUNT (17 R464, R493); per part: reset 0 (assumption 21). -/
  tamperCount : Nat := 0
  /-- SERIAL (17 R464); per part: reset 0 (assumption 21). -/
  serial : DWord := 0#64
  /-- Whether a tamper event has happened since power-on (17 R475); false. -/
  tampered : Bool := false
  /-- SEC_STATUS (17 R493); reset 0. -/
  status : Word := 0#32
  /-- IMAGE_SEC_VERSION (17 R493); per image: reset 0 (assumption 21). -/
  imageSecVersion : Nat := 0
  /-- FW_VERSION of the running image (17 R470); reset 0 (assumption 21). -/
  fwVersion : Nat := 0
  /-- FW_DIGEST of the running image (17 R471); reset 0. -/
  fwDigest : BitVec 512 := 0#512
  /-- Bay spare rows held in the repair fuses, beyond those of the part as made (17 R464, 03 R77); 0. -/
  fusedRows : Nat := 0
  /-- Whether the Carrel holds identity keys (17 R469, R474); false. -/
  identity : Bool := false
  /-- Key slots 0 to 4,095 that hold keys (17 R473); none. -/
  keys : Tbl KeySlot := []
  /-- K1 in the low half and K2 in the high half of each sealed partition (17 R484); none. -/
  partKeys : Tbl (BitVec 512) := []
  /-- Ephemeral KEM keys 0 to 31 (17 R473, R477); none. -/
  kems : Tbl KemKey := []
  /-- Next generation of KEM handles (17 R477); 1. -/
  kemGen : Nat := 1
  /-- Seal policies by partition (17 R481); none. -/
  policies : Tbl Policy := []
  /-- SEALED_PARTS (17 R481, R493); none. -/
  sealedParts : NSet := []
  /-- The LC_RETURN challenge while it is valid (17 R467); none. -/
  challenge : Option (BitVec 256) := none
  /-- DevID digests of the peers, by link (17 R479, R480); none. -/
  peers : Tbl (BitVec 512) := []
  deriving DecidableEq, Repr

/-- What the board controller sees over SMBus (19 R537 to R539, 17 R478). -/
structure Smb where
  /-- Completion code of the last response (19 R538); 0. -/
  code : Nat := 0
  /-- Bytes of the last response (19 R538); none. -/
  reply : List Byte := []
  /-- Instant until which a response is being sent, across MCTP packets (17 R478); 0. -/
  until_ : Nat := 0
  /-- ALERTS [5:0] (19 R539); 0. -/
  alerts : Nat := 0
  /-- The telemetry block as last refreshed (19 R538, R539); zeros. -/
  telemetry : List Byte := List.replicate 32 0#8
  /-- Datestamp of its last refresh (19 R538); 0. -/
  refreshAt : Nat := 0
  deriving DecidableEq, Repr

end Sys2Proof.Machine
end

