-- ==== Sys2Proof/Machine/StateShelver.lean ====
section
/-! DEFINITION. State records of the Shelvers (07_shelvers.md R182 to R222). -/

namespace Sys2Proof.Machine

/-- A Shelver's command queue (07 R185, R222). -/
structure ShQueue where
  /-- CMD_BASE, 46 bits (07 R222); reset 0. -/
  cmdBase : DWord := 0#64
  /-- CPL_BASE, 46 bits (07 R222); reset 0. -/
  cplBase : DWord := 0#64
  /-- Q_SIZE (07 R222); reset 32. -/
  size : Nat := 32
  /-- Q_WR, 16 bits (07 R222); reset 0. -/
  wr : Nat := 0
  /-- Q_RD, 16 bits (07 R222); reset 0. -/
  rd : Nat := 0
  /-- Q_FAILED, 16 bits, saturating (07 R222); reset 0. -/
  failed : Nat := 0
  deriving DecidableEq, Repr

/-- A command that has started (07 R191): the outcome it comes to is fixed when it moves its data. -/
structure ShRun where
  /-- Ring index of the command (07 R192). -/
  index : Nat := 0
  /-- The 128-byte command (07 R187). -/
  word : BitVec 1024 := 0#1024
  /-- Chunks of 64 KiB not yet done (07 R191). -/
  chunks : Nat := 0
  /-- Status, flags and results it has come to (07 R192). -/
  status : Nat := 0
  exc : Nat := 0
  r0 : Nat := 0
  r1 : Nat := 0
  /-- Whether the publish step is left out whatever the status (07 R206). -/
  noPublish : Bool := false
  /-- Logical bytes read and written, for the Ledger (07 R192, 14 R417). -/
  bytesRd : Nat := 0
  bytesWr : Nat := 0
  /-- Lines it has written: direct address, bytes, attribute word; the model's own, for what an interruption leaves undefined (07 R208). -/
  dst : List (Nat × Nat × Nat) := []
  /-- Translations it holds: context key, virtual base, bytes and leaf, at most 512 (07 R182, 09 R253). -/
  ttb : List (Nat × Nat × Nat × DWord) := []
  deriving DecidableEq, Repr

/-- A migration mirror (07 R205). -/
structure Mirror where
  src : Nat
  dst : Nat
  bytes : Nat
  cmpSrc : Nat
  cmpNew : Nat
  deriving DecidableEq, Repr

/-- A Shelver (07 R182, R222). -/
structure Shelver where
  /-- SH_CTRL: QEN [8:0], HALT [16] (07 R222); reset 0. -/
  ctrl : Word := 0#32
  /-- SH_STATUS (07 R222); reset 0. -/
  status : Word := 0#32
  /-- SH_ACTIVE, queue of the running command (07 R222); reset 0xF. -/
  active : Nat := 0xF
  /-- SH_WATCHDOG (07 R222); reset 0x3E8. -/
  watchdog : Word := 0x3E8#32
  /-- SH_DONE, wraps (07 R222); reset 0. -/
  done : Word := 0#32
  /-- SCRATCH_PARITY, saturating (07 R222); reset 0. -/
  scratchParity : Word := 0#32
  /-- The mirror, ACTIVE where there is one (07 R205, R222); none. -/
  mirror : Option Mirror := none
  /-- Queues 0 to 8, as after reset where not listed (07 R185). -/
  queues : Tbl ShQueue := []
  /-- Commands that have started, by queue (07 R191); none. -/
  runs : Tbl ShRun := []
  /-- Queue served last in the round robin (07 R191); 7, so that queue 0 is first. -/
  last : Nat := 7
  /-- Whether a Shelver reset runs (07 R221); false. -/
  resetting : Bool := false
  /-- Whether its reset overran and it is fenced (18 R507); false. -/
  fenced : Bool := false
  /-- SEQ of the RETRY fault record that holds the command at the head of a queue, by queue (09 R261); none. -/
  heldOn : Tbl Nat := []
  /-- Commands that are to end with ABORTED when their turn comes, as queue × 65536 + index (07 R221); none. -/
  doomed : NSet := []
  deriving DecidableEq, Repr

end Sys2Proof.Machine
end

