-- ==== Sys2Proof/Machine/StateVol.lean ====
section
/-! DEFINITION. State records of Volumes and Concordance rounds (10_volumes.md R277 to R297). -/

namespace Sys2Proof.Machine

/-- One member of a map (10 R279). -/
structure VolMember where
  device : Nat
  /-- Partitions of the tenant that the entry draws on. -/
  parts : Nat := 0
  bays : Nat := 0
  shelves : Nat := 0
  ports : Nat := 0
  bayDown : Nat := 0
  /-- In the routing map: digest of the part's table image (11 R319). -/
  digest : BitVec 512 := 0#512
  deriving DecidableEq, Repr

/-- A Volume map (10 R279). -/
structure VolMap where
  handle : Nat := 0
  epoch : Nat := 0
  coord : Nat := 0
  /-- GRACE_LIMIT in ms, SWITCH_LEAD in µs. -/
  grace : Nat := 0
  lead : Nat := 0
  members : List VolMember := []
  deriving DecidableEq, Repr

/-- A member's state for a Volume (10 R285). -/
inductive VolState where
  | steady | prepared | switching
  deriving DecidableEq, Repr

/-- A Volume as this part knows it (10 R279, R285 to R288). -/
structure Volume where
  /-- The current map; none before a VOL_CREATE round's switch. -/
  cur : Option VolMap := none
  /-- The previous map while its epoch is in grace (10 R279). -/
  prev : Option VolMap := none
  /-- Datestamp of the last switch (10 R288). -/
  switchedAt : Nat := 0
  /-- DRAIN messages held, as epoch × 16384 + device (10 R288). -/
  drained : NSet := []
  /-- Whether this part has sent DRAIN for the previous epoch. -/
  sentDrain : Bool := false
  st : VolState := .steady
  /-- The map prepared or committed (10 R285). -/
  next : Option VolMap := none
  /-- SWITCH_AT of a committed round (10 R286). -/
  switchAt : Nat := 0
  /-- The command of the committed round: function and mailbox index (10 R281); none. -/
  cmd : Option (Nat × Nat) := none
  deriving DecidableEq, Repr

/-- What a Registrar keeps of an open round (10 R282 to R290). -/
structure Round where
  /-- New epoch. -/
  epoch : Nat
  /-- Map bytes received in chunks, by chunk index (10 R282). -/
  chunks : Tbl (List Byte) := []
  /-- Chunk count, digest and PREPARE_DEADLINE of the PREPARE (10 R282); none before it. -/
  prepare : Option (Nat × BitVec 512 × Nat) := none
  /-- The new map once its chunks have been read. -/
  map : Option VolMap := none
  /-- This part's own vote: 0 YES or the reason's code of R436; none while it is held (10 R284). -/
  own : Option Nat := none
  /-- Votes of children: device, reason (0 YES), lowest NO device. -/
  votes : List (Nat × Nat × Nat) := []
  /-- Whether the subtree's vote has been sent. -/
  voted : Bool := false
  /-- Coordinator: the function and mailbox index of the issuing command (10 R281); none. -/
  cmd : Option (Nat × Nat) := none
  /-- Device at the root of the tree (10 R283). -/
  root : Nat := 0
  /-- Whether the chunks and the PREPARE have been forwarded (10 R283). -/
  relayed : Bool := false
  /-- New coordinator after a failure: STATE answers, device, epoch, state (10 R290); none. -/
  recover : Option (List (Nat × Nat × Nat)) := none
  /-- End of the 1 ms wait for STATE (10 R290). -/
  recoverBy : Nat := 0
  deriving DecidableEq, Repr

/-- A SHELF_MIGRATE whose COPY runs or has completed (10 R294, R295). -/
structure Migration where
  sh : Nat
  src : Nat
  dst : Nat
  bytes : Nat
  /-- Ring index of its MIGRATE on queue 8. -/
  index : Nat
  /-- Whether COPY has completed. -/
  copied : Bool := false
  /-- Whether the mirror was stopped by a Shelver reset. -/
  lost : Bool := false
  /-- Function and mailbox index of the COPY. -/
  cmd : Nat × Nat := (0, 0)
  deriving DecidableEq, Repr

/-- A Volume's pre-emption (14 R416). -/
structure Preempt where
  /-- PREEMPT_AT and RESUME_AT; 0 is until VOL_RESUME. -/
  at_ : Nat := 0
  resume : Nat := 0
  /-- Device from which the relay came; this part itself where its function 0 issued it. -/
  source : Nat := 0
  /-- Whether this part has pre-empted the running tiles (14 R416). -/
  begun : Bool := false
  /-- Whether this part has reported that the Volume's Bays on it are free. -/
  reported : Bool := false
  /-- Members that have not reported to this part, the issuer. -/
  waits : NSet := []
  /-- The command's mailbox index on function 0, while it waits. -/
  cmd : Option Nat := none
  deriving DecidableEq, Repr

/-- A release in progress (10 R298 to R300). -/
structure Release where
  /-- The command's mailbox index on function 0; none once a restart has ended it (10 R300). -/
  cmd : Option Nat := none
  /-- End of DRAIN_LIMIT (10 R299). -/
  limit : Nat := 0
  /-- Whether what is left is handled as under SQUASH (10 R299). -/
  squash : Bool := false
  /-- 0 work ends, 1 the partition reset runs, 2 the Shelves are scrubbed (10 R300, 17 R488). -/
  stage : Nat := 0
  /-- Datestamp at which step 2 of the scrub ended (17 R488). -/
  cleared : Nat := 0
  deriving DecidableEq, Repr

/-- Volumes and rounds (10). -/
structure Vols where
  /-- Volumes known, by handle (10 R277); none. -/
  vols : Tbl Volume := []
  /-- Open rounds, by handle (10 R282); none. -/
  rounds : Tbl Round := []
  /-- Next index of a handle, 1 to 2^18 − 1 (10 R277); 1. -/
  nextIndex : Nat := 1
  /-- Shelf migrations, by partition (10 R294); none. -/
  migrations : List (Nat × Migration) := []
  /-- Releases in progress, by partition (10 R298 to R300); none. -/
  releases : Tbl Release := []
  /-- Pre-emptions of whole Volumes, by handle (14 R416); none. -/
  preempts : Tbl Preempt := []
  deriving DecidableEq, Repr

end Sys2Proof.Machine
end

