-- ==== Sys2Proof/Machine/StateWork.lean ====
section
/-! DEFINITION. State records of the objects the driver and the part share, of placement and the Ledger, and of the Registrar's functions (13_work_objects.md, 14_scheduling.md, 15_registrar.md). -/

namespace Sys2Proof.Machine

/-- An entry of a context's receiving tray (14 R414). -/
structure TrayEntry where
  /-- Its DISPATCH, by acceptance number, and the tile index. -/
  cmd : Nat
  tile : Nat
  tag : Nat
  status : Nat
  /-- BAY_ADDR of the load, and its bytes. -/
  bay : Nat
  len : Nat
  /-- Offset of its header in the tray. -/
  at_ : Nat
  /-- DISCARDED: the response did not fit. -/
  discarded : Bool := false
  deriving DecidableEq, Repr

/-- The states of a context (13 R372). -/
inductive CtxState where
  | runnable | faulted | destroying
  deriving DecidableEq, Repr

/-- The Ledger's counters of a job or a context (14 R417). -/
structure Counters where
  /-- Commands completed (14 R417); reset 0. -/
  commands : Nat := 0
  /-- TILE_DONEs not ABANDONED (14 R417); reset 0. -/
  tiles : Nat := 0
  /-- Bay-nanoseconds (14 R417); reset 0. -/
  bayNs : Nat := 0
  /-- Bytes read from stacks (14 R417); reset 0. -/
  stackRd : Nat := 0
  /-- Bytes written to stacks (14 R417); reset 0. -/
  stackWr : Nat := 0
  /-- Fabric bytes sent (14 R417); reset 0. -/
  fabTx : Nat := 0
  /-- Fabric bytes received (14 R417); reset 0. -/
  fabRx : Nat := 0
  /-- Energy in nanojoules (14 R418); reset 0. -/
  energyNj : Nat := 0
  /-- Pre-emptions (14 R417); reset 0. -/
  preempts : Nat := 0
  /-- Replays (14 R417); reset 0. -/
  replays : Nat := 0
  /-- OR of completion EXC (14 R419); reset 0. -/
  exc : Nat := 0
  deriving DecidableEq, Repr

/-- A context (13 R371 to R374). -/
structure Ctx where
  /-- Generation, from 1 (13 R369); set at creation. -/
  gen : Nat := 1
  /-- ROOT, physical address of the level-1 table (13 R371); set at creation. -/
  root : Nat := 0
  /-- FAULT_MODE: true is RETRY (13 R371); set at creation. -/
  retry : Bool := false
  /-- MAX_BAYS, 1 to 32 (13 R371); set at creation. -/
  maxBays : Nat := 1
  /-- SEED, 64 bits (13 R371, 02 R49); set at creation. -/
  seed : DWord := 0#64
  /-- SAVE_VA (13 R371); set at creation. -/
  saveVa : Nat := 0
  /-- SAVE_BYTES (13 R371); set at creation. -/
  saveBytes : Nat := 0
  /-- FAULT_RING, a companion address (13 R371); set at creation. -/
  faultRing : Nat := 0
  /-- FAULT_ENTRIES (13 R371); set at creation. -/
  faultEntries : Nat := 16
  /-- State of R372 (13 R372); RUNNABLE at creation. -/
  state : CtxState := .runnable
  /-- Resident context slot held, if any (13 R368, 01 R17); none at creation. -/
  slot : Option Nat := none
  /-- Whether the save area passed its check at this swap-in (13 R373); false at creation. -/
  saveOk : Bool := false
  /-- Whether the context has read a sealed page since creation (13 R373); false at creation. -/
  sealedRead : Bool := false
  /-- SEQ of the last fault record counted (13 R374); 0 at creation. -/
  seq : Nat := 0
  /-- SEQs of the records written and not yet returned by the driver, oldest first (13 R374); none at creation. -/
  unacked : List Nat := []
  /-- Records dropped since the last one written (13 R374); 0 at creation. -/
  dropped : Nat := 0
  /-- Datestamp of creation (14 R419); set at creation. -/
  created : Nat := 0
  /-- The context's counters (14 R417); 0 at creation. -/
  counts : Counters := {}
  /-- First status other than OK among the records of its jobs (14 R419); 0 at creation. -/
  firstBad : Nat := 0
  /-- Datestamp of CTX_DESTROY's acceptance (13 R395); none at creation. -/
  destroyAt : Option Nat := none
  /-- Energy below 1 µJ that enters the context's next record, in nJ (14 R418); 0 at creation. -/
  energyRem : Nat := 0
  /-- Next free offset of the receiving tray (14 R414); 0 at creation. -/
  trayNext : Nat := 0
  /-- Entries of the receiving tray not yet consumed, oldest first (14 R414); none at creation. -/
  tray : List TrayEntry := []
  deriving DecidableEq, Repr

/-- A queue (13 R368, R376). -/
structure Queue where
  /-- Generation (13 R369); set at creation. -/
  gen : Nat := 1
  /-- Context, as partition × 4096 + index (13 R376); set at creation. -/
  ctx : Nat := 0
  /-- Command ring, companion address (13 R376); set at creation. -/
  cmdRing : Nat := 0
  /-- Completion ring, companion address (13 R376); set at creation. -/
  cplRing : Nat := 0
  /-- ENTRIES (13 R376); set at creation. -/
  entries : Nat := 16
  /-- Interrupt vector, 0xFF none (13 R376); set at creation. -/
  vector : Nat := 0xFF
  /-- Write index, 16 bits (13 R376, 15 R426); 0 at creation. -/
  wr : Nat := 0
  /-- Commands read, 16 bits (13 R376); 0 at creation. -/
  rd : Nat := 0
  /-- Completion slots returned, 16 bits (13 R376); 0 at creation. -/
  returned : Nat := 0
  /-- Completion records written (13 R386); 0 at creation. -/
  written : Nat := 0
  /-- Datestamp since which the queue holds a resident slot (13 R368); none at creation. -/
  resident : Option Nat := none
  /-- Datestamp since which the queue has had no unread command (13 R368); set at creation. -/
  idleSince : Nat := 0
  /-- Datestamp of QUEUE_DESTROY's acceptance (13 R396); none at creation. -/
  destroyAt : Option Nat := none
  /-- Arrival stamp of the last CMD_DB (15 R426); 0 at creation. -/
  dbStamp : Nat := 0
  deriving DecidableEq, Repr

/-- The states of a memory object that exists (13 R394). -/
inductive ObjState where
  | live | retiring | quarantined
  deriving DecidableEq, Repr

/-- A memory object (13 R392 to R394). -/
structure MemObj where
  /-- Generation (13 R369); set at allocation. -/
  gen : Nat := 1
  /-- Physical base (13 R392); set at allocation. -/
  base : Nat := 0
  /-- Bytes (13 R392); set at allocation. -/
  bytes : Nat := 0
  /-- Whether it lies in the interleaved view (13 R392); set at allocation. -/
  interleaved : Bool := false
  /-- Contexts that hold it (13 R393); the allocating context. -/
  holds : NSet := []
  /-- Its kernel-image registration: context, image virtual address and header (13 R393, 05 R144); none. -/
  image : Option (Nat × Nat × BitVec 2048) := none
  /-- State (13 R394); LIVE at allocation. -/
  state : ObjState := .live
  deriving DecidableEq, Repr

/-- A fence (13 R388 to R391). -/
structure Fence where
  /-- Generation, 8 bits (13 R369); set at allocation. -/
  gen : Nat := 1
  /-- VALUE, 64 bits (13 R388); the initial value. -/
  value : Nat := 0
  /-- STATE POISONED (13 R388); false. -/
  poisoned : Bool := false
  /-- CAUSE (13 R388); 0. -/
  cause : Nat := 0
  /-- Whether FENCE_FREE has retired it (13 R391); false. -/
  freed : Bool := false
  deriving DecidableEq, Repr

/-- A FENCE_WAIT registered (15 R438). -/
structure FenceWait where
  /-- Function that waits (15 R438). -/
  fn : Nat
  /-- Fence, as partition × 2^24 + index (15 R438). -/
  fence : Nat
  /-- Handle named (15 R438). -/
  handle : Nat
  /-- Value waited for (15 R438). -/
  value : Nat
  /-- Vector raised (15 R427, R438). -/
  vector : Nat
  deriving DecidableEq, Repr

/-- How far a command in flight has come (13 R368, R378, R382). -/
inductive CmdPhase where
  | accepted | released | held | running
  deriving DecidableEq, Repr

/-- What a HANG fault record says of a suspect (18 R505, R517). -/
structure Hang where
  /-- Logical Bay that hung. -/
  bay : Nat := 0
  /-- Level reached: 1 core, 2 Bay, 3 partition, 4 warm reset. -/
  level : Nat := 2
  /-- Step of R146 that the tile had reached. -/
  step : Nat := 0
  /-- Matrix cores not idle. -/
  busy : Nat := 0
  /-- Suspects. -/
  suspects : Nat := 1
  /-- Datestamps of the first and the second watchdog decision. -/
  first : Nat := 0
  second : Nat := 0
  /-- pcs of kernel control and of vector cores 0 to 3 at the second. -/
  pcs : List Nat := []
  deriving DecidableEq, Repr

/-- A queue command in flight (13 R368, R377 to R387). -/
structure Cmd where
  /-- Queue number (13 R386). -/
  queue : Nat := 0
  /-- Ring index, 16 bits (13 R386). -/
  index : Nat := 0
  /-- Context, as partition × 4096 + index. -/
  ctx : Nat := 0
  /-- The 256-byte command (13 R377). -/
  word : BitVec 2048 := 0#2048
  /-- How far it has come (13 R378). -/
  phase : CmdPhase := .accepted
  /-- Order of release (13 R382, 14 R400). -/
  relOrder : Nat := 0
  /-- Job it belongs to (13 R387). -/
  job : Nat := 0
  /-- SEED at acceptance (13 R371). -/
  seed : DWord := 0#64
  /-- DISPATCH: next tile not yet placed (13 R380). -/
  nextTile : Nat := 0
  /-- DISPATCH: tiles that returned unplaced, to be placed ahead of higher ones (14 R409). -/
  unplaced : NSet := []
  /-- DISPATCH: tiles whose replays are placed ahead of every other tile (18 R505). -/
  urgent : NSet := []
  /-- DISPATCH: tiles completed with OK (13 R380). -/
  okTiles : Nat := 0
  /-- Chain tiles that have completed (14 R404). -/
  doneTiles : NSet := []
  /-- First tile status other than OK, and its tile (13 R380). -/
  bad : Option (Nat × Nat) := none
  /-- OR of EXC (13 R380). -/
  exc : Nat := 0
  /-- SEQ of the fault record written for it, 0 none (13 R386). -/
  faultSeq : Nat := 0
  /-- Bays reserved for the gang, each with the Datestamp from which it is (14 R406, R417). -/
  gangBays : Tbl Nat := []
  /-- START_AT once the gang has been sent (14 R406). -/
  gangStart : Option Nat := none
  /-- Replays each tile has had, by tile index (03 R63, R92, 18 R505). -/
  replays : Tbl Nat := []
  /-- Bay that ran each completed chain tile (14 R405). -/
  ranOn : Tbl Nat := []
  /-- Last status a tile failed a first time with, kept for its one replay (03 R92, 18 R505). -/
  retryOf : Tbl Nat := []
  /-- Tiles that a hang ended and that replay alone, with what their HANG record will say (18 R505). -/
  suspects : Tbl Hang := []
  /-- SHELVE: Shelver, queue and ring index to which it was submitted (13 R381); none. -/
  shelver : Option (Nat × Nat × Nat) := none
  /-- SHELVE: stack for whose Shelvers it is held (13 R382); 0. -/
  heldStack : Nat := 0
  deriving DecidableEq, Repr

/-- An open job (13 R387, 14 R417). -/
structure Job where
  /-- Context, as partition × 4096 + index. -/
  ctx : Nat := 0
  /-- Call number (01 R19). -/
  call : Nat := 0
  /-- Datestamp of acceptance of its first command (14 R419). -/
  start : Nat := 0
  /-- Whether its JOB_END command has been accepted (13 R387). -/
  closed : Bool := false
  /-- First status other than OK among its completions (14 R419). -/
  status : Nat := 0
  /-- Counts may be incomplete (14 R421). -/
  gap : Bool := false
  /-- Its counters (14 R417). -/
  counts : Counters := {}
  deriving DecidableEq, Repr

/-- A tile placed on a Bay (14 R400 to R415, 05 R146). -/
structure Tile where
  /-- Its DISPATCH, by acceptance number. -/
  cmd : Nat := 0
  /-- Tile index (13 R380). -/
  index : Nat := 0
  /-- Logical Bay. -/
  bay : Nat := 0
  /-- Save slot held (14 R403). -/
  slot : Nat := 0
  /-- Map epoch current when the tile was dispatched (10 R287). -/
  epoch : Nat := 0
  /-- Whether RUN asked to restore accumulators (14 R407). -/
  restore : Bool := false
  /-- Step of R146 reached; 0 while RUN is on its way (05 R146). -/
  step : Nat := 0
  /-- Datestamp at which RUN was received (14 R408). -/
  runAt : Nat := 0
  /-- START_AT, 0 none (14 R406). -/
  startAt : Nat := 0
  /-- Watchdog deadline while armed (14 R408). -/
  deadline : Option Nat := none
  /-- Datestamp from which the tile's mover port has been held on a RETRY record (14 R408). -/
  heldSince : Option Nat := none
  /-- Datestamp at which PREEMPT arrived (14 R409, R410). -/
  preemptAt : Option Nat := none
  /-- Whether KILL has been sent (14 R410). -/
  killed : Bool := false
  /-- Datestamp by which the Bay runtime must answer the last message (18 R504). -/
  answerBy : Option Nat := none
  /-- Cores of the tile that have yielded, by crossbar port (05 R142). -/
  yielded : NSet := []
  /-- Status the tile will report, once a fault or a failing yield has decided it (05 R149, R150). -/
  status : Option Nat := none
  /-- Exception flags gathered (02 R57). -/
  exc : Nat := 0
  /-- Whether the replay is a suspect's, alone on its Bay (18 R505). -/
  suspect : Bool := false
  /-- The hang in which it was ended as a suspect (18 R505). -/
  hang : Option Hang := none
  /-- Secondary causes: status, requester, detail (05 R150). -/
  secondary : List (Nat × Nat × Nat) := []
  /-- Body of its TILE fault record (13 R375): causes word, TAG, mcause, mtval, pc, address. -/
  fault : Option (Nat × Nat × Nat × Nat × Nat × Nat) := none
  /-- Requester number in that record (13 R374); 0x3FF none. -/
  requester : Nat := 0x3FF
  /-- SEQ of a TRANSLATION record already written for it (13 R374). -/
  faultSeq : Nat := 0
  deriving DecidableEq, Repr

/-- A TILE_DONE on its way to the Registrar (14 R407). -/
structure DoneMsg where
  /-- The tile. -/
  tile : Nat
  /-- Status. -/
  status : Nat
  /-- PARKED. -/
  parked : Bool
  /-- ABANDONED. -/
  abandoned : Bool
  /-- Accumulators saved. -/
  saved : Bool
  /-- Parked tag count. -/
  tags : Nat
  /-- Bay-nanoseconds. -/
  bayNs : Nat
  /-- Whether the Bay runtime asks for a replay from the checkpoint (03 R63, R90, R92). -/
  replay : Bool := false
  deriving DecidableEq, Repr

/-- A tile whose outstanding fabric tags the Registrar keeps (14 R413). -/
structure ParkedTile where
  /-- The tile as it left its Bay. -/
  tile : Tile := {}
  /-- Tags not yet done. -/
  open_ : NSet := []
  /-- First status other than OK that a response carried. -/
  status : Nat := 0
  /-- Whether a partition reset has discarded one of its answers (18 R508); false. -/
  lost : Bool := false
  deriving DecidableEq, Repr

/-- A fault record that holders wait on under RETRY (09 R261). -/
structure FaultRec where
  /-- SEQ of the record. -/
  seq : Nat := 0
  /-- Virtual address of the page. -/
  va : Nat := 0
  /-- Holders: requester number + 1024 × mover port or Shelver queue. -/
  waiters : NSet := []
  /-- Access asked for (09 R259). -/
  access : Nat := 0
  /-- Status the record gave. -/
  status : Nat := 0
  /-- Datestamp of posting. -/
  posted : Nat := 0
  deriving DecidableEq, Repr

/-- The Ledger ring of a partition (14 R419, R420). -/
structure LedgerRing where
  /-- Ring address, once LEDGER_RING has set one (14 R419); none. -/
  addr : Option Nat := none
  /-- Entries (14 R419); 0. -/
  entries : Nat := 0
  /-- Records written to this ring (14 R419); 0. -/
  written : Nat := 0
  /-- Records of this ring returned (14 R419); 0. -/
  acked : Nat := 0
  /-- SEQ of the last record (14 R419); 0. -/
  seq : Nat := 0
  /-- Records held, in order, as 128-byte numbers without PHASE (14 R420); none. -/
  held : List (BitVec 1024) := []
  /-- SEQ of the first record written to the present ring less one (14 R419); 0. -/
  firstSeq : Nat := 0
  deriving DecidableEq, Repr

/-- A mailbox command read and not yet answered (15 R430). -/
structure MbCmd where
  /-- Free-running slot index (15 R430). -/
  index : Nat := 0
  /-- The 256-byte slot (15 R428). -/
  slot : BitVec 2048 := 0#2048
  /-- Arrival stamp of the doorbell that covered it (15 R431). -/
  stamp : Nat := 0
  /-- Datestamp at which the Registrar read it (15 R437). -/
  readAt : Nat := 0
  /-- Datestamp at which it started, once its first effect is committed (15 R432). -/
  started : Option Nat := none
  /-- Handle or number that a long command keeps for its later part. -/
  arg : Nat := 0
  /-- Response kept back until its fixed instant in isolated mode (17 R490): STATUS, DETAIL, RESULT0 to RESULT3. -/
  answer : Option (List Nat) := none
  deriving DecidableEq, Repr

/-- An Otfold function's registers and mailbox (15 R423 to R430, R438). -/
structure Fn where
  /-- FN_STATUS (15 R423); reset 0. -/
  status : Word := 0#32
  /-- MB_BASE (15 R423); reset 0. -/
  mbBase : DWord := 0#64
  /-- MB_CTRL (15 R423); reset 0x40. -/
  mbCtrl : Word := 0x40#32
  /-- MB_DB, the write index, 16 bits (15 R430); reset 0. -/
  mbWr : Nat := 0
  /-- Arrival stamp of the last MB_DB (15 R431); reset 0. -/
  mbStamp : Nat := 0
  /-- MB_RD commands read, 16 bits (15 R423); reset 0. -/
  mbRd : Nat := 0
  /-- MB_RD responses written, 16 bits (15 R423); reset 0. -/
  mbResp : Nat := 0
  /-- Commands in progress, MB_ACTIVE (15 R423, R430); reset none. -/
  active : List MbCmd := []
  /-- EV_BASE (15 R423); reset 0. -/
  evBase : DWord := 0#64
  /-- EV_CTRL (15 R423); reset 0x40. -/
  evCtrl : Word := 0x40#32
  /-- EV_WR (15 R423); reset 0. -/
  evWr : Word := 0#32
  /-- EV_RD (15 R423); reset 0. -/
  evRd : Word := 0#32
  /-- IRQ_MASK, 64 bits (15 R423); reset all ones. -/
  mask : DWord := 0xFFFFFFFFFFFFFFFF#64
  /-- IRQ_PEND, 64 bits (15 R423); reset 0. -/
  pend : DWord := 0#64
  /-- HEARTBEAT (15 R423); reset 0. -/
  heartbeat : Word := 0#32
  /-- Datestamp of the last HEARTBEAT advance (15 R423); reset 0. -/
  beatAt : Nat := 0
  /-- Event SEQ of the function (15 R438); reset 0. -/
  evSeq : Nat := 0
  /-- Events dropped and not yet reported (15 R438); reset 0. -/
  evDropped : Nat := 0
  deriving DecidableEq, Repr

/-- What each partition holds beside its objects (13 R388, 14 R402, R410, R419, 10 R298, R301). -/
structure Part where
  /-- TIMESLICE in ms (14 R402); reset 20. -/
  timeslice : Nat := 20
  /-- PREEMPT_GRACE in µs (14 R410); reset 100. -/
  grace : Nat := 100
  /-- Fence table address and log2 of records (13 R388); none. -/
  fenceTable : Option (Nat × Nat) := none
  /-- Ledger ring (14 R419). -/
  ledger : LedgerRing := {}
  /-- Whether the partition is being released (10 R298); false. -/
  releasing : Bool := false
  /-- Whether the partition is quiesced (10 R301); false. -/
  quiesced : Bool := false
  /-- Whether a partition reset holds its queues (18 R508); false. -/
  resetting : Bool := false
  /-- Whether the partition reset has come to its FLUSH_PART (18 R508); false. -/
  flushing : Bool := false
  deriving DecidableEq, Repr

/-- A status, the flags and the two results a command completes with (13 R386). -/
structure Result where
  status : Nat := 0
  exc : Nat := 0
  r0 : Nat := 0
  r1 : Nat := 0
  deriving DecidableEq, Repr

/-- The work the Registrar keeps: objects, commands, jobs, tiles (chapters 13 and 14). -/
structure Work where
  /-- Contexts, by partition × 4096 + index (13 R368); none. -/
  ctxs : Tbl Ctx := []
  /-- Generations of free context indices, 1 where not listed (13 R369). -/
  ctxGens : Tbl Nat := []
  /-- Queues, by queue number (13 R368); none. -/
  queues : Tbl Queue := []
  /-- Generations of free queue numbers, 1 where not listed (13 R369). -/
  queueGens : Tbl Nat := []
  /-- Memory objects, by partition × 65536 + index (13 R368); none. -/
  objs : Tbl MemObj := []
  /-- Generations of free object indices, 1 where not listed (13 R369). -/
  objGens : Tbl Nat := []
  /-- Fences, by partition × 2^24 + index (13 R368); none. -/
  fences : Tbl Fence := []
  /-- Generations of free fence indices, 1 where not listed (13 R369). -/
  fenceGens : Tbl Nat := []
  /-- Fence waits registered (15 R438); none. -/
  waits : List FenceWait := []
  /-- Commands in flight, by acceptance number (13 R368); none. -/
  cmds : Tbl Cmd := []
  /-- Next acceptance number (13 R387); 1. -/
  nextCmd : Nat := 1
  /-- Next release number (13 R382); 1. -/
  nextRel : Nat := 1
  /-- Open jobs, by job number (13 R387); none. -/
  jobs : Tbl Job := []
  /-- Next job number; 1. -/
  nextJob : Nat := 1
  /-- Tiles placed, by tile number (14 R403); none. -/
  tiles : Tbl Tile := []
  /-- Next tile number; 1. -/
  nextTile : Nat := 1
  /-- TILE_DONE messages on their way (14 R407); none. -/
  done : List DoneMsg := []
  /-- Parked tiles, by tile number (14 R413); none. -/
  parked : Tbl ParkedTile := []
  /-- Context served last on each Volume handle (14 R400); none. -/
  lastServed : Tbl Nat := []
  /-- Datestamp since which each context holds Bays of a Volume while another waits, by handle × 2^16 + context (14 R402); none. -/
  heldSince : Tbl Nat := []
  /-- Such time already counted, in ns, by handle × 2^16 + context (14 R402); 0. -/
  heldFor : Tbl Nat := []
  /-- Fault records outstanding under RETRY, by context × 65536 + SEQ (09 R261); none. -/
  faultRecs : Tbl FaultRec := []
  /-- Counters of no context: the part's totals (14 R421); 0. -/
  partCounts : Counters := {}
  /-- The IDLE account's energy in nanojoules (14 R421, 12 R365); 0. -/
  idleNj : Nat := 0
  /-- The Ledger counters as last written to reserved stack memory (14 R421): job counters by job. -/
  ledgerSaved : Tbl Counters := []
  /-- Likewise the contexts' counters, the part's totals and the IDLE account's energy in nanojoules (14 R421). -/
  ledgerCtxs : Tbl Counters := []
  ledgerPart : Counters := {}
  ledgerIdle : Nat := 0
  deriving DecidableEq, Repr

/-- The Colophon's own changing fields (13 R398). -/
structure Colophon where
  /-- GENERATION (13 R398); reset 0 (assumption 1). -/
  generation : Nat := 0
  /-- UPDATED, the Datestamp of the last change (13 R398); reset 0 (assumption 1). -/
  updated : Nat := 0
  deriving DecidableEq, Repr

/-- Corrected events of one source, on one function, waiting for the second to end (18 R516). -/
structure CorrSource where
  /-- End of the interval in which one ERROR has been posted. -/
  until_ : Nat := 0
  /-- Events since the last ERROR. -/
  count : Nat := 0
  /-- The record's words: BLOCK, INSTANCE, CAUSE, REG_OFFSET, EVT_SEQ, status value. -/
  info : List Nat := []
  deriving DecidableEq, Repr

end Sys2Proof.Machine
end

