-- ==== Sys2Proof/Machine/State.lean ====
section
/-! DEFINITION. The state of the part, the reasons a step can stop, and the state after reset. -/

namespace Sys2Proof.Machine

/-- The reasons a step can stop with a fault. There is none: where the spec describes an error it describes what the part
does, and that is a next state. -/
inductive Fault where
  deriving DecidableEq, Repr

/-- The reasons a step can refuse a command. -/
inductive Refusal where
  /-- Raised by exec's arm of a command that has no meaning yet; safe. -/
  | notModelled (mnemonic : String)
  deriving DecidableEq, Repr

/-- The state of the part. -/
structure State where
  /-- Commands that wait, first in, first out; the model's own; empty. -/
  pending : List Instr := []
  /-- Counter of the free values used so far; the model's own (assumption 3); 0. -/
  free : Nat := 0
  /-- Datestamp (12 R333); reset 0. -/
  now : Nat := 0
  /-- Partition mode: 0 before the first PART_MODE, then 1, 2, 4 or 8 (01 R16, 10 R274); reset 0. -/
  mode : Nat := 0
  /-- Bays by logical number, as after reset where not listed (03). -/
  bays : Tbl Bay := []
  /-- On-die networks (03). -/
  nets : Nets := {}
  /-- FAULT_REPORTs on their way (03 R90, 05 R149); none. -/
  reports : List Report := []
  /-- Stack controllers by stack, as after reset where not listed (06). -/
  hbm : Tbl Stack := []
  /-- Memory (06, 08). -/
  mem : Memory := {}
  /-- Shelvers by number, as after reset where not listed (07). -/
  shelvers : Tbl Shelver := []
  /-- The Catalogue (09). -/
  cat : Cat := {}
  /-- The fabric (11). -/
  fab : Fab := {}
  /-- Router of each logical Bay's site (01 R9, R11, 13 R399); per part: the first 32 of the 36 sites, row by row (assumption 21). -/
  sites : List Nat := [1, 2, 3, 4, 5, 6, 9, 10, 11, 12, 13, 14, 17, 18, 19, 20, 21, 22, 25, 26, 27, 28, 29, 30, 33, 34, 35, 36, 37, 38, 41, 42]
  /-- Volumes and Concordance rounds (10). -/
  vols : Vols := {}
  /-- The security block (17). -/
  sec : Sec := {}
  /-- The board controller's port (19). -/
  smb : Smb := {}
  /-- Objects, commands, jobs and tiles (13, 14). -/
  work : Work := {}
  /-- Otfold functions, as after reset where not listed (15). -/
  fns : Tbl Fn := []
  /-- Partitions (13 R388, 14). -/
  parts : Tbl Part := []
  /-- Colophon (13 R398). -/
  colophon : Colophon := {}
  /-- Corrected events by source, waiting for the second to end (18 R516); none. -/
  corr : Tbl CorrSource := []
  /-- Otfold ports and companion-memory requests (16). -/
  ot : Ot := {}
  /-- Time and power (12). -/
  pwr : Pwr := {}
  /-- The register interface (00). -/
  regs : Regs := {}
  /-- Reset sequencer, pins and boot (18, 19). -/
  seq : Seq := {}
  deriving DecidableEq, Repr

/-- The part right after power-on reset: every field at its reset value. -/
def State.reset : State := {}

end Sys2Proof.Machine
end

