-- ==== Sys2Proof/Machine/Ops.lean ====
section
/-! DEFINITION. The named operations that every command is written over: reading and rewriting parts of the state, companion-memory writes, interrupts, events and error reports, fault records, fences, completions and the Ledger (13_work_objects.md, 14_scheduling.md, 15_registrar.md, 16_otfold_link.md, 18_reset_recovery.md). -/

namespace Sys2Proof.Machine

/-- The outcome of every command of this block. -/
abbrev Out := Host.Outcome State Fault Refusal

/-- 1 µs and 1 ms of Datestamp (00). -/
def us : Nat := 1000
def ms : Nat := 1000000

/-- The status codes of 13 R370. -/
inductive Status where
  | ok | staleHandle | translationFault | permission | aborted | timeout | stateLost | isolated
  | poisoned | staleEpoch | denied | guaranteeRefused | anchorOverflow | hung | parityUnrecovered | resourceExhausted
  deriving DecidableEq, Repr

/-- A status's code (13 R370). -/
def Status.code : Status → Nat
  | .ok => 0 | .staleHandle => 1 | .translationFault => 2 | .permission => 3 | .aborted => 4 | .timeout => 5
  | .stateLost => 6 | .isolated => 7 | .poisoned => 8 | .staleEpoch => 9 | .denied => 10 | .guaranteeRefused => 11
  | .anchorOverflow => 12 | .hung => 13 | .parityUnrecovered => 14 | .resourceExhausted => 15

/-- The statuses that fault a context (13 R370). -/
def faultsContext (st : Nat) : Bool := st == 2 || st == 3 || st == 10 || st == 13 || st == 14

namespace State

def bay (s : State) (b : Nat) : Bay := Tbl.getD s.bays b {}
def setBay (s : State) (b : Nat) (x : Bay) : State := { s with bays := Tbl.put s.bays b x }
def modBay (s : State) (b : Nat) (f : Bay → Bay) : State := s.setBay b (f (s.bay b))
def stack (s : State) (k : Nat) : Stack := Tbl.getD s.hbm k {}
def setStack (s : State) (k : Nat) (x : Stack) : State := { s with hbm := Tbl.put s.hbm k x }
def modStack (s : State) (k : Nat) (f : Stack → Stack) : State := s.setStack k (f (s.stack k))
def fn (s : State) (n : Nat) : Fn := Tbl.getD s.fns n {}
def setFn (s : State) (n : Nat) (x : Fn) : State := { s with fns := Tbl.put s.fns n x }
def modFn (s : State) (n : Nat) (f : Fn → Fn) : State := s.setFn n (f (s.fn n))
def part (s : State) (p : Nat) : Part := Tbl.getD s.parts p {}
def setPart (s : State) (p : Nat) (x : Part) : State := { s with parts := Tbl.put s.parts p x }
def modPart (s : State) (p : Nat) (f : Part → Part) : State := s.setPart p (f (s.part p))
def modWork (s : State) (f : Work → Work) : State := { s with work := f s.work }
def modMem (s : State) (f : Memory → Memory) : State := { s with mem := f s.mem }
def modSeq (s : State) (f : Seq → Seq) : State := { s with seq := f s.seq }
def modOt (s : State) (f : Ot → Ot) : State := { s with ot := f s.ot }
def modNets (s : State) (f : Nets → Nets) : State := { s with nets := f s.nets }
def modPwr (s : State) (f : Pwr → Pwr) : State := { s with pwr := f s.pwr }

/-- A vector or scalar core of a Bay. -/
def core (s : State) (b c : Nat) : Core := (s.bay b).core c
def setCore (s : State) (b c : Nat) (k : Core) : State := s.modBay b (fun x => x.setCore c k)
def modCore (s : State) (b c : Nat) (f : Core → Core) : State := s.setCore b c (f (s.core b c))
/-- A matrix core of a Bay. -/
def mx (s : State) (b c : Nat) : MatrixCore := (s.bay b).mx c
def setMx (s : State) (b c : Nat) (m : MatrixCore) : State := s.modBay b (fun x => x.setMx c m)
def modMx (s : State) (b c : Nat) (f : MatrixCore → MatrixCore) : State := s.setMx b c (f (s.mx b c))
/-- A mover port of a Bay. -/
def mover (s : State) (b p : Nat) : MoverPort := (s.bay b).mover p
def setMover (s : State) (b p : Nat) (m : MoverPort) : State := s.modBay b (fun x => x.setMover p m)
def modMover (s : State) (b p : Nat) (f : MoverPort → MoverPort) : State := s.setMover b p (f (s.mover b p))

/-- Isolated mode (12 R363, 17 R490). -/
def isolated (s : State) : Bool := bitsAt s.pwr.ctrl.toNat 1 1 == 1

/-- The number of partitions, taken as 1 before the first PART_MODE (01 R16, 10 R274). -/
def nparts (s : State) : Nat := max s.mode 1

/-- The partition of a logical Bay, a Shelf, a queue number (01 R17, 13 R368). -/
def partOfBay (s : State) (b : Nat) : Nat := b / (32 / s.nparts)
def partOfShelf (s : State) (shelf : Nat) : Nat := (shelf % 16) / (16 / s.nparts)
def partOfQueue (s : State) (q : Nat) : Nat := q / (65536 / s.nparts)

/-- Whether a function exists in the current mode (01 R16). -/
def fnExists (s : State) (f : Nat) : Bool := f == 0 || decide (f ≤ s.mode)

/-- The free value now due, and the state with the next one due (assumption 3). -/
def fresh (s : State) : Nat × State := (s.free, { s with free := s.free + 1 })

end State

/-- Datestamp brought to an instant that an event marks, never back (12 R343; assumption 4). -/
def reach (s : State) (t : Nat) : State := { s with now := max s.now t }

/-! Resets in progress (18 R494, R507). -/

/-- Reset levels: 1 core, 2 Bay, 3 partition, 4 warm reset (18 R522), 5 Shelver, 6 Registrar restart, 7 Registrar pair. -/
def beginReset (s : State) (level inst : Nat) : State :=
  s.modSeq (fun q => { q with
    running := q.running.filter (fun r => !(r.1 == level && r.2.1 == inst)) ++ [(level, inst, s.now)]
    ladder := if level ≤ 4 then some (level, inst, s.now) else q.ladder })

/-- A reset that reports completion; LADDER shows the latest that still runs. -/
def endReset (s : State) (level inst : Nat) : State :=
  s.modSeq (fun q =>
    let left := q.running.filter (fun r => !(r.1 == level && r.2.1 == inst))
    { q with running := left, ladder := (left.filter (fun r => decide (r.1 ≤ 4))).getLast? })

/-- Whether a reset runs. -/
def resetRuns (s : State) (level inst : Nat) : Bool := s.seq.running.any (fun r => r.1 == level && r.2.1 == inst)

/-! Companion-memory requests and interrupts (16 R454 to R458, 15 R427). -/

/-- Whether an Otfold port is UP and serves a function (16 R448). -/
def otServes (s : State) (p f : Nat) : Bool :=
  (s.ot.port p).link.state == 4 && bitsAt (s.ot.port p).ctrl.toNat (2 + f) 1 == 1

/-- The lowest-numbered port that is UP and serves a function (16 R456). -/
def otPortFor (s : State) (f : Nat) : Option Nat :=
  if otServes s 0 f then some 0 else if otServes s 1 f then some 1 else none

/-- OT_DEADLINE of a port, in ns (16 R463). -/
def otDeadline (s : State) (p : Nat) : Nat := max 1 ((s.ot.port p).deadline.toNat % 65536) * us

/-- A write cut at 128-byte lines (16 R446). -/
def cmPieces (addr : Nat) (bs : List Byte) : List (Nat × List Byte) :=
  let first := 128 - addr % 128
  let rest := chunks 128 (bs.drop first)
  ((addr, bs.take first) :: (rest.zipIdx).map (fun c => (addr + first + 128 * c.2, c.1))).filter (fun c => !c.2.isEmpty)

/-- One CM request issued (16 R454). -/
def cmIssue (s : State) (f addr : Nat) (bs : List Byte) (read : Nat) (u : CmUse) : State :=
  let p := otPortFor s f
  let r : CmReq := { tag := s.ot.nextTag, fn := f, addr, data := bs, read, use := u,
                     deadline := s.now + otDeadline s (p.getD 0), sent := p.isSome, port := p.getD 0 }
  s.modOt (fun o => { o with cm := o.cm ++ [r], nextTag := o.nextTag + 1 })

/-- Bytes written to companion memory for a function (16 R454). -/
def cmWrite (s : State) (f addr : Nat) (bs : List Byte) (u : CmUse := .record) : State :=
  (cmPieces addr bs).foldl (fun s c => cmIssue s f c.1 c.2 0 u) s

/-- A record of `n` bytes: every word but the first, then the first (13 R374, R386, 15 R429, R438). -/
def cmRecord (s : State) (f addr n rc : Nat) (u : CmUse := .record) : State :=
  let bs := bytesLE n rc
  cmWrite (cmWrite s f (addr + 4) (bs.drop 4) u) f addr (bs.take 4) u

/-- Whether an INTR of a function may be sent: a port that serves it is UP, and every CM_WR issued before it has been acknowledged (16 R456, R458). -/
def intrReady (s : State) (w : Nat × Nat × Nat) : Bool :=
  (otPortFor s w.1).isSome && !s.ot.cm.any (fun r => r.fn == w.1 && r.read == 0 && decide (r.tag < w.2.2))

/-- Every INTR message that may be sent, sent in order (16 R456, R458). -/
def settleIntr (s : State) : State :=
  let due := s.ot.intrWait.filter (intrReady s)
  s.modOt (fun o => { o with intrWait := o.intrWait.filter (fun w => !intrReady s w), out := o.out ++ due.map (fun w => .intr w.1 w.2.1) })

/-- An INTR message, sent once the earlier CM_WRs of its function have been acknowledged (16 R456, R458). -/
def sendIntr (s : State) (f v : Nat) : State := settleIntr (s.modOt (fun o => { o with intrWait := o.intrWait ++ [(f, v, o.nextTag)] }))

/-- A vector raised (15 R427). -/
def raiseVector (s : State) (f v : Nat) : State :=
  let x := s.fn f
  if bitsAt x.mask.toNat v 1 == 0 then sendIntr s f v
  else s.setFn f { x with pend := x.pend ||| BitVec.ofNat 64 (2 ^ v) }

/-! Events (15 R438). -/

/-- Entries of a function's event ring. -/
def evEntries (x : Fn) : Nat := 2 ^ bitsAt x.evCtrl.toNat 4 4

/-- Whether the ring can take an entry; while ENABLE is clear it takes none (15 R438; assumption 5). -/
def evRoom (x : Fn) : Bool := bitsAt x.evCtrl.toNat 0 1 == 1 && decide ((x.evWr - x.evRd).toNat < evEntries x)

/-- An entry written and vector 1 raised; `body` holds bytes 0x10 to 0x7F at their places. -/
def evWrite (s : State) (f type status sev body : Nat) : State :=
  let x := s.fn f
  let n := evEntries x
  let phase := 1 - (x.evWr.toNat / n) % 2
  let rc := type % 65536 + put status 16 8 + put sev 24 3 + put phase 31 1 + put x.evSeq 32 32 + put s.now 64 64 + body
  let s := cmRecord s f (x.evBase.toNat + (x.evWr.toNat % n) * 128) 128 rc .event
  raiseVector (s.setFn f { x with evWr := x.evWr + 1, evSeq := x.evSeq + 1 }) f 1

/-- An event posted on a function, or dropped and counted where the ring is full (15 R438). -/
def postEvent (s : State) (f type status sev body : Nat) : State :=
  if !s.fnExists f then s
  else if evRoom (s.fn f) && (s.fn f).evDropped == 0 then evWrite s f type status sev body
  else s.modFn f (fun x => { x with evDropped := x.evDropped + 1 })

/-- Space has returned: one EVENTS_LOST with the count, and EV_LOST (15 R438). -/
def eventsReturn (s : State) (f : Nat) : State :=
  let x := s.fn f
  if x.evDropped == 0 || !evRoom x then s
  else
    let s := evWrite s f 14 0 0 (put x.evDropped 128 32)
    s.modFn f (fun x => { x with evDropped := 0, status := statusFlag x.status 17 })

/-! Error reports (18 R514 to R516). -/

/-- What an ERROR event says (18 R515). -/
structure Err where
  block : Nat
  inst : Nat
  cause : Nat
  /-- 0 Corrected to 4 Device-fatal (18 R514). -/
  sev : Nat
  /-- Partitions concerned, one bit each. -/
  parts : Nat := 0
  fm : Bool := false
  action : Nat := 0
  ctx : Nat := 0
  off : Nat := 0
  addr : Option Nat := none
  count : Nat := 1
  seq : Nat := 0
  reg : Nat := 0
  deriving DecidableEq, Repr

/-- The record of an ERROR event, at bytes 0x10 to 0x7F (18 R515). -/
def errBody (e : Err) : Nat :=
  let at_ := fun (off v w : Nat) => put v (8 * off) w
  at_ 0x10 e.block 8 + at_ 0x11 e.inst 8 + at_ 0x12 e.cause 8 + at_ 0x14 e.parts 8 + put (bit e.fm) (8 * 0x14 + 8) 1
    + put e.action (8 * 0x14 + 9) 3 + at_ 0x18 e.ctx 32 + at_ 0x1C e.off 32
    + at_ 0x20 (e.addr.getD (2 ^ 64 - 1)) 64 + at_ 0x28 e.count 32 + at_ 0x2C e.seq 16 + at_ 0x30 e.reg 32

/-- The partitions of a bit mask that exist. -/
def partsOf (s : State) (mask : Nat) : List Nat := (List.range s.mode).filter (fun p => bitsAt mask p 1 == 1)

/-- The partition whose Shelf holds a direct address (01 R17, 06 R169). -/
def partOfAddr (s : State) (pa : Nat) : Nat := s.partOfShelf (pa / 2 ^ 33)

/-- ERROR posted now, on function 0 and, from Contained upward, on the functions of the partitions concerned; a partition sees only its
own resources, and in isolated mode DEVICE_EVENT (18 R514, R515, 06 R169, 17 R490). -/
def postErrorNow (s : State) (e : Err) : State :=
  let e := if e.sev == 4 then { e with parts := 2 ^ s.mode - 1 } else e
  let s := if e.sev == 4 then s.modSeq (fun q => { q with fatalPosted := true }) else s
  let s := postEvent s 0 1 0 e.sev (errBody e)
  if e.sev ≤ 1 then s else
  (partsOf s e.parts).foldl (fun s p =>
    if s.isolated && e.sev ≥ 3 then postEvent s (p + 1) 13 0 e.sev 0
    else
      let own := match e.addr with
        | some a => decide (partOfAddr s a = p) && s.mode != 0
        | none => false
      postEvent s (p + 1) 1 0 e.sev (errBody { e with parts := 2 ^ p, addr := if own then e.addr else none })) s

/-- An event reported by its severity: Corrected events of one source at most once a second (18 R516). -/
def postError (s : State) (e : Err) : State :=
  if e.sev != 0 then postErrorNow s e
  else
    let key := e.block * 256 + e.inst
    let info := [e.block, e.inst, e.cause, e.off, e.seq, e.reg]
    match Tbl.find s.corr key with
    | some c =>
      if s.now < c.until_ then { s with corr := Tbl.put s.corr key { c with count := c.count + 1, info } }
      else postErrorNow { s with corr := Tbl.put s.corr key { until_ := s.now + 1000 * ms, count := 0, info } } { e with count := c.count + 1 }
    | none => postErrorNow { s with corr := Tbl.put s.corr key { until_ := s.now + 1000 * ms, count := 0, info } } e

/-- A Corrected event told to a partition, at most once a second (09 R272, 18 R516). -/
def postCorrectedTo (s : State) (f : Nat) (e : Err) : State :=
  let key := f * 65536 + e.block * 256 + e.inst
  let info := [e.block, e.inst, e.cause, e.off, e.seq, e.reg]
  match Tbl.find s.corr key with
  | some c =>
    if s.now < c.until_ then { s with corr := Tbl.put s.corr key { c with count := c.count + 1, info } }
    else postEvent { s with corr := Tbl.put s.corr key { until_ := s.now + 1000 * ms, count := 0, info } } f 1 0 0 (errBody { e with count := c.count + 1 })
  | none => postEvent { s with corr := Tbl.put s.corr key { until_ := s.now + 1000 * ms, count := 0, info } } f 1 0 0 (errBody e)

/-! Handles (13 R369). -/

/-- The handle of a context, queue, memory object or fence by its key. -/
def ctxHandle (key : Nat) (c : Ctx) : Nat := key % 4096 + put (key / 4096) 12 3 + put c.gen 16 16
def queueHandle (q : Nat) (x : Queue) : Nat := q + put x.gen 16 16
def objHandle (key : Nat) (o : MemObj) : Nat := key % 65536 + put o.gen 16 16
def fenceHandle (key : Nat) (f : Fence) : Nat := key % 2 ^ 24 + put f.gen 24 8

/-- The next generation: one more, skipping 0 (13 R369). -/
def nextGen (g w : Nat) : Nat := if (g + 1) % 2 ^ w == 0 then 1 else (g + 1) % 2 ^ w

/-- A context handle looked up within a partition: its key and the context. -/
def findCtx (s : State) (p h : Nat) : Option (Nat × Ctx) :=
  let key := p * 4096 + h % 4096
  match Tbl.find s.work.ctxs key with
  | some c => if ctxHandle key c == h % 2 ^ 32 then some (key, c) else none
  | none => none

def findQueue (s : State) (p h : Nat) : Option (Nat × Queue) :=
  let q := h % 65536
  match Tbl.find s.work.queues q with
  | some x => if queueHandle q x == h % 2 ^ 32 && s.partOfQueue q == p then some (q, x) else none
  | none => none

def findObj (s : State) (p h : Nat) : Option (Nat × MemObj) :=
  let key := p * 65536 + h % 65536
  match Tbl.find s.work.objs key with
  | some o => if objHandle key o == h % 2 ^ 32 then some (key, o) else none
  | none => none

/-- A fence named by a handle; a freed fence is named by none (13 R391). -/
def findFence (s : State) (p h : Nat) : Option (Nat × Fence) :=
  let key := p * 2 ^ 24 + h % 2 ^ 24
  match Tbl.find s.work.fences key with
  | some f => if fenceHandle key f == h % 2 ^ 32 && !f.freed then some (key, f) else none
  | none => none

/-- A fence named by an accepted command keeps its reference after FENCE_FREE (13 R391). -/
def findFenceRef (s : State) (p h : Nat) : Option (Nat × Fence) :=
  let key := p * 2 ^ 24 + h % 2 ^ 24
  match Tbl.find s.work.fences key with
  | some f => if fenceHandle key f == h % 2 ^ 32 then some (key, f) else none
  | none => none

/-- The partition of a context key. -/
def ctxPart (key : Nat) : Nat := key / 4096

def setCtx (s : State) (key : Nat) (c : Ctx) : State := s.modWork (fun w => { w with ctxs := Tbl.put w.ctxs key c })
def modCtx (s : State) (key : Nat) (f : Ctx → Ctx) : State := s.modWork (fun w => { w with ctxs := Tbl.upd w.ctxs key f })
def setCmd (s : State) (id : Nat) (c : Cmd) : State := s.modWork (fun w => { w with cmds := Tbl.put w.cmds id c })
def modCmd (s : State) (id : Nat) (f : Cmd → Cmd) : State := s.modWork (fun w => { w with cmds := Tbl.upd w.cmds id f })
def modTile (s : State) (id : Nat) (f : Tile → Tile) : State := s.modWork (fun w => { w with tiles := Tbl.upd w.tiles id f })
def modQueue (s : State) (q : Nat) (f : Queue → Queue) : State := s.modWork (fun w => { w with queues := Tbl.upd w.queues q f })
def modObj (s : State) (k : Nat) (f : MemObj → MemObj) : State := s.modWork (fun w => { w with objs := Tbl.upd w.objs k f })

/-! A queue command's header and body (13 R377, R379). -/
namespace Cmd
def opcode (c : Cmd) : Nat := fld c.word 0 0 8
def irq (c : Cmd) : Bool := flag c.word 0 8
def barrier (c : Cmd) : Bool := flag c.word 0 9
def jobEnd (c : Cmd) : Bool := flag c.word 0 10
def call (c : Cmd) : Nat := fld c.word 0 16 16
def userTag (c : Cmd) : Nat := fld c.word 4 0 32
def waitFence (c : Cmd) : Nat := fld c.word 8 0 32
def signalFence (c : Cmd) : Nat := fld c.word 0xC 0 32
def waitValue (c : Cmd) : Nat := fld c.word 0x10 0 64
def signalValue (c : Cmd) : Nat := fld c.word 0x18 0 64
/-- OBJ0 to OBJ3, 0 left out. -/
def objs (c : Cmd) : List Nat := ([0x20, 0x24, 0x28, 0x2C].map (fun o => fld c.word o 0 32)).filter (· != 0)
def volume (c : Cmd) : Nat := fld c.word 0x30 0 32
def image (c : Cmd) : Nat := fld c.word 0x34 0 32
def tileCount (c : Cmd) : Nat := fld c.word 0x38 0 32
def gang (c : Cmd) : Bool := flag c.word 0x3C 0
/-- Every memory object the command refers to (13 R393). -/
def refs (c : Cmd) : List Nat := c.objs ++ (if c.opcode == 1 && c.image != 0 then [c.image] else [])
/-- The fences it names. -/
def fences (c : Cmd) : List Nat := [c.waitFence, c.signalFence].filter (· != 0)
end Cmd

/-! Fault records (13 R374, R375). -/

/-- The words of a fault record that its caller gives. -/
structure FaultInfo where
  kind : Nat
  status : Nat
  sev : Nat := 2
  call : Nat := 0
  queue : Nat := 0
  index : Nat := 0
  tag : Nat := 0
  requester : Nat := 0x3FF
  tile : Nat := 0xFFFFFFFF
  secondary : List (Nat × Nat × Nat) := []
  /-- Bytes 0x40 to 0x7F, as a number from byte 0x40. -/
  body : Nat := 0

/-- The next SEQ, skipping 0 (13 R374). -/
def nextSeq16 (n : Nat) : Nat := if n ≥ 65535 then 1 else n + 1

/-- A fault record counted for a context, and written where a slot is free; its SEQ, or 0 where none was written. -/
def writeFault (s : State) (key : Nat) (i : FaultInfo) : State × Nat :=
  match Tbl.find s.work.ctxs key with
  | none => (s, 0)
  | some c =>
    if c.state == .destroying then (s, 0) else
    let seq := nextSeq16 c.seq
    if c.unacked.length ≥ c.faultEntries then
      (setCtx s key { c with seq, dropped := c.dropped + 1 }, 0)
    else
      let sec := (i.secondary.zipIdx).foldl (fun acc p =>
        acc + put (p.1.1 % 256 + put p.1.2.1 8 10 + put p.1.2.2 32 32) (8 * (0x20 + 8 * p.2)) 64) 0
      let rc := seq + put i.kind 16 8 + put i.status 24 8
        + put (i.sev + put (bit (c.dropped != 0)) 3 1 + put (min c.dropped 4095) 4 12 + put i.call 16 16) 32 32
        + put (i.queue + put i.index 16 16) 64 32 + put i.tag 96 32 + put s.now 128 64
        + put (i.requester % 1024 + put (min i.secondary.length 4) 10 3) 192 32 + put i.tile 224 32 + sec + put i.body 512 512
      let f := ctxPart key + 1
      let s := setCtx s key { c with seq, dropped := 0, unacked := c.unacked ++ [seq] }
      let s := cmRecord s f (c.faultRing + (seq % c.faultEntries) * 128) 128 rc
      (postEvent s f 8 i.status i.sev (put (ctxHandle key c) 128 32 + put seq 160 16), seq)

/-- A context enters FAULTED from RUNNABLE (13 R372). -/
def faultCtx (s : State) (key : Nat) : State :=
  modCtx s key (fun c => if c.state == .runnable then { c with state := .faulted } else c)

/-! Memory objects and references (13 R393, R394). -/

/-- Whether an accepted command refers to an object. -/
def objReferenced (s : State) (key : Nat) (o : MemObj) : Bool :=
  s.work.cmds.any (fun c => ctxPart c.2.ctx == key / 65536 && c.2.refs.contains (objHandle key o))

/-- An object's state after its holds or references have changed: RETIRING, then QUARANTINED with its event (13 R394). -/
def settleObj (s : State) (key : Nat) : State :=
  match Tbl.find s.work.objs key with
  | none => s
  | some o =>
    if o.state == .quarantined || !o.holds.isEmpty || o.image.isSome then s
    else if objReferenced s key o then modObj s key (fun o => { o with state := .retiring })
    else postEvent (modObj s key (fun o => { o with state := .quarantined })) (key / 65536 + 1) 3 0 0
      (put (objHandle key o) 128 32)

/-- Every object of a list of handles settled. -/
def settleObjs (s : State) (p : Nat) (hs : List Nat) : State :=
  hs.foldl (fun s h => settleObj s (p * 65536 + h % 65536)) s

/-! Fences (13 R388 to R391, 15 R438). -/

/-- The copy of a fence in the fence table: bytes 0x08 to 0x0F, then VALUE (13 R388). -/
def writeFence (s : State) (key : Nat) (f : Fence) : State :=
  match (s.part (key / 2 ^ 24)).fenceTable with
  | none => s
  | some (a, _) =>
    let at_ := a + 16 * (key % 2 ^ 24)
    let fnn := key / 2 ^ 24 + 1
    cmWrite (cmWrite s fnn (at_ + 8) (bytesLE 8 ((if f.poisoned then 8 else 0) + put f.cause 8 8))) fnn at_ (bytesLE 8 f.value)

/-- A wait that has been answered: FENCE_REACHED and its vector (15 R438). -/
def reachWait (s : State) (w : FenceWait) (value state : Nat) : State :=
  raiseVector (postEvent s w.fn 9 0 0 (put w.handle 128 32 + put value 192 64 + put state 256 8)) w.fn w.vector

/-- The waits on a fence that its present value or poison satisfies (15 R438). -/
def serveWaits (s : State) (key : Nat) (f : Fence) : State :=
  let due := s.work.waits.filter (fun w => w.fence == key && (f.poisoned || decide (w.value ≤ f.value)))
  let s := s.modWork (fun w => { w with waits := w.waits.filter (fun x => !due.contains x) })
  due.foldl (fun s w => reachWait s w f.value (if f.poisoned then 8 else 0)) s

/-- A signal: VALUE never moves back, and a failed signaller poisons (13 R389, R390). -/
def signalFenceKey (s : State) (key value : Nat) (poison : Option Nat) : State :=
  match Tbl.find s.work.fences key with
  | none => s
  | some f =>
    let f := { f with value := max f.value value }
    let f := match poison with
      | some c => { f with poisoned := true, cause := if f.cause == 0 then c else f.cause }
      | none => f
    let s := s.modWork (fun w => { w with fences := Tbl.put w.fences key f })
    serveWaits (writeFence s key f) key f

/-- Whether an accepted command names a fence. -/
def fenceReferenced (s : State) (key : Nat) (f : Fence) : Bool :=
  s.work.cmds.any (fun c => ctxPart c.2.ctx == key / 2 ^ 24 && c.2.fences.contains (fenceHandle key f))

/-- Every wait on a fence ended, with STATE 0x08: the fence was freed before it reached their values (15 R438). -/
def endWaits (s : State) (key value : Nat) : State :=
  let due := s.work.waits.filter (fun w => w.fence == key)
  due.foldl (fun s w => reachWait s w value 8) (s.modWork (fun w => { w with waits := w.waits.filter (fun x => x.fence != key) }))

/-- A retired fence: its waits end, and once no accepted command names it its index is released (13 R391, 15 R438). -/
def settleFence (s : State) (key : Nat) : State :=
  match Tbl.find s.work.fences key with
  | none => s
  | some f =>
    if !f.freed then s
    else
      let s := endWaits s key f.value
      if fenceReferenced s key f then s
      else s.modWork (fun w => { w with fences := Tbl.del w.fences key, fenceGens := Tbl.put w.fenceGens key (nextGen f.gen 8) })

/-! Jobs and the Ledger (13 R387, 14 R417 to R421). -/

/-- Counters added. -/
def Counters.add (a b : Counters) : Counters :=
  { commands := a.commands + b.commands, tiles := a.tiles + b.tiles, bayNs := a.bayNs + b.bayNs, stackRd := a.stackRd + b.stackRd,
    stackWr := a.stackWr + b.stackWr, fabTx := a.fabTx + b.fabTx, fabRx := a.fabRx + b.fabRx, energyNj := a.energyNj + b.energyNj,
    preempts := a.preempts + b.preempts, replays := a.replays + b.replays, exc := a.exc ||| b.exc }

/-- Counts charged to a job, to its context and to the part (14 R417). -/
def charge (s : State) (job key : Nat) (d : Counters) : State :=
  s.modWork (fun w => { w with
    jobs := Tbl.upd w.jobs job (fun j => { j with counts := j.counts.add d })
    ctxs := Tbl.upd w.ctxs key (fun c => { c with counts := c.counts.add d })
    partCounts := w.partCounts.add d })

/-- The energy of a Bay's counts and its static share since it was last charged, by coefficients fused for the part: a free value,
charged to the tile's job and Volume and to MODEL_ENERGY (12 R365, 14 R418; assumption 3). -/
def tileEnergy (s : State) (t : Tile) : State :=
  match Tbl.find s.work.cmds t.cmd with
  | none => s
  | some c =>
    if t.step == 0 then s
    else
      let (n, s) := s.fresh
      let e := (Config.freeWord n).toNat % 2 ^ 40
      let s := charge s c.job c.ctx { energyNj := e }
      let v := s.pwr.vol c.volume
      { s with pwr := ({ s.pwr with modelNj := s.pwr.modelNj + e } : Pwr).setVol c.volume { v with energyNow := v.energyNow + e } }

/-- A Ledger record in the layout of R419, without its PHASE and SEQ. -/
def ledgerRec (kind call status ctx start stop : Nat) (k : Counters) (uj : Nat) (gap : Bool) : Nat :=
  let at_ := fun (off v w : Nat) => put v (8 * off) w
  at_ 0 call 16 + at_ 2 status 8 + put kind 24 4 + at_ 4 ctx 32 + at_ 8 start 64 + at_ 0x10 stop 64
    + at_ 0x18 (min k.commands (2 ^ 32 - 1)) 32 + at_ 0x1C (min k.tiles (2 ^ 32 - 1)) 32 + at_ 0x20 k.bayNs 64 + at_ 0x28 k.stackRd 64
    + at_ 0x30 k.stackWr 64 + at_ 0x38 k.fabTx 64 + at_ 0x40 k.fabRx 64 + at_ 0x48 uj 64 + at_ 0x50 (min k.preempts 65535) 16
    + at_ 0x52 (min k.replays 65535) 16 + at_ 0x54 k.exc 9 + put (bit gap) (8 * 0x54 + 16) 1

/-- The next Ledger SEQ, from 1, skipping 0 on wrap (14 R419). -/
def nextSeq32 (n : Nat) : Nat := if n ≥ 2 ^ 32 - 1 then 1 else n + 1

/-- Held records written while the ring has room, in order (14 R419, R420). -/
def ledgerDrain (s : State) (p : Nat) : Nat → State
  | 0 => s
  | k + 1 =>
    let l := (s.part p).ledger
    match l.addr, l.held with
    | some a, r :: rest =>
      if l.written - l.acked ≥ l.entries then s
      else
        let phase := 1 - (l.written / l.entries) % 2
        let s := cmRecord s (p + 1) (a + (l.written % l.entries) * 128) 128 (r.toNat + put phase 31 1)
        ledgerDrain (s.modPart p (fun x => { x with ledger := { l with held := rest, written := l.written + 1 } })) p k
    | _, _ => s

/-- A record appended to the partition's Ledger: written, or held in order; LEDGER_HELD when the count reaches 256 (14 R419, R420). -/
def ledgerAppend (s : State) (p rc : Nat) : State :=
  let l := (s.part p).ledger
  let seq := nextSeq32 l.seq
  let r := BitVec.ofNat 1024 (rc + put seq (8 * 0x58) 32)
  let s := s.modPart p (fun x => { x with ledger := { l with seq, held := l.held ++ [r] } })
  let s := ledgerDrain s p (l.held.length + 1)
  let n := (s.part p).ledger.held.length
  if n == 256 && l.held.length < 256 then postEvent s (p + 1) 7 0 0 (put n 128 32) else s

/-- A job's record: its energy rounded down to 1 µJ, the remainder kept in the context's account (14 R418, R419). -/
def jobRecord (s : State) (id : Nat) (forced : Option Nat) : State :=
  match Tbl.find s.work.jobs id with
  | none => s
  | some j =>
    match Tbl.find s.work.ctxs j.ctx with
    | none => s.modWork (fun w => { w with jobs := Tbl.del w.jobs id })
    | some c =>
      let e := j.counts.energyNj + c.energyRem
      let st := forced.getD j.status
      let rc := ledgerRec 0 j.call st (ctxHandle j.ctx c) j.start s.now j.counts (e / 1000) j.gap
      let s := setCtx s j.ctx { c with energyRem := e % 1000, firstBad := if c.firstBad == 0 then st else c.firstBad }
      let s := s.modWork (fun w => { w with jobs := Tbl.del w.jobs id })
      ledgerAppend s (ctxPart j.ctx) rc

/-- A job that its JOB_END command has closed ends with the last of its commands (13 R387). -/
def settleJob (s : State) (id : Nat) : State :=
  match Tbl.find s.work.jobs id with
  | none => s
  | some j => if j.closed && !s.work.cmds.any (fun c => c.2.job == id) then jobRecord s id none else s

/-! Completion of a queue command (13 R386, R390, R393). -/

/-- The completion record in the queue's ring, unless its queue or context is being destroyed (13 R386, R395, R396). -/
def writeCompletion (s : State) (c : Cmd) (r : Result) : State :=
  match Tbl.find s.work.queues c.queue, Tbl.find s.work.ctxs c.ctx with
  | some q, some x =>
    if q.destroyAt.isSome || x.state == .destroying then s
    else
      let phase := 1 - (q.written / q.entries) % 2
      let rc := c.call + put r.status 16 8 + put phase 31 1 + put c.userTag 32 32 + put c.queue 64 16 + put c.index 80 16
        + put r.exc 96 9 + put c.faultSeq 112 16 + put r.r0 128 64 + put r.r1 192 64
      let f := ctxPart c.ctx + 1
      let s := cmRecord s f (q.cplRing + (q.written % q.entries) * 32) 32 rc
      let s := modQueue s c.queue (fun q => { q with written := q.written + 1 })
      if c.irq && q.vector != 0xFF then raiseVector s f q.vector else s
  | _, _ => s

/-- The command's SIGNAL_FENCE signalled, with poison where its status is not OK (13 R390). -/
def signalOf (s : State) (c : Cmd) (status : Nat) : State :=
  if c.signalFence == 0 then s
  else signalFenceKey s (ctxPart c.ctx * 2 ^ 24 + c.signalFence % 2 ^ 24) c.signalValue (if status == 0 then none else some status)

/-- A command taken out of flight: its references dropped, its fences and its job settled. -/
def retireCmd (s : State) (id : Nat) (c : Cmd) : State :=
  let p := ctxPart c.ctx
  let s := s.modWork (fun w => { w with cmds := Tbl.del w.cmds id })
  let s := settleObjs s p c.refs
  let s := c.fences.foldl (fun s h => settleFence s (p * 2 ^ 24 + h % 2 ^ 24)) s
  settleJob s c.job

/-- A command completes: record, fence, counters, references, and the context faulted where the status says so. -/
def completeCmd (s : State) (id : Nat) (r : Result) : State :=
  match Tbl.find s.work.cmds id with
  | none => s
  | some c =>
    let s := charge s c.job c.ctx { commands := 1, exc := r.exc }
    let s := s.modWork (fun w => { w with jobs := Tbl.upd w.jobs c.job (fun j => { j with status := if j.status == 0 then r.status else j.status }) })
    let s := writeCompletion s c r
    let s := signalOf s c r.status
    let s := if faultsContext r.status then faultCtx s c.ctx else s
    retireCmd s id c

/-- A command dropped by destruction: no record, its fence poisoned with ABORTED (13 R390, R395). -/
def dropCmd (s : State) (id : Nat) : State :=
  match Tbl.find s.work.cmds id with
  | none => s
  | some c => retireCmd (signalOf s c Status.aborted.code) id c

/-- A fault record for a command, its SEQ kept for the completion (13 R374). -/
def faultForCmd (s : State) (id : Nat) (i : FaultInfo) : State :=
  match Tbl.find s.work.cmds id with
  | none => s
  | some c =>
    let (s, seq) := writeFault s c.ctx { i with call := c.call, queue := c.queue, index := c.index, tag := c.userTag }
    modCmd s id (fun c => { c with faultSeq := seq })

/-- The Colophon changes: GENERATION and UPDATED advance, and COLOPHON_CHANGED is posted (13 R398). -/
def colophonChange (s : State) (parts : Nat) : State :=
  let s := { s with colophon := { generation := (s.colophon.generation + 1) % 2 ^ 32, updated := s.now } }
  let b := put s.colophon.generation 128 32
  (partsOf s parts).foldl (fun s p => postEvent s (p + 1) 4 0 0 b) (postEvent s 0 4 0 0 b)

/-! The board controller's alerts (19 R539). -/

/-- Conditions of ALERTS that hold: THERMAL, CAPPED, CLIP_2S, RESET_FAIL, and a stack in HOT or above (19 R539). -/
def alertsHeld (s : State) : Nat :=
  bit (s.pwr.bays.any (fun b => b.2.thermal != 0) || s.pwr.vols.any (fun v => decide (v.2.throttle < v.2.target))) + put (bit (decide (s.pwr.cap < 1000))) 1 1 + put (bit s.pwr.clip2) 2 1
    + put (bit s.seq.resetFail) 4 1 + put (bit ((List.range 8).any (fun k => decide ((s.stack k).state ≥ 2)))) 5 1

/-- ALERTS bits whose conditions have arisen set (19 R539). -/
def noteAlerts (s : State) : State := { s with smb := { s.smb with alerts := s.smb.alerts ||| alertsHeld s } }

/-! Card network routers (01 R9, 03 R84). -/

/-- The router of stack controller k: column 0, rows 1 to 4 for stacks 0 to 3, column 7 for 4 to 7 (01 R9). -/
def stackRouter (k : Nat) : Nat := (k % 4 + 1) * 8 + (if k < 4 then 0 else 7)
/-- The router of a port group: ports 0 to 5 at row 0 column 0, 6 to 11 at row 5 column 0, 12 to 17 and 18 to 23 at column 7 (01 R9). -/
def groupRouter (g : Nat) : Nat := match g with | 0 => 0 | 1 => 40 | 2 => 7 | _ => 47
/-- The port group of a fabric port. -/
def portGroup (q : Nat) : Nat := q / 6

end Sys2Proof.Machine
end

