-- ==== Sys2Proof/Machine/Discipline.lean ====
section
/-! DEFINITION. The time base: Datestamp's ticks, its sources and its discipline (12_time_and_power.md R333 to R342). -/

namespace Sys2Proof.Machine

/-- CLK_MODE as latched (12 R336, 18 R496, R522). -/
def clkMode (s : State) : Nat := bitsAt s.seq.straps.toNat 2 2

/-- An event of the time unit: its flags, and the Corrected event to function 0 (12 R367). -/
def dsEvent (s : State) (mask v cause : Nat) : State :=
  let r := statusEvent s.pwr.dsStatus mask v
  postError { s with pwr := { s.pwr with dsStatus := r } }
    { block := 13, inst := 0, cause, sev := 0, off := 8, seq := evtSeq r, reg := r.toNat }

/-- One flag of DS_STATUS. -/
def dsFlag (s : State) (b : Nat) : State := dsEvent s (2 ^ b) (2 ^ b) b

/-- STATE changes, with STATE_CHANGE (12 R337, R367). -/
def setDsState (s : State) (st : Nat) : State :=
  if s.pwr.dsState == st then s
  else
    let s := dsEvent s 0x70000 (put st 16 2 + 2 ^ 18) 18
    { s with pwr := { s.pwr with good := 0, holdSince := if st == 3 then some s.now else none } }

/-- Whether a step is permitted: no partition exists (12 R334). -/
def stepAllowed (s : State) : Bool := s.mode == 0

/-- Datestamp stepped to a value, forward only (12 R334). -/
def stepTo (s : State) (t : Nat) : State := dsFlag { s with now := max s.now t, pwr := { s.pwr with slew := 0 } } 21

/-- A correction of so many ns, by a step where one is permitted and by slewing otherwise (12 R334, R337). -/
def correct (s : State) (d : Int) : State :=
  if stepAllowed s && decide (0 < d) then stepTo s (s.now + d.toNat) else { s with pwr := { s.pwr with slew := d } }

/-- DS_ERR_BOUND as it reads: 2 ns more for each ms of HOLDOVER, saturating (12 R337, R367). -/
def dsErrBound (s : State) : Nat := match s.pwr.holdSince with
  | some t => min 0xFFFF (s.pwr.errBound + 2 * ((s.now - t) / ms))
  | none => s.pwr.errBound

/-- DS_OFFSET as it reads: two's complement, saturating (12 R367). -/
def dsOffsetReg (s : State) : Nat := toBits (max (-2147483648) (min 2147483647 s.pwr.dsOffset)) 32

/-- Own QUALITY: 0 in LOCKED to SYNC_IN, else one more than the parent's, up to 254; 255 without a locked source (12 R339). -/
def setQuality (s : State) : State :=
  let q := if s.pwr.dsState != 2 then 255 else if s.pwr.source == 1 then 0 else min 254 ((s.pwr.link s.pwr.parent).quality + 1)
  { s with pwr := { s.pwr with quality := q } }

/-- A measurement counted: the fourth in a row of at most 20 ns in ACQUIRE locks (12 R337). -/
def countGood (s : State) (small : Bool) : State :=
  if s.pwr.dsState != 1 then s
  else
    let n := if small then s.pwr.good + 1 else 0
    let s := s.modPwr (fun p => { p with good := n })
    if n ≥ 4 then setDsState s 2 else s

/-- A measurement of this part's offset from its source: the states of R337, the correction, and the error bound, whose estimate
is a free value (12 R337, R341; assumption 3). -/
def dsMeasure (s : State) (source : Nat) (offset : Int) : State :=
  let small := decide (offset.natAbs ≤ 20)
  let bound := (Config.freeWord s.fresh.1).toNat % 2 ^ 16
  let s := s.fresh.2.modPwr (fun p => { p with source, dsOffset := offset, errBound := bound })
  let st := s.pwr.dsState
  let s := if st == 0 || st == 3 || (st == 2 && !small) then setDsState s 1 else s
  setQuality (countGood (correct s (-offset)) small)

/-- The links that can be a parent, best first: peers in LOCKED, lowest QUALITY, then lowest device (12 R340). -/
def bestParent (s : State) : Option Nat :=
  (s.pwr.links.foldl (fun (acc : Option (Nat × LinkTime)) l =>
    if !l.2.locked then acc
    else match acc with
      | none => some l
      | some a => if l.2.quality < a.2.quality || (l.2.quality == a.2.quality && l.2.device < a.2.device) then some l else acc) none).map (·.1)

/-- Whether SYNC_IN is the source: CLK_MODE 2, SYNC_EN, and pulses not lost (12 R336, R338). -/
def syncUsed (s : State) : Bool := clkMode s == 2 && bitsAt s.pwr.dsCtrl.toNat 0 1 == 1 && s.pwr.pulseAt.isSome

/-- The source is lost: LOCKED goes to HOLDOVER, with the last correction kept (12 R337). -/
def sourceLost (s : State) : State :=
  let s := { s with pwr := { s.pwr with source := 0 } }
  setQuality (if s.pwr.dsState == 2 then setDsState s 3 else s)

/-- The parent chosen anew where it is not held (12 R340, R367). -/
def chooseParent (s : State) : State :=
  match bestParent s with
  | none => if s.pwr.source == 2 then sourceLost s else s
  | some q =>
    let held := bitsAt s.pwr.dsCtrl.toNat 2 1 == 1 && (s.pwr.link s.pwr.parent).locked
    if q == s.pwr.parent || held then s else dsFlag { s with pwr := { s.pwr with parent := q } } 23

/-- A link leaves UP: its time transfer ends (12 R337, R340). -/
def timeLinkLost (s : State) (q : Nat) : State :=
  if Tbl.has s.pwr.links q then chooseParent { s with pwr := { s.pwr with links := Tbl.del s.pwr.links q } } else s

/-- The offset of a stamp from the nearest second (12 R338). -/
def pulseOffset (stamp : Nat) : Int :=
  let r := stamp % 1000000000
  if r ≤ 500000000 then (r : Int) else (r : Int) - 1000000000

/-- The rejected pulses' offsets agree within 100 ns (12 R338). -/
def farAgree (l : List Int) : Bool := decide (l.length ≥ 3) && l.all (fun a => l.all (fun b => decide ((a - b).natAbs ≤ 100)))

/-- An armed step at an accepted pulse, or at a measurement of the parent (12 R342). -/
def armedStep (s : State) (to_ : Nat) : State := if stepAllowed s then stepTo s to_ else dsFlag s 22

/-- SYNC_IN: a pulse stamped and accepted or rejected (12 R336, R338, R342). -/
def syncPulse (s : State) (stamp : Nat) : State :=
  if clkMode s != 2 || bitsAt s.pwr.dsCtrl.toNat 0 1 == 0 then s
  else
    let s := reach s stamp
    let off := pulseOffset stamp
    if s.pwr.dsState == 2 && decide (off.natAbs > 1000) then
      let run := (off :: s.pwr.farRun).take 3
      let s := dsFlag { s with pwr := { s.pwr with rejected := (s.pwr.rejected + 1) % 65536, farRun := run } } 19
      if farAgree run then dsFlag { s with pwr := { s.pwr with slew := -off, farRun := [] } } 20 else s
    else
      let s := { s with pwr := { s.pwr with accepted := (s.pwr.accepted + 1) % 65536, farRun := [], pulseAt := some stamp } }
      if s.pwr.dsArmed then armedStep { s with pwr := { s.pwr with dsArmed := false } } s.pwr.dsSet.toNat
      else dsMeasure s 1 off

/-- The bytes of a TIME flit's payload (12 R339). -/
def timePayload (s : State) (q : Nat) : List Byte :=
  let l := s.pwr.link q
  bytesLE 8 s.now ++ bytesLE 8 l.echoTx ++ bytesLE 8 l.echoRx ++ bytesLE 8 (s.pwr.quality + put (bit (s.pwr.dsState == 2)) 8 1)

/-- A TIME flit's stamps: the peer's offset measured, the parent chosen, and the part disciplined to it (12 R339, R340, R342). -/
def takeTime (s : State) (q device : Nat) (bs : List Byte) : State :=
  let at_ := fun (o : Nat) => natLE ((bs.drop o).take 8)
  let t4 := s.now
  let l := s.pwr.link q
  let s := { s with pwr := { s.pwr with links := Tbl.put s.pwr.links q { l with
    echoTx := at_ 0, echoRx := t4, quality := at_ 24 % 256, locked := bitsAt (at_ 24) 8 1 == 1, device } } }
  if bitsAt s.pwr.dsCtrl.toNat 1 1 == 0 then s
  else
    let s := chooseParent s
    if at_ 8 == 0 || s.pwr.parent != q || !(s.pwr.link q).locked || syncUsed s then s
    else
      let theta : Int := (((at_ 16 : Int) - at_ 8) + ((at_ 0 : Int) - t4)) / 2
      if decide (theta.natAbs > 500000000) then
        armedStep { s with pwr := { s.pwr with dsOffset := -theta, source := 2 } } ((s.now : Int) + theta).toNat
      else dsMeasure s 2 (-theta)

/-- One tick of Datestamp, with what slewing adds or leaves out, at most once in 5,000 ticks (12 R333, R334). -/
def tick (s : State) : State :=
  if s.pwr.slew == 0 || s.pwr.slewWait != 0 then
    { s with now := s.now + 1, pwr := { s.pwr with slewWait := s.pwr.slewWait - 1 } }
  else if 0 < s.pwr.slew then { s with now := s.now + 2, pwr := { s.pwr with slew := s.pwr.slew - 1, slewWait := 4999 } }
  else { s with pwr := { s.pwr with slew := s.pwr.slew + 1, slewWait := 4999 } }

/-- SYNC_IN_LOSS: no pulse accepted for 2.5 s; link time transfer is used from then on (12 R336 to R338). -/
def execSyncInLoss (s : State) : Out :=
  match s.pwr.pulseAt with
  | none => .next s
  | some t =>
    let s := reach s (t + 2500 * ms)
    let s := { s with pwr := { s.pwr with pulseAt := none, farRun := [] } }
    .next (if s.pwr.source == 1 then sourceLost s else s)

/-- SYNC_OUT_PULSE: Datestamp at a multiple of 10^9 ns; the output is held low in FREE (19 R534). -/
def execSyncOutPulse (s : State) : Out :=
  let t := match s.pwr.syncOut with
    | some u => max (u + 1000000000) (alignDown s.now 1000000000)
    | none => alignUp s.now 1000000000
  let s := reach s t
  .next (if s.pwr.dsState == 0 then s else { s with pwr := { s.pwr with syncOut := some t } })

end Sys2Proof.Machine
end

