-- ==== Sys2Proof/Machine/Address.lean ====
section
/-! DEFINITION. The physical address map: the direct and interleaved views, holes, the Registrar area, channels, and who may reach a Shelf (06_memory.md R153 to R158). -/

namespace Sys2Proof.Machine

/-- Bytes of a Shelf (06 R153). -/
def shelfBytes : Nat := 0x180000000
/-- Shelf offset of the Registrar area, and of the tag area above it (06 R158, 07 R210). -/
def registrarArea : Nat := 0x17E000000
def tagArea : Nat := 0x17FE00000

/-- The direct address of an interleaved offset (06 R154). -/
def deinterleave (x : Nat) : Nat :=
  let row := 48 * 2 ^ 30
  let r := x / row
  let y := x % row
  let c := y >>> 15
  let j := (y >>> 12) % 8
  let st := j ^^^ (c % 8)
  (st * 16 + r) * 2 ^ 33 + c * 4096 + y % 4096

/-- The direct form of a device-local physical address; none for an address that no stack decodes and for a hole above a Shelf (06 R153, R155). -/
def direct? (pa : Nat) : Option Nat :=
  if pa < 0x10000000000 then (if pa % 2 ^ 33 < shelfBytes then some pa else none)
  else if pa < 0x1C000000000 then some (deinterleave (pa - 0x10000000000))
  else none

/-- Whether a stack decodes the address, be it a hole or not (06 R153). -/
def inStacks (pa : Nat) : Bool := decide (pa < 0x1C000000000)

/-- Shelf, stack, Shelf index and Shelf offset of a direct address. -/
def shelfOf (d : Nat) : Nat := d / 2 ^ 33
def stackOf (d : Nat) : Nat := d / 2 ^ 37
def shelfIndex (d : Nat) : Nat := shelfOf d % 16
def shelfOff (d : Nat) : Nat := d % 2 ^ 33

/-- The stack of an address in any view; holes above a Shelf still belong to their stack (06 R155). -/
def stackOfPa (pa : Nat) : Nat := match direct? pa with
  | some d => stackOf d
  | none => (pa / 2 ^ 37) % 8

/-- Whether a direct address lies in the Registrar area or the tag area (06 R158). -/
def reservedArea (d : Nat) : Bool := decide (shelfOff d ≥ registrarArea)

/-- A direct address that a table entry may map and a companion may reach (06 R153, R158, 09 R250, 16 R449). -/
def usable (pa : Nat) : Option Nat := match direct? pa with
  | some d => if reservedArea d then none else some d
  | none => none

/-- The channel of a Shelf offset (06 R156). -/
def channelOf (o : Nat) : Nat := (o >>> 8) % 32 ^^^ (o >>> 16) % 32

/-- SHELF_OWNER's mask of a Shelf (06 R157). -/
def shelfMask (s : State) (shelf : Nat) : Nat := Tbl.getD (s.stack (shelf / 16)).shelfOwner (shelf % 16) 0

/-- Whether a partition's bit is set for the Shelf of a direct address (06 R157). -/
def shelfAllows (s : State) (p d : Nat) : Bool := bitsAt (shelfMask s (shelfOf d)) p 1 == 1

/-- Whether a direct address lies in a Shelf that the partition holds (01 R17). -/
def heldBy (s : State) (p d : Nat) : Bool := s.mode != 0 && decide (s.partOfShelf (shelfOf d) = p)

end Sys2Proof.Machine
end

