-- ==== Sys2Proof/Machine/Compression.lean ====
section
/-! DEFINITION. Compressed pages: Codex, Abridged and Narrow blocks, encoded and decoded (07_shelvers.md R209 to R220). -/

namespace Sys2Proof.Machine

/-- Bytes of a compression block (07 R210). -/
def blockBytes : Nat := 4096

/-- MODE and K of a compression word (07 R209). -/
def cmpMode (c : Nat) : Nat := c % 8
def cmpK (c : Nat) : Int := sext (c >>> 4) 12

/-- Whether a compression word is neither reserved nor out of range (07 R209). -/
def cmpValid (c : Nat) : Bool :=
  let k := cmpK c
  bitsAt c 3 1 == 0 && (match cmpMode c with
    | 0 | 1 | 5 => k == 0
    | 2 => decide (-1075 ≤ k) && decide (k ≤ 970)
    | 3 => decide (-150 ≤ k) && decide (k ≤ 103)
    | 4 => decide (-134 ≤ k) && decide (k ≤ 119)
    | _ => false)

/-- Whether a page keeps tag bytes: Codex and Abridged (07 R210). -/
def cmpTagged (c : Nat) : Bool := decide (1 ≤ cmpMode c) && decide (cmpMode c ≤ 4)

/-- A bit string under construction: its value, least significant bit first, and its length (07 R215). -/
structure BitStr where
  v : Nat := 0
  n : Nat := 0
  deriving DecidableEq, Repr

/-- A field of `w` bits appended. -/
def BitStr.add (b : BitStr) (x w : Nat) : BitStr := { v := b.v + (x % 2 ^ w) <<< b.n, n := b.n + w }

/-- The fewest bytes, less one, that hold a number (07 R216). -/
def codexM (d : Nat) : Nat := log2 d / 8

/-- One word of a Codex stream (07 R215, R216). -/
def codexWord (b : BitStr) (p w : Nat) : BitStr :=
  if w == p then b.add 0 2
  else if w == 0 then b.add 1 2
  else
    let d := p ^^^ w
    let m := codexM d
    ((b.add 2 2).add m 3).add d (8 * (m + 1))

/-- The Codex stream of a block's words. -/
def codexStream (ws : List Nat) : BitStr := (ws.foldl (fun a w => (codexWord a.1 a.2 w, w)) ({}, 0)).1

/-- `n` words decoded from a stream of `len` bits; none where the stream is invalid (07 R215). -/
def codexDecode (v len : Nat) : Nat → Nat → Nat → Option (List Nat)
  | 0, at_, _ => if at_ ≤ len then some [] else none
  | n + 1, at_, p =>
    let next := fun (w to_ : Nat) => (codexDecode v len n to_ w).map (w :: ·)
    match bitsAt v at_ 2 with
    | 0 => next p (at_ + 2)
    | 1 => next 0 (at_ + 2)
    | 2 =>
      let m := bitsAt v (at_ + 2) 3
      next (p ^^^ bitsAt v (at_ + 5) (8 * (m + 1))) (at_ + 5 + 8 * (m + 1))
    | _ => none

/-- The element format of an Abridged mode (07 R209). -/
def abrFmt (mode : Nat) : FloatFmt := match mode with | 2 => .fp64 | 3 => .fp32 | _ => .bf16

/-- Qmax of R218 and the widest W of R219. -/
def abrQmax : FloatFmt → Nat
  | .fp64 => 2 ^ 52 - 1 | .fp32 => 2 ^ 23 - 1 | _ => 127
def abrWmax : FloatFmt → Nat
  | .fp64 => 53 | .fp32 => 24 | _ => 8

/-- z of an element, or none where it is escaped (07 R218). -/
def abrZ (f : FloatFmt) (k : Int) (w : Nat) : Option Nat :=
  match decodeFloat f w with
  | .fin n m e =>
    let q := roundMag .rne n m e (k + 1) 0
    if q > abrQmax f then none else if q == 0 then some 0 else some (if n then 2 * q - 1 else 2 * q)
  | _ => none

/-- The element that z stands for (07 R218). -/
def abrElem (f : FloatFmt) (k : Int) (z : Nat) : Nat :=
  let neg := z % 2 == 1
  (toFloat f { mode := .rne } (.fin neg ((z + 1) / 2) (k + 1))).1

/-- A group of 32 elements encoded (07 R217). -/
def abrGroup (f : FloatFmt) (k : Int) (b : BitStr) (ws : List Nat) : BitStr :=
  let zs := ws.map (abrZ f k)
  let top := zs.foldl (fun a z => max a (z.getD 0)) 0
  let w := if top == 0 then 0 else log2 top + 1
  let esc := zs.any (·.isNone)
  let b := (b.add w 6).add (bit esc) 1
  let b := if esc then b.add ((zs.zipIdx).foldl (fun a z => a + put (bit z.1.isNone) z.2 1) 0) 32 else b
  let b := zs.foldl (fun b z => match z with | some z => b.add z w | none => b) b
  (zs.zip ws).foldl (fun b z => if z.1.isNone then b.add z.2 f.width else b) b

/-- One group decoded at a bit offset: its elements and the offset after it. -/
def abrGroupDecode (f : FloatFmt) (k : Int) (v at_ : Nat) : Option (List Nat × Nat) :=
  let w := bitsAt v at_ 6
  let esc := bitsAt v (at_ + 6) 1 == 1
  let mask := if esc then bitsAt v (at_ + 7) 32 else 0
  let at1 := at_ + 7 + (if esc then 32 else 0)
  if w > abrWmax f then none
  else
    let plain := (List.range 32).filter (fun i => bitsAt mask i 1 == 0)
    let escd := (List.range 32).filter (fun i => bitsAt mask i 1 == 1)
    let at2 := at1 + w * plain.length
    let zs : Tbl Nat := (plain.zipIdx).map (fun p => (p.1, abrElem f k (bitsAt v (at1 + w * p.2) w)))
    let es : Tbl Nat := (escd.zipIdx).map (fun p => (p.1, bitsAt v (at2 + f.width * p.2) f.width))
    some ((List.range 32).map (fun i => match Tbl.find zs i with | some x => x | none => Tbl.getD es i 0), at2 + f.width * escd.length)

/-- The groups of a block decoded in turn. -/
def abrDecode (f : FloatFmt) (k : Int) (v len : Nat) : Nat → Nat → Option (List Nat)
  | 0, at_ => if at_ ≤ len then some [] else none
  | n + 1, at_ =>
    match abrGroupDecode f k v at_ with
    | some (ws, at2) => (abrDecode f k v len n at2).map (ws ++ ·)
    | none => none

/-- An Abridged block's stream: header and groups (07 R217). -/
def abrStream (mode : Nat) (k : Int) (ws : List Nat) : BitStr :=
  (chunks 32 ws).foldl (abrGroup (abrFmt mode) k) ((({} : BitStr).add (mode - 2) 2).add (toBits k 12) 30)

/-- Words of a block by width. -/
def blockWords (w : Nat) (bs : List Byte) : List Nat := unpackElems w (blockBytes * 8 / w) bs

/-- A block encoded under a compression word: its tag byte and the bytes of its granules (07 R216, R218). -/
def encodeBlock (cmp : Nat) (bs : List Byte) : Nat × List Byte :=
  let done := fun (zero : Bool) (b : BitStr) =>
    let g := (b.n + 511) / 512
    if zero then (0, []) else if g ≥ 64 then (64, bs) else (g, bytesLE (64 * g) b.v)
  if cmpMode cmp == 1 then
    let ws := blockWords 64 bs
    done (ws.all (· == 0)) (codexStream ws)
  else
    let f := abrFmt (cmpMode cmp)
    let ws := blockWords f.width bs
    done (ws.all (fun w => abrZ f (cmpK cmp) w == some 0)) (abrStream (cmpMode cmp) (cmpK cmp) ws)

/-- A block decoded from its tag byte and its slot; none where it is invalid (07 R211, R212, R219). -/
def decodeBlock (cmp tag : Nat) (slot : List Byte) : Option (List Byte) :=
  if tag == 0 then some (List.replicate blockBytes 0#8)
  else if tag == 64 then some slot
  else if tag > 64 then none
  else
    let v := natLE (slot.take (64 * tag))
    let len := 512 * tag
    if cmpMode cmp == 1 then (codexDecode v len 512 0 0).map (packElems 64)
    else
      let f := abrFmt (cmpMode cmp)
      if bitsAt v 0 2 + 2 != cmpMode cmp then none
      else (abrDecode f (sext (bitsAt v 2 12) 12) v len (blockBytes * 8 / f.width / 32) 32).map (packElems f.width)

/-- FP32 elements of a line as BF16, and back (07 R220). -/
def narrowStore (bs : List Byte) : List Byte :=
  packElems 16 ((unpackElems 32 (bs.length / 4) bs).map (fun w => (toFloat .bf16 { mode := .rne } (decodeFloat .fp32 w)).1))
def narrowLoad (bs : List Byte) : List Byte :=
  packElems 32 ((unpackElems 16 (bs.length / 2) bs).map (fun w => (toFloat .fp32 { mode := .rne } (decodeFloat .bf16 w)).1))

end Sys2Proof.Machine
end

