-- ==== Sys2Proof/Machine/Crypto.lean ====
section
/-! DEFINITION. SHA3-512, AES-256, XTS, GCM and CRC-32 as the spec names them (11_fabric.md R305, R309, 17_security.md R471 to R484). The spec gives their names, not their text; they are written from the public standards (assumption 20). -/

namespace Sys2Proof.Machine

/-! SHA3-512. -/

/-- Rotation of a 64-bit lane. -/
def rol64 (x : DWord) (n : Nat) : DWord := x.rotateLeft n

/-- Rotation offsets, by lane x + 5y. -/
def keccakRot : List Nat := [0, 1, 62, 28, 27, 36, 44, 6, 55, 20, 3, 10, 43, 25, 39, 41, 45, 15, 21, 8, 18, 2, 61, 56, 14]

/-- Round constants. -/
def keccakRc : List DWord :=
  [0x0000000000000001#64, 0x0000000000008082#64, 0x800000000000808A#64, 0x8000000080008000#64, 0x000000000000808B#64, 0x0000000080000001#64,
   0x8000000080008081#64, 0x8000000000008009#64, 0x000000000000008A#64, 0x0000000000000088#64, 0x0000000080008009#64, 0x000000008000000A#64]
  ++ [0x000000008000808B#64, 0x800000000000008B#64, 0x8000000000008089#64, 0x8000000000008003#64, 0x8000000000008002#64, 0x8000000000000080#64,
   0x000000000000800A#64, 0x800000008000000A#64, 0x8000000080008081#64, 0x8000000000008080#64, 0x0000000080000001#64, 0x8000000080008008#64]

/-- A lane of the sponge's state. -/
def lane (a : List DWord) (i : Nat) : DWord := a.getD i 0#64

/-- One round. -/
def keccakRound (a : List DWord) (rc : DWord) : List DWord :=
  let c := (List.range 5).map (fun x => lane a x ^^^ lane a (x + 5) ^^^ lane a (x + 10) ^^^ lane a (x + 15) ^^^ lane a (x + 20))
  let d := (List.range 5).map (fun x => lane c ((x + 4) % 5) ^^^ rol64 (lane c ((x + 1) % 5)) 1)
  let a := (List.range 25).map (fun i => rol64 (lane a i ^^^ lane d (i % 5)) (keccakRot.getD i 0))
  let b := (List.range 25).map (fun i =>
    let x := i % 5
    let y := i / 5
    lane a ((x + 3 * y) % 5 + 5 * x))
  let a := (List.range 25).map (fun i =>
    let y := 5 * (i / 5)
    lane b i ^^^ (~~~(lane b (y + (i % 5 + 1) % 5)) &&& lane b (y + (i % 5 + 2) % 5)))
  match a with
  | x :: t => (x ^^^ rc) :: t
  | [] => []

/-- The permutation. -/
def keccakF (a : List DWord) : List DWord := keccakRc.foldl keccakRound a

/-- A block of 72 bytes absorbed. -/
def absorb (a : List DWord) (blk : List Byte) : List DWord :=
  let v := natLE blk
  keccakF ((List.range 25).map (fun i => if i < 9 then lane a i ^^^ BitVec.ofNat 64 (v >>> (64 * i)) else lane a i))

/-- SHA3-512 of a byte string: 64 bytes. -/
def sha3 (m : List Byte) : List Byte :=
  let r := 72 - m.length % 72
  let pad := if r == 1 then [0x86#8] else 0x06#8 :: List.replicate (r - 2) 0#8 ++ [0x80#8]
  let a := (chunks 72 (m ++ pad)).foldl absorb (List.replicate 25 0#64)
  (a.take 8).flatMap (fun w => bytesLE 8 w.toNat)

/-- The digest as a number, its first byte lowest. -/
def sha3Nat (m : List Byte) : BitVec 512 := BitVec.ofNat 512 (natLE (sha3 m))

/-! AES-256. -/

/-- Doubling in the byte field. -/
def xtime (a : Nat) : Nat := if a ≥ 128 then (2 * a) ^^^ 0x11B else 2 * a

/-- Product in the byte field. -/
def gmul (a b : Nat) : Nat :=
  ((List.range 8).foldl (fun (p : Nat × Nat) i => (if bitsAt b i 1 == 1 then p.1 ^^^ p.2 else p.1, xtime p.2)) (0, a)).1

/-- Inverse in the byte field: the 254th power. -/
def ginv (a : Nat) : Nat :=
  let a2 := gmul a a
  let a4 := gmul a2 a2
  let a8 := gmul a4 a4
  let a16 := gmul a8 a8
  let a32 := gmul a16 a16
  let a64 := gmul a32 a32
  let a128 := gmul a64 a64
  gmul a128 (gmul a64 (gmul a32 (gmul a16 (gmul a8 (gmul a4 a2)))))

def rol8 (x n : Nat) : Nat := ((x <<< n) ||| (x >>> (8 - n))) % 256

/-- The substitution box, and its inverse, computed once each. -/
def sboxAt (x : Nat) : Nat := let b := ginv x; b ^^^ rol8 b 1 ^^^ rol8 b 2 ^^^ rol8 b 3 ^^^ rol8 b 4 ^^^ 0x63
def sboxTable : List Nat := (List.range 256).map sboxAt
def sbox (t : List Nat) (x : Nat) : Nat := t.getD x 0
def invTable : List Nat := (List.range 256).map (fun x => ginv (rol8 x 1 ^^^ rol8 x 3 ^^^ rol8 x 6 ^^^ 0x05))

/-- Two byte strings combined by exclusive or. -/
def xorBytes (a b : List Nat) : List Nat := (a.zip b).map (fun p => p.1 ^^^ p.2)

/-- The 60 words of the key schedule, each four bytes. -/
def aesSchedule (sb : List Nat) (key : List Nat) : List (List Nat) :=
  let rcon := fun (i : Nat) => (List.range (i - 1)).foldl (fun a _ => xtime a) 1
  (List.range 52).foldl (fun w k =>
    let i := k + 8
    let prev := w.getD (i - 1) []
    let t := if i % 8 == 0 then xorBytes ((prev.drop 1 ++ prev.take 1).map (sbox sb)) [rcon (i / 8), 0, 0, 0]
      else if i % 8 == 4 then prev.map (sbox sb) else prev
    w ++ [xorBytes (w.getD (i - 8) []) t]) (chunks 4 key)

/-- A key made ready: the tables and the schedule by rounds of 16 bytes. -/
structure AesKey where
  sb : List Nat
  ib : List Nat
  rk : List (List Nat)

def aesKey (key : List Byte) : AesKey :=
  let sb := sboxTable
  { sb, ib := invTable, rk := (chunks 4 (aesSchedule sb (key.map (·.toNat)))).map (·.flatten) }

def shiftRows (s : List Nat) : List Nat := (List.range 16).map (fun i => s.getD ((i + 4 * (i % 4)) % 16) 0)
def unshiftRows (s : List Nat) : List Nat := (List.range 16).map (fun i => s.getD ((i + 16 - 4 * (i % 4)) % 16) 0)

/-- Each column multiplied by a circulant of four bytes. -/
def mixWith (m : List Nat) (s : List Nat) : List Nat :=
  (List.range 16).map (fun i => (List.range 4).foldl (fun a j => a ^^^ gmul (m.getD ((j + 4 - i % 4) % 4) 0) (s.getD (i / 4 * 4 + j) 0)) 0)

/-- One block encrypted, or decrypted. -/
def aesEnc (k : AesKey) (b : List Nat) : List Nat :=
  let s := xorBytes b (k.rk.getD 0 [])
  let s := (List.range 13).foldl (fun s r => xorBytes (mixWith [2, 3, 1, 1] (shiftRows (s.map (sbox k.sb)))) (k.rk.getD (r + 1) [])) s
  xorBytes (shiftRows (s.map (sbox k.sb))) (k.rk.getD 14 [])
def aesDec (k : AesKey) (b : List Nat) : List Nat :=
  let s := (unshiftRows (xorBytes b (k.rk.getD 14 []))).map (sbox k.ib)
  let s := (List.range 13).foldl (fun s r => (unshiftRows (mixWith [14, 11, 13, 9] (xorBytes s (k.rk.getD (13 - r) [])))).map (sbox k.ib)) s
  xorBytes s (k.rk.getD 0 [])

/-! XTS-AES-256 (17 R484). -/

/-- A tweak multiplied by the primitive element. -/
def xtsNext (t : Nat) : Nat := let d := 2 * t; if d ≥ 2 ^ 128 then (d - 2 ^ 128) ^^^ 0x87 else d

/-- Blocks of 16 bytes of one data unit, from block number `first`, encrypted or decrypted. -/
def xts (enc : Bool) (k1 k2 : AesKey) (unit first : Nat) (bs : List Byte) : List Byte :=
  let t0 := natLE ((aesEnc k2 ((bytesLE 16 unit).map (·.toNat))).map (BitVec.ofNat 8))
  let t1 := (List.range first).foldl (fun t _ => xtsNext t) t0
  ((chunks 16 bs).foldl (fun (a : List Byte × Nat) b =>
    let t := (bytesLE 16 a.2).map (·.toNat)
    let x := xorBytes (b.map (·.toNat)) t
    let y := xorBytes (if enc then aesEnc k1 x else aesDec k1 x) t
    (a.1 ++ y.map (BitVec.ofNat 8), xtsNext a.2)) ([], t1)).1

/-- Bytes at a 16-byte aligned direct address under a partition's key pair, K1 in the low half (17 R484). -/
def xtsAt (enc : Bool) (keys : BitVec 512) (d : Nat) (bs : List Byte) : List Byte :=
  let k1 := aesKey (bytesLE 32 (keys.toNat % 2 ^ 256))
  let k2 := aesKey (bytesLE 32 (keys.toNat / 2 ^ 256))
  let first := 4096 - d % 4096
  let rest := chunks 4096 (bs.drop first)
  xts enc k1 k2 (d / 4096) (d % 4096 / 16) (bs.take first)
    ++ ((rest.zipIdx).map (fun p => xts enc k1 k2 (d / 4096 + 1 + p.2) 0 p.1)).flatten

/-! AES-256-GCM. -/

/-- A byte string as a number, its first byte highest. -/
def natBE (bs : List Byte) : Nat := bs.foldl (fun a b => 256 * a + b.toNat) 0
def bytesBE (n v : Nat) : List Byte := (bytesLE n v).reverse

/-- Product in GCM's field, bit 127 the constant term. -/
def ghashMul (x y : Nat) : Nat :=
  ((List.range 128).foldl (fun (a : Nat × Nat) i =>
    let z := if bitsAt x (127 - i) 1 == 1 then a.1 ^^^ a.2 else a.1
    (z, if a.2 % 2 == 1 then (a.2 / 2) ^^^ (0xE1 <<< 120) else a.2 / 2)) (0, y)).1

/-- A byte string padded with zeros to whole blocks. -/
def padTo (k : Nat) (bs : List Byte) : List Byte := bs ++ List.replicate ((k - bs.length % k) % k) 0#8

/-- The counter blocks' stream applied to a byte string. -/
def gcmStream (k : AesKey) (iv : List Byte) (bs : List Byte) : List Byte :=
  (((chunks 16 bs).zipIdx).map (fun p =>
    let ks := aesEnc k ((iv ++ bytesBE 4 (p.2 + 2)).map (·.toNat))
    (xorBytes (p.1.map (·.toNat)) ks).map (BitVec.ofNat 8))).flatten

/-- The tag of a ciphertext. -/
def gcmTag (k : AesKey) (iv aad ct : List Byte) : List Byte :=
  let h := natBE ((aesEnc k (List.replicate 16 0)).map (BitVec.ofNat 8))
  let msg := padTo 16 aad ++ padTo 16 ct ++ bytesBE 8 (8 * aad.length) ++ bytesBE 8 (8 * ct.length)
  let g := (chunks 16 msg).foldl (fun y b => ghashMul (y ^^^ natBE b) h) 0
  let e := natBE ((aesEnc k ((iv ++ bytesBE 4 1).map (·.toNat))).map (BitVec.ofNat 8))
  bytesBE 16 (g ^^^ e)

/-- A ciphertext opened; none where its tag fails. -/
def gcmOpen (key iv aad ct tag : List Byte) : Option (List Byte) :=
  let k := aesKey key
  if gcmTag k iv aad ct == tag then some (gcmStream k iv ct) else none

/-- A plaintext sealed: the ciphertext and its tag. -/
def gcmSeal (key iv aad pt : List Byte) : List Byte × List Byte :=
  let k := aesKey key
  let ct := gcmStream k iv pt
  (ct, gcmTag k iv aad ct)

/-- CRC-32 of the reflected polynomial 0xEDB88320, with all-ones start and end. -/
def crc32 (bs : List Byte) : Nat :=
  (bs.foldl (fun c b => (List.range 8).foldl (fun c _ => if c % 2 == 1 then (c / 2) ^^^ 0xEDB88320 else c / 2) (c ^^^ b.toNat)) 0xFFFFFFFF) ^^^ 0xFFFFFFFF

end Sys2Proof.Machine
end

