-- ==== Sys2Proof/Machine/Home.lean ====
section
/-! DEFINITION. A line at its home: stored and compressed data, error code and poison, the memory-side cache, and the charges of regulation (06_memory.md R155 to R173, 07_shelvers.md R205 to R214). -/

namespace Sys2Proof.Machine

namespace State
def shelver (s : State) (n : Nat) : Shelver := Tbl.getD s.shelvers n {}
def setShelver (s : State) (n : Nat) (x : Shelver) : State := { s with shelvers := Tbl.put s.shelvers n x }
def modShelver (s : State) (n : Nat) (f : Shelver → Shelver) : State := s.setShelver n (f (s.shelver n))
end State

/-- Who asks for memory: regulated master (44 where none is charged), partition, and whether the checks on Shelves are passed over (06 R157, R172). -/
structure Rq where
  master : Nat := 44
  part : Nat := 0
  bypass : Bool := false
  noAlloc : Bool := false
  deriving DecidableEq, Repr

/-- An event of a stack controller: its flag, and the ERROR of its severity (06 R181, 18 R514). -/
def stackEvent (s : State) (k b sev parts : Nat) (addr : Option Nat := none) : State :=
  let r := statusFlag (s.stack k).status b
  postError (s.modStack k (fun x => { x with status := r }))
    { block := 6, inst := k, cause := b, sev, parts, off := 4, addr, seq := evtSeq r, reg := r.toNat }

/-- An event of a Shelver: its flag, STATUS and QUEUE (07 R222). -/
def shEvent (s : State) (sh b status queue sev parts : Nat) : State :=
  let r := statusEvent (s.shelver sh).status (2 ^ b + 0xFFF0000) (2 ^ b + put status 16 8 + put queue 24 4)
  postError (s.modShelver sh (fun x => { x with status := r }))
    { block := 7, inst := sh, cause := b, sev, parts, action := if b == 28 || b == 29 then 3 else 0, off := 8, seq := evtSeq r, reg := r.toNat }

/-! Endpoints of the Card network (03 R84 to R90). -/

/-- The crossbar port, and owner code, of a core by its agent index (03 R59, 08 R223). -/
def portOfCore (c : Nat) : Nat := 4 + c

/-- The kernel core of an endpoint (03 R85). -/
def coreOfEp (ep : Nat) : Option Nat := if ep == 2 then some 5 else if 5 ≤ ep && ep ≤ 8 then some (ep - 5) else none

/-- The logical Bay at a router. -/
def bayAt (s : State) (router : Nat) : Option Nat := s.sites.idxOf? router

/-- A message's endpoint as the key of its queue. -/
def cardKey (router ep : Nat) : Nat := router * 16 + ep

/-- Whether an endpoint of a Bay is fenced, or behind a wrapper that is not OPEN; the router's own endpoint 0 is neither (03 R90, 18 R503). -/
def epFenced (s : State) (router ep : Nat) : Bool :=
  match bayAt s router with
  | none => false
  | some b => ep != 0 && ((s.bay b).fenced || (s.bay b).wrapper != .open_ || (match coreOfEp ep with
    | some c => bitsAt (s.bay b).coreFence.toNat (portOfCore c) 1 == 1
    | none => ep == 1 && bitsAt (s.bay b).coreFence.toNat 8 1 == 1))

/-- A message to a fenced endpoint: discarded, and its sender's Bay runtime, or the Registrar, told (03 R90). -/
def cardIsolated (s : State) (m : Card) : State :=
  match bayAt s m.srcRouter with
  | some b => { s with reports := s.reports ++ [{ bay := b, core := ((coreOfEp m.srcEp).map portOfCore).getD 15, status := Status.isolated.code }] }
  | none => { s with reports := s.reports ++ [{ bay := 32, core := 15, status := Status.isolated.code }] }

/-- The partitions whose bits a Shelf's mask sets, as far as they exist. -/
def maskOfAddr (s : State) (d : Nat) : Nat := shelfMask s (shelfOf d)

/-! Stored bytes and poison (06 R168). -/

/-- Bytes stored; a chunk of 32 bytes that they cover whole loses its poison. -/
def rawPut (s : State) (d : Nat) (bs : List Byte) : State :=
  let first := (d + 31) / 32
  let last := (d + bs.length) / 32
  s.modMem (fun m => { m with dram := Mem.writeN m.dram d bs, poison := m.poison.filter (fun c => decide (c < first) || decide (last ≤ c)) })

/-- Chunks put in the poisoned form. -/
def poisonChunks (s : State) (cs : List Nat) : State :=
  s.modMem (fun m => { m with poison := cs.foldl NSet.ins m.poison })

/-- Whether any chunk of a range is poisoned. -/
def anyPoison (s : State) (d n : Nat) : Bool :=
  s.mem.poison.any (fun c => decide (d / 32 ≤ c) && decide (c < (d + n + 31) / 32))

/-- ERR_ADDR of an error: 1 corrected, 2 uncorrectable on read, 3 uncorrectable by scrub, 4 MSC parity (06 R181). -/
def logErr (s : State) (d type : Nat) : State :=
  s.modStack (stackOf d) (fun x => { x with
    errAddr := BitVec.ofNat 64 (d % 2 ^ 46 + put (channelOf (shelfOff d)) 46 5 + put type 51 3) })

/-- A chunk read with `n` symbols in error: its value and whether it is poisoned (06 R168, R170). Three symbols or more may
pass undetected, and the chunk then reads as a free value (assumption 3). -/
def readChunk (s : State) (c n scrub : Nat) : State × BitVec 256 × Bool :=
  let d := 32 * c
  let v := BitVec.ofNat 256 (s.mem.dram.readLE d 32)
  let k := stackOf d
  let lost := fun (s : State) =>
    let s := logErr (poisonChunks s [c]) d (if scrub == 1 then 3 else 2)
    (stackEvent s k 17 2 (maskOfAddr s d) (some d), v, true)
  if s.mem.poison.contains c || n == 2 then lost s
  else if n == 0 then (s, v, false)
  else if n == 1 then
    let s := logErr (s.modStack k (fun x => { x with eccCorr := satInc x.eccCorr })) d 1
    (stackEvent s k 16 0 0 (some d), v, false)
  else
    let (i, s) := s.fresh
    if (Config.freeWord i).toNat % 2 == 0 then lost s else (s, (Config.freeWide i).extractLsb' 0 256, false)

/-- Chunks read in turn: their bytes and their poison, a bit each. -/
def readChunks (s : State) (c : Nat) (errs : List Nat) : Nat → State × List Byte × Nat
  | 0 => (s, [], 0)
  | n + 1 =>
    let (s, v, p) := readChunk s c (errs.headD 0) 0
    let (s, bs, q) := readChunks s (c + 1) (errs.drop 1) n
    (s, bytesLE 32 v.toNat ++ bs, bit p + 2 * q)

/-! Attribute words: a compression word, bit 16 SEALED, and the partition whose keys seal the page (07 R209, 17 R484). -/

def attrSealed (c : Nat) : Bool := bitsAt c 16 1 == 1

/-- The attribute word of a leaf for a partition. -/
def attrOf (leaf : DWord) (part : Nat) : Nat :=
  fld leaf 0 46 16 + (if fld leaf 0 1 2 == 1 && flag leaf 0 6 then 2 ^ 16 + put part 17 3 else 0)

/-- Stored bytes of a sealed page, and back: XTS under the partition's keys (17 R484). -/
def sealAt (s : State) (c d : Nat) (bs : List Byte) : List Byte :=
  if attrSealed c then xtsAt true (Tbl.getD s.sec.partKeys (bitsAt c 17 3) 0#512) d bs else bs
def unsealAt (s : State) (c d : Nat) (bs : List Byte) : List Byte :=
  if attrSealed c then xtsAt false (Tbl.getD s.sec.partKeys (bitsAt c 17 3) 0#512) d bs else bs

/-- The attribute word that a request to a direct address carries: that of the Catalogue's entry whose leaf maps it (07 R209). -/
def attrOfAddr (s : State) (part d : Nat) : Nat :=
  let base := fun (l : DWord) => fld l 0 21 25 * 2 ^ 21
  match s.cat.entries.find? (fun e => e.part == part && fld e.leaf 0 1 2 == 1 && decide (base e.leaf ≤ d) && decide (d < base e.leaf + e.bytes)) with
  | some e => attrOf e.leaf part
  | none => 0

/-! Compressed blocks (07 R209 to R220). -/

/-- The tag byte of a block (07 R210). -/
def tagAddr (d : Nat) : Nat := shelfOf d * 2 ^ 33 + tagArea + shelfOff d / 4096

/-- A block's logical bytes and whether it is poisoned; an invalid one sets BAD_BLOCK (07 R212). -/
def fetchBlock (s : State) (base cmp : Nat) (errs : List Nat) : State × List Byte × Bool :=
  if cmpTagged cmp then
    let tag := (s.mem.dram.read (tagAddr base)).toNat
    let used := if tag == 0 || tag > 64 then 0 else tag
    let (s, slot, p) := readChunks s (base / 32) errs (2 * used)
    match decodeBlock cmp tag (unsealAt s cmp base slot) with
    | some bs => (s, bs, p != 0)
    | none => (shEvent s (4 * stackOf base + (base / 4096) % 4) 30 0 0xF 2 (maskOfAddr s base), List.replicate 4096 0#8, true)
  else if cmpMode cmp == 5 then
    let (s, bs, p) := readChunks s (base / 32) errs 64
    (s, narrowLoad (unsealAt s cmp base bs), p != 0)
  else
    let (s, bs, p) := readChunks s (base / 32) errs 128
    (s, unsealAt s cmp base bs, p != 0)

/-- A block stored under a compression word, in the poisoned form where asked; the tag byte last (07 R206, R213, R216). -/
def putBlock (s : State) (base cmp : Nat) (bs : List Byte) (poison : Bool) : State :=
  if cmpTagged cmp then
    if poison then
      let s := rawPut (rawPut s base (sealAt s cmp base bs)) (tagAddr base) [64#8]
      poisonChunks s ((List.range 128).map (fun i => base / 32 + i))
    else
      let (tag, enc) := encodeBlock cmp bs
      rawPut (rawPut s base (sealAt s cmp base enc)) (tagAddr base) [BitVec.ofNat 8 tag]
  else if cmpMode cmp == 5 then
    let s := rawPut s base (sealAt s cmp base (narrowStore bs))
    if poison then poisonChunks s ((List.range 64).map (fun i => base / 32 + i)) else s
  else
    let s := rawPut s base (sealAt s cmp base bs)
    if poison then poisonChunks s ((List.range 128).map (fun i => base / 32 + i)) else s

/-- The copy of a source block at a mirror's destination, in the destination's form (07 R205, R206). -/
def mirrorCopy (s : State) (m : Mirror) (base : Nat) : State :=
  let dst := m.dst + (base - m.src)
  if cmpMode m.cmpSrc == 0 && cmpMode m.cmpNew == 0 then
    let bad := (List.range 128).filter (fun i => s.mem.poison.contains (base / 32 + i))
    poisonChunks (rawPut s dst (s.mem.dram.readN base 4096)) (bad.map (fun i => dst / 32 + i))
  else
    let (s, bs, p) := fetchBlock s base m.cmpSrc []
    putBlock s dst m.cmpNew bs p

/-- Every mirror of the stack that covers a block applies a write to it (07 R205). -/
def mirrorBlock (s : State) (d : Nat) : State :=
  let base := alignDown d 4096
  (List.range 4).foldl (fun s i =>
    match (s.shelver (4 * stackOf base + i)).mirror with
    | some m => if m.src ≤ base && base < m.src + m.bytes then mirrorCopy s m base else s
    | none => s) s

/-- Bytes merged under a mask, bit i for byte i. -/
def mergeBytes (old new : List Byte) (mask : Nat) : List Byte :=
  ((old.zip new).zipIdx).map (fun p => if bitsAt mask p.2 1 == 1 then p.1.2 else p.1.1)

/-- A line's logical data from the arrays, and the poison of its four chunks (06 R168, 07 R212, R220). -/
def fetchLine (s : State) (line cmp : Nat) (errs : List Nat) : State × List Byte × Nat :=
  let d := 128 * line
  let base := alignDown d 4096
  if cmpTagged cmp then
    let (s, bs, p) := fetchBlock s base cmp errs
    (s, (bs.drop (d - base)).take 128, if p then 15 else 0)
  else if cmpMode cmp == 5 then
    let at_ := base + (d - base) / 2
    let (s, bs, p) := readChunks s (at_ / 32) errs 2
    (s, narrowLoad (unsealAt s cmp at_ bs), (if bitsAt p 0 1 == 1 then 3 else 0) + (if bitsAt p 1 1 == 1 then 12 else 0))
  else
    let (s, bs, p) := readChunks s (d / 32) errs 4
    (s, unsealAt s cmp d bs, p)

/-- The chunks of a plain line written under a mask: a chunk covered whole takes the poison given, another keeps its own and takes it too. -/
def putChunks (s : State) (line cmp : Nat) (bs : List Byte) (mask poison : Nat) : State :=
  (List.range 4).foldl (fun s i =>
    let m := bitsAt mask (32 * i) 32
    let new := (bs.drop (32 * i)).take 32
    let d := 128 * line + 32 * i
    let s := if m == 0 then s
      else if m == 2 ^ 32 - 1 then rawPut s d (sealAt s cmp d new)
      else s.modMem (fun x => { x with dram := Mem.writeN x.dram d (sealAt s cmp d (mergeBytes (unsealAt s cmp d (x.dram.readN d 32)) new m)) })
    if m != 0 && bitsAt poison i 1 == 1 then poisonChunks s [d / 32] else s) s

/-- A line stored under a byte mask (06 R151, 07 R213, R220). -/
def storeLine (s : State) (line cmp : Nat) (bs : List Byte) (mask poison : Nat) : State :=
  let d := 128 * line
  let base := alignDown d 4096
  let s :=
    if cmpTagged cmp then
      let (s, old, p) := fetchBlock s base cmp []
      let ln := mergeBytes ((old.drop (d - base)).take 128) bs mask
      putBlock s base cmp (old.take (d - base) ++ ln ++ old.drop (d - base + 128)) (p || poison != 0)
    else if cmpMode cmp == 5 then
      let at_ := base + (d - base) / 2
      let s := rawPut s at_ (sealAt s cmp at_ (narrowStore (mergeBytes (narrowLoad (unsealAt s cmp at_ (s.mem.dram.readN at_ 64))) bs mask)))
      poisonChunks s ((if bitsAt poison 0 2 != 0 then [at_ / 32] else []) ++ (if bitsAt poison 2 2 != 0 then [at_ / 32 + 1] else []))
    else putChunks s line cmp bs mask poison
  mirrorBlock s d

/-! Regulation: what a master is charged (06 R173). -/

/-- Granules charged to a master on a stack. -/
def chargeGranules (s : State) (k : Nat) (rq : Rq) (n : Nat) : State :=
  if rq.master > 43 || n == 0 then s
  else s.modStack k (fun x => { x with usedNow := Tbl.updD x.usedNow rq.master 0 (· + n) })

/-! The memory-side cache (06 R159 to R163). -/

/-- The set of a line (06 R159). -/
def mscSet (d : Nat) : Nat :=
  let l := shelfOff d / 128
  (l % 8192) ^^^ ((l / 8192) % 8192) ^^^ (shelfIndex d <<< 9)

/-- The ways of a partition: the first and their number (06 R160). -/
def partWays (s : State) (p : Nat) : Nat × Nat := let w := 16 / s.nparts; (p % s.nparts * w, w)

/-- The victim of a pseudo-LRU tree of `w` leaves: each node's bit points to the half used less lately. -/
def plruVictim (bits w : Nat) : Nat :=
  ((List.range (log2 w)).foldl (fun node _ => 2 * node + bitsAt bits node 1) 1) - w

/-- The tree after a use of a leaf: each node on its path points away from it. -/
def plruTouch (bits w leaf : Nat) : Nat :=
  ((List.range (log2 w)).foldl (fun (a : Nat × Nat) _ =>
    let node := a.2 / 2
    let away := 1 - a.2 % 2
    (a.1 - (bitsAt a.1 node 1) <<< node + away <<< node, node)) (bits, w + leaf)).1

/-- The lines that the set of a line holds. -/
def mscSetLines (s : State) (d : Nat) : Tbl MscLine :=
  Tbl.keep s.mem.msc (fun l _ => stackOf (128 * l) == stackOf d && mscSet (128 * l) == mscSet d)

/-- Key of a partition's tree in a set. -/
def plruKey (d p : Nat) : Nat := (stackOf d * 8192 + mscSet d) * 8 + p

/-- A use of a way recorded in the tree of the partition that it belongs to. -/
def mscUse (s : State) (d way : Nat) : State :=
  let w := 16 / s.nparts
  let p := way / w
  s.modMem (fun m => { m with plru := Tbl.updD m.plru (plruKey d p) 0 (fun b => plruTouch b w (way % w)) })

/-- The bytes, poison and dirty state of a line's two sectors. -/
def MscLine.bytes (x : MscLine) : List Byte := bytesLE 64 x.s0.data.toNat ++ bytesLE 64 x.s1.data.toNat
def MscLine.poison (x : MscLine) : Nat := x.s0.poison.toNat + 4 * x.s1.poison.toNat
def MscLine.dirtyMask (x : MscLine) : Nat :=
  (if x.s0.valid && x.s0.dirty then 2 ^ 64 - 1 else 0) + (if x.s1.valid && x.s1.dirty then (2 ^ 64 - 1) <<< 64 else 0)
def MscLine.clean (x : MscLine) : MscLine := { x with s0 := { x.s0 with dirty := false }, s1 := { x.s1 with dirty := false } }

def setMscLine (s : State) (line : Nat) (x : MscLine) : State := s.modMem (fun m => { m with msc := Tbl.put m.msc line x })

/-- Every dirty line of a Codex or Abridged block written back together (07 R213). -/
def writeBackBlock (s : State) (rq : Rq) (base cmp : Nat) : State :=
  let lines := (List.range 32).filterMap (fun i => match Tbl.find s.mem.msc (base / 128 + i) with
    | some x => if x.dirtyMask != 0 then some (i, x) else none
    | none => none)
  if lines.isEmpty then s
  else
    let (s, old, p) := fetchBlock s base cmp []
    let whole := lines.length == 32 && lines.all (fun l => l.2.dirtyMask == 2 ^ 128 - 1)
    let bs := lines.foldl (fun bs l => bs.take (128 * l.1) ++ mergeBytes ((bs.drop (128 * l.1)).take 128) l.2.bytes l.2.dirtyMask
      ++ bs.drop (128 * l.1 + 128)) old
    let bad := lines.any (fun l => (l.2.s0.dirty && l.2.s0.poison != 0#2) || (l.2.s1.dirty && l.2.s1.poison != 0#2))
    let s := putBlock s base cmp bs (bad || (p && !whole))
    let s := lines.foldl (fun s l => setMscLine s (base / 128 + l.1) l.2.clean) s
    mirrorBlock (chargeGranules s (stackOf base) rq 64) base

/-- The dirty sectors of a line written back (06 R161). -/
def writeBackLine (s : State) (rq : Rq) (line : Nat) : State :=
  match Tbl.find s.mem.msc line with
  | none => s
  | some x =>
    if x.dirtyMask == 0 then s
    else if cmpTagged x.cmp then writeBackBlock s rq (alignDown (128 * line) 4096) x.cmp
    else
      let s := storeLine s line x.cmp x.bytes x.dirtyMask (((if x.s0.dirty then x.s0.poison.toNat else 0)) + 4 * (if x.s1.dirty then x.s1.poison.toNat else 0))
      setMscLine (chargeGranules s (stackOf (128 * line)) rq (if x.dirtyMask == 2 ^ 128 - 1 && cmpMode x.cmp != 5 then 2 else 1)) line x.clean

/-- A line dropped from the cache. -/
def mscDrop (s : State) (line : Nat) : State := s.modMem (fun m => { m with msc := Tbl.del m.msc line })

/-- A way for a line in the partition's ways: a free one, or the victim's, written back first (06 R160, R161). -/
def mscPlace (s : State) (rq : Rq) (line cmp : Nat) : State :=
  let d := 128 * line
  match Tbl.find s.mem.msc line with
  | some x => mscUse s d x.way
  | none =>
    let (w0, w) := partWays s rq.part
    let held := mscSetLines s d
    let way := match (List.range w).find? (fun i => !held.any (fun e => e.2.way == w0 + i)) with
      | some i => w0 + i
      | none => w0 + plruVictim (Tbl.getD s.mem.plru (plruKey d (w0 / w)) 0) w
    let s := match held.find? (fun e => e.2.way == way) with
      | some e => mscDrop (writeBackLine s rq e.1) e.1
      | none => s
    mscUse (setMscLine s line { way, cmp }) d way

/-- A sector filled from clean data. -/
def fillSector (x : Sector) (data poison : Nat) : Sector :=
  if x.valid then x else { valid := true, dirty := false, poison := BitVec.ofNat 2 poison, data := BitVec.ofNat 512 data }

/-- A line filled from clean data; a sector that is valid stays. -/
def fillLine (s : State) (rq : Rq) (line cmp : Nat) (bs : List Byte) (poison : Nat) : State :=
  let s := mscPlace s rq line cmp
  s.modMem (fun m => { m with msc := Tbl.upd m.msc line (fun x => { x with
    s0 := fillSector x.s0 (natLE (bs.take 64)) (poison % 4), s1 := fillSector x.s1 (natLE (bs.drop 64)) (poison / 4) }) })

/-- ALLOC of a partition on a stack; NO_ALLOCATE behaves as 3 (06 R161). -/
def allocOf (s : State) (k : Nat) (rq : Rq) : Nat :=
  if rq.noAlloc then 3 else bitsAt (s.stack k).mscCtrl.toNat (2 * (rq.part % 8)) 2

/-- A line read through the cache: its bytes and the poison of its chunks (06 R161, 07 R212). -/
def mscRead (s : State) (rq : Rq) (line cmp : Nat) (errs : List Nat := []) : State × List Byte × Nat :=
  let d := 128 * line
  let k := stackOf d
  match Tbl.find s.mem.msc line with
  | some x =>
    if x.s0.valid && x.s1.valid then (mscUse s d x.way, x.bytes, x.poison)
    else
      let (s, bs, p) := fetchLine s line x.cmp errs
      let s := fillLine (chargeGranules s k rq 1) rq line x.cmp bs p
      match Tbl.find s.mem.msc line with
      | some y => (s, y.bytes, y.poison)
      | none => (s, bs, p)
  | none =>
    let alloc := decide (allocOf s k rq ≤ 1)
    if cmpTagged cmp then
      let base := alignDown d 4096
      let (s, bs, p) := fetchBlock s base cmp errs
      let pz := if p then 15 else 0
      let s := chargeGranules s k rq 64
      let s := if alloc then (List.range 32).foldl (fun s i => fillLine s rq (base / 128 + i) cmp ((bs.drop (128 * i)).take 128) pz) s else s
      (s, (bs.drop (d - base)).take 128, pz)
    else
      let (s, bs, p) := fetchLine s line cmp errs
      let s := chargeGranules s k rq (if cmpMode cmp == 5 then 1 else 2)
      (if alloc then fillLine s rq line cmp bs p else s, bs, p)

/-- A sector after a write of some of its bytes: a chunk covered whole takes the new poison, another keeps its own and takes it too. -/
def writeSector (x : Sector) (bs : List Byte) (mask poison : Nat) : Sector :=
  if mask == 0 then x
  else
    let chunkP := fun (i : Nat) =>
      let m := bitsAt mask (32 * i) 32
      let old := bitsAt x.poison.toNat i 1
      if m == 2 ^ 32 - 1 then bitsAt poison i 1 else if m == 0 then old else old ||| bitsAt poison i 1
    { valid := true, dirty := true, poison := BitVec.ofNat 2 (chunkP 0 + 2 * chunkP 1),
      data := BitVec.ofNat 512 (natLE (mergeBytes (bytesLE 64 x.data.toNat) bs mask)) }

/-- A line written through the cache under a byte mask (06 R161). -/
def mscWrite (s : State) (rq : Rq) (line cmp : Nat) (bs : List Byte) (mask poison : Nat) : State :=
  let d := 128 * line
  let k := stackOf d
  let m0 := mask % 2 ^ 64
  let m1 := mask >>> 64
  let held := Tbl.find s.mem.msc line
  if held.isSome || decide (allocOf s k rq % 2 = 0) then
    let full := 2 ^ 64 - 1
    let v0 := (held.map (·.s0.valid)).getD false
    let v1 := (held.map (·.s1.valid)).getD false
    let need := (m0 != 0 && m0 != full && !v0) || (m1 != 0 && m1 != full && !v1)
    let cmp := (held.map (·.cmp)).getD cmp
    let s := mscPlace s rq line cmp
    let s := if need then
        let (s, old, p) := fetchLine s line cmp []
        fillLine (chargeGranules s k rq 1) rq line cmp old p
      else s
    s.modMem (fun m => { m with msc := Tbl.upd m.msc line (fun x => { x with
      s0 := writeSector x.s0 (bs.take 64) m0 (poison % 4), s1 := writeSector x.s1 (bs.drop 64) m1 (poison / 4) }) })
  else chargeGranules (storeLine s line cmp bs mask poison) k rq (bit (m0 != 0) + bit (m1 != 0))

/-! The checks of a request at its controller (06 R153, R155, R157, R158, R543). -/

/-- A request refused with PERMISSION under a flag of SC_STATUS: ERROR to function 0 and to the requester's partition. -/
def refuseRequest (s : State) (rq : Rq) (k b pa : Nat) : State :=
  stackEvent s k b 2 (if rq.bypass then 0 else 2 ^ rq.part) (some ((direct? pa).getD pa))

/-- The direct address that a request reaches, or the state in which it has been refused. -/
def requestCheck (s : State) (rq : Rq) (pa : Nat) : Except State Nat :=
  match direct? pa with
  | none => .error (if inStacks pa then refuseRequest s rq (stackOfPa pa) 26 pa else s)
  | some d =>
    if rq.bypass then .ok d
    else if reservedArea d then .error (refuseRequest s rq (stackOf d) 26 pa)
    else if shelfAllows s rq.part d then .ok d
    else .error (refuseRequest s rq (stackOf d) 25 pa)

end Sys2Proof.Machine
end

