-- ==== Sys2Proof/Machine/Directory.lean ====
section
/-! DEFINITION. The directory and the caching agents: requests, snoops, answers and grants, and what an engine outside the domain does to a line (08_coherence.md R223 to R241, 16_otfold_link.md R451, R452, R460). -/

namespace Sys2Proof.Machine

/-- A part's L1D agent: its Bay and core; companion agents begin at 192 (08 R223). -/
def isL1 (a : Nat) : Bool := decide (a < 192)
def agentBay (a : Nat) : Nat := a / 6
def agentCore (a : Nat) : Nat := a % 6
/-- The Otfold port of a companion agent, and its number there. -/
def agentPort (a : Nat) : Nat := if a < 224 then 0 else 1
def agentNo (a : Nat) : Nat := a % 32

/-- The partitions that an agent's requests serve: its Bay's, or those of the functions that its port serves (06 R157, 16 R448). -/
def agentParts (s : State) (a : Nat) : List Nat :=
  if isL1 a then [s.partOfBay (agentBay a)]
  else (List.range s.mode).filter (fun p => bitsAt (s.ot.port (agentPort a)).ctrl.toNat (3 + p) 1 == 1)

/-- Whether an agent exists and answers: the Bay's wrapper is open, or the companion has given it (08 R223, R240, 16 R460). -/
def agentLive (s : State) (a : Nat) : Bool :=
  if isL1 a then
    let b := s.bay (agentBay a)
    b.wrapper == .open_ && bitsAt b.coreFence.toNat (4 + agentCore a) 1 == 0
  else decide (agentNo a < (s.ot.port (agentPort a)).agents) && bitsAt (s.ot.port (agentPort a)).agentDown.toNat (agentNo a) 1 == 0

/-- A line of an agent's L1D. -/
def l1Find (s : State) (a line : Nat) : Option L1Line := Tbl.find (s.core (agentBay a) (agentCore a)).l1d line
def l1Put (s : State) (a line : Nat) (x : L1Line) : State :=
  s.modCore (agentBay a) (agentCore a) (fun c => { c with l1d := Tbl.put c.l1d line x })
/-- A line dropped from an L1D; a reservation on it is lost (08 R232). -/
def l1Drop (s : State) (a line : Nat) : State :=
  s.modCore (agentBay a) (agentCore a) (fun c => { c with
    l1d := Tbl.del c.l1d line, reservation := if c.reservation.map (· / 128) == some line then none else c.reservation })

/-! Directory entries (08 R228, R229). -/

/-- The set of a line in its home's directory (08 R228). -/
def dirSet (d : Nat) : Nat :=
  let l := shelfOff d / 128
  (l % 16384) ^^^ ((l / 8192) % 8192) ^^^ (shelfIndex d <<< 9)

def setDir (s : State) (line : Nat) (e : DirEntry) : State :=
  s.modMem (fun m => { m with dir := Tbl.put m.dir line { e with used := m.dirClock + 1 }, dirClock := m.dirClock + 1 })
def delDir (s : State) (line : Nat) : State := s.modMem (fun m => { m with dir := Tbl.del m.dir line })

/-- Every agent that a broadcast reaches: L1Ds of the Bays, and companion agents of the ports, of every partition in the Shelf's mask (08 R229). -/
def broadcastSet (s : State) (d : Nat) : List Nat :=
  let mask := shelfMask s (shelfOf d)
  (List.range 256).filter (fun a => agentLive s a && (agentParts s a).any (fun p => bitsAt mask p 1 == 1))

/-- The agents that may hold a line of an entry. -/
def holdersOf (s : State) (line : Nat) (e : DirEntry) : List Nat := if e.bcast then broadcastSet s (128 * line) else e.holders

/-- The owner of an EXCL or OWNED line: the first pointer. -/
def ownerOf (e : DirEntry) : Option Nat := if e.st == .shared then none else e.holders.head?

/-- A holder added; the fourth sets BCAST, and the pointers then name no one but the owner, whom the home keeps. -/
def addHolder (e : DirEntry) (a : Nat) : DirEntry :=
  if e.bcast || e.holders.contains a then e
  else if e.holders.length ≥ 3 then { e with bcast := true, holders := (ownerOf e).toList }
  else { e with holders := e.holders ++ [a] }

/-- Whether an entry lists an agent. -/
def listed (e : DirEntry) (a : Nat) : Bool := e.bcast || e.holders.contains a

/-! What an agent does on a snoop (08 R226, R231, 16 R451). -/

/-- An L1D's answer to a snoop: 0 SNP_SHARE, 1 SNP_INV, 2 SNP_DATA. -/
def l1Answer (s : State) (a line kind : Nat) : State × SnpAns :=
  let none_ : SnpAns := { agent := a, line, st := 0 }
  if !agentLive s a then (s, none_) else
  match l1Find s a line with
  | none => (s, none_)
  | some x =>
    let data (st : Nat) : SnpAns := { agent := a, line, st, poison := x.poison, data := some x.data }
    match kind, x.st with
    | 0, .m => (l1Put s a line { x with st := .o }, data 3)
    | 0, .o => (s, data 3)
    | 0, _ => (l1Put s a line { x with st := .s }, { none_ with st := 1 })
    | 1, .m => (l1Drop s a line, data 2)
    | 1, .o => (l1Drop s a line, data 2)
    | 1, _ => (l1Drop s a line, { none_ with st := 1 })
    | _, .m => (s, data 3)
    | _, .o => (s, data 3)
    | _, _ => (s, none_)

/-- The end of the hold that a snoop of an agent waits for (08 R231): an L1D's own, or 200 ns from the home's grant to a companion agent. -/
def holdEnd (s : State) (a line kind : Nat) : Nat :=
  if kind == 2 then 0
  else if isL1 a then ((l1Find s a line).map (·.holdUntil)).getD 0
  else match Tbl.find s.mem.dir line with
    | some e => if e.grantTo == a then e.grantAt + 200 else 0
    | none => 0

/-! A line in service at its home (08 R226, R230, R237). -/

/-- The requester that a home acts for when it moves data of its own accord (06 R157). -/
def homeRq (p : Nat) : Rq := { part := p, bypass := true }

/-- A whole line written into the cache as dirty (08 R226). -/
def homeWrite (s : State) (p line : Nat) (data : BitVec 1024) (poison : Nat) : State :=
  let cmp := ((Tbl.find s.mem.msc line).map (·.cmp)).getD (((Tbl.find s.mem.dir line).map (·.attr)).getD 0)
  mscWrite s (homeRq p) line cmp (bytesLE 128 data.toNat) (2 ^ 128 - 1) poison

/-- The old and new values of an atomic (16 R452, 07 R198): 0 ADD to 9 CAS, on `w` bits. -/
def amoNew (op w old operand compare : Nat) : Nat :=
  let s := fun (x : Nat) => sext x w
  match op with
  | 0 => (old + operand) % 2 ^ w
  | 1 => old &&& operand
  | 2 => old ||| operand
  | 3 => old ^^^ operand
  | 4 => if s operand < s old then operand else old
  | 5 => if s operand > s old then operand else old
  | 6 => min old operand
  | 7 => max old operand
  | 8 => operand
  | _ => if old == compare then operand else old

/-- Bytes replaced in a line. -/
def patch (bs : List Byte) (off : Nat) (new : List Byte) : List Byte := bs.take off ++ new ++ bs.drop (off + new.length)

/-- Little-endian bytes of a line at an offset. -/
def lineLE (bs : List Byte) (off n : Nat) : Nat := natLE ((bs.drop off).take n)

/-- A far AMO performed at the home on a line that no agent holds: the old value, and whether the data were poisoned; FAR_ATOMICS counts it (08 R233, R242). -/
def farPerform (s : State) (p attr : Nat) (addr op bytes operand compare : Nat) : State × Nat × Bool :=
  let line := addr / 128
  let (s, bs, pz) := mscRead s (homeRq p) line attr
  let k := stackOf (128 * line)
  let off := addr % 128
  let s := s.modStack k (fun x => { x with farAtomics := satInc x.farAtomics, farLines := NSet.ins x.farLines line })
  if bitsAt pz (off / 32) 1 == 1 then (s, 0, true)
  else
    let old := lineLE bs off bytes
    let w := 8 * bytes
    let new := amoNew op w old (operand % 2 ^ w) (compare % 2 ^ w)
    (mscWrite s (homeRq p) line attr (patch bs off (bytesLE bytes new)) ((2 ^ bytes - 1) <<< off) 0, old, false)

def setTxn (s : State) (line : Nat) (t : HomeTxn) : State := s.modMem (fun m => { m with txns := Tbl.put m.txns line t })
def delTxn (s : State) (line : Nat) : State := s.modMem (fun m => { m with txns := Tbl.del m.txns line })
def pushGrant (s : State) (g : Grant) : State := s.modMem (fun m => { m with grants := m.grants ++ [g] })

/-- The data a grant carries: what a holder returned, or the home's own. -/
def txnData (s : State) (line : Nat) (t : HomeTxn) (rq : Rq) : State × BitVec 1024 × BitVec 4 :=
  match t.data with
  | some d => (s, d, if t.poison then 15#4 else 0#4)
  | none =>
    let (s, bs, p) := mscRead s rq line t.attr
    (s, BitVec.ofNat 1024 (natLE bs), BitVec.ofNat 4 p)

/-- A request whose answers are all in: the directory and the grant of R226, the far AMO of R233, or what an outside engine waits for (R237). -/
def finishTxn (s : State) (line : Nat) : State :=
  match Tbl.find s.mem.txns line with
  | none => s
  | some t =>
    if !t.await.isEmpty then s else
    let s := delTxn s line
    let rq := homeRq t.part
    let way := ((Tbl.find s.mem.dir line).map (·.way)).getD 0
    let keep := fun (s : State) => match t.data with
      | some d => if t.kept then s else homeWrite s t.part line d (if t.poison then 15 else 0)
      | none => s
    match t.req with
    | .rdShared a =>
      let (s, d, p) := txnData s line t rq
      let others := t.stay.filter (· != a)
      let old := (Tbl.find s.mem.dir line)
      let bc := (old.map (·.bcast)).getD false
      if (old.map (·.st)) == some .excl && !t.snooped then
        pushGrant (setDir s line { st := .excl, holders := [a], way, attr := t.attr }) { agent := a, line, st := 1, poison := p, data := some d }
      else
        let st : DirState := if t.kept && t.owner.isSome && t.owner != some a then .owned else .shared
        pushGrant (setDir s line (addHolder { st, holders := others, way, bcast := bc, attr := t.attr } a)) { agent := a, line, st := 0, poison := p, data := some d }
    | .rdOwn a =>
      let (s, d, p) := txnData s line t rq
      let s := keep s
      pushGrant (setDir s line { st := .excl, holders := [a], way, attr := t.attr }) { agent := a, line, st := 2, poison := p, data := some d }
    | .upgrade a =>
      pushGrant (setDir s line { st := .excl, holders := [a], way, attr := t.attr }) { agent := a, line, st := 2 }
    | .recallLine => delDir (keep s) line
    | .farAmo a tag addr op bytes operand =>
      let s := delDir (keep s) line
      let (s, old, bad) := farPerform s t.part t.attr addr op bytes (operand % 2 ^ 64) (operand / 2 ^ 64)
      let s := s.modStack (stackOf (128 * line)) (fun k => { k with answer := some { status := 0, poison := bad, data := bytesLE bytes old } })
      if isL1 a then s
      else s.modOt (fun o => { o with out := o.out ++ [.data (agentPort a) 0 tag 0 bad (bytesLE bytes old)] })
    | .outside false => match t.data with
      | some d => s.modMem (fun m => { m with copies := Tbl.put m.copies line d })
      | none => s
    | .outside true => delDir (keep s) line

/-- The answer of one agent taken by the home (08 R226, R239, 16 R451). -/
def takeAnswer (s : State) (x : SnpAns) : State :=
  match Tbl.find s.mem.txns x.line with
  | none => s
  | some t =>
    if !t.await.contains x.agent then s else
    let t := { t with await := NSet.rem t.await x.agent }
    let t := if x.st ≥ 2 && x.data.isSome then { t with data := x.data, poison := x.poison != 0#4, kept := x.st == 3 } else t
    let t := if x.st == 0 then { t with stay := t.stay.filter (· != x.agent), owner := if t.owner == some x.agent then none else t.owner } else t
    finishTxn (setTxn s x.line t) x.line

/-- A request taken into service: snoops sent to the agents of `targets`. Where `inline` is set, a part's L1Ds are answered
for at once, after their holds; the others' snoops go on their way. -/
def serve (s : State) (line : Nat) (t : HomeTxn) (targets : List Nat) (kind : Nat) (inline : Bool) : State :=
  let dl := s.now + max 1 ((s.stack (stackOf (128 * line))).snoopDeadline.toNat % 65536) * us
  let s := setTxn s line { t with await := targets.foldl NSet.ins [], deadline := dl, snooped := !targets.isEmpty }
  if targets.isEmpty then finishTxn s line
  else targets.foldl (fun s a =>
    if !agentLive s a then takeAnswer s { agent := a, line, st := 0 }
    else if inline && isL1 a then
      let s := reach s (holdEnd s a line kind)
      let (s, x) := l1Answer s a line kind
      takeAnswer s x
    else s.modMem (fun m => { m with snoops := m.snoops ++ [{ agent := a, line, kind }] })) s

/-- The directory's way for a line in its partition's ways: one that is free, or the least recently used entry's line (08 R228, R230). -/
def dirWay (s : State) (line p : Nat) : Nat × Option Nat :=
  let d := 128 * line
  let (w0, w) := partWays s p
  let held := Tbl.keep s.mem.dir (fun l _ => stackOf (128 * l) == stackOf d && dirSet (128 * l) == dirSet d)
  match (List.range w).find? (fun i => !held.any (fun e => e.2.way == w0 + i)) with
  | some i => (w0 + i, none)
  | none =>
    let mine := held.filter (fun e => decide (w0 ≤ e.2.way) && decide (e.2.way < w0 + w))
    match mine with
    | [] => (w0, none)
    | e :: es =>
      let v := es.foldl (fun a b => if b.2.used < a.2.used then b else a) e
      (v.2.way, some v.1)

/-- A recall of an entry that makes room (08 R230). -/
def recallEntry (s : State) (line p : Nat) (inline : Bool) : State :=
  match Tbl.find s.mem.dir line with
  | none => s
  | some e =>
    let k := stackOf (128 * line)
    let s := s.modStack k (fun x => { x with dirRecalls := satInc x.dirRecalls })
    serve s line { req := .recallLine, part := p } (holdersOf s line e) 1 inline

/-- A coherent request taken by the home (08 R226). It waits, and is to be made again, while another request of the line or a recall is in service. -/
def homeRequest (s : State) (line p a attr : Nat) (req : HomeReq) (inline : Bool) : State :=
  if Tbl.has s.mem.txns line then s else
  let s := s.modMem (fun m => { m with copies := Tbl.del m.copies line })
  match Tbl.find s.mem.dir line with
  | none =>
    let far := match req with
      | .farAmo .. => true
      | _ => false
    match dirWay s line p with
    | (w, v) =>
      if far then serve s line { req, part := p, attr } [] 0 inline
      else match v with
        | some v => recallEntry s v p inline
        | none =>
          let req := match req with
            | .upgrade a => .rdOwn a
            | r => r
          serve (setDir s line { st := .excl, holders := [a], way := w, attr }) line { req, part := p, attr } [] 0 inline
  | some e =>
    let own := ownerOf e
    let hs := (holdersOf s line e).filter (· != a)
    let t : HomeTxn := { req, part := p, attr, owner := own, stay := e.holders.filter (· != a) }
    match req with
    | .rdShared _ =>
      match e.st, own with
      | .excl, some o => if o == a then serve s line t [] 0 inline else serve s line t [o] 0 inline
      | .owned, some o => if o == a then serve s line t [] 2 inline else serve s line { t with kept := true } [o] 2 inline
      | _, _ => serve s line t [] 0 inline
    | .upgrade _ =>
      if listed e a then serve s line t hs 1 inline else serve s line { t with req := .rdOwn a } hs 1 inline
    | _ => serve s line t (if req == .rdOwn a then hs else holdersOf s line e) 1 inline

/-- A WRITEBACK: dirty data return and the owner leaves; one that meets a snoop in flight stands for its answer (08 R226, R241). -/
def homeWriteback (s : State) (line p a : Nat) (poison : BitVec 4) (data : BitVec 1024) : State :=
  match Tbl.find s.mem.txns line with
  | some t => if t.await.contains a then takeAnswer s { agent := a, line, st := 2, poison, data := some data } else s
  | none =>
    match Tbl.find s.mem.dir line with
    | none => s
    | some e =>
      if ownerOf e != some a then s
      else
        let s := homeWrite s p line data poison.toNat
        let rest := e.holders.drop 1
        if rest.isEmpty && !e.bcast then delDir s line else setDir s line { e with st := .shared, holders := rest }

/-- A CLEAN_EVICT: its agent leaves the entry (08 R226). -/
def homeCleanEvict (s : State) (line a : Nat) : State :=
  match Tbl.find s.mem.dir line with
  | none => s
  | some e =>
    if e.bcast then s
    else if !e.holders.contains a then s
    else
      let rest := e.holders.filter (· != a)
      if rest.isEmpty then delDir s line
      else setDir s line { e with holders := rest, st := if ownerOf e == some a then .shared else e.st }

/-! Engines outside the domain (08 R237). -/

/-- Whether an outside read of a line can go on: a part's own holder gives its copy at once, a companion's is asked for. -/
def outsideRead (s : State) (line p : Nat) : State × Bool :=
  if Tbl.has s.mem.txns line then (s, false)
  else if Tbl.has s.mem.copies line then (s, true)
  else match Tbl.find s.mem.dir line with
    | none => (s, true)
    | some e => match ownerOf e with
      | none => (s, true)
      | some o =>
        let s := serve s line { req := .outside false, part := p, owner := some o } [o] 2 true
        (s, !Tbl.has s.mem.txns line)

/-- Whether an outside write of a line can go on: every holder is invalidated, and dirty data returned go into the cache. -/
def outsideWrite (s : State) (line p : Nat) : State × Bool :=
  if Tbl.has s.mem.txns line then (s, false)
  else
    let s := s.modMem (fun m => { m with copies := Tbl.del m.copies line })
    match Tbl.find s.mem.dir line with
    | none => (s, true)
    | some e =>
      let s := serve s line { req := .outside true, part := p, owner := ownerOf e } (holdersOf s line e) 1 true
      (s, !Tbl.has s.mem.txns line)

/-- What an engine's access comes to: it goes on; it waits for a companion's answer or for a request in service, and is to be
made again; or it is refused, with the address. -/
inductive Got (α : Type) where
  | ok (s : State) (a : α)
  | wait (s : State)
  | bad (s : State) (pa : Nat)

/-- The pieces of a byte range that lie in one line each: first byte and length. -/
def linePieces (pa n : Nat) : List (Nat × Nat) :=
  if n == 0 then []
  else
    let k := (pa + n - 1) / 128 - pa / 128 + 1
    (List.range k).map (fun i =>
      let a := if i == 0 then pa else (pa / 128 + i) * 128
      (a, min (pa + n) ((pa / 128 + i + 1) * 128) - a))

/-- The lines of a range made ready for reading or writing: checks first, then snoops (06 R155, 08 R237). -/
def prepare (s : State) (rq : Rq) (write : Bool) : List (Nat × Nat) → Got (List (Nat × Nat))
  | [] => .ok s []
  | (pa, n) :: rest =>
    match requestCheck s rq pa with
    | .error s => .bad s pa
    | .ok d =>
      let (s, go) := if write then outsideWrite s (d / 128) rq.part else outsideRead s (d / 128) rq.part
      match prepare s rq write rest with
      | .ok s ds => if go then .ok s ((d, n) :: ds) else .wait s
      | .wait s => .wait s
      | .bad s pa => .bad s pa

/-- Bytes of ready lines: their values and whether any chunk of them is poisoned (06 R169). -/
def takeBytes (s : State) (rq : Rq) (cmp : Nat) (errs : List Nat) : List (Nat × Nat) → State × List Byte × Bool
  | [] => (s, [], false)
  | (d, n) :: rest =>
    let line := d / 128
    let (s, bs, p) := match Tbl.find s.mem.copies line with
      | some x => (s.modMem (fun m => { m with copies := Tbl.del m.copies line }), bytesLE 128 x.toNat, 0)
      | none => mscRead s rq line cmp errs
    let off := d % 128
    let bad := (List.range 4).any (fun i => bitsAt p i 1 == 1 && decide (32 * i < off + n) && decide (off < 32 * (i + 1)))
    let (s, more, worse) := takeBytes s rq cmp [] rest
    (s, (bs.drop off).take n ++ more, bad || worse)

/-- Bytes put into ready lines. -/
def putBytes (s : State) (rq : Rq) (cmp : Nat) (poison : Bool) (bs : List Byte) : List (Nat × Nat) → State
  | [] => s
  | (d, n) :: rest =>
    let off := d % 128
    let s := mscWrite s rq (d / 128) cmp (List.replicate off 0#8 ++ bs.take n ++ List.replicate (128 - off - n) 0#8)
      ((2 ^ n - 1) <<< off) (if poison then 15 else 0)
    putBytes s rq cmp poison (bs.drop n) rest

/-- An outside engine's read of a physical range. -/
def engineRead (s : State) (rq : Rq) (cmp pa n : Nat) (errs : List Nat := []) : Got (List Byte × Bool) :=
  match prepare s rq false (linePieces pa n) with
  | .ok s ds => let (s, bs, p) := takeBytes s rq cmp errs ds; .ok s (bs, p)
  | .wait s => .wait s
  | .bad s a => .bad s a

/-- An outside engine's write of a physical range. -/
def engineWrite (s : State) (rq : Rq) (cmp pa : Nat) (bs : List Byte) (poison : Bool := false) : Got Unit :=
  match prepare s rq true (linePieces pa bs.length) with
  | .ok s ds => .ok (putBytes s rq cmp poison bs ds) ()
  | .wait s => .wait s
  | .bad s a => .bad s a

/-- A number read from memory without a check: the Registrar's reads of tables and rings (06 R157). -/
def regRead (s : State) (pa n : Nat) : Got (List Byte × Bool) := engineRead s { master := 42, bypass := true } 0 pa n

/-! Events of coherence (08 R239, R240, R242). -/

/-- An event of COH_STATUS: its flag and the agent. -/
def cohEvent (s : State) (k b agent sev parts : Nat) (addr : Option Nat) : State :=
  let r := statusEvent (s.stack k).cohStatus (2 ^ b + 0x7F80000) (2 ^ b + put agent 19 8)
  postError (s.modStack k (fun x => { x with cohStatus := r }))
    { block := 6, inst := k, cause := b, sev, parts, off := 0x408, addr, seq := evtSeq r, reg := r.toNat }

/-- The partition in whose Shelves a line lies, as a mask. -/
def partMaskOf (s : State) (d : Nat) : Nat := if s.mode == 0 then 0 else 2 ^ partOfAddr s d

/-- A line written poisoned at its home (08 R239, R240). -/
def poisonLine (s : State) (line agent : Nat) : State :=
  let p := partOfAddr s (128 * line)
  let (s, bs, _) := mscRead s (homeRq p) line (((Tbl.find s.mem.dir line).map (·.attr)).getD 0)
  cohEvent (homeWrite s p line (BitVec.ofNat 1024 (natLE bs)) 15) (stackOf (128 * line)) 17 agent 2 (partMaskOf s (128 * line)) (some (128 * line))

/-- Every line that an agent holds is taken from the directory; those it owned in M or O are written poisoned (08 R240, 16 R460). -/
def dropAgent (s : State) (a : Nat) (owned : Nat → Bool) : State :=
  let mine := Tbl.keep s.mem.dir (fun _ e => e.holders.contains a)
  let s := mine.foldl (fun s e =>
    let s := if ownerOf e.2 == some a && owned e.1 then poisonLine s e.1 a else s
    let rest := e.2.holders.filter (· != a)
    if rest.isEmpty && !e.2.bcast then delDir s e.1
    else setDir s e.1 { e.2 with holders := rest, st := if ownerOf e.2 == some a then .shared else e.2.st }) s
  let waits := Tbl.keep s.mem.txns (fun _ t => t.await.contains a)
  waits.foldl (fun s t => takeAnswer s { agent := a, line := t.1, st := 0 }) s

/-- A fenced core's lines: FENCED_AGENT on each stack, and its L1D empty (08 R240). -/
def fenceAgent (s : State) (a : Nat) : State :=
  let held := (s.core (agentBay a) (agentCore a)).l1d
  let dirty := fun (l : Nat) => match Tbl.find held l with
    | some x => x.st == .m || x.st == .o
    | none => false
  let s := dropAgent s a dirty
  let s := s.modCore (agentBay a) (agentCore a) (fun c => { c with l1d := [], reservation := none })
  (List.range 8).foldl (fun s k => if held.any (fun l => stackOf (128 * l.1) == k) then
    cohEvent s k 18 a 2 (2 ^ s.partOfBay (agentBay a)) none else s) s

/-- An L1D written back and invalidated line by line (08 R240). -/
def flushL1 (s : State) (a : Nat) : State :=
  let held := (s.core (agentBay a) (agentCore a)).l1d
  let p := s.partOfBay (agentBay a)
  held.foldl (fun s l =>
    let s := if l.2.st == .m || l.2.st == .o then homeWriteback s l.1 p a l.2.poison l.2.data else homeCleanEvict s l.1 a
    l1Drop s a l.1) s

end Sys2Proof.Machine
end

