-- ==== Sys2Proof/Machine/MoverDesc.lean ====
section
/-! DEFINITION. Bay memory as the bank test leaves it, mover descriptors, their runs, their checks, and groups in the ring (03_bays.md R60, R69 to R71, R75). -/

namespace Sys2Proof.Machine

/-- Bytes of Bay memory, of a bank and of a test region (03 R60, R75). -/
def bayBytes : Nat := 0x1800000
def bankBytes : Nat := 0x180000
def regionBytes : Nat := 0x1000

/-! Reading and writing Bay memory under the transparent bank test (03 R75 to R77). -/

/-- Bay offset of a region, numbered bank × 384 + region. -/
def regionBase (r : Nat) : Nat := r * regionBytes

/-- The region under test. -/
def TestEngine.current (t : TestEngine) : Nat := t.bank * 384 + t.region

/-- One byte read: the bank's, or the shadow's in TEST and RESTORE and of a region left redirected. -/
def Bay.readByte (x : Bay) (o : Nat) : Byte :=
  let r := o / regionBytes
  match Tbl.find x.test.redirected r with
  | some m => Mem.read m (o % regionBytes)
  | none => if x.test.state ≥ 2 && x.test.current == r then Mem.read x.test.shadow (o % regionBytes) else Mem.read x.mem o

/-- One byte written: to the bank, to both in COPY and RESTORE, to the shadow alone in TEST. -/
def Bay.writeByte (x : Bay) (o : Nat) (b : Byte) : Bay :=
  let r := o / regionBytes
  match Tbl.find x.test.redirected r with
  | some m => { x with test := { x.test with redirected := Tbl.put x.test.redirected r (Mem.write m (o % regionBytes) b) } }
  | none =>
    if x.test.state != 0 && x.test.current == r then
      let t := { x.test with shadow := Mem.write x.test.shadow (o % regionBytes) b }
      if x.test.state == 2 then { x with test := t } else { x with test := t, mem := Mem.write x.mem o b }
    else { x with mem := Mem.write x.mem o b }

def Bay.read (x : Bay) (o n : Nat) : List Byte := (List.range n).map (fun i => x.readByte (o + i))
def Bay.write (x : Bay) (o : Nat) (bs : List Byte) : Bay := (bs.zipIdx).foldl (fun x b => x.writeByte (o + b.2) b.1) x
def Bay.readLE (x : Bay) (o n : Nat) : Nat := natLE (x.read o n)

/-! A descriptor's fields (03 R69). -/
namespace Mv
def op (d : BitVec 512) : Nat := fld d 0 0 8
def notify (d : BitVec 512) : Bool := flag d 0 8
def ordered (d : BitVec 512) : Bool := flag d 0 10
def noAlloc (d : BitVec 512) : Bool := flag d 0 11
def call (d : BitVec 512) : Nat := fld d 0 16 16
def tag (d : BitVec 512) : Nat := fld d 0 32 32
def memVa (d : BitVec 512) : Nat := fld d 8 0 57
def source (d : BitVec 512) : Nat := fld d 8 0 25
def bayAddr (d : BitVec 512) : Nat := fld d 0x10 0 25
def xBytes (d : BitVec 512) : Nat := fld d 0x10 32 32
def yCount (d : BitVec 512) : Nat := fld d 0x18 0 16
def zCount (d : BitVec 512) : Nat := fld d 0x18 16 16
def groupCount (d : BitVec 512) : Nat := fld d 0x18 32 6
def strideY (d : BitVec 512) : Int := sext (fld d 0x20 0 48) 48
def strideZ (d : BitVec 512) : Int := sext (fld d 0x28 0 48) 48
def bayStrideY (d : BitVec 512) : Nat := fld d 0x30 0 25
def bayStrideZ (d : BitVec 512) : Nat := fld d 0x30 32 25
def pattern (d : BitVec 512) : Nat := fld d 0x38 0 64

/-- Whether the descriptor moves data to or from memory by virtual addresses. -/
def usesMemory (d : BitVec 512) : Bool := op d == 1 || op d == 2 || op d == 5
/-- Whether it touches Bay memory at BAY_ADDR. -/
def usesBay (d : BitVec 512) : Bool := decide (1 ≤ op d) && decide (op d ≤ 4)

/-- The runs in transfer order: planes, then runs in a plane; the address in memory (or the source in the Bay) and the Bay offset. -/
def runs (d : BitVec 512) : List (Int × Nat) :=
  let base : Int := if op d == 3 then source d else memVa d
  (List.range (zCount d)).flatMap (fun (z : Nat) => (List.range (yCount d)).map (fun (y : Nat) =>
    (base + y * strideY d + z * strideZ d, bayAddr d + y * bayStrideY d + z * bayStrideZ d)))

/-- Virtual addresses are 57 bits (09 R243). -/
def va (a : Int) : Nat := toBits a 57

/-- Bytes that the descriptor moves. -/
def bytes (d : BitVec 512) : Nat := xBytes d * yCount d * zCount d

/-- Whether the shape holds: of a TILE_BEGIN its group, of another descriptor its counts (03 R70, BAD_SHAPE). -/
def shapeOk (d : BitVec 512) (ring : Nat) : Bool :=
  if op d == 0 then groupCount d != 0 && decide (groupCount d + 1 ≤ ring)
  else xBytes d != 0 && xBytes d % 4 == 0 && yCount d != 0 && zCount d != 0

/-- The first Bay offset outside Bay memory, in transfer order, source before destination (03 R70, BAY_RANGE). -/
def firstOutside (d : BitVec 512) : Option Nat :=
  (runs d).findSome? (fun r =>
    let out := fun (o : Int) => if o < 0 then some (toBits o 25) else if o + xBytes d > bayBytes then some (max o.toNat bayBytes % 2 ^ 25) else none
    if op d == 3 then (out r.1).orElse (fun _ => out r.2) else out r.2)

/-- The checks of causes 1 to 3 on a descriptor: cause and address; a TILE_BEGIN and a PREFETCH touch no Bay memory. -/
def badDesc (d : BitVec 512) (ring : Nat) : Option (Nat × Nat) :=
  if op d > 5 then some (1, 0)
  else if !shapeOk d ring then some (2, 0)
  else if usesBay d then (firstOutside d).map (fun o => (3, o))
  else none

/-- Whether the descriptor touches an address's 2 MiB page. -/
def touches (d : BitVec 512) (a : Nat) : Bool :=
  usesMemory d && (runs d).any (fun r => decide (va r.1 / 2 ^ 21 ≤ a / 2 ^ 21) && decide (a / 2 ^ 21 ≤ (va r.1 + xBytes d - 1) / 2 ^ 21))

/-- The first addresses of its pages, in transfer order, each page once (03 R71). -/
def pages (d : BitVec 512) : List Nat :=
  let all := (runs d).flatMap (fun r =>
    let a := va r.1
    (List.range ((a + xBytes d - 1) / 2 ^ 21 - a / 2 ^ 21 + 1)).map (fun i => if i == 0 then a else (a / 2 ^ 21 + i) * 2 ^ 21))
  all.foldl (fun acc a => if acc.any (fun b => b / 2 ^ 21 == a / 2 ^ 21) then acc else acc ++ [a]) []
end Mv

/-! The ring and its groups (03 R69, R71). -/

/-- MOVERp_RING_SIZE's entries, and the Bay offset of its base. -/
def MoverPort.size (m : MoverPort) : Nat := m.ringSize.toNat % 128
def MoverPort.base (m : MoverPort) : Nat := bitsAt m.ringBase.toNat 8 17 * 256

/-- The descriptor of a free-running index. -/
def ringDesc (x : Bay) (m : MoverPort) (i : Nat) : BitVec 512 :=
  BitVec.ofNat 512 (x.readLE (m.base + (i % 65536 % max m.size 1) * 64) 64)

/-- Index of the next descriptor to start. -/
def MoverPort.next (m : MoverPort) : Nat := (m.rd + m.started.length) % 65536
/-- Descriptors up to WR that have not started. -/
def MoverPort.waiting (m : MoverPort) : Nat := (m.wr + 65536 - m.next) % 65536

/-- Descriptors of the group that begins at the next index: the TILE_BEGIN and those that follow, or one alone. -/
def groupLen (d : BitVec 512) : Nat := if Mv.op d == 0 then Mv.groupCount d + 1 else 1

/-- The descriptors of the group that begins next, in order. -/
def groupDescs (x : Bay) (m : MoverPort) : List (BitVec 512) :=
  (List.range (groupLen (ringDesc x m m.next))).map (fun i => ringDesc x m (m.next + i))

/-- Index in its group, and TAG, of the first descriptor of the next group that touches a page (03 R70). -/
def groupFailing (x : Bay) (m : MoverPort) (a : Nat) : Nat × Nat :=
  match (groupDescs x m).zipIdx.find? (fun d => Mv.touches d.1 a) with
  | some (d, i) => (i, Mv.tag d)
  | none => (0, Mv.tag (ringDesc x m m.next))

end Sys2Proof.Machine
end

