-- ==== Sys2Proof/Machine/MatrixDesc.lean ====
section
/-! DEFINITION. Tile-operation descriptors, what each one reads and writes, what a reset of a matrix core leaves, and what an ended descriptor leaves (04_matrix_operations.md R94 to R98, R100, R119, R123). -/

namespace Sys2Proof.Machine

/-! The fields of a descriptor (04 R98). -/
namespace Mx
def op (d : BitVec 1024) : Nat := fld d 0 0 8
def fence (d : BitVec 1024) : Bool := flag d 0 8
def trapAo (d : BitVec 1024) : Bool := flag d 0 9
def sat (d : BitVec 1024) : Bool := flag d 0 10
def transpose (d : BitVec 1024) : Bool := flag d 0 11
def tierF (d : BitVec 1024) : Bool := flag d 0 12
def biasEn (d : BitVec 1024) : Bool := flag d 0 13
def mxDir (d : BitVec 1024) : Bool := flag d 0 14
def fmtA (d : BitVec 1024) : Nat := fld d 0 16 5
def fmtB (d : BitVec 1024) : Nat := fld d 0 21 5
def fmtOut (d : BitVec 1024) : Nat := fld d 0 26 5
def rnd (d : BitVec 1024) : Nat := fld d 0 32 3
def anchorMode (d : BitVec 1024) : Nat := fld d 0 35 2
def terms (d : BitVec 1024) : Nat := fld d 0 37 5
def tag (d : BitVec 1024) : Nat := fld d 0 48 16
def m (d : BitVec 1024) : Nat := fld d 8 0 8
def n (d : BitVec 1024) : Nat := fld d 8 8 8
def k (d : BitVec 1024) : Nat := fld d 8 16 20
def anchor (d : BitVec 1024) : Int := sext (fld d 8 36 13) 13
def act (d : BitVec 1024) : Nat := fld d 8 49 4
def aOff (d : BitVec 1024) : Nat := fld d 0x10 0 20
def aPitch (d : BitVec 1024) : Nat := fld d 0x10 20 20
def aScale (d : BitVec 1024) : Nat := fld d 0x10 40 20
def bOff (d : BitVec 1024) : Nat := fld d 0x18 0 20
def bPitch (d : BitVec 1024) : Nat := fld d 0x18 20 20
def bScale (d : BitVec 1024) : Nat := fld d 0x18 40 20
def scalePitch (d : BitVec 1024) : Nat := fld d 0x20 0 20
def bayAddr (d : BitVec 1024) : Nat := fld d 0x28 0 25
def bayPitch (d : BitVec 1024) : Nat := fld d 0x28 32 25
def rows (d : BitVec 1024) : Nat := fld d 0x30 0 16
def rowBytes (d : BitVec 1024) : Nat := fld d 0x30 16 21
def biasAddr (d : BitVec 1024) : Nat := fld d 0x38 0 25
def auxAddr (d : BitVec 1024) : Nat := fld d 0x38 32 25
def alpha (d : BitVec 1024) : Nat := fld d 0x40 0 32
def stream (d : BitVec 1024) : Nat := fld d 0x40 32 16
def originRow (d : BitVec 1024) : Nat := fld d 0x48 0 24
def originCol (d : BitVec 1024) : Nat := fld d 0x48 24 24
def inH (d : BitVec 1024) : Nat := fld d 0x50 0 16
def inW (d : BitVec 1024) : Nat := fld d 0x50 16 16
def inC (d : BitVec 1024) : Nat := fld d 0x50 32 16
def outW (d : BitVec 1024) : Nat := fld d 0x50 48 16
def kh (d : BitVec 1024) : Nat := fld d 0x58 0 4
def kw (d : BitVec 1024) : Nat := fld d 0x58 4 4
def strideH (d : BitVec 1024) : Nat := fld d 0x58 8 4
def strideW (d : BitVec 1024) : Nat := fld d 0x58 12 4
def dilH (d : BitVec 1024) : Nat := fld d 0x58 16 4
def dilW (d : BitVec 1024) : Nat := fld d 0x58 20 4
def padT (d : BitVec 1024) : Nat := fld d 0x58 24 4
def padL (d : BitVec 1024) : Nat := fld d 0x58 28 4
def outP0 (d : BitVec 1024) : Nat := fld d 0x58 32 16
def outQ0 (d : BitVec 1024) : Nat := fld d 0x58 48 16

/-- Element width of a format code; a reserved one counts as a byte. -/
def width (code : Nat) : Nat := match Fmt.ofCode code with | some f => f.width | none => 8
/-- Whether a code names an MX format. -/
def isMx (code : Nat) : Bool := match Fmt.ofCode code with | some f => f.isMx | none => false
/-- Bytes of n elements. -/
def bytesOf (code n : Nat) : Nat := (width code * n + 7) / 8

/-- Element size in bytes of a transposed move (04 R101, R116). -/
def elem (d : BitVec 1024) : Nat := width (fmtA d) / 8
/-- Rows and row bytes of the source, and of the destination, of a move (04 R116). -/
def srcShape (d : BitVec 1024) : Nat × Nat := (rows d, rowBytes d)
def dstShape (d : BitVec 1024) : Nat × Nat := if transpose d then (rowBytes d / max (elem d) 1, rows d * elem d) else (rows d, rowBytes d)
end Mx

/-- Rows of bytes that a descriptor touches, in Bay memory or in the operand store. -/
structure MxRange where
  bay : Bool
  off : Nat
  pitch : Nat
  rows : Nat
  bytes : Nat
  /-- Whether offset and pitch must be multiples of 32, and (in the store) a row must fit its pitch (04 R98, R103). -/
  strict : Bool := true
  deriving DecidableEq, Repr

/-- What a descriptor reads and writes (04 R97). -/
structure MxUse where
  rd : List MxRange := []
  wr : List MxRange := []
  accRd : Bool := false
  accWr : Bool := false
  ancRd : Bool := false
  ancWr : Bool := false
  deriving DecidableEq, Repr

/-- An operand panel and its scales. -/
def mxPanel (code off pitch scale spitch rows k : Nat) : List MxRange :=
  { bay := false, off, pitch, rows, bytes := Mx.bytesOf code k }
    :: (if Mx.isMx code then [{ bay := false, off := scale, pitch := spitch, rows, bytes := (k + 31) / 32, strict := false }] else [])

/-- A row list on one side of a move. -/
def mxSide (d : BitVec 1024) (bay : Bool) (sh : Nat × Nat) : MxRange :=
  if bay then { bay, off := Mx.bayAddr d, pitch := Mx.bayPitch d, rows := sh.1, bytes := sh.2 }
  else { bay, off := Mx.aOff d, pitch := Mx.aPitch d, rows := sh.1, bytes := sh.2 }

/-- The resources of a descriptor (04 R97, R99). -/
def mxUse (d : BitVec 1024) : MxUse :=
  let a := fun (r : Nat) => mxPanel (Mx.fmtA d) (Mx.aOff d) (Mx.aPitch d) (Mx.aScale d) (Mx.scalePitch d) r (Mx.k d)
  let b := mxPanel (Mx.fmtB d) (Mx.bOff d) (Mx.bPitch d) (Mx.bScale d) (Mx.scalePitch d) (Mx.n d) (Mx.k d)
  let region := fun (bytes : Nat) => ({ bay := true, off := Mx.bayAddr d, pitch := Mx.bayPitch d, rows := Mx.m d, bytes } : MxRange)
  let aux := fun (bytes : Nat) => ({ bay := true, off := Mx.auxAddr d, pitch := 0, rows := 1, bytes, strict := false } : MxRange)
  match Mx.op d with
  | 1 => { rd := [mxSide d true (Mx.srcShape d)], wr := [mxSide d false (Mx.dstShape d)] }
  | 2 => { rd := [mxSide d false (Mx.srcShape d)], wr := [mxSide d true (Mx.dstShape d)] }
  | 3 => { accWr := true, ancWr := true }
  | 4 => { rd := a (Mx.m d) ++ b, ancRd := true, ancWr := true }
  | 5 | 6 => { rd := a (Mx.m d) ++ b, accRd := true, accWr := true, ancRd := true, ancWr := true }
  | 7 => { rd := [{ bay := false, off := Mx.aOff d, pitch := Mx.aPitch d, rows := Mx.inH d * Mx.inW d, bytes := Mx.bytesOf (Mx.fmtA d) (Mx.inC d) },
                  { bay := false, off := Mx.bOff d, pitch := Mx.bPitch d, rows := Mx.n d, bytes := Mx.bytesOf (Mx.fmtB d) (Mx.k d) }]
           accRd := true, accWr := true, ancRd := true, ancWr := true }
  | 8 => { rd := if Mx.biasEn d then [{ bay := true, off := Mx.biasAddr d, pitch := 0, rows := 1, bytes := Mx.bytesOf (Mx.fmtB d) (Mx.n d), strict := false }] else []
           wr := region (Mx.bytesOf (Mx.fmtOut d) (Mx.n d)) :: (if Mx.isMx (Mx.fmtOut d) then [aux (Mx.m d * Mx.n d / 32)] else [])
           accRd := true, ancRd := true, ancWr := true }
  | 9 => { wr := [region (32 * Mx.n d), aux 1024], accRd := true, ancRd := true }
  | 0xA => { rd := [region (32 * Mx.n d), aux 1024], accWr := true, ancWr := true }
  | 0xB => { rd := [{ bay := false, off := Mx.aOff d, pitch := Mx.aPitch d, rows := Mx.m d, bytes := Mx.bytesOf (Mx.fmtA d) (Mx.k d) }]
             wr := [{ bay := false, off := Mx.bOff d, pitch := Mx.bPitch d, rows := Mx.m d, bytes := Mx.bytesOf (Mx.fmtOut d) (Mx.k d) },
                    { bay := false, off := Mx.bScale d, pitch := Mx.scalePitch d, rows := Mx.m d, bytes := Mx.k d / 32, strict := false }] }
  | _ => {}

namespace MxRange

/-- First byte past the last row. -/
def stop (r : MxRange) : Nat := if r.rows == 0 then r.off else r.off + (r.rows - 1) * r.pitch + r.bytes

/-- Whether a range lies outside its memory, or breaks an alignment or pitch rule (04 R118, causes 4 and 5). -/
def bad (r : MxRange) : Bool :=
  (r.strict && (r.off % 32 != 0 || r.pitch % 32 != 0)) || decide (r.stop > if r.bay then bayBytes else 0x100000)
    || (!r.bay && r.rows != 0 && decide (r.bytes > r.pitch))

/-- The banks that a range touches. -/
def banks (r : MxRange) : NSet :=
  (List.range r.rows).foldl (fun acc i => if r.bytes == 0 then acc else
    [(r.off + i * r.pitch) / bankBytes, (r.off + i * r.pitch + r.bytes - 1) / bankBytes].foldl NSet.ins acc) []

/-- Whether two ranges of one memory share a byte. -/
def meets (r t : MxRange) : Bool :=
  r.bay == t.bay && (List.range r.rows).any (fun i => (List.range t.rows).any (fun j =>
    decide (r.off + i * r.pitch < t.off + j * t.pitch + t.bytes) && decide (t.off + j * t.pitch < r.off + i * r.pitch + r.bytes)))

end MxRange

/-- Whether a descriptor waits for an earlier one that is not complete (04 R97). -/
def MxUse.waitsFor (u e : MxUse) : Bool :=
  e.wr.any (fun x => (u.rd ++ u.wr).any (fun y => x.meets y)) || e.rd.any (fun x => u.wr.any (fun y => x.meets y))
    || (e.accWr && (u.accRd || u.accWr)) || (e.accRd && u.accWr) || (e.ancWr && (u.ancRd || u.ancWr)) || (e.ancRd && u.ancWr)

/-! What an ended descriptor leaves (04 R119, R123). -/

/-- Free bytes written over a range. -/
def freeRange (s : State) (b c : Nat) (r : MxRange) : State :=
  (List.range r.rows).foldl (fun s i =>
    let bs := (List.range r.bytes).map (fun j => Config.freeByte (s.free + j))
    let a := r.off + i * r.pitch
    let s := if r.bay then s.modBay b (fun x => x.write a bs) else s.modMx b c (fun m => { m with store := Mem.writeN m.store a bs })
    { s with free := s.free + r.bytes }) s

/-- Cells put to free values. -/
def freeCells (s : State) (b c rows cols : Nat) : State :=
  (List.range (rows * cols)).foldl (fun s i =>
    let w := Config.freeWide s.free
    let cell : Cell := { sum := w.extractLsb' 0 224, flags := w.extractLsb' 224 6 }
    { s.modMx b c (fun m => { m with cells := Tbl.put m.cells (i / cols * 128 + i % cols) cell }) with free := s.free + 1 }) s

/-- Running descriptors stop: what they write is left undefined, a free value (assumption 3). -/
def endRunning (s : State) (b c : Nat) : State :=
  ((s.mx b c).fifo.filter (·.ran)).foldl (fun s x =>
    let u := mxUse x.desc
    let s := u.wr.foldl (fun s r => freeRange s b c r) s
    if u.accWr then (if Mx.op x.desc == 3 || Mx.op x.desc == 0xA then freeCells s b c 128 128 else freeCells s b c (Mx.m x.desc) (Mx.n x.desc)) else s) s

/-- A matrix core flushed: every descriptor discarded and HALTED cleared (04 R119). -/
def mxFlush (s : State) (b c : Nat) : State :=
  (endRunning s b c).modMx b c (fun m => { m with fifo := [], status := m.status &&& ~~~0x100000#32 })

/-- What a reset leaves: everything at its reset value but EVT_SEQ of MX_STATUS (04 R123). -/
def mxCleared (m : MatrixCore) : MatrixCore := { status := m.status &&& 0xFFFF#32 }

/-- A matrix core reset: the running descriptors end, then the core is cleared (04 R123). -/
def mxReset (s : State) (b c : Nat) : State := (endRunning s b c).modMx b c mxCleared

end Sys2Proof.Machine
end

