-- ==== Sys2Proof/Machine/Runtime.lean ====
section
/-! DEFINITION. The Bay runtime's operations: events of a Bay, traps of cores, halts of movers and matrix cores, and the end of a tile (03_bays.md R63 to R90, 04_matrix_operations.md R119, 05_vector_scalar.md R145 to R150, 14_scheduling.md R407). -/

namespace Sys2Proof.Machine

/-- A Bay event: its flag, the bank, and the ERROR of its severity (03 R79, 18 R514). -/
def bayEvent (s : State) (b bit_ : Nat) (bank : Option Nat) (sev action : Nat) : State :=
  let m := 2 ^ bit_ + (if bank.isSome then 0xF0000 else 0)
  let r := statusEvent (s.bay b).status m (2 ^ bit_ + put (bank.getD 0) 16 4)
  postError (s.modBay b (fun x => { x with status := r }))
    { block := 1, inst := b, cause := bit_, sev, parts := 2 ^ s.partOfBay b, action, off := 0x14, seq := evtSeq r, reg := r.toNat }

/-- A mover port flushed: RD set equal to WR, and the halt ended (03 R73). -/
def moverFlush (p : MoverPort) : MoverPort :=
  { p with rd := p.wr, orders := [], started := [], ready := 0, groupSize := 0, ttbWait := false, halted := false, heldOn := none, cause := 0 }

/-- The kernel's cores of a Bay: vector cores 0 to 3 and scalar core 1 (03 R59). -/
def kernelCores : List Nat := [0, 1, 2, 3, 5]

/-- Every kernel core of a Bay stopped, and its matrix cores flushed (05 R149, 04 R119). -/
def stopBay (s : State) (b : Nat) : State :=
  let s := kernelCores.foldl (fun s c => s.modCore b c (fun k => { k with running := false, wait := none })) s
  (List.range 4).foldl (fun s c => mxFlush s b c) s

/-- Entries of the tile translation buffer freed with the tile that holds them (03 R72). -/
def freeTtb (s : State) (b tile : Nat) : State := s.modBay b (fun x => { x with ttb := (x.ttb.map (fun e => { e with tiles := NSet.rem e.tiles tile })).filter (fun e => !e.tiles.isEmpty) })

/-- A tile leaves its Bay and TILE_DONE is sent: its halted port is flushed, its translations end, and the Bay is free for the next (03 R73, 14 R407). -/
def leaveBay (s : State) (id : Nat) (d : DoneMsg) : State :=
  match Tbl.find s.work.tiles id with
  | none => s
  | some t =>
    let b := t.bay
    let s := tileEnergy s t
    let s := (List.range 2).foldl (fun s p => if (s.mover b p).tile == id then
      s.modMover b p (fun x => { moverFlush x with tile := 0 }) else s) s
    let s := freeTtb s b id
    let s := s.modBay b (fun x => { x with
      tile := if x.tile == id then 0 else x.tile, nextTile := if x.nextTile == id then 0 else x.nextTile, inbox := x.inbox.filter (fun m => m.2 != id) })
    s.modWork (fun w => { w with done := w.done ++ [{ d with bayNs := if t.step == 0 then 0 else s.now - t.runAt }] })

/-- A tile ended with a status other than its normal end's: its cores stop, and TILE_DONE goes to the Registrar (05 R149, R150). -/
def endTile (s : State) (id status : Nat) (f : Tile → Tile) (abandoned : Bool := false) (replay : Bool := false) : State :=
  match Tbl.find s.work.tiles id with
  | none => s
  | some t =>
    if s.work.done.any (fun d => d.tile == id) then s
    else
      let s := if (s.bay t.bay).tile == id then stopBay s t.bay else s
      let s := modTile s id (fun t => { f t with status := some status })
      leaveBay s id { tile := id, status, parked := false, abandoned, saved := false, tags := 0, bayNs := 0, replay }

/-- A failure that meets a tile whose status stands already is a secondary cause (05 R150). -/
def failTile (s : State) (id status req detail : Nat) (f : Tile → Tile) : State :=
  match Tbl.find s.work.tiles id with
  | none => s
  | some t =>
    if t.status.isSome then
      modTile s id (fun t => { t with secondary := if t.secondary.length < 4 then t.secondary ++ [(status, req, detail)] else t.secondary })
    else endTile s id status (fun t => { f t with requester := req })

/-! Traps of a core (05 R149). -/

/-- A core's pc, cause and value saved, the core stopped, and FAULT_REPORT sent to the Bay runtime (05 R149). -/
def trapCore (s : State) (b c mcause mtval status : Nat) : State :=
  let k := s.core b c
  let k := { k with mcsr := Tbl.put (Tbl.put (Tbl.put k.mcsr 0x341 k.pc) 0x342 (BitVec.ofNat 64 mcause)) 0x343 (BitVec.ofNat 64 mtval)
                    running := false, trapped := true, wait := none, machine := true }
  { s.setCore b c k with reports := s.reports ++ [{ bay := b, core := portOfCore c, status, mcause, mtval, pc := k.pc.toNat }] }

/-! A mover port halts (03 R70, R73). -/

/-- The tile status of a cause (03 R70); a remote window's own status is given with cause 0xA. -/
def moverStatus (cause remote : Nat) : Nat :=
  match cause with
  | 1 | 2 | 3 => Status.aborted.code
  | 4 => Status.translationFault.code
  | 5 => Status.permission.code
  | 6 => Status.resourceExhausted.code
  | 7 => Status.parityUnrecovered.code
  | 8 => Status.isolated.code
  | 9 => Status.timeout.code
  | _ => remote

/-- A port halts: cause, status and address recorded, RD at the failing descriptor or at the TILE_BEGIN (03 R70, R73). -/
def haltMover (s : State) (b p cause status va index rd : Nat) : State :=
  s.modMover b p (fun m => { m with
    halted := true, rd, started := [], ready := m.ready + m.started.length, ttbWait := false, cause
    fault := statusEvent m.fault 0xFFF0000 (put status 16 8 + put cause 24 4)
    faultVa := BitVec.ofNat 64 (va % 2 ^ 57 + put index 57 6) })

/-- A port's failure ends its tile: cause TIMEOUT asks once for a replay; causes 1 to 3 are firmware faults recorded as Contained errors (03 R70, R92). -/
def moverFail (s : State) (b p cause remote va index rd tag : Nat) : State :=
  let st := moverStatus cause remote
  let s := haltMover s b p cause st va index rd
  let s := if 1 ≤ cause && cause ≤ 3 then
      let r := (s.mover b p).fault
      postError s { block := 5, inst := b, cause := 24, sev := 2, parts := 2 ^ s.partOfBay b, off := 0x34 + 0x20 * p, seq := evtSeq r, reg := r.toNat }
    else s
  let id := (s.mover b p).tile
  let info := fun (t : Tile) => { t with fault := some (cause, tag, 0, 0, 0, va), requester := 192 + b }
  if cause == 9 then
    match Tbl.find s.work.tiles id with
    | some t => if t.status.isSome then s else endTile s id st info false true
    | none => s
  else failTile s id st (192 + b) va info

/-! A matrix core halts (04 R118). -/

/-- The tile status of a matrix cause (04 R118). -/
def mxStatusOf (cause : Nat) : Nat :=
  match cause with
  | 6 => Status.permission.code
  | 8 => Status.anchorOverflow.code
  | 10 => Status.parityUnrecovered.code
  | _ => Status.aborted.code

/-! Bank owners and fencing (03 R64, R65, R90, 08 R240). -/

/-- The owner code of a bank (03 R64). -/
def bankOwner (x : Bay) (bank : Nat) : Nat := bitsAt x.owners.toNat (4 * bank) 4

/-- A bank's code changed: a handover starts (03 R65). -/
def setBankOwner (x : Bay) (bank code : Nat) : Bay :=
  if bankOwner x bank == code then x
  else { x with
    owners := (x.owners &&& ~~~(BitVec.ofNat 64 (0xF <<< (4 * bank)))) ||| BitVec.ofNat 64 (code <<< (4 * bank))
    pending := x.pending ||| BitVec.ofNat 16 (2 ^ bank) }

/-- Every bank that a core owned put to NONE (03 R90). -/
def dropBanks (x : Bay) (code : Nat) : Bay :=
  (List.range 16).foldl (fun x b => if bankOwner x b == code then setBankOwner x b 0xF else x) x

/-- The core, by agent index, behind a crossbar port; none for a matrix core. -/
def coreOfPort (port : Nat) : Option Nat := if 4 ≤ port && port ≤ 9 then some (port - 4) else none

/-- Writes of a Bay's mover and cores that wait for a remote acknowledgement (03 R78). -/
def outboundWrites (s : State) (b : Nat) : Nat :=
  (s.fab.tags.filter (fun t => (match t.2.who with | .mover x _ _ _ _ => x == b | .core x _ => x == b | .parked _ _ => false)
    && (fld t.2.pkt.hdr 0 28 4 == 2 || fld t.2.pkt.hdr 0 28 4 == 4))).length

/-- What a Bay reset leaves: cores, mover, owners and memory at their reset values, and the test engine idle; its registers of R79 that
a Bay reset keeps stay (03 R78, R79). -/
def clearBay (now : Nat) (x : Bay) : Bay :=
  { x with
    mem := [], owners := 0xFFFFFFFFFFFFFFFF#64, pending := 0#16, coreResets := [], parityRows := [], mover0 := {}, mover1 := {}, ttb := []
    test := { x.test with state := 0, bank := 0, region := 0, shadow := [], idleAt := now }
    mx0 := mxCleared x.mx0, mx1 := mxCleared x.mx1, mx2 := mxCleared x.mx2, mx3 := mxCleared x.mx3, core0 := {}, core1 := {}, core2 := {}, core3 := {}, core4 := {}, core5 := {}
    tile := 0, nextTile := 0, inbox := [], notes := [], draining := 0 }

/-- A Bay reset begins: its kernel stops, its lines return to their homes, its movers issue nothing more, and its writes drain; with
none outstanding the Bay is cleared at once (03 R78, 08 R240, 18 R494, R503). -/
def beginBayReset (s : State) (b : Nat) : State :=
  let s := stopBay s b
  let s := (List.range 6).foldl (fun s c => flushL1 s (b * 6 + c)) s
  let n := outboundWrites s b
  let s := { s with fab := { s.fab with stalled := s.fab.stalled.filter (fun r => match r.who with
    | .mover x _ _ _ _ | .core x _ => x != b
    | .parked _ _ => true) } }
  let s := beginReset s 2 b
  s.modBay b (fun x =>
    let x := { x with resetAt := some s.now, wrapper := .closing, draining := n
                      mover0 := { x.mover0 with halted := true }, mover1 := { x.mover1 with halted := true } }
    if n == 0 then clearBay s.now x else x)

/-- One write of a closing Bay drained; with the last one the Bay is cleared. -/
def drainOne (s : State) (b : Nat) : State :=
  s.modBay b (fun x =>
    if x.resetAt.isNone || x.draining == 0 then x
    else
      let x := { x with draining := x.draining - 1 }
      if x.draining == 0 then clearBay s.now x else x)

/-- The tile of a Bay replayed from its checkpoint, ahead of the Volume's other tiles (03 R63, R90). -/
def replayTile (s : State) (id status : Nat) : State := endTile s id status (fun t => t) false true

/-- A core fenced: its port closes, its L1D is written back, or dropped where the flush timed out, its banks go to NONE, its tile
is replayed, and its reset starts; scalar core 0 takes the Bay with it (03 R90, 08 R240). -/
def fenceCore (s : State) (b port : Nat) (flushed : Bool) : State :=
  let s := match coreOfPort port with
    | some c => if flushed then flushL1 s (b * 6 + c) else fenceAgent s (b * 6 + c)
    | none => s
  let s := s.modBay b (fun x => { dropBanks x port with
    coreFence := x.coreFence ||| BitVec.ofNat 10 (2 ^ port), coreResets := NSet.ins x.coreResets port })
  let s := beginReset s 1 (b * 16 + port)
  let id := (s.bay b).tile
  let s := if Tbl.has s.work.tiles id then replayTile s id Status.isolated.code else s
  if port == 8 then beginBayReset (endReset s 1 (b * 16 + port)) b else s

/-- BAY_DOWN of a Bay set in every map of this part that binds it (10 R280). -/
def markBayDown (s : State) (b : Nat) : State :=
  let mark := fun (m : VolMap) => { m with members := m.members.map (fun e =>
    if e.device == s.fab.deviceId && bitsAt e.bays b 1 == 1 then { e with bayDown := e.bayDown ||| 2 ^ b } else e) }
  { s with vols := { s.vols with vols := Tbl.mapV s.vols.vols (fun _ v => { v with cur := v.cur.map mark, prev := v.prev.map mark }) } }

/-- Whether a Bay is bound in a Volume with more than one member (18 R518). -/
def boundAbroad (s : State) (b : Nat) : Bool :=
  s.vols.vols.any (fun v => match v.2.cur with
    | some m => decide (m.members.length > 1) && m.members.any (fun e => e.device == s.fab.deviceId && bitsAt e.bays b 1 == 1)
    | none => false)

/-! The Bays of a Volume (10 R277, 14 R401), and the tile that comes next in a DISPATCH (14 R400, R409, 18 R505). -/

/-- This part's entry of a map. -/
def ownEntry (s : State) (m : VolMap) : Option VolMember := m.members.find? (fun e => e.device == s.fab.deviceId)

/-- Members of a bit mask. -/
def maskList (m n : Nat) : List Nat := (List.range n).filter (fun i => bitsAt m i 1 == 1)

/-- The current map of a Volume on this part: its entry and epoch. -/
def volumeHere (s : State) (h : Nat) : Option (VolMember × Nat) :=
  ((Tbl.find s.vols.vols h).bind (·.cur)).bind (fun m => (ownEntry s m).map (fun e => (e, m.epoch)))

/-- Bays of a Volume on this part that are bound and have BAY_DOWN clear (14 R401). -/
def availableBays (s : State) (h : Nat) : List Nat :=
  match volumeHere s h with
  | some (e, _) => (maskList e.bays 32).filter (fun b => bitsAt e.bayDown b 1 == 0)
  | none => []

/-- The next tile of a command in its own order: replays, then returned tiles, then the next index (14 R400, R409, 18 R505). -/
def nextIndex (c : Cmd) : Option Nat :=
  match c.urgent, c.unplaced with
  | i :: _, _ => some i
  | [], i :: _ => some i
  | [], [] => if c.nextTile < c.tileCount then some c.nextTile else none

/-! The end of a tile in its DISPATCH (13 R380, 14 R401, R417, 18 R505). -/

/-- The body of a TILE fault record (13 R375). -/
def tileBody (t : Tile) : Nat :=
  match t.fault with
  | some (w, tag, cause, value, pc, a) => put w 0 32 + put tag 32 32 + put cause 64 64 + put value 128 64 + put pc 192 64 + put a 256 64
  | none => 0

/-- A TILE record, unless a TRANSLATION record stands for the failure; its SEQ (13 R374). -/
def tileRecord (s : State) (c : Cmd) (t : Tile) (status sev : Nat) : State × Nat :=
  if t.faultSeq != 0 then (s, t.faultSeq)
  else writeFault s c.ctx { kind := 2, status, sev, call := c.call, queue := c.queue, index := c.index, tag := c.userTag, requester := t.requester, tile := t.index, secondary := t.secondary, body := tileBody t }

/-- The body of a HANG fault record (18 R517). -/
def hangBody (g : Hang) : Nat :=
  let at_ := fun (off v w : Nat) => put v (8 * off) w
  put g.bay 0 5 + put g.level 8 3 + put g.step 12 4 + put g.busy 16 4 + at_ 4 g.suspects 8 + at_ 8 g.first 64 + at_ 0x10 g.second 64
    + ((g.pcs.take 5).zipIdx).foldl (fun n p => n + at_ (0x18 + 8 * p.2) p.1 64) 0

/-- A suspect's HANG record, once its replay has its outcome (18 R505). -/
def hangRecord (s : State) (c : Cmd) (t : Tile) (g : Hang) (status sev : Nat) : State × Nat :=
  writeFault s c.ctx { kind := 6, status, sev, call := c.call, queue := c.queue, index := c.index, tag := c.userTag, tile := t.index, body := hangBody g }

/-- ERROR for an event of a tile that no status field records, on its Bay (18 R514, R515). -/
def tileError (s : State) (c : Cmd) (t : Tile) (sev action : Nat) : State :=
  postError s { block := 1, inst := t.bay, cause := 0, sev, parts := 2 ^ ctxPart c.ctx, action, ctx := ((Tbl.find s.work.ctxs c.ctx).map (ctxHandle c.ctx)).getD 0 }

/-- Whether a tile's failure has been told already: by a TRANSLATION record (09 R272), or by the ERROR of a parity event (03 R63, 06 R168)
or of a firmware fault of the mover (03 R70). -/
def failureTold (t : Tile) (status : Nat) : Bool :=
  t.faultSeq != 0 || status == Status.parityUnrecovered.code
    || (t.requester == 192 + t.bay && (match t.fault with | some f => decide (1 ≤ f.1) && decide (f.1 ≤ 3) | none => false))

/-- The record of a tile's failure, with its ERROR (13 R374, 18 R514). -/
def tileFailure (s : State) (c : Cmd) (t : Tile) (status : Nat) : State × Nat :=
  tileRecord (if failureTold t status then s else tileError s c t 2 0) c t status 2

/-- A tile completes with a status: its record, and its part of the DISPATCH's outcome (13 R374, R380, 14 R404, R405, 18 R505). -/
def finishTile (s : State) (t : Tile) (status : Nat) : State :=
  match Tbl.find s.work.cmds t.cmd with
  | none => s
  | some c =>
    let (s, seq) := match t.hang with
      | some g =>
        if status == 0 then (charge (hangRecord (tileError s c t 1 1) c t { g with second := 0, pcs := [] } 0 1).1 c.job c.ctx { replays := 1 }, 0)
        else if status == Status.hung.code then hangRecord (tileError s c t 2 4) c t g status 2
        else tileFailure s c t status
      | none => if status == 0 then (s, 0) else tileFailure s c t status
    modCmd s t.cmd (fun c => { c with
      okTiles := if status == 0 then c.okTiles + 1 else c.okTiles
      doneTiles := if status == 0 then NSet.ins c.doneTiles t.index else c.doneTiles
      ranOn := Tbl.put c.ranOn t.index t.bay
      suspects := Tbl.del c.suspects t.index
      exc := c.exc ||| t.exc
      bad := if status == 0 then c.bad else c.bad.orElse (fun _ => some (status, t.index))
      faultSeq := if c.faultSeq == 0 && c.bad.isNone then seq else c.faultSeq })

/-- Whether tiles of a command are placed, or parked after their end. -/
def cmdTilesLeft (s : State) (id : Nat) : Bool :=
  s.work.tiles.any (fun t => t.2.cmd == id) || s.work.parked.any (fun p => p.2.tile.cmd == id && decide (p.2.tile.step > 4))

/-- Whether a command's queue or context is being destroyed (13 R395, R396). -/
def cmdDying (s : State) (c : Cmd) : Bool :=
  ((Tbl.find s.work.ctxs c.ctx).map (·.state)) == some .destroying || (((Tbl.find s.work.queues c.queue).map (·.destroyAt.isSome)).getD true)

/-- The outcome of a DISPATCH that completes with a status (13 R380). -/
def dispatchResult (c : Cmd) (st : Nat) : Result :=
  { status := st, exc := c.exc, r0 := c.okTiles, r1 := match c.bad with | some b => b.2 | none => 2 ^ 64 - 1 }

/-- A DISPATCH that no Bay is left for: a tile that waits for its replay completes with ISOLATED, and then the command (14 R401, 18 R506). -/
def isolateCmd (s : State) (id : Nat) (c : Cmd) : State :=
  let s := c.urgent.foldl (fun s i => finishTile s { cmd := id, index := i, hang := Tbl.find c.suspects i } Status.isolated.code) s
  match Tbl.find s.work.cmds id with
  | none => s
  | some c => completeCmd s id (dispatchResult c Status.isolated.code)

/-- A DISPATCH completes once no tile of it runs and a tile failed, every tile has completed, or no Bay is left for the others (13 R380, 14 R401). -/
def settleCmd (s : State) (id : Nat) : State :=
  match Tbl.find s.work.cmds id with
  | none => s
  | some c =>
    if c.opcode != 1 || c.phase != .running || cmdTilesLeft s id || cmdDying s c then s
    else
      match c.bad with
      | some (st, _) => completeCmd s id (dispatchResult c st)
      | none =>
        if (nextIndex c).isNone then completeCmd s id (dispatchResult c 0)
        else if (availableBays s c.volume).isEmpty then isolateCmd s id c
        else s

/-- Every DISPATCH in placement settled. -/
def settleCmds (s : State) : State := s.work.cmds.foldl (fun s c => settleCmd s c.1) s

/-! A Bay fenced. -/

/-- A whole Bay fenced: all ten cores, the mover and the local ports; it stays so until the next device warm
reset; ERROR tells of it, with FM where a Volume of more members binds it, and a DISPATCH that no Bay is left for ends (03 R90, 14 R401,
18 R506, R514, R518). -/
def fenceBay (s : State) (b : Nat) : State :=
  if (s.bay b).fenced then s
  else
    let s := (List.range 6).foldl (fun s c => flushL1 s (b * 6 + c)) s
    let s := [(s.bay b).tile, (s.bay b).nextTile].foldl (fun s id => if Tbl.has s.work.tiles id then replayTile s id Status.isolated.code else s) s
    let s := s.modBay b (fun x => { (List.range 10).foldl dropBanks x with
      coreFence := 0x3FF#10, fenced := true, wrapper := .closed, mover0 := moverFlush x.mover0, mover1 := moverFlush x.mover1, ttb := [] })
    let s := postError s { block := 1, inst := b, cause := 0, sev := 2, parts := 2 ^ s.partOfBay b, fm := boundAbroad s b, action := 2 }
    settleCmds (colophonChange (markBayDown s b) (2 ^ s.partOfBay b))

end Sys2Proof.Machine
end

