-- ==== Sys2Proof/Machine/Coherence.lean ====
section
/-! DEFINITION. Coherent requests, snoops, answers, grants and far atomics as messages, and their failures (08_coherence.md R223 to R242, 16_otfold_link.md R447 to R460). -/

namespace Sys2Proof.Machine

/-- The partitions whose functions a port serves, as a mask (16 R448). -/
def portParts (s : State) (p : Nat) : Nat := bitsAt (s.ot.port p).ctrl.toNat 3 8 % 2 ^ s.mode

/-- An event of OT_STATUS, reported on function 0 and on each function that the port serves, or on those given (16 R463). -/
def otEvent (s : State) (p b sev : Nat) (parts : Option Nat := none) : State :=
  let r := statusFlag (s.ot.port p).status b
  let s := s.modOt (fun o => o.setPort p { o.port p with status := r })
  postError s { block := 11, inst := p, cause := b, sev, parts := parts.getD (portParts s p), off := 8, seq := evtSeq r, reg := r.toNat }

/-- A message sent to the companion. -/
def otSend (s : State) (m : OtMsg) : State := s.modOt (fun o => { o with out := o.out ++ [m] })

/-- A companion agent's request refused: it is answered with the status (16 R449). -/
def otRefuse (s : State) (a status : Nat) : State := otSend s (.ack (agentPort a) 0 0 status)

/-- The checks of a coherent request before any directory action: the direct line and the partition it serves, or the state in
which it has been refused (08 R227, 16 R449, R450). -/
def coherentCheck (s : State) (a pa : Nat) : Except State (Nat × Nat) :=
  if isL1 a then
    let rq : Rq := { master := agentBay a, part := s.partOfBay (agentBay a) }
    match requestCheck s rq pa with
    | .ok d => .ok (d / 128, rq.part)
    | .error s => .error s
  else
    match usable pa with
    | none => .error (otRefuse s a Status.permission.code)
    | some d =>
      if !agentLive s a then .error (otRefuse s a Status.isolated.code)
      else match (agentParts s a).find? (fun p => shelfAllows s p d) with
        | none => .error (otRefuse (refuseRequest s { master := 40 + agentPort a, part := (agentParts s a).headD 0 } (stackOf d) 25 pa) a Status.permission.code)
        | some p =>
          if s.ot.sealMap.contains (d / 0x200000) then .error (otRefuse (otEvent s (agentPort a) 25 2 (some (2 ^ p))) a Status.denied.code)
          else .ok (d / 128, p)

/-- A coherent request presented at its home. -/
def presentRequest (s : State) (a pa : Nat) (req : HomeReq) : State :=
  match coherentCheck s a pa with
  | .error s => s
  | .ok (line, p) => homeRequest s line p a (if isL1 a then attrOfAddr s p (128 * line) else 0) req false

/-- RD_SHARED (08 R226). -/
def execRdShared (agent : AgentNo) (line : PAddr) (s : State) : Out := .next (presentRequest s agent line.toNat (.rdShared agent))
/-- RD_OWN (08 R226). -/
def execRdOwn (agent : AgentNo) (line : PAddr) (s : State) : Out := .next (presentRequest s agent line.toNat (.rdOwn agent))
/-- UPGRADE (08 R226). -/
def execUpgrade (agent : AgentNo) (line : PAddr) (s : State) : Out := .next (presentRequest s agent line.toNat (.upgrade agent))

/-- WRITEBACK: a companion agent's data come with it, an L1D's are its line's (08 R226). -/
def execWriteback (agent : AgentNo) (line : PAddr) (poison : Bool) (data : BitVec 1024) (s : State) : Out :=
  match coherentCheck s agent line.toNat with
  | .error s => .next s
  | .ok (l, p) =>
    if isL1 agent then
      match l1Find s agent l with
      | some x =>
        if x.st == .m || x.st == .o then .next (l1Drop (homeWriteback s l p agent x.poison x.data) agent l) else .next s
      | none => .next s
    else
      .next (otSend (homeWriteback s l p agent (if poison then 15#4 else 0#4) data) (.ack (agentPort agent) 0 0 0))

/-- CLEAN_EVICT: an L1D drops its line too (08 R226). -/
def execCleanEvict (agent : AgentNo) (line : PAddr) (s : State) : Out :=
  match coherentCheck s agent line.toNat with
  | .error s => .next s
  | .ok (l, _) =>
    if isL1 agent then
      match l1Find s agent l with
      | some x => if x.st == .e || x.st == .s then .next (l1Drop (homeCleanEvict s l agent) agent l) else .next s
      | none => .next s
    else .next (homeCleanEvict s l agent)

/-- The direct line of an address, 0 for one that no stack decodes. -/
def lineOf (pa : PAddr) : Nat := ((direct? pa.toNat).getD 0) / 128

/-- A snoop that reaches its agent: an L1D inside its hold defers it, otherwise answers; to a companion agent it is sent once the
hold of the home's grant has passed, and the port answers for an agent that is down (08 R231, 16 R460). -/
def snoopArrives (s : State) (a line kind : Nat) : State :=
  match s.mem.snoops.find? (fun x => x.agent == a && x.line == line && x.kind == kind && !x.deferred) with
  | none => s
  | some x =>
    let s := s.modMem (fun m => { m with snoops := m.snoops.erase x })
    let until_ := holdEnd s a line kind
    if !agentLive s a then takeAnswer s { agent := a, line, st := 0 }
    else if s.now < until_ then s.modMem (fun m => { m with snoops := m.snoops ++ [{ x with deferred := true }] })
    else if isL1 a then
      let (s, r) := l1Answer s a line kind
      s.modMem (fun m => { m with answers := m.answers ++ [r] })
    else otSend s (.snoop (agentPort a) (agentNo a) kind (128 * line))

/-- SNP_SHARE (16 R451). -/
def execSnpShare (agent : AgentNo) (line : PAddr) (s : State) : Out := .next (snoopArrives s agent (lineOf line) 0)
/-- SNP_INV (16 R451). -/
def execSnpInv (agent : AgentNo) (line : PAddr) (s : State) : Out := .next (snoopArrives s agent (lineOf line) 1)
/-- SNP_DATA (16 R451). -/
def execSnpData (agent : AgentNo) (line : PAddr) (s : State) : Out := .next (snoopArrives s agent (lineOf line) 2)

/-- SNOOP_HOLD_EXPIRE: the hold has passed, and the deferred snoop is answered or sent (08 R231). -/
def execSnoopHoldExpire (agent : AgentNo) (line : PAddr) (s : State) : Out :=
  let l := lineOf line
  match s.mem.snoops.find? (fun x => x.agent == agent.val && x.line == l && x.deferred) with
  | none => .next s
  | some x =>
    let s := reach s (holdEnd s agent l x.kind)
    .next (snoopArrives (s.modMem (fun m => { m with snoops := m.snoops.map (fun y => if y == x then { x with deferred := false } else y) })) agent l x.kind)

/-- SNP_RSP: an answer reaches the home; an L1D's is the one it gave, a companion's comes with the command (16 R451). -/
def execSnpRsp (agent : AgentNo) (line : PAddr) (state : Fin 4) (poison : Bool) (data : BitVec 1024) (s : State) : Out :=
  let l := lineOf line
  if isL1 agent then
    match s.mem.answers.find? (fun x => x.agent == agent.val && x.line == l) with
    | some x => .next (takeAnswer (s.modMem (fun m => { m with answers := m.answers.erase x })) x)
    | none => .next s
  else
    .next (takeAnswer s { agent, line := l, st := state, poison := if poison then 15#4 else 0#4,
                          data := if state.val ≥ 2 then some data else none })

/-- A line installed in an L1D by a grant; its hold begins when the grant arrives (08 R226, R231). -/
def installGrant (s : State) (g : Grant) : State :=
  let old := l1Find s g.agent g.line
  let st : Moesi := match g.st with | 2 => .m | 1 => .e | _ => .s
  let hold := if g.st == 0 then 0 else s.now + 200
  match g.data, old with
  | some d, _ => l1Put s g.agent g.line { st, data := d, poison := g.poison, holdUntil := hold }
  | none, some x => l1Put s g.agent g.line { x with st, holdUntil := hold }
  | none, none => s

/-- GRANT: it reaches its agent; for a companion agent the port sends it, and the home's hold begins (08 R226, R231, 16 R447). -/
def execGrant (agent : AgentNo) (line : PAddr) (s : State) : Out :=
  let l := lineOf line
  match s.mem.grants.find? (fun g => g.agent == agent.val && g.line == l) with
  | none => .next s
  | some g =>
    let s := s.modMem (fun m => { m with grants := m.grants.erase g })
    if isL1 agent then .next (installGrant s g)
    else
      let s := s.modMem (fun m => { m with dir := if g.st == 0 then m.dir else Tbl.upd m.dir l (fun e => { e with grantAt := s.now, grantTo := agent }) })
      .next (otSend s (.grant (agentPort agent) (agentNo agent) (128 * l) g.st (g.poison != 0#4) g.data))

/-- FAR_AMO: the home takes the line from every holder and performs the operation (08 R233, 16 R452). -/
def execFarAmo (agent : AgentNo) (tag : BitVec 12) (addr : PAddr) (op : Fin 10) (double : Bool) (operand compare : DWord) (s : State) : Out :=
  let n := if double then 8 else 4
  if addr.toNat % n != 0 then .next s
  else match coherentCheck s agent addr.toNat with
    | .error s => .next s
    | .ok (line, p) =>
      .next (homeRequest s line p agent (if isL1 agent then attrOfAddr s p (128 * line) else 0) (.farAmo agent tag.toNat (128 * line + addr.toNat % 128) op n (operand.toNat + 2 ^ 64 * compare.toNat)) false)

/-- A companion agent that has not answered is down: its lines go, and its later requests and snoops are answered for it (16 R460). -/
def agentDown (s : State) (a : Nat) : State :=
  let p := agentPort a
  let s := s.modOt (fun o => o.setPort p { o.port p with agentDown := (o.port p).agentDown ||| BitVec.ofNat 32 (2 ^ agentNo a) })
  let s := (List.range 8).foldl (fun s k =>
    if s.mem.dir.any (fun e => stackOf (128 * e.1) == k && e.2.holders.contains a) then cohEvent s k 18 a 2 (portParts s p) none else s) s
  otEvent (dropAgent s a (fun _ => true)) p 23 2

/-- SNOOP_DEADLINE: every agent that has not answered is taken as not holding the line; a line that one owned is written
poisoned; a part's core is fenced, a companion agent is marked down (08 R239). -/
def execSnoopDeadline (line : PAddr) (s : State) : Out :=
  let l := lineOf line
  match Tbl.find s.mem.txns l with
  | none => .next s
  | some t =>
    if t.await.isEmpty then .next s else
    let s := reach s (t.deadline + 1)
    let k := stackOf (128 * l)
    let late := t.await
    let s := if late.any (fun a => t.owner == some a) then poisonLine s l (t.owner.getD 0) else s
    let s := s.modMem (fun m => { m with snoops := m.snoops.filter (fun x => x.line != l), answers := m.answers.filter (fun x => x.line != l) })
    let s := late.foldl (fun s a => cohEvent s k 16 a 2 (partMaskOf s (128 * l)) none) s
    let s := late.foldl (fun s a => takeAnswer s { agent := a, line := l, st := 0 }) s
    .next (late.foldl (fun s a => if isL1 a then fenceCore s (agentBay a) (portOfCore (agentCore a)) false else agentDown s a) s)

/-- L1D_FLUSH_TIMEOUT: a flush before fencing has not completed after 20 µs, and the wrapper closes the port anyway (08 R240). -/
def execL1dFlushTimeout (bay : BayNo) (core : CoreNo) (s : State) : Out :=
  .next (fenceCore (reach s (s.now + 20 * us)) bay (portOfCore core) false)

end Sys2Proof.Machine
end

