-- ==== Sys2Proof/Machine/Link.lean ====
section
/-! DEFINITION. The protected links of the fabric and of the Otfold ports: bring-up, flits, retry, encryption and failure (11_fabric.md R302 to R313, 16_otfold_link.md R440 to R444, R461). -/

namespace Sys2Proof.Machine

namespace State
def fport (s : State) (q : Nat) : FabPort := s.fab.port q
def modFab (s : State) (f : Fab → Fab) : State := { s with fab := f s.fab }
def modFport (s : State) (q : Nat) (f : FabPort → FabPort) : State := s.modFab (fun x => { x with ports := Tbl.put x.ports q (f (x.port q)) })
end State

/-! Bonds (11 R312). -/

/-- BOND of FP_CTRL, 0 read as 1 (11 R332). -/
def bondField (x : FabPort) : Nat := let b := bitsAt x.ctrl.toNat 8 3; if b == 0 then 1 else min b 4

/-- The bond that holds a port, from port `l` of its group on: its leader and its size; a bond takes the ports next to its leader. -/
def bondFrom (s : State) (q l : Nat) : Nat → Nat × Nat
  | 0 => (q, 1)
  | n + 1 =>
    let m := min (s.fport l).bond (6 - l % 6)
    if q < l + m then (l, m) else bondFrom s q (l + m) n

/-- Leader and size of the bond that holds a port (11 R312; assumption 40). -/
def bondOf (s : State) (q : Nat) : Nat × Nat := bondFrom s q (q / 6 * 6) 6
def leaderOf (s : State) (q : Nat) : Nat := (bondOf s q).1

/-- A link by its number: a fabric port's, or an Otfold port's from 24 on. -/
def linkOf (s : State) (n : Nat) : Link := if n < 24 then (s.fport (leaderOf s n)).link else (s.ot.port (n - 24)).link
def setLink (s : State) (n : Nat) (l : Link) : State :=
  if n < 24 then s.modFport (leaderOf s n) (fun x => { x with link := l })
  else s.modOt (fun o => o.setPort (n - 24) { o.port (n - 24) with link := l })
def modLink (s : State) (n : Nat) (f : Link → Link) : State := setLink s n (f (linkOf s n))

/-- Whether a fabric port's link is UP (11 R303). -/
def portUp (s : State) (q : Nat) : Bool := (linkOf s q).state == 4

/-- The partition that holds a fabric port (10 R273). -/
def holderOf (s : State) (q : Nat) : Nat := Tbl.getD s.fab.holder q (q / (24 / s.nparts))

/-! Events (11 R332, 16 R463). -/

/-- What can happen on a link. -/
inductive LinkEv where
  | replay | fail | auth | handshake | degraded | held | up | mismatch
  deriving DecidableEq, Repr

/-- The flag of an event in FP_STATUS, or in OT_STATUS. -/
def LinkEv.bit (fab : Bool) : LinkEv → Nat
  | .replay => 16 | .fail => 17 | .auth => 18 | .handshake => 19
  | .degraded => if fab then 21 else 20
  | .held => if fab then 22 else 21
  | .up => if fab then 23 else 22
  | .mismatch => 20

/-- Its severity: replays and links coming up are Corrected, every other is Contained (11 R304, R306, R307; assumption 41). -/
def LinkEv.sev : LinkEv → Nat
  | .replay | .up => 0
  | _ => 2

/-- An event of a link, reported to the holder of the port and on function 0 (11 R332, 16 R463). -/
def linkEvent (s : State) (n : Nat) (e : LinkEv) : State :=
  if n < 24 then
    let q := leaderOf s n
    let r := statusFlag (s.fport q).status (e.bit true)
    postError (s.modFport q (fun x => { x with status := r }))
      { block := 9, inst := q, cause := e.bit true, sev := e.sev, parts := if s.mode == 0 then 0 else 2 ^ holderOf s q, fm := e == .fail, off := (0x404 + 0x40 * q) % 4096, seq := evtSeq r, reg := r.toNat }
  else otEvent s (n - 24) (e.bit false) e.sev

/-- An event of FAB_STATUS (11 R332). -/
def fabEvent (s : State) (b sev : Nat) : State :=
  let r := statusFlag s.fab.status b
  postError (s.modFab (fun f => { f with status := r })) { block := 9, inst := 0, cause := b, sev, off := 8, seq := evtSeq r, reg := r.toNat }

/-! Bring-up (11 R303, R304, 16 R442). -/

/-- The router that a link's port group attaches to (01 R9). -/
def linkRouter (n : Nat) : Nat := if n < 24 then groupRouter (portGroup n) else if n == 24 then 0 else 47

/-- ENABLE of a link's port, whose router works (03 R93). -/
def linkEnabled (s : State) (n : Nat) : Bool :=
  !s.nets.failedRouters.contains (linkRouter n) && if n < 24 then bitsAt (s.fport (leaderOf s n)).ctrl.toNat 0 1 == 1 else bitsAt (s.ot.port (n - 24)).ctrl.toNat 0 1 == 1

/-- A session's link: every sequence, key and buffer at its start (11 R304, R308). -/
def Link.fresh (l : Link) (state since : Nat) : Link :=
  { l with state, since, lastFlit := since, txSeq := 0, rxSeq := 0, retry := [], nackSent := false, replayFails := 0, asked := none, waitTx := [],
           authOnce := false, frame := [], txFrame := 0, rxFrame := 0, txKey := 0, rxKey := 0, secret := 0#512 }

/-- A link enters TRAIN; a bond's size is taken now (11 R332). -/
def enterTrain (s : State) (n : Nat) : State :=
  let s := if n < 24 then
      let q := leaderOf s n
      s.modFport q (fun x => { x with bond := bondField x, members := [], peer := none })
    else s
  modLink s n (fun l => l.fresh 1 s.now)

/-- A link goes to DOWN and trains again by itself; the fourth time within 60 s it is HELD (11 R303, R304). -/
def goDown (s : State) (n : Nat) : State :=
  let s := modLink s n (fun l => l.fresh 0 s.now)
  let s := if n < 24 then timeLinkLost s (leaderOf s n) else s
  let s := if n < 24 then s.modFport (leaderOf s n) (fun x => { x with members := [], peer := none })
    else s.modOt (fun o => o.setPort (n - 24) { o.port (n - 24) with lanes := 0 })
  if !linkEnabled s n then s
  else
    let l := linkOf s n
    let recent := l.retrains.filter (fun t => decide (s.now < t + 60 * 1000 * ms))
    if recent.length ≥ 3 then linkEvent (setLink s n { l with state := 5, since := s.now, retrains := recent }) n .held
    else enterTrain (setLink s n { l with retrains := recent ++ [s.now] }) n

/-- The time limit of a bring-up state (11 R303, 16 R442). -/
def stepLimit (n state : Nat) : Nat := match state with
  | 1 => if n < 24 then 500 * ms else 50 * ms
  | 2 => 10 * ms
  | _ => 20 * ms

/-- A link fails: LINK_FAIL, its retry buffer is discarded, and it goes to DOWN; behind an Otfold port every agent is down and CM
requests wait to be issued again (11 R307, 16 R455, R461). -/
def linkFail (s : State) (n : Nat) : State :=
  let s := linkEvent s n .fail
  let s := { s with sec := { s.sec with peers := Tbl.del s.sec.peers n } }
  let s := if n < 24 then s
    else
      let p := n - 24
      let s := (List.range (s.ot.port p).agents).foldl (fun s a => dropAgent s (192 + 32 * p + a) (fun _ => true)) s
      s.modOt (fun o => { o.setPort p { o.port p with agentDown := BitVec.ofNat 32 (2 ^ (o.port p).agents - 1), tags := [] } with
        cm := o.cm.map (fun r => if r.port == p then { r with sent := false } else r) })
  goDown s n

/-- TRAIN_DONE: every lane has locked and the port enters ALIGN; an Otfold port needs a group of four lanes without a failed one,
a fabric port all of its lanes (11 R302, R303, 16 R441). -/
def execTrainDone (port : LinkNo) (badLanes : BitVec 8) (s : State) : Out :=
  let l := linkOf s port
  if l.state != 1 then .next s
  else
    let bad := badLanes.toNat
    let s := setLink s port { l with badLanes := bad }
    let ok := if port.val < 24 then bad % 16 == 0 else bad % 16 == 0 || bad / 16 == 0
    .next (if ok then modLink s port (fun l => { l with state := 2, since := s.now }) else s)

/-- ALIGN_DONE (11 R303). -/
def execAlignDone (port : LinkNo) (s : State) : Out :=
  if (linkOf s port).state == 2 then .next (modLink s port (fun l => { l with state := 3, since := s.now })) else .next s

/-- A link reaches UP with the session's secret. -/
def linkUp (s : State) (n : Nat) (peer : PeerInfo) : State :=
  let s := modLink s n (fun l => { l.fresh 4 s.now with secret := peer.secret })
  linkEvent { s with sec := { s.sec with peers := Tbl.put s.sec.peers n peer.devId } } n .up

/-- CM requests that wait are issued again with a new deadline, once a port that serves their function is UP (16 R455). -/
def reissueCm (s : State) : State :=
  settleIntr (s.modOt (fun o => { o with cm := o.cm.map (fun r =>
    if r.sent then r else match otPortFor s r.fn with
      | some p => { r with sent := true, port := p, deadline := s.now + otDeadline s p }
      | none => r) }))

/-- HANDSHAKE_DONE: UP, or DOWN where the peer's identity fails, its bond size differs, or the companion's caches are not clean
(11 R303, R312, R313, 16 R441 to R443, 17 R479). -/
def execHandshakeDone (port : LinkNo) (peer : PeerInfo) (s : State) : Out :=
  if (linkOf s port).state != 3 then .next s
  else if port.val < 24 then
    let (q, m) := bondOf s port
    if !peer.verified then .next (goDown (linkEvent s q .handshake) q)
    else if peer.bondSize.val != m then .next (goDown (linkEvent s q .mismatch) q)
    else
      let up := (List.range m).map (q + ·) |>.filter (fun x => peer.members.any (fun y => y.val == x))
      if up.isEmpty then .next (goDown s q)
      else
        let s := s.modFport q (fun x => { x with peer := some (peer.device.toNat, peer.port.val), members := up })
        let s := linkUp s q peer
        .next (if up.length < m then linkEvent s q .degraded else s)
  else
    let p := port.val - 24
    if !peer.cachesClean then .next (goDown (linkEvent s port .handshake) port)
    else
      let wide := (linkOf s port).badLanes == 0 && peer.lanes.val == 8
      let s := s.modOt (fun o => o.setPort p { o.port p with lanes := if wide then 8 else 4, agents := peer.agents.val, agentDown := 0#32, tags := [] })
      let s := linkUp s port peer
      .next (reissueCm (if wide then s else linkEvent s port .degraded))

/-- LINK_STEP_LIMIT (11 R303, R304). -/
def execLinkStepLimit (port : LinkNo) (s : State) : Out :=
  let l := linkOf s port
  if 1 ≤ l.state && l.state ≤ 3 then .next (goDown (reach s (l.since + stepLimit port l.state)) port) else .next s

/-- HELD_TIMEOUT: an Otfold port leaves HELD by itself (16 R442). -/
def execHeldTimeout (port : Fin 2) (s : State) : Out :=
  let n := 24 + port.val
  let l := linkOf s n
  if l.state == 5 then .next (enterTrain (reach s (l.since + 10 * 1000 * ms)) n) else .next s

/-- OT_RETRAIN: RETRAIN written to OT_CTRL (16 R442, R463). -/
def execOtRetrain (port : Fin 2) (s : State) : Out :=
  let n := 24 + port.val
  if (linkOf s n).state == 5 then .next (enterTrain s n) else .next s

/-- OT_LANE_FAIL: a failing lane fails the link, and the retrain decides the width (16 R441, R444). -/
def execOtLaneFail (port : Fin 2) (lane : Fin 8) (s : State) : Out :=
  let n := 24 + port.val
  if (linkOf s n).state != 4 then .next s
  else .next (linkFail (modLink s n (fun l => { l with badLanes := l.badLanes ||| 2 ^ lane.val })) n)

/-! Keys and frames (11 R305, R308 to R311). -/

/-- K_n and SALT_n of a direction (11 R308). -/
def linkKey (secret : BitVec 512) (dir n : Nat) : List Byte × List Byte :=
  let d := sha3 (bytesLE 64 secret.toNat ++ [BitVec.ofNat 8 dir] ++ bytesLE 4 n)
  (d.take 32, (d.drop 32).take 4)

/-- The direction number of what this part sends, and of what it receives (11 R308, 16 R444). -/
def txDir (s : State) (n : Nat) : Nat :=
  if n < 24 then (match (s.fport (leaderOf s n)).peer with | some (d, _) => bit (decide (d < s.fab.deviceId)) | none => 0) else 0

/-- A flit's fields (11 R305). -/
def flitSeq (f : BitVec 2048) : Nat := fld f 0 0 12
def flitAck (f : BitVec 2048) : Nat := fld f 0 12 12
def flitType (f : BitVec 2048) : Nat := fld f 0 24 3
def flitLast (f : BitVec 2048) : Bool := flag f 0 27
def flitKey (f : BitVec 2048) : Nat := fld f 0 28 1
def flitNack (f : BitVec 2048) : Bool := flag f 0 29
def flitBytes (f : BitVec 2048) : List Byte := bytesLE 256 f.toNat
/-- Whether a flit's CRC-32 holds. -/
def flitCrcOk (f : BitVec 2048) : Bool := crc32 ((flitBytes f).take 252) == fld f 252 0 32

/-- A header as additional data: ACK and NACK as zero (11 R309). -/
def aadOf (f : BitVec 2048) : List Byte := bytesLE 4 (f.toNat % 2 ^ 12 + put (f.toNat >>> 24) 24 5 + put (f.toNat >>> 30) 30 2)

/-- A frame of flits: its payload stream without the tag, and the tag. -/
def frameParts (fs : List (BitVec 2048)) : List Byte × List Byte :=
  let ps := fs.map (fun f => ((flitBytes f).drop 4).take 248)
  let all := ps.flatten
  (all.take (all.length - 16), all.drop (all.length - 16))

/-- A frame opened; none where its tag fails. CTRL and TIME frames are authenticated alone (11 R309). -/
def openFrame (key salt : List Byte) (c : Nat) (fs : List (BitVec 2048)) : Option (List Byte) :=
  let (ct, tag) := frameParts fs
  let iv := salt ++ bytesBE 8 c
  let aad := fs.flatMap aadOf
  if (fs.head?.map flitType) == some 1 then gcmOpen key iv aad ct tag
  else if gcmTag (aesKey key) iv (aad ++ ct) [] == tag then some ct else none

/-- The flits of one frame with its payload, from a SEQ on; ACK covers what has been received (11 R305, R309). -/
def buildFrame (l : Link) (dir ftype : Nat) (payload : List Byte) : List (Nat × BitVec 2048) :=
  let k := max 1 ((payload.length + 16 + 247) / 248)
  let body := payload ++ List.replicate (248 * k - 16 - payload.length) 0#8
  let (key, salt) := linkKey l.secret dir l.txKey
  let iv := salt ++ bytesBE 8 l.txFrame
  let hdr := fun (i : Nat) => (l.txSeq + i) % 4096 + put ((l.rxSeq + 4095) % 4096) 12 12 + put ftype 24 3 + put (bit (i + 1 == k)) 27 1 + put l.txKey 28 1
  let aad := (List.range k).flatMap (fun i => aadOf (BitVec.ofNat 2048 (hdr i)))
  let sealed := if ftype == 1 then (let r := gcmSeal key iv aad body; r.1 ++ r.2) else body ++ gcmTag (aesKey key) iv (aad ++ body) []
  (List.range k).map (fun i =>
    let bs := bytesLE 4 (hdr i) ++ (sealed.drop (248 * i)).take 248
    ((l.txSeq + i) % 4096, BitVec.ofNat 2048 (natLE (bs ++ bytesLE 4 (crc32 bs)))))

/-- A frame sent where the retry buffer has room, or kept waiting (11 R306). -/
def Link.send (l : Link) (dir ftype : Nat) (payload : List Byte) : Link :=
  let k := max 1 ((payload.length + 16 + 247) / 248)
  if !l.waitTx.isEmpty || l.retry.length + k > 1024 then { l with waitTx := l.waitTx ++ [(ftype, payload)] }
  else { l with retry := l.retry ++ buildFrame l dir ftype payload, txSeq := (l.txSeq + k) % 4096, txFrame := l.txFrame + 1 }

/-- Bytes sent on a link that is UP. -/
def linkSend (s : State) (n ftype : Nat) (payload : List Byte) : State :=
  if (linkOf s n).state == 4 then modLink s n (fun l => l.send (txDir s n) ftype payload) else s

/-- Waiting frames sent as far as there is room. -/
def Link.drain (l : Link) (dir : Nat) : Link :=
  l.waitTx.foldl (fun l f => l.send dir f.1 f.2) { l with waitTx := [] }

/-! Receiving (11 R305 to R307, R311). -/

/-- ACK and NACK applied to the retry buffer; a replay of one flit asked for a fifth time in a row has failed four times (11 R306, R307). -/
def applyAck (s : State) (n : Nat) (f : BitVec 2048) : State :=
  let l := linkOf s n
  let a := flitAck f
  if flitNack f then
    let gone := (a + 4096 - (match l.retry with | x :: _ => x.1 | [] => a)) % 4096
    let l := { l with retry := if gone ≤ l.retry.length then l.retry.drop gone else l.retry }
    if l.retry.isEmpty then setLink s n l
    else
      let k := match l.asked with | some (q, k) => if q == a then k + 1 else 1 | none => 1
      let s := linkEvent (setLink s n { l with asked := some (a, k), replays := satInc l.replays }) n .replay
      if k ≥ 5 then linkFail s n else s
  else
    let gone := (a + 1 + 4096 - (match l.retry with | x :: _ => x.1 | [] => (a + 1) % 4096)) % 4096
    setLink s n (({ l with retry := if gone ≤ l.retry.length then l.retry.drop gone else l.retry, asked := none } : Link).drain (txDir s n))

/-- A flit in error: it is discarded and a replay asked for; the fourth failed replay in a row fails the link (11 R306, R307). -/
def flitError (s : State) (n : Nat) (fec : Bool) : State :=
  let l := linkOf s n
  let l := { l with fecUncorr := if fec then satInc l.fecUncorr else l.fecUncorr, lastFlit := s.now }
  if !l.nackSent then setLink s n { l with nackSent := true, replayFails := 0 }
  else
    let s := setLink s n { l with replayFails := l.replayFails + 1 }
    if l.replayFails + 1 ≥ 4 then linkFail s n else s

/-- A frame that fails authentication: discarded and asked for again from its first flit; the second time the link fails (11 R311). -/
def authFailure (s : State) (n : Nat) : State :=
  let l := linkOf s n
  let first := match l.frame with | f :: _ => flitSeq f | [] => l.rxSeq
  let s := setLink s n { l with authFail := satInc l.authFail, frame := [], rxSeq := first, nackSent := true, authOnce := true }
  if l.authOnce then linkFail (linkEvent s n .auth) n else s

/-- A flit that carries a SEQ, taken in order; a frame that its LAST flit ends is verified, and its payload is given (11 R305 to R311). -/
def takeFlit (s : State) (n ftype : Nat) (f : BitVec 2048) : State × Option (List Byte) :=
  if (linkOf s n).state != 4 || flitType f != ftype then (s, none)
  else if !flitCrcOk f then (flitError s n false, none)
  else
    let s := applyAck (modLink s n (fun l => { l with lastFlit := s.now })) n f
    let l := linkOf s n
    if l.state != 4 then (s, none)
    else if flitSeq f != l.rxSeq then ((if l.nackSent then s else setLink s n { l with nackSent := true, replayFails := 0 }), none)
    else
      let l := { l with rxSeq := (l.rxSeq + 1) % 4096, nackSent := false, replayFails := 0, frame := l.frame ++ [f] }
      if !flitLast f then (setLink s n l, none)
      else
        let (key, c) := if flitKey f == l.rxKey % 2 then (l.rxKey, l.rxFrame) else (l.rxKey + 1, 0)
        let (k, salt) := linkKey l.secret (1 - txDir s n) key
        match openFrame k salt c l.frame with
        | some payload => (setLink s n { l with frame := [], authOnce := false, rxKey := key, rxFrame := c + 1 }, some payload)
        | none => (authFailure (setLink s n l) n, none)

/-- DATA_FLIT: the packets or messages of a verified frame are commands of their own (11 R305, R309, R311; assumption 42). -/
def execDataFlit (port : LinkNo) (flit : BitVec 2048) (s : State) : Out := .next (takeFlit s port 1 flit).1

/-- CTRL_FLIT: authenticated; the credits it carries bound nothing in this model (11 R305, R309; assumption 42). -/
def execCtrlFlit (port : LinkNo) (flit : BitVec 2048) (s : State) : Out := .next (takeFlit s port 2 flit).1

/-- IDLE_FLIT: ACK and NACK alone (11 R305). -/
def execIdleFlit (port : LinkNo) (flit : BitVec 2048) (s : State) : Out :=
  if (linkOf s port).state != 4 || flitType flit != 0 then .next s
  else if !flitCrcOk flit then .next (modLink s port (fun l => { l with lastFlit := s.now }))
  else .next (applyAck (modLink s port (fun l => { l with lastFlit := s.now })) port flit)

/-- FLIT_CRC_ERROR (11 R306). -/
def execFlitCrcError (port : LinkNo) (fec : Bool) (s : State) : Out :=
  if (linkOf s port).state == 4 then .next (flitError s port fec) else .next s

/-- FRAME_AUTH_FAIL (11 R311). -/
def execFrameAuthFail (port : LinkNo) (s : State) : Out :=
  if (linkOf s port).state == 4 then .next (authFailure s port) else .next s

/-- FLIT_SILENCE (11 R307). -/
def execFlitSilence (port : LinkNo) (s : State) : Out :=
  if (linkOf s port).state == 4 then .next (linkFail (reach s ((linkOf s port).lastFlit + 10 * us)) port) else .next s

/-- FEC_LOCK_LOSS (11 R307). -/
def execFecLockLoss (port : LinkNo) (s : State) : Out :=
  if (linkOf s port).state == 4 then .next (linkFail s port) else .next s

/-- KEY_ROLLOVER: the frame counter has reached 2^32, and the next frame goes under the next key (11 R310). -/
def execKeyRollover (port : LinkNo) (s : State) : Out :=
  if (linkOf s port).state == 4 then .next (modLink s port (fun l => { l with txKey := l.txKey + 1, txFrame := 0 })) else .next s

end Sys2Proof.Machine
end

