-- ==== Sys2Proof/Machine/Mailbox.lean ====
section
/-! DEFINITION. The mailbox ring: reading a command, the checks every command makes, the response, and the commands on the ring itself (15_registrar.md R426 to R434, R437, 17_security.md R490). -/

namespace Sys2Proof.Machine

/-- Slots of a function's mailbox ring (15 R423). -/
def mbSlots (x : Fn) : Nat := 2 ^ bitsAt x.mbCtrl.toNat 4 4

/-- OPCODE, NO_IRQ, TAG and DEADLINE of a request (15 R428). -/
def MbCmd.opcode (c : MbCmd) : Nat := fld c.slot 0 0 16
def MbCmd.noIrq (c : MbCmd) : Bool := flag c.slot 0 16
def MbCmd.tag (c : MbCmd) : Nat := fld c.slot 4 0 32
def MbCmd.deadline (c : MbCmd) : Nat := fld c.slot 8 0 64
/-- A field of the body. -/
def MbCmd.f (c : MbCmd) (off lo w : Nat) : Nat := fld c.slot off lo w

/-- The mask of the fields a request may set: byte offset, bit, width. -/
def fieldMask (fields : List (Nat × Nat × Nat)) : Nat :=
  fields.foldl (fun m f => m ||| ((2 ^ f.2.2 - 1) <<< (8 * f.1 + f.2.1))) 0

/-- Whether every bit of bytes 0x00 to 0xBF outside the header's and the given fields is zero (15 R428, R433). -/
def onlyFields (v : BitVec 2048) (fields : List (Nat × Nat × Nat)) : Bool :=
  let m := fieldMask ([(0, 0, 17), (4, 0, 32), (8, 0, 64)] ++ fields)
  (v.toNat % 2 ^ (8 * 0xC0)) ||| m == m

/-- The fixed bound of R437 for a command, where it is a fixed time; `none` otherwise (15 R437, 17 R490, 18 R519). -/
def mbBound (c : MbCmd) : Option Nat :=
  match c.opcode with
  | 0x0003 | 0x000C => some (1 * ms)
  | 0x0004 | 0x0005 | 0x0030 | 0x0050 | 0x0051 | 0x0052 | 0x0053 | 0x0054 => none
  | 0x0006 | 0x0007 => some (100 * ms)
  | 0x0008 => some (1100 * ms)
  | 0x000E => some (10 * ms)
  | 0x000F => some (200 * us)
  | 0x0023 | 0x0029 => some (5 * ms)
  | 0x0040 => some (1200 * us)
  | 0x0058 => if flag c.slot 0x10 0 then some (10 * ms) else none
  | 0x0062 => some (5 * ms)
  | 0x0065 => some (50 * ms)
  | 0x0071 => some (20 * ms)
  | 0x0072 => some (1000 * ms)
  | _ => some (100 * us)

/-- The response written, word 0xC0 last; the command leaves the ring, and vector 0 is raised (15 R429, R427). -/
def mbRespond (s : State) (f : Nat) (c : MbCmd) (status detail : Nat) (res : List Nat) : State :=
  let x := s.fn f
  let n := mbSlots x
  let phase := 1 - (c.index / n) % 2
  let base := x.mbBase.toNat + (c.index % n) * 256
  let w0 := c.opcode + put status 16 8 + put phase 31 1
  let results := (res.zipIdx).foldl (fun a p => a + put p.1 (8 * (0x0C + 8 * p.2)) 64) 0
  let rest := c.tag + put detail 32 8 + results + put s.now (8 * 0x2C) 64
  let s := cmWrite s f (base + 0xC4) (bytesLE 60 rest)
  let s := cmWrite s f (base + 0xC0) (bytesLE 4 w0)
  let s := s.modFn f (fun x => { x with active := x.active.filter (fun a => a.index != c.index), mbResp := (x.mbResp + 1) % 65536 })
  if c.noIrq then s else raiseVector s f 0

/-- A command answers: at once, or in isolated mode at the fixed instant of its bound (17 R490). -/
def mbAnswer (s : State) (f : Nat) (c : MbCmd) (status detail : Nat) (res : List Nat) : State :=
  if s.isolated && (mbBound c).isSome then
    s.modFn f (fun x => { x with active := x.active.map (fun a => if a.index == c.index then { a with answer := some (status :: detail :: res) } else a) })
  else mbRespond s f c status detail res

/-- What a command's body comes to. -/
inductive MbRes where
  /-- It has completed: status, DETAIL, results. -/
  | done (s : State) (status detail : Nat) (res : List Nat)
  /-- It has started and goes on; the number is kept for its later part. -/
  | going (s : State) (arg : Nat)

/-- A command that completed with OK. -/
def mbOk (s : State) (res : List Nat := []) : MbRes := .done s 0 0 res
/-- A command that failed and changed nothing. -/
def mbFail (s : State) (st : Status) (detail : Nat := 0) : MbRes := .done s st.code detail []

/-- The objects a request names, as numbers apart for each kind (15 R431). -/
def mbNames (f : Nat) (c : MbCmd) : List Nat :=
  let k := fun (kind off w : Nat) => (kind * 16 + f) * 2 ^ 64 + c.f off 0 w
  match c.opcode with
  | 0x21 | 0x22 | 0x23 | 0x24 | 0x25 | 0x26 | 0x28 | 0x30 | 0x4A => [k 1 0x10 32]
  | 0x29 => [k 2 0x10 32]
  | 0x2A | 0x31 | 0x32 => [k 1 0x10 32, k 3 0x18 32]
  | 0x2B | 0x33 => [k 3 0x10 32]
  | 0x3A | 0x3B | 0x3C | 0x3D => [k 4 0x10 32]
  | 0x43 | 0x44 => [k 5 0x10 8]
  | 0x51 | 0x52 | 0x53 | 0x54 | 0x55 => [6 * 2 ^ 68 + c.f 0x10 0 32]
  | _ => []

/-- Whether an earlier command in progress names an object that this one names; a CTX_DESTROY waits for no other command, since it ends them
(13 R395, 15 R431). -/
def mbBlocked (s : State) (f : Nat) (c : MbCmd) : Bool :=
  let mine := mbNames f c
  if mine.isEmpty then false
  else (List.range 9).any (fun g => (s.fn g).active.any (fun a =>
    a.answer.isNone && (c.opcode != 0x23 || a.opcode == 0x23) && (a.stamp < c.stamp || (a.stamp == c.stamp && (g < f || (g == f && decide ((a.index + 65536 - (s.fn f).mbResp) % 65536 < (c.index + 65536 - (s.fn f).mbResp) % 65536)))))
      && (mbNames g a).any (fun n => mine.contains n)))

/-- The command in progress that a slot names. -/
def mbFind (s : State) (m : MbSlot) : Option MbCmd := (s.fn m.fn).active.find? (fun a => a.index == m.index.toNat)

/-- A command's entry rewritten. -/
def mbKeep (s : State) (f : Nat) (c : MbCmd) : State :=
  s.modFn f (fun x => { x with active := x.active.map (fun a => if a.index == c.index then { c with answer := a.answer } else a) })

/-- What a command's own checks say, in the order of R433. -/
structure MbChecks where
  /-- The fields the request may set (check 1). -/
  fields : List (Nat × Nat × Nat)
  /-- Values in their ranges, and aligned (check 1). -/
  range : Bool := true
  /-- Allowed on the function, and within its reach (check 2). -/
  permitted : Bool := true
  /-- Handles match (check 3). -/
  handles : Bool := true

/-- The first check of R433 that fails: status and DETAIL. -/
def mbCheck (s : State) (f : Nat) (c : MbCmd) (k : MbChecks) : Option (Nat × Nat) :=
  if !(onlyFields c.slot k.fields && k.range) then some (Status.aborted.code, 1)
  else if !k.permitted then some (Status.permission.code, 2)
  else if !k.handles then some (Status.staleHandle.code, 3)
  else if f != 0 && (s.part (f - 1)).releasing then some (Status.aborted.code, 4)
  else if c.deadline != 0 && decide (s.now > c.deadline) then some (Status.timeout.code, 5)
  else none

/-- A mailbox command performed by the pair that serves: the checks of R433, its body, and its response; a command that has started runs its
later part. -/
def mbCommand (s : State) (m : MbSlot) (opcode : Nat) (mine : MbCmd → Bool) (checks : State → MbCmd → MbChecks)
    (body : State → MbCmd → MbRes) (later : State → MbCmd → MbRes := fun s c => .going s c.arg) : State :=
  let f := m.fn.val
  match mbFind s m with
  | none => s
  | some c =>
    if c.opcode != opcode || !mine c || c.answer.isSome || s.seq.fwState != 1 then s
    else
      let finish := fun (r : MbRes) => match r with
        | .done s st d res => mbAnswer s f c st d res
        | .going s a => mbKeep s f { c with started := some (c.started.getD s.now), arg := a }
      if c.started.isSome then finish (later s c)
      else if mbBlocked s f c then s
      else if s.seq.fnZeroOnly && f != 0 then mbAnswer s f c Status.isolated.code 0 []
      else
        match mbCheck s f c (checks s c) with
        | some (st, d) => mbAnswer s f c st d []
        | none => finish (body s c)

/-- A command that was going on answers, by its function and index. -/
def mbFinish (s : State) (f index status detail : Nat) (res : List Nat := []) : State :=
  match (s.fn f).active.find? (fun a => a.index == index) with
  | some c => if c.answer.isSome then s else mbAnswer s f c status detail res
  | none => s

/-- The opcodes of R435, R481 and R519 that are not reserved. -/
def mbOpcodes : List Nat :=
  (List.range 15).map (· + 1) ++ [0x20, 0x21, 0x22, 0x23, 0x24, 0x25, 0x26, 0x28, 0x29, 0x2A, 0x2B, 0x30, 0x31, 0x32, 0x33,
    0x38, 0x39, 0x3A, 0x3B, 0x3C, 0x3D, 0x40, 0x41, 0x42, 0x43, 0x44, 0x48, 0x49, 0x4A, 0x50, 0x51, 0x52, 0x53, 0x54, 0x55, 0x58]
    ++ [0x60, 0x61, 0x62, 0x63, 0x64, 0x65, 0x70, 0x71, 0x72]

/-- Whether a request's opcode, or the option of a CONFIG_SET, is reserved (15 R433 check 1, R436). -/
def mbReserved (slot : BitVec 2048) : Bool :=
  let op := fld slot 0 0 16
  !mbOpcodes.contains op || (op == 1 && (fld slot 0x10 0 8 == 0 || fld slot 0x10 0 8 > 6))

/-- MB_DB (15 R430). -/
def execMbDb (fn : FnNo) (v : Word) (s : State) : Out :=
  let x := s.fn fn
  let w := v.toNat % 65536
  let d := (w + 65536 - x.mbResp) % 65536
  let old := (x.mbWr + 65536 - x.mbResp) % 65536
  if !s.fnExists fn then .next s
  else if d > mbSlots x || d < old then .next (s.setFn fn { x with status := statusFlag x.status 16 })
  else .next (s.setFn fn { x with mbWr := w, mbStamp := s.now })

/-- MAILBOX_READ: the next slot, when its previous response is written and fewer than 16 commands are in progress; a
request with a reserved opcode is answered at once (15 R430, R433). -/
def execMailboxRead (fn : FnNo) (data : BitVec 2048) (s : State) : Out :=
  let x := s.fn fn
  let prev := (x.mbRd + 65536 - mbSlots x) % 65536
  if !s.fnExists fn || s.seq.fwState != 1 || bitsAt x.mbCtrl.toNat 0 1 == 0 || x.mbRd == x.mbWr || decide (x.active.length ≥ 16)
      || x.active.any (fun a => a.index == prev) then .next s
  else
    let c : MbCmd := { index := x.mbRd, slot := data, stamp := x.mbStamp, readAt := s.now }
    let s := s.setFn fn { x with active := x.active ++ [c], mbRd := (x.mbRd + 1) % 65536 }
    if mbReserved data then .next (mbAnswer s fn c Status.aborted.code 1 []) else .next s

/-- MAILBOX_DEADLINE: a command read and not started by its DEADLINE completes with TIMEOUT (15 R432, 12 R344). -/
def execMailboxDeadline (slot : MbSlot) (s : State) : Out :=
  match mbFind s slot with
  | some c =>
    if c.started.isSome || c.answer.isSome || c.deadline == 0 then .next s
    else .next (mbAnswer (reach s (c.deadline + 1)) slot.fn c Status.timeout.code 5 [])
  | none => .next s

/-- MAILBOX_FIXED_ANSWER: in isolated mode a command is answered at its bound after it was read (17 R490). -/
def execMailboxFixedAnswer (slot : MbSlot) (s : State) : Out :=
  match mbFind s slot with
  | some c =>
    match c.answer, mbBound c with
    | some (st :: d :: res), some b => .next (mbRespond (reach s (c.readAt + b)) slot.fn c st d res)
    | _, _ => .next s
  | none => .next s

/-- HEARTBEAT: one more on every function each 1 ms while a pair serves (15 R423). -/
def execHeartbeat (s : State) : Out :=
  if s.seq.fwState != 1 then .next s
  else
    let s := reach s ((s.fn 0).beatAt + ms)
    .next ((List.range 9).foldl (fun s f => if s.fnExists f then
      s.modFn f (fun x => { x with heartbeat := x.heartbeat + 1, beatAt := s.now }) else s) s)

/-- IRQ_MASK set: a cleared mask of a pending vector sends its message and clears the pending bit (15 R427). -/
def setIrqMask (s : State) (f : Nat) (m : DWord) : State :=
  let x := s.fn f
  let due := (List.range 64).filter (fun k => bitsAt x.pend.toNat k 1 == 1 && bitsAt m.toNat k 1 == 0)
  due.foldl (fun s k => sendIntr s f k) (s.setFn f { x with mask := m, pend := x.pend &&& m })

/-- A _LO value held, and the value that a _HI write makes of it (00 R4). -/
def holdLo (s : State) (blk : Block) (off : Nat) (v : Word) : State := { s with regs := { s.regs with held := Tbl.put s.regs.held (regKey blk off) v } }
def withHeld (s : State) (blk : Block) (off : Nat) (hi : Word) : Nat := (Tbl.getD s.regs.held (regKey blk off) 0#32).toNat + hi.toNat * 2 ^ 32

/-- IRQ_MASK_WRITE: IRQ_MASK is a writable pair, and its _HI write takes effect (00 R4, 15 R423, R427). -/
def execIrqMaskWrite (fn : FnNo) (hi : Bool) (v : Word) (s : State) : Out :=
  if !s.fnExists fn then .next s
  else if hi then .next (setIrqMask s fn (BitVec.ofNat 64 (withHeld s (.fn fn) 0x34 v)))
  else .next (holdLo s (.fn fn) 0x34 v)

/-- A queue doorbell that is ignored: QUEUE_DB_ERROR and QUEUE_ERROR (13 R376, 15 R426). -/
def queueDbError (s : State) (f q v : Nat) : State :=
  let s := s.modFn f (fun x => { x with status := statusFlag x.status 20 })
  postEvent s f 2 0 2 (put q 128 32 + put v 160 32)

/-- CMD_DB: the command ring's write index (13 R376, 15 R426). -/
def execCmdDb (fn : FnNo) (queue : BitVec 16) (v : Word) (s : State) : Out :=
  if fn.val == 0 || !s.fnExists fn then .next s else
  let q := queue.toNat
  match Tbl.find s.work.queues q with
  | some x =>
    let w := v.toNat % 65536
    let d := (w + 65536 - x.rd) % 65536
    let old := (x.wr + 65536 - x.rd) % 65536
    let dying := x.destroyAt.isSome || ((Tbl.find s.work.ctxs x.ctx).map (·.state)) == some .destroying
    if s.partOfQueue q != fn.val - 1 || dying || d > x.entries || d < old then .next (queueDbError s fn q w)
    else .next (modQueue s q (fun x => { x with wr := w, dbStamp := s.now }))
  | none => .next (queueDbError s fn q (v.toNat % 65536))

/-- CPL_DB: completion slots returned (13 R376, 15 R426). -/
def execCplDb (fn : FnNo) (queue : BitVec 16) (v : Word) (s : State) : Out :=
  if fn.val == 0 || !s.fnExists fn then .next s else
  let q := queue.toNat
  match Tbl.find s.work.queues q with
  | some x =>
    let w := v.toNat % 65536
    let d := (w + 65536 - x.returned) % 65536
    let room := (x.written % 65536 + 65536 - x.returned) % 65536
    let dying := x.destroyAt.isSome || ((Tbl.find s.work.ctxs x.ctx).map (·.state)) == some .destroying
    if s.partOfQueue q != fn.val - 1 || dying || d > room then .next (queueDbError s fn q w)
    else .next (modQueue s q (fun x => { x with returned := w }))
  | none => .next (queueDbError s fn q (v.toNat % 65536))

end Sys2Proof.Machine
end

