-- ==== Sys2Proof/Machine/Catalogue.lean ====
section
/-! DEFINITION. The Catalogue: table entries and their checks, lookups, miss records, the firmware walk, fault records, local translations, receiving-side windows, the dirty log and invalidation (09_translation.md R243 to R272). -/

namespace Sys2Proof.Machine

/-- Bytes of a page (09 R243). -/
def pageBytes : Nat := 0x200000

/-! Entries (09 R244 to R251). -/

def leafV (l : DWord) : Bool := flag l 0 0
def leafType (l : DWord) : Nat := fld l 0 1 2
def leafR (l : DWord) : Bool := flag l 0 3
def leafW (l : DWord) : Bool := flag l 0 4
def leafX (l : DWord) : Bool := leafType l == 1 && flag l 0 5
def leafSealed (l : DWord) : Bool := leafType l == 1 && flag l 0 6
def leafDlog (l : DWord) : Bool := leafType l == 1 && flag l 0 7
def leafSize (l : DWord) : Nat := fld l 0 8 4
def leafHome (l : DWord) : Nat := fld l 0 14 7
def leafPA (l : DWord) : Nat := fld l 0 21 25 * 2 ^ 21
def leafCmp (l : DWord) : Nat := fld l 0 46 16
def leafDevice (l : DWord) : Nat := fld l 0 14 14
def leafWindow (l : DWord) : Nat := fld l 0 28 8
def leafOffset (l : DWord) : Nat := fld l 0 36 19 * 2 ^ 21
def leafRemote (l : DWord) : Bool := leafType l == 2
def leafBytes (l : DWord) : Nat := 2 ^ leafSize l * pageBytes

/-- Whether a leaf permits an access: 0 read, 1 write, 2 fetch, 3 AMO (09 R248). -/
def leafPermits (l : DWord) (access : Nat) : Bool :=
  match access with
  | 0 => leafR l
  | 1 => leafW l
  | 2 => leafR l && leafX l
  | _ => leafR l && leafW l

/-- Whether a local extent stays in one view and clear of the reserved areas (09 R250). -/
def extentOk (pa n : Nat) : Bool :=
  if pa < 0x10000000000 then
    decide (pa + n ≤ 0x10000000000) && decide (pa / 2 ^ 33 = (pa + n - 1) / 2 ^ 33) && decide ((pa + n - 1) % 2 ^ 33 < registrarArea)
  else
    let row := 48 * 2 ^ 30
    let x := pa - 0x10000000000
    decide (pa + n ≤ 0x1C000000000) && decide (x / row = (x + n - 1) / row) && decide (x % row + n ≤ row - 2 ^ 28)

/-- Whether a leaf at a level is valid; `win` for a window's tables (09 R246, R247, R249 to R251). -/
def leafValid (s : State) (l : DWord) (level : Nat) (win : Bool) : Bool :=
  let k := leafSize l
  let lvl := if k ≤ 11 then level == 3 else level == 2
  if leafType l == 1 then
    lvl && fld l 0 12 2 == 0 && fld l 0 62 2 == 0 && leafPA l % leafBytes l == 0 && extentOk (leafPA l) (leafBytes l)
      && (leafPA l ≥ 0x10000000000 || leafHome l == leafPA l / 2 ^ 33) && (!leafDlog l || k == 0) && cmpValid (leafCmp l)
  else if leafType l == 2 then
    lvl && !win && fld l 0 5 3 == 0 && fld l 0 12 2 == 0 && fld l 0 55 9 == 0 && leafOffset l % leafBytes l == 0
      && leafDevice l != s.fab.deviceId
  else false

/-- The 2 MiB pages of direct addresses that a page of a leaf touches: one, or one on each stack in the interleaved view. -/
def directPages (pa : Nat) : List Nat :=
  match direct? pa with
  | some d => if pa < 0x10000000000 then [d / pageBytes] else (List.range 8).map (fun k => (d % 2 ^ 37 + k * 2 ^ 37) / pageBytes)
  | none => []

/-- The direct pages of a local leaf's extent. -/
def leafPages (l : DWord) : List Nat :=
  (List.range (2 ^ leafSize l)).flatMap (fun i => directPages (leafPA l + i * pageBytes))

/-- The rules of R485: a sealed leaf needs a sealed partition, and a leaf that is not sealed maps no marked page. -/
def sealRule (s : State) (p : Nat) (l : DWord) : Bool :=
  if leafType l != 1 then true
  else if leafSealed l then s.sec.sealedParts.contains p
  else !(leafPages l).any (fun g => s.ot.sealMap.contains g)

/-- Whether every byte of a physical range lies in Shelves whose masks hold the partition (06 R157, 09 R256 check 4). -/
def insidePart (s : State) (p pa n : Nat) : Bool :=
  if pa < 0x10000000000 then shelfAllows s p pa && shelfAllows s p (pa + n - 1)
  else
    let r := (pa - 0x10000000000) / (48 * 2 ^ 30)
    (List.range 8).all (fun k => shelfAllows s p ((k * 16 + r) * 2 ^ 33))

/-- What a walk comes to. -/
inductive Walk where
  /-- A leaf that passed checks 1 to 4, and its level. -/
  | leaf (s : State) (l : DWord) (level : Nat)
  /-- The cause of R259 and the level. -/
  | fail (s : State) (cause level : Nat)
  /-- A table read that waits for a companion's answer. -/
  | wait (s : State)

/-- The index of a virtual address at a level (09 R243). -/
def tableIndex (va level : Nat) : Nat := match level with | 1 => bitsAt va 45 12 | 2 => bitsAt va 33 12 | _ => bitsAt va 21 12

/-- The walk from a table at a level (09 R256). -/
def walkFrom (s : State) (p : Nat) (win : Bool) (va base : Nat) : Nat → Walk
  | 0 => .fail s 2 3
  | n + 1 =>
    let level := 3 - n
    match regRead s (base + 8 * tableIndex va level) 8 with
    | .wait s => .wait s
    | .bad s _ => .fail s 2 level
    | .ok s (bs, bad) =>
      let e : DWord := BitVec.ofNat 64 (natLE bs)
      if bad then .fail s 5 level
      else if !leafV e then .fail s 1 level
      else if leafType e == 0 then
        let next := fld e 0 15 31 * 2 ^ 15
        if level == 3 || fld e 0 3 12 != 0 || fld e 0 46 18 != 0 || (usable next).isNone then .fail s 2 level
        else if !insidePart s p next 0x8000 then .fail s 3 level
        else walkFrom s p win va next n
      else if !leafValid s e level win || !sealRule s p e then .fail s 2 level
      else if leafType e == 1 && !insidePart s p (leafPA e) (leafBytes e) then .fail s 3 level
      else .leaf s e level

/-- The root of a key: a context's ROOT while it holds a resident slot, or a window's (09 R244, R266, R272). -/
def keyRoot (s : State) (key : Nat) : Option Nat :=
  if key < 2 ^ 20 then
    match Tbl.find s.work.ctxs key with
    | some c => if c.slot.isSome then some c.root else none
    | none => none
  else (Tbl.find s.cat.windows (key - 2 ^ 20)).map (·.root)

/-- The partition of a key. -/
def keyPart (s : State) (key : Nat) : Nat :=
  if key < 2 ^ 20 then ctxPart key else ((Tbl.find s.cat.windows (key - 2 ^ 20)).map (·.part)).getD 0

def modCat (s : State) (f : Cat → Cat) : State := { s with cat := f s.cat }

/-- Whether an entry covers an address of a key. -/
def CatEntry.covers (e : CatEntry) (key va : Nat) : Bool := e.key == key && decide (e.va ≤ va) && decide (va < e.va + e.bytes)

/-- The entry for a leaf. -/
def entryOf (s : State) (key va : Nat) (l : DWord) : CatEntry :=
  { key, part := keyPart s key, va := va - va % leafBytes l, bytes := leafBytes l, leaf := l }

/-- Every line of a range freed of its holders and dropped from the cache, and the stored bytes zeroed; false while a companion's answer is awaited (07 R195, 17 R485). -/
def purgeRange (s : State) (d n : Nat) : State × Bool :=
  let inR := fun (l : Nat) => decide (d ≤ 128 * l) && decide (128 * l < d + n)
  let held := Tbl.keep s.mem.dir (fun l _ => inR l)
  let s := held.foldl (fun s e => (outsideWrite s e.1 (partOfAddr s d)).1) s
  if s.mem.txns.any (fun t => inR t.1) then (s, false)
  else (s.modMem (fun m => { m with
    msc := Tbl.keep m.msc (fun l _ => !inR l), dram := Mem.clear m.dram d (d + n), poison := m.poison.filter (fun c => !(decide (d ≤ 32 * c) && decide (32 * c < d + n))) }), true)

/-- Before the first sealed leaf of a page is installed, the page is emptied and marked, and so is the tag-area page of a page with
tag bytes; false while it must wait (16 R450, 17 R485). -/
def sealPages (s : State) (l : DWord) : State × Bool :=
  if !leafSealed l then (s, true)
  else
    let new := (leafPages l).filter (fun g => !s.ot.sealMap.contains g)
    let (s, ok) := new.foldl (fun (a : State × Bool) g => let (s, o) := purgeRange a.1 (g * pageBytes) pageBytes; (s, a.2 && o)) (s, true)
    let tags := if cmpTagged (leafCmp l) then new.map (fun g => (shelfOf (g * pageBytes) * 2 ^ 33 + tagArea) / pageBytes) else []
    if ok then (s.modOt (fun o => { o with sealMap := (new ++ tags).foldl NSet.ins o.sealMap }), true) else (s, false)

/-- An entry installed at the front of its partition's share, its oldest replaced (09 R252). -/
def installEntry (s : State) (e : CatEntry) : State :=
  let share := 65536 / s.nparts
  modCat s (fun c =>
    let rest := c.entries.filter (fun x => !(x.key == e.key && x.va == e.va && x.bytes == e.bytes))
    let mine := rest.filter (fun x => x.part == e.part)
    let rest := if mine.length ≥ share then match mine.getLast? with
      | some old => rest.filter (fun x => x != old)
      | none => rest
      else rest
    { c with entries := e :: rest })

/-- A hit: the entry moves to the front. -/
def catHit (s : State) (key va : Nat) : Option (CatEntry × State) :=
  match s.cat.entries.find? (fun e => e.covers key va) with
  | some e => some (e, modCat s (fun c => { c with entries := e :: c.entries.filter (fun x => x != e) }))
  | none => none

/-- An event of CAT_STATUS with its partition; the ERROR that R272 gives it (09 R272). -/
def catEvent (s : State) (b part : Nat) (err : Option (Nat × Nat)) : State :=
  let r := statusEvent s.cat.status (2 ^ b + 0x70000) (2 ^ b + put part 16 3)
  let s := modCat s (fun c => { c with status := r })
  match err with
  | some (sev, parts) => postError s { block := 8, inst := 0, cause := b, sev, parts, off := 4, seq := evtSeq r, reg := r.toNat }
  | none => s

/-! Miss records and local translations (09 R253, R255, R262). -/

/-- A waiter joins a miss record once. -/
def addWaiter (m : MissRec) (w : Waiter) : MissRec :=
  if m.waiters.any (fun x => x.req == w.req && x.port == w.port) then m else { m with waiters := m.waiters ++ [w] }

/-- A miss takes a free record of its partition, or joins the busy one of its page; with none free it waits (09 R255). -/
def takeMiss (s : State) (key : Nat) (w : Waiter) : State :=
  let page := alignDown w.va pageBytes
  let p := keyPart s key
  match s.cat.misses.find? (fun m => m.2.key == key && m.2.va == page) with
  | some (i, _) => modCat s (fun c => { c with misses := Tbl.upd c.misses i (fun m => addWaiter m w) })
  | none =>
    let n := 512 / s.nparts
    match Tbl.freeKey s.cat.misses (p % s.nparts * n) ((p % s.nparts + 1) * n) with
    | none => s
    | some i => modCat s (fun c => { c with
        misses := Tbl.put c.misses i { key, part := p, va := page, waiters := [w], taken := s.now }, missCount := satInc c.missCount })

/-- The most local translations a requester keeps (09 R253). -/
def localMax (req : Nat) : Nat := if req < 192 then 32 else 128

/-- A local translation of a core or a collective engine. -/
def localFind (s : State) (req key va : Nat) : Option CatEntry :=
  (Tbl.getD s.cat.locals req []).find? (fun e => e.covers key va)

/-- A local translation kept, most recent first. -/
def localKeep (s : State) (req : Nat) (e : CatEntry) : State :=
  modCat s (fun c => { c with locals := Tbl.updD c.locals req [] (fun l => (e :: l.filter (fun x => x != e)).take (localMax req)) })

/-- A lookup of one page: the entry, where it is held and permits the access; otherwise a miss record is taken or joined. A hit
that does not permit the access takes its place in the batch as a miss does, without counting as one (09 R248, R255, R258, R262). -/
def lookup (s : State) (key : Nat) (w : Waiter) : State × Option CatEntry :=
  match catHit s key w.va with
  | some (e, s) => if leafPermits e.leaf w.access then (s, some e)
    else (modCat (takeMiss s key w) (fun c => { c with missCount := s.cat.missCount }), none)
  | none => (takeMiss s key w, none)

/-- A batch of addresses, in the requester's own order; none while any page is missing (09 R262). -/
def lookupAll (s : State) (key : Nat) : List Waiter → State × Option (List CatEntry)
  | [] => (s, some [])
  | w :: ws =>
    let (s, e) := lookup s key w
    let (s, es) := lookupAll s key ws
    (s, match e, es with | some e, some es => some (e :: es) | _, _ => none)

/-- The physical address, or the fabric global address, that an entry gives (09 R246, R247). -/
def entryPA (e : CatEntry) (va : Nat) : Nat := leafPA e.leaf + (va - e.va)
def entryGlobal (e : CatEntry) (va : Nat) : Nat × Nat × Nat := (leafDevice e.leaf, leafWindow e.leaf, leafOffset e.leaf + (va - e.va))

/-! What a failing walk does to its waiters (09 R259 to R261). -/

/-- The status of a cause (09 R260). -/
def causeStatus (cause : Nat) : Nat :=
  match cause with
  | 1 | 2 => Status.translationFault.code
  | 5 => Status.parityUnrecovered.code
  | _ => Status.permission.code

/-- The mover cause of a walk's cause (09 R260). -/
def causeMover (cause : Nat) : Nat := match cause with | 1 | 2 => 4 | 5 => 7 | _ => 5

/-- Whether a requester can hold: a mover in pre-translation, or a Shelver in admission (09 R261). -/
def canHold (w : Waiter) : Bool := decide (192 ≤ w.req) && decide (w.req < 256)

/-- The translation part of a fault record, as a number from its first byte (09 R259). -/
def translationBody (s : State) (key va cause access level status : Nat) (ws : List Waiter) : Nat :=
  let at_ := fun (off v w : Nat) => put v (8 * off) w
  let slot := if key < 2 ^ 20 then ((Tbl.find s.work.ctxs key).bind (·.slot)).getD 0 else 0x3F
  let set := ws.foldl (fun m w => m ||| 2 ^ w.req) 0
  at_ 0 va 57 + put slot 64 6 + (if key < 2 ^ 20 then 0 else put (key - 2 ^ 20) 72 8) + put cause 80 4 + put access 84 2 + put level 86 2
    + put status 88 8 + put ws.length 96 9 + at_ 0x10 set 320 + at_ 0x38 s.now 64

/-- The tile, and its command, that a waiter works for. -/
def waiterTile (s : State) (w : Waiter) : Nat :=
  if w.req < 192 then (s.bay (w.req / 6)).tile else if w.req < 224 then (s.mover (w.req - 192) w.port).tile else 0

/-- The SEQ of the record that ends a tile's command, kept for its completion (13 R374). -/
def noteTileSeq (s : State) (id seq : Nat) : State := modTile s id (fun t => { t with faultSeq := seq })

/-- A collective ended by its engine's failing page: the status, and the record's SEQ for its completion (09 R260, 11 R331). -/
def failColl (s : State) (g id st seq : Nat) : State :=
  let e := s.fab.engine g
  match Tbl.find e.open_ id with
  | none => s
  | some c =>
    let s := { s with fab := { s.fab with engines := Tbl.put s.fab.engines g { e with open_ := Tbl.put e.open_ id { c with bad := some (c.bad.getD st) } } } }
    modCmd s c.cmd (fun c => { c with faultSeq := if c.faultSeq == 0 then seq else c.faultSeq })

/-- A waiter ended with a cause (09 R260): a mover port halts, a core traps, a Shelver command fails its admission. -/
def failWaiter (s : State) (w : Waiter) (cause seq : Nat) : State :=
  let st := causeStatus cause
  let s := noteTileSeq s (waiterTile s w) seq
  if w.req < 192 then
    let page := match w.access with | 0 => 13 | 2 => 12 | _ => 15
    let acc := match w.access with | 0 => 5 | 2 => 1 | _ => 7
    trapCore s (w.req / 6) (w.req % 6) (if cause ≤ 2 then page else acc) w.va st
  else if w.req < 224 then
    let b := w.req - 192
    let (i, tag) := groupFailing (s.bay b) (s.mover b w.port) w.va
    moverFail s b w.port (causeMover cause) 0 w.va i (s.mover b w.port).rd tag
  else if w.req < 256 then
    s.modShelver (w.req - 224) (fun x => { x with runs := Tbl.put x.runs w.port ({ index := (Tbl.getD x.queues w.port {}).rd, status := st, r0 := w.va, noPublish := true } : ShRun), heldOn := Tbl.del x.heldOn w.port })
  else if w.req < 260 then failColl s (w.req - 256) w.port st seq
  else s

/-- A waiter held under RETRY: a mover port halts at its TILE_BEGIN, a Shelver keeps its command unstarted (09 R261). -/
def holdWaiter (s : State) (w : Waiter) (cause seq : Nat) : State :=
  if w.req < 224 then
    let b := w.req - 192
    let s := haltMover s b w.port (causeMover cause) (causeStatus cause) w.va (groupFailing (s.bay b) (s.mover b w.port) w.va).1 (s.mover b w.port).rd
    let s := modTile s (s.mover b w.port).tile (fun t => { t with heldSince := some s.now })
    s.modMover b w.port (fun m => { m with heldOn := some seq })
  else s.modShelver (w.req - 224) (fun x => { x with heldOn := Tbl.put x.heldOn w.port seq })

/-- A record posted for a failing page, and its waiters held or ended (09 R259, R261). -/
def postTranslation (s : State) (key va cause level : Nat) (ws : List Waiter) : State :=
  let st := causeStatus cause
  let acc := (ws.head?.map (·.access)).getD 0
  let body := translationBody s key va cause acc level st ws
  let s := modCat s (fun c => { c with faultCount := satInc c.faultCount })
  let p := keyPart s key
  let s := catEvent s 21 p none
  let s := if cause == 5 then catEvent s 20 p (some (2, 0)) else s
  if key < 2 ^ 20 then
    let (s, seq) := writeFault s key { kind := 1, status := st, body }
    let retry := ((Tbl.find s.work.ctxs key).map (fun c => c.retry && c.state != .destroying)).getD false
    if retry && ws.all canHold then
      let seq := ((Tbl.find s.work.ctxs key).map (·.seq)).getD 0
      let r : FaultRec := { seq, va, status := st, posted := s.now, access := acc, waiters := ws.foldl (fun m w => NSet.ins m (w.req + 1024 * w.port)) [] }
      let s := s.modWork (fun w => { w with faultRecs := Tbl.put w.faultRecs (key * 65536 + seq) r })
      ws.foldl (fun s w => holdWaiter s w cause seq) s
    else ws.foldl (fun s w => failWaiter s w cause seq) s
  else s

/-- Requesters of a slot that has been dropped end with ABORTED (09 R256, R271). -/
def abortWaiter (s : State) (w : Waiter) : State :=
  if w.req < 192 then trapCore s (w.req / 6) (w.req % 6) 13 w.va Status.aborted.code
  else if w.req < 224 then
    let b := w.req - 192
    failTile (haltMover s b w.port 4 Status.aborted.code w.va 0 (s.mover b w.port).rd) (s.mover b w.port).tile Status.aborted.code w.req w.va id
  else if w.req < 256 then
    s.modShelver (w.req - 224) (fun x => { x with runs := Tbl.put x.runs w.port ({ index := (Tbl.getD x.queues w.port {}).rd, status := Status.aborted.code, noPublish := true } : ShRun), heldOn := Tbl.del x.heldOn w.port })
  else if w.req < 260 then failColl s (w.req - 256) w.port Status.aborted.code 0
  else s

/-- Movers and Shelvers that a record ends or holds leave the other records of their batch (09 R259, R262). -/
def leaveMisses (s : State) (ws : List Waiter) : State :=
  modCat s (fun c => { c with misses := Tbl.mapV c.misses (fun _ m => { m with
    waiters := m.waiters.filter (fun x => !ws.any (fun w => canHold w && w.req == x.req && w.port == x.port)) }) })

/-- Whether a mover or a Shelver that waits on a record waits on an earlier one of its batch too: its first failing page is then not yet known (09 R262). -/
def batchBefore (s : State) (i : Nat) (m : MissRec) : Bool :=
  m.waiters.any (fun w => canHold w && s.cat.misses.any (fun e => decide (e.1 < i) && e.2.waiters.any (fun x => x.req == w.req && x.port == w.port)))

/-- Whether an invalidation's scope covers an entry: an extent that it touches in any part goes whole. -/
def Inval.covers (i : Inval) (e : CatEntry) : Bool :=
  let touches := decide (e.va < i.base + i.bytes) && decide (i.base < e.va + e.bytes)
  match i.scope with
  | 0 => e.key == i.key && touches
  | 1 => e.key == i.key
  | 2 => e.key == i.key && touches
  | _ => e.part == i.part

/-- A translation of a mover's buffer, or of a Shelver's, as an entry. -/
def ttbEntry (e : TtbEntry) : CatEntry := { key := e.ctx, part := ctxPart e.ctx, va := e.va, bytes := e.bytes, leaf := e.leaf }
def shEntry (e : Nat × Nat × Nat × DWord) : CatEntry := { key := e.1, part := ctxPart e.1, va := e.2.1, bytes := e.2.2.1, leaf := e.2.2.2 }

/-- Point 1 of R264: no entry and no local translation of the scope remains. -/
def invalPoint1 (s : State) (i : Inval) : Bool :=
  !s.cat.entries.any i.covers && !s.cat.locals.any (fun l => l.2.any i.covers)
    && (List.range 32).all (fun b => !(s.bay b).ttb.any (fun e => i.covers (ttbEntry e)))
    && (List.range 32).all (fun n => !(s.shelver n).runs.any (fun r => r.2.ttb.any (fun e => i.covers (shEntry e))))

/-- Point 1 noted for every invalidation for which it holds now. -/
def settlePoint1 (s : State) : State :=
  modCat s (fun c => { c with invals := Tbl.mapV c.invals (fun _ v => { v with clear := v.clear || invalPoint1 s v }) })

/-- Whether a miss record is not served yet: an invalidation that runs covers it, and point 1 of R264 does not hold for it, or it holds its
misses (09 R265, 10 R295). -/
def missHeld (s : State) (m : MissRec) : Bool :=
  s.cat.invals.any (fun v => v.2.covers { key := m.key, part := m.part, va := m.va, bytes := pageBytes, leaf := 0#64 } && (v.2.hold || !v.2.clear))

/-- The walk of a miss record; a page that the Catalogue holds an entry for is decided by that entry, since a change of the tables takes
effect only after an invalidation (09 R254, R256). -/
def missWalk (s : State) (m : MissRec) (root : Nat) : Walk :=
  match s.cat.entries.find? (fun e => e.covers m.key m.va) with
  | some e => .leaf s e.leaf (if leafSize e.leaf ≤ 11 then 3 else 2)
  | none => walkFrom s m.part (decide (m.key ≥ 2 ^ 20)) m.va root 3

/-- A miss record walked (09 R256 to R258): the entry installed and its waiters left to retry, or a record posted. -/
def walkMiss (s : State) (i : Nat) : State :=
  let s := settlePoint1 s
  match Tbl.find s.cat.misses i with
  | none => s
  | some m =>
    if missHeld s m then s else
    let drop := fun (s : State) => modCat s (fun c => { c with
      misses := Tbl.del c.misses i
      invals := Tbl.mapV c.invals (fun _ v => { v with misses := NSet.rem v.misses i })
      walkMax := BitVec.ofNat 32 (max c.walkMax.toNat (min (s.now - m.taken) (2 ^ 32 - 1))) })
    match keyRoot s m.key with
    | none => m.waiters.foldl abortWaiter (drop s)
    | some root =>
      match missWalk s m root with
      | .wait s => s
      | .fail s cause level =>
        if batchBefore s i m then s
        else if m.waiters.isEmpty then drop s
        else postTranslation (leaveMisses (drop s) m.waiters) m.key ((m.waiters.head?.map (·.va)).getD m.va) cause level m.waiters
      | .leaf s l level =>
        let (s, ok) := sealPages s l
        if !ok then s
        else
          let s := installEntry (drop s) (entryOf s m.key m.va l)
          let s := if leafSealed l && m.key < 2 ^ 20 then modCtx s m.key (fun c => { c with sealedRead := true }) else s
          let bad := m.waiters.filter (fun w => !leafPermits l w.access)
          match bad with
          | [] => s
          | w :: _ => postTranslation s m.key w.va 4 level bad

/-- The key of a lookup. -/
def keyOf (k : LookupKey) : Nat := match k with | .ctx p i => p.val * 4096 + i.val | .window w => 2 ^ 20 + w.val
def accessOf (a : Access) : Nat := match a with | .read => 0 | .write => 1 | .fetch => 2 | .atomic => 3

/-- CATALOGUE_LOOKUP: a batch of pages from an address (09 R253, R255, R262). -/
def execCatalogueLookup (req : Fin 1024) (key : LookupKey) (va : BitVec 57) (access : Access) (pages : Nat) (s : State) : Out :=
  let ws := (List.range pages).map (fun i =>
    ({ req := req, access := accessOf access, va := if i == 0 then va.toNat else alignDown va.toNat pageBytes + i * pageBytes } : Waiter))
  let (s, es) := lookupAll s (keyOf key) ws
  match es with
  | some es => .next (if req.val < 192 || (256 ≤ req.val && req.val < 260) then es.foldl (fun s e => localKeep s req e) s else s)
  | none => .next s

/-! The dirty log (09 R268 to R270). -/

/-- The bits of a DIRTY message set in every copy of an entry. -/
def markDirty (s : State) (key va m : Nat) : State :=
  let f := fun (e : CatEntry) => if e.covers key va then { e with mask := e.mask ||| m } else e
  modCat s (fun c => { c with entries := c.entries.map f, locals := Tbl.mapV c.locals (fun _ l => l.map f) })

/-- A DIRTY message: a record in the partition's ring, or OVERFLOW where it is full, and the bit set (09 R268, R269). -/
def dirtyBlock (s : State) (key va : Nat) : State :=
  match s.cat.entries.find? (fun e => e.covers key va) with
  | none => s
  | some e =>
    let blk := (va % pageBytes) / 65536
    if !leafDlog e.leaf || bitsAt e.mask blk 1 == 1 then s
    else
      let d := Tbl.getD s.cat.dlog e.part {}
      let size := 2 ^ bitsAt d.ctrl.toNat 2 6
      let setD := fun (s : State) (d : Dlog) => modCat s (fun c => { c with dlog := Tbl.put c.dlog e.part d })
      let mark := fun (s : State) => markDirty s key va (2 ^ blk)
      if bitsAt d.ctrl.toNat 0 1 == 0 then mark s
      else if (d.wr - d.rd).toNat ≥ size then
        let was := bitsAt d.ctrl.toNat 1 1 == 1
        let s := setD s { d with ctrl := d.ctrl ||| 2#32 }
        mark (if was then s else catEvent s 22 e.part (some (2, 2 ^ e.part)))
      else
        let rc := put (2 ^ blk) 0 32 + put (leafPA e.leaf / pageBytes) 32 25
        let s := cmWrite s (e.part + 1) (d.base.toNat + 8 * (d.wr.toNat % size)) (bytesLE 8 rc)
        mark (setD s { d with wr := d.wr + 1 })

/-- DIRTY (09 R268). -/
def execDirty (key : LookupKey) (va : BitVec 57) (s : State) : Out := .next (dirtyBlock s (keyOf key) va.toNat)

/-! Invalidation (09 R263 to R265, R271). -/

/-- The entries and local translations of a scope dropped; movers' entries that a tile holds are marked, groups not yet started are dropped (09 R264). -/
def invalNow (s : State) (i : Inval) : State :=
  let s := modCat s (fun c => { c with entries := c.entries.filter (fun e => !i.covers e), locals := Tbl.mapV c.locals (fun _ l => l.filter (fun e => !i.covers e)) })
  (List.range 32).foldl (fun s b =>
    let x := s.bay b
    if !x.ttb.any (fun e => i.covers (ttbEntry e)) then s
    else
      let idle := fun (p : Nat) => !(x.mover p).tile == x.tile && (x.mover p).started.isEmpty
      let drop := (List.range 2).filter (fun p => idle p && x.ttb.any (fun e => e.tiles.contains (x.mover p).tile && i.covers (ttbEntry e)))
      let gone := drop.map (fun p => (x.mover p).tile)
      let s := s.modBay b (fun x => { x with
        ttb := (x.ttb.filter (fun e => !(e.tiles.all gone.contains && i.covers (ttbEntry e)))).map (fun e => if i.covers (ttbEntry e) then { e with hit := true } else e) })
      drop.foldl (fun s p => s.modMover b p (fun m => { m with ready := 0, groupSize := 0 })) s) s

/-- Whether every point of R264 holds for a running invalidation. -/
def invalDone (s : State) (i : Inval) : Bool := i.misses.isEmpty && (i.clear || invalPoint1 s i)

/-- Commands whose invalidation is done answer with OK (09 R264). -/
def settleInvals (s : State) : State :=
  s.cat.invals.foldl (fun s i =>
    if i.2.hold || !invalDone s i.2 then s
    else mbFinish (modCat s (fun c => { c with invals := Tbl.del c.invals i.1 })) (i.1 / 65536) (i.1 % 65536) 0 0) s

/-- TABLE_WALK (09 R256); in isolated mode the waiters learn of it at the fixed instant of MISS_FIXED_RESUME (17 R490). -/
def execTableWalk (record : Fin 512) (s : State) : Out :=
  if s.isolated then
    let s := settlePoint1 s
    match Tbl.find s.cat.misses record with
    | some m => if missHeld s m then .next s else match (keyRoot s m.key).map (missWalk s m) with
      | some (.wait s) => .next s
      | some (.leaf s l _) =>
        match sealPages s l with
        | (s, false) => .next s
        | (s, true) => .next (modCat (installEntry s (entryOf s m.key m.va l)) (fun c => { c with misses := Tbl.upd c.misses record (fun m => { m with walked := true }) }))
      | _ => .next (modCat s (fun c => { c with misses := Tbl.upd c.misses record (fun m => { m with walked := true }) }))
    | none => .next s
  else .next (settleInvals (walkMiss s record))

/-- MISS_FIXED_RESUME: in isolated mode the waiters of a miss resume at its fixed latency after allocation, so the walk's result
is seen only then (09 R257, 17 R490). -/
def execMissFixedResume (record : Fin 512) (s : State) : Out :=
  match Tbl.find s.cat.misses record with
  | some m => if s.isolated && m.walked then .next (settleInvals (walkMiss (reach s (m.taken + 25 * us)) record)) else .next s
  | none => .next s

/-- The miss records of a scope that are busy. -/
def invalMisses (s : State) (i : Inval) : NSet :=
  (s.cat.misses.filter (fun m => i.covers { key := m.2.key, part := m.2.part, va := m.2.va, bytes := pageBytes, leaf := 0#64 })).map (·.1)

/-- A context's slot dropped: its entries, its local translations, and its misses, whose waiters end with ABORTED (09 R252, R271). -/
def dropSlot (s : State) (key : Nat) : State :=
  let i : Inval := { part := ctxPart key, scope := 1, key, base := 0, bytes := 0 }
  let ms := s.cat.misses.filter (fun m => m.2.key == key)
  let s := modCat (invalNow s i) (fun c => { c with misses := c.misses.filter (fun m => m.2.key != key) })
  let s := ms.foldl (fun s m => m.2.waiters.foldl abortWaiter s) s
  modCtx s key (fun c => { c with slot := none, saveOk := false })

/-- A partition's Catalogue state dropped by its reset (09 R271). -/
def dropPartCat (s : State) (p : Nat) : State :=
  let i : Inval := { part := p, scope := 3, key := 0, base := 0, bytes := 0 }
  let ms := s.cat.misses.filter (fun m => m.2.part == p)
  let s := modCat (invalNow s i) (fun c => { c with misses := c.misses.filter (fun m => m.2.part != p) })
  ms.foldl (fun s m => m.2.waiters.foldl abortWaiter s) s

end Sys2Proof.Machine
end

