-- ==== Sys2Proof/Machine/View.lean ====
section
/-! DEFINITION. Accesses of engines to memory through translations they hold: pieces of a range, lines made ready, and reading and writing with poison (06_memory.md R169, 07_shelvers.md R183, 09_translation.md R268). -/

namespace Sys2Proof.Machine

/-- How an engine reaches memory: who asks for a line, whether its addresses are physical, its context, and the translations it holds. -/
structure View where
  rq : Nat → Rq
  phys : Bool := false
  key : Nat := 0
  ents : List CatEntry := []

/-- Pieces of a range by page: address and bytes. -/
def pagePieces (va n : Nat) : List (Nat × Nat) :=
  if n == 0 then []
  else (List.range ((va + n - 1) / pageBytes - va / pageBytes + 1)).map (fun i =>
    let a := if i == 0 then va else (va / pageBytes + i) * pageBytes
    (a, min (va + n) ((va / pageBytes + i + 1) * pageBytes) - a))

/-- Physical pieces of a range with their attribute words; a piece without a translation is left out. -/
def View.pieces (c : View) (va n : Nat) : List (Nat × Nat × Nat) :=
  (pagePieces va n).filterMap (fun p =>
    if c.phys then some (p.1, p.2, 0)
    else (c.ents.find? (fun e => e.covers c.key p.1)).map (fun e => (entryPA e p.1, p.2, attrOf e.leaf e.part)))

/-- Bytes with their poison. -/
abbrev Tainted := List (Byte × Bool)

/-- The lines of ranges made ready, each with its attribute word. -/
def vPrepare (s : State) (c : View) (write : Bool) : List (Nat × Nat) → Got (List (Nat × Nat × Nat))
  | [] => .ok s []
  | (va, n) :: rest =>
    let go := (c.pieces va n).foldl (fun (g : Got (List (Nat × Nat × Nat))) p =>
      match g with
      | .ok s ds => match prepare s (c.rq 0) write (linePieces p.1 p.2.1) with
        | .ok s es => .ok s (ds ++ es.map (fun e => (e.1, e.2, p.2.2)))
        | .wait s => .wait s
        | .bad s a => .bad s a
      | g => g) (.ok s [])
    match go with
    | .ok s ds => match vPrepare s c write rest with
      | .ok s es => .ok s (ds ++ es)
      | .wait s => .wait s
      | .bad s a => .bad s a
    | g => g

/-- Ready lines read, each byte with its chunk's poison. -/
def vTake (s : State) (c : View) : List (Nat × Nat × Nat) → State × Tainted
  | [] => (s, [])
  | (d, n, a) :: rest =>
    let line := d / 128
    let (s, bs, p) := match Tbl.find s.mem.copies line with
      | some x => (s.modMem (fun m => { m with copies := Tbl.del m.copies line }), bytesLE 128 x.toNat, 0)
      | none => mscRead s (c.rq d) line a
    let (s, more) := vTake s c rest
    (s, ((((bs.zipIdx).map (fun b => (b.1, bitsAt p (b.2 / 32) 1 == 1))).drop (d % 128)).take n) ++ more)

/-- Ready lines written, a chunk poisoned where a byte of it is. -/
def vPut (s : State) (c : View) (bs : Tainted) : List (Nat × Nat × Nat) → State
  | [] => s
  | (d, n, a) :: rest =>
    let off := d % 128
    let now := bs.take n
    let poison := ((now.zipIdx).filter (fun b => b.1.2)).foldl (fun m b => m ||| 2 ^ ((off + b.2) / 32)) 0
    let s := mscWrite s (c.rq d) (d / 128) a (List.replicate off 0#8 ++ now.map (·.1) ++ List.replicate (128 - off - n) 0#8)
      ((2 ^ n - 1) <<< off) poison
    vPut s c (bs.drop n) rest

/-- The dirty log's records for every 64 KiB block of a range written under a translation (09 R268). -/
def vDirty (s : State) (c : View) (va n : Nat) : State :=
  if c.phys || n == 0 then s
  else (List.range ((va + n - 1) / 65536 - va / 65536 + 1)).foldl (fun s i => dirtyBlock s c.key ((va / 65536 + i) * 65536)) s

/-- A range read. -/
def vRead (s : State) (c : View) (rs : List (Nat × Nat)) : Got Tainted :=
  match vPrepare s c false rs with
  | .ok s ds => let (s, bs) := vTake s c ds; .ok s bs
  | .wait s => .wait s
  | .bad s a => .bad s a

/-- Ranges written with the bytes given, in order; the lines written. -/
def vWrite (s : State) (c : View) (rs : List (Nat × Nat)) (bs : Tainted) : Got (List (Nat × Nat × Nat)) :=
  match vPrepare s c true rs with
  | .ok s ds => .ok (vPut (rs.foldl (fun s r => vDirty s c r.1 r.2) s) c bs ds) ds
  | .wait s => .wait s
  | .bad s a => .bad s a

def tainted (bs : Tainted) : Bool := bs.any (·.2)
def bytesOf (bs : Tainted) : List Byte := bs.map (·.1)
def clean (bs : List Byte) : Tainted := bs.map (fun b => (b, false))

end Sys2Proof.Machine
end

