-- ==== Sys2Proof/Machine/Fabric.lean ====
section
/-! DEFINITION. Packets of the fabric, routing and forwarding, tags, and the ends of requests (11_fabric.md R314 to R323). -/

namespace Sys2Proof.Machine

/-! A packet's header (11 R314). -/
namespace Pk
def dst (h : BitVec 256) : Nat := fld h 0 0 14
def src (h : BitVec 256) : Nat := fld h 0 14 14
def ptype (h : BitVec 256) : Nat := fld h 0 28 4
def volume (h : BitVec 256) : Nat := fld h 4 0 32
def epoch (h : BitVec 256) : Nat := fld h 8 0 16
def tag (h : BitVec 256) : Nat := fld h 8 16 16
def len (h : BitVec 256) : Nat := fld h 0xC 0 10
def cls (h : BitVec 256) : Nat := fld h 0xC 10 2
def rbank (h : BitVec 256) : Nat := fld h 0xC 13 1
def status (h : BitVec 256) : Nat := fld h 0xC 14 8
def hops (h : BitVec 256) : Nat := fld h 0xC 22 8
def addr (h : BitVec 256) : Nat := fld h 0x10 0 62
def deadline (h : BitVec 256) : Nat := fld h 0x18 0 64
/-- Whether the unnamed bits are zero. -/
def reservedClear (h : BitVec 256) : Bool := fld h 0xC 30 2 == 0 && fld h 0x10 62 2 == 0

/-- Device, window and offset of a fabric global address (09 R243). -/
def window (h : BitVec 256) : Nat := bitsAt (addr h) 40 8
def offset (h : BitVec 256) : Nat := bitsAt (addr h) 0 40
def globalAddr (device window offset : Nat) : Nat := put device 48 14 + put window 40 8 + offset % 2 ^ 40

/-- The class of a packet type (11 R315). -/
def classOf (ptype : Nat) : Nat := if ptype == 6 then 2 else if ptype == 7 || ptype == 8 then 3 else ptype % 2

/-- A header; LEVEL, RBANK and HOPS are set when the packet is sent. -/
def make (dst src ptype volume epoch tag len status addr deadline : Nat) : BitVec 256 :=
  BitVec.ofNat 256 (put dst 0 14 + put src 14 14 + put ptype 28 4 + put volume 32 32 + put epoch 64 16 + put tag 80 16
    + put (put len 0 10 + put (classOf ptype) 10 2 + put status 14 8) 96 32 + put addr 128 62 + put deadline 192 64)

/-- A field of the header replaced. -/
def set (h : BitVec 256) (off lo w v : Nat) : BitVec 256 :=
  (h &&& ~~~(BitVec.ofNat 256 ((2 ^ w - 1) <<< (8 * off + lo)))) ||| BitVec.ofNat 256 (put v (8 * off + lo) w)
def setTag (h : BitVec 256) (t : Nat) : BitVec 256 := set h 8 16 16 t
end Pk

/-- Bytes that a packet occupies: its header and its payload (11 R314, 14 R417). -/
def pktSize (p : Packet) : Nat := 32 + p.payload.length

/-! Routing (11 R316 to R320). -/

/-- DIM and DATELINE of a port. -/
def portDim (s : State) (q : Nat) : Nat := bitsAt (s.fport q).ctrl.toNat 12 2
def portDateline (s : State) (q : Nat) : Bool := bitsAt (s.fport q).ctrl.toNat 2 1 == 1

/-- The first of PORT0 to PORT3 of a bank's entry whose link is UP (11 R318). -/
def routePort (s : State) (bank dst : Nat) (ok : Nat → Bool := fun _ => true) : Option Nat :=
  let e := Tbl.getD s.fab.routes (bank * 16384 + dst) 0
  if e % 2 == 0 then none
  else ([2, 7, 12, 17].map (fun lo => bitsAt e lo 5)).find? (fun q => decide (q < 24) && portUp s q && ok q)

/-- A packet sent by the route table, with LEVEL by the dimension it arrived on; dropped where no port is UP (11 R316, R318). -/
def routePacket (s : State) (dim : Nat) (p : Packet) (ok : Nat → Bool := fun _ => true) : State :=
  match routePort s (Pk.rbank p.hdr) (Pk.dst p.hdr) ok with
  | none => fabEvent (s.modFab (fun f => { f with noRoute := satInc f.noRoute })) 16 2
  | some q =>
    let h := if portDim s q != dim then Pk.set p.hdr 0xC 12 1 0 else p.hdr
    let h := if portDateline s q then Pk.set h 0xC 12 1 1 else h
    let p : Packet := { p with hdr := h }
    linkSend (s.modFab (fun f => { f with out := f.out ++ [(q, p)] })) q 1 (bytesLE 32 h.toNat ++ p.payload)

/-- A packet injected by this part: it takes the active bank, starts at level 0, and has crossed no link (11 R316, R319). -/
def injectPacket (s : State) (p : Packet) (ok : Nat → Bool := fun _ => true) : State :=
  routePacket s 0 { p with hdr := Pk.set (Pk.set (Pk.set p.hdr 0xC 12 1 0) 0xC 13 1 s.fab.bank) 0xC 22 8 0 } ok

/-- A packet for another part forwarded, or dropped after 64 links (11 R318, R320). -/
def forwardPacket (s : State) (q : Nat) (p : Packet) : State :=
  if Pk.hops p.hdr ≥ 64 then fabEvent (s.modFab (fun f => { f with loops := satInc f.loops })) 17 2
  else routePacket s (portDim s q) { p with hdr := Pk.set p.hdr 0xC 22 8 (Pk.hops p.hdr + 1) }

/-! Tags (11 R321). -/

/-- The tile that a request works for, 0 none. -/
def whoTile (s : State) (w : FabWho) : Nat := match w with
  | .mover b p _ _ _ => (s.mover b p).tile
  | .core b _ => (s.bay b).tile
  | .parked t _ => t

/-- Bytes charged to the job of a tile (14 R417). -/
def chargeTile (s : State) (tile : Nat) (d : Counters) : State :=
  match (Tbl.find s.work.tiles tile).orElse (fun _ => (Tbl.find s.work.parked tile).map (·.tile)) with
  | some t => match Tbl.find s.work.cmds t.cmd with
    | some c => charge s c.job c.ctx d
    | none => s
  | none => s

/-- Whether a request can take a tag: fewer than 16,384 held by the part and 4,096 by the port that it would leave by. -/
def tagFree (s : State) (q : Nat) : Bool :=
  decide (s.fab.tags.length < 16384) && decide ((s.fab.tags.filter (fun t => t.2.port == q)).length < 4096)

/-- The port that a request to a device leaves by; 24 where there is none. -/
def requestPort (s : State) (dst : Nat) : Nat := (routePort s s.fab.bank dst).getD 24

/-- A request that takes a tag and is sent. -/
def sendRequest (s : State) (r : FabReq) : State :=
  let q := requestPort s (Pk.dst r.pkt.hdr)
  match Tbl.freeKey s.fab.tags 0 16384 with
  | none => s
  | some t =>
    let r := { r with port := q, pkt := { r.pkt with hdr := Pk.setTag r.pkt.hdr t } }
    let s := s.modFab (fun f => { f with tags := Tbl.put f.tags t r })
    injectPacket (chargeTile s (whoTile s r.who) { fabTx := pktSize r.pkt }) r.pkt

/-- A request issued, or stalled behind earlier ones until a tag is free. -/
def issueRequest (s : State) (r : FabReq) : State :=
  if s.fab.stalled.isEmpty && tagFree s (requestPort s (Pk.dst r.pkt.hdr)) then sendRequest s r
  else s.modFab (fun f => { f with stalled := f.stalled ++ [r] })

/-- The Volume handle and map epoch that a tile's requests carry (10 R287). -/
def tileVolume (s : State) (tile : Nat) : Nat × Nat :=
  match Tbl.find s.work.tiles tile with
  | some t => (((Tbl.find s.work.cmds t.cmd).map (·.volume)).getD 0, t.epoch)
  | none => (0, 0)

/-- A request to a remote leaf, its address aligned to 4 and its deadline 200 µs from now (03 R92, 11 R315, R322, R323). -/
def remoteRequest (s : State) (who : FabWho) (ptype len : Nat) (e : CatEntry) (va : Nat) (payload : List Byte) : FabReq :=
  let (dev, win, off) := entryGlobal e va
  let (vol, ep) := tileVolume s (whoTile s who)
  let dl := s.now + 200 * us
  { pkt := { hdr := Pk.make dev s.fab.deviceId ptype vol ep 0 len 0 (Pk.globalAddr dev win (alignDown off 4)) dl, payload }, deadline := dl, who }

/-- A read of bytes at an address, its LEN a multiple of 4. -/
def remoteRead (s : State) (who : FabWho) (e : CatEntry) (va n : Nat) : FabReq :=
  { remoteRequest s who 0 (alignUp (va % 4 + n) 4) e va [] with skip := va % 4, want := n }

/-- The payload of a WR: a whole number of 64-byte units at an aligned address goes as it is; otherwise a mask stands in front, and the
data are padded so that LEN is no multiple of 64 (11 R315; assumption 43). -/
def wrPayload (va : Nat) (bs : List Byte) : List Byte :=
  let k := va % 4
  if k == 0 && bs.length % 64 == 0 then bs
  else
    let n := k + bs.length
    bytesLE 8 ((2 ^ bs.length - 1) * 2 ^ k) ++ List.replicate k 0#8 ++ bs ++ (if n % 64 == 56 then List.replicate 4 0#8 else [])

/-- A write of bytes at an address. -/
def remoteWrite (s : State) (who : FabWho) (e : CatEntry) (va : Nat) (bs : List Byte) : FabReq :=
  let w := wrPayload va bs
  remoteRequest s who 2 w.length e va w

/-- A run of bytes cut for packets: up to an aligned address, then pieces of 512 bytes, then what is left in whole 64-byte units, then the rest. -/
def packetPieces (va n : Nat) : List (Nat × Nat) :=
  let h := if va % 4 == 0 then 0 else min n (64 - va % 64)
  let a := va + h
  let m := n - h
  let k := m / 512
  let u := m % 512 / 64 * 64
  ((va, h) :: (List.range k).map (fun i => (a + 512 * i, 512)) ++ [(a + 512 * k, u), (a + 512 * k + u, m % 64)]).filter (fun p => p.2 != 0)

/-! The ends of requests (11 R323, R324, 03 R70, 10 R289, 14 R413). -/

/-- A request of a mover's descriptor ends: data arrive in Bay memory, or the failure is kept until the descriptor's turn to complete. -/
def endMoverRequest (s : State) (b p order va dest status : Nat) (late : Bool) (data : List Byte) : State :=
  let m := s.mover b p
  if !m.started.any (fun o => o.order == order) then s
  else
    let s := if status == 0 && !data.isEmpty then s.modBay b (fun x => x.write dest data) else s
    let bad := fun (o : MoverOp) => if status == 0 then o.bad else o.bad.orElse (fun _ => some (if late then 9 else 10, status, va))
    s.modMover b p (fun m => { m with started := m.started.map (fun o => if o.order == order then { o with waits := o.waits - 1, bad := bad o } else o) })

/-- Bytes of a receiving tray (14 R414). -/
def trayBytes : Nat := 0x100000

/-- A translation of an access made at once: one that the Catalogue holds, or its walk's. -/
inductive Ents where
  | ok (s : State) (es : List CatEntry)
  | fail (s : State) (cause level va : Nat)
  | wait (s : State)

/-- The translations of the pages of a range, each permitting the access (09 R253, R256). -/
def walkPages (s : State) (key root access : Nat) : List (Nat × Nat) → Ents
  | [] => .ok s []
  | (a, _) :: rest =>
    let next := fun (s : State) (e : CatEntry) (level : Nat) =>
      if !leafPermits e.leaf access then Ents.fail s 4 level a
      else match walkPages s key root access rest with
        | .ok s es => .ok s (e :: es)
        | r => r
    match catHit s key a with
    | some (e, s) => next s e (if leafSize e.leaf ≤ 11 then 3 else 2)
    | none => match walkFrom s (keyPart s key) (decide (key ≥ 2 ^ 20)) a root 3 with
      | .wait s => .wait s
      | .fail s cause level => .fail s cause level a
      | .leaf s l level =>
        let (s, ok) := sealPages s l
        let s := if leafSealed l && key < 2 ^ 20 then modCtx s key (fun c => { c with sealedRead := true }) else s
        if ok then next (installEntry s (entryOf s key a l)) (entryOf s key a l) level else .wait s

/-- A response for a parked tile: a load's data go into the context's tray behind a header, VALID last; what does not fit is marked
DISCARDED (14 R413, R414). -/
def trayAppend (s : State) (group tile tag status dest : Nat) (data : List Byte) : State :=
  match Tbl.find s.work.parked tile with
  | none => s
  | some p => match (Tbl.find s.work.cmds p.tile.cmd).map (·.ctx) with
    | none => s
    | some key => match Tbl.find s.work.ctxs key with
      | none => s
      | some c =>
        let n := 64 + alignUp data.length 64
        let e : TrayEntry := { tile := p.tile.index, cmd := p.tile.cmd, tag, status, bay := dest, len := data.length, at_ := c.trayNext }
        let lost := modCtx s key (fun c => { c with tray := c.tray ++ [{ e with discarded := true }] })
        if c.trayNext + n > trayBytes then lost
        else
          let va := c.saveVa + c.maxBays * 0x240000 + c.trayNext
          match walkPages s key c.root 1 (pagePieces va n) with
          | .ok t es =>
            let v : View := { rq := fun _ => { master := 32 + group, part := ctxPart key }, key, ents := es }
            let h := p.tile.index + put tag 32 16 + put status 48 8 + put 1 56 1 + put dest 64 25 + put data.length 96 10 + put s.now 128 64
            match vWrite t v [(va + 64, data.length), (va, 64)] (clean (data ++ bytesLE 64 h)) with
            | .ok t _ => modCtx t key (fun c => { c with tray := c.tray ++ [e], trayNext := c.trayNext + n })
            | _ => lost
          | _ => lost

/-- The tray empties when its context holds no parked tag and every entry has been consumed (14 R414). -/
def settleTray (s : State) (key : Nat) : State :=
  let busy := s.work.parked.any (fun p => !p.2.open_.isEmpty && ((Tbl.find s.work.cmds p.2.tile.cmd).map (·.ctx)) == some key)
  modCtx s key (fun c => if c.tray.isEmpty && !busy then { c with trayNext := 0 } else c)

/-- A load that a replaced tile issues again, taken from the tray where its whole data sit there with status OK (14 R415). -/
def trayLoad (s : State) (tile dest n : Nat) : Option (State × List Byte) :=
  match Tbl.find s.work.tiles tile with
  | none => none
  | some t => match (Tbl.find s.work.cmds t.cmd).map (·.ctx) with
    | none => none
    | some key => match Tbl.find s.work.ctxs key with
      | none => none
      | some c => match c.tray.find? (fun e => e.cmd == t.cmd && e.tile == t.index && e.bay == dest && e.len == n && e.status == 0 && !e.discarded) with
        | none => none
        | some e =>
          let va := c.saveVa + c.maxBays * 0x240000 + e.at_ + 64
          match walkPages s key c.root 0 (pagePieces va n) with
          | .ok s es =>
            match vRead s { rq := fun _ => { master := t.bay, part := ctxPart key }, key, ents := es } [(va, n)] with
            | .ok s bs => if tainted bs then none else some (s, bytesOf bs)
            | _ => none
          | _ => none

/-- The tray entries of a tile consumed, once its loads have been issued again (14 R415). -/
def trayConsume (s : State) (tile : Nat) : State :=
  match Tbl.find s.work.tiles tile with
  | none => s
  | some t => match (Tbl.find s.work.cmds t.cmd).map (·.ctx) with
    | none => s
    | some key => settleTray (modCtx s key (fun c => { c with tray := c.tray.filter (fun e => !(e.cmd == t.cmd && e.tile == t.index)) })) key

/-- A tag of a parked tile done: its first status other than OK is kept; a load's data go to the tray (14 R413, R414). -/
def endParked (s : State) (tile tag dest status : Nat) (r : FabReq) (data : List Byte) : State :=
  let s := if Pk.ptype r.pkt.hdr == 0 && !data.isEmpty then trayAppend s (portGroup r.port % 4) tile tag status dest data else s
  s.modWork (fun w => { w with parked := Tbl.upd w.parked tile (fun p => { p with open_ := NSet.rem p.open_ tag, status := if p.status == 0 then status else p.status }) })

/-- The partition that an outstanding fabric request serves. -/
def requestPart (s : State) (r : FabReq) : Nat := match r.who with
  | .mover b _ _ _ _ | .core b _ => s.partOfBay b
  | .parked t _ => match (Tbl.find s.work.parked t).bind (fun x => Tbl.find s.work.cmds x.tile.cmd) with
    | some c => ctxPart c.ctx
    | none => 8

/-- A request ends with a status; `late` where its own deadline ended it. A partition reset discards a parked tile's answer (18 R508). -/
def endRequest (s : State) (tag : Nat) (r : FabReq) (status : Nat) (late : Bool) (data : List Byte) : State :=
  let data := if Pk.ptype r.pkt.hdr == 0 then (data.drop r.skip).take r.want else data
  match r.who with
  | .mover b p order va dest => endMoverRequest s b p order va dest status late data
  | .core b c => s.modCore b c (fun k => if k.remote == some .waits then { k with remote := some (.done status data) } else k)
  | .parked t dest =>
    if (s.part (requestPart s r)).resetting then
      s.modWork (fun w => { w with parked := Tbl.upd w.parked t (fun p => { p with open_ := NSet.rem p.open_ tag, lost := true }) })
    else endParked s t tag dest status r data

end Sys2Proof.Machine
end

