-- ==== Sys2Proof/Machine/Stacks.lean ====
section
/-! DEFINITION. Commands of the stacks: requests, maintenance, prefetch, spare lanes, patrol scrub, temperature and regulation (06_memory.md), and the compressed write-back (07_shelvers.md R213). -/

namespace Sys2Proof.Machine

/-- The requester of a memory request (06 R157, R172). -/
def rqOf (s : State) (r : MemReq) : Rq :=
  let k := stackOfPa r.addr.toNat
  match r.src with
  | .bay b => { master := b, part := s.partOfBay b, noAlloc := r.noAllocate }
  | .inbound g p => { master := 32 + g.val, part := p, noAlloc := r.noAllocate }
  | .collective g p => { master := 36 + g.val, part := p, noAlloc := r.noAllocate }
  | .otfold p f => { master := 40 + p.val, part := if f.val == 0 then 8 else f.val - 1, noAlloc := r.noAllocate }
  | .registrar => { master := 42, bypass := true, noAlloc := r.noAllocate }
  | .shelver sh q => { master := if sh.val / 4 == k then 44 else 43, part := q.val, bypass := q.val == 8, noAlloc := r.noAllocate }

/-- Masters 36 to 42 are real-time; one whose USED has reached its GUAR issues nothing more in the window (06 R172, R174). -/
def capped (x : Stack) (master : Nat) : Bool :=
  decide (36 ≤ master) && decide (master ≤ 42) && decide (Tbl.getD x.usedNow master 0 ≥ Tbl.getD x.guar master 0 % 65536)

/-- Whether a stack's controller issues no DRAM command (06 R171, R180). -/
def stackStopped (x : Stack) : Bool := x.state == 3 || x.selfRefresh

/-! Stride prefetch (06 R164, R166). -/

/-- A stream trained by a demand miss. -/
def trainStream (x : Stack) (master part line : Nat) : Stack :=
  if bitsAt x.pfCtrl.toNat 0 1 == 0 || master > 43 then x else
  let used := (x.streams.foldl (fun a t => max a t.used) 0) + 1
  let step := fun (t : Stream) => (line : Int) - t.last
  let near := fun (t : Stream) => t.master == master && t.part == part && step t != 0 && decide ((step t).natAbs ≤ 256) && t.last * 128 / 2 ^ 33 == line * 128 / 2 ^ 33
  let go := fun (t : Stream) => near t && (t.hits == 1 || t.stride == step t)
  match x.streams.findIdx? (fun t => go t && t.hits != 1), x.streams.findIdx? go with
  | some i, _ | none, some i =>
    { x with streams := (x.streams.zipIdx).map (fun p => if p.2 == i then
        { p.1 with last := line, stride := step p.1, hits := p.1.hits + 1, used, next := if p.1.hits ≥ 3 then max' (step p.1) p.1.next (line + step p.1) else line + step p.1 } else p.1) }
  | none, none =>
    let new : Stream := { master, part, last := line, stride := 0, hits := 1, used, next := 0 }
    if x.streams.length < 64 then { x with streams := x.streams ++ [new] }
    else
      let old := x.streams.foldl (fun a t => min a t.used) used
      { x with streams := x.streams.filter (fun t => t.used != old) ++ [new] }
where
  /-- The further of two line numbers in a direction. -/
  max' (dir a b : Int) : Int := if dir > 0 then max a b else min a b

/-- The next line a confirmed stream fetches: at most DEPTH strides ahead of its latest demand access, in its Shelf. -/
def streamNext (x : Stack) (t : Stream) : Option Nat :=
  let depth := max 1 (min 32 (bitsAt x.pfCtrl.toNat 8 6))
  let ok := decide (t.hits ≥ 3) && decide ((t.next - t.last).natAbs ≤ depth * t.stride.natAbs) && decide (0 ≤ t.next)
    && t.next.toNat * 128 / 2 ^ 33 == t.last * 128 / 2 ^ 33
  if ok then some t.next.toNat else none

/-- A line fetched into the cache for a master; what its partition may not reach, or what is poisoned, installs nothing (06 R166). -/
def prefetchLine (s : State) (rq : Rq) (line : Nat) : State :=
  let d := 128 * line
  let k := stackOf d
  let drop := s.modStack k (fun x => { x with pfDrops := if x.pfDrops.toNat / 65536 ≥ 65535 then x.pfDrops else x.pfDrops + 65536 })
  match usable d with
  | none => drop
  | some _ =>
    if !rq.bypass && !shelfAllows s rq.part d then drop
    else if Tbl.has s.mem.msc line || anyPoison s d 128 then s
    else
      let cmp := attrOfAddr s rq.part d
      let (t, bs, p) := fetchLine s line cmp []
      if p != 0 then s else fillLine (chargeGranules t k rq 2) { rq with noAlloc := false } line cmp bs 0

/-- PREFETCH_ISSUE: one fetch, of the streams first and then of the ranges in order, while the queue is below LO and does not enforce (06 R164 to R166). -/
def execPrefetchIssue (k : StackNo) (s : State) : Out :=
  let x := s.stack k
  if x.enforcing || decide (x.queue.length ≥ bitsAt x.queueThresh.toNat 16 9) || stackStopped x then .next s
  else
    match x.streams.find? (fun t => bitsAt x.pfCtrl.toNat 0 1 == 1 && (streamNext x t).isSome) with
    | some t =>
      let line := (streamNext x t).getD 0
      let s := s.modStack k (fun x => { x with streams := x.streams.map (fun u => if u == t then { u with next := u.next + u.stride } else u) })
      .next (prefetchLine s { master := t.master, part := t.part } line)
    | none =>
      let win := max 1 (bitsAt x.pfCtrl.toNat 16 8) * 4096
      match x.ranges.find? (fun r => bitsAt x.pfCtrl.toNat 1 1 == 1 && decide (r.next < r.bytes) && decide (r.next < win)) with
      | some r =>
        let line := (r.addr + r.next) / 128
        let s := s.modStack k (fun x => { x with ranges := x.ranges.map (fun u => if u == r then { u with next := (line + 1) * 128 - u.addr } else u) })
        .next (prefetchLine s { master := r.bay, part := s.partOfBay r.bay } line)
      | none => .next s

/-- LOOKAHEAD_RANGE: a mover's range held, or dropped and counted when 64 are held (06 R165). -/
def execLookaheadRange (k : StackNo) (bay : BayNo) (order : Nat) (addr : PAddr) (bytes : BitVec 34) (s : State) : Out :=
  .next (s.modStack k (fun x =>
    if x.ranges.length ≥ 64 then
      { x with pfDrops := if x.pfDrops.toNat % 65536 == 65535 then x.pfDrops else x.pfDrops + 1 }
    else { x with ranges := x.ranges ++ [{ bay, order, addr := addr.toNat, bytes := bytes.toNat }] }))

/-! Requests (06 R155, R161, R168, R174). -/

/-- The answer of a request kept at its controller. -/
def setAnswer (s : State) (k : Nat) (a : MemAns) : State := s.modStack k (fun x => { x with answer := some a })

/-- A request performed at its stack. -/
def performRequest (s : State) (r : MemReq) : State :=
  let pa := r.addr.toNat
  let k := stackOfPa pa
  let rq := rqOf s r
  let d := (direct? pa).getD pa
  let cmp := if rq.bypass then 0 else attrOfAddr s rq.part d
  let train := fun (s : State) => if Tbl.has s.mem.msc (d / 128) then s else s.modStack k (fun x => trainStream x rq.master rq.part (d / 128))
  match r.op with
  | .read n =>
    let s := if (usable pa).isSome then train s else s
    match engineRead s rq cmp pa n.val r.errors with
    | .ok s (bs, p) => setAnswer s k { poison := p, data := bs }
    | .wait s => s
    | .bad s _ => setAnswer s k { status := Status.permission.code }
  | .write bs =>
    match engineWrite s rq cmp pa bs with
    | .ok s () => setAnswer s k {}
    | .wait s => s
    | .bad s _ => setAnswer s k { status := Status.permission.code }

/-- Enforcement by the queue's occupancy (06 R174). -/
def enforce (x : Stack) : Stack :=
  let n := x.queue.length
  { x with enforcing := if n ≥ bitsAt x.queueThresh.toNat 0 9 then true else if n ≤ bitsAt x.queueThresh.toNat 16 9 then false else x.enforcing }

/-- STACK_REQUEST: performed, or kept in the controller's queue while the stack is stopped or its real-time master is at its cap
(06 R155, R171, R174, R180); an address that no stack decodes never reaches one (06 R153). -/
def execStackRequest (req : MemReq) (s : State) : Out :=
  let pa := req.addr.toNat
  let k := stackOfPa pa
  if !inStacks pa then .next s
  else if stackStopped (s.stack k) || capped (s.stack k) (rqOf s req).master then
    if (s.stack k).queue.length ≥ 256 then .next s
    else .next (s.modStack k (fun x => enforce { x with queue := x.queue ++ [req] }))
  else .next (performRequest s req)

/-! Maintenance of the cache (06 R162). -/

/-- Whether a line is in a maintenance operation's scope. -/
def maintScope (s : State) (k op part shelf line way : Nat) : Bool :=
  let d := 128 * line
  let (w0, w) := partWays s part
  stackOf d == k && (match op with
    | 1 | 2 => decide (w0 ≤ way) && decide (way < w0 + w)
    | 3 => shelfIndex d == shelf
    | _ => true)

/-- The lines of the scope written back, and invalidated for a flush. -/
def maintWalk (s : State) (k op part shelf : Nat) : State :=
  let mine := Tbl.keep s.mem.msc (fun l x => maintScope s k op part shelf l x.way)
  mine.foldl (fun s e =>
    let s := writeBackLine s { part, bypass := true } e.1
    if op == 1 then s else mscDrop s e.1) s

/-- Modified lines of the scope recalled from the caches first. -/
def maintRecall (s : State) (k op part shelf : Nat) : State :=
  let mine := Tbl.keep s.mem.dir (fun l e => e.st != .shared && maintScope s k op part shelf l (((Tbl.find s.mem.msc l).map (·.way)).getD e.way))
  mine.foldl (fun s e => if Tbl.has s.mem.txns e.1 then s
    else serve s e.1 { req := .outside true, part := partOfAddr s (128 * e.1), owner := ownerOf e.2 } (holdersOf s e.1 e.2) 1 true) s

/-- An operation written to MSC_MAINT: started, or REFUSED while BUSY is set. -/
def startMaint (s : State) (k op part shelf : Nat) : State :=
  let x := s.stack k
  if x.maint.isSome then s.setStack k { x with maintStatus := statusFlag x.maintStatus 18 }
  else
    let s := s.setStack k { x with maint := some (op, part, shelf), maintStatus := x.maintStatus ||| 0x10000#32 }
    maintRecall s k op part shelf

/-- WRITEBACK_PART (06 R162). -/
def execWritebackPart (k : StackNo) (part : PartNo) (s : State) : Out := .next (startMaint s k 1 part 0)
/-- FLUSH_PART (06 R162). -/
def execFlushPart (k : StackNo) (part : PartNo) (s : State) : Out := .next (startMaint s k 2 part 0)
/-- FLUSH_SHELF (06 R162). -/
def execFlushShelf (k : StackNo) (shelf : Fin 16) (s : State) : Out := .next (startMaint s k 3 0 shelf)
/-- FLUSH_ALL (06 R162). -/
def execFlushAll (k : StackNo) (s : State) : Out := .next (startMaint s k 4 0 0)

/-! Lanes, scrub and temperature (06 R167, R170, R171). -/

/-- LANE_FAIL (06 R167). -/
def execLaneFail (k : StackNo) (channel : Fin 32) (s : State) : Out :=
  let x := s.stack k
  let used := Tbl.getD x.lanesUsed channel 0
  if used < 2 then
    let lanes := Tbl.put x.lanesUsed channel (used + 1)
    let s := s.setStack k { x with lanesUsed := lanes, spareLanes := 2 - lanes.foldl (fun a e => max a e.2) 0 }
    .next (stackEvent s k 20 0 0)
  else .next ((stackEvent s k 21 4 0).modSeq (fun q => { q with persistentFault := true }))

/-- A memory error told to the contexts that hold the object it lies in, outside any command (13 R374, R375). -/
def memoryFault (s : State) (d type : Nat) : State :=
  let hit := fun (o : MemObj) =>
    if o.interleaved then (List.range ((o.bytes + 4095) / 4096)).any (fun i => (direct? (o.base + 4096 * i)).map (· / 4096) == some (d / 4096))
    else decide (o.base ≤ d) && decide (d < o.base + o.bytes)
  let ctxs := (s.work.objs.filter (fun o => hit o.2)).flatMap (fun o => o.2.holds)
  ctxs.foldl (fun s key => (writeFault s key { kind := 5, status := Status.parityUnrecovered.code, body := put d 0 64 + put type 64 3 }).1) s

/-- PATROL_SCRUB: the next chunk read with a number of symbols in error (06 R170). -/
def execPatrolScrub (k : StackNo) (symbols : Nat) (s : State) : Out :=
  let x := s.stack k
  if x.selfRefresh || bitsAt x.scrubCtrl.toNat 8 1 == 1 then .next s
  else
    let per := shelfBytes / 32
    let d := (k.val * 16 + x.scrubAt / per) * 2 ^ 33 + (x.scrubAt % per) * 32
    let last := x.scrubAt + 1 ≥ 16 * per
    let s := s.setStack k { x with scrubAt := if last then 0 else x.scrubAt + 1, scrubPasses := if last then x.scrubPasses + 1 else x.scrubPasses }
    let (s, _, bad) := readChunk s (d / 32) symbols 1
    .next (if bad then memoryFault s d 3 else s)

/-- The state that a temperature calls for from a state (06 R171). -/
def tempState (st temp : Nat) : Nat :=
  if st == 3 || temp ≥ 100 then 3
  else if temp ≥ 95 then 2
  else if st == 2 then (if temp ≤ 91 then 1 else 2)
  else if temp ≥ 86 then 1
  else if st == 1 then (if temp ≤ 82 then 0 else 1)
  else 0

/-- DRAM_TEMP_SAMPLE (06 R171). -/
def execDramTempSample (k : StackNo) (temp : BitVec 8) (s : State) : Out :=
  .next (s.modStack k (fun x => { x with temp := temp.toNat, nextState := tempState x.state temp.toNat }))

/-- D in granules per window (06 R171). -/
def deliverableOf (st : Nat) : Nat := match st with | 0 => 28800 | 1 => 27520 | 2 => 13760 | _ => 0

/-! Guarantees (06 R177 to R179). -/

/-- GUAR's granules, and HIGH; real-time caps are treated as HIGH. -/
def guarOf (g : Tbl Nat) (m : Nat) : Nat := Tbl.getD g m 0 % 65536
def guarHigh (g : Tbl Nat) (m : Nat) : Bool := (36 ≤ m && m ≤ 42) || bitsAt (Tbl.getD g m 0) 16 1 == 1

/-- The sum of the HIGH, or the NORMAL, guarantees. -/
def guarSum (g : Tbl Nat) (high : Bool) : Nat :=
  ((List.range 44).filter (fun m => guarHigh g m == high)).foldl (fun a m => a + guarOf g m) 0

/-- EFF of a master under D (06 R179). -/
def effOf (g : Tbl Nat) (d m : Nat) : Nat :=
  let cap := d * 85 / 100
  let h := guarSum g true
  let n := guarSum g false
  let x := guarOf g m
  if h + n ≤ cap then x
  else if h ≤ cap then (if guarHigh g m then x else x * (cap - h) / n)
  else if guarHigh g m then x * cap / h else 0

/-- EFF of every master set anew; DERATED and RESTORED with their events (06 R179). -/
def setEff (s : State) (k : Nat) : State :=
  let x := s.stack k
  let new : Tbl Nat := (List.range 44).filterMap (fun m => let e := effOf x.guar x.deliverable m; if e == 0 then none else some (m, e))
  let below := (List.range 44).filter (fun m => decide (Tbl.getD new m 0 < guarOf x.guar m))
  let fell := below.filter (fun m => Tbl.getD new m 0 != Tbl.getD x.eff m 0)
  let was := (List.range 44).any (fun m => decide (Tbl.getD x.eff m 0 < guarOf x.guar m))
  let fnOf := fun (m : Nat) => if m < 32 then s.partOfBay m + 1 else 0
  let s := s.setStack k { x with eff := new }
  if !fell.isEmpty then
    fell.foldl (fun s m => postEvent s (fnOf m) 5 0 0 (put k 128 3 + put m 136 6 + put (Tbl.getD new m 0) 160 32)) (stackEvent s k 23 0 0)
  else if below.isEmpty && was then
    let fns := ((List.range 44).filter (fun m => guarOf x.guar m != 0)).map fnOf
    fns.eraseDups.foldl (fun s f => postEvent s f 6 0 0 (put k 128 3)) (stackEvent s k 24 0 0)
  else s

/-- The class of a queued request while enforcing, or not (06 R174); 4 where it must wait. -/
def classOf (s : State) (x : Stack) (r : MemReq) : Nat :=
  let m := (rqOf s r).master
  if 36 ≤ m && m ≤ 42 then (if capped x m then 4 else 0)
  else if !x.enforcing then 1
  else if Tbl.getD x.usedNow m 0 < Tbl.getD x.eff m 0 then 1 else 2

/-- Queued requests issued in the order of their classes, oldest first. -/
def issueQueue (s : State) (k : Nat) : Nat → State
  | 0 => s
  | n + 1 =>
    let x := s.stack k
    if stackStopped x then s else
    let best := x.queue.foldl (fun a r => min a (classOf s x r)) 4
    if best ≥ 4 then s
    else match x.queue.find? (fun r => classOf s x r == best) with
      | some r => issueQueue (performRequest (s.setStack k (enforce { x with queue := x.queue.erase r })) r) k n
      | none => s

/-- REGULATION_WINDOW: USED copied and cleared, new GUAR, D and EFF taken, and the waiting requests issued (06 R171 to R179, 08 R234). -/
def execRegulationWindow (k : StackNo) (s : State) : Out :=
  let s := reach s ((s.now / 1024 + 1) * 1024)
  let x := s.stack k
  let turn := x.nextState != x.state
  let s := s.setStack k { x with
    used := x.usedNow, usedNow := [], farLines := [], state := x.nextState, deliverable := deliverableOf x.nextState
    guar := x.guarNext.foldl (fun g e => Tbl.put g e.1 e.2) x.guar, guarNext := [] }
  let s := if turn then stackEvent s k 22 0 0 else s
  let s := if turn && x.nextState == 3 then stackEvent s k 27 4 0 else s
  let s := if turn || !x.guarNext.isEmpty then setEff s k else s
  .next (noteAlerts (issueQueue s k x.queue.length))

/-- COMPRESSED_WRITEBACK: every dirty line of a block written back together (07 R213, R220). -/
def execCompressedWriteback (block : PAddr) (s : State) : Out :=
  match direct? block.toNat with
  | none => .next s
  | some d =>
    let base := alignDown d 4096
    .next ((List.range 32).foldl (fun s i => match Tbl.find s.mem.msc (base / 128 + i) with
      | some x => if cmpMode x.cmp == 0 then s else writeBackLine s { part := partOfAddr s base, bypass := true } (base / 128 + i)
      | none => s) s)

end Sys2Proof.Machine
end

