-- ==== Sys2Proof/Machine/Movers.lean ====
section
/-! DEFINITION. The Bay movers: writes of WR, pre-translation, the six operations, completion, RESUME and FLUSH (03_bays.md R69 to R74). -/

namespace Sys2Proof.Machine

/-- The context that a tile runs for. -/
def tileCtx (s : State) (tile : Nat) : Option Nat :=
  ((Tbl.find s.work.tiles tile).bind (fun t => Tbl.find s.work.cmds t.cmd)).map (·.ctx)

/-- MOVER_WR_WRITE: the Bay runtime advances WR; each descriptor queued takes its order number, and a port that runs no tile's
descriptors takes those of the tile whose steps come next (03 R69, 05 R146). -/
def execMoverWrWrite (bay : BayNo) (port : Fin 2) (wr : BitVec 16) (s : State) : Out :=
  let x := s.bay bay
  if x.wrapper != .open_ then .next s
  else
    let m := x.mover port
    let n := (wr.toNat + 65536 - m.wr) % 65536
    let tile := if m.tile != 0 then m.tile
      else if x.nextTile != 0 && (x.mover (1 - port)).tile != x.nextTile then x.nextTile else x.tile
    let m := { m with wr := wr.toNat, orders := m.orders ++ (List.range n).map (· + x.moverOrder), tile }
    .next (s.setBay bay ({ x with moverOrder := x.moverOrder + n }.setMover port m))

/-! Pre-translation (03 R70 to R72). -/

/-- The first descriptor of a group that fails checks 1 to 3: its index, its TAG, the cause and the address. -/
def groupBad (x : Bay) (m : MoverPort) : Option (Nat × Nat × Nat × Nat) :=
  (groupDescs x m).zipIdx.findSome? (fun d => (Mv.badDesc d.1 m.size).map (fun c => (d.2, Mv.tag d.1, c.1, c.2)))

/-- The lookups of every page that a group touches, in transfer order (03 R71). -/
def groupWaiters (b p : Nat) (ds : List (BitVec 512)) : List Waiter :=
  ds.flatMap (fun d => if Mv.usesMemory d then
    (Mv.pages d).map (fun a => { req := 192 + b, port := p, access := if Mv.op d == 2 then 1 else 0, va := a }) else [])

/-- Distinct extents in order, each with the first address that needs it (03 R72). -/
def distinctExtents (es : List (CatEntry × Nat)) : List (CatEntry × Nat) :=
  es.foldl (fun acc e => if acc.any (fun a => a.1.va == e.1.va && a.1.bytes == e.1.bytes && a.1.key == e.1.key) then acc else acc ++ [e]) []

/-- The buffer's entry for an extent, as it stands and not hit by an invalidation. -/
def ttbHas (x : Bay) (e : CatEntry) : Bool :=
  x.ttb.any (fun t => !t.hit && t.ctx == e.key && t.va == e.va && t.bytes == e.bytes && t.leaf == e.leaf)

/-- Extents held for a tile: those in common are shared, the others take new entries (03 R72). -/
def ttbHold (x : Bay) (tile : Nat) (es : List CatEntry) : Bay :=
  es.foldl (fun x e =>
    if ttbHas x e then { x with ttb := x.ttb.map (fun t =>
      if !t.hit && t.ctx == e.key && t.va == e.va && t.bytes == e.bytes then { t with tiles := NSet.ins t.tiles tile } else t) }
    else { x with ttb := x.ttb ++ [{ ctx := e.key, va := e.va, bytes := e.bytes, leaf := e.leaf, tiles := [tile] }] }) x

/-- A group translated as a whole: one that fails a check halts its port at its first descriptor, one that needs more entries than are
free waits, and one that misses is presented again (03 R70 to R72, 09 R262). -/
def pretranslate (s : State) (b p : Nat) : State :=
  let x := s.bay b
  let m := x.mover p
  let d := ringDesc x m m.next
  if m.halted || m.ready != 0 || !m.started.isEmpty || x.wrapper != .open_ || m.waiting == 0 then s
  else if Mv.op d == 0 && !Mv.shapeOk d m.size then moverFail s b p 2 0 0 0 m.rd (Mv.tag d)
  else if m.waiting < groupLen d then s
  else
    let ds := groupDescs x m
    match groupBad x m with
    | some (i, tag, cause, a) => moverFail s b p cause 0 a i m.rd tag
    | none =>
      let run := fun (s : State) (es : List CatEntry) => s.modBay b (fun x =>
        (ttbHold x m.tile es).setMover p { m with ready := ds.length, groupSize := ds.length, ttbWait := false })
      let ws := groupWaiters b p ds
      if ws.isEmpty then run s []
      else match tileCtx s m.tile with
        | none => s
        | some key => match lookupAll s key ws with
          | (s, none) => s
          | (s, some es) =>
            let own := distinctExtents (es.zip (ws.map (·.va)))
            match own[256]? with
            | some (_, a) =>
              let (i, tag) := groupFailing x m a
              moverFail s b p 6 0 a i m.rd tag
            | none =>
              let new := own.filter (fun e => !ttbHas x e.1)
              if new.length + x.ttb.length > 256 then s.modMover b p (fun m => { m with ttbWait := true })
              else run s (own.map (·.1))

/-- GROUP_PRETRANSLATE (03 R71). -/
def execGroupPretranslate (bay : BayNo) (port : Fin 2) (s : State) : Out :=
  if (s.mover bay port).ttbWait then .next s else .next (pretranslate s bay port)

/-- TTB_ENTRIES_FREE: the group that waited for entries goes on once enough are free (03 R72). -/
def execTtbEntriesFree (bay : BayNo) (port : Fin 2) (s : State) : Out :=
  if (s.mover bay port).ttbWait then .next (pretranslate s bay port) else .next s

/-! Starting descriptors (03 R69, R73). -/

/-- The descriptor that a port starts next, where it has the operation given, its group is ready and ORDERED holds: the descriptor, its
order number and its index in its group. -/
def moverNext (s : State) (b p op : Nat) : Option (BitVec 512 × Nat × Nat) :=
  let x := s.bay b
  let m := x.mover p
  let d := ringDesc x m m.next
  let order := m.orders.getD m.started.length 0
  let earlier := !m.started.isEmpty || (x.mover (1 - p)).orders.any (fun o => decide (o < order))
  if m.halted || m.ready == 0 || x.wrapper != .open_ || Mv.op d != op || (Mv.ordered d && earlier) then none
  else some (d, order, m.groupSize - m.ready)

/-- A descriptor started, with the number of fabric requests it waits for. -/
def moverStart (s : State) (b p : Nat) (d : BitVec 512) (order group waits : Nat) : State :=
  s.modMover b p (fun m => { m with started := m.started ++ [{ desc := d, order, group, waits }], ready := m.ready - 1 })

/-- A descriptor that fails as it starts: the port halts at it, once those before it have completed (03 R73). -/
def moverFailNow (s0 s : State) (b p : Nat) (d : BitVec 512) (group cause remote a : Nat) : State :=
  if (s0.mover b p).started.isEmpty then moverFail s b p cause remote a group (s0.mover b p).rd (Mv.tag d) else s0

/-- A mover's accesses: master the Bay, its partition, the translations that its tile holds (03 R72, 06 R172). -/
def moverView (s : State) (b p : Nat) (d : BitVec 512) : View :=
  let x := s.bay b
  let m := x.mover p
  { rq := fun _ => { master := b, part := s.partOfBay b, noAlloc := Mv.noAlloc d }
    key := (tileCtx s m.tile).getD 0
    ents := (x.ttb.filter (fun t => t.tiles.contains m.tile)).map ttbEntry }

/-- A piece of a transfer in one page: address, bytes and Bay offset, and the entry that translates it. -/
structure MoverPiece where
  va : Nat
  n : Nat
  bay : Nat
  ent : CatEntry

/-- The pieces of a descriptor in transfer order. -/
def moverPieces (v : View) (d : BitVec 512) : List MoverPiece :=
  (Mv.runs d).flatMap (fun r => (pagePieces (Mv.va r.1) (Mv.xBytes d)).filterMap (fun q =>
    (v.ents.find? (fun e => e.covers v.key q.1)).map (fun e => { va := q.1, n := q.2, bay := r.2 + (q.1 - Mv.va r.1), ent := e })))

/-- The virtual address of a piece that a refused physical address belongs to. -/
def pieceVa (ps : List MoverPiece) (pa : Nat) : Nat :=
  match ps.find? (fun q => decide (entryPA q.ent q.va ≤ pa) && decide (pa < entryPA q.ent q.va + q.n)) with
  | some q => q.va + (pa - entryPA q.ent q.va)
  | none => (ps.head?.map (·.va)).getD 0

/-- A request of a mover that waits for a companion's answer has its deadline of 200 µs; it is entered once (03 R92). -/
def noteWait (s : State) (mover : Bool) (who port va : Nat) : State :=
  if s.nets.requests.any (fun r => r.mover == mover && r.who == who && r.port == port) then s
  else s.modNets (fun n => { n with requests := n.requests ++ [{ mover, who, port, deadline := s.now + 200 * us, va }] })

/-- The request has been answered. -/
def dropWait (s : State) (mover : Bool) (who port : Nat) : State :=
  s.modNets (fun n => { n with requests := n.requests.filter (fun r => !(r.mover == mover && r.who == who && r.port == port)) })

/-- Bytes of a transfer charged to the tile's job, by the call number that its descriptors carry (03 R69, 14 R417). -/
def chargeMover (s : State) (b p : Nat) (d : Counters) : State := chargeTile s (s.mover b p).tile d

/-- The remote pieces of a descriptor, cut for packets. -/
def remotePieces (ps : List MoverPiece) : List MoverPiece :=
  (ps.filter (fun q => leafRemote q.ent.leaf)).flatMap (fun q => (packetPieces q.va q.n).map (fun c => { q with va := c.1, n := c.2, bay := q.bay + (c.1 - q.va) }))

/-- LOAD: local runs are read, remote ones asked for; poison fails the descriptor with PARITY, a request refused at its home with
NOT_PERMITTED (03 R69, R70, 06 R157, R169, 11 R315). -/
def moverLoad (s : State) (b p : Nat) : State :=
  match moverNext s b p 1 with
  | none => s
  | some (d, order, group) =>
    let v := moverView s b p d
    let ps := moverPieces v d
    let here := ps.filter (fun q => !leafRemote q.ent.leaf)
    match vRead s v (here.map (fun q => (q.va, q.n))) with
    | .wait t => noteWait t true b p (Mv.memVa d)
    | .bad t pa => moverFailNow s t b p d group 5 0 (pieceVa here pa)
    | .ok t bs =>
      let t := dropWait t true b p
      let vas := here.flatMap (fun q => (List.range q.n).map (q.va + ·))
      match (bs.zip vas).find? (fun c => c.1.2) with
      | some c => moverFailNow s t b p d group 7 0 c.2
      | none =>
        let bays := here.flatMap (fun q => (List.range q.n).map (q.bay + ·))
        let t := t.modBay b (fun x => (bs.zip bays).foldl (fun x c => x.writeByte c.2 c.1.1) x)
        let t := chargeMover t b p { stackRd := bs.length }
        let rs := remotePieces ps
        let tile := (s.mover b p).tile
        let (t, ask) := rs.foldl (fun (a : State × List MoverPiece) q => match trayLoad a.1 tile q.bay q.n with
          | some (t, bs) => (t.modBay b (fun x => x.write q.bay bs), a.2)
          | none => (a.1, a.2 ++ [q])) (t, [])
        ask.foldl (fun t q => issueRequest t (remoteRead t (.mover b p order q.va q.bay) q.ent q.va q.n)) (moverStart t b p d order group ask.length)

/-- Whether a port's stores belong to a tile whose step 7 has not come (05 R146). -/
def storesEarly (s : State) (b p : Nat) : Bool :=
  ((Tbl.find s.work.tiles (s.mover b p).tile).map (fun t => decide (t.step < 7))).getD false

/-- STORE, in step 7 of its tile: local runs are written, remote ones sent; it completes when every write has been acknowledged (03 R69, 05 R146). -/
def moverStore (s : State) (b p : Nat) : State :=
  match (moverNext s b p 2).filter (fun _ => !storesEarly s b p) with
  | none => s
  | some (d, order, group) =>
    let v := moverView s b p d
    let ps := moverPieces v d
    let here := ps.filter (fun q => !leafRemote q.ent.leaf)
    let x := s.bay b
    let bs := here.flatMap (fun q => x.read q.bay q.n)
    match vWrite s v (here.map (fun q => (q.va, q.n))) (clean bs) with
    | .wait t => noteWait t true b p (Mv.memVa d)
    | .bad t pa => moverFailNow s t b p d group 5 0 (pieceVa here pa)
    | .ok t _ =>
      let t := chargeMover (dropWait t true b p) b p { stackWr := bs.length }
      let rs := remotePieces ps
      rs.foldl (fun t q => issueRequest t (remoteWrite t (.mover b p order q.va 0) q.ent q.va (x.read q.bay q.n))) (moverStart t b p d order group rs.length)

/-- COPY_LOCAL: bytes within a run, then runs, then planes (03 R69). -/
def moverCopyLocal (s : State) (b p : Nat) : State :=
  match moverNext s b p 3 with
  | none => s
  | some (d, order, group) =>
    let s := s.modBay b (fun x => (Mv.runs d).foldl (fun x r =>
      (List.range (Mv.xBytes d)).foldl (fun x i => x.writeByte (r.2 + i) (x.readByte (r.1.toNat + i))) x) x)
    moverStart s b p d order group 0

/-- FILL: the pattern repeated from the descriptor's first byte, in transfer order (03 R69). -/
def moverFill (s : State) (b p : Nat) : State :=
  match moverNext s b p 4 with
  | none => s
  | some (d, order, group) =>
    let pat := bytesLE 8 (Mv.pattern d)
    let s := s.modBay b (fun x => ((Mv.runs d).zipIdx).foldl (fun x r =>
      (List.range (Mv.xBytes d)).foldl (fun x i => x.writeByte (r.1.2 + i) (pat.getD ((r.2 * Mv.xBytes d + i) % 8) 0#8)) x) x)
    moverStart s b p d order group 0

/-- PREFETCH: lines of local pages brought into the MSC; what prefetching may not install is left out (03 R69, 06 R166). -/
def moverPrefetch (s : State) (b p : Nat) : State :=
  match moverNext s b p 5 with
  | none => s
  | some (d, order, group) =>
    let v := moverView s b p d
    let lines := ((moverPieces v d).filter (fun q => !leafRemote q.ent.leaf)).flatMap (fun q =>
      (linePieces (entryPA q.ent q.va) q.n).filterMap (fun c => (direct? c.1).map (· / 128)))
    let s := lines.foldl (fun s l => prefetchLine s (v.rq 0) l) s
    moverStart s b p d order group 0

/-- MOVER_TILE_BEGIN: the group opens (03 R71). -/
def execMoverTileBegin (bay : BayNo) (port : Fin 2) (s : State) : Out :=
  match moverNext s bay port 0 with
  | none => .next s
  | some (d, order, group) => .next (moverStart s bay port d order group 0)

/-- MOVER_LOAD (03 R69). -/
def execMoverLoad (bay : BayNo) (port : Fin 2) (s : State) : Out := .next (moverLoad s bay port)
/-- MOVER_STORE (03 R69). -/
def execMoverStore (bay : BayNo) (port : Fin 2) (s : State) : Out := .next (moverStore s bay port)
/-- MOVER_COPY_LOCAL (03 R69). -/
def execMoverCopyLocal (bay : BayNo) (port : Fin 2) (s : State) : Out := .next (moverCopyLocal s bay port)
/-- MOVER_FILL (03 R69). -/
def execMoverFill (bay : BayNo) (port : Fin 2) (s : State) : Out := .next (moverFill s bay port)
/-- MOVER_PREFETCH (03 R69). -/
def execMoverPrefetch (bay : BayNo) (port : Fin 2) (s : State) : Out := .next (moverPrefetch s bay port)

/-! Completion (03 R69, R70, R73). -/

/-- A descriptor whose request met a failure: its port halts at it; STALE_EPOCH replays the tile once (03 R70, 10 R289). -/
def moverEndBad (s : State) (b p : Nat) (o : MoverOp) (cause st va : Nat) : State :=
  let m := s.mover b p
  if cause == 10 && st == Status.staleEpoch.code then
    let s := haltMover s b p cause st va o.group m.rd
    match Tbl.find s.work.tiles m.tile with
    | some t => if t.status.isSome then s else endTile s m.tile st (fun t => { t with fault := some (cause, Mv.tag o.desc, 0, 0, 0, va), requester := 192 + b }) false true
    | none => s
  else moverFail s b p cause st va o.group m.rd (Mv.tag o.desc)

/-- A halted port goes on from RD (03 R73). -/
def moverResume (m : MoverPort) : MoverPort := { m with halted := false, heldOn := none, cause := 0 }

/-- MOVER_RESUME (03 R73). -/
def execMoverResume (bay : BayNo) (port : Fin 2) (s : State) : Out :=
  if (s.mover bay port).halted then .next (s.modMover bay port moverResume) else .next s

/-- MOVER_FLUSH: every descriptor up to WR is discarded; the other port goes on (03 R73). -/
def execMoverFlush (bay : BayNo) (port : Fin 2) (s : State) : Out := .next (s.modMover bay port moverFlush)

end Sys2Proof.Machine
end

