-- ==== Sys2Proof/Machine/Bays.lean ====
section
/-! DEFINITION. A Bay's banks, test engine, resets and fencing (03_bays.md R64 to R66, R75 to R79, R90). -/

namespace Sys2Proof.Machine

/-- Whether a code may be put in an owner field (03 R64). -/
def ownerCodeOk (c : Nat) : Bool := decide (c ≤ 9) || c == 0xF

/-- BANK_OWNER_0_7 or BANK_OWNER_8_15 written: each field whose code changes starts a handover, a reserved code leaves its field (03 R65). -/
def writeOwners (s : State) (b : Nat) (hi : Bool) (v : Word) : State :=
  let first := if hi then 8 else 0
  let code := fun (i : Nat) => bitsAt v.toNat (4 * i) 4
  let s := s.modBay b (fun x => (List.range 8).foldl (fun x i => if ownerCodeOk (code i) then setBankOwner x (first + i) (code i) else x) x)
  match (List.range 8).reverse.find? (fun i => !ownerCodeOk (code i)) with
  | some i => bayEvent s b 26 (some (first + i)) 2 0
  | none => s

/-- Whether a register access reaches a Bay's control block, and whether it is the Registrar's; another core's is not performed and
raises an access fault (03 R79). -/
def bayBlockAccess (s : State) (who : Writer) (b addr : Nat) (write : Bool) : State × Bool :=
  match who with
  | .registrar => (s, true)
  | .core b' c =>
    if b'.val == b && c.val == 4 then (s, true)
    else (trapCore s b' c (if write then 7 else 5) addr Status.permission.code, false)
  | _ => (s, false)

/-- BANK_OWNER_WRITE (03 R65). -/
def execBankOwnerWrite (who : Writer) (bay : BayNo) (hi : Bool) (v : Word) (s : State) : Out :=
  match bayBlockAccess s who bay (if hi then 8 else 4) true with
  | (s, true) => .next (writeOwners s bay hi v)
  | (s, false) => .next s

/-- HANDOVER_COMPLETE: the old owner's accesses have completed and the new owner gains the bank (03 R65). -/
def execHandoverComplete (bay : BayNo) (bank : Fin 16) (s : State) : Out :=
  .next (s.modBay bay (fun x => { x with pending := x.pending &&& ~~~(BitVec.ofNat 16 (2 ^ bank.val)) }))

/-! The transparent bank test (03 R75 to R77). -/

/-- INTERVAL_US, 0 read as 1. -/
def testInterval (t : TestEngine) : Nat := max 1 (t.ctrl.toNat / 65536) * us

/-- The region after one, and whether a pass has ended. -/
def nextRegion (r : Nat) : Nat × Bool := if r + 1 ≥ 6144 then (0, true) else (r + 1, false)

/-- The region tested next: a queued one, or the one in turn that is not left redirected. -/
def pickRegion (t : TestEngine) : Nat × List Nat :=
  match t.queue with
  | r :: rest => (r, rest)
  | [] => (t.current, [])

/-- TEST_INTERVAL_EXPIRE: INTERVAL_US passes in IDLE and the engine enters COPY on the next region (03 R75). -/
def execTestIntervalExpire (bay : BayNo) (s : State) : Out :=
  let t := (s.bay bay).test
  if t.state != 0 || bitsAt t.ctrl.toNat 0 1 == 0 || (s.bay bay).resetAt.isSome then .next s
  else
    let s := reach s (t.idleAt + testInterval t)
    let (r, queue) := pickRegion t
    .next (s.modBay bay (fun x => { x with test := { t with state := 1, bank := r / 384, region := r % 384, shadow := [], queue } }))

/-- A region's bytes as a memory of their own. -/
def regionCopy (x : Bay) (r : Nat) : Mem := Mem.writeN [] 0 (Mem.readN x.mem (regionBase r) regionBytes)

/-- TEST_COPY_DONE: the region has been copied to the shadow, and the engine enters TEST (03 R75). -/
def execTestCopyDone (bay : BayNo) (s : State) : Out :=
  let t := (s.bay bay).test
  if t.state != 1 then .next s
  else .next (s.modBay bay (fun x => { x with test := { t with state := 2, shadow := regionCopy x t.current } }))

/-- Spares that a bank has used (03 R79). -/
def sparesUsed (x : Bay) (bank : Nat) : Nat := bitsAt x.spareUsed.toNat (4 * bank) 4

/-- One failing row repaired with a spare of its bank, or the bank found without one: the spare counted and marked, and TEST_FAIL;
a ninth leaves the region redirected (03 R77). -/
def repairRow (s : State) (b bank : Nat) : State × Bool :=
  let x := s.bay b
  if sparesUsed x bank < 8 then
    (bayEvent (s.modBay b (fun x => { x with
      spareUsed := x.spareUsed + BitVec.ofNat 64 (2 ^ (4 * bank)), spareUnfused := x.spareUnfused ||| BitVec.ofNat 16 (2 ^ bank) })) b 24 (some bank) 0 0, true)
  else (bayEvent s b 25 (some bank) 2 0, false)

/-- MARCH_C_DONE: the region's rows hold zeros; failing ones are repaired and the engine enters RESTORE. Where the spares run out, the
region stays redirected to its shadow, and the Bay is fenced once its tile has ended (03 R77). -/
def execMarchCDone (bay : BayNo) (failed : BitVec 16) (s : State) : Out :=
  let t := (s.bay bay).test
  if t.state != 2 then .next s
  else
    let rows := (List.range 16).filter (fun i => bitsAt failed.toNat i 1 == 1)
    let (s, ok) := rows.foldl (fun (a : State × Bool) _ => let (s, o) := repairRow a.1 bay t.bank; (s, a.2 && o)) (s, true)
    let base := regionBase t.current
    let s := s.modBay bay (fun x => { x with mem := Mem.clear x.mem base (base + regionBytes) })
    if ok then .next (s.modBay bay (fun x => { x with test := { x.test with state := 3 } }))
    else
      let s := s.modBay bay (fun x => { x with
        test := { x.test with state := 0, shadow := [], idleAt := s.now, redirected := Tbl.put x.test.redirected t.current x.test.shadow } })
      .next (if (s.bay bay).tile == 0 then fenceBay s bay else s)

/-- TEST_RESTORE_DONE: the shadow has been copied back, and the next region is due (03 R75). -/
def execTestRestoreDone (bay : BayNo) (s : State) : Out :=
  let t := (s.bay bay).test
  if t.state != 3 then .next s
  else
    let base := regionBase t.current
    let (r, wrapped) := nextRegion t.current
    .next (s.modBay bay (fun x => { x with
      mem := Mem.writeN x.mem base (Mem.readN t.shadow 0 regionBytes)
      test := { x.test with state := 0, shadow := [], idleAt := s.now, bank := r / 384, region := r % 384, passes := if wrapped then (t.passes + 1) % 65536 else t.passes } }))

/-! Resets and fences (03 R78, R90, 18 R494, R503). -/

/-- A Bay reset, with the tiles on the Bay replayed from their checkpoints (03 R78); a second one while it runs is merged. -/
def resetBay (s : State) (b : Nat) : State :=
  if (s.bay b).resetAt.isSome then s
  else
    let s := [(s.bay b).tile, (s.bay b).nextTile].foldl (fun s id => if Tbl.has s.work.tiles id then replayTile s id Status.aborted.code else s) s
    beginBayReset s b

/-- BAY_RESET: a tile on the Bay is replayed from its checkpoint (03 R78). -/
def execBayReset (bay : BayNo) (s : State) : Out := .next (resetBay s bay)

/-- BAY_RESET_DRAIN_LIMIT: writes not drained within 100 µs are squashed, and the Bay is cleared (03 R78). -/
def execBayResetDrainLimit (bay : BayNo) (s : State) : Out :=
  let x := s.bay bay
  match x.resetAt with
  | some t => if x.draining == 0 then .next s else
    let s := reach s (t + 100 * us)
    .next (s.modBay bay (clearBay s.now))
  | none => .next s

/-- CORE_FENCE_WRITE: the Registrar fences a core (03 R90). -/
def execCoreFenceWrite (bay : BayNo) (core : Fin 10) (s : State) : Out :=
  if bitsAt (s.bay bay).coreFence.toNat core 1 == 1 then .next s else .next (fenceCore s bay core true)

/-- CORE_RESET_DONE: a fenced core's reset completes, and the Registrar reopens it unless its Bay is fenced as a whole (03 R90). -/
def execCoreResetDone (bay : BayNo) (core : Fin 10) (s : State) : Out :=
  let x := s.bay bay
  if !x.coreResets.contains core.val then .next s
  else
    let s := match coreOfPort core with
      | some c => s.setCore bay c {}
      | none => mxReset s bay core
    let x := s.bay bay
    let x := { x with coreResets := NSet.rem x.coreResets core, coreFence := if x.fenced then x.coreFence else x.coreFence &&& ~~~(BitVec.ofNat 10 (2 ^ core.val)) }
    .next (endReset (s.setBay bay x) 1 (bay.val * 16 + core.val))

end Sys2Proof.Machine
end

