-- ==== Sys2Proof/Machine/Objects.lean ====
section
/-! DEFINITION. Mailbox commands on contexts' records, queues, memory-object holds, fences and the Ledger (13_work_objects.md, 14_scheduling.md, 15_registrar.md R435). -/

namespace Sys2Proof.Machine

/-- A function that serves a partition. -/
def isPartFn (m : MbSlot) : Bool := m.fn.val != 0
/-- The partition a function serves. -/
def partOfFn (m : MbSlot) : Nat := m.fn.val - 1

/-- A context that a handle names and that is not being destroyed (13 R369, R395). -/
def liveCtx (s : State) (p h : Nat) : Option (Nat × Ctx) :=
  match findCtx s p h with
  | some (k, c) => if c.state == .destroying then none else some (k, c)
  | none => none

/-- A context's rules at creation (13 R371). -/
def ctxFieldsOk (s : State) (p : Nat) (c : MbCmd) : Bool :=
  let root := c.f 0x10 0 64
  let mb := c.f 0x18 8 6
  let en := c.f 0x40 0 11
  (match usable root with | some d => root % 0x8000 == 0 && heldBy s p d | none => false)
    && decide (1 ≤ mb) && decide (mb ≤ 32) && c.f 0x28 0 64 % 0x200000 == 0 && decide (c.f 0x28 0 64 < 2 ^ 57)
    && decide (c.f 0x30 0 64 ≥ mb * 0x240000 + 0x100000) && c.f 0x38 0 64 % 128 == 0
    && isPow2 en && decide (16 ≤ en) && decide (en ≤ 1024)

/-- CTX_CREATE (13 R371). -/
def execCtxCreate (slot : MbSlot) (s : State) : Out :=
  let p := partOfFn slot
  .next (mbCommand s slot 0x20 (fun _ => true)
    (fun s c => { fields := [(0x10, 0, 64), (0x18, 0, 1), (0x18, 8, 6), (0x20, 0, 64), (0x28, 0, 64), (0x30, 0, 64), (0x38, 0, 64), (0x40, 0, 11)]
                  range := ctxFieldsOk s p c, permitted := isPartFn slot })
    (fun s c => match Tbl.freeKey s.work.ctxs (p * 4096) ((p + 1) * 4096) with
      | none => mbFail s .resourceExhausted
      | some key =>
        let x : Ctx := { gen := Tbl.getD s.work.ctxGens key 1, root := c.f 0x10 0 64, retry := c.f 0x18 0 1 == 1, maxBays := c.f 0x18 8 6,
                         seed := BitVec.ofNat 64 (c.f 0x20 0 64), saveVa := c.f 0x28 0 64, saveBytes := c.f 0x30 0 64, faultRing := c.f 0x38 0 64,
                         faultEntries := c.f 0x40 0 11, created := s.now }
        mbOk (setCtx s key x) [ctxHandle key x]))

/-- CTX_SET: SEED for commands accepted afterwards (13 R371). -/
def execCtxSet (slot : MbSlot) (s : State) : Out :=
  let p := partOfFn slot
  .next (mbCommand s slot 0x21 (fun _ => true)
    (fun s c => { fields := [(0x10, 0, 32), (0x18, 0, 64)], permitted := isPartFn slot, handles := (liveCtx s p (c.f 0x10 0 32)).isSome })
    (fun s c => match liveCtx s p (c.f 0x10 0 32) with
      | some (key, x) => mbOk (setCtx s key { x with seed := BitVec.ofNat 64 (c.f 0x18 0 64) })
      | none => mbFail s .staleHandle 3))

/-- FAULT_ACK: the fault ring's slots up to a record returned (13 R374). -/
def execFaultAck (slot : MbSlot) (s : State) : Out :=
  let p := partOfFn slot
  .next (mbCommand s slot 0x24 (fun _ => true)
    (fun s c => { fields := [(0x10, 0, 32), (0x18, 0, 16)], permitted := isPartFn slot, handles := (liveCtx s p (c.f 0x10 0 32)).isSome })
    (fun s c => match liveCtx s p (c.f 0x10 0 32) with
      | some (key, x) =>
        let q := c.f 0x18 0 16
        mbOk (setCtx s key { x with unacked := if x.unacked.contains q then (x.unacked.dropWhile (· != q)).drop 1 else x.unacked })
      | none => mbFail s .staleHandle 3))

/-- QUEUE_CREATE (13 R376). -/
def execQueueCreate (slot : MbSlot) (s : State) : Out :=
  let p := partOfFn slot
  .next (mbCommand s slot 0x28 (fun _ => true)
    (fun s c =>
      let v := c.f 0x30 0 8
      let en := c.f 0x28 0 13
      { fields := [(0x10, 0, 32), (0x18, 0, 64), (0x20, 0, 64), (0x28, 0, 13), (0x30, 0, 8)]
        range := isPow2 en && decide (16 ≤ en) && decide (en ≤ 4096) && (v == 0xFF || (decide (2 ≤ v) && decide (v ≤ 63)))
        permitted := isPartFn slot, handles := (liveCtx s p (c.f 0x10 0 32)).isSome })
    (fun s c =>
      let n := 65536 / s.nparts
      match liveCtx s p (c.f 0x10 0 32), Tbl.freeKey s.work.queues (p * n) ((p + 1) * n) with
      | some (key, _), some q =>
        let x : Queue := { gen := Tbl.getD s.work.queueGens q 1, ctx := key, cmdRing := c.f 0x18 0 64, cplRing := c.f 0x20 0 64,
                           entries := c.f 0x28 0 13, vector := c.f 0x30 0 8, idleSince := s.now }
        mbOk (s.modWork (fun w => { w with queues := Tbl.put w.queues q x })) [queueHandle q x, 0x80000 + 8 * (q - p * n)]
      | none, _ => mbFail s .staleHandle 3
      | _, none => mbFail s .resourceExhausted))

/-- IMAGE_UNREGISTER: the registration's hold is dropped (13 R393). -/
def execImageUnregister (slot : MbSlot) (s : State) : Out :=
  let p := partOfFn slot
  .next (mbCommand s slot 0x2B (fun _ => true)
    (fun s c => { fields := [(0x10, 0, 32)], permitted := isPartFn slot, handles := (findObj s p (c.f 0x10 0 32)).isSome })
    (fun s c => match findObj s p (c.f 0x10 0 32) with
      | some (key, o) =>
        if o.image.isNone then mbFail s .aborted 0x10
        else mbOk (settleObj (modObj s key (fun o => { o with image := none })) key)
      | none => mbFail s .staleHandle 3))

/-- MEM_IMPORT: a hold on a LIVE object (13 R393, R394). -/
def execMemImport (slot : MbSlot) (s : State) : Out :=
  let p := partOfFn slot
  .next (mbCommand s slot 0x31 (fun _ => true)
    (fun s c => { fields := [(0x10, 0, 32), (0x18, 0, 32)], permitted := isPartFn slot
                  handles := (liveCtx s p (c.f 0x10 0 32)).isSome && (match findObj s p (c.f 0x18 0 32) with | some (_, o) => o.state == .live | none => false) })
    (fun s c => match liveCtx s p (c.f 0x10 0 32), findObj s p (c.f 0x18 0 32) with
      | some (ck, _), some (ok, _) => mbOk (modObj s ok (fun o => { o with holds := NSet.ins o.holds ck }))
      | _, _ => mbFail s .staleHandle 3))

/-- MEM_FREE: the issuing context's hold is dropped (13 R393). -/
def execMemFree (slot : MbSlot) (s : State) : Out :=
  let p := partOfFn slot
  .next (mbCommand s slot 0x32 (fun _ => true)
    (fun s c => { fields := [(0x10, 0, 32), (0x18, 0, 32)], permitted := isPartFn slot
                  handles := match liveCtx s p (c.f 0x10 0 32), findObj s p (c.f 0x18 0 32) with
                    | some (ck, _), some (_, o) => o.holds.contains ck
                    | _, _ => false })
    (fun s c => match liveCtx s p (c.f 0x10 0 32), findObj s p (c.f 0x18 0 32) with
      | some (ck, _), some (ok, _) => mbOk (settleObj (modObj s ok (fun o => { o with holds := NSet.rem o.holds ck })) ok)
      | _, _ => mbFail s .staleHandle 3))

/-- MEM_RECLAIM: a QUARANTINED object is released (13 R394). -/
def execMemReclaim (slot : MbSlot) (s : State) : Out :=
  let p := partOfFn slot
  .next (mbCommand s slot 0x33 (fun _ => true)
    (fun s c => { fields := [(0x10, 0, 32)], permitted := isPartFn slot, handles := (findObj s p (c.f 0x10 0 32)).isSome })
    (fun s c => match findObj s p (c.f 0x10 0 32) with
      | some (key, o) =>
        if o.state != .quarantined then mbFail s .aborted
        else mbOk (s.modWork (fun w => { w with objs := Tbl.del w.objs key, objGens := Tbl.put w.objGens key (nextGen o.gen 16) }))
      | none => mbFail s .staleHandle 3))

/-- Whether a partition has any fence. -/
def anyFence (s : State) (p : Nat) : Bool := s.work.fences.any (fun f => f.1 / 2 ^ 24 == p)

/-- FENCE_TABLE (13 R388). -/
def execFenceTable (slot : MbSlot) (s : State) : Out :=
  let p := partOfFn slot
  .next (mbCommand s slot 0x38 (fun _ => true)
    (fun _ c => { fields := [(0x10, 0, 64), (0x18, 0, 5)], range := decide (4 ≤ c.f 0x18 0 5) && decide (c.f 0x18 0 5 ≤ 24), permitted := isPartFn slot })
    (fun s c => if anyFence s p then mbFail s .aborted
      else mbOk (s.modPart p (fun x => { x with fenceTable := some (c.f 0x10 0 64, c.f 0x18 0 5) }))))

/-- FENCE_ALLOC (13 R388). -/
def execFenceAlloc (slot : MbSlot) (s : State) : Out :=
  let p := partOfFn slot
  .next (mbCommand s slot 0x39 (fun _ => true)
    (fun _ _ => { fields := [(0x10, 0, 64)], permitted := isPartFn slot })
    (fun s c => match (s.part p).fenceTable with
      | none => mbFail s .aborted 0x10
      | some (_, l) =>
        match Tbl.freeKey s.work.fences (p * 2 ^ 24) (p * 2 ^ 24 + 2 ^ l) with
        | none => mbFail s .resourceExhausted
        | some key =>
          let f : Fence := { gen := Tbl.getD s.work.fenceGens key 1, value := c.f 0x10 0 64 }
          mbOk (writeFence (s.modWork (fun w => { w with fences := Tbl.put w.fences key f })) key f) [fenceHandle key f]))

/-- FENCE_SIGNAL (13 R389). -/
def execFenceSignal (slot : MbSlot) (s : State) : Out :=
  let p := partOfFn slot
  .next (mbCommand s slot 0x3A (fun _ => true)
    (fun s c => { fields := [(0x10, 0, 32), (0x18, 0, 64)], permitted := isPartFn slot, handles := (findFence s p (c.f 0x10 0 32)).isSome })
    (fun s c => match findFence s p (c.f 0x10 0 32) with
      | some (key, _) => mbOk (signalFenceKey s key (c.f 0x18 0 64) none)
      | none => mbFail s .staleHandle 3))

/-- FENCE_RESET: the poison is cleared, unless an accepted command names the fence (13 R390). -/
def execFenceReset (slot : MbSlot) (s : State) : Out :=
  let p := partOfFn slot
  .next (mbCommand s slot 0x3B (fun _ => true)
    (fun s c => { fields := [(0x10, 0, 32)], permitted := isPartFn slot, handles := (findFence s p (c.f 0x10 0 32)).isSome })
    (fun s c => match findFence s p (c.f 0x10 0 32) with
      | some (key, f) =>
        if fenceReferenced s key f then mbFail s .aborted
        else
          let f := { f with poisoned := false, cause := 0 }
          mbOk (writeFence (s.modWork (fun w => { w with fences := Tbl.put w.fences key f })) key f)
      | none => mbFail s .staleHandle 3))

/-- FENCE_FREE: the fence is retired (13 R391). -/
def execFenceFree (slot : MbSlot) (s : State) : Out :=
  let p := partOfFn slot
  .next (mbCommand s slot 0x3C (fun _ => true)
    (fun s c => { fields := [(0x10, 0, 32)], permitted := isPartFn slot, handles := (findFence s p (c.f 0x10 0 32)).isSome })
    (fun s c => match findFence s p (c.f 0x10 0 32) with
      | some (key, f) => mbOk (settleFence (s.modWork (fun w => { w with fences := Tbl.put w.fences key { f with freed := true } })) key)
      | none => mbFail s .staleHandle 3))

/-- FENCE_WAIT: registered, and answered at once where it already holds (15 R438). -/
def execFenceWait (slot : MbSlot) (s : State) : Out :=
  let p := partOfFn slot
  .next (mbCommand s slot 0x3D (fun _ => true)
    (fun s c => { fields := [(0x10, 0, 32), (0x18, 0, 64), (0x20, 0, 8)], range := decide (2 ≤ c.f 0x20 0 8) && decide (c.f 0x20 0 8 ≤ 63)
                  permitted := isPartFn slot, handles := (findFence s p (c.f 0x10 0 32)).isSome })
    (fun s c => match findFence s p (c.f 0x10 0 32) with
      | some (key, f) =>
        let w : FenceWait := { fn := slot.fn, fence := key, handle := c.f 0x10 0 32, value := c.f 0x18 0 64, vector := c.f 0x20 0 8 }
        mbOk (serveWaits (s.modWork (fun x => { x with waits := x.waits ++ [w] })) key f)
      | none => mbFail s .staleHandle 3))

/-- SCHED_SET: TIMESLICE 1 to 1,000 ms and PREEMPT_GRACE 20 to 1,000 µs (14 R402, R410). -/
def execSchedSet (slot : MbSlot) (s : State) : Out :=
  let p := partOfFn slot
  .next (mbCommand s slot 0x0A (fun _ => true)
    (fun _ c =>
      let t := c.f 0x10 0 10
      let g := c.f 0x18 0 10
      { fields := [(0x10, 0, 10), (0x18, 0, 10)], range := decide (1 ≤ t) && decide (t ≤ 1000) && decide (20 ≤ g) && decide (g ≤ 1000), permitted := isPartFn slot })
    (fun s c => mbOk (s.modPart p (fun x => { x with timeslice := c.f 0x10 0 10, grace := c.f 0x18 0 10 }))))

/-- LEDGER_RING: a new ring replaces the old one at once (14 R419). -/
def execLedgerRing (slot : MbSlot) (s : State) : Out :=
  let p := partOfFn slot
  .next (mbCommand s slot 0x48 (fun _ => true)
    (fun _ c =>
      let n := c.f 0x18 0 17
      { fields := [(0x10, 0, 64), (0x18, 0, 17)], range := c.f 0x10 0 64 % 128 == 0 && isPow2 n && decide (64 ≤ n) && decide (n ≤ 65536), permitted := isPartFn slot })
    (fun s c =>
      let l := (s.part p).ledger
      let l' := { l with addr := some (c.f 0x10 0 64), entries := c.f 0x18 0 17, written := 0, acked := 0,
                         firstSeq := (l.seq + 2 ^ 32 - l.held.length) % 2 ^ 32 }
      mbOk (ledgerDrain (s.modPart p (fun x => { x with ledger := l' })) p l.held.length)))

/-- LEDGER_ACK: the slots up to a SEQ are returned, and held records are written (14 R419, R420). -/
def execLedgerAck (slot : MbSlot) (s : State) : Out :=
  let p := partOfFn slot
  .next (mbCommand s slot 0x49 (fun _ => true)
    (fun _ _ => { fields := [(0x10, 0, 32)], permitted := isPartFn slot })
    (fun s c =>
      let l := (s.part p).ledger
      let n := (c.f 0x10 0 32 + 2 ^ 32 - l.firstSeq) % 2 ^ 32
      let l' := if n > l.written || n < l.acked then l else { l with acked := n }
      mbOk (ledgerDrain (s.modPart p (fun x => { x with ledger := l' })) p l.held.length)))

/-- LEDGER_QUERY: the running counters of a context, or of the part with the IDLE account (14 R421). -/
def execLedgerQuery (slot : MbSlot) (s : State) : Out :=
  let f := slot.fn.val
  let owner := fun (c : MbCmd) => if f == 0 then c.f 0x10 12 3 else f - 1
  .next (mbCommand s slot 0x4A (fun _ => true)
    (fun s c => { fields := [(0x10, 0, 32), (0x18, 0, 64)], range := c.f 0x18 0 64 % 128 == 0
                  handles := (f == 0 && c.f 0x10 0 32 == 0) || (liveCtx s (owner c) (c.f 0x10 0 32)).isSome })
    (fun s c =>
      let dst := c.f 0x18 0 64
      if f == 0 && c.f 0x10 0 32 == 0 then
        let k := s.work.partCounts
        let s := cmRecord s f dst 128 (ledgerRec 2 0 0 0 0 s.now k (k.energyNj / 1000) false + put 1 31 1)
        mbOk (cmRecord s f (dst + 128) 128 (ledgerRec 3 0 0 0 0 s.now {} (s.work.idleNj / 1000) false + put 1 31 1))
      else match liveCtx s (owner c) (c.f 0x10 0 32) with
        | some (key, x) =>
          mbOk (cmRecord s f dst 128 (ledgerRec 2 0 x.firstBad (ctxHandle key x) x.created s.now x.counts (x.counts.energyNj / 1000) false + put 1 31 1))
        | none => mbFail s .staleHandle 3))

end Sys2Proof.Machine
end

