-- ==== Sys2Proof/Machine/Volumes.lean ====
section
/-! DEFINITION. Volumes and Concordance: maps, votes, rounds, switching, grace, and epochs of requests (10_volumes.md R277 to R293). -/

namespace Sys2Proof.Machine

def modVols (s : State) (f : Vols → Vols) : State := { s with vols := f s.vols }
def setVol (s : State) (h : Nat) (v : Volume) : State := modVols s (fun x => { x with vols := Tbl.put x.vols h v })
def setRound (s : State) (h : Nat) (r : Round) : State := modVols s (fun x => { x with rounds := Tbl.put x.rounds h r })
def delRound (s : State) (h : Nat) : State := modVols s (fun x => { x with rounds := Tbl.del x.rounds h })

/-! Maps as bytes (10 R279, 11 R319). -/

/-- Whether a handle names the fabric's routing map (10 R277). -/
def isRouting (h : Nat) : Bool := h % 2 ^ 18 == 0

/-- Bytes of an entry. -/
def entryBytes (h : Nat) : Nat := if isRouting h then 96 else 32

/-- An entry read; none where a reserved bit is set. -/
def parseMember (routing : Bool) (bs : List Byte) : Option VolMember :=
  let w := natLE bs
  let f := fun (off lo n : Nat) => (w >>> (8 * off + lo)) % 2 ^ n
  if routing then
    if f 0 14 18 != 0 || f 4 0 224 != 0 then none else some { device := f 0 0 14, digest := BitVec.ofNat 512 (f 0x20 0 512) }
  else if f 0 14 2 != 0 || f 0 24 8 != 0 || f 0x18 24 8 != 0 then none
  else some { device := f 0 0 14, parts := f 0 16 8, bays := f 4 0 32, shelves := f 8 0 128, ports := f 0x18 0 24, bayDown := f 0x1C 0 32 }

/-- Devices in ascending order. -/
def ascending : List VolMember → Bool
  | a :: b :: t => decide (a.device < b.device) && ascending (b :: t)
  | _ => true

/-- A map read; none where it is malformed. A map without members stands for destruction (10 R281). -/
def parseMap (h : Nat) (bs : List Byte) : Option VolMap :=
  let f := fun (off n : Nat) => natLE ((bs.drop off).take n)
  let n := f 8 4
  let k := entryBytes h
  let es := (List.range n).map (fun i => parseMember (isRouting h) ((bs.drop (64 + k * i)).take k))
  if bs.length != 64 + k * n || n > 16384 || f 4 4 ≥ 65536 || f 0xC 4 ≥ 16384 || f 0x18 40 != 0 || f 0x10 4 == 0 || f 0x10 4 > 1000
      || f 0x14 4 < 50 || f 0x14 4 > 10000 || es.any (·.isNone) then none
  else
    let ms := es.filterMap id
    if !ascending ms then none
    else some { handle := f 0 4, epoch := f 4 4, coord := f 0xC 4, grace := f 0x10 4, lead := f 0x14 4, members := ms }

/-- A map written. -/
def mapBytes (m : VolMap) : List Byte :=
  let routing := isRouting m.handle
  let entry := fun (e : VolMember) =>
    if routing then bytesLE 32 e.device ++ bytesLE 64 e.digest.toNat
    else bytesLE 4 (e.device + put e.parts 16 8) ++ bytesLE 4 e.bays ++ bytesLE 16 e.shelves ++ bytesLE 4 e.ports ++ bytesLE 4 e.bayDown
  bytesLE 4 m.handle ++ bytesLE 4 m.epoch ++ bytesLE 4 m.members.length ++ bytesLE 4 m.coord ++ bytesLE 4 m.grace ++ bytesLE 4 m.lead
    ++ List.replicate 40 0#8 ++ m.members.flatMap entry

/-- Whether a device is a member of a map. -/
def memberOf (m : VolMap) (d : Nat) : Bool := m.members.any (fun e => e.device == d)

/-! Resources (10 R278, R284). -/

/-- Whether the resources of an entry are held by the partitions that it draws on. -/
def entryHeld (s : State) (e : VolMember) : Bool :=
  s.mode != 0 && decide (e.parts < 2 ^ s.mode)
    && (maskList e.bays 32).all (fun b => bitsAt e.parts (s.partOfBay b) 1 == 1)
    && (maskList e.shelves 128).all (fun k => bitsAt e.parts (s.partOfShelf k) 1 == 1)
    && (maskList e.ports 24).all (fun q => bitsAt e.parts (holderOf s q) 1 == 1)

/-- Bays bound to a handle by a tile that still runs on them (10 R292). -/
def busyBays (s : State) (h : Nat) : Nat :=
  s.work.tiles.foldl (fun m t => match Tbl.find s.work.cmds t.2.cmd with
    | some c => if c.volume == h then m ||| 2 ^ t.2.bay else m
    | none => m) 0

/-- Whether an entry's resources are bound, or prepared, in another Volume. -/
def entryTaken (s : State) (h : Nat) (e : VolMember) : Bool :=
  s.vols.vols.any (fun v => v.1 != h && !isRouting v.1 &&
    ((bitsAt (busyBays s v.1) 0 32 &&& e.bays != 0) || ([v.2.cur, v.2.prev, v.2.next].filterMap id).any (fun m => match ownEntry s m with
      | some x => x.bays &&& e.bays != 0 || x.shelves &&& e.shelves != 0 || x.ports &&& e.ports != 0
      | none => false)))

/-- Whether one more Volume, with this entry, passes the limits of R278: 64 for a part, 64/n for each partition. -/
def volumeRoom (s : State) (h : Nat) (e : VolMember) : Bool :=
  let others := s.vols.vols.filter (fun v => v.1 != h && !isRouting v.1 && (([v.2.cur, v.2.next].filterMap id).any (fun m => (ownEntry s m).isSome)))
  let inPart := fun (p : Nat) => (others.filter (fun v => ([v.2.cur, v.2.next].filterMap id).any (fun m => match ownEntry s m with
    | some x => bitsAt x.parts p 1 == 1
    | none => false))).length
  decide (others.length < 64) && (maskList e.parts 8).all (fun p => decide (inPart p < 64 / s.nparts))

/-- Whether the Shelves, Bays and member count of a map obey R278. -/
def mapShape (m : VolMap) : Bool := m.members.all (fun e => e.bays != 0 || e.shelves != 0)

/-! Messages (10 R282, R283; the payload's layout is assumption 44). -/

namespace Conc
def code (p : Packet) : Nat := natLE (p.payload.take 1)
def at_ (p : Packet) (off n : Nat) : Nat := natLE ((p.payload.drop off).take n)
def epoch (p : Packet) : Nat := at_ p 2 2
def handle (p : Packet) : Nat := at_ p 4 4

/-- A message's payload: code, epoch, handle, then its fields from byte 8. -/
def body (code epoch handle : Nat) (rest : List Byte) : List Byte :=
  [BitVec.ofNat 8 code, 0#8] ++ bytesLE 2 epoch ++ bytesLE 4 handle ++ rest
end Conc

/-- Map bytes of one MAP_CHUNK. -/
def chunkBytes : Nat := 480

/-- A message sent to a device: by the fabric, or within the part (10 R282). -/
def sendConc (s : State) (dst : Nat) (payload : List Byte) : State :=
  let h := natLE ((payload.drop 4).take 4)
  let e := natLE ((payload.drop 2).take 2)
  let hdr := Pk.make dst s.fab.deviceId 7 h e 0 payload.length 0 0 0
  if dst == s.fab.deviceId then s.modFab (fun f => { f with concIn := f.concIn ++ [(s.now, { hdr, payload })] })
  else injectPacket s { hdr, payload }

/-- The oldest message of a code taken from those that have arrived. -/
def takeConc (s : State) (code : Nat) : Option (Nat × Packet × State) :=
  match s.fab.concIn.find? (fun m => Conc.code m.2 == code) with
  | some (t, p) => some (t, p, s.modFab (fun f => { f with concIn := f.concIn.erase (t, p) }))
  | none => none

/-- A message that names no known handle is discarded and counted (10 R282). -/
def concDrop (s : State) : State := s.modFab (fun f => { f with concDropped := f.concDropped + 1 })

/-- The tree of a round: the devices of the old and new maps in ascending order, the root in front (10 R283). -/
def treeOf (old new : Option VolMap) (root : Nat) : List Nat :=
  let all := (([old, new].filterMap id).flatMap (fun m => m.members.map (·.device))).foldl NSet.ins []
  root :: all.filter (· != root)

/-- Children and parent of a device in a tree. -/
def treeChildren (t : List Nat) (d : Nat) : List Nat :=
  match t.idxOf? d with
  | some i => (List.range 16).filterMap (fun k => t[16 * i + 1 + k]?)
  | none => []
def treeParent (t : List Nat) (d : Nat) : Option Nat :=
  match t.idxOf? d with
  | some (i + 1) => t[i / 16]?
  | _ => none

/-- The tree of a round as this part knows it. -/
def roundTree (s : State) (h : Nat) (r : Round) : List Nat := treeOf ((Tbl.find s.vols.vols h).bind (·.cur)) r.map r.root

/-- A message sent to every child in a round's tree. -/
def relayConc (s : State) (h : Nat) (r : Round) (payload : List Byte) : State :=
  (treeChildren (roundTree s h r) s.fab.deviceId).foldl (fun s d => sendConc s d payload) s

/-! Switching and grace (10 R285 to R288). -/

/-- Whether a request or a tile tagged with an epoch of a Volume is outstanding on this part (10 R288). -/
def epochBusy (s : State) (h e : Nat) : Bool :=
  s.fab.tags.any (fun t => Pk.volume t.2.pkt.hdr == h && Pk.epoch t.2.pkt.hdr == e)
    || s.work.tiles.any (fun t => t.2.epoch == e && ((Tbl.find s.work.cmds t.2.cmd).map (·.volume)) == some h)

/-- DRAIN of the previous epoch sent to its other members, once nothing tagged with it is outstanding (10 R288). -/
def trySendDrain (s : State) (h : Nat) : State :=
  match Tbl.find s.vols.vols h with
  | some v => match v.prev with
    | some m =>
      if v.sentDrain || epochBusy s h m.epoch then s
      else
        let s := setVol s h { v with sentDrain := true }
        (m.members.filter (fun e => e.device != s.fab.deviceId)).foldl (fun s e => sendConc s e.device (Conc.body 6 m.epoch h [])) s
    | none => s
  | none => s

/-- The command of a committed round completes with OK; a Volume without members, or one that this part has left, is forgotten once its
own DRAIN is sent (10 R281, R288). -/
def settleVol (s : State) (h : Nat) : State :=
  match Tbl.find s.vols.vols h with
  | some v =>
    if v.prev.isSome then s
    else
      let s := match v.cmd with
        | some (f, i) => mbFinish (setVol s h { v with cmd := none }) f i 0 0 [h]
        | none => s
      match v.cur with
      | some m => if v.next.isNone && (ownEntry s m).isNone && (v.sentDrain || m.epoch == 0) && !isRouting h then modVols s (fun x => { x with vols := Tbl.del x.vols h }) else s
      | none => s
  | none => s

/-- Grace for the previous epoch ends: its map is dropped (10 R288). -/
def endGrace (s : State) (h : Nat) : State :=
  match Tbl.find s.vols.vols h with
  | some v => match v.prev with
    | some m => settleVol (setVol s h { v with prev := none, drained := v.drained.filter (fun d => d / 16384 != m.epoch) }) h
    | none => s
  | none => s

/-- Grace ends when DRAIN is held from every other member of the previous epoch (10 R288). -/
def tryEndGrace (s : State) (h : Nat) : State :=
  match Tbl.find s.vols.vols h with
  | some v => match v.prev with
    | some m => if (m.members.filter (fun e => e.device != s.fab.deviceId)).all (fun e => v.drained.contains (m.epoch * 16384 + e.device)) then endGrace s h else s
    | none => s
  | none => s

/-- The map prepared or committed becomes current, and the old epoch enters grace; the routing map's switch makes the standby bank
active (10 R285, R286, 11 R319). -/
def switchVol (s : State) (h : Nat) : State :=
  match Tbl.find s.vols.vols h with
  | some v => match v.next with
    | some m =>
      let s := setVol s h { v with cur := some m, prev := v.cur, next := none, st := .steady, switchedAt := s.now, sentDrain := false }
      let s := if isRouting h then fabEvent (s.modFab (fun f => { f with bank := 1 - f.bank, standby := none })) 19 0 else s
      settleVol (tryEndGrace (trySendDrain s h) h) h
    | none => s
  | none => s

/-- The map that a request's epoch is checked against; none where it is refused with STALE_EPOCH. A part that is PREPARED for it, or
has the COMMIT, switches at once (10 R287). -/
def epochMap (s : State) (h x : Nat) : State × Option VolMap :=
  match Tbl.find s.vols.vols h with
  | none => (s, none)
  | some v =>
    let c := (v.cur.map (·.epoch)).getD 65535
    let d := (c + 65536 - x) % 65536
    if d == 0 then (s, v.cur)
    else if d == 1 then (s, v.prev)
    else if d == 0xFFFF && v.st != .steady then
      let s := switchVol s h
      (s, (Tbl.find s.vols.vols h).bind (·.cur))
    else (s, none)

/-! Rounds (10 R282 to R286). -/

/-- Reasons of a NO vote (15 R436). -/
def voteEpoch : Nat := 0x11
def voteDigest : Nat := 0x12
def votePermission : Nat := 0x13
def voteResource : Nat := 0x14
def voteTableFull : Nat := 0x15
def voteGrace : Nat := 0x16

/-- Bytes of a round's map in order. -/
def roundBytes (r : Round) : List Byte := r.chunks.flatMap (·.2)

/-- The map of a round, once every byte that its header calls for has arrived. -/
def roundMap (h : Nat) (r : Round) : Option VolMap :=
  let contiguous := (r.chunks.zipIdx).all (fun c => c.1.1 == c.2)
  if contiguous then parseMap h (roundBytes r) else none

/-- The first check of R284 that applies: 0 is YES, none holds the vote. -/
def voteOf (s : State) (h : Nat) (r : Round) : Option Nat :=
  let v := Tbl.find s.vols.vols h
  let cur := v.bind (·.cur)
  let epochOk := match cur with
    | some m => r.epoch == (m.epoch + 1) % 65536
    | none => true
  if !epochOk || (r.epoch == 0 && cur.isSome && (cur.map (·.epoch)) != some 65535) then some voteEpoch
  else match r.prepare, r.map with
    | some (n, digest, _), some m =>
      let e := ownEntry s m
      if r.chunks.length != n || sha3Nat (roundBytes r) != digest || m.epoch != r.epoch then some voteDigest
      else if isRouting h && (match e with | some x => s.fab.standby != some x.digest | none => false) then some voteDigest
      else if !isRouting h && (match e with | some x => !entryHeld s x | none => false) then some votePermission
      else if !isRouting h && (match e with | some x => entryTaken s h x | none => false) then some voteResource
      else if s.vols.rounds.length > 16 || !isRouting h && (match e with | some x => !volumeRoom s h x | none => false) then some voteTableFull
      else if (v.bind (·.prev)).isSome then none
      else some 0
    | _, _ => some voteDigest

/-- A committed round on this part: SWITCHING until SWITCH_AT, or a switch on receipt of a late COMMIT (10 R285, R286). -/
def commitHere (s : State) (h switchAt : Nat) (m : VolMap) (cmd : Option (Nat × Nat)) : State :=
  let v := (Tbl.find s.vols.vols h).getD {}
  let s := setVol s h { v with st := .switching, next := some m, switchAt, cmd }
  if s.now > switchAt then switchVol s h else s

/-- An aborted round on this part: its reservations are freed (10 R285). -/
def abortHere (s : State) (h : Nat) : State :=
  match Tbl.find s.vols.vols h with
  | some v => if v.st != .prepared then s
    else if v.cur.isNone then modVols s (fun x => { x with vols := Tbl.del x.vols h })
    else setVol s h { v with st := .steady, next := none }
  | none => s

/-- The coordinator ends a round without a COMMIT: ABORT goes out, and the command answers (10 R281, R286). -/
def abortRound (s : State) (h status detail no : Nat) : State :=
  match Tbl.find s.vols.rounds h with
  | none => s
  | some r =>
    let s := relayConc s h r (Conc.body 5 r.epoch h (bytesLE 4 status))
    let s := abortHere (delRound s h) h
    match r.cmd with
    | some (f, i) => mbFinish s f i status detail [h, no]
    | none => s

/-- The coordinator's COMMIT: SWITCH_AT lies SWITCH_LEAD after its Datestamp at sending (10 R286). -/
def commitRound (s : State) (h : Nat) : State :=
  match Tbl.find s.vols.rounds h with
  | none => s
  | some r => match r.map with
    | none => s
    | some m =>
      let at_ := s.now + m.lead * us
      let s := relayConc s h r (Conc.body 4 r.epoch h (bytesLE 8 0 ++ bytesLE 8 at_))
      commitHere (delRound s h) h at_ m r.cmd

/-- A subtree's vote: sent to the parent, or at the root acted on, once it is whole (10 R283, R286). -/
def settleVotes (s : State) (h : Nat) : State :=
  match Tbl.find s.vols.rounds h with
  | none => s
  | some r =>
    let tree := roundTree s h r
    let kids := treeChildren tree s.fab.deviceId
    match r.own with
    | none => s
    | some own =>
      if r.voted || !kids.all (fun d => r.votes.any (fun v => v.1 == d)) then s
      else
        let bad := (if own != 0 then [(s.fab.deviceId, own)] else []) ++ (r.votes.filter (fun v => v.2.1 != 0)).map (fun v => (v.2.2, v.2.1))
        let low := bad.foldl (fun (a : Option (Nat × Nat)) b => match a with | some x => if b.1 < x.1 then some b else some x | none => some b) none
        let s := setRound s h { r with voted := true }
        match treeParent tree s.fab.deviceId with
        | some d =>
          let (no, reason) := low.getD (0, 0)
          sendConc s d (Conc.body 3 r.epoch h (bytesLE 2 reason ++ bytesLE 2 0 ++ bytesLE 4 no))
        | none => match low with
          | some (no, reason) => abortRound s h Status.aborted.code reason no
          | none => commitRound s h

/-- A member's own vote, taken when PREPARE and every chunk are there; YES makes it PREPARED (10 R284, R285). -/
def castVote (s : State) (h : Nat) : State :=
  match Tbl.find s.vols.rounds h with
  | none => s
  | some r =>
    if r.own.isSome || r.prepare.isNone then s
    else
      let r := { r with map := (roundMap h r).orElse (fun _ => r.map) }
      let s := setRound s h r
      match voteOf s h r with
      | none => s
      | some own =>
        let s := setRound s h { r with own := some own }
        let s := if own == 0 then setVol s h { (Tbl.find s.vols.vols h).getD {} with st := .prepared, next := r.map } else s
        settleVotes s h

/-- The chunks and the PREPARE of a round forwarded once its tree is known (10 R283; assumption 44). -/
def relayRound (s : State) (h : Nat) : State :=
  match Tbl.find s.vols.rounds h with
  | none => s
  | some r => match r.prepare with
    | some (n, digest, dl) =>
      let r := { r with map := (roundMap h r).orElse (fun _ => r.map) }
      if r.relayed || r.map.isNone then setRound s h r
      else
        let s := setRound s h { r with relayed := true }
        let s := r.chunks.foldl (fun s c => relayConc s h r (Conc.body 1 r.epoch h (bytesLE 4 c.1 ++ bytesLE 4 r.root ++ bytesLE 16 c.2.length ++ c.2))) s
        relayConc s h r (Conc.body 2 r.epoch h (bytesLE 4 n ++ bytesLE 4 r.root ++ bytesLE 8 dl ++ bytesLE 8 0 ++ bytesLE 64 digest.toNat))
    | none => s

/-- A round opened by a command on this part (10 R281). -/
def openRound (s : State) (h : Nat) (m : VolMap) (prepareUs : Nat) (cmd : Nat × Nat) : State :=
  let bs := mapBytes m
  let cs := ((chunks chunkBytes bs).zipIdx).map (fun c => (c.2, c.1))
  let dl := s.now + prepareUs * us
  let r : Round := { epoch := m.epoch, chunks := cs, prepare := some (cs.length, sha3Nat bs, dl), map := some m, cmd := some cmd, root := s.fab.deviceId }
  castVote (relayRound (setRound s h r) h) h

/-! The message rows (10 R282 to R290). -/

/-- MAP_CHUNK: kept for its round, which it may open (10 R282, R283). -/
def execMapChunk (s : State) : Out :=
  match takeConc s 1 with
  | none => .next s
  | some (_, p, s) =>
    let h := Conc.handle p
    let r := (Tbl.find s.vols.rounds h).getD { epoch := Conc.epoch p, root := Conc.at_ p 12 4 }
    if r.epoch != Conc.epoch p then .next (concDrop s)
    else
      let data := (p.payload.drop 32).take (Conc.at_ p 16 16)
      .next (castVote (relayRound (setRound s h { r with chunks := Tbl.put r.chunks (Conc.at_ p 8 4) data }) h) h)

/-- PREPARE: checked and voted on (10 R284). -/
def execPrepare (s : State) : Out :=
  match takeConc s 2 with
  | none => .next s
  | some (_, p, s) =>
    let h := Conc.handle p
    let r := (Tbl.find s.vols.rounds h).getD { epoch := Conc.epoch p, root := Conc.at_ p 12 4 }
    if r.epoch != Conc.epoch p || r.prepare.isSome then .next (concDrop s)
    else
      let r := { r with prepare := some (Conc.at_ p 8 4, BitVec.ofNat 512 (Conc.at_ p 32 64), Conc.at_ p 16 8) }
      .next (castVote (relayRound (setRound s h r) h) h)

/-- VOTE: one stamped at or before PREPARE_DEADLINE counts (10 R283, R286, 12 R344). -/
def execVote (s : State) : Out :=
  match takeConc s 3 with
  | none => .next s
  | some (t, p, s) =>
    let h := Conc.handle p
    match Tbl.find s.vols.rounds h with
    | none => .next (concDrop s)
    | some r =>
      let dl := (r.prepare.map (·.2.2)).getD 0
      if r.epoch != Conc.epoch p || t > dl then .next s
      else .next (settleVotes (setRound s h { r with votes := r.votes ++ [(Pk.src p.hdr, Conc.at_ p 8 2, Conc.at_ p 12 4)] }) h)

/-- COMMIT: relayed, and this part goes to SWITCHING (10 R285, R286). -/
def execCommit (s : State) : Out :=
  match takeConc s 4 with
  | none => .next s
  | some (_, p, s) =>
    let h := Conc.handle p
    match Tbl.find s.vols.vols h with
    | none => .next (concDrop s)
    | some v => match v.st, v.next with
      | .prepared, some m =>
        if m.epoch != Conc.epoch p then .next s
        else
          let s := match Tbl.find s.vols.rounds h with
            | some r => delRound (relayConc s h r p.payload) h
            | none => s
          .next (commitHere s h (Conc.at_ p 16 8) m none)
      | _, _ => .next s

/-- ABORT: relayed, and the reservations are freed (10 R285). -/
def execConcAbort (s : State) : Out :=
  match takeConc s 5 with
  | none => .next s
  | some (_, p, s) =>
    let h := Conc.handle p
    match Tbl.find s.vols.rounds h with
    | none => .next (if Tbl.has s.vols.vols h then s else concDrop s)
    | some r =>
      if r.epoch != Conc.epoch p then .next s
      else .next (abortHere (delRound (relayConc s h r p.payload) h) h)

/-- DRAIN: kept for its epoch; grace may end (10 R288). -/
def execDrain (s : State) : Out :=
  match takeConc s 6 with
  | none => .next s
  | some (_, p, s) =>
    let h := Conc.handle p
    match Tbl.find s.vols.vols h with
    | none => .next (concDrop s)
    | some v =>
      let s := setVol s h { v with drained := NSet.ins v.drained (Conc.epoch p * 16384 + Pk.src p.hdr) }
      .next (castVote (tryEndGrace (trySendDrain s h) h) h)

/-- A member's state as a code. -/
def volStateCode : VolState → Nat
  | .steady => 0 | .prepared => 1 | .switching => 2

/-- QUERY: answered with STATE (10 R282, R290). -/
def execQuery (s : State) : Out :=
  match takeConc s 7 with
  | none => .next s
  | some (_, p, s) =>
    let h := Conc.handle p
    match Tbl.find s.vols.vols h with
    | none => .next (concDrop s)
    | some v => .next (sendConc s (Pk.src p.hdr) (Conc.body 8 ((v.cur.map (·.epoch)).getD 65535) h
        (bytesLE 2 (volStateCode v.st) ++ bytesLE 2 ((v.next.map (·.epoch)).getD 65535))))

/-- STATE: kept for the new coordinator's decision (10 R290). -/
def execState (s : State) : Out :=
  match takeConc s 8 with
  | none => .next s
  | some (_, p, s) =>
    let h := Conc.handle p
    match Tbl.find s.vols.rounds h with
    | none => .next (if Tbl.has s.vols.vols h then s else concDrop s)
    | some r => match r.recover with
      | some got => .next (setRound s h { r with recover := some (got ++ [(Pk.src p.hdr, Conc.epoch p, Conc.at_ p 8 2)]) })
      | none => .next s

/-- PREPARE_DEADLINE: a vote held for grace becomes NO; at the root, votes that are missing end the round with TIMEOUT (10 R284, R286, R291). -/
def execPrepareDeadline (handle : Word) (s : State) : Out :=
  let h := handle.toNat
  match Tbl.find s.vols.rounds h with
  | none => .next s
  | some r => match r.prepare with
    | none => .next s
    | some (_, _, dl) =>
      let s := reach s (dl + 1)
      let s := if r.own.isNone then settleVotes (setRound s h { r with own := some (if r.map.isNone then voteDigest else voteGrace) }) h else s
      match Tbl.find s.vols.rounds h with
      | some r => if r.cmd.isSome && r.recover.isNone then .next (abortRound s h Status.timeout.code 0 0) else .next s
      | none => .next s

/-- SWITCH_AT: Datestamp reaches the instant of the switch (10 R286). -/
def execSwitchAt (handle : Word) (s : State) : Out :=
  match Tbl.find s.vols.vols handle.toNat with
  | some v => if v.st == .switching then .next (switchVol (reach s v.switchAt) handle.toNat) else .next s
  | none => .next s

/-- GRACE_LIMIT: the limit has passed since the switch; a vote that waited for it is cast (10 R288). -/
def execGraceLimit (handle : Word) (s : State) : Out :=
  let h := handle.toNat
  match Tbl.find s.vols.vols h with
  | some v => match v.prev with
    | some m => .next (castVote (endGrace (reach s (v.switchedAt + m.grace * ms)) h) h)
    | none => .next s
  | none => .next s

/-- RECOVER_STATE_WAIT: the new coordinator decides: COMMIT where any member has seen one, else ABORT (10 R290). -/
def execRecoverStateWait (handle : Word) (s : State) : Out :=
  let h := handle.toNat
  match Tbl.find s.vols.rounds h, Tbl.find s.vols.vols h with
  | some r, some v => match r.recover with
    | none => .next s
    | some got =>
      let s := reach s (r.recoverBy)
      let mine := (s.fab.deviceId, (v.cur.map (·.epoch)).getD 65535, volStateCode v.st)
      let seen := (mine :: got).any (fun g => g.2.2 == 2 || (g.2.2 == 0 && g.2.1 == r.epoch))
      let all := (treeOf v.cur (v.next.orElse (fun _ => r.map)) s.fab.deviceId).drop 1
      let s := delRound s h
      if seen then
        let at_ := s.now + ((v.next.orElse (fun _ => v.cur)).map (·.lead)).getD 50 * us
        let s := all.foldl (fun s d => sendConc s d (Conc.body 4 r.epoch h (bytesLE 8 0 ++ bytesLE 8 at_))) s
        let s := match v.st, v.next with
          | .prepared, some m => commitHere s h at_ m none
          | _, _ => s
        match r.cmd with
        | some (f, i) => .next (mbFinish s f i 0 0 [h])
        | none => .next s
      else
        let s := all.foldl (fun s d => sendConc s d (Conc.body 5 r.epoch h (bytesLE 4 Status.stateLost.code))) s
        let s := abortHere s h
        match r.cmd with
        | some (f, i) => .next (mbFinish s f i Status.stateLost.code 0 [h, 0])
        | none => .next s
  | _, _ => .next s

/-! The commands (10 R281, 15 R435). -/

/-- PREPARE_US: 0 stands for 1,000 (15 R435). -/
def prepareUs (n : Nat) : Nat := if n == 0 then 1000 else n
def prepareUsOk (n : Nat) : Bool := n == 0 || (decide (100 ≤ n) && decide (n ≤ 100000))

/-- Whether a partition's function may name a map: one member, this part, wholly within its own partition (10 R281). -/
def mapWithin (s : State) (f : Nat) (m : VolMap) : Bool :=
  f == 0 || match m.members with
    | [e] => e.device == s.fab.deviceId && e.parts == 2 ^ (f - 1) && entryHeld s e
    | [] => true
    | _ => false

/-- Whether a partition's function may name a Volume. -/
def volWithin (s : State) (f h : Nat) : Bool :=
  f == 0 || match (Tbl.find s.vols.vols h).bind (·.cur) with
    | some m => mapWithin s f m && !m.members.isEmpty
    | none => true

/-- Whether a partition's tenant holds a Volume on this part (01 R18, 10 R279). -/
def tenantHolds (s : State) (p h : Nat) : Bool :=
  match ((Tbl.find s.vols.vols h).bind (·.cur)).bind (ownEntry s) with
  | some e => bitsAt e.parts p 1 == 1 && !isRouting h
  | none => false

/-- What this part's own entry of a new map refuses before a round opens: status and DETAIL (10 R281). -/
def mapRefused (s : State) (h : Nat) (m : VolMap) : Option (Status × Nat) :=
  if isRouting h then none
  else match ownEntry s m with
    | none => none
    | some e =>
      if !entryHeld s e then some (.permission, votePermission)
      else if entryTaken s h e then some (.aborted, voteResource)
      else if !volumeRoom s h e then some (.resourceExhausted, voteTableFull)
      else none

/-- VOL_CREATE: a Volume from a map at epoch 0, by a round (10 R277, R281). -/
def execVolCreate (slot : MbSlot) (map : List Byte) (s : State) : Out :=
  let f := slot.fn.val
  let h := s.fab.deviceId * 2 ^ 18 + s.vols.nextIndex
  .next (mbCommand s slot 0x50 (fun _ => true)
    (fun s c => { fields := [(0x10, 0, 64), (0x18, 0, 24), (0x20, 0, 17)], range := prepareUsOk (c.f 0x20 0 17) && c.f 0x18 0 24 == map.length
                  permitted := match parseMap h map with | some m => mapWithin s f m | none => true })
    (fun s c => match parseMap h map with
      | none => mbFail s .aborted
      | some m =>
        if m.members.isEmpty || !mapShape m then mbFail s .aborted
        else match mapRefused s h m with
          | some (st, d) => mbFail s st d
          | none =>
            let s := modVols s (fun v => { v with nextIndex := if v.nextIndex + 1 ≥ 2 ^ 18 then 1 else v.nextIndex + 1 })
            .going (openRound s h { m with handle := h, epoch := 0 } (prepareUs (c.f 0x20 0 17)) (f, c.index)) h))

/-- The state in which a command has started, so that a round that resolves at once can answer it. -/
def roundCommand (s : State) (slot : MbSlot) (opcode : Nat) (checks : State → MbCmd → MbChecks) (body : State → MbCmd → MbRes) : State :=
  mbCommand s slot opcode (fun _ => true) checks body

/-- VOL_MODIFY: a round that replaces the map by a new one at epoch + 1; one that names the routing map's handle may create it (10 R277, R281). -/
def execVolModify (slot : MbSlot) (map : List Byte) (s : State) : Out :=
  let f := slot.fn.val
  .next (roundCommand s slot 0x51
    (fun s c =>
      let h := c.f 0x10 0 32
      let known := Tbl.find s.vols.vols h
      { fields := [(0x10, 0, 32), (0x18, 0, 64), (0x20, 0, 24), (0x28, 0, 17)], range := prepareUsOk (c.f 0x28 0 17) && c.f 0x20 0 24 == map.length
        permitted := volWithin s f h && (match parseMap h map with | some m => mapWithin s f m | none => true) && (!isRouting h || (f == 0 && h / 2 ^ 18 == s.fab.deviceId))
          && (match known.bind (·.cur) with | some m => m.coord == s.fab.deviceId | none => true)
        handles := known.isSome || isRouting h })
    (fun s c =>
      let h := c.f 0x10 0 32
      match parseMap h map with
      | none => mbFail s .aborted
      | some m =>
        if Tbl.has s.vols.rounds h || m.members.isEmpty || (!isRouting h && !mapShape m) then mbFail s .aborted
        else match mapRefused s h m with
          | some (st, d) => mbFail s st d
          | none =>
            let e := match (Tbl.find s.vols.vols h).bind (·.cur) with
              | some x => (x.epoch + 1) % 65536
              | none => 0
            .going (openRound s h { m with handle := h, epoch := e } (prepareUs (c.f 0x28 0 17)) (f, c.index)) h))

/-- VOL_DESTROY: a round to a map with no members, and then the handle is free (10 R281). -/
def execVolDestroy (slot : MbSlot) (s : State) : Out :=
  let f := slot.fn.val
  .next (roundCommand s slot 0x52
    (fun s c =>
      let h := c.f 0x10 0 32
      { fields := [(0x10, 0, 32), (0x20, 0, 64)], range := prepareUsOk (c.f 0x20 0 64), permitted := volWithin s f h
        handles := (Tbl.find s.vols.vols h).isSome })
    (fun s c =>
      let h := c.f 0x10 0 32
      match (Tbl.find s.vols.vols h).bind (·.cur) with
      | none => mbFail s .aborted
      | some m =>
        if Tbl.has s.vols.rounds h then mbFail s .aborted
        else .going (openRound s h { m with epoch := (m.epoch + 1) % 65536, members := [] } (prepareUs (c.f 0x20 0 64)) (f, c.index)) h))

/-- VOL_RECOVER: this part becomes coordinator and asks every member for its state (10 R290). -/
def execVolRecover (slot : MbSlot) (s : State) : Out :=
  let f := slot.fn.val
  .next (roundCommand s slot 0x53
    (fun s c => { fields := [(0x10, 0, 32)], permitted := f == 0, handles := (Tbl.find s.vols.vols (c.f 0x10 0 32)).isSome })
    (fun s c =>
      let h := c.f 0x10 0 32
      match Tbl.find s.vols.vols h with
      | none => mbFail s .staleHandle 3
      | some v =>
        let old := Tbl.find s.vols.rounds h
        let e := match v.next, v.cur with
          | some m, _ => m.epoch
          | none, some m => (m.epoch + 1) % 65536
          | none, none => 0
        let all := (treeOf v.cur (v.next.orElse (fun _ => old.bind (·.map))) s.fab.deviceId).drop 1
        let r : Round := { (old.getD { epoch := e }) with recover := some [], recoverBy := s.now + ms, cmd := some (f, c.index), root := s.fab.deviceId }
        let s := setRound s h r
        .going (all.foldl (fun s d => sendConc s d (Conc.body 7 0 h [])) s) h))

end Sys2Proof.Machine
end

