-- ==== Sys2Proof/Machine/Inbound.lean ====
section
/-! DEFINITION. Arriving packets: the checks of requests, windows, the access at the home, responses, and what goes to the Registrar (11_fabric.md R322 to R324, 09_translation.md R266, R267). -/

namespace Sys2Proof.Machine

/-- A response to a request: DST and SRC swapped, VOLUME, EPOCH, TAG and DEADLINE copied (11 R314). -/
def respond (s : State) (p : Packet) (ptype status : Nat) (payload : List Byte) : State :=
  let h := p.hdr
  injectPacket s { hdr := Pk.make (Pk.src h) (Pk.dst h) ptype (Pk.volume h) (Pk.epoch h) (Pk.tag h) payload.length status (Pk.addr h) (Pk.deadline h), payload }

/-- The kinds of request: RD, WR and ATOMIC. -/
inductive ReqKind where
  | rd | wr | atomic
  deriving DecidableEq, Repr

def ReqKind.ptype : ReqKind → Nat
  | .rd => 0 | .wr => 2 | .atomic => 4

/-- The access of R259 that a kind makes. -/
def ReqKind.access : ReqKind → Nat
  | .rd => 0 | .wr => 1 | .atomic => 3

/-- Opcode, operand bytes, operand and compare value of an ATOMIC's payload (11 R315, R324, 16 R452). -/
def atomicOp (p : Packet) : Nat × Nat × Nat × Nat :=
  let w := fun (i : Nat) => natLE ((p.payload.drop (8 * i)).take 8)
  (w 0 % 16, if bitsAt (w 0) 8 1 == 1 then 8 else 4, w 1, w 2)

/-- Whether LEN, the payload and ADDR are legal for a request (11 R315, R322 step 2). -/
def requestOk (k : ReqKind) (p : Packet) : Bool :=
  let n := Pk.len p.hdr
  Pk.ptype p.hdr == k.ptype && Pk.reservedClear p.hdr && Pk.status p.hdr == 0 && Pk.cls p.hdr == 0 && match k with
  | .rd => decide (4 ≤ n) && decide (n ≤ 512) && n % 4 == 0 && p.payload.isEmpty && Pk.addr p.hdr % 4 == 0
  | .wr => decide (4 ≤ n) && decide (n ≤ 512) && p.payload.length == n && Pk.addr p.hdr % 4 == 0
      && (n % 64 == 0 || (decide (8 < n) && decide (n ≤ 72)))
  | .atomic =>
    let w := natLE (p.payload.take 8)
    let cas := w % 16 == 9
    decide (w % 16 ≤ 9) && w % 16 + put (w / 256) 8 1 == w && n == (if cas then 24 else 16) && p.payload.length == n && Pk.addr p.hdr % 8 == 0

/-- The bytes that a WR writes: runs of consecutive bytes by offset (11 R315). -/
def wrRuns (p : Packet) : List (Nat × List Byte) :=
  if Pk.len p.hdr % 64 == 0 then [(0, p.payload)]
  else
    let m := natLE (p.payload.take 8)
    let d := p.payload.drop 8
    (d.zipIdx).foldl (fun (acc : List (Nat × List Byte)) b =>
      if bitsAt m b.2 1 == 0 then acc
      else match acc.getLast? with
        | some (o, bs) => if o + bs.length == b.2 then acc.dropLast ++ [(o, bs ++ [b.1])] else acc ++ [(b.2, [b.1])]
        | none => [(b.2, [b.1])]) []

/-- The bytes of the window that a request spans, for check 4 of R267. -/
def reqSpan (k : ReqKind) (p : Packet) : Nat :=
  match k with
  | .rd => Pk.len p.hdr
  | .wr => if Pk.len p.hdr % 64 == 0 then Pk.len p.hdr else Pk.len p.hdr - 8
  | .atomic => (atomicOp p).2.1

/-- A request refused under R267: WINDOW_FAULT, reported to the window's partition (09 R267, R272). -/
def windowFault (s : State) (part : Option Nat) : State :=
  match part with
  | some p => catEvent s 23 p (some (2, 2 ^ p))
  | none => catEvent s 23 0 (some (2, 0))

/-- The access at the home, as master 32 + g, with the window's partition (11 R322, 06 R157, 08 R233, R237, 09 R268): status and data. -/
def inboundAccess (s : State) (k : ReqKind) (q : Nat) (w key : Nat) (part : Nat) (es : List CatEntry) (p : Packet) : Got (Nat × List Byte) :=
  let g := portGroup q
  let v : View := { rq := fun _ => { master := 32 + g, part }, key, ents := es }
  match k with
  | .rd => match vRead s v [(w, Pk.len p.hdr)] with
    | .ok s bs => if tainted bs then .ok s (Status.parityUnrecovered.code, []) else .ok s (0, bytesOf bs)
    | .wait s => .wait s
    | .bad s _ => .ok s (Status.permission.code, [])
  | .wr =>
    let rs := wrRuns p
    match vWrite s v (rs.map (fun r => (w + r.1, r.2.length))) (clean (rs.flatMap (·.2))) with
    | .ok s _ => .ok s (0, [])
    | .wait s => .wait s
    | .bad s _ => .ok s (Status.permission.code, [])
  | .atomic =>
    let (op, n, a, c) := atomicOp p
    match vPrepare s v true [(w, n)] with
    | .ok s ((d, _, attr) :: _) =>
      let s := chargeGranules (vDirty s v w n) (stackOf d) { master := 32 + g, part } 1
      let (s, old, bad) := farPerform s part attr d op n a c
      if bad then .ok s (Status.parityUnrecovered.code, []) else .ok s (0, bytesLE 8 old)
    | .ok s [] => .ok s (Status.permission.code, [])
    | .wait s => .wait s
    | .bad s _ => .ok s (Status.permission.code, [])

/-- The window checks of R267 and the access: status and data. -/
def windowRequest (s : State) (k : ReqKind) (q : Nat) (m : VolMap) (p : Packet) : Got (Nat × List Byte) :=
  let win := Pk.window p.hdr
  let off := Pk.offset p.hdr
  let key := 2 ^ 20 + win
  match Tbl.find s.cat.windows win with
  | none => .ok (windowFault s none) (Status.permission.code, [])
  | some e =>
    let bad := fun (s : State) (st : Nat) => Got.ok (windowFault s (some e.part)) (st, ([] : List Byte))
    if (s.part e.part).resetting then .ok s (Status.isolated.code, [])
    else if e.volume != Pk.volume p.hdr || !memberOf m (Pk.src p.hdr) then bad s Status.denied.code
    else if !(match k with | .rd => e.r | .wr => e.w | .atomic => e.atomic) then bad s Status.permission.code
    else if off + reqSpan k p > e.limit then bad s Status.permission.code
    else
      let n := max (reqSpan k p) 1
      match walkPages s key e.root k.access (pagePieces off n) with
      | .wait s => .wait s
      | .fail s cause level va =>
        bad (postTranslation s key va cause level [{ req := 256 + portGroup q, access := k.access, va }]) (causeStatus cause)
      | .ok s es =>
        if es.any (fun x => leafSealed x.leaf) && !e.sealPeer then bad s Status.denied.code
        else inboundAccess s k q off key e.part es p

/-- A request that arrives: the first step of R322 that applies decides. -/
def inboundRequest (s : State) (k : ReqKind) (q : Nat) (p : Packet) : State :=
  let t := Pk.ptype p.hdr
  if !portUp s q then s
  else if Pk.dst p.hdr != s.fab.deviceId then forwardPacket s q p
  else if t != k.ptype && t ≤ 8 then s
  else if !requestOk k p then
    respond (fabEvent (s.modFab (fun f => { f with malformed := satInc f.malformed })) 18 2) p (k.ptype + 1) Status.aborted.code []
  else if s.now + max 1 (s.fab.margin.toNat % 65536) * us > Pk.deadline p.hdr then
    respond (fabEvent s 20 2) p (k.ptype + 1) Status.timeout.code []
  else if !Tbl.has s.vols.vols (Pk.volume p.hdr) then respond s p (k.ptype + 1) Status.denied.code []
  else
    let (s, m) := epochMap s (Pk.volume p.hdr) (Pk.epoch p.hdr)
    match m with
    | none => respond s p (k.ptype + 1) Status.staleEpoch.code []
    | some m => match windowRequest s k q m p with
      | .ok s (st, data) => respond s p (k.ptype + 1) st data
      | .wait s => s
      | .bad s _ => respond s p (k.ptype + 1) Status.permission.code []

/-- RD (11 R315, R322). -/
def execRd (port : FabricPort) (pkt : Packet) (s : State) : Out := .next (inboundRequest s .rd port pkt)
/-- WR (11 R315, R322). -/
def execWr (port : FabricPort) (pkt : Packet) (s : State) : Out := .next (inboundRequest s .wr port pkt)
/-- ATOMIC (11 R315, R322, R324). -/
def execAtomic (port : FabricPort) (pkt : Packet) (s : State) : Out := .next (inboundRequest s .atomic port pkt)

/-! Responses (11 R321, R323). -/

/-- The Bay whose reset closes it and that a request belongs to (03 R78). -/
def closingBay (s : State) (w : FabWho) : Option Nat :=
  let b := match w with | .mover b _ _ _ _ => some b | .core b _ => some b | .parked _ _ => none
  b.bind (fun b => if (s.bay b).resetAt.isSome then some b else none)

/-- A response that arrives: it completes its request where it is stamped at or before the deadline, ends it with TIMEOUT where it is
later, and is discarded where its tag has been released; a closing Bay's answers are discarded (11 R321, R323, 03 R78). -/
def response (s : State) (ptype q : Nat) (p : Packet) : State :=
  if !portUp s q then s
  else if Pk.dst p.hdr != s.fab.deviceId then forwardPacket s q p
  else if Pk.ptype p.hdr != ptype then s
  else match Tbl.find s.fab.tags (Pk.tag p.hdr) with
    | none => s
    | some r =>
      if Pk.ptype r.pkt.hdr + 1 != ptype || Pk.deadline r.pkt.hdr != Pk.deadline p.hdr || Pk.dst r.pkt.hdr != Pk.src p.hdr then s
      else
        let vol := Pk.volume r.pkt.hdr
        let t := Pk.tag p.hdr
        let s := chargeTile s (whoTile s r.who) { fabRx := pktSize p }
        let s := s.modFab (fun f => { f with tags := Tbl.del f.tags t })
        let s := match closingBay s r.who with
          | some b => if ptype == 1 then s else drainOne s b
          | none =>
            if s.now ≤ r.deadline then endRequest s t r (Pk.status p.hdr) false (if Pk.status p.hdr == 0 then p.payload else [])
            else endRequest s t r Status.timeout.code true []
        trySendDrain s vol

/-! CONC and MGMT (11 R322, 10 R282, 15 R439). -/

/-- Steps 1 to 3 of R322 for a packet that goes to the Registrar; none where it has been dealt with. -/
def forRegistrar (s : State) (ptype q : Nat) (p : Packet) : Except State Unit :=
  if !portUp s q then .error s
  else if Pk.dst p.hdr != s.fab.deviceId then .error (forwardPacket s q p)
  else if Pk.ptype p.hdr != ptype then .error s
  else if !Pk.reservedClear p.hdr || Pk.len p.hdr > 512 || Pk.len p.hdr != p.payload.length then
    .error (fabEvent (s.modFab (fun f => { f with malformed := satInc f.malformed })) 18 2)
  else .ok ()

/-- CONC: a message of Concordance reaches the Registrar, which keeps its arrival stamp; one of a reserved code is discarded and counted
(10 R282, 11 R322). -/
def execConc (port : FabricPort) (pkt : Packet) (s : State) : Out :=
  match forRegistrar s 7 port pkt with
  | .error s => .next s
  | .ok _ =>
    let code := Conc.code pkt
    if code == 0 || code > 8 || pkt.payload.length < 8 then .next (concDrop s)
    else .next (s.modFab (fun f => { f with concIn := f.concIn ++ [(s.now, pkt)] }))

end Sys2Proof.Machine
end

