-- ==== Sys2Proof/Machine/Shelvers.lean ====
section
/-! DEFINITION. The Shelvers: doorbells, admission, the fifteen operations, chunks, publication, completion, and what interrupts them (07_shelvers.md R182 to R222). -/

namespace Sys2Proof.Machine

/-! A command's fields (07 R187). -/
namespace ShCmd
def opcode (w : BitVec 1024) : Nat := fld w 0 0 8
def phys (w : BitVec 1024) : Bool := flag w 0 8
def notify (w : BitVec 1024) : Bool := flag w 0 9
def sat (w : BitVec 1024) : Bool := flag w 0 10
def trapAo (w : BitVec 1024) : Bool := flag w 0 11
def rnd (w : BitVec 1024) : Nat := fld w 0 12 3
def fmt (w : BitVec 1024) : Nat := fld w 0 16 5
def fmtOut (w : BitVec 1024) : Nat := fld w 0 21 5
def terms (w : BitVec 1024) : Nat := fld w 0 26 5
def call (w : BitVec 1024) : Nat := fld w 0 32 16
def tag (w : BitVec 1024) : Nat := fld w 0 48 16
def src (w : BitVec 1024) : Nat := fld w 0x08 0 57
def dst (w : BitVec 1024) : Nat := fld w 0x10 0 57
def count (w : BitVec 1024) : Nat := fld w 0x18 0 40
def elem (w : BitVec 1024) : Nat := 2 ^ fld w 0x18 40 3
def subop (w : BitVec 1024) : Nat := fld w 0x18 44 4
def aux (w : BitVec 1024) : Nat := fld w 0x20 0 57
def imm (w : BitVec 1024) : Nat := fld w 0x28 0 64
def srcStride (w : BitVec 1024) : Int := sext (fld w 0x30 0 48) 48
def dstStride (w : BitVec 1024) : Int := sext (fld w 0x38 0 48) 48
def rows (w : BitVec 1024) : Nat := fld w 0x40 0 24
def cols (w : BitVec 1024) : Nat := fld w 0x40 24 24
def anchor (w : BitVec 1024) : Int := sext (fld w 0x48 0 13) 13
def anchorMode (w : BitVec 1024) : Nat := fld w 0x48 13 2
def stream (w : BitVec 1024) : Nat := fld w 0x48 16 16
def ctxSlot (w : BitVec 1024) : Nat := fld w 0x48 32 6
def notifyTo (w : BitVec 1024) : Nat × Nat := (fld w 0x48 40 6, fld w 0x48 46 4)
def pubAddr (w : BitVec 1024) : Nat := fld w 0x50 0 57
def pubOp (w : BitVec 1024) : Nat := fld w 0x50 60 2
def pubValue (w : BitVec 1024) : Nat := fld w 0x58 0 64
def pubExpect (w : BitVec 1024) : Nat := fld w 0x60 0 64
def origin (w : BitVec 1024) : Nat := fld w 0x68 0 48
def keySlot (w : BitVec 1024) : Nat := fld w 0x70 0 16
def cmpNew (w : BitVec 1024) : Nat := fld w 0x70 16 16
def cmpSrc (w : BitVec 1024) : Nat := fld w 0x70 32 16

/-- Whether every unnamed bit is zero (07 R187). -/
def reservedClear (w : BitVec 1024) : Bool :=
  [(0x00, 15, 1), (0x00, 31, 1), (0x08, 57, 7), (0x10, 57, 7), (0x18, 43, 1), (0x18, 48, 16), (0x20, 57, 7), (0x30, 48, 16), (0x38, 48, 16),
   (0x40, 48, 16), (0x48, 15, 1), (0x48, 38, 2), (0x48, 50, 14), (0x50, 57, 3), (0x50, 62, 2), (0x68, 48, 16), (0x70, 48, 16), (0x78, 0, 64)].all
    (fun f => fld w f.1 f.2.1 f.2.2 == 0)
end ShCmd

/-! Queues (07 R185, R191). -/

def Shelver.queue (x : Shelver) (q : Nat) : ShQueue := Tbl.getD x.queues q {}
def Shelver.enabled (x : Shelver) (q : Nat) : Bool := bitsAt x.ctrl.toNat q 1 == 1
def Shelver.halted (x : Shelver) : Bool := bitsAt x.ctrl.toNat 16 1 == 1

/-- Whether a queue has work to move: it is enabled and not empty, its command has chunks left or has not started, and is not held. -/
def Shelver.canMove (x : Shelver) (q : Nat) : Bool :=
  x.enabled q && (x.queue q).wr != (x.queue q).rd && !Tbl.has x.heldOn q
    && (match Tbl.find x.runs q with | some r => r.chunks != 0 | none => true)

/-- The queue whose chunk is next: queue 8 first, then round robin; none while halted, in reset or fenced (07 R191, R221, 18 R507). -/
def Shelver.choose (x : Shelver) : Option Nat :=
  if x.halted || x.resetting || x.fenced then none
  else if x.canMove 8 then some 8
  else ((List.range 8).map (fun i => (x.last + 1 + i) % 8)).find? x.canMove

/-- ACTIVE after a chunk: the queue chosen, where its command has started (07 R222). -/
def Shelver.settle (x : Shelver) : Shelver :=
  { x with active := match x.choose with
      | some q => if Tbl.has x.runs q then q else 0xF
      | none => 0xF }

/-- DOORBELL: Q_WR advances, or BAD_DOORBELL (07 R185, R186). -/
def execDoorbell (sh : ShelverNo) (queue : Fin 16) (index : BitVec 16) (s : State) : Out :=
  let x := s.shelver sh
  let q := x.queue queue
  let d := (index.toNat + 65536 - q.rd) % 65536
  if queue.val > 8 || !x.enabled queue || d > q.size || d < (q.wr + 65536 - q.rd) % 65536 then
    .next (shEvent s sh 31 0 queue 2 0)
  else .next (s.modShelver sh (fun x => { x with queues := Tbl.put x.queues queue { q with wr := index.toNat } }))

/-! Addresses (07 R183, R189). -/

/-- What a command's addresses mean: its Shelver and queue, PHYS, its context, and the translations admission found. -/
structure ShCx where
  sh : Nat
  q : Nat
  phys : Bool
  key : Nat := 0
  ents : List CatEntry := []

/-- The requester of a line: own-stack accesses are not charged, others go to master 43; neither allocates (07 R183, R184). -/
def ShCx.rq (c : ShCx) (d : Nat) : Rq :=
  { master := if stackOf d == c.sh / 4 then 44 else 43, part := c.q % 8, bypass := c.q == 8, noAlloc := true }

/-- A Shelver's command's accesses. -/
def ShCx.view (c : ShCx) : View := { rq := c.rq, phys := c.phys, key := c.key, ents := c.ents }
def ShCx.pieces (c : ShCx) (va n : Nat) : List (Nat × Nat × Nat) := c.view.pieces va n
def shPrepare (s : State) (c : ShCx) (write : Bool) (rs : List (Nat × Nat)) : Got (List (Nat × Nat × Nat)) := vPrepare s c.view write rs
def shTake (s : State) (c : ShCx) (ds : List (Nat × Nat × Nat)) : State × Tainted := vTake s c.view ds
def shPut (s : State) (c : ShCx) (bs : Tainted) (ds : List (Nat × Nat × Nat)) : State := vPut s c.view bs ds
def shDirty (s : State) (c : ShCx) (va n : Nat) : State := vDirty s c.view va n
def shRead (s : State) (c : ShCx) (rs : List (Nat × Nat)) : Got Tainted := vRead s c.view rs
def shWrite (s : State) (c : ShCx) (rs : List (Nat × Nat)) (bs : Tainted) : Got (List (Nat × Nat × Nat)) := vWrite s c.view rs bs

/-! The shape of each operation (07 R189, R193 to R205, 17 R483). -/

/-- An access that a command's extent makes: access code, first address, bytes. -/
structure Extent where
  access : Nat
  lo : Nat
  n : Nat
  deriving DecidableEq, Repr

/-- The span of runs of `len` bytes, `k` of them at a stride, from its lowest to its highest byte. -/
def spanOf (base : Nat) (stride : Int) (k len : Nat) : Int × Int :=
  let last : Int := (base : Int) + ((k : Int) - 1) * stride
  (min (base : Int) last, max (base : Int) last + len)

/-- Spans overlap. -/
def spansMeet (a b : Int × Int) : Bool := decide (a.1 < b.2) && decide (b.1 < a.2)

/-- Bytes of `n` packed elements of a format. -/
def fmtBytes (f n : Nat) : Nat := match Fmt.ofCode f with | some x => (x.width * n + 7) / 8 | none => 0
def fmtIsMx (f : Nat) : Bool := match Fmt.ofCode f with | some x => x.isMx | none => false

/-- The spans of the source and the destination of the moving operations, of TRANSPOSE's rows and columns. -/
def ShCmd.srcSpan (w : BitVec 1024) : Int × Int :=
  if opcode w == 8 then spanOf (src w) (srcStride w) (rows w) (cols w * elem w) else spanOf (src w) (srcStride w) (max (rows w) 1) (count w)
def ShCmd.dstSpan (w : BitVec 1024) : Int × Int :=
  if opcode w == 8 then spanOf (dst w) (dstStride w) (cols w) (rows w * elem w) else spanOf (dst w) (dstStride w) (max (rows w) 1) (count w)

/-- An extent from a span. -/
def ofSpan (access : Nat) (sp : Int × Int) : Extent := { access, lo := sp.1.toNat, n := (sp.2 - sp.1).toNat }

/-- Whether a command has nothing to move (07 R193). -/
def ShCmd.empty (w : BitVec 1024) : Bool :=
  match opcode w with
  | 0x00 => true
  | 0x05 => count w == 0 || rows w == 0
  | 0x08 => rows w == 0
  | _ => count w == 0

/-- Bytes of an operand of ATOMIC. -/
def ShCmd.operand (w : BitVec 1024) : Nat := if subop w == 8 then fmtBytes (fmt w) 1 else elem w
/-- Bytes of a target of ATOMIC. -/
def ShCmd.target (w : BitVec 1024) : Nat := if subop w == 8 then 32 else elem w

/-- The extents of a command in the order SRC, DST, AUX, PUB_ADDR (07 R189). -/
def ShCmd.extents (w : BitVec 1024) : List Extent :=
  let pub : List Extent := if pubOp w == 0 then [] else [{ access := if pubOp w == 2 then 3 else 1, lo := pubAddr w, n := 8 }]
  if empty w then pub else
  (match opcode w with
    | 0x01 => [ofSpan 0 (srcSpan w), ofSpan 1 (dstSpan w)]
    | 0x02 => [⟨1, dst w, count w⟩]
    | 0x03 => [⟨0, src w, imm w * elem w⟩, ⟨1, dst w, count w * elem w⟩, ⟨0, aux w, 8 * count w⟩]
    | 0x04 => [⟨0, src w, count w * elem w⟩, ⟨1, dst w, imm w * elem w⟩, ⟨0, aux w, 8 * count w⟩]
    | 0x05 => [⟨0, src w, fmtBytes (fmt w) (count w)⟩, ⟨1, dst w, fmtBytes (fmtOut w) (rows w)⟩, ⟨0, aux w, 8 * (rows w + 1)⟩]
    | 0x06 => [⟨0, src w, count w * operand w⟩, ⟨3, dst w, imm w * target w⟩, ⟨0, aux w, 8 * count w⟩]
    | 0x07 => [⟨0, src w, fmtBytes (fmt w) (count w)⟩] ++ (if fmtIsMx (fmt w) then [⟨0, aux w, (count w + 31) / 32⟩] else [])
    | 0x08 => [ofSpan 0 (srcSpan w), ofSpan 1 (dstSpan w)]
    | 0x09 => [⟨0, src w, count w⟩, ⟨1, dst w, 64⟩]
    | 0x0A | 0x0B => [⟨0, src w, count w⟩]
    | 0x0D => [⟨0, src w, count w⟩, ⟨1, dst w, count w / 4128 * 4096⟩]
    | 0x0E => [⟨1, dst w, count w⟩]
    | _ => []) ++ pub

/-- Check 1 (07 R189): opcode, reserved fields, PUB_OP, and what queues 0 to 7 may use. -/
def ShCmd.check1 (w : BitVec 1024) (q : Nat) : Bool :=
  decide (opcode w ≤ 0x0E) && reservedClear w && pubOp w != 3
    && (q == 8 || (!phys w && opcode w != 0x0C && opcode w != 0x0E))
    && (opcode w != 0x0C || (cmpValid (cmpSrc w) && cmpValid (cmpNew w)))

/-- The legal combinations of REDUCE (07 R197). -/
def reduceLegal (w : BitVec 1024) : Bool :=
  let f := ShCmd.fmt w
  let o := ShCmd.fmtOut w
  let m := ShCmd.anchorMode w
  match ShCmd.subop w with
  | 0 =>
    if f == 0x1F then (o == 0x1F || decide (o ≤ 3)) && (m == 0 || m == 3)
    else if o == 0x1F then (decide (f ≤ 3) || f == 9 || f == 10) && (m == 0 || m == 1)
    else f == o && (decide (f ≤ 3) || f == 9 || f == 10)
  | 1 | 2 => f == o && (decide (f ≤ 3) || f == 9 || f == 10)
  | _ => false

/-- Check 2 (07 R189, 02 R40): TERMS_LOG2 of any command, and formats, rounding, variants and sizes that the operation allows. -/
def ShCmd.check2 (w : BitVec 1024) : Bool :=
  terms w != 31 && match opcode w with
  | 0x05 => reduceLegal w && (RMode.ofCode (rnd w)).isSome
  | 0x06 => if subop w ≤ 7 then elem w == 4 || elem w == 8
            else subop w == 8 && (decide (fmt w ≤ 3) || fmt w == 9 || fmt w == 10)
  | 0x07 => decide (fmt w ≤ 0x0A) || (decide (0x10 ≤ fmt w) && decide (fmt w ≤ 0x15))
  | 0x08 => decide (elem w ≤ 16)
  | _ => true

/-- Check 3 (07 R189): alignment, sizes and overlap; no extent passes the end of the address space. -/
def ShCmd.check3 (w : BitVec 1024) (sh : Nat) : Bool :=
  (pubOp w == 0 || pubAddr w % 8 == 0) && (extents w).all (fun e => decide (e.lo + e.n ≤ 2 ^ 57)) &&
  (match opcode w with
    | 0x01 => decide (0 ≤ (srcSpan w).1) && decide (0 ≤ (dstSpan w).1) && !spansMeet (srcSpan w) (dstSpan w)
    | 0x02 => dst w % 8 == 0 && count w % 8 == 0
    | 0x05 =>
      let al := fun (f : Nat) => if f == 0x1F then 32 else fmtBytes f 1
      src w % al (fmt w) == 0 && dst w % al (fmtOut w) == 0 && aux w % 8 == 0
    | 0x08 => cols w != 0 && decide (0 ≤ (srcSpan w).1) && decide (0 ≤ (dstSpan w).1) && !spansMeet (srcSpan w) (dstSpan w)
    | 0x09 => dst w % 64 == 0
    | 0x0A => src w % 64 == 0 && count w % 64 == 0
    | 0x0C =>
      let inShelf := fun (a : Nat) => decide (a < 2 ^ 40) && decide (a % 2 ^ 33 + count w ≤ shelfBytes)
      count w % pageBytes == 0 && src w % 4096 == 0 && dst w % 4096 == 0 && inShelf (src w) && inShelf (dst w) && stackOf (src w) == sh / 4
        && !spansMeet ((src w : Int), (src w + count w : Nat)) ((dst w : Int), (dst w + count w : Nat))
    | 0x0D => count w % 4128 == 0 && dst w % 4096 == 0
    | _ => true)

/-! Admission (07 R189, R190, R193). -/

/-- What admission comes to. -/
inductive Admit where
  | go (s : State) (c : ShCx)
  | fail (s : State) (status r0 : Nat)
  | wait (s : State)

/-- The context of a command: the one that holds CTX_SLOT, in the queue's partition (07 R189 check 4). -/
def shCtx (s : State) (q slot : Nat) : Option Nat :=
  (s.work.ctxs.find? (fun c => c.2.slot == some slot && (q == 8 || ctxPart c.1 == q))).map (·.1)

/-- Lookups of every page of a command's extents, in order (07 R189, 09 R262). -/
def shWaiters (sh q : Nat) (es : List Extent) : List Waiter :=
  es.flatMap (fun e => (pagePieces e.lo e.n).map (fun p => { req := 224 + sh, port := q, access := e.access, va := p.1 }))

/-- Check 4 of a physical command: the first address that lies in a hole, or that no stack decodes. -/
def physHole (es : List Extent) : Option Nat :=
  ((es.flatMap (fun e => (pagePieces e.lo e.n))).find? (fun p => decide (p.1 ≥ 2 ^ 40) || (direct? p.1).isNone || (direct? (p.1 + p.2 - 1)).isNone)).map (·.1)

/-- Check 6: a command of queues 0 to 7 that reads a sealed page and writes one that is not, or whose results leave by its record;
SEAL_INGEST reads no sealed page and writes sealed ones alone (07 R190, R204). -/
def shFlowOk (w : BitVec 1024) (c : ShCx) (es : List Extent) : Bool :=
  let sealed := fun (e : Extent) => (c.pieces e.lo e.n).any (fun p => attrSealed p.2.2)
  let plain := fun (e : Extent) => (c.pieces e.lo e.n).any (fun p => !attrSealed p.2.2)
  let reads := es.filter (fun e => e.access != 1)
  let writes := es.filter (fun e => e.access != 0)
  let flow := c.q == 8 || !(reads.any sealed && (writes.any plain || ShCmd.opcode w == 7))
  let ingest := ShCmd.opcode w != 0x0D ||
    (!(es.any (fun e => e.access == 0 && sealed e)) && !(es.any (fun e => e.access == 1 && e.lo == ShCmd.dst w && plain e)))
  flow && ingest

/-- Whether SEAL_INGEST's key slot holds a key of the partition (17 R473, R483). -/
def shKey (s : State) (w : BitVec 1024) (q : Nat) : Option KeySlot :=
  let n := 4096 / s.nparts
  let k := ShCmd.keySlot w
  if q != 8 && k / n != q then none else Tbl.find s.sec.keys k

/-- Checks 1 to 7 of R189, in order; a command with nothing to move makes those of R193. -/
def admission (s : State) (sh q : Nat) (w : BitVec 1024) : Admit :=
  let es := ShCmd.extents w
  if !ShCmd.check1 w q || !ShCmd.check2 w then .fail s Status.aborted.code 0
  else if !ShCmd.empty w && !ShCmd.check3 w sh then .fail s Status.aborted.code 0
  else
    let rest := fun (s : State) (c : ShCx) =>
      if ShCmd.empty w then .go s c
      else if ShCmd.opcode w == 0x0D && (shKey s w q).isNone then .fail s Status.permission.code 0
      else if !shFlowOk w c es then .fail s Status.denied.code 0
      else if (c.ents.map (fun e => (e.key, e.va))).eraseDups.length > 512 then .fail s Status.resourceExhausted.code 0
      else if ShCmd.opcode w == 0x0C && (s.shelver sh).mirror.isSome then .fail s Status.resourceExhausted.code 0
      else .go s c
    if ShCmd.phys w then
      match physHole es with
      | some a => .fail s Status.permission.code a
      | none => rest s { sh, q, phys := true }
    else match shCtx s q (ShCmd.ctxSlot w) with
      | none => .fail s Status.permission.code 0
      | some key =>
        match lookupAll s key (shWaiters sh q es) with
        | (s, none) => .wait s
        | (s, some ents) =>
          match ((shWaiters sh q es).zip ents).find? (fun p => leafRemote p.2.leaf) with
          | some p => .fail s Status.permission.code p.1.va
          | none => rest s { sh, q, phys := false, key, ents }

/-! The operations (07 R194 to R205). Each comes to the command's outcome with its data moved, or waits. -/

/-- What an operation comes to. -/
inductive ShRes where
  | did (s : State) (r : ShRun)
  | wait (s : State)

/-- A range refused by its controller ends the command (06 R157). -/
def shBad (s : State) (r : ShRun) (pa : Nat) : ShRes := .did s { r with status := Status.permission.code, r0 := pa, noPublish := true, chunks := 0 }

/-- Poison that a copying operation carried (07 R206). -/
def carried (r : ShRun) (bad : Bool) : ShRun := if bad then { r with status := Status.parityUnrecovered.code, noPublish := true } else r
/-- An operation that stops at once on poison (07 R206). -/
def stopped (r : ShRun) : ShRun := { r with status := Status.parityUnrecovered.code, noPublish := true }

/-- Source ranges read and destination ranges written with what was read. -/
def shMove (s : State) (c : ShCx) (r : ShRun) (srcs dsts : List (Nat × Nat)) : ShRes :=
  match shRead s c srcs with
  | .wait s => .wait s
  | .bad s a => shBad s r a
  | .ok s bs => match shWrite s c dsts bs with
    | .wait s => .wait s
    | .bad s a => shBad s r a
    | .ok s ds => .did s (carried { r with bytesRd := r.bytesRd + bs.length, bytesWr := r.bytesWr + bs.length, dst := r.dst ++ ds } (tainted bs))

/-- The addresses of runs at a stride. -/
def runsAt (base : Nat) (stride : Int) (k len : Nat) : List (Nat × Nat) :=
  (List.range k).map (fun (i : Nat) => (((base : Int) + (i : Int) * stride).toNat, len))

/-- COPY (07 R194). -/
def shCopy (s : State) (c : ShCx) (w : BitVec 1024) (r : ShRun) : ShRes :=
  let k := max (ShCmd.rows w) 1
  shMove s c r (runsAt (ShCmd.src w) (ShCmd.srcStride w) k (ShCmd.count w)) (runsAt (ShCmd.dst w) (ShCmd.dstStride w) k (ShCmd.count w))

/-- A block of a tagged page that a FILL of zero covers whole: its tag byte is zeroed and no granule is written (07 R195). -/
def zeroBlock (s : State) (d : Nat) : State :=
  let s := (List.range 32).foldl (fun s i => mscDrop s (d / 128 + i)) s
  mirrorBlock (rawPut s (tagAddr d) [0#8]) d

/-- FILL (07 R195). -/
def shFill (s : State) (c : ShCx) (w : BitVec 1024) (r : ShRun) : ShRes :=
  let n := ShCmd.count w
  let d0 := ShCmd.dst w
  match shPrepare s c true [(d0, n)] with
  | .wait s => .wait s
  | .bad s a => shBad s r a
  | .ok s ds =>
    let s := shDirty s c d0 n
    let zero := ShCmd.imm w == 0
    let pat := bytesLE 8 (ShCmd.imm w)
    let whole := fun (d : Nat × Nat × Nat) => zero && cmpTagged d.2.2
      && (ds.filter (fun e => e.1 / 4096 == d.1 / 4096)).foldl (fun a e => a + e.2.1) 0 == 4096
    let blocks := ((ds.filter whole).map (fun d => alignDown d.1 4096)).eraseDups
    let s := blocks.foldl zeroBlock s
    let rest := ds.filter (fun d => !whole d)
    let bytes := rest.foldl (fun a d => a + d.2.1) 0
    let s := shPut s c (clean (cycleTo pat bytes)) rest
    .did s { r with bytesWr := n, dst := ds }

/-- The indices of an index array, and its poison. -/
def shIndices (s : State) (c : ShCx) (w : BitVec 1024) : Got (List Nat × List Bool) :=
  match shRead s c [(ShCmd.aux w, 8 * ShCmd.count w)] with
  | .ok s bs => let ws := chunks 8 bs; .ok s (ws.map (fun x => natLE (bytesOf x)), ws.map tainted)
  | .wait s => .wait s
  | .bad s a => .bad s a

/-- The outcome where an index is out of bounds: elements before it are done (07 R196). -/
def boundCut (w : BitVec 1024) (idx : List Nat) : Nat := (idx.findIdx? (fun i => decide (i ≥ ShCmd.imm w))).getD idx.length

/-- The outcome of an index beyond the bound. -/
def outOfBound (r : ShRun) (i : Nat) : ShRun := { r with status := Status.permission.code, r0 := i, noPublish := true }

/-- GATHER and SCATTER (07 R196). A poisoned index names no element: the elements before it are done. -/
def shGather (scatter : Bool) (s : State) (c : ShCx) (w : BitVec 1024) (r : ShRun) : ShRes :=
  let e := ShCmd.elem w
  match shIndices s c w with
  | .wait s => .wait s
  | .bad s a => shBad s r a
  | .ok s (idx, bad) =>
    let cut := min (boundCut w idx) ((bad.findIdx? id).getD idx.length)
    let table := fun (base : Nat) => (idx.take cut).map (fun i => (base + i * e, e))
    let line := fun (base : Nat) => (List.range cut).map (fun i => (base + i * e, e))
    let res := if scatter then shMove s c { r with bytesRd := 8 * idx.length } (line (ShCmd.src w)) (table (ShCmd.dst w))
      else shMove s c { r with bytesRd := 8 * idx.length } (table (ShCmd.src w)) (line (ShCmd.dst w))
    match res with
    | .did s r => if cut == idx.length then .did s r
      else if bad.getD cut false then .did s (stopped r)
      else .did s (outOfBound r cut)
    | x => x

/-! REDUCE (07 R197). -/

/-- The SEED of a command: its context's, 0 with PHYS (07 R187). -/
def shSeed (s : State) (c : ShCx) : DWord := if c.phys then 0#64 else ((Tbl.find s.work.ctxs c.key).map (·.seed)).getD 0#64

/-- −0 below +0, otherwise by value. -/
def minMaxLt (a b : Val) : Bool :=
  let k := Val.cmp a b
  decide (k < 0) || (k == 0 && a.isZero && b.isZero && a.sign && !b.sign)

/-- The least or greatest element of a segment (07 R197). -/
def segMinMax (f : Fmt) (isMin : Bool) (ws : List Nat) : Nat :=
  let vs := ws.map (fun w => (w, decodePlain f w))
  match f with
  | .flt g =>
    if vs.any (fun v => v.2.isNan) then g.nanEnc
    else
      let start := (g.infEnc + if isMin then 0 else 2 ^ (g.eb + g.mb), Val.inf (!isMin))
      (vs.foldl (fun a v => if isMin then (if minMaxLt v.2 a.2 then v else a) else (if minMaxLt a.2 v.2 then v else a)) start).1
  | _ =>
    let n := f.width
    let start : Nat × Val := if isMin then (2 ^ (n - 1) - 1, Val.ofInt ((2 : Int) ^ (n - 1) - 1)) else (2 ^ (n - 1), Val.ofInt (-(2 : Int) ^ (n - 1)))
    (vs.foldl (fun a v => if isMin then (if minMaxLt v.2 a.2 then v else a) else (if minMaxLt a.2 v.2 then v else a)) start).1

/-- The accumulator of a segment of terms at the anchor that its mode gives (02 R39, R40, R43). -/
def segAcc (w : BitVec 1024) (native : Bool) (vs : List Val) : A192 :=
  let a := if native || ShCmd.anchorMode w == 1 then autoAnchor (maxExp vs) (some 0) (ShCmd.terms w) else ShCmd.anchor w
  vs.foldl A192.addTerm (A192.cleared a)

/-- The sum of a segment's records (02 R41). -/
def segRecords (w : BitVec 1024) (rs : List A192) : A192 :=
  let a := if ShCmd.anchorMode w == 0 then ShCmd.anchor w else (rs.head?.map (fun r => r.anchor.toInt)).getD (-4096)
  rs.foldl A192.addRec (A192.cleared a)

/-- One segment's result: its bits and flags. -/
def segResult (w : BitVec 1024) (rd : Rnd) (ws : List Nat) : Nat × Nat :=
  match Fmt.ofCode (ShCmd.fmt w), Fmt.ofCode (ShCmd.fmtOut w) with
  | some f, some o =>
    if ShCmd.subop w != 0 then (segMinMax f (ShCmd.subop w == 1) ws, 0)
    else if f == .a192 then
      let a := segRecords w (ws.map (fun x => A192.ofRec (BitVec.ofNat 256 x)))
      if o == .a192 then (a.toRec.toNat, 0) else a.readOut o rd
    else if o == .a192 then ((segAcc w false (ws.map (decodePlain f))).toRec.toNat, 0)
    else match f with
      | .flt _ => (segAcc w true (ws.map (decodePlain f))).readOut o rd
      | _ => ((ws.foldl (· + ·) 0) % 2 ^ f.width, 0)
  | _, _ => (0, 0)

/-- REDUCE: the two pre-passes, then one result for each segment (07 R189 checks 8 and 9, R197). -/
def shReduce (s : State) (c : ShCx) (w : BitVec 1024) (r : ShRun) : ShRes :=
  let n := ShCmd.rows w
  let width := match Fmt.ofCode (ShCmd.fmt w) with | some f => f.width | none => 8
  match shRead s c [(ShCmd.aux w, 8 * (n + 1)), (ShCmd.src w, fmtBytes (ShCmd.fmt w) (ShCmd.count w))] with
  | .wait s => .wait s
  | .bad s a => shBad s r a
  | .ok s bs =>
    let r := { r with bytesRd := bs.length }
    let offs := (chunks 8 (bs.take (8 * (n + 1)))).map (fun x => natLE (bytesOf x))
    let ws := unpackElems width (ShCmd.count w) (bytesOf (bs.drop (8 * (n + 1))))
    let rising := (offs.zip (offs.drop 1)).all (fun p => decide (p.1 ≤ p.2))
    if tainted (bs.take (8 * (n + 1))) then .did s (stopped r)
    else if !(rising && offs.head? == some 0 && offs.getLast? == some (ShCmd.count w)) then
      .did s { r with status := Status.aborted.code, noPublish := true, chunks := 0 }
    else
      let segs := (List.range n).map (fun i => (ws.drop (offs.getD i 0)).take (offs.getD (i + 1) 0 - offs.getD i 0))
      let unequal := ShCmd.fmt w == 0x1F && segs.any (fun g =>
        let as_ := g.map (fun x => (A192.ofRec (BitVec.ofNat 256 x)).anchor.toInt)
        let want := if ShCmd.anchorMode w == 0 then ShCmd.anchor w else as_.headD 0
        as_.any (· != want))
      if tainted bs then .did s (stopped r)
      else if unequal then .did s { r with status := Status.anchorOverflow.code, noPublish := true, chunks := 0 }
      else
        let seed := shSeed s c
        let mode := (RMode.ofCode (ShCmd.rnd w)).getD .rne
        let rs := (segs.zipIdx).map (fun p =>
          segResult w { mode, sat := ShCmd.sat w, r := srDrawIndex seed (ShCmd.stream w) (ShCmd.origin w + p.2) } p.1)
        let out := match Fmt.ofCode (ShCmd.fmtOut w) with | some o => packElems o.width (rs.map (·.1)) | none => []
        let exc := rs.foldl (fun a x => a ||| x.2) 0
        match shWrite s c [(ShCmd.dst w, out.length)] (clean out) with
        | .wait s => .wait s
        | .bad s a => shBad s r a
        | .ok s ds =>
          let trap := ShCmd.trapAo w && exc &&& Exc.ao != 0
          .did s { r with exc, bytesWr := out.length, dst := ds, status := if trap then Status.anchorOverflow.code else r.status }

/-! ATOMIC, SCAN, TRANSPOSE, MEASURE (07 R198 to R201). -/

/-- One update of ATOMIC (07 R198). -/
def shUpdate (w : BitVec 1024) (old operand : Nat) : Nat :=
  if ShCmd.subop w == 8 then
    match Fmt.ofCode (ShCmd.fmt w) with
    | some f => ((A192.ofRec (BitVec.ofNat 256 old)).addTerm (decodePlain f operand)).toRec.toNat
    | none => old
  else amoNew (ShCmd.subop w) (8 * ShCmd.elem w) old operand 0

/-- Updates performed in turn on ready lines; a poisoned target stops them. -/
def shUpdates (s : State) (c : ShCx) (w : BitVec 1024) : List (Nat × Nat) → State × List (Nat × Nat × Nat) × Bool
  | [] => (s, [], false)
  | (va, operand) :: rest =>
    let n := ShCmd.target w
    match shPrepare s c true [(va, n)] with
    | .ok s ds =>
      let (s, bs) := shTake s c ds
      if tainted bs then (s, [], true)
      else
        let s := shPut (shDirty s c va n) c (clean (bytesLE n (shUpdate w (natLE (bytesOf bs)) operand))) ds
        let (s, es, b) := shUpdates s c w rest
        (s, ds ++ es, b)
    | .wait s => (s, [], false)
    | .bad s _ => (s, [], false)

/-- ATOMIC (07 R198). -/
def shAtomic (s : State) (c : ShCx) (w : BitVec 1024) (r : ShRun) : ShRes :=
  let o := ShCmd.operand w
  match shIndices s c w with
  | .wait s => .wait s
  | .bad s a => shBad s r a
  | .ok s (idx, bad) => match shRead s c [(ShCmd.src w, ShCmd.count w * o)] with
    | .wait s => .wait s
    | .bad s a => shBad s r a
    | .ok s bs =>
      let ops := chunks o bs
      let taint := (List.range idx.length).find? (fun i => bad.getD i false || tainted (ops.getD i []))
      let cut := min (boundCut w idx) (taint.getD idx.length)
      let todo := (List.range cut).map (fun i => (ShCmd.dst w + idx.getD i 0 * ShCmd.target w, natLE (bytesOf (ops.getD i []))))
      match shPrepare s c true (todo.map (fun t => (t.1, ShCmd.target w))) with
      | .wait s => .wait s
      | .bad s a => shBad s r a
      | .ok s _ =>
        let (s, ds, hit) := shUpdates s c w todo
        let r := { r with bytesRd := idx.length * (8 + o) + cut * ShCmd.target w, bytesWr := cut * ShCmd.target w, dst := ds }
        if hit then .did s (stopped r)
        else if cut == idx.length then .did s r
        else if taint == some cut then .did s (stopped r)
        else .did s (outOfBound r cut)

/-- SCAN: the largest exponent, and the counts of NaN and infinite elements (07 R199). -/
def shScan (s : State) (c : ShCx) (w : BitVec 1024) (r : ShRun) : ShRes :=
  let n := ShCmd.count w
  let m := fmtBytes (ShCmd.fmt w) n
  let mx := fmtIsMx (ShCmd.fmt w)
  match shRead s c ([(ShCmd.src w, m)] ++ (if mx then [(ShCmd.aux w, (n + 31) / 32)] else [])), Fmt.ofCode (ShCmd.fmt w) with
  | .wait s, _ => .wait s
  | .bad s a, _ => shBad s r a
  | .ok s _, none => .did s r
  | .ok s bs, some f =>
    let r := { r with bytesRd := bs.length }
    if tainted bs then .did s (stopped r)
    else
      let ws := unpackElems f.width n (bytesOf (bs.take m))
      let scales := (bytesOf (bs.drop m)).map (·.toNat)
      let (top, nans, infs) : Option Int × Nat × Nat := match f with
        | .mx el =>
          ((chunks 32 ws).zip scales).foldl (fun (a : Option Int × Nat × Nat) b =>
            if b.2 == 0xFF then (a.1, a.2.1 + 32, a.2.2)
            else
              let vs := b.1.map (decodeMx el b.2)
              let has := (maxExp vs).isSome
              let e : Int := (b.2 : Int) - 127 + el.emax
              (if has then some (match a.1 with | some x => max x e | none => e) else a.1,
                a.2.1 + (vs.filter (·.isNan)).length, a.2.2 + (vs.filter (·.isInf)).length)) (none, 0, 0)
        | f =>
          let vs := ws.map (decodePlain f)
          (maxExp vs, (vs.filter (·.isNan)).length, (vs.filter (·.isInf)).length)
      .did s { r with r0 := match top with | some e => toBits e 16 | none => 0x8000
                      r1 := min nans (2 ^ 32 - 1) + 2 ^ 32 * min infs (2 ^ 32 - 1) }

/-- TRANSPOSE (07 R200). -/
def shTranspose (s : State) (c : ShCx) (w : BitVec 1024) (r : ShRun) : ShRes :=
  let e := ShCmd.elem w
  let pairs := (List.range (ShCmd.rows w)).flatMap (fun i => (List.range (ShCmd.cols w)).map (fun j => (i, j)))
  let place := fun (base : Nat) (stride : Int) (i j : Nat) => (((base : Int) + (i : Int) * stride).toNat + j * e, e)
  shMove s c r (pairs.map (fun p => place (ShCmd.src w) (ShCmd.srcStride w) p.1 p.2))
    (pairs.map (fun p => place (ShCmd.dst w) (ShCmd.dstStride w) p.2 p.1))

/-- MEASURE (07 R201). -/
def shMeasure (s : State) (c : ShCx) (w : BitVec 1024) (r : ShRun) : ShRes :=
  match shRead s c [(ShCmd.src w, ShCmd.count w)] with
  | .wait s => .wait s
  | .bad s a => shBad s r a
  | .ok s bs =>
    let r := { r with bytesRd := bs.length }
    if tainted bs then .did s (stopped r)
    else match shWrite s c [(ShCmd.dst w, 64)] (clean (sha3 (bytesOf bs))) with
      | .wait s => .wait s
      | .bad s a => shBad s r a
      | .ok s ds => .did s { r with bytesWr := 64, dst := ds }

/-! SCRUB, PATTERN_TEST, PREFETCH, SEAL_INGEST, MIGRATE (07 R202 to R205). -/

/-- The direct addresses of a range's 32-byte chunks. -/
def ShCx.chunksOf (c : ShCx) (va n : Nat) : List Nat :=
  (c.pieces va n).flatMap (fun p => (List.range ((p.2.1 + 31) / 32)).filterMap (fun i => (direct? (p.1 + 32 * i)).map (· / 32)))

/-- SCRUB: no chunk is in error but those found poisoned (07 R202; assumption 30). -/
def shScrub (s : State) (c : ShCx) (w : BitVec 1024) (r : ShRun) : ShRes :=
  let bad := (c.chunksOf (ShCmd.src w) (ShCmd.count w)).filter (fun k => s.mem.poison.contains k)
  .did s { r with bytesRd := ShCmd.count w, r1 := bad.length }

/-- PATTERN_TEST: it leaves zero; `failed` names the chunks, from DST, that read back wrong (07 R202). -/
def shPattern (failed : List Nat) (s : State) (c : ShCx) (w : BitVec 1024) (r : ShRun) : ShRes :=
  let n := ShCmd.count w
  match shWrite s c [(ShCmd.dst w, n)] (clean (List.replicate n 0#8)) with
  | .wait s => .wait s
  | .bad s a => shBad s r a
  | .ok s ds =>
    let cs := c.chunksOf (ShCmd.dst w) n
    let hit := (failed.foldl NSet.ins []).filter (fun i => decide (i < cs.length))
    .did s { r with bytesRd := 2 * n, bytesWr := 3 * n, dst := ds, r0 := hit.length, r1 := match hit with | i :: _ => 32 * cs.getD i 0 | [] => 0 }

/-- PREFETCH (07 R203). -/
def shPrefetch (s : State) (c : ShCx) (w : BitVec 1024) (r : ShRun) : ShRes :=
  let lines := ((c.pieces (ShCmd.src w) (ShCmd.count w)).flatMap (fun p =>
    (linePieces p.1 p.2.1).filterMap (fun l => (direct? l.1).map (fun d => (d / 128, p.2.2)))))
  .did (lines.foldl (fun s l =>
    if Tbl.has s.mem.msc l.1 || anyPoison s (128 * l.1) 128 then s
    else
      let (t, bs, p) := fetchLine s l.1 l.2 []
      if p != 0 then s else fillLine t { c.rq (128 * l.1) with noAlloc := false } l.1 l.2 bs 0) s) { r with bytesRd := ShCmd.count w }

/-- An event of SEC_STATUS, reported to a partition or to function 0 (17 R493). -/
def secEvent (s : State) (b sev parts : Nat) : State :=
  let r := statusFlag s.sec.status b
  postError { s with sec := { s.sec with status := r } } { block := 14, inst := 0, cause := b, sev, parts, off := 4, seq := evtSeq r, reg := r.toNat }

/-- The records of a SEAL_INGEST opened in turn: the plaintext blocks before the first whose tag fails (17 R483). -/
def openRecords (k : KeySlot) : List (List Byte) → List (List Byte)
  | [] => []
  | r :: rest =>
    let iv := bytesLE 4 k.salt.toNat ++ (r.take 8).reverse
    match gcmOpen (bytesLE 32 k.key.toNat) iv (r.take 16) ((r.drop 16).take 4096) (r.drop 4112) with
    | some pt => pt :: openRecords k rest
    | none => []

/-- SEAL_INGEST (07 R204, 17 R483). -/
def shIngest (s : State) (c : ShCx) (w : BitVec 1024) (r : ShRun) : ShRes :=
  match shKey s w c.q, shRead s c [(ShCmd.src w, ShCmd.count w)] with
  | none, _ => .did s { r with status := Status.permission.code, noPublish := true }
  | some _, .wait s => .wait s
  | some _, .bad s a => shBad s r a
  | some k, .ok s bs =>
    let recs := chunks 4128 bs
    let good := recs.takeWhile (fun x => !tainted x)
    let pts := openRecords k (good.map bytesOf)
    let out := pts.flatten
    match shWrite s c [(ShCmd.dst w, out.length)] (clean out) with
    | .wait s => .wait s
    | .bad s a => shBad s r a
    | .ok s ds =>
      let r := { r with bytesRd := bs.length, bytesWr := out.length, dst := ds }
      if pts.length < good.length then
        .did (secEvent s 20 2 (if c.q == 8 then 0 else 2 ^ c.q)) { r with status := Status.denied.code, noPublish := true }
      else if good.length < recs.length then .did s (stopped r)
      else .did s r

/-- MIGRATE: the mirror starts, and every block is copied in address order (07 R205). -/
def shMigrate (s : State) (c : ShCx) (w : BitVec 1024) (r : ShRun) : ShRes :=
  let n := ShCmd.count w
  let m : Mirror := { src := ShCmd.src w, dst := ShCmd.dst w, bytes := n, cmpSrc := ShCmd.cmpSrc w, cmpNew := ShCmd.cmpNew w }
  let bad := (s.mem.poison.filter (fun k => decide (m.src / 32 ≤ k) && decide (k < (m.src + n) / 32))).length
  let s := s.modShelver c.sh (fun x => { x with mirror := some m })
  let s := (List.range (n / 4096)).foldl (fun s i => mirrorCopy s m (m.src + 4096 * i)) s
  .did s { r with bytesRd := n, bytesWr := n, r0 := bad, dst := [(m.dst, n, 0)] }

/-! Starting a command (07 R191). -/

/-- Chunks of 64 KiB of a command's source data (07 R191). -/
def shChunks (w : BitVec 1024) : Nat :=
  if ShCmd.empty w then 0
  else
    let n := match ShCmd.opcode w with
      | 0x01 => max (ShCmd.rows w) 1 * ShCmd.count w
      | 0x03 | 0x04 => ShCmd.count w * ShCmd.elem w
      | 0x05 | 0x07 => fmtBytes (ShCmd.fmt w) (ShCmd.count w)
      | 0x06 => ShCmd.count w * ShCmd.operand w
      | 0x08 => ShCmd.rows w * ShCmd.cols w * ShCmd.elem w
      | _ => ShCmd.count w
    max 1 ((n + 65535) / 65536)

/-- A command's run recorded; SH_ACTIVE shows its queue. -/
def startRun (s : State) (sh q : Nat) (r : ShRun) : State :=
  s.modShelver sh (fun x => { x with runs := Tbl.put x.runs q r, active := if r.chunks == 0 then x.active else q })

/-- The command at the head of the queue that is next, where its opcode is the one given and it has not started: admitted and its
data moved, or ended by a check; a command that waits changes nothing else and is presented again (07 R189, R191). -/
def shStart (s : State) (sh : Nat) (isOp : Nat → Bool) (op : State → ShCx → BitVec 1024 → ShRun → ShRes) : State :=
  let x := s.shelver sh
  match x.choose with
  | none => s
  | some q =>
    if Tbl.has x.runs q then s else
    let u := x.queue q
    match regRead s (u.cmdBase.toNat + u.rd % u.size * 128) 128 with
    | .wait s => s
    | .bad s _ => s
    | .ok s (bs, poison) =>
      let w : BitVec 1024 := BitVec.ofNat 1024 (natLE bs)
      if !isOp (ShCmd.opcode w) then s
      else
        let r : ShRun := { index := u.rd, word := w, chunks := shChunks w }
        if x.doomed.contains (q * 65536 + u.rd) then startRun s sh q { r with status := Status.aborted.code, noPublish := true, chunks := 0 }
        else if poison then startRun s sh q { stopped r with chunks := 0 }
        else match admission s sh q w with
          | .wait s => s
          | .fail s st a => startRun s sh q { r with status := st, r0 := a, noPublish := true, chunks := 0 }
          | .go s c =>
            let r := { r with ttb := (c.ents.map (fun e => (e.key, e.va, e.bytes, e.leaf))).eraseDups }
            if ShCmd.empty w then startRun s sh q r
            else match op s c w r with
              | .wait s => s
              | .did s r => startRun s sh q r

/-- SH_NOP; a reserved opcode fails check 1 here (07 R188, R193). -/
def execShNop (sh : ShelverNo) (s : State) : Out := .next (shStart s sh (fun o => o == 0 || decide (o > 0x0E)) (fun s _ _ r => .did s r))
/-- SH_COPY (07 R194). -/
def execShCopy (sh : ShelverNo) (s : State) : Out := .next (shStart s sh (· == 1) shCopy)
/-- SH_FILL (07 R195). -/
def execShFill (sh : ShelverNo) (s : State) : Out := .next (shStart s sh (· == 2) shFill)
/-- SH_GATHER (07 R196). -/
def execShGather (sh : ShelverNo) (s : State) : Out := .next (shStart s sh (· == 3) (shGather false))
/-- SH_SCATTER (07 R196). -/
def execShScatter (sh : ShelverNo) (s : State) : Out := .next (shStart s sh (· == 4) (shGather true))
/-- SH_REDUCE (07 R197). -/
def execShReduce (sh : ShelverNo) (s : State) : Out := .next (shStart s sh (· == 5) shReduce)
/-- SH_ATOMIC (07 R198). -/
def execShAtomic (sh : ShelverNo) (s : State) : Out := .next (shStart s sh (· == 6) shAtomic)
/-- SH_SCAN (07 R199). -/
def execShScan (sh : ShelverNo) (s : State) : Out := .next (shStart s sh (· == 7) shScan)
/-- SH_TRANSPOSE (07 R200). -/
def execShTranspose (sh : ShelverNo) (s : State) : Out := .next (shStart s sh (· == 8) shTranspose)
/-- SH_MEASURE (07 R201). -/
def execShMeasure (sh : ShelverNo) (s : State) : Out := .next (shStart s sh (· == 9) shMeasure)
/-- SH_SCRUB (07 R202). -/
def execShScrub (sh : ShelverNo) (s : State) : Out := .next (shStart s sh (· == 0xA) shScrub)
/-- SH_PREFETCH (07 R203). -/
def execShPrefetch (sh : ShelverNo) (s : State) : Out := .next (shStart s sh (· == 0xB) shPrefetch)
/-- SH_MIGRATE (07 R205). -/
def execShMigrate (sh : ShelverNo) (s : State) : Out := .next (shStart s sh (· == 0xC) shMigrate)
/-- SH_SEAL_INGEST (07 R204). -/
def execShSealIngest (sh : ShelverNo) (s : State) : Out := .next (shStart s sh (· == 0xD) shIngest)
/-- SH_PATTERN_TEST (07 R202). -/
def execShPatternTest (sh : ShelverNo) (failed : List (BitVec 34)) (s : State) : Out :=
  .next (shStart s sh (· == 0xE) (shPattern (failed.map (·.toNat))))

/-! Chunks, interruption and completion (07 R191, R192, R207, R208, R221). -/

/-- Destination bytes of an interrupted command: undefined, a free value each (07 R208; assumption 3). -/
def spoil (s : State) (ds : List (Nat × Nat × Nat)) : State :=
  ds.foldl (fun s d =>
    let i := s.free
    let bs := (List.range d.2.1).map (fun k => Config.freeByte (i + k))
    { (linePieces d.1 d.2.1).foldl (fun (a : State × List Byte) p =>
        (mscWrite a.1 (homeRq 0) (p.1 / 128) d.2.2 (List.replicate (p.1 % 128) 0#8 ++ a.2.take p.2 ++ List.replicate (128 - p.1 % 128 - p.2) 0#8)
          ((2 ^ p.2 - 1) <<< (p.1 % 128)) 0, a.2.drop p.2)) (s, bs) |>.1 with free := i + d.2.1 }) s

/-- A run ended with a status before its end: no result but the status, and no publication. -/
def ShRun.cut (r : ShRun) (status : Nat) : ShRun :=
  { index := r.index, word := r.word, status, noPublish := true, bytesRd := r.bytesRd, bytesWr := r.bytesWr }

/-- A started command that has chunks left is ended with a status, its destination undefined. -/
def cutRun (s : State) (sh q status : Nat) : State :=
  let x := s.shelver sh
  match Tbl.find x.runs q with
  | some r => (spoil s r.dst).modShelver sh (fun x => ({ x with runs := Tbl.put x.runs q (r.cut status) } : Shelver).settle)
  | none => s

/-- Whether an invalidation that has begun covers a translation of a run (09 R264). -/
def runHit (s : State) (r : ShRun) : Bool := s.cat.invals.any (fun i => r.ttb.any (fun e => i.2.covers (shEntry e)))

/-- SHELVER_CHUNK_DONE: the running command's chunk ends and the next queue is chosen; a command whose translation an invalidation
has taken, or whose partition or context goes, stops here with ABORTED (07 R191, R221, 09 R264). -/
def execShelverChunkDone (sh : ShelverNo) (s : State) : Out :=
  let x := s.shelver sh
  match (if x.active == 0xF then x.choose else some x.active) with
  | none => .next s
  | some q =>
    match Tbl.find x.runs q with
    | none => .next s
    | some r =>
      if r.chunks == 0 || x.resetting then .next s
      else if runHit s r then .next (cutRun s sh q Status.aborted.code)
      else
        let x := { x with runs := Tbl.put x.runs q { r with chunks := r.chunks - 1 }, last := if q < 8 then q else x.last }
        .next (settleInvals (s.setShelver sh x.settle))

/-- What the publish step comes to (07 R207). -/
inductive Pub where
  | none_ (s : State)
  | did (s : State)
  | differs (s : State) (found : Nat)
  | lost (s : State)
  | wait (s : State)

/-- The publish step, on the translation that admission found (07 R207). -/
def publish (s : State) (sh q : Nat) (r : ShRun) : Pub :=
  let w := r.word
  if ShCmd.pubOp w == 0 || r.noPublish then .none_ s
  else
    let c : ShCx := { sh, q, phys := ShCmd.phys w, key := (r.ttb.head?.map (·.1)).getD 0, ents := r.ttb.map shEntry }
    let put := fun (s : State) => match shWrite s c [(ShCmd.pubAddr w, 8)] (clean (bytesLE 8 (ShCmd.pubValue w))) with
      | .ok s _ => Pub.did s
      | .wait s => .wait s
      | .bad s _ => .none_ s
    if ShCmd.pubOp w == 1 then put s
    else match shPrepare s c true [(ShCmd.pubAddr w, 8)] with
      | .wait s => .wait s
      | .bad s _ => .none_ s
      | .ok s ds =>
        let (s, bs) := shTake s c ds
        if tainted bs then .lost s
        else
          let v := natLE (bytesOf bs)
          if v == ShCmd.pubExpect w then put s else .differs s v

/-- The completion record of a command (07 R192). -/
def shRecord (r : ShRun) (published : Bool) : Nat :=
  let w := r.word
  ShCmd.tag w + put (ShCmd.call w) 16 16 + put r.status 32 8 + put r.exc 40 9 + put (ShCmd.opcode w) 56 8 + put r.r0 64 64 + put r.r1 128 64
    + put r.index 192 16 + put (bit published) 208 1

/-- The queue command that a Shelver command was submitted for completes with its outcome; a failure posts a SHELVER fault record,
unless a TRANSLATION record named it, or a partition reset or a destruction `ended` it (13 R374, R375, R381, 07 R221). -/
def shelveDone (s : State) (sh q : Nat) (r : ShRun) (published ended : Bool) : State :=
  match s.work.cmds.find? (fun c => c.2.shelver == some (sh, q, r.index)) with
  | none => s
  | some (id, c) =>
    let s := charge s c.job c.ctx { stackRd := r.bytesRd, stackWr := r.bytesWr }
    let s := if r.status != 0 && c.faultSeq == 0 && !(ended && r.status == Status.aborted.code) then
        faultForCmd s id { kind := 3, status := r.status, requester := 224 + sh, body := shRecord r published + put (sh / 4) 256 3 + put (sh % 4) 259 2 }
      else s
    completeCmd s id { status := r.status, exc := r.exc, r0 := r.r0, r1 := r.r1 }

/-- The SHELF_MIGRATE COPY that a MIGRATE was submitted for completes with it (10 R294). -/
def migrateDone (s : State) (sh : Nat) (r : ShRun) : State :=
  match s.vols.migrations.find? (fun m => m.2.sh == sh && m.2.index == r.index && !m.2.copied) with
  | none => s
  | some (p, m) =>
    let rest := s.vols.migrations.filter (fun x => !(x == (p, m)))
    let s := { s with vols := { s.vols with migrations := if r.status == 0 then rest ++ [(p, { m with copied := true })] else rest } }
    mbFinish s m.cmd.1 m.cmd.2 r.status 0

/-- The stack whose controller sits at a router (01 R9). -/
def stackAt (router : Nat) : Option Nat := (List.range 8).find? (fun k => stackRouter k == router)

/-- The completion message of a command with NOTIFY set: a DOORBELL to NOTIFY_ROUTER and NOTIFY_EP, ARG with the queue and the new Q_RD
(07 R192). It stays in the queue's partition and off endpoint 0, a fenced endpoint sends it back as ISOLATED, and a Shelver takes no
doorbell from a Shelver (03 R85, R86, R90, 07 R186); anywhere else it arrives (assumption 56). -/
def shNotice (s : State) (sh q : Nat) (w : BitVec 1024) : State :=
  let dst := ShCmd.notifyTo w
  let m : Card := { srcRouter := stackRouter (sh / 4), srcEp := 2 + sh % 4, dstRouter := dst.1, dstEp := dst.2, type := 0,
                    arg := BitVec.ofNat 32 (q + put ((s.shelver sh).queue q).rd 16 16) }
  let abroad := match bayAt s dst.1 with | some b => q != 8 && s.partOfBay b != q | none => false
  if !ShCmd.notify w || dst.2 == 0 || abroad then s
  else if epFenced s dst.1 dst.2 then cardIsolated s m
  else match stackAt dst.1, decide (2 ≤ dst.2 ∧ dst.2 ≤ 5) with
    | some k, true => shEvent s (k * 4 + (dst.2 - 2)) 31 0 q 2 0
    | _, _ => s.modNets (fun n => { n with arrived := Tbl.put n.arrived (cardKey dst.1 dst.2 * 16) m })

/-- A command's end: its record, then Q_RD, the counts, and the completion message (07 R192). -/
def finishRun (s : State) (sh q : Nat) (r : ShRun) (published : Bool) : State :=
  let u := (s.shelver sh).queue q
  let ended := (s.shelver sh).doomed.contains (q * 65536 + r.index)
  let bs := bytesLE 32 (shRecord r published)
  match engineWrite s { part := q % 8, bypass := true } 0 (u.cplBase.toNat + u.rd % u.size * 32) bs with
  | .wait s => s
  | .bad s _ | .ok s _ =>
    let s := s.modShelver sh (fun x =>
      let u := x.queue q
      let u := { u with rd := (u.rd + 1) % 65536, failed := if r.status != 0 && u.failed < 65535 then u.failed + 1 else u.failed }
      ({ x with queues := Tbl.put x.queues q u, runs := Tbl.del x.runs q, doomed := NSet.rem x.doomed (q * 65536 + r.index), done := x.done + 1 } : Shelver).settle)
    let s := shNotice s sh q r.word
    if q == 8 then migrateDone s sh r else shelveDone s sh q r published ended

/-- The queue whose command has come to its end: queue 8 first, then round robin. -/
def endedQueue (x : Shelver) : Option Nat :=
  let done := fun (q : Nat) => match Tbl.find x.runs q with | some r => r.chunks == 0 | none => false
  if done 8 then some 8 else ((List.range 8).map (fun i => (x.last + 1 + i) % 8)).find? done

/-- SHELVER_COMPLETE: the publish step, the completion record, and Q_RD (07 R192, R207). -/
def execShelverComplete (sh : ShelverNo) (s : State) : Out :=
  match endedQueue (s.shelver sh) with
  | none => .next s
  | some q =>
    let r := Tbl.getD (s.shelver sh).runs q {}
    match publish s sh q r with
    | .wait s => .next s
    | .none_ s => .next (settleInvals (finishRun s sh q r false))
    | .did s => .next (settleInvals (finishRun s sh q r true))
    | .differs s v => .next (settleInvals (finishRun s sh q { r with status := Status.aborted.code, r1 := v } false))
    | .lost s => .next (settleInvals (finishRun s sh q { stopped r with status := Status.parityUnrecovered.code } false))

/-- The running commands of a Shelver ended with a status; a MIGRATE's mirror stops (07 R208, R221). -/
def cutAll (s : State) (sh status : Nat) : State :=
  let s := (s.shelver sh).runs.foldl (fun s r => if r.2.chunks == 0 then s else cutRun s sh r.1 status) s
  let s := { s with vols := { s.vols with migrations := s.vols.migrations.map (fun (m : Nat × Migration) => if m.2.sh == sh then (m.1, { m.2 with lost := true }) else m) } }
  s.modShelver sh (fun x => { x with mirror := none })

/-- A Shelver reset: the running command is lost, the queue registers stay (07 R221). -/
def shelverReset (s : State) (sh b : Nat) : State :=
  let q := (s.shelver sh).active
  let part := if q < 8 then 2 ^ q else 0
  let s := cutAll s sh Status.stateLost.code
  let s := shEvent s sh b Status.stateLost.code q 2 part
  (beginReset s 5 sh).modShelver sh (fun x => { x with resetting := true, active := 0xF })

/-- SH_WATCHDOG_EXPIRE: a chunk has made no progress for SH_WATCHDOG (07 R221). -/
def execShWatchdogExpire (sh : ShelverNo) (s : State) : Out :=
  let x := s.shelver sh
  if x.active == 0xF then .next s
  else .next (shelverReset (reach s (s.now + max 1 (x.watchdog.toNat % 65536) * us)) sh 29)

/-- SCRATCH_PARITY_ERROR (07 R221, R222). -/
def execScratchParityError (sh : ShelverNo) (s : State) : Out :=
  .next (shelverReset (s.modShelver sh (fun x => { x with scratchParity := satInc x.scratchParity })) sh 28)

/-- SHELVER_RESET_DONE: the queues are served again (07 R221). -/
def execShelverResetDone (sh : ShelverNo) (s : State) : Out :=
  .next ((endReset s 5 sh).modShelver sh (fun x => { x with resetting := false }))

/-- HALT: the Shelver stops at the next chunk boundary without ending a command (07 R221, R222). -/
def execHalt (sh : ShelverNo) (s : State) : Out :=
  .next (s.modShelver sh (fun x => { x with ctrl := x.ctrl ||| 0x10000#32 }))

/-- MIRROR_STOP: STOP written to MIRROR_CTRL (07 R205, R222). -/
def execMirrorStop (sh : ShelverNo) (s : State) : Out :=
  .next (s.modShelver sh (fun x => { x with mirror := none }))

/-- The commands of a Shelver's queue that a partition reset or a context's destruction ends with ABORTED, in ring order: the
running one at its next chunk boundary, the queued ones unstarted; one that stands behind another's ends when its turn comes (07 R221). -/
def abortQueue (s : State) (sh q : Nat) (mine : Nat → BitVec 1024 → Bool) : State :=
  let s := match Tbl.find (s.shelver sh).runs q with
    | some r => if mine r.index r.word then cutRun s sh q Status.aborted.code else s
    | none => s
  let u := (s.shelver sh).queue q
  let n := (u.wr + 65536 - u.rd) % 65536
  let word := fun (s : State) (i : Nat) => match regRead s (u.cmdBase.toNat + i % u.size * 128) 128 with
    | .ok _ (bs, _) => (BitVec.ofNat 1024 (natLE bs) : BitVec 1024)
    | _ => 0#1024
  let gone := ((List.range n).map (fun i => (u.rd + i) % 65536)).filter (fun i => mine i (word s i))
  let s := s.modShelver sh (fun x => { x with heldOn := if gone.contains u.rd then Tbl.del x.heldOn q else x.heldOn
                                              doomed := gone.foldl (fun d i => NSet.ins d (q * 65536 + i)) x.doomed })
  (List.range n).foldl (fun s k =>
    let i := (u.rd + k) % 65536
    let x := s.shelver sh
    if (x.queue q).rd != i || !gone.contains i then s
    else match Tbl.find x.runs q with
      | some r => finishRun s sh q r false
      | none => finishRun s sh q { index := i, word := word s i, status := Status.aborted.code, noPublish := true } false) s

/-! What the Registrar submits (07 R185, 10 R294, 13 R382). -/

/-- Rings of a queue as the Registrar lays them out, in the Registrar area of the Shelf that carries the Shelver's number in its stack
(06 R158; assumption 45): 64 KiB for each queue, commands first, completions from 32 KiB on. -/
def registrarRings (sh q : Nat) : Nat := (sh / 4 * 16 + sh % 4) * 2 ^ 33 + registrarArea + q * 0x10000

/-- A queue's rings set up by the Registrar, where it has not been enabled yet. -/
def openQueue (s : State) (sh q : Nat) : State :=
  s.modShelver sh (fun x => if x.enabled q then x else { x with
    ctrl := x.ctrl ||| BitVec.ofNat 32 (2 ^ q)
    queues := Tbl.put x.queues q { x.queue q with cmdBase := BitVec.ofNat 64 (registrarRings sh q), cplBase := BitVec.ofNat 64 (registrarRings sh q + 0x8000) } })

/-- Room in a queue's command ring; a fenced Shelver takes no command (18 R507). -/
def queueRoom (s : State) (sh q : Nat) : Bool :=
  let u := (s.shelver sh).queue q
  !(s.shelver sh).fenced && decide ((u.wr + 65536 - u.rd) % 65536 < u.size)

/-- A command written to a Shelver's queue and its doorbell rung; the ring index it took. -/
def submitShelver (s : State) (sh q : Nat) (w : BitVec 1024) : State × Nat :=
  let s := openQueue s sh q
  let u := (s.shelver sh).queue q
  match engineWrite s { master := 42, bypass := true } 0 (u.cmdBase.toNat + u.wr % u.size * 128) (bytesLE 128 w.toNat) with
  | .ok s _ | .wait s | .bad s _ =>
    (s.modShelver sh (fun x => { x with queues := Tbl.put x.queues q { x.queue q with wr := (u.wr + 1) % 65536 } }), u.wr)

end Sys2Proof.Machine
end

