-- ==== Sys2Proof/Machine/Collectives.lean ====
section
/-! DEFINITION. The collective engines: descriptors, the exchange between members, reductions in A192, the publish step and the ways a collective ends (11_fabric.md R325 to R331, 17_security.md R486). -/

namespace Sys2Proof.Machine

/-! A collective descriptor (11 R326). -/
namespace Ce
def op (d : BitVec 1024) : Nat := fld d 0 0 8
def red (d : BitVec 1024) : Nat := fld d 0 8 2
def fmt (d : BitVec 1024) : Nat := fld d 0 10 5
def fmtOut (d : BitVec 1024) : Nat := fld d 0 15 5
def rnd (d : BitVec 1024) : Nat := fld d 0 20 3
def sat (d : BitVec 1024) : Bool := flag d 0 23
def trapAo (d : BitVec 1024) : Bool := flag d 0 24
def terms (d : BitVec 1024) : Nat := fld d 0 25 5
def mode (d : BitVec 1024) : Nat := fld d 0 30 2
def volume (d : BitVec 1024) : Nat := fld d 8 0 32
def epoch (d : BitVec 1024) : Nat := fld d 8 32 16
def collId (d : BitVec 1024) : Nat := fld d 0x10 0 32
def root (d : BitVec 1024) : Nat := fld d 0x10 32 14
def startAt (d : BitVec 1024) : Nat := fld d 0x18 0 64
def deadline (d : BitVec 1024) : Nat := fld d 0x20 0 64
def src (d : BitVec 1024) : Nat := fld d 0x28 0 57
def dst (d : BitVec 1024) : Nat := fld d 0x30 0 57
def count (d : BitVec 1024) : Nat := fld d 0x38 0 40
def anchor (d : BitVec 1024) : Int := sext (fld d 0x40 0 13) 13
def stream (d : BitVec 1024) : Nat := fld d 0x40 16 16
def origin (d : BitVec 1024) : Nat := fld d 0x48 0 48
def pubAddr (d : BitVec 1024) : Nat := fld d 0x50 0 57
def pubOp (d : BitVec 1024) : Nat := fld d 0x50 60 2
def pubValue (d : BitVec 1024) : Nat := fld d 0x58 0 64
def pubExpect (d : BitVec 1024) : Nat := fld d 0x60 0 64

/-- The number under which a collective is open on its engine. -/
def key (volume id : Nat) : Nat := volume * 2 ^ 32 + id
def keyOf (d : BitVec 1024) : Nat := key (volume d) (collId d)

def fieldList : List (Nat × Nat × Nat) :=
  [(0, 0, 64), (8, 0, 48), (0x10, 0, 46), (0x18, 0, 64), (0x20, 0, 64), (0x28, 0, 57), (0x30, 0, 57), (0x38, 0, 46), (0x40, 0, 13), (0x40, 16, 16),
   (0x48, 0, 48), (0x50, 0, 57), (0x50, 60, 2), (0x58, 0, 64), (0x60, 0, 64)]

/-- Whether the unnamed bits are zero. -/
def reservedClear (d : BitVec 1024) : Bool :=
  let m := fieldList.foldl (fun m f => m ||| ((2 ^ f.2.2 - 1) <<< (8 * f.1 + f.2.1))) 0
  d.toNat ||| m == m

/-- Whether an operation is a reduction, of elements. -/
def reduces (d : BitVec 1024) : Bool := op d == 1 || op d == 2 || op d == 5

/-- A plain element format of REDUCE (07 R197). -/
def plain (f : Nat) : Bool := decide (f ≤ 3) || f == 9 || f == 10

/-- The legal combinations of a reduction (11 R328, 07 R197). -/
def reduceOk (d : BitVec 1024) : Bool :=
  let f := fmt d
  let o := fmtOut d
  match red d with
  | 0 =>
    if f == 0x1F then (o == 0x1F || decide (o ≤ 3)) && (mode d == 0 || mode d == 3)
    else if o == 0x1F then plain f && decide (mode d ≤ 1)
    else f == o && plain f && decide (mode d ≤ 1)
  | 1 | 2 => f == o && plain f
  | _ => false

/-- What the Registrar checks of a descriptor before it hands it over (11 R326 to R328). -/
def ok (d : BitVec 1024) (members : List Nat) : Bool :=
  reservedClear d && decide (1 ≤ op d) && decide (op d ≤ 7) && red d != 3 && mode d != 2 && pubOp d != 3 && pubAddr d % 8 == 0
    && decide (count d ≤ 2 ^ 30) && (RMode.ofCode (rnd d)).isSome && terms d != 31
    && (!reduces d || reduceOk d)
    && (!(op d == 3 || op d == 4) || (Fmt.ofCode (fmt d)).isSome)
    && (op d != 7 || decide (fmt d ≤ 0xA))
    && (!(op d == 2 || op d == 3) || members.contains (root d))
    && (op d != 5 || count d % max members.length 1 == 0)

/-- Whether the elements travel as A192 records (11 R328). -/
def records (d : BitVec 1024) : Bool := reduces d && red d == 0 && (decide (fmt d ≤ 3) || fmt d == 0x1F || fmtOut d == 0x1F)

/-- Whether a maximum pre-pass runs first (11 R328). -/
def prepass (d : BitVec 1024) : Bool := records d && fmt d != 0x1F && mode d == 1

def width (f : Nat) : Nat := match Fmt.ofCode f with | some x => x.width | none => 8

/-- Bits of what travels for one element, and how many there are, by step: 1 seal flags, 2 exponents, 3 data. -/
def unit (d : BitVec 1024) (step : Nat) : Nat :=
  match step with
  | 1 => 8
  | 2 => 16
  | _ => if records d then 256 else if op d == 7 then 16 else width (fmt d)
def items (d : BitVec 1024) (step : Nat) : Nat :=
  match step with
  | 1 => 1
  | 2 => count d
  | _ => if op d == 6 then 0 else if op d == 7 then 1 else count d

/-- Bytes that a member sends in a step, and the packets that carry them. -/
def stepBytes (d : BitVec 1024) (step : Nat) : Nat := (unit d step * items d step + 7) / 8
def pieceBytes : Nat := 480
def pieces (d : BitVec 1024) (step : Nat) : Nat := (stepBytes d step + pieceBytes - 1) / pieceBytes

/-- Whether a member sends what a step carries to another: BROADCAST has data from ROOT alone, REDUCE sends them to ROOT alone. -/
def sends (d : BitVec 1024) (step src dst : Nat) : Bool :=
  step == 1 || match op d with
  | 2 => dst == root d
  | 3 => src == root d
  | _ => true

/-- Whether a member reads its SRC, and writes its DST. -/
def reads (d : BitVec 1024) (me : Nat) : Bool := op d != 6 && (op d != 3 || me == root d)
def writes (d : BitVec 1024) (me : Nat) : Bool := op d != 6 && (op d != 2 || me == root d)
def srcBytes (d : BitVec 1024) : Nat := (width (fmt d) * count d + 7) / 8
def dstBytes (d : BitVec 1024) (p : Nat) : Nat :=
  match op d with
  | 1 | 2 => (width (fmtOut d) * count d + 7) / 8
  | 3 => srcBytes d
  | 4 => (width (fmt d) * count d * p + 7) / 8
  | 5 => (width (fmtOut d) * (count d / max p 1) + 7) / 8
  | 7 => 8
  | _ => 0

/-- The check value of a descriptor under an epoch (11 R329). -/
def check (d : BitVec 1024) (epoch : Nat) : Nat :=
  let clear := (2 ^ 32 - 1) <<< 32 ||| (2 ^ 57 - 1) <<< (8 * 0x28) ||| (2 ^ 57 - 1) <<< (8 * 0x30) ||| (2 ^ 6 - 1) <<< (8 * 0x38 + 40) ||| (2 ^ 16 - 1) <<< (8 * 8 + 32)
  let v := (d.toNat &&& (2 ^ 1024 - 1 - clear)) + put epoch (8 * 8 + 32) 16
  natLE ((sha3 (bytesLE 0x50 v)).take 8)

/-- The publisher: ROOT for REDUCE, otherwise the member of rank 0 (11 R330). -/
def publisher (d : BitVec 1024) (members : List Nat) : Nat := if op d == 2 then root d else members.headD 0

/-! A COLL packet's payload (11 R329; assumption 46): check value, COLL_ID, step, status; the step's data from byte 16. Steps 4 to 6
are DONE, COMPLETE and ABORT. -/
def pCheck (p : Packet) : Nat := natLE (p.payload.take 8)
def pId (p : Packet) : Nat := natLE ((p.payload.drop 8).take 4)
def pStep (p : Packet) : Nat := natLE ((p.payload.drop 12).take 1)
def pStatus (p : Packet) : Nat := natLE ((p.payload.drop 13).take 1)
def pData (p : Packet) : List Byte := p.payload.drop 16
end Ce

/-! Sending (11 R325, R329). -/

def setEngine (s : State) (g : Nat) (e : CollEngine) : State := s.modFab (fun f => { f with engines := Tbl.put f.engines g e })
def setColl (s : State) (g id : Nat) (c : Coll) : State := let e := s.fab.engine g; setEngine s g { e with open_ := Tbl.put e.open_ id c }
def findColl (s : State) (g id : Nat) : Option Coll := Tbl.find (s.fab.engine g).open_ id

/-- Counts charged to the job of a collective's command (14 R417). -/
def chargeColl (s : State) (c : Coll) (d : Counters) : State :=
  match Tbl.find s.work.cmds c.cmd with
  | some k => charge s k.job k.ctx d
  | none => s

/-- A COLL packet sent to a member, on the ports that the Volume binds (11 R325). -/
def sendColl (s : State) (c : Coll) (dst step status off : Nat) (data : List Byte) : State :=
  let d := c.desc
  let payload := bytesLE 8 (Ce.check d (Ce.epoch d)) ++ bytesLE 4 (Ce.collId d) ++ bytesLE 2 (step + 256 * status) ++ [0#8, 0#8] ++ data
  let hdr := Pk.make dst s.fab.deviceId 6 (Ce.volume d) (Ce.epoch d) 0 payload.length 0 off (Ce.deadline d)
  let p : Packet := { hdr, payload }
  injectPacket (chargeColl s c { fabTx := pktSize p }) p (fun q => bitsAt c.ports q 1 == 1)

/-- The other members. -/
def Coll.others (c : Coll) (me : Nat) : List Nat := c.members.filter (· != me)

/-- A step's data kept as this member's own, and sent to the members that take them. -/
def sendStep (s : State) (g id : Nat) (c : Coll) (step : Nat) (bs : List Byte) : State :=
  let me := s.fab.deviceId
  let rank := c.members.findIdx (· == me)
  let offs := (List.range (Ce.pieces c.desc step)).map (fun i => i * (Ce.pieceBytes * 8 / Ce.unit c.desc step))
  let c := { c with step, got := Tbl.put c.got (step * 65536 + rank) (offs, Mem.writeN [] 0 bs) }
  let s := setColl s g id c
  (c.others me).foldl (fun s dst =>
    if !Ce.sends c.desc step me dst then s
    else ((chunks Ce.pieceBytes bs).zip offs).foldl (fun s b => sendColl s c dst step 0 b.2 b.1) s) s

/-! The ends of a collective (11 R330, R331, 13 R374, R386). -/

/-- CE_STATUS takes the status of a failed collective, and a flag where one is given (11 R332). -/
def ceEvent (s : State) (g status : Nat) (flagBit : Option Nat) (parts : Nat) : State :=
  let e := s.fab.engine g
  let m := 0xFF0000 + (match flagBit with | some b => 2 ^ b | none => 0)
  let r := statusEvent e.status m (put status 16 8 + (match flagBit with | some b => 2 ^ b | none => 0))
  let s := setEngine s g { e with status := r }
  match flagBit with
  | some b => postError s { block := 10, inst := g, cause := b, sev := 2, parts, off := (0xC00 + 0x40 * g) % 4096, seq := evtSeq r, reg := r.toNat }
  | none => s

/-- A member's collective ends: a failure posts a COLLECTIVE fault record unless a translation record named it, and its command completes. -/
def endColl (s : State) (g id status from_ : Nat) : State :=
  match findColl s g id with
  | none => s
  | some c =>
    let e := s.fab.engine g
    let s := setEngine s g { e with open_ := Tbl.del e.open_ id }
    let d := c.desc
    let s := if status == 0 then s else ceEvent s g status none 0
    let named := ((Tbl.find s.work.cmds c.cmd).map (·.faultSeq)).getD 0
    let s := if status == 0 || named != 0 then s
      else faultForCmd s c.cmd { kind := 4, status, requester := 256 + g,
                                    body := Ce.collId d + put (Ce.volume d) 32 32 + put (Ce.epoch d) 64 16 + put from_ 80 14 }
    completeCmd s c.cmd { status, exc := c.exc }

/-- A member ends the collective on every member: ABORT carries the status to the others. -/
def failCollAll (s : State) (g id status : Nat) : State :=
  match findColl s g id with
  | none => s
  | some c =>
    let s := (c.others s.fab.deviceId).foldl (fun s dst => sendColl s c dst 6 status 0 []) s
    endColl s g id status s.fab.deviceId

/-! The stages (11 R328, R330, 17 R486). -/

/-- Whether every byte that a member takes from the others in a step has arrived. -/
def stepFull (me : Nat) (c : Coll) (step : Nat) : Bool :=
  (c.members.zipIdx).all (fun m => m.1 == me || !Ce.sends c.desc step m.1 me
    || decide ((Tbl.getD c.got (step * 65536 + m.2) ([], [])).1.length ≥ Ce.pieces c.desc step))

/-- The bytes that a member contributed to a step. -/
def stepData (c : Coll) (step rank : Nat) : List Byte :=
  Mem.readN (Tbl.getD c.got (step * 65536 + rank) ([], [])).2 0 (Ce.stepBytes c.desc step)

/-- The engine's accesses: master 36 + g, for the context's partition (11 R325). -/
def collView (g : Nat) (c : Coll) (ents : List CatEntry) : View := { rq := fun _ => { master := 36 + g, part := ctxPart c.key }, key := c.key, ents }

/-- The translations of ranges, each with its access; none while a page is missing (09 R253). -/
def collLookup (s : State) (g id : Nat) (c : Coll) (rs : List (Nat × Nat × Nat)) : State × Option (List CatEntry) :=
  let ws := rs.flatMap (fun r => (pagePieces r.2.1 r.2.2).map (fun p => ({ req := 256 + g, port := id, access := r.1, va := p.1 } : Waiter)))
  let (s, es) := lookupAll s c.key ws
  (match es with | some es => es.foldl (fun s e => localKeep s (256 + g) e) s | none => s, es)

/-- What a stage comes to: the collective goes on, waits to be presented again, or has ended. -/
inductive Stage where
  | on (s : State)
  | wait (s : State)

/-- SRC read. -/
def collSource (s : State) (g id : Nat) (c : Coll) (k : State → List Byte → Stage) : Stage :=
  let n := Ce.srcBytes c.desc
  if !Ce.reads c.desc s.fab.deviceId || n == 0 then k s []
  else match collLookup s g id c [(0, Ce.src c.desc, n)] with
    | (s, none) => .wait s
    | (s, some es) =>
      if es.any (fun e => leafRemote e.leaf) then .wait (failCollAll s g id Status.permission.code)
      else match vRead s (collView g c es) [(Ce.src c.desc, n)] with
        | .wait s => .wait s
        | .bad s _ => .wait (failCollAll s g id Status.permission.code)
        | .ok s bs => if tainted bs then .wait (failCollAll s g id Status.parityUnrecovered.code) else k (chargeColl s c { stackRd := n }) (bytesOf bs)

/-- The elements of a plain source. -/
def collElems (d : BitVec 1024) (bs : List Byte) : List Nat := unpackElems (Ce.width (Ce.fmt d)) (Ce.count d) bs
def collVals (d : BitVec 1024) (bs : List Byte) : List Val :=
  match Fmt.ofCode (Ce.fmt d) with
  | some f => (collElems d bs).map (decodePlain f)
  | none => []

/-- An exponent of the pre-pass as 16 bits, 0x8000 none (11 R327, R328). -/
def expBits (e : Option Int) : Nat := match e with | some e => toBits e 16 | none => 0x8000
def expOf (n : Nat) : Option Int := if n == 0x8000 then none else some (sext n 16)
def maxOpt (a b : Option Int) : Option Int := match a, b with | some x, some y => some (max x y) | some x, none => some x | none, y => y

/-- Seal flags: bit 0 this member reads sealed data, bit 1 its DST is not wholly sealed, bit 2 it reads sealed data and its policy lacks ALLOW_PEER. -/
def collFlags (s : State) (g id : Nat) (c : Coll) : State × Option Nat :=
  let me := s.fab.deviceId
  let d := c.desc
  let (s, a) := collLookup s g id c (if Ce.reads d me then [(0, Ce.src d, Ce.srcBytes d)] else [])
  let (s, b) := collLookup s g id c (if Ce.writes d me then [(1, Ce.dst d, Ce.dstBytes d c.members.length)] else [])
  match a, b with
  | some a, some b =>
    let r := a.any (fun e => leafSealed e.leaf)
    let allow := ((Tbl.find s.sec.policies (ctxPart c.key)).map (·.allowPeer)).getD false
    (s, some (bit r + 2 * bit (b.any (fun e => !leafSealed e.leaf)) + 4 * bit (r && !allow)))
  | _, _ => (s, none)

/-- Step 1: the seal flags exchanged; a collective of one member follows R190. -/
def stageFlags (s : State) (g id : Nat) (c : Coll) : Stage :=
  match collFlags s g id c with
  | (s, none) => .wait s
  | (s, some fl) =>
    let pubPlain := fun (s : State) => match collLookup s g id c [(1, Ce.pubAddr c.desc, 8)] with
      | (s, some es) => (s, es.any (fun e => !leafSealed e.leaf))
      | (s, none) => (s, false)
    let single := c.members.length ≤ 1
    let (s, pub) := if single && Ce.pubOp c.desc != 0 && fl % 2 == 1 then pubPlain s else (s, false)
    if single && fl % 2 == 1 && (fl / 2 % 2 == 1 || pub) then .wait (failCollAll s g id Status.denied.code)
    else .on (sendStep s g id c 1 [BitVec.ofNat 8 (if single then fl % 2 else fl)])

/-- Step 2 or 3 begins once every flag is known: DENIED on every member where R486 says so. -/
def sealDenied (c : Coll) : Bool :=
  let fs := (List.range c.members.length).map (fun r => natLE (stepData c 1 r))
  (fs.any (fun f => f % 2 == 1) && fs.any (fun f => f / 2 % 2 == 1)) || fs.any (fun f => f / 4 % 2 == 1)

/-- The data of step 3 (11 R328): records at the anchor that the mode gives, or the elements as they are. -/
def stageData (s : State) (g id : Nat) (c : Coll) : Stage :=
  collSource s g id c (fun s bs =>
    let d := c.desc
    let out :=
      if Ce.op d == 7 then bytesLE 2 (expBits (maxExp (collVals d bs)))
      else if Ce.records d && Ce.fmt d != 0x1F then
        let exps := (List.range c.members.length).map (fun r => stepData c 2 r)
        let anchor := fun (i : Nat) => if Ce.mode d == 1
          then autoAnchor (exps.foldl (fun m e => maxOpt m (expOf (natLE ((e.drop (2 * i)).take 2)))) none) (some 0) (Ce.terms d)
          else Ce.anchor d
        ((collVals d bs).zipIdx).flatMap (fun v => bytesLE 32 ((A192.cleared (anchor v.2)).addTerm v.1).toRec.toNat)
      else bs
    .on (sendStep s g id c 3 out))

/-- The exponents of the pre-pass. -/
def stageExps (s : State) (g id : Nat) (c : Coll) : Stage :=
  collSource s g id c (fun s bs => .on (sendStep s g id c 2 ((collVals c.desc bs).flatMap (fun v => bytesLE 2 (expBits v.exponent?)))))

/-- One element reduced over the members (11 R328, 02 R41 to R43, 07 R197): its bits and flags; none where records' anchors differ. -/
def collElem (d : BitVec 1024) (rd : Rnd) (ws : List Nat) : Option (Nat × Nat) :=
  match Fmt.ofCode (Ce.fmt d), Fmt.ofCode (Ce.fmtOut d) with
  | some f, some o =>
    if Ce.red d != 0 then some (segMinMax f (Ce.red d == 1) ws, 0)
    else if Ce.records d then
      let rs := ws.map (fun x => A192.ofRec (BitVec.ofNat 256 x))
      let want := if Ce.mode d == 0 then Ce.anchor d else (rs.head?.map (fun r => r.anchor.toInt)).getD (-4096)
      if rs.any (fun r => r.anchor.toInt != want) then none
      else
        let a := rs.foldl A192.addRec (A192.cleared want)
        some (if o == .a192 then (a.toRec.toNat, 0) else a.readOut o rd)
    else some ((ws.foldl (· + ·) 0) % 2 ^ f.width, 0)
  | _, _ => some (0, 0)

/-- What a member writes to DST, with the flags of its read-outs; none where records mismatch. -/
def collResult (s : State) (c : Coll) (me : Nat) : Option (List Byte × Nat) :=
  let d := c.desc
  let p := c.members.length
  let all := (List.range p).map (fun r => stepData c 3 r)
  match Ce.op d with
  | 3 => some (stepData c 3 (c.members.findIdx (· == Ce.root d)), 0)
  | 4 => some (packElems (Ce.width (Ce.fmt d)) (all.flatMap (fun bs => unpackElems (Ce.width (Ce.fmt d)) (Ce.count d) bs)), 0)
  | 6 => some ([], 0)
  | 7 => some (bytesLE 8 (expBits (all.foldl (fun m e => maxOpt m (expOf (natLE e))) none)), 0)
  | op =>
    let els := all.map (fun bs => unpackElems (Ce.unit d 3) (Ce.count d) bs)
    let n := if op == 5 then Ce.count d / max p 1 else Ce.count d
    let lo := if op == 5 then n * c.members.findIdx (· == me) else 0
    let seed := ((Tbl.find s.work.cmds c.cmd).map (·.seed)).getD 0#64
    let mode := (RMode.ofCode (Ce.rnd d)).getD .rne
    let outs := (List.range n).map (fun i =>
      collElem d { mode, sat := Ce.sat d, r := srDrawIndex seed (Ce.stream d) (Ce.origin d + lo + i) } (els.map (fun e => e.getD (lo + i) 0)))
    if outs.any (·.isNone) then none
    else
      let rs := outs.filterMap id
      some (packElems (Ce.width (Ce.fmtOut d)) (rs.map (·.1)), rs.foldl (fun a r => a ||| r.2) 0)

/-- DST written, and DONE sent to the publisher (11 R330). -/
def stageResult (s : State) (g id : Nat) (c : Coll) : Stage :=
  let me := s.fab.deviceId
  let d := c.desc
  match if Ce.writes d me then collResult s c me else some ([], 0) with
  | none => .wait (failCollAll s g id Status.anchorOverflow.code)
  | some (bs, exc) =>
    let fin := fun (s : State) =>
      let st := if Ce.trapAo d && exc &&& Exc.ao != 0 then Status.anchorOverflow.code else 0
      let rank := c.members.findIdx (· == me)
      let pub := Ce.publisher d c.members
      let c := { c with step := 4, exc, trapped := if c.trapped == 0 then st else c.trapped, done := if pub == me then NSet.ins c.done rank else c.done }
      let s := setColl s g id c
      Stage.on (if pub == me then s else sendColl s c pub 4 st 0 [])
    if bs.isEmpty then fin s
    else match collLookup s g id c [(1, Ce.dst d, bs.length)] with
      | (s, none) => .wait s
      | (s, some es) =>
        if es.any (fun e => leafRemote e.leaf) then .wait (failCollAll s g id Status.permission.code)
        else match vWrite s (collView g c es) [(Ce.dst d, bs.length)] (clean bs) with
          | .wait s => .wait s
          | .bad s _ => .wait (failCollAll s g id Status.permission.code)
          | .ok s _ => fin (chargeColl s c { stackWr := bs.length })

/-- The publish step, once the publisher holds every DONE: COMPLETE goes to every member (11 R330, 07 R207). -/
def stagePublish (s : State) (g id : Nat) (c : Coll) : Stage :=
  let d := c.desc
  let complete := fun (s : State) =>
    let s := (c.others s.fab.deviceId).foldl (fun s dst => sendColl s c dst 5 c.trapped 0 []) s
    Stage.wait (endColl s g id c.trapped s.fab.deviceId)
  if Ce.pubOp d == 0 then complete s
  else match collLookup s g id c [(if Ce.pubOp d == 2 then 3 else 1, Ce.pubAddr d, 8)] with
    | (s, none) => .wait s
    | (s, some es) =>
      let v := collView g c es
      let put := fun (s : State) => match vWrite s v [(Ce.pubAddr d, 8)] (clean (bytesLE 8 (Ce.pubValue d))) with
        | .ok s _ => complete s
        | .wait s => .wait s
        | .bad s _ => .wait (failCollAll s g id Status.permission.code)
      if es.any (fun e => leafRemote e.leaf) then .wait (failCollAll s g id Status.permission.code)
      else if Ce.pubOp d == 1 then put s
      else match vPrepare s v true [(Ce.pubAddr d, 8)] with
        | .wait s => .wait s
        | .bad s _ => .wait (failCollAll s g id Status.permission.code)
        | .ok s ds =>
          let (s, bs) := vTake s v ds
          if tainted bs then .wait (failCollAll s g id Status.parityUnrecovered.code)
          else if natLE (bytesOf bs) == Ce.pubExpect d then put s
          else .wait (failCollAll s g id Status.aborted.code)

/-- One stage of an open collective. -/
def collStage (s : State) (g id : Nat) (final : Bool) : Stage :=
  match findColl s g id with
  | none => .wait s
  | some c =>
    let me := s.fab.deviceId
    match c.bad with
    | some st => .wait (failCollAll s g id st)
    | none =>
      match c.step with
      | 0 => if c.started then stageFlags s g id c else .wait s
      | 1 =>
        if !stepFull me c 1 then .wait s
        else if sealDenied c then .wait (endColl s g id Status.denied.code me)
        else if Ce.prepass c.desc then stageExps s g id c
        else stageData s g id c
      | 2 => if stepFull me c 2 then stageData s g id c else .wait s
      | 3 => if final && stepFull me c 3 then stageResult s g id c else .wait s
      | _ => if Ce.publisher c.desc c.members == me && decide (c.done.length ≥ c.members.length) then stagePublish s g id c else .wait s

/-- A collective taken as far as it goes now. -/
def collRun (s : State) (g id : Nat) (final : Bool) : Nat → State
  | 0 => s
  | n + 1 => match collStage s g id final with
    | .on s => collRun s g id final n
    | .wait s => s

def collStages : Nat := 6

/-- START_AT reached, or passed when the descriptor arrives (11 R329). -/
def collBegin (s : State) (g id : Nat) : State :=
  match findColl s g id with
  | some c => collRun (setColl s g id { c with started := true }) g id false collStages
  | none => s

/-! Arriving packets (11 R329 to R331). -/

/-- The engine that serves a Volume on this part: that of the group of the lowest port it binds (11 R325); none where it binds none. -/
def volumePorts (s : State) (m : VolMap) : Nat := ((ownEntry s m).map (·.ports)).getD 0
def lowestPort (ports : Nat) : Option Nat := (List.range 24).find? (fun q => bitsAt ports q 1 == 1)

/-- A packet of a collective that is open here. -/
def collPacket (s : State) (g id : Nat) (c : Coll) (p : Packet) : State :=
  let from_ := Pk.src p.hdr
  let d := c.desc
  let rank := c.members.findIdx (· == from_)
  let step := Ce.pStep p
  let s := chargeColl s c { fabRx := pktSize p }
  if !c.members.contains from_ then s
  else if step == 6 then endColl s g id (Ce.pStatus p) from_
  else if Ce.pCheck p != Ce.check d (Ce.epoch d) then
    let st := if Ce.pCheck p == Ce.check d (Pk.epoch p.hdr) then Status.staleEpoch.code else Status.aborted.code
    failCollAll (ceEvent s g st (some 24) (2 ^ ctxPart c.key)) g id st
  else if s.now > Ce.deadline d then failCollAll s g id Status.timeout.code
  else if step == 5 then (if from_ == Ce.publisher d c.members then endColl s g id (Ce.pStatus p) from_ else s)
  else if step == 4 then
    collRun (setColl s g id { c with done := NSet.ins c.done rank, trapped := if c.trapped == 0 then Ce.pStatus p else c.trapped }) g id false collStages
  else if 1 ≤ step && step ≤ 3 then
    let k := step * 65536 + rank
    let (offs, m) := Tbl.getD c.got k ([], [])
    let off := Pk.addr p.hdr
    let c := { c with got := Tbl.put c.got k (NSet.ins offs off, Mem.writeN m (off * Ce.unit d step / 8) (Ce.pData p)) }
    collRun (setColl s g id c) g id false collStages
  else s

/-- Bytes of packets held for descriptors not yet posted. -/
def heldBytes (e : CollEngine) : Nat := e.held.foldl (fun n p => n + pktSize p) 0

/-- A packet that reaches an engine: one of an open collective is taken; one before its descriptor is held within the buffer; one that the
epoch check refuses ends its sender's collective with STALE_EPOCH (10 R287, R289, 11 R329, R331). -/
def collArrive (s : State) (g : Nat) (p : Packet) : State :=
  let id := Ce.key (Pk.volume p.hdr) (Ce.pId p)
  match findColl s g id with
  | some c => collPacket s g id c p
  | none =>
    if Ce.pStep p ≥ 5 && !(s.fab.engine g).held.any (fun h => Ce.key (Pk.volume h.hdr) (Ce.pId h) == id) then s
    else
      let (s, m) := epochMap s (Pk.volume p.hdr) (Pk.epoch p.hdr)
      match m with
      | none =>
        if Tbl.has s.vols.vols (Pk.volume p.hdr) then
          let payload := p.payload.take 12 ++ [6#8, BitVec.ofNat 8 Status.staleEpoch.code, 0#8, 0#8]
          let h := p.hdr
          injectPacket s { hdr := Pk.make (Pk.src h) (Pk.dst h) 6 (Pk.volume h) (Pk.epoch h) 0 payload.length 0 0 (Pk.deadline h), payload }
        else s
      | some _ =>
        let e := s.fab.engine g
        if heldBytes e + pktSize p > 0x400000 then
          if bitsAt e.status.toNat 25 1 == 1 then s else ceEvent s g (bitsAt e.status.toNat 16 8) (some 25) 0
        else setEngine s g { e with held := e.held ++ [p] }

/-- Whether a COLL packet is well formed (11 R314, R322). -/
def collOk (p : Packet) : Bool :=
  Pk.ptype p.hdr == 6 && Pk.reservedClear p.hdr && Pk.len p.hdr == p.payload.length && decide (16 ≤ p.payload.length)
    && decide (1 ≤ Ce.pStep p) && decide (Ce.pStep p ≤ 6)

/-- COLL: a packet arrives on a port; one for another part goes on, one for this part reaches the engine of its Volume (11 R318, R325, R329). -/
def execColl (port : FabricPort) (pkt : Packet) (s : State) : Out :=
  if !portUp s port then .next s
  else if Pk.dst pkt.hdr != s.fab.deviceId then .next (forwardPacket s port pkt)
  else if Pk.ptype pkt.hdr != 6 then .next s
  else if !collOk pkt then .next (fabEvent (s.modFab (fun f => { f with malformed := satInc f.malformed })) 18 2)
  else
    let id := Ce.key (Pk.volume pkt.hdr) (Ce.pId pkt)
    match (List.range 4).find? (fun g => (findColl s g id).isSome) with
    | some g => .next (collArrive s g pkt)
    | none => match (Tbl.find s.vols.vols (Pk.volume pkt.hdr)).bind (·.cur) with
      | some m => .next (collArrive s (portGroup ((lowestPort (volumePorts s m)).getD 0)) pkt)
      | none => .next s

/-- A control packet of one step that reaches an engine. -/
def collControl (s : State) (g step : Nat) (p : Packet) : State :=
  if Pk.dst p.hdr == s.fab.deviceId && collOk p && Ce.pStep p == step then collArrive s g p else s

/-- COLL_DONE (11 R330). -/
def execCollDone (engine : Fin 4) (pkt : Packet) (s : State) : Out := .next (collControl s engine 4 pkt)
/-- COLL_COMPLETE (11 R330). -/
def execCollComplete (engine : Fin 4) (pkt : Packet) (s : State) : Out := .next (collControl s engine 5 pkt)
/-- COLL_ABORT (11 R331). -/
def execCollAbort (engine : Fin 4) (pkt : Packet) (s : State) : Out := .next (collControl s engine 6 pkt)

/-! The operations (11 R327): each takes its collective as far as what has arrived allows. -/

def collOp (s : State) (g id op : Nat) : State :=
  match findColl s g id with
  | some c => if Ce.op c.desc == op then collRun s g id true collStages else s
  | none => s

/-- ALLREDUCE (11 R327, R328). -/
def execAllreduce (engine : Fin 4) (id : Nat) (s : State) : Out := .next (collOp s engine id 1)
/-- REDUCE (11 R327, R328). -/
def execCollReduce (engine : Fin 4) (id : Nat) (s : State) : Out := .next (collOp s engine id 2)
/-- BROADCAST (11 R327). -/
def execBroadcast (engine : Fin 4) (id : Nat) (s : State) : Out := .next (collOp s engine id 3)
/-- ALLGATHER (11 R327). -/
def execAllgather (engine : Fin 4) (id : Nat) (s : State) : Out := .next (collOp s engine id 4)
/-- REDUCE_SCATTER (11 R327, R328). -/
def execReduceScatter (engine : Fin 4) (id : Nat) (s : State) : Out := .next (collOp s engine id 5)
/-- BARRIER (11 R327). -/
def execBarrier (engine : Fin 4) (id : Nat) (s : State) : Out := .next (collOp s engine id 6)
/-- EXP_MAX (11 R327). -/
def execExpMax (engine : Fin 4) (id : Nat) (s : State) : Out := .next (collOp s engine id 7)

/-- COLL_START_AT: START_AT is reached (11 R329). -/
def execCollStartAt (engine : Fin 4) (id : Nat) (s : State) : Out :=
  match findColl s engine id with
  | some c => .next (collBegin (reach s (Ce.startAt c.desc)) engine id)
  | none => .next s

/-- COLL_DEADLINE: it ends with TIMEOUT here, and ABORT tells the others (11 R331, 12 R344). -/
def execCollDeadline (engine : Fin 4) (id : Nat) (s : State) : Out :=
  match findColl s engine id with
  | some c => .next (failCollAll (reach s (Ce.deadline c.desc + 1)) engine id Status.timeout.code)
  | none => .next s

/-- A descriptor handed to its engine: packets held for it are taken, and it starts at once where START_AT has passed (11 R329). -/
def openColl (s : State) (g : Nat) (c : Coll) : State :=
  let id := Ce.keyOf c.desc
  let mine := fun (p : Packet) => Ce.key (Pk.volume p.hdr) (Ce.pId p) == id
  let e := s.fab.engine g
  let s := setEngine s g { e with open_ := Tbl.put e.open_ id c, held := e.held.filter (fun p => !mine p) }
  let s := (e.held.filter mine).foldl (fun s p => collArrive s g p) s
  if s.now ≥ Ce.startAt c.desc then collBegin s g id else s

/-- Every open collective that a test picks ended with a status on every member, where it has not reached its publish step (11 R331, 13 R395, 18 R508). -/
def endColls (s : State) (status : Nat) (pick : Coll → Bool) : State :=
  (List.range 4).foldl (fun s g => (s.fab.engine g).open_.foldl (fun s c => if pick c.2 then failCollAll s g c.1 status else s) s) s

/-- A member reported failed: collectives that name it end with STATE_LOST, but for one whose DONE this member has sent to a publisher that
stands (11 R331). -/
def collPeerFailed (s : State) (device : Nat) : State :=
  let me := s.fab.deviceId
  endColls s Status.stateLost.code (fun c =>
    c.members.contains device && !(c.step == 4 && Ce.publisher c.desc c.members != device && Ce.publisher c.desc c.members != me))

end Sys2Proof.Machine
end

