-- ==== Sys2Proof/Machine/Mgmt.lean ====
section
/-! DEFINITION. MGMT packets between Registrars (15_registrar.md R439). -/

namespace Sys2Proof.Machine

/-! The header of a MGMT payload, and its fields (15 R439). -/
namespace Mg
def mtype (p : Packet) : Nat := natLE (p.payload.take 1)
def bodyLen (p : Packet) : Nat := natLE ((p.payload.drop 2).take 2)
def seq (p : Packet) : Nat := natLE ((p.payload.drop 4).take 4)
/-- Bits of the word at a payload offset. -/
def f (p : Packet) (off lo w : Nat) : Nat := bitsAt (natLE ((p.payload.drop off).take 8)) lo w
end Mg

/-- A MGMT packet sent to a device, with its sequence number: by the fabric, or within the part. -/
def sendMgmt (s : State) (dst mtype : Nat) (body : List Byte) : State × Nat :=
  let n := s.fab.mgmtSeq
  let s := s.modFab (fun f => { f with mgmtSeq := (n + 1) % 2 ^ 32 })
  let payload := bytesLE 4 (mtype + put body.length 16 16) ++ bytesLE 4 n ++ bytesLE 8 0 ++ body
  let p : Packet := { hdr := Pk.make dst s.fab.deviceId 8 0 0 0 payload.length 0 0 0, payload }
  if dst == s.fab.deviceId then (s.modFab (fun f => { f with mgmtIn := f.mgmtIn ++ [(s.now, p)] }), n)
  else (injectPacket s p, n)

/-- The oldest MGMT packet of a type taken from those that have arrived, with its arrival stamp. -/
def takeMgmt (s : State) (ok : Packet → Bool) : Option (Nat × Packet × State) :=
  match s.fab.mgmtIn.find? (fun m => ok m.2) with
  | some (t, p) => some (t, p, s.modFab (fun f => { f with mgmtIn := f.mgmtIn.erase (t, p) }))
  | none => none

/-- MGMT: a packet reaches the Registrar, which keeps its arrival stamp; one with a reserved MTYPE is discarded and counted (15 R439, 11 R322). -/
def execMgmt (port : FabricPort) (pkt : Packet) (s : State) : Out :=
  match forRegistrar s 8 port pkt with
  | .error s => .next s
  | .ok _ =>
    if pkt.payload.length < 16 || !decide (1 ≤ Mg.mtype pkt ∧ Mg.mtype pkt ≤ 5) then
      .next (s.modFab (fun f => { f with malformed := satInc f.malformed }))
    else .next (s.modFab (fun f => { f with mgmtIn := f.mgmtIn ++ [(s.now, pkt)] }))

end Sys2Proof.Machine
end

