-- ==== Sys2Proof/Machine/Power.lean ====
section
/-! DEFINITION. Time transfer over links, Bay clocks, power epochs and the Volume vote, limits, boost and the thermal throttle (12_time_and_power.md R338 to R365). -/

namespace Sys2Proof.Machine

/-! Events and Bay clocks (12 R347, R363, R367). -/

/-- A flag of PWR_STATUS, reported Corrected to function 0; in isolated mode a device-level event without a cause goes to the partition
functions (12 R363, R367). -/
def pwrEvent (s : State) (b : Nat) : State :=
  let r := statusFlag s.pwr.status b
  let s := postError (s.modPwr (fun p => { p with status := r })) { block := 13, inst := 0, cause := b, sev := 0, off := 0x100, seq := evtSeq r, reg := r.toNat }
  if s.isolated then (List.range s.mode).foldl (fun s p => postEvent s (p + 1) 13 0 0 0) s else s

/-- A Bay's clock rewritten. -/
def modBayPwr (s : State) (b : Nat) (f : BayPwr → BayPwr) : State := s.modPwr (fun p => p.setBay b (f (p.bay b)))
def modPwrVol (s : State) (h : Nat) (f : PwrVol → PwrVol) : State := s.modPwr (fun p => p.setVol h (f (p.vol h)))

/-- The Volumes of which this part is a member, with its entry in the current map. -/
def myVolumes (s : State) : List (Nat × VolMap × VolMember) :=
  s.vols.vols.filterMap (fun v => v.2.cur.bind (fun m => if isRouting v.1 then none else (ownEntry s m).map (fun e => (v.1, m, e))))

/-- Ticks of a power epoch (12 R349). -/
def epochNs : Nat := 2 ^ 20

/-- The epoch in which the next of a kind of event falls: the present one, unless it has taken place (12 R343, R349). -/
def nextEpoch (s : State) (done : Option Nat) : Nat := match done with
  | some d => max (s.now / epochNs) (d + 1)
  | none => s.now / epochNs

/-! Sources of time (12 R338 to R342). -/

/-- The DS_SET command that waits for the step answers (15 R435). -/
def answerDsSet (s : State) (made : Bool) : State :=
  match s.pwr.dsCmd with
  | none => s
  | some i => mbFinish (s.modPwr (fun p => { p with dsCmd := none })) 0 i (if made then 0 else Status.aborted.code) (if made then 0 else 0x10)

/-- SYNC_IN: a rising edge stamped at the land, accepted or rejected; an accepted one makes an armed step (12 R338, R342). -/
def execSyncIn (stamp : DWord) (s : State) : Out :=
  let t := syncPulse s stamp.toNat
  .next (if s.pwr.dsArmed && !t.pwr.dsArmed then answerDsSet t (stepAllowed s) else t)

/-- TIME_FLIT: authenticated; its stamps are taken, and on an Otfold port it is a bad message (12 R339, R340, 16 R444). -/
def execTimeFlit (port : LinkNo) (flit : BitVec 2048) (s : State) : Out :=
  match takeFlit s port 3 flit with
  | (s, none) => .next s
  | (s, some bs) =>
    if port.val ≥ 24 then .next (s.modOt (fun o => let x := o.port (port.val - 24); o.setPort (port.val - 24) { x with badMessages := satInc x.badMessages }))
    else
      let q := leaderOf s port
      .next (takeTime s q (((s.fport q).peer.map (·.1)).getD 0) bs)

/-- TIME_FLIT_SEND: Datestamp at a multiple of 16,384 ns; a link that is UP sends its TIME flit (12 R339). -/
def execTimeFlitSend (port : FabricPort) (s : State) : Out :=
  let q := leaderOf s port
  if !portUp s q then .next s
  else
    let l := s.pwr.link q
    let t := if l.sentAt == 0 then alignUp s.now 16384 else max (alignDown s.now 16384) (l.sentAt + 16384)
    let s := reach s t
    let s := s.modPwr (fun p => { p with links := Tbl.put p.links q { p.link q with sentAt := t } })
    .next (linkSend s q 3 (timePayload s q))

/-- DS_SET: the step value written and armed; the command answers at the next accepted pulse (12 R342, 15 R435, R437). -/
def execDsSet (slot : MbSlot) (s : State) : Out :=
  .next (mbCommand s slot 8 (fun _ => true)
    (fun _ _ => { fields := [(0x10, 0, 64)], permitted := slot.fn.val == 0 })
    (fun s c => .going (s.modPwr (fun p => { p with dsSet := BitVec.ofNat 64 (c.f 0x10 0 64), dsArmed := true, dsCmd := some c.index })) 0)
    (fun s c =>
      if s.pwr.dsCmd == some c.index && s.now < c.readAt + 1100 * ms then .going s 0
      else .done (s.modPwr (fun p => if p.dsCmd == some c.index then { p with dsArmed := false, dsCmd := none } else p)) Status.aborted.code 0x10 []))

/-! Predicted power (12 R355, R358, R364). -/

/-- The predicted arithmetic power per Bay at code 50 of a phase class, in mW (12 R355). -/
def classPower (cls : Nat) : Nat := match cls with | 1 => 5000 | 2 => 9000 | 3 => 15000 | 4 => 17000 | _ => 20500

/-- The hint that overlaps an epoch, where hints count (12 R355). -/
def hintFor (s : State) (h k : Nat) : Option PwrHint :=
  if bitsAt s.pwr.ctrl.toNat 2 1 == 0 || s.isolated then none
  else (s.pwr.hints.filter (fun x => x.volume == h && x.cls != 0 && decide (x.start < (k + 1) * epochNs)
    && decide (k * epochNs < x.start + x.epochs * epochNs))).getLast?

/-- nJ of an epoch as mW. -/
def epochPower (nj : Nat) : Nat := nj * 1000 / epochNs

/-- A Volume's predicted power in epoch k at a code, in mW: its hint's figure, or its last epoch's energy scaled to the code. -/
def volPower (s : State) (hints : Bool) (h bays k code : Nat) : Nat :=
  let v := s.pwr.vol h
  match if hints then hintFor s h k else none with
  | some x => bays * classPower x.cls * Config.powerScale code / max 1 (Config.powerScale 50)
  | none => epochPower v.energyLast * Config.powerScale code / max 1 (Config.powerScale v.code)

/-- Bays of an entry in service. -/
def entryBays (e : VolMember) : List Nat := (maskList e.bays 32).filter (fun b => bitsAt e.bayDown b 1 == 0)

/-- The part's predicted power in epoch k at candidate codes. -/
def partPower (s : State) (hints : Bool) (k : Nat) (codes : Tbl Nat) : Nat :=
  (myVolumes s).foldl (fun n v => n + volPower s hints v.1 (entryBays v.2.2).length k (Tbl.getD codes v.1 0)) (epochPower s.pwr.restLast)

/-- Samples of a window's length, and its average in mW; what has not been sampled counts as 0 (12 R356). -/
def window4 : Nat := 4000
def window2 : Nat := 2000000
def window60 : Nat := 60000000
def windowAvg (s : State) (n : Nat) : Nat := (s.pwr.samples.take n).foldl (· + ·) 0 / n

/-- The limits of the 2 s and 60 s windows under a cap, in mW (12 R356, R361). -/
def limit2 (cap : Nat) : Nat := min 1150 (cap + 150) * 1000
def limit60 (cap : Nat) : Nat := cap * 1000

/-- Whether an epoch of so much power keeps a window within a limit. -/
def windowFits (s : State) (n limit mw : Nat) : Bool :=
  decide (((s.pwr.samples.take (n - 1048)).foldl (· + ·) 0 + 1048 * mw) / n ≤ limit)

/-- Whether a predicted power keeps every window, and the 1,000 W of a 2 s clip (12 R357, R364). -/
def powerFits (s : State) (cap mw : Nat) : Bool :=
  windowFits s window4 1400000 mw && windowFits s window2 (limit2 cap) mw && windowFits s window60 (limit60 cap) mw
    && (!s.pwr.clip2 || decide (mw ≤ 1000000))

/-- The Volume to lower: highest candidate code above the floor, then higher predicted power, then lower handle (12 R364). -/
def volToLower (s : State) (hints : Bool) (k floor : Nat) (codes : Tbl Nat) : Option Nat :=
  ((myVolumes s).foldl (fun (acc : Option (Nat × Nat × Nat)) v =>
    let c := Tbl.getD codes v.1 0
    let p := volPower s hints v.1 (entryBays v.2.2).length k c
    if c ≤ floor then acc
    else match acc with
      | none => some (v.1, c, p)
      | some a => if c > a.2.1 || (c == a.2.1 && (p > a.2.2 || (p == a.2.2 && v.1 < a.1))) then some (v.1, c, p) else acc) none).map (·.1)

/-- Candidate codes lowered one at a time while the prediction breaks a window; under a cap below 1,000 W without the floor of 44 (12 R361, R364). -/
def lowerCodes (s : State) (hints : Bool) (cap k : Nat) (codes : Tbl Nat) : Nat → Tbl Nat
  | 0 => codes
  | n + 1 =>
    if powerFits s cap (partPower s hints k codes) then codes
    else match volToLower s hints k (if cap < 1000 then 0 else 44) codes with
      | some h => lowerCodes s hints cap k (Tbl.upd codes h (· - 1)) n
      | none => codes

/-! The vote (12 R349 to R353, R358, R360, R363). -/

/-- The hottest sensor of a Volume's Bays on this part. -/
def volTemp (s : State) (e : VolMember) : Nat := (maskList e.bays 32).foldl (fun t b => max t (s.pwr.bay b).temp) 0

/-- The throttle code at a vote (12 R360). -/
def nextThrottle (old temp : Nat) : Nat := if temp ≥ 100 then old - 2 else if temp ≤ 97 then min 58 (old + 1) else old

/-- The conditions of R358 for a Volume, its prediction at its highest code (12 R358). -/
def boostGranted (s : State) (h k : Nat) (codes : Tbl Nat) : Bool :=
  let v := s.pwr.vol h
  let mw := partPower s true k (Tbl.put codes h (min v.target v.throttle))
  bitsAt s.pwr.ctrl.toNat 0 1 == 1 && decide (v.target > 50) && !s.isolated && !s.pwr.worn && decide (s.pwr.boostHold ≤ k) && !s.pwr.clip2
    && windowFits s window2 (limit2 s.pwr.cap) mw && windowFits s window60 (limit60 s.pwr.cap) mw

/-- What a Volume's vote would be but for the power allowance, and its source (12 R350, R357). -/
def baseVote (v : PwrVol) (boost : Bool) : Nat × Nat :=
  let srcs := [(v.target, 0), (if boost then 58 else 50, 1), (v.allow.getD 58, 2), (v.throttle, 3)]
  srcs.foldl (fun a x => if x.1 < a.1 then x else a) (v.target, 0)

/-- This part's votes for epoch k: handle, code and reason (12 R350, R355, R364). -/
def votesFor (s : State) (k : Nat) : List (Nat × Nat × Nat × Bool) :=
  let vs := myVolumes s
  if s.isolated then vs.map (fun v => (v.1, 44, 0, false))
  else
    let plain : Tbl Nat := vs.foldl (fun t v => Tbl.put t v.1 (baseVote (s.pwr.vol v.1) false).1) []
    let boosts := vs.map (fun v => (v.1, boostGranted s v.1 k plain))
    let base : Tbl Nat := boosts.foldl (fun t v => Tbl.put t v.1 (baseVote (s.pwr.vol v.1) v.2).1) []
    let fuel := 59 * vs.length
    let final := lowerCodes s true s.pwr.cap k base fuel
    let noCap := lowerCodes s true 1000 k base fuel
    let noHint := lowerCodes s false s.pwr.cap k base fuel
    boosts.map (fun v =>
      let c := Tbl.getD final v.1 0
      let b := baseVote (s.pwr.vol v.1) v.2
      let reason := if c == b.1 then b.2 else if c < Tbl.getD noCap v.1 0 then 5 else if c < Tbl.getD noHint v.1 0 then 4 else 2
      (v.1, c, reason, v.2))

/-- The tree of a Volume's votes (12 R351, 10 R283). -/
def voteTree (m : VolMap) : List Nat := treeOf (some m) none m.coord

/-- The lower of two votes; on a tie the lower device (12 R351). -/
def lowerVote (a b : PwrVote) : PwrVote := if b.code < a.code || (b.code == a.code && b.device < a.device) then b else a

/-- The body of a vote or a decision (15 R439). -/
def voteBody (h k kind code reason device : Nat) : List Byte :=
  bytesLE 4 h ++ bytesLE 4 k ++ bytesLE 4 (kind + put code 8 7 + put reason 16 3) ++ bytesLE 4 (device % 2 ^ 14)

/-- A relay's subtree vote passed up once its own and every child's are held (12 R351). -/
def passVote (s : State) (h k : Nat) : State :=
  match (Tbl.find s.vols.vols h).bind (·.cur) with
  | none => s
  | some m =>
    let v := s.pwr.vol h
    let t := voteTree m
    let kids := treeChildren t s.fab.deviceId
    match treeParent t s.fab.deviceId, v.own with
    | some up, some own =>
      let held := kids.filterMap (fun d => (Tbl.find v.held d).filter (fun x => x.epoch == k))
      if own.epoch != k || v.passed == k || held.length < kids.length then s
      else
        let w := held.foldl lowerVote own
        (sendMgmt (modPwrVol s h (fun v => { v with passed := k })) up 1 (voteBody h k 0 w.code w.reason w.device)).1
    | _, _ => s

/-- The highest-coded Volumes' allowance lowered by one code in stage 4 (12 R357). -/
def stage4 (s : State) : State :=
  if !s.pwr.clip60 then s
  else
    let best := (myVolumes s).foldl (fun (acc : Option (Nat × Nat)) v =>
      let c := (s.pwr.vol v.1).code
      if c ≤ 44 then acc else match acc with | some a => if c > a.2 then some (v.1, c) else acc | none => some (v.1, c)) none
    match best with
    | some (h, c) => modPwrVol s h (fun v => { v with allow := some (c - 1) })
    | none => s

/-- VOTE_INSTANT: throttle codes move, votes for the next epoch are computed, and members send them (12 R349, R350, R353, R360). -/
def execVoteInstant (s : State) : Out :=
  let k := nextEpoch s s.pwr.voteDone
  let s := reach s (k * epochNs + 262144)
  let s := s.modPwr (fun p => { p with voteDone := some k })
  let s := (myVolumes s).foldl (fun s v => modPwrVol s v.1 (fun x => { x with throttle := nextThrottle x.throttle (volTemp s v.2.2) })) s
  let s := stage4 (noteAlerts s)
  .next ((votesFor s (k + 1)).foldl (fun s v =>
    let old := s.pwr.vol v.1
    let s := modPwrVol s v.1 (fun x => { x with own := some { epoch := k + 1, code := v.2.1, reason := v.2.2.1, device := s.fab.deviceId }, boost := v.2.2.2 })
    let s := if v.2.2.2 && !old.boost then pwrEvent s 16 else s
    let s := if old.throttle < old.target && !s.isolated then pwrEvent s 21 else s
    passVote s v.1 (k + 1)) s)

/-- A message about a vote or a decision, of a Volume of which this part is a member. -/
def voteMessage (kind : Nat) (p : Packet) : Bool := Mg.mtype p == 1 && Mg.f p 0x18 0 1 == kind

/-- The epoch that the low 32 bits name, near the present one (12 R351). -/
def epochOf (s : State) (low : Nat) : Nat :=
  let k := s.now / epochNs
  let d := (low + 2 ^ 32 - k % 2 ^ 32) % 2 ^ 32
  if d < 2 ^ 31 then k + d else k + d - 2 ^ 32

/-- POWER_VOTE: a child's vote is held, and a relay passes its subtree's up; one that arrives after the deadline is discarded (12 R344, R351). -/
def execPowerVote (s : State) : Out :=
  match takeMgmt s (voteMessage 0) with
  | none => .next s
  | some (stamp, p, s) =>
    let h := Mg.f p 0x10 0 32
    let k := epochOf s (Mg.f p 0x14 0 32)
    match (Tbl.find s.vols.vols h).bind (·.cur) with
    | none => .next s
    | some m =>
      let src := Pk.src p.hdr
      if !(treeChildren (voteTree m) s.fab.deviceId).contains src || k == 0 || stamp > (k - 1) * epochNs + 786432 then .next s
      else
        let w : PwrVote := { epoch := k, code := Mg.f p 0x18 8 7, reason := Mg.f p 0x18 16 3, device := Mg.f p 0x1C 0 14 }
        .next (passVote (modPwrVol s h (fun v => { v with held := Tbl.put v.held src w, last := Tbl.put v.last src w.code })) h k)

/-- VOTE_DEADLINE: the coordinator decides the lowest vote; a missing one counts as the lower of the device's last vote and 44 (12 R349, R351). -/
def execVoteDeadline (handle : Word) (s : State) : Out :=
  let h := handle.toNat
  match (Tbl.find s.vols.vols h).bind (·.cur) with
  | none => .next s
  | some m =>
    let me := s.fab.deviceId
    let v := s.pwr.vol h
    let k := if v.decided == 0 then s.now / epochNs else max (s.now / epochNs) v.decided
    if m.coord != me || !memberOf m me then .next s
    else
      let s := reach s (k * epochNs + 786432)
      let kids := treeChildren (voteTree m) me
      let missing := fun (d : Nat) => ({ epoch := k + 1, code := min 44 (Tbl.getD v.last d 44), reason := 6, device := d } : PwrVote)
      let vote := fun (d : Nat) => match Tbl.find v.held d with
        | some w => if w.epoch == k + 1 && !s.seq.peersDown.contains d then w else missing d
        | none => missing d
      let own := match v.own with
        | some w => if w.epoch == k + 1 then w else { epoch := k + 1, code := min 44 w.code, reason := 6, device := me }
        | none => { epoch := k + 1, code := min 44 v.code, reason := 6, device := me }
      let w := (kids.map vote).foldl lowerVote own
      let s := modPwrVol s h (fun v => { v with decided := k + 1, decide_ := some (k + 1, w.code) })
      .next ((m.members.filter (fun e => e.device != me)).foldl (fun s e => (sendMgmt s e.device 1 (voteBody h (k + 1) 1 w.code w.reason w.device)).1) s)

/-- DECIDE: a member takes the code for the next epoch, unless it arrives after the voltage offset (12 R349, R351). -/
def execDecide (s : State) : Out :=
  match takeMgmt s (voteMessage 1) with
  | none => .next s
  | some (stamp, p, s) =>
    let h := Mg.f p 0x10 0 32
    let k := epochOf s (Mg.f p 0x14 0 32)
    match (Tbl.find s.vols.vols h).bind (·.cur) with
    | none => .next s
    | some m =>
      if Pk.src p.hdr != m.coord || k == 0 || stamp > (k - 1) * epochNs + 948576 then .next s
      else .next (modPwrVol s h (fun v => { v with decide_ := some (k, Mg.f p 0x18 8 7) }))

/-- The code of a Volume for an epoch: the DECIDE, or without one the lower of the own vote and the current code (12 R352). -/
def codeFor (v : PwrVol) (k : Nat) : Nat :=
  let own := match v.own with | some w => min w.code v.code | none => v.code
  match v.decide_ with | some (e, c) => if e == k then c else own | none => own

/-- VOLTAGE_OFFSET: the regulators begin the next epoch's voltages (12 R346, R349, R352, R363). -/
def execVoltageOffset (s : State) : Out :=
  let k := nextEpoch s s.pwr.voltDone
  let s := reach s (k * epochNs + 948576)
  let s := s.modPwr (fun p => { p with voltDone := some k })
  let iso := s.isolated
  .next ((myVolumes s).foldl (fun s v =>
    let c := if iso then 44 else codeFor (s.pwr.vol v.1) (k + 1)
    let s := modPwrVol s v.1 (fun x => { x with decide_ := some (k + 1, c) })
    (entryBays v.2.2).foldl (fun s b => modBayPwr s b (fun x => { x with next := c })) s) s)

/-! Boost residency (12 R359). -/

/-- The rolling record in ns. -/
def boostRecord (p : Pwr) : Nat := p.boostPast.foldl (· + ·) p.boostNow

/-- BOOST_USED in s (12 R367). -/
def boostUsed (p : Pwr) : Nat := boostRecord p / 1000000000 % 2 ^ 17

/-- Residency summed up to now; a record of 12,960 s refuses boost (12 R359). -/
def accrueBoost (s : State) : State :=
  let on := (List.range 32).any (fun b => decide ((s.pwr.bay b).code > 50))
  let s := s.modPwr (fun p => { p with boostNow := if on then p.boostNow + (s.now - p.boostMark) else p.boostNow, boostMark := s.now })
  let worn := decide (boostRecord s.pwr ≥ 12960000000000)
  let new_ := worn && !s.pwr.worn
  let s := s.modPwr (fun p => { p with worn })
  if new_ then pwrEvent s 20 else s

/-- BOOST_BUCKET: a bucket of 900 s ends (12 R359). -/
def execBoostBucket (s : State) : Out :=
  let s := reach s ((s.pwr.boostMark / 900000000000 + 1) * 900000000000)
  let s := accrueBoost s
  .next (accrueBoost (s.modPwr (fun p => { p with boostPast := (p.boostNow :: p.boostPast).take 95, boostNow := 0 })))

/-! The epoch boundary (12 R346, R349, R353, R362, R363, R365, 14 R421). -/

/-- Tiles that occupy Bays. -/
def heldTiles (s : State) : List (Nat × Tile) := s.work.tiles.filter (fun t => t.2.step != 0)

/-- The energy of no count, a free value: charged to the contexts in proportion to their Bay-nanoseconds of the epoch, in isolated mode a fixed
share for each partition, and to the IDLE account where there is none (12 R365, 14 R418, 17 R490; assumption 3). -/
def sharedEnergy (s : State) : State :=
  let (n, s) := s.fresh
  let e := (Config.freeWord n).toNat % 2 ^ 40
  let ts := heldTiles s
  let start := s.pwr.boundary * epochNs
  let time := fun (t : Tile) => s.now - max t.runAt start
  let give := fun (s : State) (t : Tile) (x : Nat) => match Tbl.find s.work.cmds t.cmd with
    | some c => charge s c.job c.ctx { energyNj := x }
    | none => s
  let share := fun (s : State) (group : List (Nat × Tile)) (e : Nat) =>
    let total := group.foldl (fun n t => n + time t.2) 0
    let parts := group.map (fun t => (t.2, if total == 0 then 0 else e * time t.2 / total))
    let left := e - parts.foldl (fun n p => n + p.2) 0
    match parts with
    | [] => s.modWork (fun w => { w with idleNj := w.idleNj + e })
    | p :: rest => (((p.1, p.2 + left) :: rest).foldl (fun s p => give s p.1 p.2) s)
  let s := if s.isolated && s.mode != 0 then
      let s := (List.range s.mode).foldl (fun s p => share s (ts.filter (fun t => s.partOfBay t.2.bay == p)) (e / s.mode)) s
      s.modWork (fun w => { w with idleNj := w.idleNj + e % s.mode })
    else share s ts e
  s.modPwr (fun p => { p with modelNj := p.modelNj + e, restNow := p.restNow + e })

/-- Energy brought up to the boundary, and the epoch's figures kept for the next prediction (12 R364, R365). -/
def epochEnergy (s : State) : State :=
  let s := sharedEnergy ((heldTiles s).foldl (fun s t => tileEnergy s t.2) s)
  s.modPwr (fun p => { p with restLast := p.restNow, restNow := 0
                              vols := Tbl.mapV p.vols (fun _ v => { v with energyLast := v.energyNow, energyNow := 0 }) })

/-- ISOLATED and TDM take their new value together (06 R176, 12 R363). -/
def takeIsolation (s : State) : State :=
  match s.pwr.isoNext with
  | none => s
  | some on =>
    let s := s.modPwr (fun p => { p with ctrl := (p.ctrl &&& ~~~2#32) ||| (if on then 2#32 else 0#32), isoNext := none })
    (List.range 8).foldl (fun s k => s.modStack k (fun x => { x with mscCtrl := (x.mscCtrl &&& ~~~0x10000#32) ||| (if on then 0x10000#32 else 0#32) })) s

/-- Every Bay switches to its Volume's code; one bound to none runs at code 0, and in isolated mode all run at 44 (12 R345, R349, R363). -/
def switchCodes (s : State) (k : Nat) : State :=
  let iso := s.isolated
  let vs := myVolumes s
  let s := vs.foldl (fun s v =>
    let c := if iso then 44 else codeFor (s.pwr.vol v.1) k
    modPwrVol s v.1 (fun x => { x with code := c })) s
  (List.range 32).foldl (fun s b =>
    let c := if iso then 44 else match vs.find? (fun v => bitsAt v.2.2.bays b 1 == 1) with
      | some v => (s.pwr.vol v.1).code
      | none => 0
    if (s.pwr.bay b).code == c && (s.pwr.bay b).next == c then s else modBayPwr s b (fun x => { x with code := c, next := c })) s

/-- Stretches of a cap released once the codes in force fit it (12 R362). -/
def releaseCap (s : State) (k : Nat) : State :=
  let codes : Tbl Nat := (myVolumes s).foldl (fun t v => Tbl.put t v.1 (s.pwr.vol v.1).code) []
  if !s.pwr.capped || partPower s true k codes > s.pwr.cap * 1000 then s
  else
    let s := s.modPwr (fun p => { p with capped := false })
    if s.pwr.clip4 || s.pwr.clip2 then s else s.modPwr (fun p => { p with bays := Tbl.mapV p.bays (fun _ x => { x with clip := 0 }) })

/-- POWER_EPOCH_BOUNDARY: codes and the mode change, the epoch's energy is charged, and the Ledger is written to reserved stack memory
(12 R343, R346, R349, R363, 14 R421). -/
def execPowerEpochBoundary (s : State) : Out :=
  let k := nextEpoch s (some s.pwr.boundary)
  let s := reach s (k * epochNs)
  let s := accrueBoost (epochEnergy s)
  let s := s.modPwr (fun p => { p with boundary := k, hints := p.hints.filter (fun x => decide (k * epochNs < x.start + x.epochs * epochNs)) })
  let s := releaseCap (switchCodes (takeIsolation s) k) k
  .next (s.modWork (fun w => { w with
    ledgerSaved := w.jobs.map (fun (j : Nat × Job) => (j.1, j.2.counts)), ledgerCtxs := w.ctxs.map (fun (c : Nat × Ctx) => (c.1, c.2.counts))
    ledgerPart := w.partCounts, ledgerIdle := w.idleNj }))

/-! Limits (12 R356, R357, R361). -/

/-- The Bays on which a clip stretches: of the candidates below level 4 those with the highest code (12 R357). -/
def clipBays (s : State) (ok : BayPwr → Bool) : List Nat :=
  let bs := (List.range 32).filter (fun b => ok (s.pwr.bay b) && decide ((s.pwr.bay b).clip < 4))
  let top := bs.foldl (fun c b => max c (s.pwr.bay b).code) 0
  bs.filter (fun b => (s.pwr.bay b).code == top)

/-- One more level on the Bays of a clip; in isolated mode on every Bay (12 R357, R363). -/
def stretchClip (s : State) (ok : BayPwr → Bool) : State :=
  let bs := if s.isolated then (List.range 32).filter (fun b => decide ((s.pwr.bay b).clip < 4)) else clipBays s ok
  bs.foldl (fun s b => modBayPwr s b (fun x => { x with clip := x.clip + 1 })) s

/-- Whether the newest samples, a full window of them, all lie above a power (12 R357). -/
def heldAbove (s : State) (n mw : Nat) : Bool := decide (s.pwr.samples.length ≥ n) && (s.pwr.samples.take n).all (fun x => decide (x > mw))

/-- A saturating 16-bit count. -/
def inc16 (n : Nat) : Nat := if n < 65535 then n + 1 else n

/-- The clips that begin or end with a sample (12 R357). -/
def settleClips (s : State) (mw : Nat) : State :=
  let k := s.now / epochNs
  let a2 := windowAvg s window2
  let a60 := windowAvg s window60
  let t4 := heldAbove s window4 1150000 || decide (windowAvg s window4 ≥ 1400000)
  let t2 := decide (a2 ≥ limit2 s.pwr.cap) || heldAbove s window2 1000000
  let t60 := decide (a60 ≥ (s.pwr.cap - 10) * 1000)
  let floor44 := (myVolumes s).all (fun v => decide ((s.pwr.vol v.1).code ≤ 44))
  let s := if t4 && !s.pwr.clip4 then pwrEvent (s.modPwr (fun p => { p with clip4 := true, clips4 := inc16 p.clips4 })) 17 else s
  let s := if t4 then s.modPwr (fun p => { p with boostHold := k + 17 }) else s
  let s := if !t4 && decide (mw ≤ 1150000) then s.modPwr (fun p => { p with clip4 := false }) else s
  let s := if t2 && !s.pwr.clip2 then pwrEvent (s.modPwr (fun p => { p with clip2 := true, clips2 := inc16 p.clips2 })) 18 else s
  let s := if !t2 && decide (a2 ≤ 1000000) then s.modPwr (fun p => { p with clip2 := false }) else s
  let s := if t60 && !s.pwr.clip60 then pwrEvent (s.modPwr (fun p => { p with clip60 := true })) 19 else s
  if s.pwr.clip60 && (decide (a60 ≤ (s.pwr.cap - 20) * 1000) || (floor44 && !t60)) then
    s.modPwr (fun p => { p with clip60 := false, vols := Tbl.mapV p.vols (fun _ v => { v with allow := none }) })
  else s

/-- POWER_SAMPLE: one sample of 1 µs; averages, energy, clips and stretches follow (12 R356, R357, R361). -/
def execPowerSample (mw : Nat) (s : State) : Out :=
  let s := reach s (alignDown s.now us + us)
  let s := s.modPwr (fun p => { p with samples := (mw :: p.samples).take window60, pkgNj := p.pkgNj + mw })
  let s := settleClips s mw
  let s := if s.pwr.clip4 && decide (mw > 1150000) then stretchClip s (fun x => decide (x.code > 50)) else s
  let s := if s.pwr.clip2 && decide (mw > 1000000) then stretchClip s (fun _ => true) else s
  .next (noteAlerts (if s.pwr.capped && decide (mw > s.pwr.cap * 1000) then stretchClip s (fun _ => true) else s))

/-- The part cap set; power above it stretches Bays at once (12 R361). -/
def setCap (s : State) (w : Nat) : State :=
  let s := noteAlerts (s.modPwr (fun p => { p with cap := w }))
  let s := if w < 1000 then pwrEvent s 22 else s
  if (s.pwr.samples.headD 0) > w * 1000 then stretchClip (s.modPwr (fun p => { p with capped := true })) (fun _ => true) else s

/-- PWR_CAP: PWR_SET with WHAT 0 (12 R361). -/
def execPwrCap (slot : MbSlot) (s : State) : Out :=
  .next (mbCommand s slot 9 (fun c => c.f 0x10 0 1 == 0)
    (fun _ c => { fields := [(0x10, 0, 1), (0x18, 0, 32), (0x20, 0, 11)]
                  range := decide (400 ≤ c.f 0x20 0 11) && decide (c.f 0x20 0 11 ≤ 1000), permitted := slot.fn.val == 0 })
    (fun s c => mbOk (setCap s (c.f 0x20 0 11))))

/-- FREQ_TARGET: PWR_SET with WHAT 1, on a Volume of the partition (12 R350). -/
def execFreqTarget (slot : MbSlot) (s : State) : Out :=
  .next (mbCommand s slot 9 (fun c => c.f 0x10 0 1 == 1)
    (fun s c => { fields := [(0x10, 0, 1), (0x18, 0, 32), (0x20, 0, 11)], range := decide (c.f 0x20 0 11 ≤ 58)
                  permitted := slot.fn.val != 0 && (tenantHolds s (slot.fn.val - 1) (c.f 0x18 0 32) || !Tbl.has s.vols.vols (c.f 0x18 0 32))
                  handles := ((Tbl.find s.vols.vols (c.f 0x18 0 32)).bind (·.cur)).isSome })
    (fun s c => mbOk (modPwrVol s (c.f 0x18 0 32) (fun v => { v with target := c.f 0x20 0 11 }))))

/-! Droop, decay and temperature (12 R347, R348, R357, R360, 18 R513). -/

/-- DROOP_DETECT: level 4; at code 44 in isolated mode no droop reaches the threshold (12 R348, R363). -/
def execDroopDetect (bay : BayNo) (s : State) : Out :=
  if s.isolated then .next s
  else .next (pwrEvent (modBayPwr (s.modPwr (fun p => { p with droops := satInc p.droops })) bay (fun x => { x with droop := 4 })) 23)

/-- DROOP_RELEASE: one level less (12 R348). -/
def execDroopRelease (bay : BayNo) (s : State) : Out :=
  if (s.pwr.bay bay).droop == 0 then .next s else .next (modBayPwr s bay (fun x => { x with droop := x.droop - 1 }))

/-- STRETCH_DECAY: one level less once no clip lasts (12 R357). -/
def execStretchDecay (bay : BayNo) (s : State) : Out :=
  if (s.pwr.bay bay).clip == 0 || s.pwr.clip4 || s.pwr.clip2 || s.pwr.capped then .next s
  else .next (modBayPwr s bay (fun x => { x with clip := x.clip - 1 }))

/-- What the stretch of the throttle is at a temperature (12 R360). -/
def thermalLevel (old temp : Nat) : Nat := if temp ≥ 104 then 4 else if temp ≥ 103 then 2 else if temp ≤ 101 then 0 else old

/-- A thermal trip: every clock but the sequencer's and the time unit's stops, and RESET_FAIL is asserted (18 R513). -/
def thermalTrip (s : State) : State :=
  s.modSeq (fun q => { q with clocksStopped := true, resetFail := true, rstCause := 6#32, rstStatus := statusFlag q.rstStatus 23, fwState := 0 })

/-- THERMAL_SENSOR_SAMPLE (12 R360, R363). -/
def execThermalSensorSample (bay : BayNo) (temp : BitVec 8) (s : State) : Out :=
  let t := temp.toNat
  let s := modBayPwr s bay (fun x => { x with temp := t })
  let hot := (List.range 32).foldl (fun (a : Nat × Nat) b => if (s.pwr.bay b).temp > a.1 then ((s.pwr.bay b).temp, b) else a) (0, 0)
  let s := s.modPwr (fun p => { p with tjMax := hot.1, tjBay := hot.2 })
  let s := if s.isolated then (List.range 32).foldl (fun s b => modBayPwr s b (fun x => { x with thermal := thermalLevel x.thermal hot.1 })) s
    else modBayPwr s bay (fun x => { x with thermal := thermalLevel x.thermal t })
  .next (noteAlerts (if t ≥ 108 then thermalTrip s else s))

/-- THERMAL_TRIP: a sensor of the uncore at 108 °C, or a stack in TRIP (06 R171, 18 R513). -/
def execThermalTrip (s : State) : Out := .next (noteAlerts (thermalTrip s))

end Sys2Proof.Machine
end

