-- ==== Sys2Proof/Machine/Functions.lean ====
section
/-! DEFINITION. Quotients and roots, the function instructions and the epilogue activations (02_arithmetic.md R51 to R55): exact values to more than 100 bits, then the rounding, or the free choice, that the spec leaves within its bounds. -/

namespace Sys2Proof.Machine

/-! Fixed point of 512 fraction bits. -/

/-- Fraction bits, and 1. -/
def fxP : Nat := 512
def fxOne : Int := (2 ^ fxP : Nat)

/-- π, ln 2, 2/√π, √(1/2) and √(2/π), rounded down at 512 fraction bits. -/
def fxPi : Int := 0x3243F6A8885A308D313198A2E03707344A4093822299F31D0082EFA98EC4E6C89452821E638D01377BE5466CF34E90C6CC0AC29B7C97C50DD3F84D5B5B5470917
def fxLn2 : Int := 0xb17217f7d1cf79abc9e3b39803f2f6af40f343267298b62d8a0d175b8baafa2be7b876206debac98559552fb4afa1b10ed2eae35c138214427573b291169b825
def fxTwoOverSqrtPi : Int := 0x120dd750429b6d11ae3a914fed7fd8688281341d7587cea2e7342b06199cc416180eb39f0b24e1e2281806c12d98f35d77a3e9ddc91c394f0e9eedf0efffd84a2
def fxSqrtHalf : Int := 0xb504f333f9de6484597d89b3754abe9f1d6f60ba893ba84ced17ac85833399154afc83043ab8a2c3a8b1fe6fdc83db390f74a85e439c7b4a780487363dfa2768
def fxGelu : Int := 0xcc42299ea1b284687e59e2805d5c717fa7053e60a24e0db1808e369004c73a5d3bf158aa88fa7b6e47eba75766e9d11bd6284ef2e17c2a264f1d32688be119ff

def fxMul (a b : Int) : Int := (a * b) >>> fxP
def fxDiv (a b : Int) : Int := (a * fxOne).fdiv b

/-- A finite value rounded down. -/
def fxOf (v : Val) : Int :=
  match v with
  | .fin n m e =>
    let d := e + fxP
    let x : Int := if n then -(m : Int) else m
    if d ≥ 0 then x * (2 ^ d.toNat : Nat) else x.fdiv (2 ^ (-d).toNat : Nat)
  | _ => 0

/-- Integer square root, bit by bit. -/
def isqrtGo (n : Nat) : Nat → Nat → Nat
  | 0, r => r
  | b + 1, r => isqrtGo n b (if (r + 2 ^ b) * (r + 2 ^ b) ≤ n then r + 2 ^ b else r)
def isqrt (n : Nat) : Nat := isqrtGo n (log2 n / 2 + 1) 0

/-- Σ r^k / k!. -/
def fxExpGo (r : Int) : Nat → Nat → Int → Int → Int
  | 0, _, _, acc => acc
  | fuel + 1, k, t, acc => let t := (fxMul t r).fdiv k; fxExpGo r fuel (k + 1) t (acc + t)

/-- 2^f for f in [0, 1). -/
def fxExp2 (f : Int) : Int := fxExpGo (fxMul f fxLn2) 120 1 fxOne fxOne

/-- e^x for |x| up to some hundreds. -/
def fxExp (x : Int) : Int :=
  let y := fxDiv x fxLn2
  let n := y >>> fxP
  let m := fxExp2 (y - n * fxOne)
  if n ≥ 0 then m * (2 ^ n.toNat : Nat) else m >>> (-n).toNat

/-- Σ z^(2k+1) / (2k+1). -/
def fxAtanhGo (z2 : Int) : Nat → Nat → Int → Int → Int
  | 0, _, _, acc => acc
  | fuel + 1, k, t, acc => fxAtanhGo z2 fuel (k + 2) (fxMul t z2) (acc + t.fdiv k)

/-- ln y for y in [1, 2). -/
def fxLn1 (y : Int) : Int :=
  let z := fxDiv (y - fxOne) (y + fxOne)
  2 * fxAtanhGo (fxMul z z) 170 1 z 0

/-- ln y for y of 1 or more. -/
def fxLn (y : Int) : Int :=
  let k := log2 (y.toNat / 2 ^ fxP)
  fxLn1 (y >>> k) + k * fxLn2

/-- sin x for x in [0, π/2]. -/
def fxSinGo (x2 : Int) : Nat → Nat → Int → Int → Int
  | 0, _, _, acc => acc
  | fuel + 1, k, t, acc => fxSinGo x2 fuel (k + 2) (-(fxMul t x2).fdiv ((k + 1) * (k + 2) : Nat)) (acc + t)
def fxSin (x : Int) : Int := fxSinGo (fxMul x x) 100 1 x 0

/-- erf x for |x| up to 12. -/
def fxErfGo (x2 : Int) : Nat → Nat → Int → Int → Int
  | 0, _, _, acc => acc
  | fuel + 1, k, t, acc => fxErfGo x2 fuel (k + 1) (-(fxMul t x2).fdiv (k + 1 : Nat)) (acc + t.fdiv (2 * k + 1 : Nat))
def fxErf (x : Int) : Int := fxMul fxTwoOverSqrtPi (fxErfGo (fxMul x x) 900 0 x 0)

/-- tanh x for |x| up to 64. -/
def fxTanh (x : Int) : Int := let t := fxExp (2 * x); fxDiv (t - fxOne) (t + fxOne)

/-! Quotients, roots and functions, as values that round as the exact ones do: an inexact one carries a bit below its last. -/

/-- A magnitude that lies strictly between n and n + 1 in units of 2^e. -/
def between (neg : Bool) (n : Nat) (e : Int) : Val := .fin neg (2 * n + 1) (e - 1)

/-- A number that lies strictly between t and t + 1 in fixed point. -/
def betweenFx (t : Int) : Val := if t ≥ 0 then between false t.toNat (-fxP) else between true ((-t).toNat - 1) (-fxP)

/-- The quotient of two finite values, the second not zero (R51). -/
def divVal (a b : Val) : Val :=
  match a, b with
  | .fin s m e, .fin t n f =>
    let x := m * 2 ^ 256
    if x % n == 0 then .fin (s != t) (x / n) (e - f - 256) else between (s != t) (x / n) (e - f - 256)
  | _, _ => .nan

/-- The square root of a finite value not below zero (R51). -/
def sqrtVal (a : Val) : Val :=
  match a with
  | .fin s m e =>
    if m == 0 then .fin s 0 0 else
    let odd := (e % 2).toNat
    let x := m * 2 ^ (odd + 512)
    let r := isqrt x
    let h := (e - odd) / 2 - 256
    if r * r == x then .fin false r h else between false r h
  | _ => .nan

/-- The integer that a finite value is, rounded down. -/
def intOf (v : Val) : Int :=
  match v with
  | .fin n m e =>
    let x : Int := if n then -(m : Int) else m
    if e ≥ 0 then x * (2 ^ e.toNat : Nat) else x.fdiv (2 ^ (-e).toNat : Nat)
  | _ => 0

/-- What a function gives: its value, whether that value is exact, and the flags of R53. -/
structure FnVal where
  v : Val
  exact : Bool := true
  flags : Nat := 0
  deriving DecidableEq, Repr

/-- sin(π b / 2^d) for 0 < b / 2^d < 1/2, with sign. -/
def sinFrac (neg : Bool) (b d : Nat) : FnVal :=
  let f : Int := if d ≤ fxP then (b : Int) * (2 ^ (fxP - d) : Nat) else ((b >>> (d - fxP) : Nat) : Int)
  if f < (2 ^ 400 : Nat) then { v := between neg (b * fxPi.toNat) (-(d : Int) - fxP), exact := false }
  else { v := between neg (min (fxSin (fxMul f fxPi)).toNat (fxOne.toNat - 1)) (-fxP), exact := false }

/-- VFEXP2 (R52, R53). -/
def fnExp2 : Val → FnVal
  | .nan => { v := .nan }
  | .inf n => { v := if n then .zero else .inf false }
  | .fin n m e =>
    let clamp := fun (k : Int) => min (max k (-20000)) 20000
    let w := Val.fin n m e
    if m == 0 then { v := .fin false 1 0 }
    else if exactAt m e 0 then
      if (log2 m : Int) + e > 40 then { v := .fin false 1 (if n then -20000 else 20000) } else { v := .fin false 1 (clamp (intOf w)) }
    else
      let x := fxOf w
      let k := x >>> fxP
      { v := between false (fxExp2 (x - k * fxOne)).toNat (clamp k - fxP), exact := false }

/-- VFLOG2. -/
def fnLog2 : Val → FnVal
  | .nan => { v := .nan }
  | .inf n => if n then { v := .nan, flags := Exc.iv } else { v := .inf false }
  | .fin n m e =>
    if m == 0 then { v := .inf true, flags := Exc.dz }
    else if n then { v := .nan, flags := Exc.iv }
    else if isPow2 m then { v := Val.ofInt ((log2 m : Int) + e) }
    else
      let k := log2 m
      let l := fxDiv (fxLn1 ((m : Int) * (2 ^ (fxP - k) : Nat))) fxLn2
      { v := betweenFx (((k : Int) + e) * fxOne + l), exact := false }

/-- The fraction of a magnitude that is no integer, modulo 2: b / 2^d. -/
def mod2 (m : Nat) (e : Int) : Nat × Nat := let d := (-e).toNat; (m % 2 ^ (d + 1), d)

/-- VFSINPI. -/
def fnSinpi : Val → FnVal
  | .nan => { v := .nan }
  | .inf _ => { v := .nan, flags := Exc.iv }
  | .fin n m e =>
    if exactAt m e 0 then { v := .fin n 0 0 }
    else
      let (b, d) := mod2 m e
      let neg := decide (b > 2 ^ d)
      let b := if neg then b - 2 ^ d else b
      let b := if 2 * b > 2 ^ d then 2 ^ d - b else b
      if 2 * b == 2 ^ d then { v := .fin (n != neg) 1 0 } else sinFrac (n != neg) b d

/-- VFCOSPI. -/
def fnCospi : Val → FnVal
  | .nan => { v := .nan }
  | .inf _ => { v := .nan, flags := Exc.iv }
  | .fin _ m e =>
    if exactAt m e 0 then
      let odd := if e > 0 then false else (m >>> (-e).toNat) % 2 == 1
      { v := .fin odd 1 0 }
    else
      let (b, d) := mod2 m e
      let b := if b > 2 ^ d then 2 ^ (d + 1) - b else b
      let neg := decide (2 * b > 2 ^ d)
      let b := if neg then 2 ^ d - b else b
      if 2 * b == 2 ^ d then { v := .zero } else sinFrac neg (2 ^ d - 2 * b) (d + 1)

/-- VFTANH. -/
def fnTanh : Val → FnVal
  | .nan => { v := .nan }
  | .inf n => { v := .fin n 1 0 }
  | .fin n m e =>
    if m == 0 then { v := .fin n 0 0 }
    else
      let x := (log2 m : Int) + e
      if x ≥ 6 then { v := between n (fxOne.toNat - 1) (-fxP), exact := false }
      else if x < -100 then { v := between n (m * 2 ^ 256 - 1) (e - 256), exact := false }
      else { v := between n (fxTanh (fxOf (.fin false m e))).toNat (-fxP), exact := false }

/-- VFERF. -/
def fnErf : Val → FnVal
  | .nan => { v := .nan }
  | .inf n => { v := .fin n 1 0 }
  | .fin n m e =>
    if m == 0 then { v := .fin n 0 0 }
    else
      let x := (log2 m : Int) + e
      let f := fxOf (.fin false m e)
      if x ≥ 4 || f ≥ 12 * fxOne then { v := between n (fxOne.toNat - 1) (-fxP), exact := false }
      else if x < -100 then { v := between n (m * fxTwoOverSqrtPi.toNat) (e - fxP), exact := false }
      else { v := between n (min (fxErf f).toNat (fxOne.toNat - 1)) (-fxP), exact := false }

/-- VFRSQRT. -/
def fnRsqrt : Val → FnVal
  | .nan => { v := .nan }
  | .inf n => if n then { v := .nan, flags := Exc.iv } else { v := .zero }
  | .fin n m e =>
    if m == 0 then { v := .inf n, flags := Exc.dz }
    else if n then { v := .nan, flags := Exc.iv }
    else
      let odd := (e % 2).toNat
      let x := m * 2 ^ odd
      let h := -256 - (e - odd) / 2
      let r := isqrt (2 ^ 512 / x)
      if r * r * x == 2 ^ 512 then { v := .fin false r h } else { v := between false r h, exact := false }

/-- VFRECIP. -/
def fnRecip : Val → FnVal
  | .nan => { v := .nan }
  | .inf n => { v := .fin n 0 0 }
  | .fin n m e =>
    if m == 0 then { v := .inf n, flags := Exc.dz }
    else { v := divVal (.fin n 1 0) (.fin false m e), exact := 2 ^ 256 % m == 0 }

/-- The functions by their selector (05 R136). -/
def fnVal (code : Nat) (v : Val) : FnVal :=
  match code with
  | 0 => fnExp2 v | 1 => fnLog2 v | 2 => fnSinpi v | 3 => fnCospi v | 4 => fnTanh v | 5 => fnErf v | 6 => fnRsqrt v | _ => fnRecip v

/-- Encodings that the bound of R52 leaves, as distances from the magnitude rounded toward zero; sinpi and cospi are exact where R52 says so. -/
def fnChoices (code : Nat) (exact : Bool) : List Int :=
  if code == 4 || code == 5 then [0, -1, 1, 2]
  else if !exact then [0, 1] else if code == 2 || code == 3 then [0] else [0, -1, 1]

/-- A function of one element: correctly rounded in 16 bits, a free choice within the bound of R52 in FP32 and FP64 (assumption 22). -/
def fnElem (f : FloatFmt) (mode : RMode) (code w : Nat) : Nat × Nat :=
  let r := fnVal code (decodeFloat f w)
  if f.width == 16 then let (x, fl) := toFloat f { mode } r.v; (x, fl ||| r.flags)
  else
    match r.v with
    | .fin neg m e =>
      if m == 0 then (toFloat f { mode := .rne } r.v) else
      let s := if neg then 2 ^ (f.eb + f.mb) else 0
      let q := max ((log2 m : Int) + e - f.mb) (f.emin - f.mb)
      let lo := ((q - (f.emin - f.mb)).toNat) * 2 ^ f.mb + roundMag .rtz false m e q 0
      let cs := fnChoices code r.exact
      let d := cs.getD ((Config.functionPick code f.width w) % cs.length) 0
      let n := (lo + d).toNat
      if n ≥ f.infEnc then (s + f.infEnc, r.flags ||| Exc.ov ||| Exc.nx)
      else (s + n, r.flags ||| (if r.exact && d == 0 then 0 else Exc.nx ||| (if lo < 2 ^ f.mb then Exc.uf else 0)))
    | v => let (x, fl) := toFloat f { mode := .rne } v; (x, fl ||| r.flags)

/-! Epilogue activations (R54, R55). -/

/-- The interval of an activation, as integers (R55). -/
def actInterval (code : Nat) : Int × Int :=
  match code with
  | 3 | 4 => (-8, 8) | 7 => (-16, 16) | 9 => (-104, 0) | _ => (-32, 32)

/-- The value above the interval, and the value below it (R55). -/
def actOutside (code : Nat) (v : Val) (above : Bool) : Val :=
  let one := Val.fin false 1 0
  match code with
  | 6 | 9 => if above then one else .zero
  | 7 => if above then one else .fin true 1 0
  | _ => if above then v else .zero

/-- The exact function of a value within the interval, in fixed point (R55). -/
def actExact (code : Nat) (x : Int) : Int :=
  match code with
  | 3 => fxMul x (fxOne + fxErf (fxMul x fxSqrtHalf)) / 2
  | 4 => fxMul x (fxOne + fxTanh (fxMul fxGelu (x + (fxMul x (fxMul x x) * 44715).fdiv 1000000))) / 2
  | 5 => fxDiv x (fxOne + fxExp (-x))
  | 6 => fxDiv fxOne (fxOne + fxExp (-x))
  | 7 => fxTanh x
  | 8 => fxLn (fxOne + fxExp x)
  | _ => fxExp x

/-- log2 of the reciprocal of the maximum absolute error (R55). -/
def actBound (code : Nat) : Nat := if code == 6 || code == 7 || code == 9 then 22 else 20

/-- The activation of an FP32 value: exact where R55 gives the value, else a free value within its bound (assumption 22). -/
def activation (code : Nat) (alpha x : Nat) : Val :=
  let v := decodeFloat .fp32 x
  if v.isNan then .nan
  else if code == 1 then (if v.sign then .zero else v)
  else if code == 2 then
    if v.sign && !v.isZero then decodeFloat .fp32 (toFloat .fp32 { mode := .rne } (Val.mul (decodeFloat .fp32 alpha) v)).1 else v
  else
    let (lo, hi) := actInterval code
    if Val.cmp v (Val.ofInt hi) > 0 then actOutside code v true
    else if Val.cmp v (Val.ofInt lo) < 0 then actOutside code v false
    else
      let y := actExact code (fxOf v)
      let b := fxOne >>> actBound code
      Val.ofInt (y - b + 1 + ((Config.activationPick code x).toNat % (2 * b - 1).toNat : Nat)) (-fxP)

end Sys2Proof.Machine
end

