-- ==== Sys2Proof/Machine/Matrix.lean ====
section
/-! DEFINITION. The matrix cores: pushes, the checks and the meaning of each tile operation, completion, halts, the ramp and resets (04_matrix_operations.md). -/

namespace Sys2Proof.Machine

/-! Formats and checks (04 R100, R101, R118). -/

/-- K granule of an operand pair of MMA and CONV, and whether CONV takes the pair (04 R100). -/
def mmaClass (a b : Nat) : Option (Nat × Bool) :=
  let both := fun (l : List Nat) => l.contains a && l.contains b
  if both [0x08] then some (64, true) else if both [0x14] then some (64, false)
  else if both [0x04, 0x05] then some (32, true) else if both [0x10, 0x11, 0x12, 0x13] then some (32, false)
  else if both [0x09] then some (32, true) else if both [0x15] then some (32, false)
  else if both [0x02, 0x03] then some (16, true) else if both [0x01] then some (8, true) else none

/-- Whether a format may be scanned: one that MMA accepts, or FP64 (04 R105). -/
def scanFmt (code : Nat) : Bool := code == 0 || (mmaClass code code).isSome

/-- M or N in range (04 R98). -/
def regionOk (v : Nat) : Bool := decide (16 ≤ v) && decide (v ≤ 128) && v % 16 == 0

/-- K granule that a descriptor's pair asks for. -/
def granule (d : BitVec 1024) : Nat :=
  if Mx.fmtA d == 0 && Mx.fmtB d == 0 then 8 else match mmaClass (Mx.fmtA d) (Mx.fmtB d) with | some c => c.1 | none => 1

/-- Cause 2: formats (04 R118). -/
def badFormat (d : BitVec 1024) (an : AnchorState) : Bool :=
  let a := Mx.fmtA d
  let b := Mx.fmtB d
  let mxPair := Mx.isMx a && Mx.isMx b
  match Mx.op d with
  | 1 | 2 => Mx.transpose d && ((Fmt.ofCode a).isNone || !([8, 16, 32, 64].contains (Mx.width a)))
  | 3 => (Fmt.ofCode a).isNone
  | 4 => !scanFmt a || !scanFmt b
      || (!an.locked && (if an.slice then a != 0 || b != 0 else (an.mode == 1 || an.mode == 2) && (a == 0 || b == 0 || (an.mode == 2 && !mxPair))))
  | 5 => (mmaClass a b).isNone || (!an.slice && !an.locked && an.mode == 2 && !mxPair)
  | 6 => a != 0 || b != 0
  | 7 => (match mmaClass a b with | some c => !c.2 | none => true) || (!an.slice && !an.locked && an.mode == 2)
  | 8 => !(decide (Mx.fmtOut d ≤ 0x0A) || (decide (0x10 ≤ Mx.fmtOut d) && decide (Mx.fmtOut d ≤ 0x15)) || Mx.fmtOut d == 0x1F) || (Mx.biasEn d && decide (b > 3))
  | 0xB => !(decide (1 ≤ a) && decide (a ≤ 3)) || !(decide (0x10 ≤ Mx.fmtOut d) && decide (Mx.fmtOut d ≤ 0x15))
  | _ => false

/-- Cause 3: shapes (04 R118). -/
def badShape (d : BitVec 1024) : Bool :=
  let mn := !(regionOk (Mx.m d) && regionOk (Mx.n d))
  let kBad := Mx.k d == 0 || Mx.k d % granule d != 0
  match Mx.op d with
  | 1 | 2 => Mx.rows d == 0 || Mx.rowBytes d % 32 != 0 || Mx.rowBytes d < 32 || Mx.rowBytes d > 0x100000
      || (Mx.transpose d && Mx.rows d * Mx.elem d % 32 != 0)
  | 4 | 5 | 6 => mn || kBad
  | 7 => mn || kBad || Mx.k d != Mx.kh d * Mx.kw d * Mx.inC d || Mx.inC d % granule d != 0
      || [Mx.strideH d, Mx.strideW d, Mx.dilH d, Mx.dilW d, Mx.kh d, Mx.kw d, Mx.inH d, Mx.inW d, Mx.outW d].contains 0
  | 8 => mn || (Mx.isMx (Mx.fmtOut d) && (if Mx.mxDir d then Mx.m d else Mx.n d) % 32 != 0)
  | 9 | 0xA => mn
  | 0xB => !regionOk (Mx.m d) || Mx.k d == 0 || Mx.k d % 32 != 0
  | _ => false

/-- Cause 7: the anchor state (04 R105, R107 to R109). -/
def badAnchor (d : BitVec 1024) (an : AnchorState) : Bool :=
  match Mx.op d with
  | 4 => an.locked || (!an.slice && (an.mode == 0 || an.mode == 3))
  | 5 | 7 => an.slice
  | 6 => !an.slice
  | _ => false

/-- Cause 9: modes (04 R118). -/
def badMode (d : BitVec 1024) : Bool :=
  match Mx.op d with
  | 3 => Mx.terms d == 31
  | 8 => decide (Mx.rnd d > 4) || decide (Mx.act d > 9) || (Mx.act d != 0 && Mx.fmtOut d == 0x1F)
  | 0xB => decide (Mx.rnd d > 4)
  | _ => false

/-- Banks of a descriptor that the core does not own (04 R95, 03 R64). -/
def unowned (x : Bay) (c : Nat) (d : BitVec 1024) : List Nat :=
  let u := mxUse d
  ((u.rd ++ u.wr).filter (·.bay)).flatMap (fun r => r.banks.filter (fun b => bankOwner x b != c))

/-- The cause of the check that a descriptor fails first in the table's order (04 R118). -/
def mxCheck (x : Bay) (c : Nat) (d : BitVec 1024) : Option Nat :=
  let u := mxUse d
  let an := (x.mx c).anchor
  let ranges := u.rd ++ u.wr
  if Mx.op d ≥ 0xC then some 1
  else if badFormat d an then some 2
  else if badShape d then some 3
  else if ranges.any (fun r => !r.bay && r.bad) then some 4
  else if ranges.any (fun r => r.bay && r.bad) then some 5
  else if !(unowned x c d).isEmpty then some 6
  else if badAnchor d an then some 7
  else if badMode d then some 9
  else none

/-! Halts (04 R118). -/

/-- A core halts on its first descriptor that has not run; earlier ones complete, and the Bay runtime is told (04 R118). -/
def mxHalt (s : State) (b c cause : Nat) : State :=
  let m := s.mx b c
  let ran := (m.fifo.filter (·.ran)).length
  let rest := m.fifo.filter (fun x => !x.ran)
  match rest with
  | [] => s
  | x :: _ =>
    let st := mxStatusOf cause
    let s := s.setMx b c { m with
      fifo := rest, done := m.done + BitVec.ofNat 32 ran
      status := statusEvent m.status 0x1F0000 (put cause 16 4 + 2 ^ 20)
      faultInfo := BitVec.ofNat 32 (st + put (Mx.tag x.desc) 8 16 + put (Mx.op x.desc) 24 8) }
    let s := if cause == 6 then bayEvent s b 23 (unowned (s.bay b) c x.desc).head? 2 0 else s
    { s with reports := s.reports ++ [{ bay := b, core := c, status := st, mcause := cause, mtval := Mx.tag x.desc }] }

/-- Whether a core is halted. -/
def MatrixCore.halted (m : MatrixCore) : Bool := bitsAt m.status.toNat 20 1 == 1

/-- A core whose next descriptor has a reserved opcode halts (04 R99, R118). -/
def mxSettle (s : State) (b c : Nat) : State :=
  let m := s.mx b c
  match m.fifo.find? (fun x => !x.ran) with
  | some x => if !m.halted && Mx.op x.desc ≥ 0xC then mxHalt s b c 1 else s
  | none => s

/-! Pushes (04 R96, R119, R123, R124). -/

/-- The core address of a register of a matrix core's control block (05 R129). -/
def mxRegAddr (c off : Nat) : Nat := 0xFFFFFFFFF3010000 + c * 0x1000 + off

/-- A push: the window goes into the FIFO; a full one stalls the store, and one that a reset meets is discarded. -/
def mxPush (s : State) (b c : Nat) (vector : Bool) : State :=
  let x := s.bay b
  let m := x.mx c
  if x.resetAt.isSome || x.coreResets.contains c then s
  else if m.fifo.length ≥ 32 then s
  else mxSettle (s.setMx b c { m with fifo := m.fifo ++ [{ desc := if vector then m.stageV else m.stageS }] }) b c

/-- MX_PUSH_S: kernel control's push; another core takes an access fault (04 R124). -/
def execMxPushS (bay : BayNo) (mx : Fin 4) (writer : Fin 6) (s : State) : Out :=
  if writer.val == 5 then .next (mxPush s bay mx false)
  else .next (trapCore s bay writer 7 (mxRegAddr mx 8) Status.permission.code)

/-- MX_PUSH_V: vector core c's push (04 R124). -/
def execMxPushV (bay : BayNo) (mx : Fin 4) (writer : Fin 6) (s : State) : Out :=
  if writer.val == mx.val then .next (mxPush s bay mx true)
  else .next (trapCore s bay writer 7 (mxRegAddr mx 0xC) Status.permission.code)

/-! Operands, cells and anchors (04 R103, R104). -/

/-- A row of a panel as values (04 R103, 02 R31). -/
def panelRow (st : Mem) (code off pitch scale spitch k i : Nat) : List Val :=
  match Fmt.ofCode code with
  | none => []
  | some f =>
    let es := unpackElems f.width k (Mem.readN st (off + i * pitch) ((f.width * k + 7) / 8))
    match f with
    | .mx el => (es.zipIdx).map (fun p => decodeMx el (Mem.read st (scale + i * spitch + p.2 / 32)).toNat p.1)
    | f => es.map (decodePlain f)

/-- Row i of A, and row j of B, of a descriptor. -/
def rowA (m : MatrixCore) (d : BitVec 1024) (i : Nat) : List Val := panelRow m.store (Mx.fmtA d) (Mx.aOff d) (Mx.aPitch d) (Mx.aScale d) (Mx.scalePitch d) (Mx.k d) i
def rowB (m : MatrixCore) (d : BitVec 1024) (j : Nat) : List Val := panelRow m.store (Mx.fmtB d) (Mx.bOff d) (Mx.bPitch d) (Mx.bScale d) (Mx.scalePitch d) (Mx.k d) j

/-- The anchor of a cell (04 R94); a row or column at none counts as 0. -/
def AnchorState.cell (an : AnchorState) (i j : Nat) : BitVec 13 :=
  if an.slice then BitVec.ofInt 13 (an.base.toInt + Tbl.getD an.rowExp i 0 + Tbl.getD an.colExp j 0) else an.base

/-- A cell as an A192 value, and written back. -/
def MatrixCore.cell (m : MatrixCore) (i j : Nat) : A192 :=
  let c := Tbl.getD m.cells (i * 128 + j) {}
  { sum := c.sum, anchor := m.anchor.cell i j, flags := c.flags }
def MatrixCore.setCell (m : MatrixCore) (i j : Nat) (a : A192) : MatrixCore :=
  { m with cells := if a.sum == 0#224 && a.flags == 0#6 then Tbl.del m.cells (i * 128 + j) else Tbl.put m.cells (i * 128 + j) { sum := a.sum, flags := a.flags } }

/-- The cells of a region, row by row. -/
def mxRegion (d : BitVec 1024) : List (Nat × Nat) :=
  (List.range (Mx.m d)).flatMap (fun i => (List.range (Mx.n d)).map (fun j => (i, j)))

/-- Every cell of the region rewritten. -/
def mapRegion (m : MatrixCore) (d : BitVec 1024) (f : Nat → Nat → A192 → A192) : MatrixCore :=
  (mxRegion d).foldl (fun m p => m.setCell p.1 p.2 (f p.1 p.2 (m.cell p.1 p.2))) m

/-- The larger of two exponents, none least. -/
def mxOptMax (a b : Option Int) : Option Int :=
  match a, b with
  | none, x => x
  | x, none => x
  | some x, some y => some (max x y)

/-- A row's exponent folded into a table. -/
def foldExp (t : Tbl Int) (i : Nat) (vs : List Val) : Tbl Int :=
  match mxOptMax (Tbl.find t i) ((maxExp vs).map (· + 1)) with
  | some e => Tbl.put t i e
  | none => t

/-- AUTO_MX: X_E − 127 + emax over the blocks of a row that hold a finite nonzero value (04 R105). -/
def mxRowExp (st : Mem) (code scale spitch i : Nat) (vs : List Val) : Option Int :=
  match Fmt.ofCode code with
  | some (.mx el) =>
    ((chunks 32 vs).zipIdx).foldl (fun acc p =>
      let x := (Mem.read st (scale + i * spitch + p.2)).toNat
      if x == 255 || (maxExp p.1).isNone then acc else mxOptMax acc (some ((x : Int) - 127 + el.emax))) none
  | _ => none

/-- The exponents of both operands folded into the anchor state (04 R105). -/
def foldOperands (m : MatrixCore) (d : BitVec 1024) (as bs : List (List Val)) : AnchorState :=
  let an := m.anchor
  if an.slice then
    { an with rowExp := (as.zipIdx).foldl (fun t p => foldExp t p.2 p.1) an.rowExp, colExp := (bs.zipIdx).foldl (fun t p => foldExp t p.2 p.1) an.colExp }
  else if an.mode == 2 then
    { an with
      ea := (as.zipIdx).foldl (fun e p => mxOptMax e (mxRowExp m.store (Mx.fmtA d) (Mx.aScale d) (Mx.scalePitch d) p.2 p.1)) an.ea
      eb := (bs.zipIdx).foldl (fun e p => mxOptMax e (mxRowExp m.store (Mx.fmtB d) (Mx.bScale d) (Mx.scalePitch d) p.2 p.1)) an.eb }
  else
    { an with ea := as.foldl (fun e r => mxOptMax e (maxExp r)) an.ea, eb := bs.foldl (fun e r => mxOptMax e (maxExp r)) an.eb }

/-- The anchor locked before the first term (04 R106, 02 R40). -/
def lockAnchor (m : MatrixCore) (d : BitVec 1024) (ops : Option (List (List Val) × List (List Val))) : MatrixCore :=
  let an := m.anchor
  if an.locked then m
  else if an.slice then
    let zeros := fun (t : Tbl Int) => (List.range 128).foldl (fun t i => if Tbl.has t i then t else Tbl.put t i 0) t
    { m with anchor := { an with locked := true, rowExp := zeros an.rowExp, colExp := zeros an.colExp } }
  else if an.mode == 1 || an.mode == 2 then
    let an := match ops with
      | some (a, b) => foldOperands m d a b
      | none => an
    { m with anchor := { an with locked := true, base := BitVec.ofInt 13 (autoAnchor an.ea an.eb an.terms) } }
  else { m with anchor := { an with locked := true } }

/-! The tile operations. Each gives the Bay and the core it leaves, with the exception flags it raises, or the cause of a fault. -/

/-- What an operation leaves. -/
structure MxDone where
  bay : Bay
  core : MatrixCore
  exc : Nat := 0

/-- LOAD_TILE and STORE_TILE (04 R116). -/
def mxMove (x : Bay) (m : MatrixCore) (d : BitVec 1024) (load : Bool) : MxDone :=
  let (rows, bytes) := Mx.srcShape d
  let src := (List.range rows).map (fun r =>
    if load then x.read (Mx.bayAddr d + r * Mx.bayPitch d) bytes else Mem.readN m.store (Mx.aOff d + r * Mx.aPitch d) bytes)
  let out := if Mx.transpose d then
      (List.range (Mx.dstShape d).1).map (fun e => src.flatMap (fun r => (r.drop (e * Mx.elem d)).take (Mx.elem d)))
    else src
  (out.zipIdx).foldl (fun (a : MxDone) p =>
    if load then { a with core := { a.core with store := Mem.writeN a.core.store (Mx.aOff d + p.2 * Mx.aPitch d) p.1 } }
    else { a with bay := a.bay.write (Mx.bayAddr d + p.2 * Mx.bayPitch d) p.1 }) { bay := x, core := m }

/-- ANCHOR_SET (04 R104). -/
def mxAnchorSet (m : MatrixCore) (d : BitVec 1024) : MatrixCore :=
  let an := m.anchor
  let an := if Mx.fmtA d == 0 then { an with slice := true, base := 78#13, rowExp := [], colExp := [], locked := false }
    else match Mx.anchorMode d with
      | 0 => { an with slice := false, mode := 0, base := BitVec.ofInt 13 (Mx.anchor d), locked := true }
      | 3 => an
      | md => { an with slice := false, mode := md, terms := Mx.terms d, ea := none, eb := none, locked := false }
  { m with cells := [], anchor := an }

/-- The rows of both operands. -/
def mxOperands (m : MatrixCore) (d : BitVec 1024) : List (List Val) × List (List Val) :=
  ((List.range (Mx.m d)).map (rowA m d), (List.range (Mx.n d)).map (rowB m d))

/-- A list's entry, or the empty list. -/
def rowOf (l : List (List Val)) (i : Nat) : List Val := l.getD i []

/-- MMA (04 R107). -/
def mxMma (m : MatrixCore) (d : BitVec 1024) : MatrixCore :=
  let (a, b) := mxOperands m d
  mapRegion (lockAnchor m d (some (a, b))) d (fun i j c => ((rowOf a i).zip (rowOf b j)).foldl (fun c p => c.addTerm (Val.mul p.1 p.2)) c)

/-- One pair of FP64 elements added to a cell by slices (04 R108, 02 R45 to R48). -/
def slicePair (tierE : Bool) (er ec : Int) (c : A192) (a b : Val) : A192 :=
  match a, b with
  | .fin n p _, .fin k q _ =>
    if sliceable a er && sliceable b ec then { c with sum := c.sum + BitVec.ofInt 224 (sliceProduct tierE (sliceInt a er) (sliceInt b ec)) }
    else if p == 0 || q == 0 then c
    else { c with flags := c.flags ||| (if n != k then A192.fNovf else A192.fPovf) }
  | _, _ => c.addTerm (Val.mul a b)

/-- MMA_FP64 (04 R108). -/
def mxMmaFp64 (m : MatrixCore) (d : BitVec 1024) : MatrixCore :=
  let (a, b) := mxOperands m d
  let m := lockAnchor m d none
  mapRegion m d (fun i j c => ((rowOf a i).zip (rowOf b j)).foldl (fun c p =>
    slicePair (!Mx.tierF d) (Tbl.getD m.anchor.rowExp i 0) (Tbl.getD m.anchor.colExp j 0) c p.1 p.2) c)

/-- A pixel of CONV's input (04 R109). -/
def convPixel (m : MatrixCore) (d : BitVec 1024) (p : Nat) : List Val :=
  panelRow m.store (Mx.fmtA d) (Mx.aOff d) (Mx.aPitch d) 0 0 (Mx.inC d) p

/-- The input elements that a row of cells and a filter position meet; none in the padding (04 R109). -/
def convInput (d : BitVec 1024) (input : List (List Val)) (i f : Nat) : List Val :=
  let p := Mx.outP0 d * Mx.outW d + Mx.outQ0 d + i
  let h : Int := (p / Mx.outW d * Mx.strideH d + f / Mx.kw d * Mx.dilH d : Nat) - (Mx.padT d : Int)
  let w : Int := (p % Mx.outW d * Mx.strideW d + f % Mx.kw d * Mx.dilW d : Nat) - (Mx.padL d : Int)
  if 0 ≤ h && h < Mx.inH d && 0 ≤ w && w < Mx.inW d then rowOf input (h.toNat * Mx.inW d + w.toNat) else []

/-- CONV (04 R109). -/
def mxConv (m : MatrixCore) (d : BitVec 1024) : MatrixCore :=
  let input := (List.range (Mx.inH d * Mx.inW d)).map (convPixel m d)
  let filters := (List.range (Mx.n d)).map (rowB m d)
  mapRegion (lockAnchor m d (some (input, filters))) d (fun i j c =>
    (List.range (Mx.kh d * Mx.kw d)).foldl (fun c f =>
      ((convInput d input i f).zip ((rowOf filters j).drop (f * Mx.inC d))).foldl (fun c p => c.addTerm (Val.mul p.1 p.2)) c) c)

/-- How the element of a cell is rounded: its mode, SAT, and its draw under SR (02 R49, 04 R110, R113). -/
def mxRnd (seed : DWord) (d : BitVec 1024) (i j : Nat) : Rnd :=
  { mode := (RMode.ofCode (Mx.rnd d)).getD .rne, sat := Mx.sat d
    r := srDraw seed (Mx.stream d) ((Mx.originRow d + i) % 2 ^ 24) ((Mx.originCol d + j) % 2 ^ 24) }

/-- The copy of a cell with its bias term (04 R110 step 1). -/
def biased (x : Bay) (d : BitVec 1024) (c : A192) (j : Nat) : A192 :=
  if !Mx.biasEn d then c
  else match Fmt.ofCode (Mx.fmtB d) with
    | some f => c.addTerm (decodePlain f (x.readLE (Mx.biasAddr d + j * (f.width / 8)) (f.width / 8)))
    | none => c

/-- The value that a read-out quantises, and its flags: the exact one, or the activation's (04 R110, R112, 02 R54). -/
def epilogue (d : BitVec 1024) (c : A192) : Val × Nat :=
  if Mx.act d == 0 then let (v, fl) := c.readValue; (v, fl ||| c.atFlag)
  else let (w, fl) := c.readOut (.flt .fp32) { mode := .rne }; (activation (Mx.act d) (Mx.alpha d) w, fl)

/-- A grid of cells read out to an MX format: element rows and scale bytes, with flags (04 R112). -/
def mxBlocks (el : MxElem) (seed : DWord) (d : BitVec 1024) (v : Nat → Nat → Val × Nat) : List (List Nat) × List Nat × Nat :=
  let lines := if Mx.mxDir d then Mx.n d else Mx.m d
  let len := (if Mx.mxDir d then Mx.m d else Mx.n d) / 32
  let at_ := fun (line k : Nat) => if Mx.mxDir d then (k, line) else (line, k)
  let blocks := (List.range lines).map (fun l => (List.range len).map (fun b =>
    let cells := (List.range 32).map (fun t => let p := at_ l (32 * b + t); v p.1 p.2)
    let (x, es, fl) := quantMx el (fun t => let p := at_ l (32 * b + t); mxRnd seed d p.1 p.2) (cells.map (·.1))
    (x, es, cells.foldl (fun a c => a ||| c.2) fl)))
  let elem := fun (i j : Nat) =>
    let (l, k) := if Mx.mxDir d then (j, i) else (i, j)
    (((blocks.getD l []).getD (k / 32) (0, [], 0)).2.1).getD (k % 32) 0
  ((List.range (Mx.m d)).map (fun i => (List.range (Mx.n d)).map (elem i)), blocks.flatten.map (·.1), blocks.flatten.foldl (fun a b => a ||| b.2.2) 0)

/-- ACC_READ (04 R110 to R112). -/
def mxAccRead (x : Bay) (m : MatrixCore) (seed : DWord) (d : BitVec 1024) : MxDone :=
  let m := lockAnchor m d none
  let cell := fun (i j : Nat) => biased x d (m.cell i j) j
  let rows := fun (y : Bay) (rs : List (List Byte)) => (rs.zipIdx).foldl (fun (y : Bay) p => y.write (Mx.bayAddr d + p.2 * Mx.bayPitch d) p.1) y
  match Fmt.ofCode (Mx.fmtOut d) with
  | none => { bay := x, core := m }
  | some .a192 =>
    { bay := rows x ((List.range (Mx.m d)).map (fun i => (List.range (Mx.n d)).flatMap (fun j => bytesLE 32 (cell i j).toRec.toNat))), core := m }
  | some (.mx el) =>
    let (es, scales, fl) := mxBlocks el seed d (fun i j => epilogue d (cell i j))
    { bay := (rows x (es.map (packElems (Fmt.mx el).width))).write (Mx.auxAddr d) (scales.map (BitVec.ofNat 8)), core := m, exc := fl }
  | some f =>
    let out := (List.range (Mx.m d)).map (fun i => (List.range (Mx.n d)).map (fun j =>
      let rd := mxRnd seed d i j
      if Mx.act d == 0 then (cell i j).readOut f rd
      else let (v, fl) := epilogue d (cell i j); let (w, g) := toPlain f rd v; (w, fl ||| g)))
    { bay := rows x (out.map (fun r => packElems f.width (r.map (·.1)))), core := m, exc := out.flatten.foldl (fun a p => a ||| p.2) 0 }

/-- An exponent as 16 bits, 0x8000 for none, and back (04 R114). -/
def mxExpBits : Option Int → Nat
  | some e => toBits e 16
  | none => 0x8000
def bitsExp (w : Nat) : Option Int := if w % 65536 == 0x8000 then none else some (sext w 16)

/-- The anchor block of ACC_SAVE (04 R114). -/
def anchorBlock (an : AnchorState) : List Byte :=
  bytesLE 4 (an.base.toNat + put an.mode 16 2 + put (bit an.locked) 18 1 + put (bit an.slice) 19 1 + put an.terms 20 5)
    ++ bytesLE 4 (mxExpBits an.ea + put (mxExpBits an.eb) 16 16) ++ bytesLE 0xF8 0
    ++ (List.range 128).flatMap (fun i => bytesLE 2 (mxExpBits (Tbl.find an.rowExp i)))
    ++ (List.range 128).flatMap (fun i => bytesLE 2 (mxExpBits (Tbl.find an.colExp i))) ++ bytesLE 0x100 0

/-- The anchor state that a block gives (04 R115). -/
def anchorOfBlock (x : Bay) (a : Nat) : AnchorState :=
  let w := x.readLE a 4
  let exps := fun (o : Nat) => (List.range 128).foldl (fun (t : Tbl Int) i => match bitsExp (x.readLE (a + o + 2 * i) 2) with
    | some e => Tbl.put t i e
    | none => t) []
  { base := BitVec.ofNat 13 w, mode := bitsAt w 16 2, locked := bitsAt w 18 1 == 1, slice := bitsAt w 19 1 == 1, terms := bitsAt w 20 5
    ea := bitsExp (x.readLE (a + 4) 2), eb := bitsExp (x.readLE (a + 6) 2), rowExp := exps 0x100, colExp := exps 0x200 }

/-- ACC_SAVE (04 R114). -/
def mxAccSave (x : Bay) (m : MatrixCore) (d : BitVec 1024) : Bay :=
  let x := (List.range (Mx.m d)).foldl (fun (x : Bay) i =>
    x.write (Mx.bayAddr d + i * Mx.bayPitch d) ((List.range (Mx.n d)).flatMap (fun j => bytesLE 32 (m.cell i j).toRec.toNat))) x
  x.write (Mx.auxAddr d) (anchorBlock m.anchor)

/-- ACC_LOAD: the core it leaves, and whether every record's anchor is its cell's (04 R115). -/
def mxAccLoad (x : Bay) (m : MatrixCore) (d : BitVec 1024) : MatrixCore × Bool :=
  let m := { m with cells := [], anchor := anchorOfBlock x (Mx.auxAddr d) }
  let recOf := fun (p : Nat × Nat) => A192.ofRec (BitVec.ofNat 256 (x.readLE (Mx.bayAddr d + p.1 * Mx.bayPitch d + 32 * p.2) 32))
  if (mxRegion d).all (fun p => (recOf p).anchor == m.anchor.cell p.1 p.2) then
    ((mxRegion d).foldl (fun m p => m.setCell p.1 p.2 (recOf p)) m, true)
  else (m, false)

/-- QUANT_MX (04 R113). -/
def mxQuant (m : MatrixCore) (seed : DWord) (d : BitVec 1024) : MatrixCore × Nat :=
  match Fmt.ofCode (Mx.fmtOut d) with
  | some (.mx el) =>
    (List.range (Mx.m d)).foldl (fun (a : MatrixCore × Nat) i =>
      let vs := panelRow m.store (Mx.fmtA d) (Mx.aOff d) (Mx.aPitch d) 0 0 (Mx.k d) i
      let qs := ((chunks 32 vs).zipIdx).map (fun p => quantMx el (fun t => mxRnd seed d i (32 * p.2 + t)) p.1)
      let st := Mem.writeN a.1.store (Mx.bOff d + i * Mx.bPitch d) (packElems (Fmt.mx el).width (qs.flatMap (·.2.1)))
      let st := Mem.writeN st (Mx.bScale d + i * Mx.scalePitch d) (qs.map (fun q => BitVec.ofNat 8 q.1))
      ({ a.1 with store := st }, qs.foldl (fun x q => x ||| q.2.2) a.2)) (m, 0)
  | _ => (m, 0)

/-! Running a descriptor (04 R97, R118). -/

/-- SEED of the context whose tile runs on a Bay (02 R49). -/
def baySeed (s : State) (b : Nat) : DWord :=
  match Tbl.find s.work.tiles (s.bay b).tile with
  | some t => match Tbl.find s.work.cmds t.cmd with
    | some c => c.seed
    | none => 0#64
  | none => 0#64

/-- The unit of an opcode: 1 transfer, 2 array, 3 read-out, 0 none (04 R97). -/
def mxUnit (op : Nat) : Nat :=
  match op with
  | 1 | 2 | 4 => 1 | 3 | 5 | 6 | 7 | 0xA => 2 | 8 | 9 | 0xB => 3 | _ => 0

/-- Whether the next descriptor may start beside the earlier ones that are not complete, and no bank it uses is in handover (04 R97, 03 R65). -/
def mxMayStart (x : Bay) (m : MatrixCore) (d : BitVec 1024) : Bool :=
  let before := m.fifo.filter (·.ran)
  let u := mxUse d
  (!Mx.fence d || before.isEmpty)
    && before.all (fun e => (mxUnit (Mx.op d) == 0 || mxUnit (Mx.op e.desc) != mxUnit (Mx.op d)) && !u.waitsFor (mxUse e.desc))
    && ((u.rd ++ u.wr).filter (·.bay)).all (fun r => r.banks.all (fun k => bitsAt x.pending.toNat k 1 == 0))

/-- The first descriptor that has not run, marked as having run. -/
def markRan : List MxDesc → List MxDesc
  | [] => []
  | x :: t => if x.ran then x :: markRan t else { x with ran := true } :: t

/-- The next descriptor of a core runs, if its opcode is `op` and it may start: it fails a check and the core halts, or it acts. AO under
TRAP_AO sets AO_TRAPPED (04 R118, R120). -/
def mxRun (s : State) (b c op : Nat) (act : Bay → MatrixCore → BitVec 1024 → MxDone × Option Nat) : State :=
  let x := s.bay b
  let m := x.mx c
  match m.fifo.find? (fun e => !e.ran) with
  | none => s
  | some e =>
    if Mx.op e.desc != op || m.halted then s
    else match mxCheck x c e.desc with
      | some cause => mxHalt s b c cause
      | none =>
        if !mxMayStart x m e.desc then s
        else
          let (r, bad) := act x m e.desc
          match bad with
          | some cause => mxHalt (s.setBay b (r.bay.setMx c r.core)) b c cause
          | none =>
            let k := { r.core with fifo := markRan r.core.fifo, exc := r.core.exc ||| r.exc }
            let k := if Mx.trapAo e.desc && op == 8 && r.exc &&& Exc.ao != 0 then { k with status := statusFlag k.status 21, trapAo := true } else k
            mxSettle (s.setBay b (r.bay.setMx c k)) b c

/-- MX_NOP (04 R97). -/
def execMxNop (bay : BayNo) (mx : Fin 4) (s : State) : Out := .next (mxRun s bay mx 0 (fun x m _ => ({ bay := x, core := m }, none)))
/-- LOAD_TILE. -/
def execLoadTile (bay : BayNo) (mx : Fin 4) (s : State) : Out := .next (mxRun s bay mx 1 (fun x m d => (mxMove x m d true, none)))
/-- STORE_TILE. -/
def execStoreTile (bay : BayNo) (mx : Fin 4) (s : State) : Out := .next (mxRun s bay mx 2 (fun x m d => (mxMove x m d false, none)))
/-- ANCHOR_SET. -/
def execAnchorSet (bay : BayNo) (mx : Fin 4) (s : State) : Out := .next (mxRun s bay mx 3 (fun x m d => ({ bay := x, core := mxAnchorSet m d }, none)))
/-- EXP_SCAN. -/
def execExpScan (bay : BayNo) (mx : Fin 4) (s : State) : Out :=
  .next (mxRun s bay mx 4 (fun x m d => let o := mxOperands m d; ({ bay := x, core := { m with anchor := foldOperands m d o.1 o.2 } }, none)))
/-- MMA. -/
def execMma (bay : BayNo) (mx : Fin 4) (s : State) : Out := .next (mxRun s bay mx 5 (fun x m d => ({ bay := x, core := mxMma m d }, none)))
/-- MMA_FP64. -/
def execMmaFp64 (bay : BayNo) (mx : Fin 4) (s : State) : Out := .next (mxRun s bay mx 6 (fun x m d => ({ bay := x, core := mxMmaFp64 m d }, none)))
/-- CONV. -/
def execConv (bay : BayNo) (mx : Fin 4) (s : State) : Out := .next (mxRun s bay mx 7 (fun x m d => ({ bay := x, core := mxConv m d }, none)))
/-- ACC_READ. -/
def execAccRead (bay : BayNo) (mx : Fin 4) (s : State) : Out := .next (mxRun s bay mx 8 (fun x m d => (mxAccRead x m (baySeed s bay) d, none)))
/-- ACC_SAVE. -/
def execAccSave (bay : BayNo) (mx : Fin 4) (s : State) : Out := .next (mxRun s bay mx 9 (fun x m d => ({ bay := mxAccSave x m d, core := m }, none)))
/-- ACC_LOAD. -/
def execAccLoad (bay : BayNo) (mx : Fin 4) (s : State) : Out :=
  .next (mxRun s bay mx 10 (fun x m d => let r := mxAccLoad x m d; ({ bay := x, core := r.1 }, if r.2 then none else some 8)))
/-- QUANT_MX. -/
def execQuantMx (bay : BayNo) (mx : Fin 4) (s : State) : Out :=
  .next (mxRun s bay mx 11 (fun x m d => let r := mxQuant m (baySeed s bay) d; ({ bay := x, core := r.1, exc := r.2 }, none)))

/-- RAMP_STEP: the level rises while arithmetic waits and falls while none does (04 R117). -/
def execRampStep (bay : BayNo) (mx : Fin 4) (up : Bool) (s : State) : Out :=
  let m := s.mx bay mx
  let arith := fun (x : MxDesc) => decide (5 ≤ Mx.op x.desc) && decide (Mx.op x.desc ≤ 7)
  let issues := !m.halted && m.fifo.any arith
  let waits := !m.halted && m.fifo.any (fun x => !x.ran && arith x)
  if up && issues && m.ramp < 8 then .next (s.setMx bay mx { m with ramp := m.ramp + 1 })
  else if !up && !waits && m.ramp > 0 then .next (s.setMx bay mx { m with ramp := m.ramp - 1 })
  else .next s

/-- MX_RESUME: a halted core runs on from the head of its FIFO (04 R119). -/
def execMxResume (bay : BayNo) (mx : Fin 4) (s : State) : Out :=
  .next (mxSettle (s.modMx bay mx (fun m => { m with status := m.status &&& ~~~0x100000#32 })) bay mx)

/-- MX_FLUSH (04 R119). -/
def execMxFlush (bay : BayNo) (mx : Fin 4) (s : State) : Out := .next (mxFlush s bay mx)

/-- MATRIX_CORE_RESET (04 R123). -/
def execMatrixCoreReset (bay : BayNo) (mx : Fin 4) (s : State) : Out := .next (mxReset s bay mx)

end Sys2Proof.Machine
end

