-- ==== Sys2Proof/Machine/Nets.lean ====
section
/-! DEFINITION. The on-die networks: parity and replays, failed links and routers, routing tables, deadlines on the bulk planes and Card network messages (03_bays.md R61 to R63, R80 to R93, 06_memory.md R163, R167). -/

namespace Sys2Proof.Machine

/-! Failures (03 R91, R93). -/

/-- A link with its routers in order. -/
def netLink (plane a b : Nat) : NetLink := { plane, a := min a b, b := max a b }

/-- Number of a link among the replay counts. -/
def linkNo (l : NetLink) : Nat := (l.plane * 64 + l.a) * 64 + l.b

/-- Row and column of a router. -/
def routerRow (r : Nat) : Nat := r / 8
def routerCol (r : Nat) : Nat := r % 8

/-- The links of a plane: neighbours, on the bulk planes the express links, and the Spine node's (03 R80, R84). -/
def planeLinks (plane : Nat) : List NetLink :=
  (List.range 48).flatMap (fun r =>
    let row := routerRow r
    let col := routerCol r
    (if col < 7 then [netLink plane r (r + 1)] else []) ++ (if row < 5 then [netLink plane r (r + 8)] else [])
      ++ (if plane < 2 && (col == 0 || col == 4) then [netLink plane r (r + 3)] else [])
      ++ (if plane < 2 && row < 3 then [netLink plane r (r + 24)] else [])
      ++ (if (col == 3 || col == 4) && (row == 2 || row == 3) then [netLink plane r 48] else []))

/-- Whether a link is a Spine crossing, and of which row (03 R88). -/
def crossingRow (l : NetLink) : Option Nat :=
  if l.b == l.a + 1 && routerCol l.a == 3 then some (routerRow l.a) else none

/-- Both the row 2 and the row 3 crossing of a plane have failed (03 R93). -/
def spineLost (n : Nets) : Bool :=
  (List.range 3).any (fun p => n.failedLinks.contains (netLink p 19 20) && n.failedLinks.contains (netLink p 27 28))

/-- An ERROR of the networks, with the Registrar's report of it; the fault map of the Colophon changes (03 R93). -/
def netError (s : State) (block inst sev parts : Nat) : State :=
  colophonChange (postError s { block, inst, cause := 0, sev, parts, fm := sev == 4 }) parts

/-- A router fails: what it cuts off is lost (03 R93). -/
def routerFail (s : State) (r : Nat) : State :=
  if s.nets.failedRouters.contains r then s
  else
    let s := s.modNets (fun n => { n with failedRouters := NSet.ins n.failedRouters r, tablesStale := true })
    match s.sites.idxOf? r with
    | some b => fenceBay (netError s 15 r 2 (2 ^ s.partOfBay b)) b
    | none =>
      if (List.range 8).any (fun k => stackRouter k == r) then (netError s 15 r 4 0).modSeq (fun q => { q with persistentFault := true })
      else if (List.range 4).any (fun g => groupRouter g == r) then
        let lost := ((List.range 26).filter (fun n => linkRouter n == r))
        lost.foldl (fun s n => if (linkOf s n).state != 0 then linkFail s n else s) (netError s 15 r 2 0)
      else netError s 15 r 2 0

/-- A link is declared failed; a router all of whose links have failed fails with it (03 R91). -/
def linkDeclare (s : State) (l : NetLink) : State :=
  if s.nets.failedLinks.contains l || !(planeLinks l.plane).contains l then s
  else
    let s := s.modNets (fun n => { n with failedLinks := n.failedLinks ++ [l], tablesStale := true, replayFails := Tbl.del n.replayFails (linkNo l) })
    let s := match crossingRow l with
      | some row => netError s 16 row (if spineLost s.nets then 4 else 2) 0
      | none => netError s 15 l.a 2 0
    let s := if spineLost s.nets then s.modSeq (fun q => { q with persistentFault := true }) else s
    let dead := fun (r : Nat) => (List.range 3).all (fun p => (planeLinks p).all (fun k => !(k.a == r || k.b == r) || s.nets.failedLinks.contains k))
    [l.a, l.b].foldl (fun s r => if r < 48 && dead r then routerFail s r else s) s

/-- LINK_SILENCE (03 R91). -/
def execLinkSilence (plane : Fin 3) (a b : Fin 49) (s : State) : Out := .next (linkDeclare s (netLink plane a b))

/-- ROUTER_SELF_CHECK_FAULT (03 R91). -/
def execRouterSelfCheckFault (router : Fin 48) (s : State) : Out := .next (routerFail s router)

/-- ROUTE_TABLES_INSTALL: tables that go around every failure take effect on the three networks (03 R83, R91). -/
def execRouteTablesInstall (s : State) : Out :=
  .next (s.modNets (fun n => { n with routedLinks := n.failedLinks, routedRouters := n.failedRouters, tablesStale := false }))

/-! Parity (03 R61 to R63, 06 R163, R167). -/

/-- A parity error on a bank's read (03 R63). -/
def bankParity (s : State) (b bank row : Nat) (clean : Bool) : State :=
  if clean then
    bayEvent (s.modBay b (fun x => { x with parityCorrected := satInc x.parityCorrected })) b 20 (some bank) 0 0
  else
    let x := s.bay b
    let key := bank * 8192 + row
    let id := x.tile
    if x.parityRows.contains key then
      let s := bayEvent s b 22 (some bank) 2 0
      failTile s id Status.parityUnrecovered.code (192 + b) (bank * bankBytes + row * 256) (fun t => t)
    else
      let s := s.modBay b (fun x => { x with
        parityRows := NSet.ins x.parityRows key
        test := if row < 6144 then { x.test with queue := x.test.queue ++ [bank * 384 + row / 16] } else x.test })
      let s := bayEvent s b 21 (some bank) 1 1
      if Tbl.has s.work.tiles id then replayTile s id Status.parityUnrecovered.code else s

/-- A crossbar path whose replays fail: a mover's transfer ends with PARITY, a core's tile with PARITY_UNRECOVERED (03 R62, R70). -/
def crossbarFail (s : State) (b port : Nat) : State :=
  if port ≥ 10 then
    let m := s.mover b (port - 10)
    match m.started with
    | o :: _ => moverFail s b (port - 10) 7 0 (Mv.memVa o.desc) o.group m.rd (Mv.tag o.desc)
    | [] => s
  else failTile s (s.bay b).tile Status.parityUnrecovered.code (192 + b) 0 (fun t => t)

/-- A replay that failed; the fourth in a row is the last (03 R62). -/
def replayFailed (s : State) (key : Nat) : State × Bool :=
  let k := Tbl.getD s.nets.replayFails key 0 + 1
  if k ≥ 4 then (s.modNets (fun n => { n with replayFails := Tbl.del n.replayFails key }), true)
  else (s.modNets (fun n => { n with replayFails := Tbl.put n.replayFails key k }), false)

/-- A replay that succeeded is a Corrected event (03 R62). -/
def replayDone (s : State) (key : Nat) : State :=
  s.modNets (fun n => { n with replayFails := Tbl.del n.replayFails key, corrected := n.corrected + 1 })

/-- A sector of the memory-side cache found in error: a clean one is dropped, a dirty one goes to DRAM poisoned (06 R163). -/
def sectorParity (s : State) (line : Nat) (upper : Bool) : State :=
  match Tbl.find s.mem.msc line with
  | none => s
  | some x =>
    let y := if upper then x.s1 else x.s0
    if !y.valid then s
    else
      let d := 128 * line
      let gone := if upper then { x with s1 := {} } else { x with s0 := {} }
      if !y.dirty then setMscLine s line gone
      else
        let s := storeLine s line x.cmp x.bytes (if upper then (2 ^ 64 - 1) <<< 64 else 2 ^ 64 - 1) 15
        stackEvent (logErr (setMscLine s line gone) d 4) (stackOf d) 18 2 (maskOfAddr s d) (some d)

/-- An entry of the Catalogue found in error is dropped (09 R252, R271). -/
def entryParity (s : State) (i : Nat) : State :=
  match s.cat.entries[i]? with
  | none => s
  | some e =>
    let s := modCat s (fun c => { c with entries := c.entries.eraseIdx i })
    let s := catEvent s 19 e.part none
    postCorrectedTo s (e.part + 1) { block := 8, inst := 0, cause := 19, sev := 0, parts := 2 ^ e.part, off := 4, seq := evtSeq s.cat.status, reg := s.cat.status.toNat }

/-- FLIT_PARITY_ERROR: a parity error where the command says; the flit is discarded and replayed (03 R62, R63). -/
def execFlitParityError (site : ParitySite) (replayOk : Bool) (s : State) : Out :=
  match site with
  | .link plane a b =>
    let l := netLink plane a b
    if replayOk then .next (replayDone s (linkNo l))
    else match replayFailed s (linkNo l) with
      | (s, true) => .next (linkDeclare s l)
      | (s, false) => .next s
  | .bank bay bank row => .next (bankParity s bay bank row.toNat replayOk)
  | .crossbar bay port =>
    let key := 100000 + bay.val * 16 + port.val
    if replayOk then .next (replayDone s key)
    else match replayFailed s key with
      | (s, true) => .next (crossbarFail s bay port)
      | (s, false) => .next s
  | .stackLink k channel =>
    let key := 200000 + k.val * 32 + channel.val
    if replayOk then .next (stackEvent (replayDone s key) k 19 0 0)
    else match replayFailed s key with
      | (s, true) => .next ((stackEvent s k 21 4 0).modSeq (fun q => { q with persistentFault := true }))
      | (s, false) => .next s
  | .mscSector line upper => match direct? line.toNat with
    | some d => .next (sectorParity s (d / 128) upper)
    | none => .next s
  | .catalogueEntry i => .next (entryParity s i)

/-! Deadlines (03 R92). -/

/-- REQUEST_DEADLINE: a request passes its deadline; a mover's descriptor ends with TIMEOUT, a core traps with it (03 R92, 05 R150). -/
def execRequestDeadline (index : Nat) (s : State) : Out :=
  match s.nets.requests[index]? with
  | none => .next s
  | some r =>
    let s := reach s (r.deadline + 1)
    let s := s.modNets (fun n => { n with requests := n.requests.eraseIdx index })
    if r.mover then
      let m := s.mover r.who r.port
      let d := ringDesc (s.bay r.who) m m.next
      .next (moverFail s r.who r.port 9 0 r.va (m.groupSize - m.ready) m.rd (Mv.tag d))
    else .next (trapCore s (r.who / 6) (r.who % 6) 5 r.va Status.timeout.code)

end Sys2Proof.Machine
end

