-- ==== Sys2Proof/Machine/LocalRegs.lean ====
section
/-! DEFINITION. The Bay control block and the matrix cores' control blocks as registers (00_scope.md R3 to R8, 03_bays.md R79, 04_matrix_operations.md R124). -/

namespace Sys2Proof.Machine

/-- The state that a command leaves. -/
def outState (s : State) (o : Out) : State := match o with | .next t => t | _ => s

/-- A _LO read latches its _HI half (00 R3). -/
def latchHi (s : State) (blk : Block) (off v : Nat) : State :=
  { s with regs := { s.regs with shadow := Tbl.put s.regs.shadow (regKey blk (off + 4)) (BitVec.ofNat 32 (v / 2 ^ 32)) } }
/-- The shadow that a _HI read returns. -/
def shadowHi (s : State) (blk : Block) (off : Nat) : Nat := (Tbl.getD s.regs.shadow (regKey blk off) 0#32).toNat

/-! The Bay control block (03 R79). -/

/-- The 64-bit value of a pair of the Bay control block, by its _LO offset. -/
def bayPair (x : Bay) (off : Nat) : Option Nat :=
  match off with
  | 0x38 => some x.mover0.faultVa.toNat | 0x58 => some x.mover1.faultVa.toNat | 0x68 => some x.spareUsed.toNat | _ => none

/-- A register of the Bay control block that is no half of a pair. -/
def bayWord (s : State) (b off : Nat) : Nat :=
  let x := s.bay b
  let m := if off < 0x40 then x.mover0 else x.mover1
  match if 0x40 ≤ off && off < 0x60 then off - 0x20 else off with
  | 0 => b + put (bit (decide (routerCol (s.sites.getD b 0) ≥ 4))) 5 1
  | 4 => x.owners.toNat % 2 ^ 32
  | 8 => x.owners.toNat / 2 ^ 32
  | 0xC => x.pending.toNat
  | 0x10 => x.coreFence.toNat
  | 0x14 => x.status.toNat
  | 0x18 => x.parityCorrected.toNat
  | 0x20 => m.ringBase.toNat
  | 0x24 => m.ringSize.toNat
  | 0x28 => m.wr
  | 0x2C => m.rd
  | 0x34 => m.fault.toNat
  | 0x60 => x.test.ctrl.toNat
  | 0x64 => x.test.state + put x.test.bank 2 4 + put x.test.region 6 9 + put x.test.passes 16 16
  | 0x70 => x.spareUnfused.toNat
  | _ => 0

/-- A read of a register of the Bay control block. -/
def bayRegGet (s : State) (b : BayNo) (off : Nat) : State × Nat :=
  match bayPair (s.bay b) off with
  | some v => (latchHi s (.bay b) off v, v % 2 ^ 32)
  | none => if off == 0x3C || off == 0x5C || off == 0x6C then (s, shadowHi s (.bay b) off) else (s, bayWord s b off)

/-- A write to a register of the Bay control block, by the Registrar or the Bay runtime. -/
def bayRegPut (s : State) (registrar : Bool) (b : BayNo) (off : Nat) (v : Word) : State :=
  let p : Fin 2 := if off < 0x40 then 0 else 1
  match if 0x40 ≤ off && off < 0x60 then off - 0x20 else off with
  | 4 => writeOwners s b false v
  | 8 => writeOwners s b true v
  | 0x10 =>
    if !registrar then s
    else
      let s := (List.range 10).foldl (fun s c => if bitsAt v.toNat c 1 == 1 && bitsAt (s.bay b).coreFence.toNat c 1 == 0 then fenceCore s b c true else s) s
      s.modBay b (fun x => if x.fenced then x else { x with coreFence := x.coreFence &&& v.truncate 10 })
  | 0x14 => s.modBay b (fun x => { x with status := statusClear x.status 0x07FF0000 v.toNat })
  | 0x20 => s.modMover b p (fun m => { m with ringBase := v &&& 0x01FFFF00#32 })
  | 0x24 => if [4, 8, 16, 32, 64].contains (v.toNat % 128) then s.modMover b p (fun m => { m with ringSize := v &&& 0x7F#32 }) else s
  | 0x28 => outState s (execMoverWrWrite b p (v.truncate 16) s)
  | 0x30 => if bitsAt v.toNat 1 1 == 1 then s.modMover b p moverFlush else if bitsAt v.toNat 0 1 == 1 then outState s (execMoverResume b p s) else s
  | 0x34 => s.modMover b p (fun m => { m with fault := statusClear m.fault 0x0FFF0000 v.toNat })
  | 0x60 => if registrar then s.modBay b (fun x => { x with test := { x.test with ctrl := v &&& 0xFFFF0001#32 } }) else s
  | _ => s

/-! A matrix core's control block (04 R124). -/

/-- Who reaches a matrix core's block: the Registrar, or a core of its Bay by agent index. -/
inductive MxAgent where
  | registrar
  | core (k : Nat)
  deriving DecidableEq, Repr

/-- Whether an agent may access some register of the block. -/
def mxMayAccess (a : MxAgent) (c : Nat) : Bool :=
  match a with
  | .registrar => true
  | .core k => k == 4 || k == 5 || k == c

/-- Whether an offset is reserved. -/
def mxReserved (off : Nat) : Bool := (decide (0x28 ≤ off) && decide (off < 0x100)) || decide (off ≥ 0x200)

/-- Whether the rules permit an access to a register of the block (04 R124). -/
def mxPermits (a : MxAgent) (c off : Nat) (write : Bool) : Bool :=
  let s := decide (0x100 ≤ off) && decide (off < 0x180)
  let v := decide (0x180 ≤ off) && decide (off < 0x200)
  let rt := match a with | .registrar => true | .core k => k == 4
  let kc := a == .core 5
  let vc := a == .core c
  if mxReserved off then mxMayAccess a c
  else if write then (rt && [4, 0x18, 0x20].contains off) || (kc && (s || off == 8)) || (vc && (v || off == 0xC))
  else rt || ((kc || vc) && off < 0x28) || (kc && s) || (vc && v)

/-- A register's value. -/
def mxRegGet (s : State) (b c off : Nat) : Nat :=
  let m := s.mx b c
  if mxReserved off then 0
  else if off ≥ 0x180 then bitsAt m.stageV.toNat (8 * (off - 0x180)) 32
  else if off ≥ 0x100 then bitsAt m.stageS.toNat (8 * (off - 0x100)) 32
  else match off with
    | 0 => c | 0x10 => m.fifo.length | 0x14 => m.done.toNat | 0x18 => m.status.toNat | 0x1C => m.faultInfo.toNat
    | 0x20 => m.exc | 0x24 => m.ramp | _ => 0

/-- A window with a word replaced. -/
def windowPut (w : BitVec 1024) (at_ v : Nat) : BitVec 1024 :=
  BitVec.ofNat 1024 (w.toNat - (bitsAt w.toNat (8 * at_) 32) <<< (8 * at_) + (v % 2 ^ 32) <<< (8 * at_))

/-- A write that the rules permit. -/
def mxRegPut (s : State) (b c off : Nat) (v : Word) : State :=
  if mxReserved off then s
  else if off ≥ 0x180 then s.modMx b c (fun m => { m with stageV := windowPut m.stageV (off - 0x180) v.toNat })
  else if off ≥ 0x100 then s.modMx b c (fun m => { m with stageS := windowPut m.stageS (off - 0x100) v.toNat })
  else match off with
    | 4 => if bitsAt v.toNat 1 1 == 1 then mxFlush s b c
           else if bitsAt v.toNat 0 1 == 1 then mxSettle (s.modMx b c (fun m => { m with status := m.status &&& ~~~0x100000#32 })) b c else s
    | 8 => mxPush s b c false
    | 0xC => mxPush s b c true
    | 0x18 => s.modMx b c (fun m => { m with status := statusClear m.status 0x2F0000 v.toNat })
    | 0x20 => s.modMx b c (fun m => { m with exc := v.toNat % 512 })
    | _ => s

/-- Whether a push would stall its store: the FIFO is full, and no reset runs (04 R96, R123). -/
def mxPushStalls (s : State) (b c off : Nat) : Bool :=
  let x := s.bay b
  (off == 8 || off == 0xC) && x.resetAt.isNone && !x.coreResets.contains c && (x.mx c).fifo.length ≥ 32

end Sys2Proof.Machine
end

