-- ==== Sys2Proof/Machine/CoreMem.lean ====
section
/-! DEFINITION. The memory that a core sees: its address map, translation, L1D, atomics, reservations, remote accesses, Bay memory, local store and control blocks (05_vector_scalar.md R128 to R130, 08_coherence.md R231 to R235, 09_translation.md R253, 11_fabric.md R324). -/

namespace Sys2Proof.Machine

/-- What an access comes to: it is performed; it waits, and its instruction is presented again; or it raises an exception, with
mcause, mtval and the tile status of R149. -/
inductive CoreGot (α : Type) where
  | ok (s : State) (a : α)
  | wait (s : State)
  | trap (s : State) (cause mtval status : Nat)

/-- LOCAL (05 R129). -/
def localBase : Nat := 0xFFFFFFFFF0000000

/-- The regions of the address map (05 R129). -/
inductive Region where
  | context
  | bayMem (off : Nat)
  | local_ (off : Nat)
  | bayBlock (off : Nat)
  | mxBlock (c off : Nat)
  | none
  deriving DecidableEq, Repr

def regionOf (a : Nat) : Region :=
  if a < 2 ^ 57 then .context
  else if a < localBase then .none
  else
    let o := a - localBase
    if o < bayBytes then .bayMem o
    else if 0x2000000 ≤ o && o < 0x2080000 then .local_ (o - 0x2000000)
    else if 0x3000000 ≤ o && o < 0x3001000 then .bayBlock (o - 0x3000000)
    else if 0x3010000 ≤ o && o < 0x3014000 then .mxBlock ((o - 0x3010000) / 0x1000) (o % 0x1000)
    else .none

/-- mcause of an access fault, a misaligned address and a page fault, by access: 0 load, 1 store, 2 fetch, 3 AMO (05 R149). -/
def accessFault (access : Nat) : Nat := match access with | 0 => 5 | 2 => 1 | _ => 7
def misaligned (access : Nat) : Nat := match access with | 0 => 4 | 2 => 0 | _ => 6

/-- A core's requester and agent number (08 R223, 09 R253). -/
def coreReq (b c : Nat) : Nat := b * 6 + c

/-- The context whose tile runs on a Bay. -/
def bayCtx (s : State) (b : Nat) : Option Nat := tileCtx s (s.bay b).tile

/-- The translation of an address: the core's own, or the Catalogue's, which it then keeps (09 R253). -/
def coreEntry (s : State) (b c va access : Nat) : CoreGot (Nat × CatEntry) :=
  match bayCtx s b with
  | none => .trap s (accessFault access) va Status.aborted.code
  | some key =>
    match (localFind s (coreReq b c) key va).filter (fun e => leafPermits e.leaf access) with
    | some e => .ok s (key, e)
    | none =>
      match lookup s key { req := coreReq b c, access, va } with
      | (s, some e) => .ok (localKeep s (coreReq b c) e) (key, e)
      | (s, none) => .wait s

/-- The translations of the pages of a range. -/
def coreEntries (s : State) (b c access : Nat) : List (Nat × Nat) → CoreGot (List (Nat × Nat × Nat × CatEntry))
  | [] => .ok s []
  | (va, n) :: rest =>
    match coreEntry s b c va access with
    | .ok s (key, e) => match coreEntries s b c access rest with
      | .ok s es => .ok s ((va, n, key, e) :: es)
      | .wait s => .wait s
      | .trap s x y z => .trap s x y z
    | .wait s => .wait s
    | .trap s x y z => .trap s x y z

/-- A grant that has reached the core's home queue is taken at once. -/
def takeGrant (s : State) (a line : Nat) : State × Bool :=
  match s.mem.grants.find? (fun g => g.agent == a && g.line == line) with
  | some g => (installGrant (s.modMem (fun m => { m with grants := m.grants.erase g })) g, true)
  | none => (s, false)

/-- A line gained by a core's L1D, to read or to write; whether it missed, and whether another agent was snooped; false while it waits (08 R226, R230). -/
def gainLine (s : State) (a p line attr : Nat) (excl : Bool) : State × Bool × Bool × Bool :=
  let have_ := l1Find s a line
  let owns := match have_ with
    | some x => x.st == .m || x.st == .e
    | none => false
  if have_.isSome && (!excl || owns) then (s, true, false, false)
  else
    let req := if !excl then HomeReq.rdShared a else if have_.isSome then .upgrade a else .rdOwn a
    let snoops := match Tbl.find s.mem.dir line with
      | some e => if excl then !((holdersOf s line e).filter (· != a)).isEmpty else e.st != .shared && ownerOf e != some a
      | none => false
    let (s, got) := takeGrant (homeRequest s line p a attr req true) a line
    if got then (s, true, true, snoops)
    else if Tbl.has s.mem.txns line || Tbl.has s.mem.dir line then (s, false, true, snoops)
    else
      let (s, got) := takeGrant (homeRequest s line p a attr req true) a line
      (s, got, true, snoops)

/-- The direct line pieces of a physical range, each checked at its home (06 R153, R157). -/
def corePieces (s : State) (b access va : Nat) (pa n : Nat) : CoreGot (List (Nat × Nat)) :=
  (linePieces pa n).foldl (fun (g : CoreGot (List (Nat × Nat))) q => match g with
    | .ok s ds => match requestCheck s { master := b, part := s.partOfBay b } q.1 with
      | .ok d => .ok s (ds ++ [(d, q.2)])
      | .error s => .trap s (accessFault access) va Status.permission.code
    | g => g) (.ok s [])

/-- Bytes of an L1D line read; poison raises an access fault (06 R169). -/
def readLines (s : State) (b c attr va : Nat) : List (Nat × Nat) → CoreGot (List Byte)
  | [] => .ok s []
  | (d, n) :: rest =>
    let a := coreReq b c
    match gainLine s a (s.partOfBay b) (d / 128) attr false with
    | (s, false, _, _) => .wait s
    | (s, true, _, _) => match l1Find s a (d / 128) with
      | none => .wait s
      | some x =>
        if (List.range 4).any (fun i => bitsAt x.poison.toNat i 1 == 1 && decide (32 * i < d % 128 + n) && decide (d % 128 < 32 * (i + 1))) then
          .trap s 5 va Status.parityUnrecovered.code
        else match readLines s b c attr va rest with
          | .ok s bs => .ok s (((bytesLE 128 x.data.toNat).drop (d % 128)).take n ++ bs)
          | g => g

/-- Bytes put into an L1D line that the core holds in M or E; a chunk written whole loses its poison (06 R168). -/
def putLine (s : State) (a line off : Nat) (bs : List Byte) : State :=
  match l1Find s a line with
  | none => s
  | some x =>
    let gone := (List.range 4).foldl (fun m i => if off ≤ 32 * i && 32 * (i + 1) ≤ off + bs.length then m + 2 ^ i else m) 0
    l1Put s a line { x with st := .m, data := BitVec.ofNat 1024 (natLE (patch (bytesLE 128 x.data.toNat) off bs)), poison := x.poison &&& ~~~(BitVec.ofNat 4 gone) }

/-- Lines gained to be written. -/
def ownLines (s : State) (b c attr : Nat) : List (Nat × Nat) → State × Bool
  | [] => (s, true)
  | (d, _) :: rest =>
    match gainLine s (coreReq b c) (s.partOfBay b) (d / 128) attr true with
    | (s, false, _, _) => (s, false)
    | (s, true, _, _) => ownLines s b c attr rest

/-- A remote access of a core: one request, whose instruction is presented again when it has been answered (11 R324). -/
def remoteAccess (s : State) (b c access va : Nat) (r : FabReq) : CoreGot (List Byte) :=
  match (s.core b c).remote with
  | none => .wait ((issueRequest s r).modCore b c (fun k => { k with remote := some .waits }))
  | some .waits => .wait s
  | some (.done st data) =>
    let s := s.modCore b c (fun k => { k with remote := none })
    if st == 0 then .ok s data else .trap s (accessFault access) va st

/-- The physical range of a page piece as direct pieces, and its attribute word. -/
def pageDirect (s : State) (b access : Nat) (q : Nat × Nat × Nat × CatEntry) : CoreGot (List (Nat × Nat)) :=
  corePieces s b access q.1 (entryPA q.2.2.2 q.1) q.2.1

/-- A load from context memory (05 R128, R129). -/
def ctxLoad (s : State) (b c va n : Nat) : CoreGot (List Byte) :=
  match coreEntries s b c 0 (pagePieces va n) with
  | .wait s => .wait s
  | .trap s x y z => .trap s x y z
  | .ok s es =>
    match es.find? (fun q => leafRemote q.2.2.2.leaf) with
    | some q => remoteAccess s b c 0 va (remoteRead s (.core b c) q.2.2.2 va n)
    | none => es.foldl (fun (g : CoreGot (List Byte)) q => match g with
      | .ok s bs => match pageDirect s b 0 q with
        | .ok s ds => match readLines s b c (attrOf q.2.2.2.leaf (s.partOfBay b)) va ds with
          | .ok s more => .ok s (bs ++ more)
          | g => g
        | .wait s => .wait s
        | .trap s x y z => .trap s x y z
      | g => g) (.ok s [])

/-- The dirty log's record of a store of a core (09 R268). -/
def coreDirty (s : State) (key va n : Nat) : State :=
  (List.range ((va + n - 1) / 65536 - va / 65536 + 1)).foldl (fun s i => dirtyBlock s key ((va / 65536 + i) * 65536)) s

/-- A store to context memory (05 R128, R129, 08 R235). -/
def ctxStore (s : State) (b c va : Nat) (bs : List Byte) : CoreGot Unit :=
  match coreEntries s b c 1 (pagePieces va bs.length) with
  | .wait s => .wait s
  | .trap s x y z => .trap s x y z
  | .ok s es =>
    match es.find? (fun q => leafRemote q.2.2.2.leaf) with
    | some q => match remoteAccess s b c 1 va (remoteWrite s (.core b c) q.2.2.2 va bs) with
      | .ok s _ => .ok s ()
      | .wait s => .wait s
      | .trap s x y z => .trap s x y z
    | none =>
      let all := es.foldl (fun (g : CoreGot (List (Nat × Nat))) q => match g with
        | .ok s l => match pageDirect s b 1 q with
          | .ok s ds =>
            let (s, got) := ownLines s b c (attrOf q.2.2.2.leaf (s.partOfBay b)) ds
            if got then .ok s (l ++ ds) else .wait s
          | .wait s => .wait s
          | .trap s x y z => .trap s x y z
        | g => g) (.ok s [])
      match all with
      | .ok s ds =>
        let s := es.foldl (fun s q => coreDirty s q.2.2.1 q.1 q.2.1) s
        .ok (ds.foldl (fun (a : State × List Byte) p => (putLine a.1 (coreReq b c) (p.1 / 128) (p.1 % 128) (a.2.take p.2), a.2.drop p.2)) (s, bs)).1 ()
      | .wait s => .wait s
      | .trap s x y z => .trap s x y z

/-! Atomics (05 R128, 08 R232 to R234, 11 R324). -/

/-- The counter of a line in a core's predictor (08 R234). -/
def predIndex (d : Nat) : Nat := (d / 128) % 4096 ^^^ (d / 2 ^ 19) % 4096
def predGet (s : State) (b c d : Nat) : Nat := Tbl.getD (s.core b c).predictor (predIndex d) 1
def predAdd (s : State) (b c d : Nat) (up : Bool) : State :=
  s.modCore b c (fun k =>
    let x := Tbl.getD k.predictor (predIndex d) 1
    { k with predictor := Tbl.put k.predictor (predIndex d) (if up then min 3 (x + 1) else x - 1) })

/-- A near AMO: the line gained in M, the operation in the L1D (08 R233). -/
def nearAmo (s : State) (b c attr op n d va operand compare : Nat) : CoreGot Nat :=
  let a := coreReq b c
  match gainLine s a (s.partOfBay b) (d / 128) attr true with
  | (s, false, _, sn) => .wait (s.modCore b c (fun k => { k with snooped := k.snooped || sn }))
  | (s, true, missed, sn) => match l1Find s a (d / 128) with
    | none => .wait s
    | some x =>
      let snooped := sn || (s.core b c).snooped
      let s := s.modCore b c (fun k => { k with snooped := false })
      let s := if snooped then predAdd s b c d true else if !missed then predAdd s b c d false else s
      if bitsAt x.poison.toNat (d % 128 / 32) 1 == 1 then .trap s 7 va Status.parityUnrecovered.code
      else
        let old := lineLE (bytesLE 128 x.data.toNat) (d % 128) n
        .ok (putLine s a (d / 128) (d % 128) (bytesLE n (amoNew op (8 * n) old (operand % 2 ^ (8 * n)) (compare % 2 ^ (8 * n))))) old

/-- A far AMO: the home takes the line from every holder and performs the operation (08 R233). -/
def farAmoCore (s : State) (b c attr op n d va operand compare : Nat) : CoreGot Nat :=
  let a := coreReq b c
  let line := d / 128
  let p := s.partOfBay b
  let sn := match Tbl.find s.mem.dir line with
    | some e => !((holdersOf s line e).filter (· != a)).isEmpty
    | none => false
  match outsideWrite s line p with
  | (s, false) => .wait (s.modCore b c (fun k => { k with snooped := k.snooped || sn }))
  | (s, true) =>
    let again := (s.stack (stackOf d)).farLines.contains line
    let snooped := sn || (s.core b c).snooped
    let s := predAdd (s.modCore b c (fun k => { k with snooped := false })) b c d (snooped || again)
    match farPerform s p attr d op n operand compare with
    | (s, old, bad) => if bad then .trap s 7 va Status.parityUnrecovered.code else .ok s old

/-- An AMO on 4 or 8 bytes, with the old value; its operation by the fabric's code (08 R233, 11 R324). -/
def coreAmo (s : State) (b c op n va operand compare : Nat) : CoreGot Nat :=
  match regionOf va with
  | .context =>
    if va % n != 0 then .trap s 6 va Status.aborted.code
    else match coreEntry s b c va 3 with
      | .wait s => .wait s
      | .trap s x y z => .trap s x y z
      | .ok s (key, e) =>
        if leafRemote e.leaf then
          let payload := bytesLE 8 (op + (if n == 8 then 256 else 0)) ++ bytesLE 8 operand ++ (if op == 9 then bytesLE 8 compare else [])
          match remoteAccess s b c 3 va { remoteRequest s (.core b c) 4 payload.length e va payload with } with
          | .ok s bs => .ok s (natLE (bs.take n))
          | .wait s => .wait s
          | .trap s x y z => .trap s x y z
        else match corePieces s b 3 va (entryPA e va) n with
          | .ok s ((d, _) :: _) =>
            let attr := attrOf e.leaf (s.partOfBay b)
            let r := if predGet s b c d ≥ 2 then farAmoCore s b c attr op n d va operand compare else nearAmo s b c attr op n d va operand compare
            match r with
            | .ok s old => .ok (coreDirty s key va n) old
            | r => r
          | .ok s [] => .wait s
          | .wait s => .wait s
          | .trap s x y z => .trap s x y z
  | _ => .trap s 7 va Status.aborted.code

/-- LR: the line gained to be written, and the reservation taken; a remote leaf raises an access fault (08 R232, 11 R324). -/
def coreLr (s : State) (b c n va : Nat) : CoreGot Nat :=
  match regionOf va with
  | .context =>
    if va % n != 0 then .trap s 4 va Status.aborted.code
    else match coreEntry s b c va 0 with
      | .wait s => .wait s
      | .trap s x y z => .trap s x y z
      | .ok s (_, e) =>
        if leafRemote e.leaf then .trap s 5 va Status.aborted.code
        else match corePieces s b 0 va (entryPA e va) n with
          | .ok s ((d, _) :: _) =>
            match gainLine s (coreReq b c) (s.partOfBay b) (d / 128) (attrOf e.leaf (s.partOfBay b)) (leafPermits e.leaf 1) with
            | (s, false, _, _) => .wait s
            | (s, true, _, _) => match readLines s b c (attrOf e.leaf (s.partOfBay b)) va [(d, n)] with
              | .ok s bs => .ok (s.modCore b c (fun k => { k with reservation := some d })) (natLE bs)
              | .wait s => .wait s
              | .trap s x y z => .trap s x y z
          | .ok s [] => .wait s
          | .wait s => .wait s
          | .trap s x y z => .trap s x y z
  | _ => .trap s 7 va Status.aborted.code

/-- SC: it writes where the reservation stands on the same bytes and the line is held in M or E; whether it failed (08 R232). -/
def coreSc (s : State) (b c n va v : Nat) : CoreGot Bool :=
  match regionOf va with
  | .context =>
    if va % n != 0 then .trap s 6 va Status.aborted.code
    else match coreEntry s b c va 1 with
      | .wait s => .wait s
      | .trap s x y z => .trap s x y z
      | .ok s (key, e) =>
        if leafRemote e.leaf then .trap s 7 va Status.aborted.code
        else match corePieces s b 1 va (entryPA e va) n with
          | .ok s ((d, _) :: _) =>
            let k := s.core b c
            let held := match l1Find s (coreReq b c) (d / 128) with
              | some x => x.st == .m || x.st == .e
              | none => false
            let good := k.reservation == some d && held
            let s := s.modCore b c (fun k => { k with reservation := none })
            if good then .ok (coreDirty (putLine s (coreReq b c) (d / 128) (d % 128) (bytesLE n v)) key va n) false else .ok s true
          | .ok s [] => .wait s
          | .wait s => .wait s
          | .trap s x y z => .trap s x y z
  | _ => .trap s 7 va Status.aborted.code

/-! Loads and stores over the whole map (05 R129). -/

/-- Whether a core may reach bytes of Bay memory: it waits while a bank of its own is in handover, and an access to a bank that it does
not own raises an access fault (03 R64 to R66). -/
def bayOwned (s : State) (b c off n access va : Nat) : CoreGot Unit :=
  let x := s.bay b
  let banks := [off / bankBytes, (off + n - 1) / bankBytes]
  match banks.find? (fun k => bankOwner x k != portOfCore c) with
  | some k => .trap (bayEvent s b 23 (some k) 2 0) (accessFault access) va Status.permission.code
  | none => if banks.any (fun k => bitsAt x.pending.toNat k 1 == 1) then .wait s else .ok s ()

/-- The words of a control block that an access covers, as word offsets. -/
def regWords (off n : Nat) : List Nat := (List.range ((off % 4 + n + 3) / 4)).map (fun i => off - off % 4 + 4 * i)

/-- A load of `n` bytes; `elem` marks a vector element, which must be aligned everywhere (05 R126). -/
def coreLoad (s : State) (b : BayNo) (c va n : Nat) (elem : Bool := false) : CoreGot (List Byte) :=
  let blk := fun (get : State → Nat → State × Nat) (off : Nat) =>
    let (s, ws) := (regWords off n).foldl (fun (a : State × List Byte) o => let (s, v) := get a.1 o; (s, a.2 ++ bytesLE 4 v)) (s, [])
    CoreGot.ok s ((ws.drop (off % 4)).take n)
  if elem && va % n != 0 then .trap s 4 va Status.aborted.code else
  match regionOf va with
  | .context => if va + n > 2 ^ 57 then .trap s 5 va Status.aborted.code else ctxLoad s b c va n
  | .none => .trap s 5 va Status.aborted.code
  | .bayMem off =>
    if va % n != 0 then .trap s 4 va Status.aborted.code
    else match bayOwned s b c off n 0 va with
      | .ok s _ => .ok s ((s.bay b).read off n)
      | .wait s => .wait s
      | .trap s x y z => .trap s x y z
  | .local_ off =>
    if c ≥ 4 then .trap s 5 va Status.permission.code
    else if off + n > 0x80000 then .trap s 5 va Status.aborted.code
    else .ok s (Mem.readN (s.core b c).localStore off n)
  | .bayBlock off =>
    if c != 4 then .trap s 5 va Status.permission.code
    else if va % n != 0 then .trap s 4 va Status.aborted.code
    else blk (fun s o => bayRegGet s b o) off
  | .mxBlock m off =>
    if !mxPermits (.core c) m (off - off % 4) false then .trap s 5 va Status.permission.code
    else if va % n != 0 then .trap s 4 va Status.aborted.code
    else blk (fun s o => (s, if mxPermits (.core c) m o false then mxRegGet s b m o else 0)) off

/-- A store of bytes (05 R129). -/
def coreStore (s : State) (b : BayNo) (c va : Nat) (bs : List Byte) (elem : Bool := false) : CoreGot Unit :=
  let n := bs.length
  let merge := fun (old off o : Nat) => natLE (patch (bytesLE 4 old) (if o < off then off - o else 0) ((bs.drop (o - off)).take (if o < off then min n (4 - (off - o)) else min 4 (off + n - o))))
  if elem && va % n != 0 then .trap s 6 va Status.aborted.code else
  match regionOf va with
  | .context => if va + n > 2 ^ 57 then .trap s 7 va Status.aborted.code else ctxStore s b c va bs
  | .none => .trap s 7 va Status.aborted.code
  | .bayMem off =>
    if va % n != 0 then .trap s 6 va Status.aborted.code
    else match bayOwned s b c off n 1 va with
      | .ok s _ => .ok (s.modBay b (fun x => x.write off bs)) ()
      | .wait s => .wait s
      | .trap s x y z => .trap s x y z
  | .local_ off =>
    if c ≥ 4 then .trap s 7 va Status.permission.code
    else if off + n > 0x80000 then .trap s 7 va Status.aborted.code
    else .ok (s.modCore b c (fun k => { k with localStore := Mem.writeN k.localStore off bs })) ()
  | .bayBlock off =>
    if c != 4 then .trap s 7 va Status.permission.code
    else if va % n != 0 then .trap s 6 va Status.aborted.code
    else .ok ((regWords off n).foldl (fun s o => bayRegPut s false b o (BitVec.ofNat 32 (merge (bayWord s b o) off o))) s) ()
  | .mxBlock m off =>
    if !mxPermits (.core c) m (off - off % 4) true then .trap s 7 va Status.permission.code
    else if va % n != 0 then .trap s 6 va Status.aborted.code
    else if (regWords off n).any (mxPushStalls s b m) then .wait s
    else .ok ((regWords off n).foldl (fun s o => if mxPermits (.core c) m o true then mxRegPut s b m o (BitVec.ofNat 32 (merge (mxRegGet s b m o) off o)) else s) s) ()

/-- A core's accesses to context addresses that reach the stacks, counted in 64-byte granules against its tile (14 R417). -/
def coreCharge (s : State) (b c va n : Nat) (read write : Bool) : State :=
  let g := ((va + n - 1) / 64 - va / 64 + 1) * 64
  let far := match bayCtx s b with
    | some key => ((localFind s (coreReq b c) key va).map (fun e => leafRemote e.leaf)).getD false
    | none => true
  if regionOf va != .context || far then s
  else chargeTile s (s.bay b).tile { stackRd := if read then g else 0, stackWr := if write then g else 0 }

end Sys2Proof.Machine
end

