-- ==== Sys2Proof/Machine/RvFloat.lean ====
section
/-! DEFINITION. RISC-V floating point: operations on one element with its flags, conversions, comparisons, classes and the 7-bit estimates (05_vector_scalar.md R125, 02_arithmetic.md R51). -/

namespace Sys2Proof.Machine

/-- A rounding mode of frm or of an instruction; 5, 6 and 7 are reserved (05 R125). -/
def rvMode : Nat → Option RMode
  | 0 => some .rne | 1 => some .rtz | 2 => some .rdn | 3 => some .rup | 4 => some .rmm | _ => none

namespace Fp

/-- Whether bits are a NaN, or a signalling one. -/
def isNan (f : FloatFmt) (w : Nat) : Bool := (decodeFloat f w).isNan
def isSNan (f : FloatFmt) (w : Nat) : Bool := isNan f w && bitsAt w (f.mb - 1) 1 == 0

/-- A value rounded, NV where it is a NaN that no operand was, or an operand signalled. -/
def finish (f : FloatFmt) (m : RMode) (v : Val) (ws : List Nat) : Nat × Nat :=
  let (r, fl) := toFloat f { mode := m } v
  let iv := ws.any (isSNan f) || (v.isNan && !ws.any (isNan f))
  (r, fl ||| (if iv then Exc.iv else 0))

def neg (f : FloatFmt) (w : Nat) : Nat := w ^^^ 2 ^ (f.width - 1)
def sign (f : FloatFmt) (w : Nat) : Bool := bitsAt w (f.width - 1) 1 == 1

def add (f : FloatFmt) (m : RMode) (a b : Nat) : Nat × Nat :=
  finish f m (Val.add (m == .rdn) (decodeFloat f a) (decodeFloat f b)) [a, b]
def sub (f : FloatFmt) (m : RMode) (a b : Nat) : Nat × Nat :=
  finish f m (Val.add (m == .rdn) (decodeFloat f a) (decodeFloat f b).neg) [a, b]
def mul (f : FloatFmt) (m : RMode) (a b : Nat) : Nat × Nat := finish f m (Val.mul (decodeFloat f a) (decodeFloat f b)) [a, b]

/-- Division: DZ for a finite number over zero. -/
def div (f : FloatFmt) (m : RMode) (a b : Nat) : Nat × Nat :=
  let x := decodeFloat f a
  let y := decodeFloat f b
  let s := x.sign != y.sign
  match x, y with
  | .nan, _ => finish f m .nan [a, b]
  | _, .nan => finish f m .nan [a, b]
  | .inf _, .inf _ => finish f m .nan [a, b]
  | .inf _, _ => finish f m (.inf s) [a, b]
  | .fin .., .inf _ => finish f m (.fin s 0 0) [a, b]
  | .fin _ p _, .fin _ q _ =>
    if q == 0 then (if p == 0 then finish f m .nan [a, b] else let (r, fl) := finish f m (.inf s) [a, b]; (r, fl ||| Exc.dz))
    else finish f m (divVal x y) [a, b]

def sqrt (f : FloatFmt) (m : RMode) (a : Nat) : Nat × Nat :=
  match decodeFloat f a with
  | .inf false => finish f m (.inf false) [a]
  | .fin s p e => if s && p != 0 then finish f m .nan [a] else finish f m (sqrtVal (.fin s p e)) [a]
  | _ => finish f m .nan [a]

/-- Fused a × b + c, with the product and the addend negated as asked; Inf × 0 is invalid even beside a NaN addend. -/
def fma (f : FloatFmt) (m : RMode) (negP negC : Bool) (a b c : Nat) : Nat × Nat :=
  let p := Val.mul (decodeFloat f a) (decodeFloat f b)
  let p := if negP then p.neg else p
  let x := decodeFloat f c
  let (r, fl) := finish f m (Val.add (m == .rdn) p (if negC then x.neg else x)) [a, b, c]
  (r, fl ||| (if p.isNan && !isNan f a && !isNan f b then Exc.iv else 0))

/-- min and max: a NaN gives way to a number, and −0 is less than +0. -/
def minmax (f : FloatFmt) (isMax : Bool) (a b : Nat) : Nat × Nat :=
  let fl := if isSNan f a || isSNan f b then Exc.iv else 0
  if isNan f a && isNan f b then (f.nanEnc, fl)
  else if isNan f a then (b, fl) else if isNan f b then (a, fl)
  else
    let c := Val.cmp (decodeFloat f a) (decodeFloat f b)
    let less := decide (c < 0) || (c == 0 && sign f a && !sign f b)
    (if less != isMax then a else b, fl)

/-- Comparisons: 0 le, 1 lt, 2 eq; eq is quiet. -/
def cmp (f : FloatFmt) (op a b : Nat) : Bool × Nat :=
  let bad := isNan f a || isNan f b
  let c := Val.cmp (decodeFloat f a) (decodeFloat f b)
  if bad then (false, if op != 2 || isSNan f a || isSNan f b then Exc.iv else 0)
  else (match op with | 0 => decide (c ≤ 0) | 1 => decide (c < 0) | _ => c == 0, 0)

/-- Sign injection: 0 J, 1 JN, 2 JX. -/
def sgnj (f : FloatFmt) (op a b : Nat) : Nat :=
  let s := match op with | 0 => sign f b | 1 => !sign f b | _ => sign f a != sign f b
  a % 2 ^ (f.width - 1) + (if s then 2 ^ (f.width - 1) else 0)

/-- FCLASS. -/
def cls (f : FloatFmt) (w : Nat) : Nat :=
  let n := sign f w
  match decodeFloat f w with
  | .inf _ => if n then 1 else 128
  | .nan => if isSNan f w then 256 else 512
  | .fin .. =>
    let e := (w >>> f.mb) % 2 ^ f.eb
    let m := w % 2 ^ f.mb
    if e == 0 then (if m == 0 then (if n then 8 else 16) else (if n then 4 else 32)) else (if n then 2 else 64)

/-- One float format to another. -/
def cvt (f g : FloatFmt) (m : RMode) (w : Nat) : Nat × Nat :=
  let (r, fl) := toFloat g { mode := m } (decodeFloat f w)
  (r, fl ||| (if isSNan f w then Exc.iv else 0))

/-- To an integer of w bits: out of range, or NaN, gives the bound and NV alone. -/
def toInt (f : FloatFmt) (m : RMode) (w : Nat) (signed : Bool) (a : Nat) : Nat × Nat :=
  let hi : Int := if signed then (2 ^ (w - 1) : Nat) - 1 else (2 ^ w : Nat) - 1
  let lo : Int := if signed then -((2 ^ (w - 1) : Nat) : Int) else 0
  match decodeFloat f a with
  | .nan => (toBits hi w, Exc.iv)
  | .inf n => (toBits (if n then lo else hi) w, Exc.iv)
  | .fin n p e =>
    let k : Int := roundMag m n p e 0 0
    let x := if n then -k else k
    if x > hi then (toBits hi w, Exc.iv) else if x < lo then (toBits lo w, Exc.iv)
    else (toBits x w, if exactAt p e 0 then 0 else Exc.nx)

/-- From an integer. -/
def ofInt (f : FloatFmt) (m : RMode) (x : Int) : Nat × Nat := toFloat f { mode := m } (Val.ofInt x)

/-! vfrsqrt7 and vfrec7 (02 R51): the estimates of the V specification. -/

/-- The 7-bit significand of 1/√x, by the exponent's low bit and the top 6 bits of the fraction. -/
def rsqrtTable (odd : Bool) (i : Nat) : Nat :=
  let a := [52, 51, 50, 48, 47, 46, 44, 43, 42, 41, 40, 39, 38, 36, 35, 34, 33, 32, 31, 30, 30, 29, 28, 27, 26, 25, 24, 23, 23, 22, 21, 20,
            19, 19, 18, 17, 16, 16, 15, 14, 14, 13, 12, 12, 11, 10, 10, 9, 9, 8, 7, 7, 6, 6, 5, 4, 4, 3, 3, 2, 2, 1, 1, 0]
  let b := [127, 125, 123, 121, 119, 118, 116, 114, 113, 111, 109, 108, 106, 105, 103, 102, 100, 99, 97, 96, 95, 93, 92, 91, 90, 88, 87, 86,
            85, 84, 83, 82, 80, 79, 78, 77, 76, 75, 74, 73, 72, 71, 70, 70, 69, 68, 67, 66, 65, 64, 63, 63, 62, 61, 60, 59, 59, 58, 57, 56,
            56, 55, 54, 53]
  (if odd then b else a).getD i 0

/-- The 7-bit significand of 1/x, by the top 7 bits of the fraction. -/
def recTable (i : Nat) : Nat :=
  ([127, 125, 123, 121, 119, 117, 116, 114, 112, 110, 109, 107, 105, 104, 102, 100, 99, 97, 96, 94, 93, 91, 90, 88, 87, 85, 84, 83, 81, 80, 79,
    77, 76, 75, 74, 72, 71, 70, 69, 68, 66, 65, 64, 63, 62, 61, 60, 59, 58, 57, 56, 55, 54, 53, 52, 51, 50, 49, 48, 47, 46, 45, 44, 43] ++
   [42, 41, 40, 40, 39, 38, 37, 36, 35, 35, 34, 33, 32, 31, 31, 30, 29, 28, 28, 27, 26, 25, 25, 24, 23, 23, 22, 21, 21, 20, 19, 19, 18, 17, 17,
    16, 15, 15, 14, 14, 13, 12, 12, 11, 11, 10, 9, 9, 8, 8, 7, 7, 6, 5, 5, 4, 4, 3, 3, 2, 2, 1, 1, 0]).getD i 0

/-- A magnitude's exponent field and fraction, a subnormal normalised. -/
def normal (f : FloatFmt) (w : Nat) : Int × Nat :=
  let e := (w >>> f.mb) % 2 ^ f.eb
  let m := w % 2 ^ f.mb
  if e != 0 then (e, m) else let k := f.mb - log2 m; (1 - (k : Int), (m <<< k) % 2 ^ f.mb)

def rsqrt7 (f : FloatFmt) (w : Nat) : Nat × Nat :=
  match decodeFloat f w with
  | .nan => (f.nanEnc, if isSNan f w then Exc.iv else 0)
  | .inf n => if n then (f.nanEnc, Exc.iv) else (0, 0)
  | .fin n p _ =>
    if p == 0 then ((if n then 2 ^ (f.width - 1) else 0) + f.infEnc, Exc.dz)
    else if n then (f.nanEnc, Exc.iv)
    else
      let (e, m) := normal f w
      let e' := (3 * (f.bias : Int) - 1 - e) / 2
      (e'.toNat * 2 ^ f.mb + rsqrtTable (e % 2 != 0) (m >>> (f.mb - 6)) * 2 ^ (f.mb - 7), 0)

def rec7 (f : FloatFmt) (mode : RMode) (w : Nat) : Nat × Nat :=
  let s := if sign f w then 2 ^ (f.width - 1) else 0
  match decodeFloat f w with
  | .nan => (f.nanEnc, if isSNan f w then Exc.iv else 0)
  | .inf _ => (s, 0)
  | .fin n p _ =>
    if p == 0 then (s + f.infEnc, Exc.dz)
    else
      let (e, m) := normal f w
      if e < -1 then
        let most := match mode with | .rtz => true | .rdn => !n | .rup => n | _ => false
        (s + (if most then f.maxEnc else f.infEnc), Exc.ov ||| Exc.nx)
      else
        let e' := 2 * (f.bias : Int) - 1 - e
        let m' := recTable (m >>> (f.mb - 7)) * 2 ^ (f.mb - 7)
        if e' ≥ 1 then (s + e'.toNat * 2 ^ f.mb + m', 0)
        else (s + (2 ^ f.mb + m') >>> (1 - e').toNat, 0)

end Fp

end Sys2Proof.Machine
end

