-- ==== Sys2Proof/Machine/RvScalar.lean ====
section
/-! DEFINITION. The scalar RISC-V instructions: RV64GC with Zicsr, Zifencei, Zba, Zbb and Zicntr, and the scalar half-precision options of the vector cores, as the ratified specifications define them (05_vector_scalar.md R125, R127, R131; assumption 20). -/

namespace Sys2Proof.Machine

/-! Registers. -/

namespace Core

def xGet (k : Core) (r : Nat) : Nat := if r == 0 then 0 else (Tbl.getD k.x r 0#64).toNat
def xSet (k : Core) (r v : Nat) : Core := if r == 0 then k else { k with x := if v % 2 ^ 64 == 0 then Tbl.del k.x r else Tbl.put k.x r (BitVec.ofNat 64 v) }
def fGet (k : Core) (r : Nat) : Nat := (Tbl.getD k.f r 0#64).toNat
def fSet (k : Core) (r v : Nat) : Core := { k with f := if v % 2 ^ 64 == 0 then Tbl.del k.f r else Tbl.put k.f r (BitVec.ofNat 64 v) }
/-- A narrower number in a register of 64 bits: boxed in ones, and a NaN where it is not. -/
def fBox (k : Core) (f : FloatFmt) (r v : Nat) : Core := k.fSet r (v % 2 ^ f.width + (2 ^ 64 - 2 ^ f.width))
def fNum (k : Core) (f : FloatFmt) (r : Nat) : Nat :=
  let v := k.fGet r
  if v >>> f.width == 2 ^ (64 - f.width) - 1 then v % 2 ^ f.width else f.nanEnc
/-- Flags accrued in fflags. -/
def accrue (k : Core) (fl : Nat) : Core := { k with fcsr := k.fcsr ||| (fl % 32) }

end Core

/-- An integer of 64 bits, signed. -/
def s64 (v : Nat) : Int := sext v 64
/-- 32 bits extended with their sign. -/
def sx32 (v : Nat) : Nat := toBits (sext v 32) 64

/-! CSRs (05 R125, R127, R131). -/

/-- The M-mode CSRs that a core implements. -/
def mCsrs : List Nat := [0x300, 0x301, 0x304, 0x305, 0x306, 0x320, 0x340, 0x341, 0x342, 0x343, 0x344, 0xB00, 0xB02, 0xF11, 0xF12, 0xF13, 0xF14, 0xF15]

/-- VBAY of a Bay and the Bays of its Volume on this part (05 R131): the Bays that the running tile's Volume binds here, in order. -/
def volumeBays (s : State) (b : Nat) : List Nat :=
  match Tbl.find s.work.tiles (s.bay b).tile with
  | some t => match Tbl.find s.work.cmds t.cmd with
    | some c => match (Tbl.find s.vols.vols c.volume).bind (·.cur) with
      | some m => match m.members.find? (fun e => e.device == s.fab.deviceId) with
        | some e => (List.range 32).filter (fun i => bitsAt e.bays i 1 == 1)
        | none => [b]
      | none => [b]
    | none => [b]
  | none => [b]
def vbayOf (s : State) (b : Nat) : Nat := ((volumeBays s b).idxOf? b).getD 0

/-- A CSR read; none where the access is illegal. -/
def csrRead (s : State) (b c n : Nat) : Option Nat :=
  let k := s.core b c
  let vec := decide (c < 4)
  let kern := c != 4
  if n / 256 % 4 == 3 then (if k.machine && mCsrs.contains n then some (match n with | 0xB00 => k.cycle | 0xB02 => k.instret | _ => (Tbl.getD k.mcsr n 0#64).toNat) else none)
  else match n with
    | 0x001 => some (k.fcsr % 32) | 0x002 => some (k.fcsr / 32 % 8) | 0x003 => some (k.fcsr % 256)
    | 0xC00 => some k.cycle | 0xC01 => some s.now | 0xC02 => some k.instret
    | 0x008 => if vec then some k.vstart else none
    | 0x009 => if vec then some (k.vcsr % 2) else none
    | 0x00A => if vec then some (k.vcsr / 2 % 4) else none
    | 0x00F => if vec then some (k.vcsr % 8) else none
    | 0xC20 => if vec then some k.vl else none
    | 0xC21 => if vec then some k.vtype.toNat else none
    | 0xC22 => if vec then some 512 else none
    | 0x800 => if kern then some (k.fcsr % 32 + put k.xflagsHi 5 4) else none
    | 0x801 => if kern then some k.xctl.toNat else none
    | 0x802 => if kern then some k.xorigin else none
    | 0x804 => if kern then some (Tbl.getD k.cnPay 0 0#64).toNat else none
    | 0x805 => if kern then some (Tbl.getD k.cnPay 1 0#64).toNat else none
    | 0x806 => if kern then some (Tbl.getD k.cnPay 2 0#64).toNat else none
    | 0xCC0 => if kern then some (vbayOf s b + put (volumeBays s b).length 8 6 + put (portOfCore c) 16 4) else none
    | 0xCC1 => if kern then some (Tbl.getD k.cnRpay 0 0#64).toNat else none
    | 0xCC2 => if kern then some (Tbl.getD k.cnRpay 1 0#64).toNat else none
    | 0xCC3 => if kern then some (Tbl.getD k.cnRpay 2 0#64).toNat else none
    | 0xCC4 => if kern then some k.recv.length else none
    | _ => none

/-- XCTL with a value written: a reserved value of a field leaves it (05 R131). -/
def xctlWrite (old : Word) (v : Nat) : Word :=
  let o := old.toNat
  let rm := if bitsAt v 0 3 ≤ 4 then bitsAt v 0 3 else bitsAt o 0 3
  let fmt := if (Fmt.ofCode (bitsAt v 4 5)).isSome then bitsAt v 4 5 else bitsAt o 4 5
  BitVec.ofNat 32 (rm + put (bitsAt v 3 1) 3 1 + put fmt 4 5 + put (bitsAt v 9 6) 9 6 + put (bitsAt v 16 16) 16 16)

/-- A CSR written; none where the access is illegal. -/
def csrWrite (s : State) (b c n v : Nat) : Option State :=
  let m := fun (f : Core → Core) => some (s.modCore b c f)
  if (csrRead s b c n).isNone || n / 1024 == 3 then none
  else match n with
    | 0xB00 => m (fun k => { k with cycle := v })
    | 0xB02 => m (fun k => { k with instret := v })
    | 0x001 => m (fun k => { k with fcsr := k.fcsr / 32 * 32 + v % 32 })
    | 0x002 => m (fun k => { k with fcsr := k.fcsr % 32 + v % 8 * 32 })
    | 0x003 => m (fun k => { k with fcsr := v % 256 })
    | 0x008 => m (fun k => { k with vstart := v % 4096 })
    | 0x009 => m (fun k => { k with vcsr := k.vcsr / 2 * 2 + v % 2 })
    | 0x00A => m (fun k => { k with vcsr := k.vcsr % 2 + v % 4 * 2 })
    | 0x00F => m (fun k => { k with vcsr := v % 8 })
    | 0x800 => m (fun k => { k with fcsr := k.fcsr / 32 * 32 + v % 32, xflagsHi := bitsAt v 5 4 })
    | 0x801 => m (fun k => { k with xctl := xctlWrite k.xctl v })
    | 0x802 => m (fun k => { k with xorigin := v % 2 ^ 48 })
    | 0x804 => m (fun k => { k with cnPay := Tbl.put k.cnPay 0 (BitVec.ofNat 64 v) })
    | 0x805 => m (fun k => { k with cnPay := Tbl.put k.cnPay 1 (BitVec.ofNat 64 v) })
    | 0x806 => m (fun k => { k with cnPay := Tbl.put k.cnPay 2 (BitVec.ofNat 64 v) })
    | n => m (fun k => { k with mcsr := Tbl.put k.mcsr n (BitVec.ofNat 64 v) })

/-! Integer operations (05 R125: I, M, Zba, Zbb). -/

def clz (w v : Nat) : Nat := if v % 2 ^ w == 0 then w else w - 1 - log2 (v % 2 ^ w)
def ctzGo (v : Nat) : Nat → Nat → Nat
  | 0, n => n
  | k + 1, n => if v >>> n % 2 == 1 then n else ctzGo v k (n + 1)
def ctz (w v : Nat) : Nat := ctzGo (v % 2 ^ w) w 0
def popcount (w v : Nat) : Nat := ((List.range w).filter (fun i => bitsAt v i 1 == 1)).length
def rol (w v n : Nat) : Nat := let v := v % 2 ^ w; ((v <<< n) ||| (v >>> (w - n))) % 2 ^ w
def bytesMap (n : Nat) (f : List Byte → List Byte) (v : Nat) : Nat := natLE (f (bytesLE n v))

/-- Signed and unsigned division, with the results that M gives at zero and at overflow. -/
def rvDiv (w : Nat) (signed rem : Bool) (a b : Nat) : Nat :=
  let x : Int := if signed then sext a w else (a % 2 ^ w : Nat)
  let y : Int := if signed then sext b w else (b % 2 ^ w : Nat)
  if y == 0 then (if rem then a % 2 ^ w else 2 ^ w - 1)
  else toBits (if rem then x.tmod y else x.tdiv y) w

/-- OP: the result by funct7 and funct3; none where there is none. -/
def aluOp (f7 f3 a b : Nat) : Option Nat :=
  let sh := b % 64
  let m := 2 ^ 64
  match f7, f3 with
  | 0, 0 => some ((a + b) % m) | 0, 1 => some ((a <<< sh) % m) | 0, 2 => some (bit (decide (s64 a < s64 b))) | 0, 3 => some (bit (decide (a < b)))
  | 0, 4 => some (a ^^^ b) | 0, 5 => some (a >>> sh) | 0, 6 => some (a ||| b) | 0, 7 => some (a &&& b)
  | 0x20, 0 => some ((a + m - b) % m) | 0x20, 5 => some (toBits (s64 a >>> sh) 64)
  | 0x20, 4 => some (m - 1 - (a ^^^ b)) | 0x20, 6 => some (a ||| (m - 1 - b)) | 0x20, 7 => some (a &&& (m - 1 - b))
  | 1, 0 => some (a * b % m) | 1, 1 => some (toBits ((s64 a * s64 b) >>> 64) 64) | 1, 2 => some (toBits ((s64 a * (b : Int)) >>> 64) 64) | 1, 3 => some (a * b / m)
  | 1, 4 => some (rvDiv 64 true false a b) | 1, 5 => some (rvDiv 64 false false a b) | 1, 6 => some (rvDiv 64 true true a b) | 1, 7 => some (rvDiv 64 false true a b)
  | 0x10, 2 => some ((b + 2 * a) % m) | 0x10, 4 => some ((b + 4 * a) % m) | 0x10, 6 => some ((b + 8 * a) % m)
  | 5, 4 => some (if s64 a < s64 b then a else b) | 5, 5 => some (min a b) | 5, 6 => some (if s64 a < s64 b then b else a) | 5, 7 => some (max a b)
  | 0x30, 1 => some (rol 64 a sh) | 0x30, 5 => some (rol 64 a (64 - sh))
  | _, _ => none

/-- OP-32. -/
def aluOp32 (f7 f3 rs2 a b : Nat) : Option Nat :=
  let x := a % 2 ^ 32
  let y := b % 2 ^ 32
  let sh := b % 32
  match f7, f3 with
  | 0, 0 => some (sx32 (x + y)) | 0, 1 => some (sx32 (x <<< sh)) | 0, 5 => some (sx32 (x >>> sh))
  | 0x20, 0 => some (sx32 (x + 2 ^ 32 - y)) | 0x20, 5 => some (toBits (sext x 32 >>> sh) 64)
  | 1, 0 => some (sx32 (x * y)) | 1, 4 => some (sx32 (rvDiv 32 true false a b)) | 1, 5 => some (sx32 (rvDiv 32 false false a b))
  | 1, 6 => some (sx32 (rvDiv 32 true true a b)) | 1, 7 => some (sx32 (rvDiv 32 false true a b))
  | 4, 0 => some ((b + x) % 2 ^ 64) | 4, 4 => if rs2 == 0 then some (a % 2 ^ 16) else none
  | 0x10, 2 => some ((b + 2 * x) % 2 ^ 64) | 0x10, 4 => some ((b + 4 * x) % 2 ^ 64) | 0x10, 6 => some ((b + 8 * x) % 2 ^ 64)
  | 0x30, 1 => some (sx32 (rol 32 x sh)) | 0x30, 5 => some (sx32 (rol 32 x (32 - sh)))
  | _, _ => none

/-- OP-IMM; `imm` is the 12-bit field. -/
def aluImm (f3 imm a : Nat) : Option Nat :=
  let i := toBits (sext imm 12) 64
  let sh := imm % 64
  match f3 with
  | 1 => match imm with
    | 0x600 => some (clz 64 a) | 0x601 => some (ctz 64 a) | 0x602 => some (popcount 64 a)
    | 0x604 => some (toBits (sext a 8) 64) | 0x605 => some (toBits (sext a 16) 64)
    | _ => if imm / 64 == 0 then aluOp 0 1 a sh else none
  | 5 =>
    if imm == 0x287 then some (bytesMap 8 (fun l => l.map (fun x => if x == 0#8 then 0#8 else 0xFF#8)) a)
    else if imm == 0x6B8 then some (bytesMap 8 List.reverse a)
    else if imm / 64 == 0 then aluOp 0 5 a sh else if imm / 64 == 0x10 then aluOp 0x20 5 a sh else if imm / 64 == 0x18 then aluOp 0x30 5 a sh else none
  | f => aluOp 0 f a i

/-- OP-IMM-32. -/
def aluImm32 (f3 imm a : Nat) : Option Nat :=
  let f7 := imm / 32
  match f3 with
  | 0 => some (sx32 (a + toBits (sext imm 12) 64))
  | 1 => match imm with
    | 0x600 => some (clz 32 a) | 0x601 => some (ctz 32 a) | 0x602 => some (popcount 32 a)
    | _ => if imm / 64 == 2 then some (((a % 2 ^ 32) <<< (imm % 64)) % 2 ^ 64) else if f7 == 0 then aluOp32 0 1 0 a (imm % 32) else none
  | 5 => if f7 == 0 || f7 == 0x20 || f7 == 0x30 then aluOp32 f7 5 0 a (imm % 32) else none
  | _ => none

/-- A branch taken. -/
def branchTaken (f3 a b : Nat) : Option Bool :=
  match f3 with
  | 0 => some (a == b) | 1 => some (a != b) | 4 => some (decide (s64 a < s64 b)) | 5 => some (decide (s64 a ≥ s64 b))
  | 6 => some (decide (a < b)) | 7 => some (decide (a ≥ b)) | _ => none

/-! Compressed instructions, as the 32-bit ones that they stand for. -/

def encR (op f3 f7 rd rs1 rs2 : Nat) : Nat := op + rd <<< 7 + f3 <<< 12 + rs1 <<< 15 + rs2 <<< 20 + f7 <<< 25
def encI (op f3 rd rs1 imm : Nat) : Nat := op + rd <<< 7 + f3 <<< 12 + rs1 <<< 15 + (imm % 4096) <<< 20
def encS (op f3 rs1 rs2 imm : Nat) : Nat := op + (imm % 32) <<< 7 + f3 <<< 12 + rs1 <<< 15 + rs2 <<< 20 + (imm / 32 % 128) <<< 25
def encB (f3 rs1 rs2 imm : Nat) : Nat :=
  0x63 + bitsAt imm 11 1 <<< 7 + bitsAt imm 1 4 <<< 8 + f3 <<< 12 + rs1 <<< 15 + rs2 <<< 20 + bitsAt imm 5 6 <<< 25 + bitsAt imm 12 1 <<< 31
def encJ (rd imm : Nat) : Nat :=
  0x6F + rd <<< 7 + bitsAt imm 12 8 <<< 12 + bitsAt imm 11 1 <<< 20 + bitsAt imm 1 10 <<< 21 + bitsAt imm 20 1 <<< 31

/-- A 16-bit instruction expanded; none where it is illegal. -/
def expandC (h : Nat) : Option Nat :=
  let rd := bitsAt h 7 5
  let rs2 := bitsAt h 2 5
  let rd' := 8 + bitsAt h 2 3
  let rs1' := 8 + bitsAt h 7 3
  let imm6 := toBits (sext (bitsAt h 2 5 + bitsAt h 12 1 * 32) 6) 12
  let uimm6 := bitsAt h 2 5 + bitsAt h 12 1 * 32
  let w4 := bitsAt h 6 1 * 4 + bitsAt h 10 3 * 8 + bitsAt h 5 1 * 64
  let d8 := bitsAt h 10 3 * 8 + bitsAt h 5 2 * 64
  match h % 4, bitsAt h 13 3 with
  | 0, 0 =>
    let i := bitsAt h 6 1 * 4 + bitsAt h 5 1 * 8 + bitsAt h 11 2 * 16 + bitsAt h 7 4 * 64
    if i == 0 then none else some (encI 0x13 0 rd' 2 i)
  | 0, 1 => some (encI 0x07 3 rd' rs1' d8)
  | 0, 2 => some (encI 0x03 2 rd' rs1' w4)
  | 0, 3 => some (encI 0x03 3 rd' rs1' d8)
  | 0, 5 => some (encS 0x27 3 rs1' rd' d8)
  | 0, 6 => some (encS 0x23 2 rs1' rd' w4)
  | 0, 7 => some (encS 0x23 3 rs1' rd' d8)
  | 1, 0 => some (encI 0x13 0 rd rd imm6)
  | 1, 1 => if rd == 0 then none else some (encI 0x1B 0 rd rd imm6)
  | 1, 2 => some (encI 0x13 0 rd 0 imm6)
  | 1, 3 =>
    if rd == 2 then
      let i := bitsAt h 6 1 * 16 + bitsAt h 2 1 * 32 + bitsAt h 5 1 * 64 + bitsAt h 3 2 * 128 + bitsAt h 12 1 * 512
      if i == 0 then none else some (encI 0x13 0 2 2 (toBits (sext i 10) 12))
    else if uimm6 == 0 then none else some (0x37 + rd <<< 7 + (toBits (sext uimm6 6) 20) <<< 12)
  | 1, 4 =>
    match bitsAt h 10 2 with
    | 0 => some (encI 0x13 5 rs1' rs1' uimm6)
    | 1 => some (encI 0x13 5 rs1' rs1' (0x400 + uimm6))
    | 2 => some (encI 0x13 7 rs1' rs1' imm6)
    | _ =>
      match bitsAt h 12 1, bitsAt h 5 2 with
      | 0, 0 => some (encR 0x33 0 0x20 rs1' rs1' rd') | 0, 1 => some (encR 0x33 4 0 rs1' rs1' rd')
      | 0, 2 => some (encR 0x33 6 0 rs1' rs1' rd') | 0, _ => some (encR 0x33 7 0 rs1' rs1' rd')
      | _, 0 => some (encR 0x3B 0 0x20 rs1' rs1' rd') | _, 1 => some (encR 0x3B 0 0 rs1' rs1' rd')
      | _, _ => none
  | 1, 5 =>
    let i := bitsAt h 3 3 * 2 + bitsAt h 11 1 * 16 + bitsAt h 2 1 * 32 + bitsAt h 7 1 * 64 + bitsAt h 6 1 * 128 + bitsAt h 9 2 * 256 + bitsAt h 8 1 * 1024 + bitsAt h 12 1 * 2048
    some (encJ 0 (toBits (sext i 12) 21))
  | 1, 6 =>
    let i := bitsAt h 3 2 * 2 + bitsAt h 10 2 * 8 + bitsAt h 2 1 * 32 + bitsAt h 5 2 * 64 + bitsAt h 12 1 * 256
    some (encB 0 rs1' 0 (toBits (sext i 9) 13))
  | 1, 7 =>
    let i := bitsAt h 3 2 * 2 + bitsAt h 10 2 * 8 + bitsAt h 2 1 * 32 + bitsAt h 5 2 * 64 + bitsAt h 12 1 * 256
    some (encB 1 rs1' 0 (toBits (sext i 9) 13))
  | 2, 0 => some (encI 0x13 1 rd rd uimm6)
  | 2, 1 => some (encI 0x07 3 rd 2 (bitsAt h 5 2 * 8 + bitsAt h 12 1 * 32 + bitsAt h 2 3 * 64))
  | 2, 2 => if rd == 0 then none else some (encI 0x03 2 rd 2 (bitsAt h 4 3 * 4 + bitsAt h 12 1 * 32 + bitsAt h 2 2 * 64))
  | 2, 3 => if rd == 0 then none else some (encI 0x03 3 rd 2 (bitsAt h 5 2 * 8 + bitsAt h 12 1 * 32 + bitsAt h 2 3 * 64))
  | 2, 4 =>
    if bitsAt h 12 1 == 0 then
      if rs2 == 0 then (if rd == 0 then none else some (encI 0x67 0 0 rd 0)) else some (encR 0x33 0 0 rd 0 rs2)
    else if rs2 == 0 then (if rd == 0 then some 0x00100073 else some (encI 0x67 0 1 rd 0))
    else some (encR 0x33 0 0 rd rd rs2)
  | 2, 5 => some (encS 0x27 3 2 rs2 (bitsAt h 10 3 * 8 + bitsAt h 7 3 * 64))
  | 2, 6 => some (encS 0x23 2 2 rs2 (bitsAt h 9 4 * 4 + bitsAt h 7 2 * 64))
  | 2, 7 => some (encS 0x23 3 2 rs2 (bitsAt h 10 3 * 8 + bitsAt h 7 3 * 64))
  | _, _ => none

/-! Floating point on the scalar registers (05 R125: F, D; Zfhmin and Zfbfmin on the vector cores). -/

/-- The format of an OP-FP fmt field. -/
def fpFmt (n : Nat) : Option FloatFmt := match n with | 0 => some .fp32 | 1 => some .fp64 | _ => none

/-- OP-FP: the core it leaves; none where it is illegal. -/
def fpOp (vec : Bool) (k : Core) (w : Nat) : Option Core :=
  let rd := bitsAt w 7 5
  let rm := bitsAt w 12 3
  let r1 := bitsAt w 15 5
  let r2 := bitsAt w 20 5
  let f5 := bitsAt w 27 5
  let fm := bitsAt w 25 2
  let mode := rvMode (if rm == 7 then k.fcsr / 32 % 8 else rm)
  let narrow := fun (n : Nat) => match n with
    | 0 => some FloatFmt.fp32 | 1 => some .fp64 | 2 => if vec then some .fp16 else none | _ => none
  let put_ := fun (f : FloatFmt) (r : Nat × Nat) => some ((k.fBox f rd r.1).accrue r.2)
  let putX := fun (r : Nat × Nat) => some ((k.xSet rd r.1).accrue r.2)
  if f5 == 8 then
    -- conversions between formats: fmt is the destination, rs2 the source; 6 is BF16 from, 8 to BF16
    match mode with
    | none => none
    | some m =>
      if fm == 0 && r2 == 6 && vec then put_ .fp32 (Fp.cvt .bf16 .fp32 m (k.fNum .bf16 r1))
      else if fm == 2 && r2 == 8 && vec then put_ .bf16 (Fp.cvt .fp32 .bf16 m (k.fNum .fp32 r1))
      else match narrow fm, narrow r2 with
        | some g, some f => if f == g then none else put_ g (Fp.cvt f g m (k.fNum f r1))
        | _, _ => none
  else if f5 == 0x1C && rm == 0 && r2 == 0 then
    match fm with
    | 0 => putX (sx32 (k.fGet r1), 0) | 1 => putX (k.fGet r1, 0)
    | 2 => if vec then putX (toBits (sext (k.fGet r1) 16) 64, 0) else none | _ => none
  else if f5 == 0x1E && rm == 0 && r2 == 0 then
    match fm with
    | 0 => put_ .fp32 (k.xGet r1, 0) | 1 => some (k.fSet rd (k.xGet r1)) | 2 => if vec then put_ .fp16 (k.xGet r1, 0) else none | _ => none
  else match fpFmt fm with
    | none => none
    | some f =>
      let a := k.fNum f r1
      let b := k.fNum f r2
      match f5, mode with
      | 0, some m => put_ f (Fp.add f m a b) | 1, some m => put_ f (Fp.sub f m a b) | 2, some m => put_ f (Fp.mul f m a b)
      | 3, some m => put_ f (Fp.div f m a b)
      | 0xB, some m => if r2 == 0 then put_ f (Fp.sqrt f m a) else none
      | 4, _ => if rm ≤ 2 then put_ f (Fp.sgnj f rm a b, 0) else none
      | 5, _ => if rm ≤ 1 then put_ f (Fp.minmax f (rm == 1) a b) else none
      | 0x14, _ => if rm ≤ 2 then let (r, fl) := Fp.cmp f rm a b; putX (bit r, fl) else none
      | 0x1C, _ => if rm == 1 && r2 == 0 then putX (Fp.cls f a, 0) else none
      | 0x18, some m =>
        if r2 ≥ 4 then none
        else let w' := if r2 < 2 then 32 else 64
             let (r, fl) := Fp.toInt f m w' (r2 % 2 == 0) a
             putX (toBits (sext r w') 64, fl)
      | 0x1A, some m =>
        if r2 ≥ 4 then none
        else let w' := if r2 < 2 then 32 else 64
             let x := k.xGet r1
             put_ f (Fp.ofInt f m (if r2 % 2 == 0 then sext x w' else (x % 2 ^ w' : Nat)))
      | _, _ => none

/-- FMADD, FMSUB, FNMSUB, FNMADD. -/
def fpFma (k : Core) (w : Nat) : Option Core :=
  let rm := bitsAt w 12 3
  match fpFmt (bitsAt w 25 2), rvMode (if rm == 7 then k.fcsr / 32 % 8 else rm) with
  | some f, some m =>
    let op := bitsAt w 2 2
    let (r, fl) := Fp.fma f m (decide (op ≥ 2)) (op == 1 || op == 3) (k.fNum f (bitsAt w 15 5)) (k.fNum f (bitsAt w 20 5)) (k.fNum f (bitsAt w 27 5))
    some ((k.fBox f (bitsAt w 7 5) r).accrue fl)
  | _, _ => none

/-! Executing one scalar instruction. The answer is the next pc. -/

/-- An illegal instruction (05 R125). -/
def illegal (s : State) (w : Nat) : CoreGot Nat := .trap s 2 w Status.aborted.code

/-- A load into a register. -/
def rvLoad (s : State) (b : BayNo) (c va n : Nat) (npc : Nat) (f : Core → Nat → Core) : CoreGot Nat :=
  match coreLoad s b c va n with
  | .ok s bs => .ok ((coreCharge s b c va n true false).modCore b c (fun k => f k (natLE bs))) npc
  | .wait s => .wait s
  | .trap s x y z => .trap s x y z

def rvStore (s : State) (b : BayNo) (c va n v npc : Nat) : CoreGot Nat :=
  match coreStore s b c va (bytesLE n v) with
  | .ok s _ => .ok (coreCharge s b c va n false true) npc
  | .wait s => .wait s
  | .trap s x y z => .trap s x y z

/-- The fabric's code of an AMO's funct5 (11 R324). -/
def amoCode (f5 : Nat) : Option Nat :=
  match f5 with
  | 0 => some 0 | 1 => some 8 | 4 => some 3 | 0xC => some 1 | 8 => some 2 | 0x10 => some 4 | 0x14 => some 5 | 0x18 => some 6 | 0x1C => some 7 | _ => none

/-- LR, SC and the AMOs. -/
def rvAmo (s : State) (b : BayNo) (c w npc : Nat) : CoreGot Nat :=
  let k := s.core b c
  let f3 := bitsAt w 12 3
  let n := if f3 == 2 then 4 else 8
  let rd := bitsAt w 7 5
  let va := k.xGet (bitsAt w 15 5)
  let r2 := bitsAt w 20 5
  let f5 := bitsAt w 27 5
  let ext := fun (v : Nat) => toBits (sext v (8 * n)) 64
  if f3 != 2 && f3 != 3 then illegal s w
  else if f5 == 2 then
    if r2 != 0 then illegal s w
    else match coreLr s b c n va with
      | .ok s v => .ok ((coreCharge s b c va n true false).modCore b c (fun k => k.xSet rd (ext v))) npc
      | .wait s => .wait s
      | .trap s x y z => .trap s x y z
  else if f5 == 3 then
    match coreSc s b c n va (k.xGet r2) with
    | .ok s bad => .ok ((coreCharge s b c va n false (!bad)).modCore b c (fun k => k.xSet rd (bit bad))) npc
    | .wait s => .wait s
    | .trap s x y z => .trap s x y z
  else match amoCode f5 with
    | none => illegal s w
    | some op => match coreAmo s b c op n va (k.xGet r2 % 2 ^ (8 * n)) 0 with
      | .ok s v => .ok ((coreCharge s b c va n true true).modCore b c (fun k => k.xSet rd (ext v))) npc
      | .wait s => .wait s
      | .trap s x y z => .trap s x y z

/-- The CSR instructions. -/
def rvCsr (s : State) (b c w npc : Nat) : CoreGot Nat :=
  let k := s.core b c
  let n := bitsAt w 20 12
  let rd := bitsAt w 7 5
  let r1 := bitsAt w 15 5
  let f3 := bitsAt w 12 3
  let v := if f3 ≥ 4 then r1 else k.xGet r1
  match csrRead s b c n with
  | none => illegal s w
  | some old =>
    let new := match f3 % 4 with
      | 1 => some v
      | 2 => if r1 == 0 then none else some (old ||| v)
      | _ => if r1 == 0 then none else some (old &&& (2 ^ 64 - 1 - v))
    match new with
    | none => .ok (s.modCore b c (fun k => k.xSet rd old)) npc
    | some v => match csrWrite s b c n v with
      | some s => .ok (s.modCore b c (fun k => k.xSet rd old)) npc
      | none => illegal s w

/-- MRET: the mode and the pc return (05 R127). -/
def rvMret (s : State) (b c : Nat) : CoreGot Nat :=
  let k := s.core b c
  let st := (Tbl.getD k.mcsr 0x300 0#64).toNat
  let st' := st - put (bitsAt st 3 1) 3 1 - put (bitsAt st 11 2) 11 2 + put (bitsAt st 7 1) 3 1
  let st' := if bitsAt st' 7 1 == 1 then st' else st' + 128
  .ok (s.modCore b c (fun k => { k with machine := bitsAt st 11 2 == 3, mcsr := Tbl.put k.mcsr 0x300 (BitVec.ofNat 64 st') })) (Tbl.getD k.mcsr 0x341 0#64).toNat

/-- ECALL, EBREAK, MRET and WFI (05 R127, R149). -/
def rvSystem (s : State) (b c w npc : Nat) : CoreGot Nat :=
  let k := s.core b c
  match w with
  | 0x00000073 => .trap s (if k.machine then 11 else 8) 0 Status.aborted.code
  | 0x00100073 => .trap s 3 k.pc.toNat Status.aborted.code
  | 0x30200073 => if k.machine then rvMret s b c else illegal s w
  | 0x10500073 => if k.machine then .ok s npc else illegal s w
  | _ => illegal s w

/-- One 32-bit scalar instruction; `len` is how many bytes it takes at pc. -/
def rvScalar (s : State) (b : BayNo) (c w len : Nat) : CoreGot Nat :=
  let k := s.core b c
  let pc := k.pc.toNat
  let npc := (pc + len) % 2 ^ 64
  let rd := bitsAt w 7 5
  let f3 := bitsAt w 12 3
  let f7 := bitsAt w 25 7
  let a := k.xGet (bitsAt w 15 5)
  let v := k.xGet (bitsAt w 20 5)
  let immI := toBits (sext (bitsAt w 20 12) 12) 64
  let immS := toBits (sext (bitsAt w 7 5 + bitsAt w 25 7 * 32) 12) 64
  let toReg := fun (r : Option Nat) => match r with
    | some x => CoreGot.ok (s.modCore b c (fun k => k.xSet rd x)) npc
    | none => illegal s w
  let core := fun (r : Option Core) => match r with
    | some k => CoreGot.ok (s.setCore b c k) npc
    | none => illegal s w
  let at_ := fun (i : Nat) => (a + i) % 2 ^ 64
  match w % 128 with
  | 0x37 => toReg (some (toBits (sext (w - w % 4096) 32) 64))
  | 0x17 => toReg (some (toBits ((pc : Int) + sext (w - w % 4096) 32) 64))
  | 0x6F =>
    let i := bitsAt w 21 10 * 2 + bitsAt w 20 1 * 2048 + bitsAt w 12 8 * 4096 + bitsAt w 31 1 * 2 ^ 20
    .ok (s.modCore b c (fun k => k.xSet rd npc)) (toBits ((pc : Int) + sext i 21) 64)
  | 0x67 => if f3 != 0 then illegal s w else .ok (s.modCore b c (fun k => k.xSet rd npc)) (let t := at_ immI; t - t % 2)
  | 0x63 =>
    let i := bitsAt w 8 4 * 2 + bitsAt w 25 6 * 32 + bitsAt w 7 1 * 2048 + bitsAt w 31 1 * 4096
    match branchTaken f3 a v with
    | some t => .ok s (if t then toBits ((pc : Int) + sext i 13) 64 else npc)
    | none => illegal s w
  | 0x03 =>
    let n := 2 ^ (f3 % 4)
    if f3 == 7 then illegal s w
    else rvLoad s b c (at_ immI) n npc (fun k x => k.xSet rd (if f3 < 4 then toBits (sext x (8 * n)) 64 else x))
  | 0x23 => if f3 > 3 then illegal s w else rvStore s b c (at_ immS) (2 ^ f3) v npc
  | 0x13 => toReg (aluImm f3 (bitsAt w 20 12) a)
  | 0x1B => toReg (aluImm32 f3 (bitsAt w 20 12) a)
  | 0x33 => toReg (aluOp f7 f3 a v)
  | 0x3B => toReg (aluOp32 f7 f3 (bitsAt w 20 5) a v)
  | 0x0F =>
    if f3 == 0 then .ok s npc
    else if f3 == 1 then .ok (s.modCore b c (fun k => { k with l1i := [] })) npc else illegal s w
  | 0x2F => rvAmo s b c w npc
  | 0x73 => if f3 == 0 then rvSystem s b c w npc else if f3 == 4 then illegal s w else rvCsr s b c w npc
  | 0x07 =>
    match f3 with
    | 1 => if c < 4 then rvLoad s b c (at_ immI) 2 npc (fun k x => k.fBox .fp16 rd x) else illegal s w
    | 2 => rvLoad s b c (at_ immI) 4 npc (fun k x => k.fBox .fp32 rd x)
    | 3 => rvLoad s b c (at_ immI) 8 npc (fun k x => k.fSet rd x)
    | _ => illegal s w
  | 0x27 =>
    let x := k.fGet (bitsAt w 20 5)
    match f3 with
    | 1 => if c < 4 then rvStore s b c (at_ immS) 2 x npc else illegal s w
    | 2 => rvStore s b c (at_ immS) 4 x npc
    | 3 => rvStore s b c (at_ immS) 8 x npc
    | _ => illegal s w
  | 0x53 => core (fpOp (decide (c < 4)) k w)
  | 0x43 => core (fpFma k w) | 0x47 => core (fpFma k w) | 0x4B => core (fpFma k w) | 0x4F => core (fpFma k w)
  | _ => illegal s w

end Sys2Proof.Machine
end

