-- ==== Sys2Proof/Machine/RvVector.lean ====
section
/-! DEFINITION. The vector instructions of V 1.0 with Zvfh, Zvfbfmin and Zvfbfwma, VLEN 4,096 and ELEN 64, as the ratified specifications define them (05_vector_scalar.md R125, R126; assumption 20). -/

namespace Sys2Proof.Machine

namespace Core

/-! vtype and element access. -/

def vill (k : Core) : Bool := bitsAt k.vtype.toNat 63 1 == 1
def vsew (k : Core) : Nat := 8 * 2 ^ bitsAt k.vtype.toNat 3 3
/-- log2 of LMUL. -/
def vlg (k : Core) : Int := sext (bitsAt k.vtype.toNat 0 3) 3
def vta (k : Core) : Bool := bitsAt k.vtype.toNat 6 1 == 1
def vma (k : Core) : Bool := bitsAt k.vtype.toNat 7 1 == 1

def vReg (k : Core) (r : Nat) : Nat := (Tbl.getD k.v r 0#4096).toNat
def vPutReg (k : Core) (r v : Nat) : Core := { k with v := if v % 2 ^ 4096 == 0 then Tbl.del k.v r else Tbl.put k.v r (BitVec.ofNat 4096 v) }
/-- Element i of width w of the group at r. -/
def vGet (k : Core) (r w i : Nat) : Nat := bitsAt (k.vReg (r + i * w / 4096)) (i * w % 4096) w
def vSet (k : Core) (r w i v : Nat) : Core :=
  let q := r + i * w / 4096
  let o := i * w % 4096
  let old := k.vReg q
  k.vPutReg q (old - bitsAt old o w <<< o + (v % 2 ^ w) <<< o)
def vBit (k : Core) (r i : Nat) : Bool := bitsAt (k.vReg r) i 1 == 1

end Core

/-- Registers of a group, and VLMAX, at an EEW with log2 EMUL. -/
def vRegs (lg : Int) : Nat := if lg ≥ 0 then 2 ^ lg.toNat else 1
def vlmaxOf (sew : Nat) (lg : Int) : Nat := if lg ≥ 0 then 4096 * 2 ^ lg.toNat / sew else 4096 / sew / 2 ^ (-lg).toNat

/-- Whether a group may be named: EMUL from 1/8 to 8, aligned to its registers. -/
def vAligned (r : Nat) (lg : Int) : Bool := decide (-3 ≤ lg) && decide (lg ≤ 3) && r % vRegs lg == 0

/-- Whether a destination group may overlap a source group of another EEW. -/
def vOverlapOk (vd : Nat) (dlg : Int) (vs : Nat) (slg : Int) (dw sw : Nat) : Bool :=
  let dn := vRegs dlg
  let sn := vRegs slg
  let meet := decide (vd < vs + sn) && decide (vs < vd + dn)
  if !meet || dw == sw then true
  else if dw < sw then vd == vs
  else decide (slg ≥ 0) && vs + sn == vd + dn

/-- The agnostic choice for an element: all ones, or as it was (assumption 3). -/
def agnostic (fr i : Nat) : Bool := (Config.freeByte (fr + i)).getLsbD 0

/-- A vector result: active body elements take `f`, which gives a value and flags; the others follow vma and vta. Flags of fflags are
bits 0 to 4; bit 5 is vxsat. -/
def vPutAll (k : Core) (fr : Nat) (vm : Bool) (vd w : Nat) (lg : Int) (f : Nat → Nat × Nat) : Core :=
  if k.vstart ≥ k.vl then { k with vstart := 0 }
  else
    let n := vRegs lg * (4096 / w)
    let (k', fl) := (List.range n).foldl (fun (a : Core × Nat) i =>
      if i < k.vstart then a
      else if i ≥ k.vl then (if k.vta && agnostic fr i then (a.1.vSet vd w i (2 ^ w - 1), a.2) else a)
      else if vm || k.vBit 0 i then let (v, g) := f i; (a.1.vSet vd w i v, a.2 ||| g)
      else if k.vma && agnostic fr i then (a.1.vSet vd w i (2 ^ w - 1), a.2) else a) (k, 0)
    let k' := k'.accrue fl
    { k' with vstart := 0, vcsr := if bitsAt fl 5 1 == 1 then k'.vcsr ||| 1 else k'.vcsr }

/-- A mask result; its tail is always agnostic. -/
def vWriteMask (k : Core) (fr : Nat) (vm : Bool) (vd : Nat) (f : Nat → Bool × Nat) : Core :=
  if k.vstart ≥ k.vl then { k with vstart := 0 }
  else
    let (k', fl) := (List.range 4096).foldl (fun (a : Core × Nat) i =>
      if i < k.vstart then a
      else if i ≥ k.vl then (if agnostic fr i then (a.1.vSet vd 1 i 1, a.2) else a)
      else if vm || k.vBit 0 i then let (v, g) := f i; (a.1.vSet vd 1 i (bit v), a.2 ||| g)
      else if k.vma && agnostic fr i then (a.1.vSet vd 1 i 1, a.2) else a) (k, 0)
    { k'.accrue fl with vstart := 0 }

/-- Element 0 of a register written; the others are tail (a reduction, a move to a vector). -/
def vWriteScalar (k : Core) (fr vd w v fl : Nat) : Core :=
  if k.vstart ≥ k.vl then { k with vstart := 0 }
  else
    let k' := (List.range (4096 / w)).foldl (fun (k' : Core) i =>
      if i == 0 then k'.vSet vd w 0 v else if k.vta && agnostic fr i then k'.vSet vd w i (2 ^ w - 1) else k') k
    { k'.accrue fl with vstart := 0 }

/-- The active body elements. -/
def vActive (k : Core) (vm : Bool) : List Nat := (List.range k.vl).filter (fun i => decide (i ≥ k.vstart) && (vm || k.vBit 0 i))

/-! vsetvli, vsetivli and vsetvl. -/

/-- Whether a vtype value is supported (05 R126). -/
def vtypeOk (t : Nat) : Bool :=
  let lg := sext (bitsAt t 0 3) 3
  let sew := 8 * 2 ^ bitsAt t 3 3
  t / 256 == 0 && bitsAt t 0 3 != 4 && decide (bitsAt t 3 3 ≤ 3) && (decide (lg ≥ 0) || decide (sew * 2 ^ (-lg).toNat ≤ 64))

/-- vl for an AVL. -/
def vlFor (avl vlmax : Nat) : Nat :=
  if avl ≤ vlmax then avl
  else if avl < 2 * vlmax then let lo := (avl + 1) / 2; lo + Config.vlChoice avl vlmax % (vlmax - lo + 1)
  else vlmax

/-- A vset. -/
def vset (k : Core) (w : Nat) : Option Core :=
  let rd := bitsAt w 7 5
  let r1 := bitsAt w 15 5
  let imm := bitsAt w 30 2 == 3
  let t := if bitsAt w 31 1 == 0 then bitsAt w 20 11 else if imm then bitsAt w 20 10 else k.xGet (bitsAt w 20 5)
  if bitsAt w 31 1 == 1 && !imm && bitsAt w 25 7 != 0x40 then none
  else if !vtypeOk t then some (({ k with vtype := 0x8000000000000000#64, vl := 0, vstart := 0 }).xSet rd 0)
  else
    let mx := vlmaxOf (8 * 2 ^ bitsAt t 3 3) (sext (bitsAt t 0 3) 3)
    let keep := !imm && r1 == 0 && rd == 0
    if keep && (k.vill || mx != vlmaxOf k.vsew k.vlg) then some { k with vtype := 0x8000000000000000#64, vl := 0, vstart := 0 }
    else
      let vl := if imm then vlFor r1 mx else if r1 != 0 then vlFor (k.xGet r1) mx else if rd != 0 then mx else k.vl
      some (({ k with vtype := BitVec.ofNat 64 t, vl, vstart := 0 }).xSet rd vl)

/-! Integer elements. -/

/-- A fixed-point shift right with its rounding, by vxrm. -/
def roundOff (mode : Nat) (x : Int) (d : Nat) : Int :=
  if d == 0 then x else
  let q := x >>> d
  let rem := (x % (2 ^ d : Nat)).toNat
  let half := 2 ^ (d - 1)
  let up := match mode with
    | 0 => decide (rem ≥ half)
    | 1 => decide (rem > half) || (rem == half && q % 2 != 0)
    | 2 => false
    | _ => rem != 0 && q % 2 == 0
  if up then q + 1 else q

/-- A value saturated to w bits, and vxsat. -/
def satTo (signed : Bool) (w : Nat) (x : Int) : Nat × Nat :=
  let hi : Int := if signed then (2 ^ (w - 1) : Nat) - 1 else (2 ^ w : Nat) - 1
  let lo : Int := if signed then -((2 ^ (w - 1) : Nat) : Int) else 0
  if x > hi then (toBits hi w, 32) else if x < lo then (toBits lo w, 32) else (toBits x w, 0)

/-- The single-width operations of OPIVV, OPIVX and OPIVI: a is vs2's element, b the other; rm is vxrm. -/
def intOp (f6 w rm a b : Nat) : Option (Nat × Nat) :=
  let x := sext a w
  let y := sext b w
  let sh := b % w
  let n := fun (v : Int) => some (toBits v w, 0)
  match f6 with
  | 0x00 => n (x + y) | 0x02 => n (x - y) | 0x03 => n (y - x)
  | 0x04 => n (min a b) | 0x05 => n (min x y) | 0x06 => n (max a b) | 0x07 => n (max x y)
  | 0x09 => n (a &&& b : Nat) | 0x0A => n (a ||| b : Nat) | 0x0B => n (a ^^^ b : Nat)
  | 0x20 => some (satTo false w ((a + b : Nat) : Int)) | 0x21 => some (satTo true w (x + y))
  | 0x22 => some (satTo false w ((a : Int) - b)) | 0x23 => some (satTo true w (x - y))
  | 0x25 => n (a <<< sh : Nat) | 0x27 => some (satTo true w (roundOff rm (x * y) (w - 1)))
  | 0x28 => n (a >>> sh : Nat) | 0x29 => n (x >>> sh)
  | 0x2A => n (roundOff rm (a : Int) sh) | 0x2B => n (roundOff rm x sh)
  | _ => none

/-- The comparisons. -/
def intCmp (f6 w a b : Nat) : Option Bool :=
  let x := sext a w
  let y := sext b w
  match f6 with
  | 0x18 => some (a == b) | 0x19 => some (a != b) | 0x1A => some (decide (a < b)) | 0x1B => some (decide (x < y))
  | 0x1C => some (decide (a ≤ b)) | 0x1D => some (decide (x ≤ y)) | 0x1E => some (decide (a > b)) | 0x1F => some (decide (x > y))
  | _ => none

/-- The single-width operations of OPMVV and OPMVX; d is vd's element. -/
def mulOp (f6 w rm a b d : Nat) : Option Nat :=
  let x := sext a w
  let y := sext b w
  let n := fun (v : Int) => some (toBits v w)
  match f6 with
  | 0x08 => n (roundOff rm ((a + b : Nat) : Int) 1) | 0x09 => n (roundOff rm (x + y) 1)
  | 0x0A => n (roundOff rm ((a : Int) - b) 1) | 0x0B => n (roundOff rm (x - y) 1)
  | 0x20 => some (rvDiv w false false a b) | 0x21 => some (rvDiv w true false a b) | 0x22 => some (rvDiv w false true a b) | 0x23 => some (rvDiv w true true a b)
  | 0x24 => some (a * b / 2 ^ w) | 0x25 => n (x * y) | 0x26 => n ((x * (b : Int)) >>> w) | 0x27 => n ((x * y) >>> w)
  | 0x29 => n ((d : Int) * y + a) | 0x2B => n ((a : Int) - (d : Int) * y) | 0x2D => n ((d : Int) + x * y) | 0x2F => n ((d : Int) - x * y)
  | _ => none

/-- The widening operations of OPMVV and OPMVX: a of vs2, wide for the .w forms; d of vd; results of 2w bits. -/
def wideOp (f6 w a b d : Nat) : Option Int :=
  let ua : Int := a
  let ub : Int := b
  let x := sext a w
  let y := sext b w
  match f6 with
  | 0x30 => some (ua + ub) | 0x31 => some (x + y) | 0x32 => some (ua - ub) | 0x33 => some (x - y)
  | 0x34 => some (ua + ub) | 0x35 => some (ua + y) | 0x36 => some (ua - ub) | 0x37 => some (ua - y)
  | 0x38 => some (ua * ub) | 0x3A => some (x * ub) | 0x3B => some (x * y)
  | 0x3C => some (ua * ub + d) | 0x3D => some (x * y + d) | 0x3E => some (x * ub + d) | 0x3F => some (ua * y + d)
  | _ => none

/-- The integer reductions of one step. -/
def redOp (f6 w acc x : Nat) : Option Nat :=
  match f6 with
  | 0 => some ((acc + x) % 2 ^ w) | 1 => some (acc &&& x) | 2 => some (acc ||| x) | 3 => some (acc ^^^ x)
  | 4 => some (min acc x) | 5 => some (if sext x w < sext acc w then x else acc) | 6 => some (max acc x) | 7 => some (if sext x w > sext acc w then x else acc)
  | _ => none

/-- What a vector instruction's fields are. -/
structure VI where
  w : Nat
  f3 : Nat
  f6 : Nat
  vm : Bool
  vd : Nat
  vs1 : Nat
  vs2 : Nat
  deriving DecidableEq, Repr

def viOf (w : Nat) : VI :=
  { w, f3 := bitsAt w 12 3, f6 := bitsAt w 26 6, vm := bitsAt w 25 1 == 1, vd := bitsAt w 7 5, vs1 := bitsAt w 15 5, vs2 := bitsAt w 20 5 }

/-- The mask register may not be the destination of a masked instruction. -/
def maskOk (i : VI) : Bool := i.vm || i.vd != 0

/-- The vector operands of a single-width instruction are aligned. -/
def vOk (k : Core) (i : VI) (vv : Bool) : Bool := vAligned i.vd k.vlg && vAligned i.vs2 k.vlg && (!vv || vAligned i.vs1 k.vlg)

/-- OPIVV, OPIVX and OPIVI. -/
def vInt (k : Core) (fr : Nat) (i : VI) : Option Core :=
  let sew := k.vsew
  let lg := k.vlg
  let vv := i.f3 == 0
  let vi := i.f3 == 3
  let rm := k.vcsr / 2
  let uimm := [0x0C, 0x0E, 0x0F, 0x25, 0x28, 0x29, 0x2A, 0x2B, 0x2C, 0x2D, 0x2E, 0x2F].contains i.f6
  let scalar := if vi then (if uimm then i.vs1 else toBits (sext i.vs1 5) 64) else k.xGet i.vs1
  let src := fun (n : Nat) => if vv then k.vGet i.vs1 sew n else scalar % 2 ^ sew
  let a := fun (n : Nat) => k.vGet i.vs2 sew n
  let vlmax := vlmaxOf sew lg
  let ok := maskOk i && vOk k i vv
  let cmpOk := vAligned i.vs2 lg && (!vv || vAligned i.vs1 lg) && vOverlapOk i.vd 0 i.vs2 lg 1 sew && (!vv || vOverlapOk i.vd 0 i.vs1 lg 1 sew)
  let absent := match i.f3 with
    | 0 => [0x03, 0x0F, 0x1E, 0x1F].contains i.f6
    | 3 => [0x02, 0x04, 0x05, 0x06, 0x07, 0x12, 0x13, 0x1A, 0x1B, 0x22, 0x23, 0x30, 0x31].contains i.f6
    | _ => [0x30, 0x31].contains i.f6
  if vi && i.f6 == 0x27 then
    -- vmv<nr>r.v
    let n := i.vs1 + 1
    if i.vm && [1, 2, 4, 8].contains n && i.vd % n == 0 && i.vs2 % n == 0 then
      let from_ := k.vstart * sew / 4096
      some { (List.range n).foldl (fun (k' : Core) r => if k.vill || r > from_ then k'.vPutReg (i.vd + r) (k.vReg (i.vs2 + r))
        else if r < from_ then k'
        else (List.range (4096 / sew)).foldl (fun (k' : Core) e => let j := r * (4096 / sew) + e; if j ≥ k.vstart then k'.vSet i.vd sew j (k.vGet i.vs2 sew j) else k') k') k with vstart := 0 }
    else none
  else if k.vill || absent then none
  else match i.f6 with
  | 0x0C =>
    if ok && decide (i.vd ≥ i.vs2 + vRegs lg ∨ i.vs2 ≥ i.vd + vRegs lg) && (!vv || decide (i.vd ≥ i.vs1 + vRegs lg ∨ i.vs1 ≥ i.vd + vRegs lg)) then
      some (vPutAll k fr i.vm i.vd sew lg (fun n => let j := if vv then k.vGet i.vs1 sew n else scalar; (if j < vlmax then a j else 0, 0)))
    else none
  | 0x0E =>
    if vv then
      let ilg := lg + 4 - (log2 sew : Int)
      if maskOk i && vAligned i.vd lg && vAligned i.vs2 lg && vAligned i.vs1 ilg && decide (i.vd ≥ i.vs2 + vRegs lg ∨ i.vs2 ≥ i.vd + vRegs lg)
          && decide (i.vd ≥ i.vs1 + vRegs ilg ∨ i.vs1 ≥ i.vd + vRegs lg) then
        some (vPutAll k fr i.vm i.vd sew lg (fun n => let j := k.vGet i.vs1 16 n; (if j < vlmax then a j else 0, 0)))
      else none
    else if ok && decide (i.vd ≥ i.vs2 + vRegs lg ∨ i.vs2 ≥ i.vd + vRegs lg) then
      if scalar ≥ k.vl then some { k with vstart := 0 }
      else some (vPutAll { k with vstart := max k.vstart scalar } fr i.vm i.vd sew lg (fun n => (a (n - scalar), 0)))
    else none
  | 0x0F => if ok then some (vPutAll k fr i.vm i.vd sew lg (fun n => (if n + scalar < vlmax then a (n + scalar) else 0, 0))) else none
  | 0x10 => if i.vm || i.vd == 0 || !ok then none else some (vPutAll k fr true i.vd sew lg (fun n => ((a n + src n + bit (k.vBit 0 n)) % 2 ^ sew, 0)))
  | 0x12 => if i.vm || i.vd == 0 || !ok then none else some (vPutAll k fr true i.vd sew lg (fun n => (toBits ((a n : Int) - src n - bit (k.vBit 0 n)) sew, 0)))
  | 0x11 => if !cmpOk then none else some (vWriteMask k fr true i.vd (fun n => (decide (a n + src n + (if i.vm then 0 else bit (k.vBit 0 n)) ≥ 2 ^ sew), 0)))
  | 0x13 => if !cmpOk then none else some (vWriteMask k fr true i.vd (fun n => (decide (a n < src n + (if i.vm then 0 else bit (k.vBit 0 n))), 0)))
  | 0x17 =>
    if i.vm then (if i.vs2 == 0 && vAligned i.vd lg && (!vv || vAligned i.vs1 lg) then some (vPutAll k fr true i.vd sew lg (fun n => (src n, 0))) else none)
    else if i.vd == 0 || !ok then none
    else some (vPutAll k fr true i.vd sew lg (fun n => (if k.vBit 0 n then src n else a n, 0)))
  | 0x30 | 0x31 =>
    if 2 * sew > 64 || !vAligned i.vs2 lg then none
    else
      let ext := fun (v w : Nat) => if i.f6 == 0x30 then (v : Int) else sext v w
      let r := (vActive k i.vm).foldl (fun (acc : Int) n => acc + ext (a n) sew) (k.vGet i.vs1 (2 * sew) 0 : Nat)
      some (vWriteScalar k fr i.vd (2 * sew) (toBits r (2 * sew)) 0)
  | 0x2C | 0x2D | 0x2E | 0x2F =>
    if 2 * sew > 64 || !maskOk i || !vAligned i.vd lg || !vAligned i.vs2 (lg + 1) || !(!vv || vAligned i.vs1 lg)
        || !vOverlapOk i.vd lg i.vs2 (lg + 1) sew (2 * sew) then none
    else some (vPutAll k fr i.vm i.vd sew lg (fun n =>
      let x := k.vGet i.vs2 (2 * sew) n
      let sh := src n % (2 * sew)
      match i.f6 with
      | 0x2C => (x >>> sh, 0)
      | 0x2D => (toBits (sext x (2 * sew) >>> sh) sew, 0)
      | 0x2E => satTo false sew (roundOff rm (x : Int) sh)
      | _ => satTo true sew (roundOff rm (sext x (2 * sew)) sh)))
  | f6 =>
    if (intCmp f6 sew 0 0).isSome then
      if cmpOk then some (vWriteMask k fr i.vm i.vd (fun n => ((intCmp f6 sew (a n) (src n)).getD false, 0))) else none
    else if (intOp f6 sew rm 0 0).isSome && ok then some (vPutAll k fr i.vm i.vd sew lg (fun n => (intOp f6 sew rm (a n) (src n)).getD (0, 0)))
    else none

/-- The first set bit of vs2 among active elements. -/
def vFirst (k : Core) (i : VI) : Option Nat := (vActive { k with vstart := 0 } i.vm).find? (fun n => k.vBit i.vs2 n)

/-- OPMVV and OPMVX. -/
def vMul (k : Core) (fr : Nat) (i : VI) : Option Core :=
  let sew := k.vsew
  let lg := k.vlg
  let vv := i.f3 == 2
  let rm := k.vcsr / 2
  let x := k.xGet i.vs1
  let src := fun (n : Nat) => if vv then k.vGet i.vs1 sew n else x % 2 ^ sew
  let a := fun (n : Nat) => k.vGet i.vs2 sew n
  let ok := maskOk i && vOk k i vv
  if k.vill then none
  else match i.f6 with
  | 0x10 =>
    if vv then
      match i.vs1 with
      | 0 => if i.vm then some { k.xSet i.vd (toBits (sext (k.vGet i.vs2 sew 0) sew) 64) with vstart := 0 } else none
      | 0x10 => if k.vstart != 0 then none else some (k.xSet i.vd ((vActive k i.vm).filter (fun n => k.vBit i.vs2 n)).length)
      | 0x11 => if k.vstart != 0 then none else some (k.xSet i.vd (match vFirst k i with | some n => n | none => 2 ^ 64 - 1))
      | _ => none
    else if i.vm && i.vs2 == 0 then some (vWriteScalar k fr i.vd sew (x % 2 ^ sew) 0) else none
  | 0x0E =>
    if vv || !ok || !decide (i.vd ≥ i.vs2 + vRegs lg ∨ i.vs2 ≥ i.vd + vRegs lg) then none
    else some (vPutAll k fr i.vm i.vd sew lg (fun n => (if n == 0 then x % 2 ^ sew else a (n - 1), 0)))
  | 0x0F => if vv || !ok then none else some (vPutAll k fr i.vm i.vd sew lg (fun n => (if n + 1 == k.vl then x % 2 ^ sew else a (n + 1), 0)))
  | 0x12 =>
    let d := match i.vs1 with | 2 | 3 => 8 | 4 | 5 => 4 | 6 | 7 => 2 | _ => 0
    let slg := lg - (log2 d : Int)
    if !vv || d == 0 || sew / d < 8 || !maskOk i || !vAligned i.vd lg || !vAligned i.vs2 slg || !vOverlapOk i.vd lg i.vs2 slg sew (sew / d) then none
    else some (vPutAll k fr i.vm i.vd sew lg (fun n =>
      let v := k.vGet i.vs2 (sew / d) n
      (if i.vs1 % 2 == 1 then toBits (sext v (sew / d)) sew else v, 0)))
  | 0x14 =>
    if !vv then none
    else match i.vs1 with
    | 0x10 =>
      if k.vstart != 0 || !maskOk i || !vAligned i.vd lg || !vOverlapOk i.vd lg i.vs2 0 sew 1 then none
      else some (vPutAll k fr i.vm i.vd sew lg (fun n => (((vActive k i.vm).filter (fun j => decide (j < n) && k.vBit i.vs2 j)).length, 0)))
    | 0x11 => if i.vs2 != 0 || !maskOk i || !vAligned i.vd lg then none else some (vPutAll k fr i.vm i.vd sew lg (fun n => (n, 0)))
    | c =>
      if k.vstart != 0 || !(1 ≤ c && c ≤ 3) || !maskOk i || i.vd == i.vs2 then none
      else
        let f := vFirst k i
        some (vWriteMask k fr i.vm i.vd (fun n => (match f with
          | some j => match c with | 1 => decide (n < j) | 2 => n == j | _ => decide (n ≤ j)
          | none => c != 2, 0)))
  | 0x17 =>
    if !vv || !i.vm || k.vstart != 0 || !vAligned i.vd lg || !vAligned i.vs2 lg || !decide (i.vd ≥ i.vs2 + vRegs lg ∨ i.vs2 ≥ i.vd + vRegs lg) || (i.vd ≤ i.vs1 && i.vs1 < i.vd + vRegs lg) then none
    else
      let kept := (List.range k.vl).filter (fun n => k.vBit i.vs1 n)
      let k' := vPutAll { k with vl := kept.length } fr true i.vd sew lg (fun n => (a (kept.getD n 0), 0))
      some { k' with vl := k.vl }
  | f6 =>
    if 0x18 ≤ f6 && f6 ≤ 0x1F then
      if !vv || !i.vm then none
      else some (vWriteMask k fr true i.vd (fun n =>
        let p := k.vBit i.vs2 n
        let q := k.vBit i.vs1 n
        (match f6 with
          | 0x18 => p && !q | 0x19 => p && q | 0x1A => p || q | 0x1B => p != q | 0x1C => p || !q | 0x1D => !(p && q) | 0x1E => !(p || q) | _ => p == q, 0)))
    else if f6 ≤ 7 then
      if !vv || !vAligned i.vs2 lg then none
      else some (vWriteScalar k fr i.vd sew ((vActive k i.vm).foldl (fun acc n => (redOp f6 sew acc (a n)).getD acc) (k.vGet i.vs1 sew 0)) 0)
    else if f6 ≥ 0x30 then
      let wide := 0x34 ≤ f6 && f6 ≤ 0x37
      if 2 * sew > 64 || (vv && f6 == 0x3E) || !maskOk i || !vAligned i.vd (lg + 1) || !vAligned i.vs2 (if wide then lg + 1 else lg) || !(!vv || vAligned i.vs1 lg)
          || !(wide || vOverlapOk i.vd (lg + 1) i.vs2 lg (2 * sew) sew) || !(!vv || vOverlapOk i.vd (lg + 1) i.vs1 lg (2 * sew) sew) || (wideOp f6 sew 0 0 0).isNone then none
      else some (vPutAll k fr i.vm i.vd (2 * sew) (lg + 1) (fun n =>
        let v := if wide then k.vGet i.vs2 (2 * sew) n else a n
        -- vwmaccus multiplies the scalar unsigned by vs2 signed, vwmaccsu the scalar signed by vs2 unsigned
        (toBits ((wideOp f6 sew v (src n) (k.vGet i.vd (2 * sew) n)).getD 0) (2 * sew), 0)))
    else if (mulOp f6 sew rm 0 0 0).isSome && ok then
      some (vPutAll k fr i.vm i.vd sew lg (fun n => ((mulOp f6 sew rm (a n) (src n) (k.vGet i.vd sew n)).getD 0, 0)))
    else none

/-! Floating-point elements. -/

def fmtOfSew (sew : Nat) : Option FloatFmt := match sew with | 16 => some .fp16 | 32 => some .fp32 | 64 => some .fp64 | _ => none

/-- The single-width operations: a of vs2, b the other, d of vd. -/
def fpElem (f : FloatFmt) (m : RMode) (f6 a b d : Nat) : Option (Nat × Nat) :=
  match f6 with
  | 0x00 => some (Fp.add f m a b) | 0x02 => some (Fp.sub f m a b) | 0x27 => some (Fp.sub f m b a)
  | 0x04 => some (Fp.minmax f false a b) | 0x06 => some (Fp.minmax f true a b)
  | 0x08 => some (Fp.sgnj f 0 a b, 0) | 0x09 => some (Fp.sgnj f 1 a b, 0) | 0x0A => some (Fp.sgnj f 2 a b, 0)
  | 0x20 => some (Fp.div f m a b) | 0x21 => some (Fp.div f m b a) | 0x24 => some (Fp.mul f m a b)
  | 0x28 => some (Fp.fma f m false false d b a) | 0x29 => some (Fp.fma f m true true d b a)
  | 0x2A => some (Fp.fma f m false true d b a) | 0x2B => some (Fp.fma f m true false d b a)
  | 0x2C => some (Fp.fma f m false false b a d) | 0x2D => some (Fp.fma f m true true b a d)
  | 0x2E => some (Fp.fma f m false true b a d) | 0x2F => some (Fp.fma f m true false b a d)
  | _ => none

/-- The comparisons: eq, le, lt, ne, gt, ge. -/
def fpCmpElem (f : FloatFmt) (f6 a b : Nat) : Option (Bool × Nat) :=
  match f6 with
  | 0x18 => some (Fp.cmp f 2 a b) | 0x19 => some (Fp.cmp f 0 a b) | 0x1B => some (Fp.cmp f 1 a b)
  | 0x1C => some (let r := Fp.cmp f 2 a b; (!r.1, r.2)) | 0x1D => some (Fp.cmp f 1 b a) | 0x1F => some (Fp.cmp f 0 b a)
  | _ => none

/-- Round to odd. -/
def cvtOdd (f g : FloatFmt) (w : Nat) : Nat × Nat :=
  let (r, fl) := Fp.cvt f g .rtz w
  (if fl &&& Exc.nx != 0 then r ||| 1 else r, fl)

/-- VFUNARY0: how a conversion's source and destination widths relate to SEW (0 same, 1 wider, 2 narrower), and its element. -/
def fpConv (sew : Nat) (m : RMode) (code : Nat) : Option (Nat × (Nat → Nat × Nat)) :=
  let f := fmtOfSew sew
  let g := fmtOfSew (2 * sew)
  let m' := if code % 8 ≥ 6 then RMode.rtz else m
  match code, f, g with
  | 0, some f, _ | 6, some f, _ => some (0, Fp.toInt f m' sew false)
  | 1, some f, _ | 7, some f, _ => some (0, Fp.toInt f m' sew true)
  | 2, some f, _ => some (0, fun v => Fp.ofInt f m (v : Nat)) | 3, some f, _ => some (0, fun v => Fp.ofInt f m (sext v sew))
  | 8, some f, _ | 0xE, some f, _ => if sew == 64 then none else some (1, Fp.toInt f m' (2 * sew) false)
  | 9, some f, _ | 0xF, some f, _ => if sew == 64 then none else some (1, Fp.toInt f m' (2 * sew) true)
  | 0xA, _, some g => some (1, fun v => Fp.ofInt g m (v : Nat)) | 0xB, _, some g => some (1, fun v => Fp.ofInt g m (sext v sew))
  | 0xC, some f, some g => some (1, Fp.cvt f g m)
  | 0xD, _, _ => if sew == 16 then some (1, Fp.cvt .bf16 .fp32 m) else none
  | 0x10, _, some g | 0x16, _, some g => some (2, Fp.toInt g m' sew false)
  | 0x11, _, some g | 0x17, _, some g => some (2, Fp.toInt g m' sew true)
  | 0x12, some f, _ => if sew == 64 then none else some (2, fun v => Fp.ofInt f m (v : Nat))
  | 0x13, some f, _ => if sew == 64 then none else some (2, fun v => Fp.ofInt f m (sext v (2 * sew)))
  | 0x14, some f, some g => some (2, Fp.cvt g f m) | 0x15, some f, some g => some (2, cvtOdd g f)
  | 0x1D, _, _ => if sew == 16 then some (2, Fp.cvt .fp32 .bf16 m) else none
  | _, _, _ => none

/-- A sum in element-index order. -/
def fpSum (f : FloatFmt) (m : RMode) (init : Nat) (xs : List Nat) : Nat × Nat :=
  xs.foldl (fun (a : Nat × Nat) x => let (r, fl) := Fp.add f m a.1 x; (r, a.2 ||| fl)) (init, 0)

/-- The widening operations: a and b narrow, or a wide for the .w forms; d of vd. -/
def fpWide (f g : FloatFmt) (m : RMode) (f6 a b d : Nat) : Option (Nat × Nat) :=
  let up := fun (v : Nat) => Fp.cvt f g m v
  let (b', fb) := up b
  let (a', fa) := if 0x34 ≤ f6 && f6 ≤ 0x37 then (a, 0) else up a
  let r := match f6 with
    | 0x30 | 0x34 => some (Fp.add g m a' b') | 0x32 | 0x36 => some (Fp.sub g m a' b') | 0x38 => some (Fp.mul g m a' b')
    | 0x3C => some (Fp.fma g m false false b' a' d) | 0x3D => some (Fp.fma g m true true b' a' d)
    | 0x3E => some (Fp.fma g m false true b' a' d) | 0x3F => some (Fp.fma g m true false b' a' d)
    | _ => none
  r.map (fun r => (r.1, r.2 ||| fa ||| fb))

/-- OPFVV and OPFVF. -/
def vFp (k : Core) (fr : Nat) (i : VI) : Option Core :=
  let sew := k.vsew
  let lg := k.vlg
  let vv := i.f3 == 1
  match rvMode (k.fcsr / 32 % 8) with
  | none => none
  | some m =>
    if k.vill then none
    else if i.f6 == 0x12 then
      match fpConv sew m i.vs1 with
      | none => none
      | some (kind, f) =>
        let (dw, dlg) := if kind == 1 then (2 * sew, lg + 1) else (sew, lg)
        let (sw, slg) := if kind == 2 then (2 * sew, lg + 1) else (sew, lg)
        if vv && maskOk i && vAligned i.vd dlg && vAligned i.vs2 slg && vOverlapOk i.vd dlg i.vs2 slg dw sw then
          some (vPutAll k fr i.vm i.vd dw dlg (fun n => f (k.vGet i.vs2 sw n)))
        else none
    else if i.f6 == 0x3B then
      -- vfwmaccbf16
      if sew != 16 || !maskOk i || !vAligned i.vd (lg + 1) || !vAligned i.vs2 lg || !(!vv || vAligned i.vs1 lg)
          || !vOverlapOk i.vd (lg + 1) i.vs2 lg 32 16 || !(!vv || vOverlapOk i.vd (lg + 1) i.vs1 lg 32 16) then none
      else some (vPutAll k fr i.vm i.vd 32 (lg + 1) (fun n =>
        let b := if vv then k.vGet i.vs1 16 n else k.fNum .bf16 i.vs1
        (fpWide .bf16 .fp32 m 0x3C (k.vGet i.vs2 16 n) b (k.vGet i.vd 32 n)).getD (0, 0)))
    else match fmtOfSew sew with
    | none => none
    | some f =>
      let src := fun (n : Nat) => if vv then k.vGet i.vs1 sew n else k.fNum f i.vs1
      let a := fun (n : Nat) => k.vGet i.vs2 sew n
      let ok := maskOk i && vOk k i vv
      let cmpOk := vAligned i.vs2 lg && (!vv || vAligned i.vs1 lg) && vOverlapOk i.vd 0 i.vs2 lg 1 sew && (!vv || vOverlapOk i.vd 0 i.vs1 lg 1 sew)
      match i.f6 with
      | 0x01 | 0x03 =>
        if !vv || !vAligned i.vs2 lg then none
        else let (r, fl) := fpSum f m (k.vGet i.vs1 sew 0) ((vActive k i.vm).map a); some (vWriteScalar k fr i.vd sew r fl)
      | 0x05 | 0x07 =>
        if !vv || !vAligned i.vs2 lg then none
        else
          let (r, fl) := (vActive k i.vm).foldl (fun (x : Nat × Nat) n => let (r, g) := Fp.minmax f (i.f6 == 7) x.1 (a n); (r, x.2 ||| g)) (k.vGet i.vs1 sew 0, 0)
          some (vWriteScalar k fr i.vd sew r fl)
      | 0x31 | 0x33 =>
        match fmtOfSew (2 * sew) with
        | none => none
        | some g =>
          if !vv || !vAligned i.vs2 lg then none
          else
            let xs := (vActive k i.vm).map (fun n => Fp.cvt f g m (a n))
            let (r, fl) := fpSum g m (k.vGet i.vs1 (2 * sew) 0) (xs.map (·.1))
            some (vWriteScalar k fr i.vd (2 * sew) r (xs.foldl (fun y x => y ||| x.2) fl))
      | 0x0E =>
        if vv || !ok || !decide (i.vd ≥ i.vs2 + vRegs lg ∨ i.vs2 ≥ i.vd + vRegs lg) then none
        else some (vPutAll k fr i.vm i.vd sew lg (fun n => (if n == 0 then k.fNum f i.vs1 else a (n - 1), 0)))
      | 0x0F => if vv || !ok then none else some (vPutAll k fr i.vm i.vd sew lg (fun n => (if n + 1 == k.vl then k.fNum f i.vs1 else a (n + 1), 0)))
      | 0x10 =>
        if vv then (if i.vm && i.vs1 == 0 then some { k.fBox f i.vd (k.vGet i.vs2 sew 0) with vstart := 0 } else none)
        else if i.vm && i.vs2 == 0 then some (vWriteScalar k fr i.vd sew (k.fNum f i.vs1) 0) else none
      | 0x13 =>
        let g := match i.vs1 with
          | 0 => some (Fp.sqrt f m) | 4 => some (Fp.rsqrt7 f) | 5 => some (Fp.rec7 f m) | 0x10 => some (fun v => (Fp.cls f v, 0)) | _ => none
        match g with
        | some g => if vv && maskOk i && vAligned i.vd lg && vAligned i.vs2 lg then some (vPutAll k fr i.vm i.vd sew lg (fun n => g (a n))) else none
        | none => none
      | 0x17 =>
        if vv then none
        else if i.vm then (if i.vs2 == 0 && vAligned i.vd lg then some (vPutAll k fr true i.vd sew lg (fun n => (src n, 0))) else none)
        else if i.vd == 0 || !ok then none
        else some (vPutAll k fr true i.vd sew lg (fun n => (if k.vBit 0 n then src n else a n, 0)))
      | f6 =>
        if vv && [0x1D, 0x1F, 0x21, 0x27].contains f6 then none
        else if (fpCmpElem f f6 0 0).isSome then
          if cmpOk then some (vWriteMask k fr i.vm i.vd (fun n => (fpCmpElem f f6 (a n) (src n)).getD (false, 0))) else none
        else if f6 ≥ 0x30 then
          match fmtOfSew (2 * sew) with
          | none => none
          | some g =>
            let wide := 0x34 ≤ f6 && f6 ≤ 0x37
            if !maskOk i || !vAligned i.vd (lg + 1) || !vAligned i.vs2 (if wide then lg + 1 else lg) || !(!vv || vAligned i.vs1 lg)
                || !(wide || vOverlapOk i.vd (lg + 1) i.vs2 lg (2 * sew) sew) || !(!vv || vOverlapOk i.vd (lg + 1) i.vs1 lg (2 * sew) sew)
                || (fpWide f g m f6 0 0 0).isNone then none
            else some (vPutAll k fr i.vm i.vd (2 * sew) (lg + 1) (fun n =>
              (fpWide f g m f6 (if wide then k.vGet i.vs2 (2 * sew) n else a n) (src n) (k.vGet i.vd (2 * sew) n)).getD (0, 0)))
        else if (fpElem f m f6 0 0 0).isSome && ok then
          some (vPutAll k fr i.vm i.vd sew lg (fun n => (fpElem f m f6 (a n) (src n) (k.vGet i.vd sew n)).getD (0, 0)))
        else none

/-! Vector loads and stores. -/

/-- Elements accessed in order; one that waits or traps leaves its index in vstart, so that the instruction goes on from it. -/
def vMemGo (s : State) (b : BayNo) (c : Nat) (act : State → Nat → CoreGot Unit) : List Nat → CoreGot Unit
  | [] => .ok s ()
  | i :: rest =>
    match act s i with
    | .ok s _ => vMemGo s b c act rest
    | .wait s => .wait (s.modCore b c (fun k => { k with vstart := i }))
    | .trap s x y z => .trap (s.modCore b c (fun k => { k with vstart := i })) x y z

/-- The fields of one element loaded, or stored. -/
def vMemElem (s : State) (b : BayNo) (c : Nat) (load : Bool) (vd w regs va i : Nat) : List Nat → CoreGot Unit
  | [] => .ok s ()
  | f :: rest =>
    let n := w / 8
    let a := (va + f * n) % 2 ^ 64
    if load then
      match coreLoad s b c a n true with
      | .ok s bs => vMemElem (s.modCore b c (fun k => k.vSet (vd + f * regs) w i (natLE bs))) b c load vd w regs va i rest
      | .wait s => .wait s
      | .trap s x y z => .trap s x y z
    else match coreStore s b c a (bytesLE n ((s.core b c).vGet (vd + f * regs) w i)) true with
      | .ok s _ => vMemElem s b c load vd w regs va i rest
      | .wait s => .wait s
      | .trap s x y z => .trap s x y z

/-- Agnostic elements of a loaded group, and vstart back to 0. -/
def vMemEnd (k : Core) (fr : Nat) (vm load : Bool) (vd w : Nat) (lg : Int) (fields : Nat) (start : Nat) : Core :=
  let k := { k with vstart := 0 }
  if !load || start ≥ k.vl then k
  else (List.range fields).foldl (fun k f => vPutAll k fr vm (vd + f * vRegs lg) w lg (fun n => (k.vGet (vd + f * vRegs lg) w n, 0))) k

/-- The end of a vector load or store: its access counted, the core's last changes, and the next pc. -/
def vMemDone (b : BayNo) (c base bytes npc : Nat) (load : Bool) (g : CoreGot Unit) (fin : Core → Core) : CoreGot Nat :=
  match g with
  | .ok s _ => .ok ({ (coreCharge s b c base bytes load (!load)).modCore b c fin with free := s.free + 4096 }) npc
  | .wait s => .wait s
  | .trap s x y z => .trap s x y z

/-- The elements of a vector load or store in order, from vstart, those that the mask selects. -/
def vMemRun (s : State) (b : BayNo) (c : Nat) (i : VI) (load : Bool) (dw : Nat) (lg : Int) (fields : Nat) (addr : Nat → Nat) : CoreGot Unit :=
  vMemGo s b c (fun s n => vMemElem s b c load i.vd dw (vRegs lg) (addr n % 2 ^ 64) n (List.range fields))
    ((vActive (s.core b c) i.vm).filter (· ≥ (s.core b c).vstart))

/-- The first n elements of one width in consecutive memory, from vstart, whatever the mask: whole registers and masks. -/
def vMemFlat (s : State) (b : BayNo) (c : Nat) (i : VI) (load : Bool) (dw n : Nat) : CoreGot Unit :=
  vMemGo s b c (fun t e => vMemElem t b c load i.vd dw 1 (((s.core b c).xGet i.vs1 + e * (dw / 8)) % 2 ^ 64) e [0])
    ((List.range n).filter (· ≥ (s.core b c).vstart))

/-- The element width of a vector load or store, in bits. -/
def vMemEew (f3 : Nat) : Nat := match f3 with | 0 => 8 | 5 => 16 | 6 => 32 | _ => 64

/-- A vector load or store of elements: unit-stride, strided or indexed, with segments; a fault-only-first load that traps past its first
element ends there. -/
def vMemElems (s : State) (b : BayNo) (c w : Nat) (load : Bool) (npc : Nat) : CoreGot Nat :=
  let k := s.core b c
  let i := viOf w
  let nf := bitsAt w 29 3 + 1
  let eew := vMemEew i.f3
  let mop := bitsAt w 26 2
  let base := k.xGet i.vs1
  let fr := s.free
  let indexed := mop % 2 == 1
  let dw := if indexed then k.vsew else eew
  let lg := if indexed then k.vlg else k.vlg + (log2 eew : Int) - (log2 k.vsew : Int)
  let ilg := k.vlg + (log2 eew : Int) - (log2 k.vsew : Int)
  let ff := mop == 0 && i.vs2 == 0x10
  if !vAligned i.vd lg || vRegs lg * nf > 8 || i.vd + vRegs lg * nf > 32 || (load && !maskOk i)
      || (mop == 0 && i.vs2 != 0 && !(ff && load)) || (indexed && !vAligned i.vs2 ilg)
      || (indexed && load && !(if nf > 1 then decide (i.vd ≥ i.vs2 + vRegs ilg ∨ i.vs2 ≥ i.vd + vRegs lg * nf) else vOverlapOk i.vd lg i.vs2 ilg dw eew)) then illegal s w
  else
    let stride := if mop == 2 then k.xGet i.vs2 else nf * (eew / 8)
    let fin := fun (k' : Core) => vMemEnd k' fr i.vm load i.vd dw lg nf k.vstart
    let bytes := max 1 (k.vl * nf * (eew / 8))
    match vMemRun s b c i load dw lg nf (fun n => if indexed then base + k.vGet i.vs2 eew n else base + n * stride), ff with
    | .trap t x y z, true =>
      let n := (t.core b c).vstart
      if n == 0 then .trap t x y z
      else .ok ({ t.modCore b c (fun k' => fin { k' with vl := n }) with free := t.free + 4096 }) npc
    | g, _ => vMemDone b c base bytes npc load g fin

/-- One vector load or store (opcodes 0x07 and 0x27). -/
def vMem (s : State) (b : BayNo) (c : Nat) (w : Nat) (load : Bool) (npc : Nat) : CoreGot Nat :=
  let k := s.core b c
  let i := viOf w
  let nf := bitsAt w 29 3 + 1
  let eew := vMemEew i.f3
  let mop := bitsAt w 26 2
  let done := fun (g : CoreGot Unit) =>
    vMemDone b c (k.xGet i.vs1) (max 1 (k.vl * nf * (eew / 8))) npc load g (fun k => { k with vstart := 0 })
  if bitsAt w 28 1 == 1 then illegal s w
  else if mop == 0 && i.vs2 == 8 then
    -- whole registers
    if !i.vm || !([1, 2, 4, 8].contains nf) || i.vd % nf != 0 || (!load && i.f3 != 0) then illegal s w
    else done (vMemFlat s b c i load eew (nf * 4096 / eew))
  else if k.vill then illegal s w
  else if mop == 0 && i.vs2 == 0xB then
    if !i.vm || nf != 1 || i.f3 != 0 then illegal s w
    else done (vMemFlat s b c i load 8 ((k.vl + 7) / 8))
  else vMemElems s b c w load npc

/-- OP-V (opcode 0x57). -/
def vOp (s : State) (b : BayNo) (c w npc : Nat) : CoreGot Nat :=
  let k := s.core b c
  let i := viOf w
  let r := match i.f3 with
    | 7 => vset k w
    | 1 | 5 => vFp k s.free i
    | 2 | 6 => vMul k s.free i
    | _ => vInt k s.free i
  match r with
  | some k => .ok ({ s.setCore b c k with free := s.free + 4096 }) npc
  | none => illegal s w

end Sys2Proof.Machine
end

