-- ==== Sys2Proof/Machine/TileSteps.lean ====
section
/-! DEFINITION. The steps of a tile on its Bay: the kernel image, tile entry, checkpoints, the end of the compute phase, parking and TILE_DONE (05_vector_scalar.md R143 to R148, 14_scheduling.md R403, R404, R406 to R413). -/

namespace Sys2Proof.Machine

/-! The kernel image's header and sections (05 R143). -/

namespace Img
def magic (h : BitVec 2048) : Nat := fld h 0 0 32
def major (h : BitVec 2048) : Nat := fld h 4 8 8
def hdrBytes (h : BitVec 2048) : Nat := fld h 6 0 16
def bytes (h : BitVec 2048) : Nat := fld h 8 0 64
def kcEntry (h : BitVec 2048) : Nat := fld h 0x10 0 32
def vEntry (h : BitVec 2048) : Nat := fld h 0x14 0 32
def sectCount (h : BitVec 2048) : Nat := fld h 0x18 0 16
def sectOff (h : BitVec 2048) : Nat := fld h 0x1C 0 32
def mxMask (h : BitVec 2048) : Nat := fld h 0x20 0 4
def vMask (h : BitVec 2048) : Nat := fld h 0x20 4 4
def carry (h : BitVec 2048) : Bool := flag h 0x20 8
def rtBank (h : BitVec 2048) : Nat := fld h 0x20 12 4
def plan (h : BitVec 2048) : Nat := fld h 0x24 0 64
def planOf (h : BitVec 2048) (bank : Nat) : Nat := fld h 0x24 (4 * bank) 4
def argOff (h : BitVec 2048) : Nat := fld h 0x2C 0 25
def stackTop (h : BitVec 2048) : Nat := fld h 0x30 0 25
def lsBytes (h : BitVec 2048) : Nat := fld h 0x34 0 20
def digest (h : BitVec 2048) : Nat := fld h 0x40 0 512
end Img

/-- A section-table entry. -/
structure Section where
  type : Nat
  off : Nat
  bytes : Nat
  dest : Nat
  /-- Its reserved bytes and bits. -/
  reserved : Nat
  deriving DecidableEq, Repr

/-- A section-table entry read from its 32 bytes. -/
def sectionOf (bs : List Byte) : Section :=
  let w := natLE bs
  let t := bitsAt w 0 32
  { type := t, off := bitsAt w 64 64, bytes := bitsAt w 128 64, dest := bitsAt w 192 25
    reserved := bitsAt w 32 32 + (if t == 3 || t == 4 then bitsAt w 217 39 else bitsAt w 192 64) }

/-- The context and command of a tile. -/
def tileCmd (s : State) (id : Nat) : Option (Tile × Cmd) :=
  (Tbl.find s.work.tiles id).bind (fun t => (Tbl.find s.work.cmds t.cmd).map (fun c => (t, c)))

/-- The image of a command: the virtual address of its registration and its header. -/
def cmdImage (s : State) (c : Cmd) : Option (Nat × BitVec 2048) :=
  ((findObj s (ctxPart c.ctx) c.image).bind (fun o => o.2.image)).map (fun i => (i.2.1, i.2.2))

/-- Save slot j of a context (14 R403). -/
def slotVa (c : Ctx) (j : Nat) : Nat := c.saveVa + j * 0x240000

/-! The Bay runtime's own accesses to the context's memory. -/

/-- What an access of the runtime comes to. -/
inductive TileGot (α : Type) where
  | ok (s : State) (a : α)
  | wait (s : State)
  | fail (s : State)

/-- A tile ended by a page that its runtime's access met: the TRANSLATION record, then the tile's status (09 R259, R260, 13 R374). -/
def failPage (s : State) (id key va cause level : Nat) : State :=
  let s := postTranslation s key va cause level []
  let seq := ((Tbl.find s.work.ctxs key).map (·.seq)).getD 0
  match Tbl.find s.work.tiles id with
  | some t => failTile (noteTileSeq s id seq) id (causeStatus cause) (192 + t.bay) va (fun t => { t with fault := some (causeMover cause, 0, 0, 0, 0, va) })
  | none => s

/-- A range of the context's memory made ready for a tile's Bay, with the translations. -/
def tileView (s : State) (b id key access : Nat) (rs : List (Nat × Nat)) : TileGot View :=
  match Tbl.find s.work.ctxs key with
  | none => .fail s
  | some c => match walkPages s key c.root access (rs.flatMap (fun r => pagePieces r.1 r.2)) with
    | .wait s => .wait s
    | .fail s cause level va => .fail (failPage s id key va cause level)
    | .ok s es =>
      if es.any (fun e => leafRemote e.leaf) then .fail (failTile s id Status.permission.code (192 + b) ((rs.head?.map (·.1)).getD 0) (fun t => t))
      else .ok s { rq := fun _ => { master := b, part := s.partOfBay b }, key, ents := es }

/-- Ranges read for a tile; poison ends it (06 R169). -/
def tileRead (s : State) (b id key : Nat) (rs : List (Nat × Nat)) : TileGot (List Byte) :=
  match tileView s b id key 0 rs with
  | .wait s => .wait s
  | .fail s => .fail s
  | .ok s v => match vRead s v rs with
    | .wait s => .wait s
    | .bad s _ => .fail (failTile s id Status.permission.code (192 + b) ((rs.head?.map (·.1)).getD 0) (fun t => t))
    | .ok s bs =>
      if tainted bs then .fail (failTile s id Status.parityUnrecovered.code (192 + b) ((rs.head?.map (·.1)).getD 0) (fun t => { t with fault := some (7, 0, 0, 0, 0, (rs.head?.map (·.1)).getD 0) }))
      else .ok (chargeTile s id { stackRd := bs.length }) (bytesOf bs)

/-- Ranges written for a tile. -/
def tileWrite (s : State) (b id key : Nat) (rs : List (Nat × Nat)) (bs : List Byte) : TileGot Unit :=
  match tileView s b id key 1 rs with
  | .wait s => .wait s
  | .fail s => .fail s
  | .ok s v => match vWrite s v rs (clean bs) with
    | .wait s => .wait s
    | .bad s _ => .fail (failTile s id Status.permission.code (192 + b) ((rs.head?.map (·.1)).getD 0) (fun t => t))
    | .ok s _ => .ok (chargeTile s id { stackWr := bs.length }) ()

/-! Steps 1 to 3 (05 R146 to R148). -/

/-- A memory of undefined contents: free bytes (05 R148; assumption 3). -/
def freeMem (fr n : Nat) : Mem :=
  (List.range n).filterMap (fun i => let v := Config.freeByte (fr + i); if v == Mem.unlisted then none else some (i, v))

/-- What a matrix core holds at tile entry: FIFO empty, MX_EXC and ramp 0, cells clear, anchor state as after a reset, staging windows
undefined; its operand store zero where another context ran before, else undefined (05 R148, 04 R120). -/
def enterMx (m : MatrixCore) (fr : Nat) (other : Bool) : MatrixCore :=
  { m with
    fifo := [], exc := 0, ramp := 0, cells := [], anchor := {}, trapAo := false
    stageS := BitVec.ofNat 1024 ((Config.freeWide fr).toNat + (Config.freeWide (fr + 1)).toNat * 2 ^ 512)
    stageV := BitVec.ofNat 1024 ((Config.freeWide (fr + 2)).toNat + (Config.freeWide (fr + 3)).toNat * 2 ^ 512)
    store := if other then [] else freeMem fr 0x100000 }

/-- A local store at tile entry (05 R148). -/
def enterStore (fr : Nat) (other : Bool) : Mem := if other then [] else freeMem fr 0x80000

/-- The stores and matrix cores of a Bay at tile entry, and all of Bay memory zero where another context ran last (05 R148, 14 R411). -/
def enterStores (s : State) (b key : Nat) : State :=
  let other := (s.bay b).lastCtx != key + 1
  let fr := s.free
  let s := (List.range 4).foldl (fun s c => (s.modMx b c (fun m => enterMx m (fr + c * 0x100000) other)).modCore b c
    (fun k => { k with localStore := enterStore (fr + 0x400000 + c * 0x80000) other })) s
  { s.modBay b (fun x => { x with lastCtx := key + 1, mem := if other then [] else x.mem }) with free := fr + 0x600000 }

/-- Every bank put to NONE but those of a list, which the runtime holds (05 R146). -/
def holdBanks (x : Bay) (keep : List Nat) : Bay :=
  (List.range 16).foldl (fun x k => setBankOwner x k (if keep.contains k then 8 else 0xF)) x

/-- The argument block (05 R147). -/
def argBlock (s : State) (b : Nat) (t : Tile) (c : Cmd) : List Byte :=
  bytesLE 8 t.index ++ bytesLE 2 c.call ++ bytesLE 1 (vbayOf s b) ++ bytesLE 1 (volumeBays s b).length ++ List.replicate 0x34 0#8
    ++ (bytesLE 256 c.word.toNat).drop 0x40

/-- The argument block written, and its copy into the local store of each vector core that the image starts (05 R147). -/
def writeArgs (s : State) (b : Nat) (h : BitVec 2048) (bs : List Byte) : State :=
  (List.range 4).foldl (fun s c => if bitsAt (Img.vMask h) c 1 == 1 then
    s.modCore b c (fun k => { k with localStore := Mem.writeN k.localStore 0x7FF00 bs }) else s) (s.modBay b (fun x => x.write (Img.argOff h) bs))

/-- The sections of an image, read from its table. -/
def imageSections (s : State) (b id key va : Nat) (h : BitVec 2048) : TileGot (List Section) :=
  match tileRead s b id key [(va + Img.sectOff h, 32 * Img.sectCount h)] with
  | .ok s bs => .ok s ((chunks 32 bs).map sectionOf)
  | .wait s => .wait s
  | .fail s => .fail s

/-- The BAY_INIT copies and the ZERO fills (05 R143, R146 step 3). -/
def loadSections (s : State) (b id key va : Nat) : List Section → TileGot Unit
  | [] => .ok s ()
  | x :: rest =>
    if x.type == 3 then
      match tileRead s b id key [(va + x.off, x.bytes)] with
      | .ok s bs => loadSections (s.modBay b (fun y => y.write x.dest bs)) b id key va rest
      | .wait s => .wait s
      | .fail s => .fail s
    else if x.type == 4 then loadSections (s.modBay b (fun y => { y with mem := Mem.clear y.mem x.dest (x.dest + x.bytes) })) b id key va rest
    else loadSections s b id key va rest

/-! Checkpoints (04 R122, 14 R403, R404). -/

/-- An ACC_SAVE or ACC_LOAD of the boundary code over records at Bay offset 0 and an anchor block behind them. -/
def boundaryDesc : BitVec 1024 := BitVec.ofNat 1024 (put 128 64 8 + put 128 72 8 + put 4096 (8 * 0x28 + 32) 25 + put 0x80000 (8 * 0x38 + 32) 25)

/-- A core's checkpoint: its records, then its anchor block. -/
def checkpointBytes (m : MatrixCore) : List Byte × List Byte :=
  let x := mxAccSave {} m boundaryDesc
  (x.read 0 0x80000, x.read 0x80000 0x400)

/-- A core with the records and the anchor block of a checkpoint loaded, and whether their anchors agree (04 R115). -/
@[irreducible] def checkpointLoad (bs : List Byte) (m : MatrixCore) : MatrixCore × Bool := mxAccLoad (Bay.write {} 0 bs) m boundaryDesc

/-- The ranges of a core's checkpoint in its save slot (14 R403). -/
def checkpointRanges (base c : Nat) : List (Nat × Nat) := [(base + c * 0x80000, 0x80000), (base + 0x200000 + c * 0x400, 0x400)]

/-- The checkpoints of the four cores written to the tile's save slot. -/
def saveCores (s : State) (b id key base : Nat) : List Nat → TileGot Unit
  | [] => .ok s ()
  | c :: rest =>
    let (rs, an) := checkpointBytes (s.mx b c)
    match tileWrite s b id key (checkpointRanges base c) (rs ++ an) with
    | .ok s _ => saveCores s b id key base rest
    | .wait s => .wait s
    | .fail s => .fail s

/-- The checkpoints restored; records whose anchors differ from the block's end the tile (04 R115, R118). -/
def restoreCores (s : State) (b id key base : Nat) : List Nat → TileGot Unit
  | [] => .ok s ()
  | c :: rest =>
    match tileRead s b id key (checkpointRanges base c) with
    | .wait s => .wait s
    | .fail s => .fail s
    | .ok s bs =>
      match checkpointLoad bs (s.mx b c) with
      | (m, true) => restoreCores (s.setMx b c m) b id key base rest
      | (_, false) => .fail (failTile s id Status.anchorOverflow.code 0x3FF 0 (fun t => { t with fault := some (8 * 16, 0, 0, 0, 0, 0) }))

/-! Step 5 (05 R146, R147). -/

/-- A kernel core at tile entry; its L1D and its predictor stay. -/
def enterCore (k : Core) (pc sp a0 index a2 : Nat) (seed : DWord) : Core :=
  let set := fun (t : Tbl DWord) (r v : Nat) => if v == 0 then t else Tbl.put t r (BitVec.ofNat 64 v)
  { pc := BitVec.ofNat 64 pc, x := set (set (set (set [] 2 sp) 10 a0) 11 index) 12 a2
    l1d := k.l1d, predictor := k.predictor, localStore := k.localStore, machine := false, running := true, seed }

/-- BANK_PLAN put in force, and kernel control and the vector cores of the image started. -/
def startKernel (s : State) (b id va : Nat) (h : BitVec 2048) (t : Tile) (c : Cmd) : State :=
  let s := s.modBay b (fun x => (List.range 16).foldl (fun x k => setBankOwner x k (Img.planOf h k)) x)
  let s := s.modCore b 5 (fun k => enterCore k (va + Img.kcEntry h) (localBase + Img.stackTop h) (localBase + Img.argOff h) t.index 9 c.seed)
  let top := localBase + 0x207FF00
  let s := (List.range 4).foldl (fun s v => if bitsAt (Img.vMask h) v 1 == 1 then
    s.modCore b v (fun k => enterCore k (va + Img.vEntry h) top top t.index (4 + v) c.seed) else s) s
  modTile s id (fun t => { t with step := 6, yielded := [] })

/-! The ports' part of a tile. -/

/-- The ports that run a tile's descriptors. -/
def tilePorts (s : State) (b id : Nat) : List Nat := (List.range 2).filter (fun p => (s.mover b p).tile == id)

/-- Whether a port has done the loads of its tile: nothing is started, and what is left begins with a STORE. -/
def loadsDone (x : Bay) (m : MoverPort) : Bool := m.started.isEmpty && !m.halted && (m.waiting == 0 || Mv.op (ringDesc x m m.next) == 2)

/-- Whether a port has issued every descriptor it was given. -/
def allIssued (m : MoverPort) : Bool := !m.halted && (m.wr + 65536 - m.rd) % 65536 == m.started.length

/-- TILE_DONE of a tile that ran to its end: OK, or ANCHOR_OVERFLOW where a read-out under TRAP_AO overflowed (02 R57, 04 R120). -/
def doneTile (s : State) (b id : Nat) : State :=
  let trap := (List.range 4).any (fun c => (s.mx b c).trapAo)
  let st := if trap then Status.anchorOverflow.code else 0
  let carry := match tileCmd s id with
    | some (_, c) => ((cmdImage s c).map (fun i => Img.carry i.2)).getD false
    | none => false
  leaveBay (modTile s id (fun t => { t with status := some st })) id { tile := id, status := st, parked := false, abandoned := false, saved := carry, tags := 0, bayNs := 0 }

/-- The tags of a tile's fabric requests. -/
def tileTags (s : State) (b id : Nat) : List (Nat × FabReq) :=
  s.fab.tags.filter (fun t => match t.2.who with | .mover x p _ _ _ => x == b && (s.mover b p).tile == id | _ => false)

/-- A tile's outstanding tags handed to the Registrar and re-pointed to the context's tray (14 R413). -/
def parkTags (s : State) (b id : Nat) : State :=
  match Tbl.find s.work.tiles id with
  | none => s
  | some t =>
    let ts := tileTags s b id
    if ts.isEmpty then s
    else
      let move := fun (r : FabReq) => match r.who with
        | .mover _ _ _ _ d => { r with who := .parked id d }
        | _ => r
      let mine := fun (r : FabReq) => match r.who with | .mover x p _ _ _ => x == b && (s.mover b p).tile == id | _ => false
      let s := s.modFab (fun f => { f with tags := Tbl.mapV f.tags (fun k r => if ts.any (fun t => t.1 == k) then move r else r), stalled := f.stalled.filter (fun r => !mine r) })
      s.modWork (fun w => { w with parked := Tbl.put w.parked id { tile := t, open_ := (ts.map (·.1)).foldl NSet.ins [] } })

/-- Step 8: TILE_DONE once every store has been acknowledged; a pre-empted tile does not wait for fabric stores (05 R146, 14 R409, R413). -/
def settleTile (s : State) (b id : Nat) : State :=
  match Tbl.find s.work.tiles id with
  | none => s
  | some t =>
    if t.step != 7 || t.status.isSome then s
    else
      let ps := tilePorts s b id
      let issued := ps.all (fun p => allIssued (s.mover b p))
      let s := if issued then modTile s id (fun t => { t with deadline := none }) else s
      if !issued then s
      else if ps.all (fun p => (s.mover b p).started.isEmpty) then doneTile s b id
      else if t.preemptAt.isSome && !s.fab.stalled.any (fun r => match r.who with | .mover x p _ _ _ => x == b && (s.mover b p).tile == id | _ => false) then
        let n := (tileTags s b id).length
        if n == 0 then s
        else leaveBay (parkTags s b id) id { tile := id, status := 0, parked := true, abandoned := false, saved := false, tags := n, bayNs := 0 }
      else s

/-! The compute phase (05 R142, R146). -/

/-- Whether the compute phase has ended: kernel control and every vector core of the image have yielded, and the matrix FIFOs are empty
and not halted (05 R142, 04 R122). -/
def computeDone (s : State) (b : Nat) (t : Tile) (h : BitVec 2048) : Bool :=
  t.step == 6 && t.status.isNone && t.yielded.contains 9 && (List.range 4).all (fun c => bitsAt (Img.vMask h) c 1 == 0 || t.yielded.contains (4 + c))
    && (List.range 4).all (fun c => (s.mx b c).fifo.isEmpty && !(s.mx b c).halted)

/-- Step 7: the exception flags gathered, every bank but RT_BANK to NONE, the accumulators saved; then the stores (05 R146, 04 R120). -/
def settleCompute (s : State) (b : Nat) : State :=
  let id := (s.bay b).tile
  match tileCmd s id with
  | none => s
  | some (t, c) => match cmdImage s c with
    | none => s
    | some (_, h) =>
      if !computeDone s b t h then s
      else
        let saved := if Img.carry h then
            (match Tbl.find s.work.ctxs c.ctx with
              | some x => saveCores s b id c.ctx (slotVa x t.slot) [0, 1, 2, 3]
              | none => .ok s ())
          else .ok s ()
        match saved with
        | .wait s => s
        | .fail s => s
        | .ok s _ =>
          let exc := (List.range 4).foldl (fun e i => e ||| (s.mx b i).exc) t.exc
          let s := s.modBay b (fun x => holdBanks x [Img.rtBank h])
          settleTile (modTile s id (fun t => { t with step := 7, exc })) b id

/-- Steps 4 and 5, once the loads of step 3 are done, the ramps have fallen and the instant of a gang's start has come (05 R146, R148, 14 R406). -/
def advanceTile (s : State) (b : Nat) : State :=
  let id := (s.bay b).tile
  match tileCmd s id with
  | none => s
  | some (t, c) => match cmdImage s c with
    | none => s
    | some (va, h) =>
      if t.status.isSome || t.step < 3 || t.step > 4 then s
      else if !(tilePorts s b id).all (fun p => loadsDone (s.bay b) (s.mover b p)) then s
      else
        let restored := if t.step == 3 && t.restore then
            (match Tbl.find s.work.ctxs c.ctx with
              | some x => restoreCores s b id c.ctx (slotVa x t.slot) [0, 1, 2, 3]
              | none => .ok s ())
          else .ok s ()
        match restored with
        | .wait s => s
        | .fail s => s
        | .ok s _ =>
          let s := modTile (if t.step == 3 then trayConsume s id else s) id (fun t => { t with step := 4 })
          if t.startAt > s.now then s
          else
            let wait := if t.startAt == 0 then 0 else s.now - t.runAt
            startKernel (modTile s id (fun t => { t with deadline := t.deadline.map (· + (if t.startAt > t.runAt then min wait (t.startAt - t.runAt) else 0)) })) b id va h t c

/-- Steps 1 to 3 of a tile's image: owners, entry contents, the argument block and its copies, the sections; then on (05 R146). -/
def enterTile (s : State) (b id : Nat) : TileGot Unit :=
  match tileCmd s id with
  | none => .fail s
  | some (t, c) => match cmdImage s c with
    | none => .fail s
    | some (va, h) =>
      let s := if t.step == 0 then
          modTile ((enterStores s b c.ctx).modBay b (fun x => holdBanks x [Img.rtBank h, Img.argOff h / bankBytes])) id (fun t => { t with step := 1 })
        else s
      match imageSections s b id c.ctx va h with
      | .wait s => .wait s
      | .fail s => .fail s
      | .ok s xs => match loadSections s b id c.ctx va xs with
        | .wait s => .wait s
        | .fail s => .fail s
        | .ok s _ => .ok (modTile (writeArgs s b h (argBlock s b t c)) id (fun t => { t with step := 3 })) ()

/-! Rows that move a tile on. -/

/-- MX_DESCRIPTOR_COMPLETE: the oldest descriptor, once it has run, leaves the FIFO and MX_DONE advances; the compute phase may end (04 R97, 05 R142). -/
def execMxDescriptorComplete (bay : BayNo) (mx : Fin 4) (s : State) : Out :=
  let m := s.mx bay mx
  match m.fifo with
  | x :: rest =>
    if x.ran then .next (settleCompute (mxSettle (s.setMx bay mx { m with fifo := rest, done := m.done + 1#32 }) bay mx) bay) else .next s
  | [] => .next s

/-- MOVER_DESCRIPTOR_COMPLETE: the oldest descriptor's transfers have finished; RD advances and MOVER_NOTIFY is sent where asked for,
or the failure that a response brought halts the port. The tile goes on with its next step (03 R69, R70, R73, 05 R146). -/
def execMoverDescriptorComplete (bay : BayNo) (port : Fin 2) (s : State) : Out :=
  let m := s.mover bay port
  match m.started with
  | [] => .next s
  | o :: rest =>
    if m.halted || o.waits != 0 then .next s
    else match o.bad with
      | some (cause, st, va) => .next (moverEndBad s bay port o cause st va)
      | none =>
        let s := s.setMover bay port { m with started := rest, rd := (m.rd + 1) % 65536, orders := m.orders.drop 1 }
        let s := if Mv.notify o.desc then s.modBay bay (fun x => { x with notes := x.notes ++ [(port.val, Mv.tag o.desc)] }) else s
        .next (settleTile (advanceTile s bay) bay m.tile)

/-- GANG_START: START_AT is reached, and the kernel of a gang's tile starts (14 R406). -/
def execGangStart (bay : BayNo) (s : State) : Out :=
  match Tbl.find s.work.tiles (s.bay bay).tile with
  | none => .next s
  | some t =>
    if t.startAt == 0 || t.step != 4 then .next s
    else .next (advanceTile (reach s t.startAt) bay)

end Sys2Proof.Machine
end

