-- ==== Sys2Proof/Machine/CoreOps.lean ====
section
/-! DEFINITION. One instruction of a core: its fetch, the part's own instructions, and what a retirement, a wait or an exception leaves (05_vector_scalar.md R129, R131 to R142, R149). -/

namespace Sys2Proof.Machine

/-! The encodings of the part's own instructions (05 R132). -/

/-- Custom-0, R-type. -/
def own0 (f3 f7 rd rs1 rs2 : Nat) : Nat := encR 0x0B f3 f7 rd rs1 rs2
/-- Custom-1, V layout. -/
def own1 (f3 f6 : Nat) (vm : Bool) (vd r1 r2 : Nat) : Nat := 0x2B + vd <<< 7 + f3 <<< 12 + r1 <<< 15 + r2 <<< 20 + bit vm <<< 25 + f6 <<< 26

/-- A core's register written, and the instruction retired. -/
def coreRd (s : State) (b c rd v npc : Nat) : CoreGot Nat := .ok (s.modCore b c (fun k => k.xSet rd v)) npc

/-! Card network messages (05 R139, R140, 03 R84 to R87, R90). -/

/-- The endpoint of a kernel core (03 R85). -/
def epOfCore (c : Nat) : Nat := if c == 5 then 2 else c + 5

/-- Messages that hold the credits of an endpoint: on their way, and in a kernel core's receive queue (03 R87). -/
def creditsHeld (s : State) (router ep : Nat) : Nat :=
  (Tbl.getD s.nets.queues (cardKey router ep) []).length + (match bayAt s router, coreOfEp ep with
    | some b, some c => (s.core b c).recv.length
    | _, _ => 0)

/-- A message put on its way. -/
def cardSend (s : State) (m : Card) : State :=
  s.modNets (fun n => { n with queues := Tbl.put n.queues (cardKey m.dstRouter m.dstEp) (Tbl.getD n.queues (cardKey m.dstRouter m.dstEp) [] ++ [m]) })

/-- The message that a routing word and an argument ask for; none where R139's checks fail. -/
def cardOf (s : State) (b c route arg : Nat) : Option Card :=
  let vbay := bitsAt route 0 5
  let ep := bitsAt route 5 4
  let n := bitsAt route 9 2
  let k := s.core b c
  let bays := volumeBays s b
  if route ≥ 2 ^ 11 || (coreOfEp ep).isNone || vbay ≥ bays.length then none
  else
    let dst := bays.getD vbay b
    if s.partOfBay dst != s.partOfBay b then none
    else some { srcRouter := s.sites.getD b 0, srcEp := epOfCore c, dstRouter := s.sites.getD dst 0, dstEp := ep, type := 9, arg := BitVec.ofNat 32 arg
                payload := (List.range n).map (fun i => Tbl.getD k.cnPay i 0#64) }

/-- CN.SEND and CN.TRYSEND (05 R139). -/
def cnSend (s : State) (b c rd rs1 rs2 : Nat) (try_ : Bool) (npc : Nat) : CoreGot Nat :=
  let k := s.core b c
  match cardOf s b c (k.xGet rs1) (k.xGet rs2 % 2 ^ 32) with
  | none => .trap s 24 0 Status.permission.code
  | some m =>
    if epFenced s m.dstRouter m.dstEp then coreRd (cardIsolated s m) b c rd s.now npc
    else if creditsHeld s m.dstRouter m.dstEp < 16 && !s.nets.held.any (fun h => h.srcRouter == m.srcRouter && h.srcEp == m.srcEp && h.dstRouter == m.dstRouter && h.dstEp == m.dstEp) then
      coreRd (cardSend s m) b c rd s.now npc
    else if try_ then coreRd s b c rd (2 ^ 64 - 1) npc
    else .wait ((s.modNets (fun n => { n with held := n.held ++ [m] })).modCore b c (fun k => { k with wait := some (.send rd) }))

/-- The result of CN.RECV for a message (05 R140). -/
def recvWord (m : UserMsg) : Nat := m.arg.toNat + put m.vbay 32 5 + put m.ep 37 4 + put m.len 41 2 + 2 ^ 63

/-- A message taken by a core: the result in rd, the payload in CN_RPAY. -/
def takeMsg (k : Core) (rd : Nat) (m : UserMsg) : Core :=
  ({ k with recv := k.recv.drop 1, cnRpay := (List.range 3).foldl (fun t i => Tbl.put t i (m.payload.getD i 0#64)) [] }).xSet rd (recvWord m)

/-- CN.RECV (05 R140). -/
def cnRecv (s : State) (b c rd rs1 npc : Nat) : CoreGot Nat :=
  let k := s.core b c
  let d := k.xGet rs1
  match k.recv with
  | m :: _ => if d == 0 || decide (m.stamp ≤ d) then .ok (s.setCore b c (takeMsg k rd m)) npc else coreRd s b c rd 0 npc
  | [] => if d == 0 || decide (s.now > d) then coreRd s b c rd 0 npc else .wait (s.setCore b c { k with wait := some (.recv d rd) })

/-- DS.WAIT (05 R141). -/
def dsWait (s : State) (b c rd rs1 npc : Nat) : CoreGot Nat :=
  let d := (s.core b c).xGet rs1
  if s.now ≥ d then coreRd s b c rd s.now npc else .wait (s.modCore b c (fun k => { k with wait := some (.until d rd) }))

/-- TILE.YIELD: the core's part of the tile ends; a failure ends the tile (05 R142). -/
def tileYield (s : State) (b c rs1 npc : Nat) : CoreGot Nat :=
  let v := (s.core b c).xGet rs1
  let id := (s.bay b).tile
  let s := s.modCore b c (fun k => { k with running := false })
  let s := modTile s id (fun t => { t with yielded := NSet.ins t.yielded (portOfCore c) })
  if v % 2 == 1 then
    .ok (failTile s id Status.aborted.code (coreReq b c) 0 (fun t => { t with fault := some (put (bitsAt v 16 16) 16 16, 0, 0, 0, 0, 0) })) npc
  else .ok (settleCompute s b) npc

/-- BAY.GIVE (05 R138). -/
def bayGive (s : State) (b c rd rs1 rs2 npc : Nat) : CoreGot Nat :=
  let k := s.core b c
  let mask := k.xGet rs1 % 2 ^ 16
  let code := k.xGet rs2 % 16
  let x := s.bay b
  if !(code ≤ 7 || code == 9 || code == 0xF) then coreRd s b c rd 0 npc
  else
    let may := fun (bank : Nat) => if c == 5 then bankOwner x bank != 8 else bankOwner x bank == portOfCore c
    let banks := (List.range 16).filter (fun i => bitsAt mask i 1 == 1)
    let given := banks.filter (fun i => bankOwner x i == code || may i)
    coreRd (s.modBay b (fun x => given.foldl (fun x i => setBankOwner x i code) x)) b c rd (given.foldl (fun m i => m + 2 ^ i) 0) npc

/-! Anchor accumulation on the vector cores (05 R133 to R135). -/

/-- The element format that XCTL.FMT names, where it matches SEW (05 R133). -/
def anchorFmt (k : Core) : Option Fmt :=
  if k.vill then none
  else match Fmt.ofCode (bitsAt k.xctl.toNat 4 5), k.vsew with
    | some (.flt .fp64), 64 => some (.flt .fp64)
    | some (.flt .fp32), 32 => some (.flt .fp32)
    | some .int32, 32 => some .int32
    | some (.flt .bf16), 16 => some (.flt .bf16)
    | some (.flt .fp16), 16 => some (.flt .fp16)
    | some (.flt .e4m3), 8 => some (.flt .e4m3)
    | some (.flt .e5m2), 8 => some (.flt .e5m2)
    | some .int8, 8 => some .int8
    | _, _ => none

namespace Core
def accGet (k : Core) (i : Nat) : A192 := Tbl.getD k.acc i {}
def accPut (k : Core) (i : Nat) (a : A192) : Core := { k with acc := if a == ({} : A192) then Tbl.del k.acc i else Tbl.put k.acc i a }
/-- XCTL.ACC. -/
def accIndex (k : Core) : Nat := bitsAt k.xctl.toNat 9 6
/-- Flags ORed into XFLAGS. -/
def xAccrue (k : Core) (fl : Nat) : Core := { k with fcsr := k.fcsr ||| fl % 32, xflagsHi := k.xflagsHi ||| bitsAt fl 5 4 }
end Core

/-- An anchor instruction over the elements: its format must match SEW, its groups be aligned, and an element-wise one take at most 64
elements (05 R133). -/
def anchorOp (s : State) (b c w npc : Nat) (elementwise : Bool) (groups : List Nat) (f : Core → Fmt → Core) : CoreGot Nat :=
  let k := s.core b c
  match anchorFmt k with
  | none => illegal s w
  | some fm =>
    if (elementwise && k.vl > 64) || !groups.all (fun r => vAligned r k.vlg) then illegal s w
    else .ok (s.setCore b c { f k fm with vstart := 0 }) npc

/-- The value of an element of a group. -/
def elemVal (k : Core) (fm : Fmt) (r i : Nat) : Val := decodePlain fm (k.vGet r k.vsew i)

/-- VA.SETA. -/
def vaSeta (s : State) (b c rs1 : Nat) (vm : Bool) (npc : Nat) : CoreGot Nat :=
  anchorOp s b c (own1 1 0 vm 0 rs1 0) npc true [] (fun k _ =>
    let a := max (-4096) (min 4095 (s64 (k.xGet rs1)))
    (vActive k vm).foldl (fun k i => k.accPut i (A192.cleared a)) k)
/-- VA.ADD.V. -/
def vaAddV (s : State) (b c vs2 : Nat) (vm : Bool) (npc : Nat) : CoreGot Nat :=
  anchorOp s b c (own1 0 0 vm 0 0 vs2) npc true [vs2] (fun k fm => (vActive k vm).foldl (fun k' i => k'.accPut i ((k'.accGet i).addTerm (elemVal k fm vs2 i))) k)
/-- VA.MAC.VV. -/
def vaMacVv (s : State) (b c vs2 vs1 : Nat) (vm : Bool) (npc : Nat) : CoreGot Nat :=
  anchorOp s b c (own1 0 1 vm 0 vs1 vs2) npc true [vs2, vs1] (fun k fm =>
    (vActive k vm).foldl (fun k' i => k'.accPut i ((k'.accGet i).addTerm (Val.mul (elemVal k fm vs1 i) (elemVal k fm vs2 i)))) k)
/-- VA.RED.V. -/
def vaRedV (s : State) (b c vs2 : Nat) (vm : Bool) (npc : Nat) : CoreGot Nat :=
  anchorOp s b c (own1 0 2 vm 0 0 vs2) npc false [vs2] (fun k fm =>
    k.accPut k.accIndex ((vActive k vm).foldl (fun a i => a.addTerm (elemVal k fm vs2 i)) (k.accGet k.accIndex)))
/-- VA.REDMAC.VV. -/
def vaRedmacVv (s : State) (b c vs2 vs1 : Nat) (vm : Bool) (npc : Nat) : CoreGot Nat :=
  anchorOp s b c (own1 0 3 vm 0 vs1 vs2) npc false [vs2, vs1] (fun k fm =>
    k.accPut k.accIndex ((vActive k vm).foldl (fun a i => a.addTerm (Val.mul (elemVal k fm vs1 i) (elemVal k fm vs2 i))) (k.accGet k.accIndex)))

/-- An accumulator entry read out under XCTL (05 R134). -/
def accRead (k : Core) (fm : Fmt) (i : Nat) : Nat × Nat :=
  let x := k.xctl.toNat
  (k.accGet i).readOut fm { mode := (RMode.ofCode (bitsAt x 0 3)).getD .rne, sat := bitsAt x 3 1 == 1
                            r := srDraw k.seed (bitsAt x 16 16) (bitsAt k.xorigin 0 24) ((bitsAt k.xorigin 24 24 + i) % 2 ^ 24) }

/-- Element 0 of a register written whatever vl is; its other elements follow vta (05 R134). -/
def putFirst (k : Core) (fr vd w v : Nat) : Core :=
  (List.range (4096 / w)).foldl (fun (k' : Core) i =>
    if i == 0 then k'.vSet vd w 0 v else if k.vta && agnostic fr i then k'.vSet vd w i (2 ^ w - 1) else k') k

/-- A step of the free counter for agnostic elements. -/
def useFree (g : CoreGot Nat) (n : Nat) : CoreGot Nat := match g with
  | .ok s npc => .ok { s with free := s.free + n } npc
  | g => g

/-- VA.RD.V. -/
def vaRdV (s : State) (b c vd : Nat) (vm : Bool) (npc : Nat) : CoreGot Nat :=
  let w := own1 0 4 vm vd 0 0
  if !vm && vd == 0 then illegal s w
  else useFree (anchorOp s b c w npc true [vd] (fun k fm =>
    (vPutAll k s.free vm vd k.vsew k.vlg (fun i => ((accRead k fm i).1, 0))).xAccrue ((vActive k vm).foldl (fun e i => e ||| (accRead k fm i).2) 0))) 4096
/-- VA.RDX. -/
def vaRdx (s : State) (b c vd rs1 npc : Nat) : CoreGot Nat :=
  useFree (anchorOp s b c (own1 1 4 true vd rs1 0) npc false [] (fun k fm =>
    let i := k.xGet rs1 % 64
    (putFirst k s.free vd k.vsew (accRead k fm i).1).xAccrue (accRead k fm i).2)) 4096

/-- Records stored in order from an address; a wait leaves in vstart the record from which the instruction goes on. -/
def saveRecs (s : State) (b : BayNo) (c va : Nat) : List Nat → CoreGot Unit
  | [] => .ok s ()
  | i :: rest =>
    let at_ := fun (s : State) => s.modCore b c (fun k => { k with vstart := i })
    match coreStore s b c ((va + 32 * i) % 2 ^ 64) (bytesLE 32 ((s.core b c).accGet i).toRec.toNat) with
    | .ok s _ => saveRecs s b c va rest
    | .wait s => .wait (at_ s)
    | .trap s x y z => .trap (at_ s) x y z
/-- Records loaded in order. -/
def loadRecs (s : State) (b : BayNo) (c va : Nat) : List Nat → CoreGot Unit
  | [] => .ok s ()
  | i :: rest =>
    let at_ := fun (s : State) => s.modCore b c (fun k => { k with vstart := i })
    match coreLoad s b c ((va + 32 * i) % 2 ^ 64) 32 with
    | .ok s bs => loadRecs (s.modCore b c (fun k => k.accPut i (A192.ofRec (BitVec.ofNat 256 (natLE bs))))) b c va rest
    | .wait s => .wait (at_ s)
    | .trap s x y z => .trap (at_ s) x y z

/-- The end of a transfer of records. -/
def recsDone (b c va npc : Nat) (write : Bool) (g : CoreGot Unit) : CoreGot Nat := match g with
  | .ok s _ => .ok ((coreCharge s b c va 2048 (!write) write).modCore b c (fun k => { k with vstart := 0 })) npc
  | .wait s => .wait s
  | .trap s x y z => .trap s x y z

/-- VA.SAVE. -/
def vaSave (s : State) (b : BayNo) (c rs1 npc : Nat) : CoreGot Nat :=
  let k := s.core b c
  let va := k.xGet rs1
  if (anchorFmt k).isNone then illegal s (own1 1 1 true 0 rs1 0)
  else if va % 32 != 0 then .trap s 6 va Status.aborted.code
  else recsDone b c va npc true (saveRecs s b c va ((List.range 64).filter (fun i => decide (k.vstart ≤ i))))
/-- VA.LOAD. -/
def vaLoad (s : State) (b : BayNo) (c rs1 npc : Nat) : CoreGot Nat :=
  let k := s.core b c
  let va := k.xGet rs1
  if (anchorFmt k).isNone then illegal s (own1 1 2 true 0 rs1 0)
  else if va % 32 != 0 then .trap s 4 va Status.aborted.code
  else recsDone b c va npc false (loadRecs s b c va ((List.range 64).filter (fun i => decide (k.vstart ≤ i))))
/-- VA.ADDREC: records of another anchor are not added (05 R135). -/
def vaAddrec (s : State) (b : BayNo) (c rs1 npc : Nat) : CoreGot Nat :=
  let k := s.core b c
  let va := k.xGet rs1
  if (anchorFmt k).isNone then illegal s (own1 1 3 true 0 rs1 0)
  else if va % 32 != 0 then .trap s 4 va Status.aborted.code
  else match coreLoad s b c va 32 with
    | .wait s => .wait s
    | .trap s x y z => .trap s x y z
    | .ok s bs =>
      let r := A192.ofRec (BitVec.ofNat 256 (natLE bs))
      let a := k.accGet k.accIndex
      if r.anchor != a.anchor then .trap s 25 va Status.anchorOverflow.code
      else .ok ((coreCharge s b c va 32 true false).modCore b c (fun k => { k.accPut k.accIndex (a.addRec r) with vstart := 0 })) npc

/-- VFEXPMAX.VS (05 R134). -/
def vfexpmax (s : State) (b c vd vs2 vs1 : Nat) (vm : Bool) (npc : Nat) : CoreGot Nat :=
  useFree (anchorOp s b c (own1 0 5 vm vd vs1 vs2) npc false [vs2] (fun k fm =>
    let w := k.vsew
    let es := (vActive k vm).filterMap (fun i => (elemVal k fm vs2 i).exponent?)
    putFirst k s.free vd w (toBits (es.foldl max (sext (k.vGet vs1 w 0) w)) w))) 4096

/-! The function group (05 R136). -/

/-- The format of the group's elements; none where the selector is illegal at this SEW. -/
def fnFmt (k : Core) (bf16 : Bool) : Option FloatFmt :=
  if k.vill then none
  else match k.vsew, bf16 with
    | 16, true => some .bf16 | 16, false => some .fp16 | 32, false => some .fp32 | 64, false => some .fp64 | _, _ => none

/-- A function of each active element; results that are correctly rounded follow frm. -/
def fnOp (s : State) (b c code vd vs2 : Nat) (vm bf16 : Bool) (npc : Nat) : CoreGot Nat :=
  let k := s.core b c
  let w := own1 2 0 vm vd (code + if bf16 then 16 else 0) vs2
  match fnFmt k bf16, rvMode (k.fcsr / 32) with
  | some f, some m =>
    if (!vm && vd == 0) || !vAligned vd k.vlg || !vAligned vs2 k.vlg then illegal s w
    else .ok { s.setCore b c (vPutAll k s.free vm vd k.vsew k.vlg (fun i => fnElem f m code (k.vGet vs2 k.vsew i))) with free := s.free + 4096 } npc
  | _, _ => illegal s w

/-! Bay memory forms (05 R137). -/

/-- The first address of the rows that breaks R137, with its status: every byte lies in the Bay memory window, in a bank that the core owns. -/
def blockBad (x : Bay) (c : Nat) (as : List Nat) (n : Nat) : Option (Nat × Nat) :=
  as.findSome? (fun a => match regionOf a, regionOf ((a + n - 1) % 2 ^ 64) with
    | .bayMem o, .bayMem e =>
      if bankOwner x (o / bankBytes) != portOfCore c then some (a, Status.permission.code)
      else if bankOwner x (e / bankBytes) != portOfCore c then some (localBase + e / bankBytes * bankBytes, Status.permission.code) else none
    | _, _ => some (a, Status.aborted.code))

/-- VBL2D and VBS2D. -/
def vBlock (s : State) (b : BayNo) (c : Nat) (load : Bool) (v rs1 rs2 row reg npc : Nat) : CoreGot Nat :=
  let k := s.core b c
  let n := 2 ^ reg
  let bytes := 32 * 2 ^ row
  let base := k.xGet rs1
  let pitch := k.xGet rs2
  let x := s.bay b
  if row ≥ 5 || v % n != 0 then illegal s (own1 3 ((if load then 0 else 32) + row * 4 + reg) true v rs1 rs2)
  else if base % 32 != 0 then .trap s (if load then 4 else 6) base Status.aborted.code
  else if pitch % 32 != 0 then .trap s (if load then 4 else 6) pitch Status.aborted.code
  else
    let as := (List.range (n * 512 / bytes)).map (fun r => (base + r * pitch) % 2 ^ 64)
    match blockBad x c as bytes with
    | some (a, st) =>
      let s := if st == Status.permission.code then bayEvent s b 23 (some ((a - localBase) / bankBytes % 16)) 2 0 else s
      .trap s (if load then 5 else 7) a st
    | none =>
      if as.any (fun a => [a, a + bytes - 1].any (fun e => bitsAt x.pending.toNat ((e - localBase) / bankBytes) 1 == 1)) then .wait s
      else if load then
        let bs := as.flatMap (fun a => x.read (a - localBase) bytes)
        .ok (s.setCore b c (((chunks 512 bs).zipIdx).foldl (fun (k : Core) q => k.vPutReg (v + q.2) (natLE q.1)) k)) npc
      else
        let bs := (List.range n).flatMap (fun i => bytesLE 512 (k.vReg (v + i)))
        .ok (s.modBay b (fun x => ((as.zip (chunks bytes bs)).foldl (fun (x : Bay) q => x.write (q.1 - localBase) q.2) x))) npc

/-! One instruction (05 R125, R129, R132, R149). -/

/-- The part's own instructions by their words: custom-0. -/
def custom0 (s : State) (b : BayNo) (c w npc : Nat) : CoreGot Nat :=
  let rd := bitsAt w 7 5
  let r1 := bitsAt w 15 5
  let r2 := bitsAt w 20 5
  if c == 4 then illegal s w
  else match bitsAt w 12 3, bitsAt w 25 7 with
    | 0, 0 => cnSend s b c rd r1 r2 false npc
    | 0, 1 => cnSend s b c rd r1 r2 true npc
    | 1, 0 => if r2 == 0 then cnRecv s b c rd r1 npc else illegal s w
    | 2, 0 => if r1 == 0 && r2 == 0 then coreRd s b c rd s.now npc else illegal s w
    | 2, 1 => if r2 == 0 then dsWait s b c rd r1 npc else illegal s w
    | 3, 0 => if rd == 0 && r2 == 0 then tileYield s b c r1 npc else illegal s w
    | 4, 0 => bayGive s b c rd r1 r2 npc
    | 5, 0 => if r1 == 0 && r2 == 0 then coreRd s b c rd (s.bay b).owners.toNat npc else illegal s w
    | _, _ => illegal s w

/-- Custom-1. -/
def custom1 (s : State) (b : BayNo) (c w npc : Nat) : CoreGot Nat :=
  let vd := bitsAt w 7 5
  let r1 := bitsAt w 15 5
  let r2 := bitsAt w 20 5
  let vm := bitsAt w 25 1 == 1
  let f6 := bitsAt w 26 6
  if c ≥ 4 then illegal s w
  else match bitsAt w 12 3, f6 with
    | 0, 0 => if vd == 0 && r1 == 0 then vaAddV s b c r2 vm npc else illegal s w
    | 0, 1 => if vd == 0 then vaMacVv s b c r2 r1 vm npc else illegal s w
    | 0, 2 => if vd == 0 && r1 == 0 then vaRedV s b c r2 vm npc else illegal s w
    | 0, 3 => if vd == 0 then vaRedmacVv s b c r2 r1 vm npc else illegal s w
    | 0, 4 => if r1 == 0 && r2 == 0 then vaRdV s b c vd vm npc else illegal s w
    | 0, 5 => vfexpmax s b c vd r2 r1 vm npc
    | 1, 0 => if vd == 0 && r2 == 0 then vaSeta s b c r1 vm npc else illegal s w
    | 1, 1 => if vd == 0 && r2 == 0 && vm then vaSave s b c r1 npc else illegal s w
    | 1, 2 => if vd == 0 && r2 == 0 && vm then vaLoad s b c r1 npc else illegal s w
    | 1, 3 => if vd == 0 && r2 == 0 && vm then vaAddrec s b c r1 npc else illegal s w
    | 1, 4 => if r2 == 0 && vm then vaRdx s b c vd r1 npc else illegal s w
    | 2, 0 => if r1 % 16 < 8 then fnOp s b c (r1 % 16) vd r2 vm (decide (r1 ≥ 16)) npc else illegal s w
    | 3, f => if vm then vBlock s b c (f < 32) vd r1 r2 (bitsAt f 2 3) (bitsAt f 0 2) npc else illegal s w
    | _, _ => illegal s w

/-- A 32-bit word. -/
def word32 (s : State) (b : BayNo) (c w npc : Nat) : CoreGot Nat :=
  let f3 := bitsAt w 12 3
  let vmem := c < 4 && (f3 == 0 || f3 ≥ 5)
  match w % 128 with
  | 0x0B => custom0 s b c w npc
  | 0x2B => custom1 s b c w npc
  | 0x57 => if c < 4 then vOp s b c w npc else illegal s w
  | 0x07 => if vmem then vMem s b c w true npc else rvScalar s b c w 4
  | 0x27 => if vmem then vMem s b c w false npc else rvScalar s b c w 4
  | _ => rvScalar s b c w 4

/-- An instruction by its word: 16 bits of it where its low bits say so. -/
def anyWord (s : State) (b : BayNo) (c w : Nat) : CoreGot Nat :=
  if w % 4 == 3 then word32 s b c w (((s.core b c).pc.toNat + 4) % 2 ^ 64)
  else match expandC (w % 2 ^ 16) with
    | some x => rvScalar s b c x 2
    | none => illegal s (w % 2 ^ 16)

/-- Whether a core may execute: it runs or is scalar core 0, nothing holds it, and neither it nor its Bay is fenced or in reset. -/
def coreMay (s : State) (b c : Nat) : Bool :=
  let x := s.bay b
  let k := x.core c
  k.wait.isNone && !k.trapped && (k.running || c == 4) && x.wrapper == .open_ && x.resetAt.isNone
    && bitsAt x.coreFence.toNat (portOfCore c) 1 == 0 && !x.coreResets.contains (portOfCore c)

/-- The fetch of user code: a context address in a page that permits reads; other addresses raise an access fault (05 R129, R149). -/
def coreFetch (s : State) (b c len : Nat) : CoreGot Unit :=
  let k := s.core b c
  let pc := k.pc.toNat
  if k.machine then .ok s ()
  else
    let one := fun (s : State) (a : Nat) => match regionOf a with
      | .context => (match coreEntry s b c a 2 with
        | .ok s _ => CoreGot.ok (s.modCore b c (fun k => { k with l1i := NSet.ins k.l1i (a / 128) })) ()
        | .wait s => .wait s
        | .trap s x y z => .trap s x y z)
      | .none => .trap s 1 a Status.aborted.code
      | _ => .trap s 1 a Status.permission.code
    match one s pc with
    | .ok s _ => if (pc + len - 1) / 128 != pc / 128 then one s (pc + len - 1) else .ok s ()
    | g => g

/-- An exception of scalar core 0, which no stub serves: the machine-mode trap of the ratified specifications (assumption 20). -/
def machineTrap (s : State) (b c cause value : Nat) : State :=
  s.modCore b c (fun k =>
    let st := (Tbl.getD k.mcsr 0x300 0#64).toNat
    let st := st - put (bitsAt st 3 1) 3 1 - put (bitsAt st 7 1) 7 1 - put (bitsAt st 11 2) 11 2 + put (bitsAt st 3 1) 7 1 + put (if k.machine then 3 else 0) 11 2
    let set := fun (t : Tbl DWord) (n v : Nat) => Tbl.put t n (BitVec.ofNat 64 v)
    { k with mcsr := set (set (set (set k.mcsr 0x300 st) 0x341 k.pc.toNat) 0x342 cause) 0x343 value, machine := true
             pc := BitVec.ofNat 64 (alignDown (Tbl.getD k.mcsr 0x305 0#64).toNat 4) })

/-- What an instruction leaves: retired at its next pc, presented again, or an exception taken (05 R131, R149). The cycles it took are a
free value (assumption 3). -/
def coreEnd (b c : Nat) (g : CoreGot Nat) : State := match g with
  | .ok s npc => { s.modCore b c (fun k => { k with pc := BitVec.ofNat 64 npc, instret := (k.instret + 1) % 2 ^ 64, cycle := (k.cycle + (Config.freeWord s.free).toNat) % 2 ^ 64 }) with free := s.free + 1 }
  | .wait s => s
  | .trap s cause value st => if c == 4 then machineTrap s b c cause value else trapCore s b c cause value st

/-- One instruction of `len` bytes. -/
def coreStep (s : State) (b : BayNo) (c len : Nat) (f : State → CoreGot Nat) : State :=
  if !coreMay s b c then s
  else match coreFetch s b c len with
    | .ok s _ => coreEnd b c (f s)
    | .wait s => s
    | .trap s x y z => coreEnd b c (.trap s x y z)

/-- One of the part's own instructions, on a core that has it (05 R132); `f` takes the state and the next pc. -/
def ownStep (s : State) (b : BayNo) (c : CoreNo) (vector : Bool) (w : Nat) (f : State → Nat → CoreGot Nat) : State :=
  coreStep s b c 4 (fun s => if (if vector then c.val ≥ 4 else c.val == 4) then illegal s w else f s (((s.core b c).pc.toNat + 4) % 2 ^ 64))

/-! The rows. -/

/-- RISCV_INSTRUCTION: the word at the core's pc is executed (05 R125). -/
def execRiscvInstruction (bay : BayNo) (core : CoreNo) (word : Word) (s : State) : Out :=
  .next (coreStep s bay core (if word.toNat % 4 == 3 then 4 else 2) (fun s => anyWord s bay core word.toNat))
/-- CN_SEND (05 R139). -/
def execCnSend (bay : BayNo) (core : CoreNo) (rd rs1 rs2 : RegNo) (s : State) : Out :=
  .next (ownStep s bay core false (own0 0 0 rd rs1 rs2) (fun s npc => cnSend s bay core rd rs1 rs2 false npc))
/-- CN_TRYSEND (05 R139). -/
def execCnTrysend (bay : BayNo) (core : CoreNo) (rd rs1 rs2 : RegNo) (s : State) : Out :=
  .next (ownStep s bay core false (own0 0 1 rd rs1 rs2) (fun s npc => cnSend s bay core rd rs1 rs2 true npc))
/-- CN_RECV (05 R140). -/
def execCnRecv (bay : BayNo) (core : CoreNo) (rd rs1 : RegNo) (s : State) : Out :=
  .next (ownStep s bay core false (own0 1 0 rd rs1 0) (fun s npc => cnRecv s bay core rd rs1 npc))

/-- A waiting instruction ends with a result, and the core goes on (05 R139 to R141). -/
def endWait (s : State) (b c rd v : Nat) : State :=
  coreEnd b c (coreRd (s.modCore b c (fun k => { k with wait := none })) b c rd v (((s.core b c).pc.toNat + 4) % 2 ^ 64))

/-- CN_RECV_DEADLINE: the deadline of a CN.RECV that waits passes, and it returns 0 (05 R140). -/
def execCnRecvDeadline (bay : BayNo) (core : CoreNo) (s : State) : Out :=
  match (s.core bay core).wait with
  | some (.recv d rd) => .next (endWait (reach s (d + 1)) bay core rd 0)
  | _ => .next s
/-- DS_READ (05 R141). -/
def execDsRead (bay : BayNo) (core : CoreNo) (rd : RegNo) (s : State) : Out :=
  .next (ownStep s bay core false (own0 2 0 rd 0 0) (fun s npc => coreRd s bay core rd s.now npc))
/-- DS_WAIT (05 R141). -/
def execDsWait (bay : BayNo) (core : CoreNo) (rd rs1 : RegNo) (s : State) : Out :=
  .next (ownStep s bay core false (own0 2 1 rd rs1 0) (fun s npc => dsWait s bay core rd rs1 npc))
/-- DS_WAIT_RETURN: Datestamp reaches the target, and DS.WAIT returns it (05 R141). -/
def execDsWaitReturn (bay : BayNo) (core : CoreNo) (s : State) : Out :=
  match (s.core bay core).wait with
  | some (.until t rd) => let s := reach s t; .next (endWait s bay core rd s.now)
  | _ => .next s
/-- TILE_YIELD (05 R142). -/
def execTileYield (bay : BayNo) (core : CoreNo) (rs1 : RegNo) (s : State) : Out :=
  .next (ownStep s bay core false (own0 3 0 0 rs1 0) (fun s npc => tileYield s bay core rs1 npc))
/-- BAY_GIVE (05 R138). -/
def execBayGive (bay : BayNo) (core : CoreNo) (rd rs1 rs2 : RegNo) (s : State) : Out :=
  .next (ownStep s bay core false (own0 4 0 rd rs1 rs2) (fun s npc => bayGive s bay core rd rs1 rs2 npc))
/-- BAY_OWN (05 R138). -/
def execBayOwn (bay : BayNo) (core : CoreNo) (rd : RegNo) (s : State) : Out :=
  .next (ownStep s bay core false (own0 5 0 rd 0 0) (fun s npc => coreRd s bay core rd (s.bay bay).owners.toNat npc))
/-- VA_SETA (05 R134). -/
def execVaSeta (bay : BayNo) (core : CoreNo) (rs1 : RegNo) (vm : Bool) (s : State) : Out :=
  .next (ownStep s bay core true (own1 1 0 vm 0 rs1 0) (fun s npc => vaSeta s bay core rs1 vm npc))
/-- VA_ADD_V (05 R134). -/
def execVaAddV (bay : BayNo) (core : CoreNo) (vs2 : RegNo) (vm : Bool) (s : State) : Out :=
  .next (ownStep s bay core true (own1 0 0 vm 0 0 vs2) (fun s npc => vaAddV s bay core vs2 vm npc))
/-- VA_MAC_VV (05 R134). -/
def execVaMacVv (bay : BayNo) (core : CoreNo) (vs2 vs1 : RegNo) (vm : Bool) (s : State) : Out :=
  .next (ownStep s bay core true (own1 0 1 vm 0 vs1 vs2) (fun s npc => vaMacVv s bay core vs2 vs1 vm npc))
/-- VA_RED_V (05 R134). -/
def execVaRedV (bay : BayNo) (core : CoreNo) (vs2 : RegNo) (vm : Bool) (s : State) : Out :=
  .next (ownStep s bay core true (own1 0 2 vm 0 0 vs2) (fun s npc => vaRedV s bay core vs2 vm npc))
/-- VA_REDMAC_VV (05 R134). -/
def execVaRedmacVv (bay : BayNo) (core : CoreNo) (vs2 vs1 : RegNo) (vm : Bool) (s : State) : Out :=
  .next (ownStep s bay core true (own1 0 3 vm 0 vs1 vs2) (fun s npc => vaRedmacVv s bay core vs2 vs1 vm npc))
/-- VA_RD_V (05 R134). -/
def execVaRdV (bay : BayNo) (core : CoreNo) (vd : RegNo) (vm : Bool) (s : State) : Out :=
  .next (ownStep s bay core true (own1 0 4 vm vd 0 0) (fun s npc => vaRdV s bay core vd vm npc))
/-- VA_RDX (05 R134). -/
def execVaRdx (bay : BayNo) (core : CoreNo) (vd rs1 : RegNo) (s : State) : Out :=
  .next (ownStep s bay core true (own1 1 4 true vd rs1 0) (fun s npc => vaRdx s bay core vd rs1 npc))
/-- VA_SAVE (05 R134). -/
def execVaSave (bay : BayNo) (core : CoreNo) (rs1 : RegNo) (s : State) : Out :=
  .next (ownStep s bay core true (own1 1 1 true 0 rs1 0) (fun s npc => vaSave s bay core rs1 npc))
/-- VA_LOAD (05 R134). -/
def execVaLoad (bay : BayNo) (core : CoreNo) (rs1 : RegNo) (s : State) : Out :=
  .next (ownStep s bay core true (own1 1 2 true 0 rs1 0) (fun s npc => vaLoad s bay core rs1 npc))
/-- VA_ADDREC (05 R134, R135). -/
def execVaAddrec (bay : BayNo) (core : CoreNo) (rs1 : RegNo) (s : State) : Out :=
  .next (ownStep s bay core true (own1 1 3 true 0 rs1 0) (fun s npc => vaAddrec s bay core rs1 npc))
/-- VFEXPMAX_VS (05 R134). -/
def execVfexpmaxVs (bay : BayNo) (core : CoreNo) (vd vs2 vs1 : RegNo) (vm : Bool) (s : State) : Out :=
  .next (ownStep s bay core true (own1 0 5 vm vd vs1 vs2) (fun s npc => vfexpmax s bay core vd vs2 vs1 vm npc))

/-- One of the function group, by its selector. -/
def fnStep (s : State) (b : BayNo) (c : CoreNo) (code : Nat) (vd vs2 : RegNo) (vm bf16 : Bool) : Out :=
  .next (ownStep s b c true (own1 2 0 vm vd (code + if bf16 then 16 else 0) vs2) (fun s npc => fnOp s b c code vd vs2 vm bf16 npc))

/-- VFEXP2 (05 R136). -/
def execVfexp2 (bay : BayNo) (core : CoreNo) (vd vs2 : RegNo) (vm bf16 : Bool) (s : State) : Out := fnStep s bay core 0 vd vs2 vm bf16
/-- VFLOG2 (05 R136). -/
def execVflog2 (bay : BayNo) (core : CoreNo) (vd vs2 : RegNo) (vm bf16 : Bool) (s : State) : Out := fnStep s bay core 1 vd vs2 vm bf16
/-- VFSINPI (05 R136). -/
def execVfsinpi (bay : BayNo) (core : CoreNo) (vd vs2 : RegNo) (vm bf16 : Bool) (s : State) : Out := fnStep s bay core 2 vd vs2 vm bf16
/-- VFCOSPI (05 R136). -/
def execVfcospi (bay : BayNo) (core : CoreNo) (vd vs2 : RegNo) (vm bf16 : Bool) (s : State) : Out := fnStep s bay core 3 vd vs2 vm bf16
/-- VFTANH (05 R136). -/
def execVftanh (bay : BayNo) (core : CoreNo) (vd vs2 : RegNo) (vm bf16 : Bool) (s : State) : Out := fnStep s bay core 4 vd vs2 vm bf16
/-- VFERF (05 R136). -/
def execVferf (bay : BayNo) (core : CoreNo) (vd vs2 : RegNo) (vm bf16 : Bool) (s : State) : Out := fnStep s bay core 5 vd vs2 vm bf16
/-- VFRSQRT (05 R136). -/
def execVfrsqrt (bay : BayNo) (core : CoreNo) (vd vs2 : RegNo) (vm bf16 : Bool) (s : State) : Out := fnStep s bay core 6 vd vs2 vm bf16
/-- VFRECIP (05 R136). -/
def execVfrecip (bay : BayNo) (core : CoreNo) (vd vs2 : RegNo) (vm bf16 : Bool) (s : State) : Out := fnStep s bay core 7 vd vs2 vm bf16

/-- VBL2D (05 R137). -/
def execVbl2d (bay : BayNo) (core : CoreNo) (vd rs1 rs2 : RegNo) (rowCode : Fin 8) (regCode : Fin 4) (s : State) : Out :=
  .next (ownStep s bay core true (own1 3 (rowCode * 4 + regCode) true vd rs1 rs2) (fun s npc => vBlock s bay core true vd rs1 rs2 rowCode regCode npc))
/-- VBS2D (05 R137). -/
def execVbs2d (bay : BayNo) (core : CoreNo) (vs3 rs1 rs2 : RegNo) (rowCode : Fin 8) (regCode : Fin 4) (s : State) : Out :=
  .next (ownStep s bay core true (own1 3 (32 + rowCode * 4 + regCode) true vs3 rs1 rs2) (fun s npc => vBlock s bay core false vs3 rs1 rs2 rowCode regCode npc))

end Sys2Proof.Machine
end

