-- ==== Sys2Proof/Machine/CardOps.lean ====
section
/-! DEFINITION. Card network messages on their way and as they arrive (03_bays.md R84 to R90, 05_vector_scalar.md R139, R140, R149, R150). -/

namespace Sys2Proof.Machine

/-! Messages of any block (03 R84 to R86, R90). -/

/-- The Registrar's router number (03 R84). -/
def registrarRouter : Nat := 48

/-- The partition of a Bay site's endpoint; none elsewhere. -/
def endPart (s : State) (e : CardEnd) : Option Nat := (bayAt s e.router.toNat).map s.partOfBay

/-- Whether a message would cross from one partition to another (03 R86). -/
def crosses (s : State) (src dst : CardEnd) : Bool :=
  match endPart s src, endPart s dst with
  | some p, some q => p != q
  | _, _ => false

/-- The kernel core at an endpoint. -/
def kernelAt (s : State) (e : CardEnd) : Option (Nat × Nat) :=
  match bayAt s e.router.toNat, coreOfEp e.ep.toNat with
  | some b, some c => some (b, c)
  | _, _ => none

/-- A message of a type whose meaning the spec leaves to the two blocks: a kernel core may not send it and takes CARD_SEND, endpoint 0
accepts the Registrar alone, none crosses partitions, one to a fenced endpoint comes back as ISOLATED, and any other arrives (03 R84 to R86,
R90). -/
def cardArrive (s : State) (type : Nat) (src dst : CardEnd) (arg : Word) (ok : Bool) : State :=
  let m : Card := { srcRouter := src.router.toNat, srcEp := src.ep.toNat, dstRouter := dst.router.toNat, dstEp := dst.ep.toNat, type, arg }
  match kernelAt s src with
  | some (b, c) => trapCore s b c 24 0 Status.permission.code
  | none =>
    if !ok || (m.dstEp == 0 && m.srcRouter != registrarRouter) || crosses s src dst then s
    else if epFenced s m.dstRouter m.dstEp then cardIsolated s m
    else s.modNets (fun n => { n with arrived := Tbl.put n.arrived (cardKey m.dstRouter m.dstEp * 16 + type) m })

/-- FENCE_SIGNAL_MSG (03 R84). -/
def execFenceSignalMsg (src dst : CardEnd) (arg : Word) (s : State) : Out := .next (cardArrive s 1 src dst arg true)

/-- INTERRUPT (03 R84). -/
def execInterrupt (src dst : CardEnd) (arg : Word) (s : State) : Out := .next (cardArrive s 4 src dst arg true)

/-- POWER_CMD: it goes to endpoint 4 of a Bay site (03 R84, R85). -/
def execPowerCmd (src dst : CardEnd) (arg : Word) (s : State) : Out :=
  .next (cardArrive s 5 src dst arg (dst.ep.toNat == 4 && (bayAt s dst.router.toNat).isSome))

/-- ROUTER_CTRL: from the Registrar to endpoint 0 of a router (03 R84, R85). -/
def execRouterCtrl (src dst : CardEnd) (arg : Word) (s : State) : Out :=
  .next (cardArrive s 10 src dst arg (src.router.toNat == registrarRouter && dst.ep.toNat == 0 && decide (dst.router.toNat < 48)))

/-- MOVER_NOTIFY: the oldest notice of a descriptor's completion reaches the Bay runtime (03 R69). -/
def execMoverNotify (bay : BayNo) (s : State) : Out := .next (s.modBay bay (fun x => { x with notes := x.notes.drop 1 }))

/-! FAULT_REPORT (05 R149, R150). -/

/-- A report that reaches the Bay runtime: it decides the tile's status, or is a secondary cause of one that has it; a timed-out request
replays the tile; after the end of the compute phase it changes nothing; a matrix core's gives its cause and the descriptor's TAG (05 R149,
R150, 13 R375). -/
def bayReport (s : State) (r : Report) : State :=
  let id := (s.bay r.bay).tile
  match Tbl.find s.work.tiles id with
  | none => s
  | some t =>
    let req := match coreOfPort r.core with | some c => coreReq r.bay c | none => 0x3FF
    let info := fun (t : Tile) => if r.core < 4 then { t with fault := some (put r.mcause 4 4, r.mtval, 0, 0, 0, 0), requester := req }
      else { t with fault := some (0, 0, r.mcause, r.mtval, r.pc, 0), requester := req }
    if t.step ≥ 7 then s
    else if r.status == Status.timeout.code && t.status.isNone then endTile s id r.status info false true
    else failTile s id r.status req r.mtval info

/-- FAULT_REPORT: the oldest report reaches the Bay runtime, or the Registrar (05 R149, 03 R90). -/
def execFaultReport (s : State) : Out :=
  match s.reports with
  | [] => .next s
  | r :: rest =>
    let s := { s with reports := rest }
    .next (if r.bay < 32 then bayReport s r else s)

/-! USER messages (05 R139, R140, 03 R87). -/

/-- A USER message that enters a kernel core's queue, stamped; a CN.RECV that waits takes it, unless its deadline has passed (05 R140). -/
def userArrive (s : State) (b c : Nat) (m : Card) : State :=
  let src := (bayAt s m.srcRouter).getD 0
  let u : UserMsg := { stamp := s.now, vbay := vbayOf s src, ep := m.srcEp, len := m.payload.length, arg := m.arg, payload := m.payload }
  let s := s.modCore b c (fun k => { k with recv := k.recv ++ [u] })
  match (s.core b c).wait with
  | some (.recv d rd) =>
    if s.now ≤ d then
      let s := s.modCore b c (fun k => { takeMsg k rd u with wait := none })
      coreEnd b c (.ok s (((s.core b c).pc.toNat + 4) % 2 ^ 64))
    else s
  | _ => s

/-- USER: the oldest USER message on its way to an endpoint arrives; where no tile runs it is discarded (05 R140). -/
def execUser (dst : CardEnd) (s : State) : Out :=
  let key := cardKey dst.router.toNat dst.ep.toNat
  match Tbl.getD s.nets.queues key [] with
  | [] => .next s
  | m :: rest =>
    let s := s.modNets (fun n => { n with queues := if rest.isEmpty then Tbl.del n.queues key else Tbl.put n.queues key rest })
    match kernelAt s dst with
    | none => .next s
    | some (b, c) =>
      if epFenced s m.dstRouter m.dstEp then .next (cardIsolated s m)
      else if (s.core b c).running then .next (userArrive s b c m)
      else .next s

/-- Whether an earlier message is held between the same endpoints (03 R87). -/
def heldEarlier (ms : List Card) (m : Card) : Bool :=
  ms.any (fun h => h.srcRouter == m.srcRouter && h.srcEp == m.srcEp && h.dstRouter == m.dstRouter && h.dstEp == m.dstEp)

/-- CARD_INJECT: a held message whose destination has a credit is injected, and its CN.SEND returns the Datestamp of injection
(03 R87, 05 R139). -/
def execCardInject (index : Nat) (s : State) : Out :=
  match s.nets.held[index]? with
  | none => .next s
  | some m =>
    if creditsHeld s m.dstRouter m.dstEp ≥ 16 || heldEarlier (s.nets.held.take index) m then .next s
    else
      let s := s.modNets (fun n => { n with held := n.held.eraseIdx index })
      let s := if epFenced s m.dstRouter m.dstEp then cardIsolated s m else cardSend s m
      match bayAt s m.srcRouter, coreOfEp m.srcEp with
      | some b, some c => match (s.core b c).wait with
        | some (.send rd) => .next (endWait s b c rd s.now)
        | _ => .next s
      | _, _ => .next s

end Sys2Proof.Machine
end

