-- ==== Sys2Proof/Machine/Placement.lean ====
section
/-! DEFINITION. Placing tiles: hop counts, residency and the save area's check, which tile comes next, and which Bay it takes (14_scheduling.md R400 to R406, 13_work_objects.md R368, R373, 03_bays.md R80 to R83). -/

namespace Sys2Proof.Machine

/-! Hop counts (03 R81, R83; assumption 50). -/

/-- The links of bulk plane 0 that the routing tables in force use. -/
def workingLinks (s : State) : List NetLink :=
  (planeLinks 0).filter (fun l => !s.nets.routedLinks.contains l && !s.nets.routedRouters.contains l.a && !s.nets.routedRouters.contains l.b)

/-- Routers one hop from a set, not seen before. -/
def hopNext (ls : List NetLink) (seen front : NSet) : NSet :=
  ls.foldl (fun acc l =>
    let acc := if front.contains l.a && !seen.contains l.b then NSet.ins acc l.b else acc
    if front.contains l.b && !seen.contains l.a then NSet.ins acc l.a else acc) []

/-- Hops from a set of routers to a router; 255 where it cannot be reached. -/
def hopGo (ls : List NetLink) (target : Nat) (seen front : NSet) (d : Nat) : Nat → Nat
  | 0 => 255
  | n + 1 =>
    if front.contains target then d
    else if front.isEmpty then 255
    else
      let next := hopNext ls seen front
      hopGo ls target (next.foldl NSet.ins seen) next (d + 1) n

/-- Hops between two routers, 48 the Spine node. -/
def hops (s : State) (a b : Nat) : Nat := hopGo (workingLinks s) b [a] [a] 0 50

/-- Hops from a logical Bay to a stack controller, and to the Spine node (13 R399). -/
def bayHops (s : State) (b k : Nat) : Nat := hops s (s.sites.getD b 0) (stackRouter k)
def baySpineHops (s : State) (b : Nat) : Nat := hops s (s.sites.getD b 0) 48

/-! Residency and the save area (13 R368, R373). -/

/-- Resident context slots of a partition (01 R17). -/
def ctxSlots (s : State) (p : Nat) : List Nat := (List.range (48 / s.nparts)).map (· + p * (48 / s.nparts))

/-- Whether a command is of a context. -/
def cmdOf (s : State) (id key : Nat) : Bool := ((Tbl.find s.work.cmds id).map (·.ctx)) == some key

/-- Whether a context has work that keeps it resident: SHELVE, COLLECTIVE and HINT commands that have been released, placed tiles, parked
tags, or fault records that hold its requesters (07 R186). -/
def ctxBusy (s : State) (key : Nat) : Bool :=
  s.work.cmds.any (fun c => c.2.ctx == key && c.2.phase != .accepted && c.2.opcode != 1)
    || s.work.tiles.any (fun t => cmdOf s t.2.cmd key)
    || s.work.parked.any (fun t => cmdOf s t.2.tile.cmd key)
    || s.work.faultRecs.any (fun r => r.1 / 65536 == key)

/-- A context made resident: it keeps its slot, takes a free one, or takes that of the first resident context without work; none where
every slot is busy (13 R368). -/
def makeResident (s : State) (key : Nat) : State × Bool :=
  match Tbl.find s.work.ctxs key with
  | none => (s, false)
  | some c =>
    if c.slot.isSome then (s, true)
    else
      let p := ctxPart key
      let mine := s.work.ctxs.filter (fun x => ctxPart x.1 == p)
      match (ctxSlots s p).find? (fun j => !mine.any (fun x => x.2.slot == some j)) with
      | some j => (modCtx { s with cat := { s.cat with roots := Tbl.del s.cat.roots j } } key (fun c => { c with slot := some j }), true)
      | none => match mine.find? (fun x => x.2.slot.isSome && !ctxBusy s x.1) with
        | none => (s, false)
        | some x => (modCtx (dropSlot s x.1) key (fun c => { c with slot := x.2.slot }), true)

/-- Whether a context is resident, or can be made so now (13 R368). -/
def canReside (s : State) (key : Nat) : Bool :=
  match Tbl.find s.work.ctxs key with
  | none => false
  | some c =>
    let p := ctxPart key
    let mine := s.work.ctxs.filter (fun x => ctxPart x.1 == p)
    c.slot.isSome || (ctxSlots s p).any (fun j => !mine.any (fun x => x.2.slot == some j)) || mine.any (fun x => x.2.slot.isSome && !ctxBusy s x.1)

/-- What the check of a save area comes to. -/
inductive SaveGot where
  | ok (s : State)
  | wait (s : State)
  | bad (s : State) (status va : Nat)

/-- The pages of a save area translated: each a local leaf with R and W, and SEALED where the context has read a sealed page (13 R373). -/
def savePages (s : State) (key root : Nat) (sealed_ : Bool) : List (Nat × Nat) → SaveGot
  | [] => .ok s
  | (a, _) :: rest =>
    match walkPages s key root 0 [(a, 1)] with
    | .wait s => .wait s
    | .fail s cause _ va => .bad s (causeStatus cause) va
    | .ok s es =>
      if es.any (fun e => leafRemote e.leaf || !leafR e.leaf || !leafW e.leaf) then .bad s Status.permission.code a
      else if sealed_ && es.any (fun e => !leafSealed e.leaf) then .bad s Status.denied.code a
      else savePages s key root sealed_ rest

/-- A context's save area checked: it passes, or the context is faulted with a SAVE_AREA record; the status, 0 where it passes (13 R373). -/
def checkSave (s : State) (key : Nat) : State × Option Nat :=
  match Tbl.find s.work.ctxs key with
  | none => (s, none)
  | some c => match savePages s key c.root c.sealedRead (pagePieces c.saveVa c.saveBytes) with
    | .ok s => (modCtx s key (fun c => { c with saveOk := true }), some 0)
    | .wait s => (s, none)
    | .bad s st va =>
      let s := (writeFault s key { kind := 7, status := st, body := va }).1
      (modCtx (faultCtx s key) key (fun c => { c with saveOk := false }), some st)

/-- A context ready for its tiles: resident, and its save area checked. -/
def readyCtx (s : State) (key : Nat) : State × Bool :=
  match makeResident s key with
  | (s, false) => (s, false)
  | (s, true) =>
    if ((Tbl.find s.work.ctxs key).map (·.saveOk)).getD false then (s, true)
    else match checkSave s key with
      | (s, some 0) => (s, true)
      | (s, _) => (s, false)

/-! The Bays of a Volume (14 R400, R401). -/

/-- Whether a Bay holds no tile and is behind an open wrapper. -/
def bayIdle (s : State) (b : Nat) : Bool :=
  let x := s.bay b
  x.tile == 0 && x.nextTile == 0 && x.inbox.isEmpty && x.wrapper == .open_ && !x.fenced && x.resetAt.isNone && !s.work.tiles.any (fun t => t.2.bay == b)

/-- Bays of a Volume that are free for a command: none of another gang's reservations (14 R400, R406). -/
def freeBays (s : State) (h id : Nat) : List Nat :=
  (availableBays s h).filter (fun b => bayIdle s b && !s.work.cmds.any (fun c => c.1 != id && Tbl.has c.2.gangBays b))

/-! Which tile runs next (14 R400, R402 to R404). -/

/-- A command's image header. -/
def cmdHeader (s : State) (c : Cmd) : Option (BitVec 2048) := (cmdImage s c).map (·.2)
/-- Whether a command's image carries accumulators. -/
def cmdCarry (s : State) (c : Cmd) : Bool := ((cmdHeader s c).map Img.carry).getD false

/-- Tiles of a context that are placed. -/
def ctxTiles (s : State) (key : Nat) : List (Nat × Tile) :=
  s.work.tiles.filter (fun t => ((Tbl.find s.work.cmds t.2.cmd).map (·.ctx)) == some key)

/-- Whether a command has placed a tile. -/
def cmdStarted (c : Cmd) : Bool := c.nextTile != 0 || !c.gangBays.isEmpty

/-- Whether a chain tile's predecessor has completed (14 R404). -/
def chainReady (c : Cmd) (maxBays i : Nat) : Bool := i < maxBays || c.doneTiles.contains (i - maxBays)

/-- The save slot that a tile takes: its chain's, or the lowest free one (14 R403, R404). -/
def slotFor (s : State) (key : Nat) (x : Ctx) (carry : Bool) (i : Nat) : Option Nat :=
  let used := (ctxTiles s key).map (fun t => t.2.slot)
  if carry then (if used.contains (i % x.maxBays) then none else some (i % x.maxBays))
  else (List.range x.maxBays).find? (fun j => !used.contains j)

/-- Whether placement on a Volume is stopped by its pre-emption now (14 R416). -/
def volStopped (s : State) (h : Nat) : Bool :=
  match Tbl.find s.vols.preempts h with
  | some p => decide (p.at_ ≤ s.now) && (p.resume == 0 || decide (s.now < p.resume))
  | none => false

/-- Whether a command may be given a tile: a DISPATCH in placement, its context able to run it, none of its tiles failed (13 R372, R380, 14 R400, R404). -/
def cmdMay (s : State) (id : Nat) (c : Cmd) : Bool :=
  match Tbl.find s.work.ctxs c.ctx with
  | none => false
  | some x =>
    let q := Tbl.find s.work.queues c.queue
    let pt := s.part (ctxPart c.ctx)
    let other := s.work.cmds.any (fun d => d.1 != id && d.2.ctx == c.ctx && d.2.opcode == 1 && cmdStarted d.2 && (cmdCarry s d.2 || cmdCarry s c))
    c.opcode == 1 && c.phase == .running && c.bad.isNone && (x.state == .runnable || (x.state == .faulted && cmdStarted c && x.saveOk))
      && !((q.map (·.destroyAt.isSome)).getD false) && !pt.quiesced && !pt.resetting && !other
      && (match nextIndex c with
        | some i => !cmdCarry s c || chainReady c x.maxBays i
        | none => false)

/-- Whether a context has room for one more placed tile, and a slot for it. -/
def ctxRoom (s : State) (c : Cmd) : Bool :=
  match Tbl.find s.work.ctxs c.ctx, nextIndex c with
  | some x, some i => decide ((ctxTiles s c.ctx).length < x.maxBays) && (slotFor s c.ctx x (cmdCarry s c) i).isSome
  | _, _ => false

/-- The commands that wait for a Bay of a Volume, by context and then in release order. -/
def waitingCmds (s : State) (h : Nat) : List (Nat × Cmd) := s.work.cmds.filter (fun c => c.2.volume == h && cmdMay s c.1 c.2)

/-- The command with the lowest release number. -/
def firstReleased (cs : List (Nat × Cmd)) : Option (Nat × Cmd) :=
  cs.foldl (fun best c => match best with
    | some b => if c.2.relOrder < b.2.relOrder then some c else some b
    | none => some c) none

/-- Tiles that a gang starts together: those that were killed together, or all of them (14 R406). -/
def gangTiles (c : Cmd) : List Nat :=
  let back := c.urgent.foldl NSet.ins c.unplaced
  back ++ (List.range (c.tileCount - c.nextTile)).map (· + c.nextTile)

/-- The command served next on a Volume: one with a replay that goes ahead of every other tile, else the first released of the next context
in turn; a context for which no slot can be had now is passed over (13 R368, 14 R400, 18 R505). -/
def pickCmd (s : State) (h : Nat) : Option (Nat × Cmd) :=
  let fits := fun (c : Cmd) => decide ((gangTiles c).length ≤ ((Tbl.find s.work.ctxs c.ctx).map (·.maxBays)).getD 0)
  let cs := (waitingCmds s h).filter (fun c => canReside s c.2.ctx && (if c.2.gang then fits c.2 else ctxRoom s c.2))
  match firstReleased (cs.filter (fun c => !c.2.urgent.isEmpty)) with
  | some c => some c
  | none =>
    let last := Tbl.find s.work.lastServed h
    let after := cs.filter (fun c => match last with | some k => decide (k < c.2.ctx) | none => true)
    let turn := if after.isEmpty then cs else after
    match turn.foldl (fun (m : Option Nat) c => match m with | some k => some (min k c.2.ctx) | none => some c.2.ctx) none with
    | none => none
    | some k => firstReleased (cs.filter (fun c => c.2.ctx == k))

/-! Choosing a Bay (14 R405). -/

/-- The stack and weight of each object of a command in the direct view. -/
def objWeights (s : State) (c : Cmd) : List (Nat × Nat) :=
  c.objs.filterMap (fun h => (findObj s (ctxPart c.ctx) h).bind (fun o =>
    if o.2.interleaved then none else some (o.2.base / 2 ^ 33 / 16, min 512 (o.2.bytes / 0x200000))))

/-- The stack of the HOME of the leaf that maps the first byte of a save slot (14 R405 step 2). -/
def slotStack (s : State) (key : Nat) (x : Ctx) (slot : Nat) : Option Nat :=
  match walkPages s key x.root 0 [(slotVa x slot, 1)] with
  | .ok _ (e :: _) => if leafRemote e.leaf then none else some (leafHome e.leaf / 16)
  | _ => none

/-- The cost of a Bay. -/
def bayCost (s : State) (ws : List (Nat × Nat)) (b : Nat) : Nat := ws.foldl (fun n w => n + w.2 * bayHops s b w.1) 0

/-- The Bay chosen among free ones: the chain's last Bay, then the lowest cost, then fewer hops to the Spine node, then the lower number. -/
def chooseBay (s : State) (c : Cmd) (x : Ctx) (carry : Bool) (i slot : Nat) (free : List Nat) : Option Nat :=
  let chain := carry && decide (x.maxBays ≤ i)
  let prev := if chain then (Tbl.find c.ranOn (i - x.maxBays)).filter (fun b => free.contains b) else none
  match prev with
  | some b => some b
  | none =>
    let ws := objWeights s c ++ (if chain then (match slotStack s c.ctx x slot with | some k => [(k, 1)] | none => []) else [])
    free.foldl (fun (best : Option Nat) b => match best with
      | none => some b
      | some a =>
        let ca := bayCost s ws a
        let cb := bayCost s ws b
        if cb < ca || (cb == ca && baySpineHops s b < baySpineHops s a) then some b else some a) none

/-! Placing (14 R403 to R407). -/

/-- A tile placed on a Bay, and RUN sent to its runtime, which must answer within 100 µs (14 R407, 18 R504). -/
def sendRun (s : State) (id : Nat) (c : Cmd) (x : Ctx) (epoch i slot b startAt : Nat) : State :=
  let carry := cmdCarry s c
  let t : Tile := { cmd := id, index := i, bay := b, slot, epoch, restore := carry && decide (x.maxBays ≤ i), startAt
                    answerBy := some (s.now + 100 * us), suspect := Tbl.has c.suspects i, hang := Tbl.find c.suspects i }
  let n := s.work.nextTile
  let s := s.modWork (fun w => { w with tiles := Tbl.put w.tiles n t, nextTile := n + 1, lastServed := Tbl.put w.lastServed c.volume c.ctx })
  let s := modCmd s id (fun c => { c with nextTile := max c.nextTile (i + 1), urgent := NSet.rem c.urgent i, unplaced := NSet.rem c.unplaced i })
  let s := if t.suspect then s.modSeq (fun q => { q with suspectReplays := min 65535 (q.suspectReplays + 1) }) else s
  s.modBay b (fun y => { y with nextTile := n, inbox := y.inbox ++ [(0, n)] })

/-- One more Bay reserved for a gang (14 R406). -/
def reserveBay (s : State) (id : Nat) (c : Cmd) (b : Nat) : State :=
  (modCmd s id (fun c => { c with gangBays := Tbl.put c.gangBays b s.now })).modWork (fun w => { w with lastServed := Tbl.put w.lastServed c.volume c.ctx })

/-- A gang that holds the Bays it needs, and whose context has room for its tiles: RUN goes to each Bay with one START_AT, and the
reservations are charged to its job (14 R406, R417). -/
def launchGang (s : State) (id : Nat) (c : Cmd) (x : Ctx) (epoch : Nat) : State :=
  let ts := gangTiles c
  if c.gangBays.length < ts.length || (ctxTiles s c.ctx).length + ts.length > x.maxBays then s
  else
    let at_ := s.now + 10 * us
    let s := charge s c.job c.ctx { bayNs := c.gangBays.foldl (fun n g => n + (s.now - g.2)) 0 }
    let s := (ts.zip (c.gangBays.map (·.1))).foldl (fun s q =>
      match Tbl.find s.work.cmds id with
      | some c => match slotFor s c.ctx x (cmdCarry s c) q.1 with
        | some j => sendRun s id c x epoch q.1 j q.2 at_
        | none => s
      | none => s) s
    modCmd s id (fun c => { c with gangBays := [], gangStart := some at_ })

/-- The Bays that a tile may go to: a suspect's replay keeps off the Bay that hung while another is available (18 R505). -/
def suspectBays (s : State) (c : Cmd) (i : Nat) (free : List Nat) : List Nat :=
  match Tbl.find c.suspects i with
  | some g => if (availableBays s c.volume).any (fun b => b != g.bay) then free.filter (fun b => b != g.bay) else free
  | none => free

/-- The next tile of a Volume placed on the Bay that placement chooses (14 R400, R405). -/
def placeNext (s : State) (h : Nat) : State :=
  match pickCmd s h, volumeHere s h with
  | some (id, c), some (_, epoch) =>
    match readyCtx s c.ctx with
    | (s, false) => s
    | (s, true) => match Tbl.find s.work.ctxs c.ctx, nextIndex c with
      | some x, some i =>
        let carry := cmdCarry s c
        if c.gang then
          let s := if c.gangBays.length ≥ (gangTiles c).length then s
            else match chooseBay s c x carry i 0 ((freeBays s h id).filter (fun b => !Tbl.has c.gangBays b)) with
              | some b => reserveBay s id c b
              | none => s
          match Tbl.find s.work.cmds id with
          | some c => launchGang s id c x epoch
          | none => s
        else match slotFor s c.ctx x carry i with
          | none => s
          | some slot => match chooseBay s c x carry i slot (suspectBays s c i (freeBays s h id)) with
            | some b => sendRun s id c x epoch i slot b 0
            | none => s
      | _, _ => s
  | _, _ => s

/-- TILE_PLACE: a Bay of a Volume is free, and the next tile is placed (14 R400, R405). -/
def execTilePlace (handle : Word) (bay : BayNo) (s : State) : Out :=
  let h := handle.toNat
  if !(availableBays s h).contains bay.val || !bayIdle s bay || volStopped s h then .next s else .next (placeNext s h)

end Sys2Proof.Machine
end

