-- ==== Sys2Proof/Machine/Tiles.lean ====
section
/-! DEFINITION. Tiles between the Registrar and the Bay runtime: RUN, PREEMPT, KILL, TILE_DONE, hangs and their replays, parked tiles, time slices, and the pre-emption of a whole Volume (14_scheduling.md R400 to R416, 18_reset_recovery.md R504 to R506). -/

namespace Sys2Proof.Machine

/-! Messages to a Bay runtime (14 R407). -/

/-- A message sent to a tile's Bay, which must be answered within 100 µs (14 R407, 18 R504). -/
def sendTile (s : State) (id op : Nat) : State :=
  match Tbl.find s.work.tiles id with
  | none => s
  | some t => (modTile s id (fun t => { t with answerBy := some (s.now + 100 * us) })).modBay t.bay (fun x => { x with inbox := x.inbox ++ [(op, id)] })

/-- PREEMPT sent to a tile; a gang's tile and a suspect's replay are not pre-empted (14 R406, 18 R505). -/
def sendPreempt (s : State) (id : Nat) : State :=
  match tileCmd s id with
  | none => s
  | some (t, c) => if c.gang || t.suspect || t.killed || t.preemptAt.isSome then s else sendTile s id 1

/-- The oldest message of an operation in a Bay's inbox: its tile. -/
def inboxTile (x : Bay) (op : Nat) : Option Nat := (x.inbox.find? (fun m => m.1 == op)).map (·.2)

/-- A message taken from a Bay's inbox, with what it undoes: a RUN that a PREEMPT or KILL finds waiting. -/
def dropMsg (x : Bay) (op id : Nat) : Bay := { x with inbox := x.inbox.filter (fun m => !(m.2 == id && (m.1 == op || m.1 == 0))) }

/-! RUN (05 R146, 14 R408). -/

/-- The steps that a Bay's tile can take now. -/
def pushTile (s : State) (b : Nat) : State := settleTile (settleCompute (advanceTile s b) b) b (s.bay b).tile

/-- RUN received: the watchdog is armed and steps 1 to 3 begin (05 R146, 14 R408). -/
def receiveRun (s : State) (b id : Nat) : State :=
  let s := modTile s id (fun t => { t with runAt := s.now, deadline := some (s.now + ms), answerBy := none })
  s.modBay b (fun x => { x with tile := id, nextTile := 0, parityRows := [] })

/-- TILE_RUN: the RUN at the head of the Bay's inbox is received; the tile's steps go on where it waits; with no RUN there, the Bay's
tile is taken as far as it can go (05 R146, 14 R407, R408). -/
def execTileRun (bay : BayNo) (s : State) : Out :=
  let x := s.bay bay
  match x.inbox with
  | (0, id) :: rest =>
    if x.wrapper != .open_ then
      .next { s.modBay bay (fun x => { x with inbox := rest }) with reports := s.reports ++ [{ bay := 32, core := 15, status := Status.isolated.code }] }
    else if !Tbl.has s.work.tiles id then .next (s.modBay bay (fun x => { x with inbox := rest }))
    else if x.tile != 0 && x.tile != id then .next s
    else
      let s := if x.tile == id then s else receiveRun s bay id
      match enterTile s bay id with
      | .wait s => .next s
      | .fail s => .next (s.modBay bay (fun x => { x with inbox := x.inbox.filter (fun m => m != (0, id)) }))
      | .ok s _ => .next (pushTile (s.modBay bay (fun x => { x with inbox := x.inbox.filter (fun m => m != (0, id)) })) bay)
  | _ => .next (pushTile s bay)

/-! PREEMPT and KILL (14 R409, R410, R412). -/

/-- A mover port leaves the waiter set of the record it is held on (14 R412). -/
def leaveRecord (s : State) (b p : Nat) : State :=
  s.modWork (fun w => { w with faultRecs := (Tbl.mapV w.faultRecs (fun _ r => { r with waiters := NSet.rem r.waiters (192 + b + 1024 * p) })).filter (fun r => !r.2.waiters.isEmpty) })

/-- A tile in steps 1 to 4 abandoned: banks to NONE but RT_BANK, its ports flushed, its fabric loads parked (14 R409). -/
def abandonTile (s : State) (b id : Nat) : State :=
  let rt := match tileCmd s id with
    | some (_, c) => ((cmdHeader s c).map Img.rtBank).getD 0
    | none => 0
  let s := (tilePorts s b id).foldl (fun s p => leaveRecord s b p) s
  let s := if (s.bay b).tile == id then s.modBay b (fun x => holdBanks x [rt]) else s
  leaveBay (parkTags s b id) id { tile := id, status := 0, parked := false, abandoned := true, saved := false, tags := (tileTags s b id).length, bayNs := 0 }

/-- TILE_PREEMPT: PREEMPT reaches the Bay runtime; what it does depends on the step the tile has reached (14 R409, R412). -/
def execTilePreempt (bay : BayNo) (s : State) : Out :=
  match inboxTile (s.bay bay) 1 with
  | none => .next s
  | some id =>
    let s := s.modBay bay (fun x => { x with inbox := x.inbox.filter (fun m => m != (1, id)) })
    match Tbl.find s.work.tiles id with
    | none => .next s
    | some t =>
      let s := modTile s id (fun t => { t with answerBy := none })
      if t.bay != bay.val || t.killed || t.preemptAt.isSome || t.status.isSome || s.work.done.any (fun d => d.tile == id) then .next s
      else if t.step ≤ 4 then .next (abandonTile (s.modBay bay (fun x => dropMsg x 0 id)) bay id)
      else .next (settleTile (modTile s id (fun t => { t with preemptAt := some s.now })) bay id)

/-- A tile killed: it returns unplaced, and its Bay is reset (14 R410, 03 R78). -/
def killTile (s : State) (id : Nat) : State :=
  match Tbl.find s.work.tiles id with
  | none => s
  | some t => if s.work.done.any (fun d => d.tile == id) || (s.bay t.bay).resetAt.isSome then s
    else beginBayReset (endTile (modTile s id (fun t => { t with killed := true })) id Status.aborted.code (fun t => t) true) t.bay

/-- Every tile of a gang killed, to be placed again together (14 R406). -/
def killGang (s : State) (cmd : Nat) : State :=
  (s.work.tiles.filter (fun t => t.2.cmd == cmd)).foldl (fun s t => killTile s t.1) s

/-- TILE_KILL: KILL reaches the Bay runtime; the Bay is reset and the tile returns unplaced, with every tile of its gang (14 R406, R410). -/
def execTileKill (bay : BayNo) (s : State) : Out :=
  match inboxTile (s.bay bay) 2 with
  | none => .next s
  | some id =>
    let s := s.modBay bay (fun x => dropMsg x 2 id)
    match tileCmd s id with
    | none => .next s
    | some (t, c) => if t.bay != bay.val then .next s else .next (if c.gang then killGang (killTile s id) t.cmd else killTile s id)

/-- PREEMPT_GRACE_EXPIRE: the compute phase has not ended PREEMPT_GRACE after PREEMPT arrived, and KILL is sent (14 R410). -/
def execPreemptGraceExpire (bay : BayNo) (s : State) : Out :=
  let id := (s.bay bay).tile
  match tileCmd s id with
  | none => .next s
  | some (t, c) => match t.preemptAt with
    | none => .next s
    | some p =>
      if t.killed || t.step ≥ 7 || t.status.isSome then .next s
      else
        let s := reach s (p + (s.part (ctxPart c.ctx)).grace * us)
        .next (sendTile (modTile s id (fun t => { t with killed := true })) id 2)

/-! Hangs (14 R408, 18 R504 to R506). -/

/-- What a HANG record will say of a tile at a watchdog decision (18 R517). -/
def hangOf (s : State) (b : Nat) (t : Tile) (n : Nat) : Hang :=
  let x := s.bay b
  let busy := (List.range 4).foldl (fun m i => if (x.mx i).fifo.isEmpty then m else m + 2 ^ i) 0
  match t.hang with
  | some g => { g with bay := b, step := t.step, busy, second := s.now, pcs := [5, 0, 1, 2, 3].map (fun c => (x.core c).pc.toNat) }
  | none => { bay := b, step := t.step, busy, suspects := n, first := s.now }

/-- One tile of a hung Bay ended: to be replayed alone, or with HUNG where it was a replay already (18 R505). -/
def hangTile (s : State) (b id n : Nat) : State :=
  match tileCmd s id with
  | none => s
  | some (t, c) =>
    let s := s.modSeq (fun q => { q with hangs := (q.hangs.filter (fun h => decide (s.now < h.2.2 + 1000 * ms))) ++ [(b, c.ctx, s.now)] })
    let s := endTile s id Status.hung.code (fun u => { u with hang := some (hangOf s b t n) }) false (!t.suspect)
    if c.gang && !t.suspect then killGang s t.cmd else s

/-- Hang handling on a Bay: every tile on it is a suspect and ends, and the Bay is reset, and fenced where it hung on tiles of two
contexts within 1 s (18 R505, R506). -/
def hangBay (s : State) (b : Nat) : State :=
  if (s.bay b).resetAt.isSome then s else
  let ts := (s.work.tiles.filter (fun t => t.2.bay == b && !s.work.done.any (fun d => d.tile == t.1))).map (·.1)
  let s := ts.foldl (fun s id => hangTile s b id ts.length) s
  let s := beginBayReset s b
  let mine := s.seq.hangs.filter (fun h => h.1 == b)
  if mine.any (fun h => mine.any (fun g => g.2.1 != h.2.1)) then fenceBay s b else s

/-- TILE_WATCHDOG: the deadline passes and hang handling begins, unless the Bay's reset runs already (14 R408, 18 R505, R521). -/
def execTileWatchdog (bay : BayNo) (s : State) : Out :=
  match Tbl.find s.work.tiles (s.bay bay).tile with
  | none => .next s
  | some t => match t.deadline with
    | some d => if t.heldSince.isSome || t.status.isSome || (s.bay bay).resetAt.isSome then .next s else .next (hangBay (reach s (d + 1)) bay)
    | none => .next s

/-- RUNTIME_RESPONSE_TIMEOUT: the Bay runtime has not answered within 100 µs; the Bay is reset and hang handling begins (18 R504). -/
def execRuntimeResponseTimeout (bay : BayNo) (s : State) : Out :=
  match (s.work.tiles.filter (fun t => t.2.bay == bay.val)).findSome? (fun t => t.2.answerBy) with
  | some d => .next (hangBay (reach s (d + 1)) bay)
  | none => .next s

/-! Parked tiles (14 R413). -/

/-- A tile to be replayed from its checkpoint, ahead of the Volume's other tiles: the Replayed event's record, ERROR and count (03 R63, R92,
14 R417, 18 R514). -/
def replayCmd (s : State) (t : Tile) (status : Nat) : State :=
  match Tbl.find s.work.cmds t.cmd with
  | none => s
  | some c =>
    let s := if status == Status.hung.code then s
      else charge (tileRecord (if status == Status.parityUnrecovered.code then s else tileError s c t 1 1) c t status 1).1 c.job c.ctx { replays := 1 }
    modCmd s t.cmd (fun c => { c with
      urgent := NSet.ins c.urgent t.index
      replays := Tbl.put c.replays t.index (Tbl.getD c.replays t.index 0 + 1)
      retryOf := Tbl.put c.retryOf t.index status
      suspects := match t.hang with | some g => Tbl.put c.suspects t.index g | none => c.suspects })

/-- A replayed tile's status that brings no second replay: TIMEOUT and STALE_EPOCH replay a tile once (03 R92, 10 R289). -/
def onceOnly (status : Nat) : Bool := status == Status.timeout.code || status == Status.staleEpoch.code

/-- A tile whose replay is asked for: replayed, or completed where it has been replayed for that status already or no Bay is left (03 R92,
18 R506). -/
def replayOrFinish (s : State) (t : Tile) (status : Nat) : State :=
  match Tbl.find s.work.cmds t.cmd with
  | none => s
  | some c =>
    if onceOnly status && Tbl.find c.retryOf t.index == some status then finishTile s t status
    else if (availableBays s c.volume).isEmpty then finishTile s t Status.isolated.code
    else replayCmd s t status

/-- A parked tile whose tags are all done, once its TILE_DONE has arrived: it completes, or is replayed once after a TIMEOUT (14 R413). -/
def settleParked (s : State) (id : Nat) : State :=
  match Tbl.find s.work.parked id with
  | none => s
  | some p =>
    if !p.open_.isEmpty || Tbl.has s.work.tiles id then s
    else
      let cmd := p.tile.cmd
      let dying := ((Tbl.find s.work.cmds cmd).map (cmdDying s)).getD true
      let s := s.modWork (fun w => { w with parked := Tbl.del w.parked id })
      let s := if p.tile.step ≤ 4 || dying then s
        else if p.lost then replayOrFinish s p.tile Status.aborted.code
        else if p.status == Status.timeout.code then replayOrFinish s p.tile p.status
        else finishTile s p.tile p.status
      let s := match (Tbl.find s.work.cmds cmd).map (·.ctx) with | some key => settleTray s key | none => s
      settleCmd s cmd

/-- Every parked tile settled. -/
def settleParkedAll (s : State) : State := s.work.parked.foldl (fun s p => settleParked s p.1) s

/-! The pre-emption of a whole Volume (14 R416). -/

/-- Tiles of a Volume on this part. -/
def volTiles (s : State) (h : Nat) : List Nat :=
  (s.work.tiles.filter (fun t => ((Tbl.find s.work.cmds t.2.cmd).map (·.volume)) == some h)).map (·.1)

/-- The devices next to this one in the tree of R283 over a Volume's current map. -/
def volNeighbours (s : State) (h : Nat) : List Nat :=
  match (Tbl.find s.vols.vols h).bind (·.cur) with
  | none => []
  | some m =>
    let t := treeOf (some m) none m.coord
    (treeParent t s.fab.deviceId).toList ++ treeChildren t s.fab.deviceId

/-- The issuer's account of a member that has reported; with the last one VOL_PREEMPT completes. -/
def preemptReported (s : State) (h device : Nat) : State :=
  match Tbl.find s.vols.preempts h with
  | none => s
  | some p =>
    let p := { p with waits := NSet.rem p.waits device }
    match p.cmd with
    | some i =>
      if p.waits.isEmpty then mbFinish (modVols s (fun v => { v with preempts := Tbl.put v.preempts h { p with cmd := none } })) 0 i 0 0
      else modVols s (fun v => { v with preempts := Tbl.put v.preempts h p })
    | none => modVols s (fun v => { v with preempts := Tbl.put v.preempts h p })

/-- A member's report passed on towards the issuer. -/
def sendReport (s : State) (h device : Nat) : State :=
  match Tbl.find s.vols.preempts h with
  | none => s
  | some p =>
    if p.source == s.fab.deviceId then preemptReported s h device
    else (sendMgmt s p.source 3 (bytesLE 4 h ++ bytesLE 4 (device % 2 ^ 14))).1

/-- This part's own report, once the Volume's Bays on it are free. -/
def settlePreempt (s : State) (h : Nat) : State :=
  match Tbl.find s.vols.preempts h with
  | none => s
  | some p =>
    if !p.begun || p.reported || !(volTiles s h).isEmpty then s
    else sendReport (modVols s (fun v => { v with preempts := Tbl.put v.preempts h { p with reported := true } })) h s.fab.deviceId

/-- Every pre-emption settled. -/
def settlePreempts (s : State) : State := s.vols.preempts.foldl (fun s p => settlePreempt s p.1) s

/-- PREEMPT_AT has come: the Volume's running tiles are pre-empted (14 R416). -/
def beginPreempt (s : State) (h : Nat) : State :=
  match Tbl.find s.vols.preempts h with
  | none => s
  | some p =>
    if p.begun then s
    else
      let s := modVols s (fun v => { v with preempts := Tbl.put v.preempts h { p with begun := true } })
      settlePreempt ((volTiles s h).foldl sendPreempt s) h

/-- A relay's effect here, and on to the neighbours but the one it came from (14 R416). -/
def takePreempt (s : State) (h at_ resume source : Nat) (cmd : Option Nat) : State :=
  let members : List Nat := match (Tbl.find s.vols.vols h).bind (·.cur) with | some m => m.members.map (·.device) | none => []
  let body := bytesLE 8 h ++ bytesLE 8 at_ ++ bytesLE 8 resume
  let s := (volNeighbours s h).foldl (fun s d => if d == source then s else (sendMgmt s d 2 body).1) s
  if resume == 2 ^ 64 - 1 then modVols s (fun v => { v with preempts := Tbl.del v.preempts h })
  else
    let p : Preempt := { at_, resume, source, cmd, waits := if cmd.isSome then members.foldl NSet.ins [] else [] }
    let s := modVols s (fun v => { v with preempts := Tbl.put v.preempts h p })
    if at_ ≤ s.now then beginPreempt s h else s

/-- PREEMPT_AT (14 R416). -/
def execPreemptAt (handle : Word) (s : State) : Out :=
  match Tbl.find s.vols.preempts handle.toNat with
  | some p => if p.begun then .next s else .next (beginPreempt (reach s p.at_) handle.toNat)
  | none => .next s

/-- RESUME_AT: placement resumes (14 R416). -/
def execResumeAt (handle : Word) (s : State) : Out :=
  match Tbl.find s.vols.preempts handle.toNat with
  | some p =>
    if p.resume == 0 then .next s
    else
      let s := reach s p.resume
      .next (if p.cmd.isSome then s else modVols s (fun v => { v with preempts := Tbl.del v.preempts handle.toNat }))
  | none => .next s

/-- VOL_PREEMPT_RELAY: a relay, or the relay of a VOL_RESUME, reaches a member (14 R416, 15 R439). -/
def execVolPreemptRelay (s : State) : Out :=
  match takeMgmt s (fun p => Mg.mtype p == 2) with
  | none => .next s
  | some (_, p, s) =>
    let h := Mg.f p 0x10 0 32
    if Tbl.has s.vols.vols h then .next (takePreempt s h (Mg.f p 0x18 0 64) (Mg.f p 0x20 0 64) (Pk.src p.hdr) none) else .next s

/-- VOL_PREEMPT_REPORT: a member's report reaches the issuing part, or a part on the way to it (14 R416). -/
def execVolPreemptReport (s : State) : Out :=
  match takeMgmt s (fun p => Mg.mtype p == 3) with
  | none => .next s
  | some (_, p, s) => .next (sendReport s (Mg.f p 0x10 0 32) (Mg.f p 0x14 0 14))

/-- VOL_PREEMPT_TIMEOUT: a member has not reported by PREEMPT_AT + PREEMPT_GRACE + 500 µs (14 R416); the grace is the longest of the
partitions that the Volume draws on. -/
def execVolPreemptTimeout (handle : Word) (s : State) : Out :=
  let h := handle.toNat
  match Tbl.find s.vols.preempts h with
  | some p => match p.cmd with
    | some i =>
      let ps := match volumeHere s h with | some (e, _) => maskList e.parts 8 | none => []
      let grace := ps.foldl (fun n q => max n (s.part q).grace) 0
      let s := reach s (p.at_ + grace * us + 500 * us + 1)
      .next (mbFinish (modVols s (fun v => { v with preempts := Tbl.put v.preempts h { p with cmd := none } })) 0 i Status.timeout.code 0)
    | none => .next s
  | none => .next s

/-- VOL_PREEMPT (14 R416). -/
def execVolPreempt (slot : MbSlot) (s : State) : Out :=
  .next (mbCommand s slot 0x54 (fun _ => true)
    (fun s c => { fields := [(0x10, 0, 32), (0x18, 0, 64), (0x20, 0, 64)], range := c.f 0x20 0 64 != 2 ^ 64 - 1
                  permitted := slot.fn.val == 0, handles := ((Tbl.find s.vols.vols (c.f 0x10 0 32)).bind (·.cur)).isSome })
    (fun s c => .going (takePreempt s (c.f 0x10 0 32) (c.f 0x18 0 64) (c.f 0x20 0 64) s.fab.deviceId (some c.index)) 0))

/-- VOL_RESUME: relayed with a RESUME_AT of all ones (14 R416, 15 R439). -/
def execVolResume (slot : MbSlot) (s : State) : Out :=
  .next (mbCommand s slot 0x55 (fun _ => true)
    (fun s c => { fields := [(0x10, 0, 32)], permitted := slot.fn.val == 0, handles := ((Tbl.find s.vols.vols (c.f 0x10 0 32)).bind (·.cur)).isSome })
    (fun s c => mbOk (takePreempt s (c.f 0x10 0 32) 0 (2 ^ 64 - 1) s.fab.deviceId none)))

/-! Time slices (14 R402). -/

/-- A key for a context's hold on a Volume. -/
def sliceKey (h key : Nat) : Nat := h * 2 ^ 16 + key

/-- Contexts that hold Bays of a Volume, and those that wait for one with a released DISPATCH. -/
def volHolders (s : State) (h : Nat) : NSet :=
  (volTiles s h).foldl (fun acc id => match tileCmd s id with | some (_, c) => NSet.ins acc c.ctx | none => acc) []
def volWaiters (s : State) (h : Nat) : NSet := (waitingCmds s h).foldl (fun acc c => NSet.ins acc c.2.ctx) []

/-- The time that each context has held a Volume's Bays while another waits, brought up to date (14 R402). -/
def markSlices (s : State) (h : Nat) : State :=
  let holders := volHolders s h
  let waiters := volWaiters s h
  let mine := fun (k : Nat) => k / 2 ^ 16 == h
  let s := s.modWork (fun w => { w with
    heldSince := w.heldSince.filter (fun e => !mine e.1 || holders.contains (e.1 % 2 ^ 16))
    heldFor := w.heldFor.filter (fun e => !mine e.1 || holders.contains (e.1 % 2 ^ 16)) })
  holders.foldl (fun s k =>
    let other := waiters.any (· != k)
    let key := sliceKey h k
    match Tbl.find s.work.heldSince key with
    | some t => if other then s else s.modWork (fun w => { w with heldSince := Tbl.del w.heldSince key, heldFor := Tbl.put w.heldFor key (Tbl.getD w.heldFor key 0 + (s.now - t)) })
    | none => if other then s.modWork (fun w => { w with heldSince := Tbl.put w.heldSince key s.now }) else s) s

/-- Every Volume's account of held Bays brought up to date. -/
def markAllSlices (s : State) : State := s.vols.vols.foldl (fun s v => markSlices s v.1) s

/-- TIMESLICE_EXPIRE: a context has held Bays of the Volume longer than TIMESLICE while another waits, and its tiles there are pre-empted;
the waiting context is served next (14 R402). -/
def execTimesliceExpire (handle : Word) (ctx : Fin 32768) (s : State) : Out :=
  let h := handle.toNat
  let key := sliceKey h ctx
  let s := markSlices s h
  match Tbl.find s.work.heldSince key with
  | none => .next s
  | some t =>
    let s := reach s (t + (s.part (ctxPart ctx)).timeslice * ms - Tbl.getD s.work.heldFor key 0 + 1)
    let mine := (volTiles s h).filter (fun id => match tileCmd s id with | some (_, c) => c.ctx == ctx.val | none => false)
    .next (mine.foldl sendPreempt (s.modWork (fun w => { w with lastServed := Tbl.put w.lastServed h ctx.val })))

/-! TILE_DONE (14 R407, R409, R410, R413). -/

/-- What the Registrar does with a tile whose TILE_DONE has arrived. -/
def tileOutcome (s : State) (d : DoneMsg) (t : Tile) : State :=
  match Tbl.find s.work.cmds t.cmd with
  | none => s
  | some c =>
    let s := charge s c.job c.ctx { tiles := bit (!d.abandoned), bayNs := d.bayNs
                                    preempts := bit ((t.preemptAt.isSome && !d.abandoned) || (t.killed && !c.gang)), replays := bit (t.killed && !cmdDying s c) }
    if cmdDying s c then s
    else if d.replay then replayOrFinish s t d.status
    else if d.abandoned then modCmd s t.cmd (fun c => { c with unplaced := NSet.ins c.unplaced t.index })
    else if d.parked then s
    else finishTile s t d.status

/-- TILE_DONE: the oldest message reaches the Registrar (14 R407). -/
def execTileDone (s : State) : Out :=
  match s.work.done with
  | [] => .next s
  | d :: rest =>
    let s := s.modWork (fun w => { w with done := rest })
    match Tbl.find s.work.tiles d.tile with
    | none => .next s
    | some t =>
      let vol := ((Tbl.find s.work.cmds t.cmd).map (·.volume)).getD 0
      let s := s.modWork (fun w => { w with tiles := Tbl.del w.tiles d.tile, parked := Tbl.upd w.parked d.tile (fun p => { p with tile := t }) })
      let s := settleCmd (settleParked (tileOutcome s d t) d.tile) t.cmd
      let s := if (s.bay t.bay).test.redirected.isEmpty then s else fenceBay s t.bay
      .next (markSlices (settlePreempts (settleInvals (trySendDrain s vol))) vol)

/-- DESTROY_TILE_KILL: 1 ms after the destruction of its context or queue was accepted a tile still runs, and is killed by reset of its Bay
(13 R395, R396). -/
def execDestroyTileKill (bay : BayNo) (s : State) : Out :=
  let ids := (s.work.tiles.filter (fun t => t.2.bay == bay.val)).map (·.1)
  .next (ids.foldl (fun s id => match tileCmd s id with
    | none => s
    | some (_, c) =>
      let t := ((Tbl.find s.work.ctxs c.ctx).bind (·.destroyAt)).orElse (fun _ => (Tbl.find s.work.queues c.queue).bind (·.destroyAt))
      match t with
      | some t => killTile (reach s (t + ms)) id
      | none => s) s)

end Sys2Proof.Machine
end

