-- ==== Sys2Proof/Machine/Commands.lean ====
section
/-! DEFINITION. Queue commands: residency, acceptance, release, and what each opcode does (13_work_objects.md R368, R376 to R387, 14_scheduling.md R404, R420). -/

namespace Sys2Proof.Machine

/-! Resident queues and acceptance (13 R368, R376, R385). -/

/-- Resident queue slots of a partition (01 R17, 13 R368). -/
def queueSlots (s : State) : Nat := 256 / s.nparts

/-- Whether a queue has commands that have not been read. -/
def Queue.unread (q : Queue) : Bool := q.wr != q.rd

/-- Whether a queue or its context is being destroyed (13 R395, R396). -/
def queueDying (s : State) (q : Queue) : Bool :=
  q.destroyAt.isSome || ((Tbl.find s.work.ctxs q.ctx).map (·.state)) == some .destroying

/-- The resident queue that gives its slot up: one without unread commands, idle longest; else, once it has held its slot for 100 µs,
the one that has held it longest (13 R368). -/
def queueVictim (s : State) (p : Nat) : Option Nat :=
  let rs := s.work.queues.filter (fun q => s.partOfQueue q.1 == p && q.2.resident.isSome)
  let least := fun (t : Tbl Queue) (f : Queue → Nat) =>
    (t.foldl (fun (m : Option (Nat × Queue)) q => match m with | some b => if f q.2 < f b.2 then some q else some b | none => some q) none)
  match least (rs.filter (fun q => !q.2.unread)) (·.idleSince) with
  | some q => some q.1
  | none => match least rs (fun q => q.resident.getD 0) with
    | some q => if s.now ≥ q.2.resident.getD 0 + 100 * us then some q.1 else none
    | none => none

/-- QUEUE_SWAP_IN (13 R368). -/
def execQueueSwapIn (queue : BitVec 16) (s : State) : Out :=
  let q := queue.toNat
  match Tbl.find s.work.queues q with
  | none => .next s
  | some x =>
    let p := s.partOfQueue q
    if s.seq.fwState != 1 || x.resident.isSome || !x.unread || queueDying s x then .next s
    else
      let used := (s.work.queues.filter (fun e => s.partOfQueue e.1 == p && e.2.resident.isSome)).length
      let take := fun (s : State) => modQueue s q (fun x => { x with resident := some s.now })
      if used < queueSlots s then .next (take s)
      else match queueVictim s p with
        | some v => .next (take (modQueue s v (fun x => { x with resident := none })))
        | none => .next s

/-- Whether every set bit of a number lies in the given fields: byte offset, bit, width. -/
def withinFields (v : BitVec 2048) (fields : List (Nat × Nat × Nat)) : Bool := let m := fieldMask fields; v.toNat ||| m == m

/-- The header's named fields (13 R377). -/
def headerFields : List (Nat × Nat × Nat) := [(0, 0, 11), (0, 16, 16), (4, 0, 32), (8, 0, 64), (0x10, 0, 64), (0x18, 0, 64), (0x20, 0, 128)]

/-- The collective descriptor and the Shelver command that a command carries (13 R379). -/
def Cmd.tail (c : Cmd) : BitVec 1024 := BitVec.ofNat 1024 (c.word.toNat >>> (8 * 0x80))

/-- Members of a Volume's current map, in rank order (11 R327). -/
def volMembers (s : State) (h : Nat) : Option VolMap := (Tbl.find s.vols.vols h).bind (·.cur)

/-- Check 1: the opcode, the reserved bits and the ranges (13 R379, R384, R385). -/
def cmdShapeOk (s : State) (c : Cmd) : Bool :=
  let body : List (Nat × Nat × Nat) := match c.opcode with
    | 1 => [(0x30, 0, 96), (0x3C, 0, 1), (0x40, 0, 1536)]
    | 2 => [(0x30, 0, 3), (0x80, 0, 1024)]
    | 3 => [(0x80, 0, 1024)]
    | 4 => [(0x30, 0, 32), (0x34, 0, 3), (0x34, 16, 16), (0x38, 0, 64)]
    | _ => []
  decide (1 ≤ c.opcode) && decide (c.opcode ≤ 5) && withinFields c.word (headerFields ++ body)
    && (match c.opcode with
      | 2 => let n := fld c.word 0x30 0 3; decide (n ≤ 3) || n == 7
      | 3 => Ce.ok c.tail (match volMembers s (Ce.volume c.tail) with | some m => m.members.map (·.device) | none => [Ce.root c.tail])
      | 4 => decide (fld c.word 0x34 0 3 ≤ 5) && fld c.word 0x34 16 16 != 0
      | _ => true)

/-- Check 2: every handle names a live object, and the context holds every memory object (13 R385, R391). -/
def cmdHandlesOk (s : State) (c : Cmd) : Bool :=
  let p := ctxPart c.ctx
  c.refs.all (fun h => match findObj s p h with | some (_, o) => o.holds.contains c.ctx | none => false)
    && c.fences.all (fun h => (findFence s p h).isSome)

/-- The Volume that a command names. -/
def cmdVolume (c : Cmd) : Option Nat := match c.opcode with
  | 1 | 4 => some c.volume
  | 3 => some (Ce.volume c.tail)
  | _ => none

/-- The first check of R385 that fails. -/
def cmdCheck (s : State) (c : Cmd) : Option Status :=
  if !cmdShapeOk s c then some .aborted
  else if !cmdHandlesOk s c then some .staleHandle
  else if c.opcode == 1 && (cmdImage s c).isNone then some .aborted
  else match cmdVolume c with
    | some h => if tenantHolds s (ctxPart c.ctx) h then none else some .permission
    | none => none

/-- The job a command belongs to: the open one of its context and call number that no JOB_END has closed, or a new one (13 R387). -/
def joinJob (s : State) (ctx call : Nat) : State × Nat :=
  match s.work.jobs.find? (fun j => j.2.ctx == ctx && j.2.call == call && !j.2.closed) with
  | some j => (s, j.1)
  | none =>
    let n := s.work.nextJob
    (s.modWork (fun w => { w with jobs := Tbl.put w.jobs n { ctx, call, start := s.now }, nextJob := n + 1 }), n)

/-- A command accepted from a queue; one that a check refuses completes at once, and signals no fence that its handle does not name
(10 R298, 13 R368, R385, 18 R512). -/
def acceptCmd (s : State) (q : Nat) (x : Queue) (word : BitVec 2048) : State :=
  let p := ctxPart x.ctx
  let (s, job) := joinJob s x.ctx (fld word 0 16 16)
  let c : Cmd := { queue := q, index := x.rd % x.entries, ctx := x.ctx, word, job, seed := ((Tbl.find s.work.ctxs x.ctx).map (·.seed)).getD 0#64 }
  let id := s.work.nextCmd
  let left := (x.rd + 1) % 65536
  let s := modQueue s q (fun x => { x with rd := left, idleSince := if left == x.wr then s.now else x.idleSince })
  let s := s.modWork (fun w => { w with cmds := Tbl.put w.cmds id c, nextCmd := id + 1
                                        jobs := if c.jobEnd then Tbl.upd w.jobs job (fun j => { j with closed := true }) else w.jobs })
  let refused := if s.seq.fnZeroOnly then some Status.isolated
    else if (s.part p).releasing && c.opcode == 1 then some .aborted
    else cmdCheck s c
  match refused with
  | none => s
  | some st =>
    let word := if (findFence s p c.signalFence).isSome then c.word else BitVec.ofNat 2048 (c.word.toNat - c.signalFence <<< (8 * 0xC))
    completeCmd (modCmd s id (fun c => { c with word })) id { status := st.code }

/-- QUEUE_READ: the next command of a resident queue read and accepted (13 R368, R376, R385). -/
def execQueueRead (queue : BitVec 16) (command : BitVec 2048) (s : State) : Out :=
  let q := queue.toNat
  match Tbl.find s.work.queues q with
  | none => .next s
  | some x =>
    let p := s.partOfQueue q
    let flying := (s.work.cmds.filter (fun c => ctxPart c.2.ctx == p)).length
    let pt := s.part p
    if s.seq.fwState != 1 || x.resident.isNone || !x.unread || queueDying s x || pt.resetting || pt.quiesced || flying ≥ 1024 / s.nparts
        || (x.rd + 65536 - x.returned) % 65536 ≥ x.entries then .next s
    else .next (acceptCmd s q x command)

/-! Release (13 R378, R390, 14 R404, R420). -/

/-- Whether the wait fence lets a command go: none for not yet, else whether it is poisoned. -/
def fenceLets (s : State) (c : Cmd) : Option Bool :=
  if c.waitFence == 0 then some false
  else match findFenceRef s (ctxPart c.ctx) c.waitFence with
    | none => some false
    | some (_, f) => if f.poisoned then some true else if c.waitValue ≤ f.value then some false else none

/-- Whether a context lets its commands start (13 R372). -/
def ctxRunnable (s : State) (key : Nat) : Bool := ((Tbl.find s.work.ctxs key).map (·.state)) == some .runnable

/-- COMMAND_RELEASE: released, or completed with POISONED where its wait fence is poisoned (13 R378, R390). -/
def execCommandRelease (cmd : Nat) (s : State) : Out :=
  match Tbl.find s.work.cmds cmd with
  | none => .next s
  | some c =>
    let before := s.work.cmds.filter (fun d => d.1 < cmd && d.2.queue == c.queue)
    let carry := c.opcode == 1 && cmdCarry s c && s.work.cmds.any (fun d => d.1 != cmd && d.2.ctx == c.ctx && d.2.opcode == 1 && cmdStarted d.2)
    if c.phase != .accepted || before.any (fun d => d.2.phase == .accepted) || (c.barrier && !before.isEmpty) || !ctxRunnable s c.ctx
        || (s.part (ctxPart c.ctx)).ledger.held.length ≥ 256 || cmdDying s c || carry then .next s
    else match fenceLets s c with
      | none => .next s
      | some true => .next (completeCmd s cmd { status := Status.poisoned.code })
      | some false => .next ((modCmd s cmd (fun c => { c with phase := .released, relOrder := s.work.nextRel })).modWork (fun w => { w with nextRel := w.nextRel + 1 }))

/-- A released command of an opcode whose context lets it start; during a partition reset, and while it is quiesced, no SHELVE and no COLLECTIVE starts (18 R508, 10 R301). -/
def startable (s : State) (cmd opcode : Nat) : Option Cmd :=
  match Tbl.find s.work.cmds cmd with
  | some c =>
    if c.phase == .released && c.opcode == opcode && ctxRunnable s c.ctx && !cmdDying s c && !((opcode == 2 || opcode == 3) && ((s.part (ctxPart c.ctx)).resetting || (s.part (ctxPart c.ctx)).quiesced))
    then some c else none
  | none => none

/-! What each opcode does (13 R379 to R384). -/

/-- SYNC completes (13 R379). -/
def execSync (cmd : Nat) (s : State) : Out :=
  match startable s cmd 5 with
  | some _ => .next (completeCmd s cmd {})
  | none => .next s

/-- HINT recorded with the power controller (12 R355, 13 R384). -/
def execHint (cmd : Nat) (s : State) : Out :=
  match startable s cmd 4 with
  | some c =>
    let h : PwrHint := { volume := c.volume, cls := fld c.word 0x34 0 3, epochs := fld c.word 0x34 16 16, start := fld c.word 0x38 0 64, cmd, ctx := c.ctx }
    .next (completeCmd (s.modPwr (fun p => { p with hints := p.hints ++ [h] })) cmd {})
  | none => .next s

/-- DISPATCH enters placement; with no tile it completes, and a gang needs as many available Bays as tiles (13 R380, 18 R506). -/
def execDispatch (cmd : Nat) (s : State) : Out :=
  match startable s cmd 1 with
  | none => .next s
  | some c =>
    let n := (availableBays s c.volume).length
    if c.tileCount == 0 then .next (completeCmd s cmd { r1 := 2 ^ 64 - 1 })
    else if n == 0 then .next (completeCmd s cmd { status := Status.isolated.code, r1 := 2 ^ 64 - 1 })
    else if c.gang && c.tileCount > n then .next (completeCmd s cmd { status := Status.resourceExhausted.code, r1 := 2 ^ 64 - 1 })
    else .next (markSlices (modCmd s cmd (fun c => { c with phase := .running })) c.volume)

/-- The Shelver command as the Registrar submits it: CALL, CTX_SLOT and the NOTIFY fields its own, the Registrar's endpoint 1 (13 R381, 03 R85). -/
def shelveWord (c : Cmd) (slot : Nat) : BitVec 1024 :=
  let keep := fieldMask [(0, 9, 1), (0, 32, 16), (0x48, 32, 6), (0x48, 40, 10)]
  let w := c.tail.toNat &&& (2 ^ 1024 - 1 - keep)
  BitVec.ofNat 1024 (w + put 1 9 1 + put c.call 32 16 + put slot (8 * 0x48 + 32) 6 + put registrarRouter (8 * 0x48 + 40) 6 + put 1 (8 * 0x48 + 46) 4)

/-- The Shelver of a stack to which a SHELVE goes: the one named, or the first with a free slot; none while there is none (13 R382). -/
def shelveTarget (s : State) (c : Cmd) (k : Nat) : Option Nat :=
  let p := ctxPart c.ctx
  let n := fld c.word 0x30 0 3
  ((if n == 7 then List.range 4 else [n]).map (4 * k + ·)).find? (fun sh => queueRoom s sh p)

/-- Whether every Shelver that a SHELVE command may go to is fenced (18 R507). -/
def shelveFenced (s : State) (c : Cmd) (k : Nat) : Bool :=
  let n := fld c.word 0x30 0 3
  ((if n == 7 then List.range 4 else [n]).map (4 * k + ·)).all (fun sh => (s.shelver sh).fenced)

/-- A SHELVE command submitted to a Shelver's queue of its partition. -/
def submitShelve (s : State) (cmd : Nat) (c : Cmd) (sh slot : Nat) : State :=
  let p := ctxPart c.ctx
  let (s, i) := submitShelver s sh p (shelveWord c slot)
  modCmd s cmd (fun c => { c with phase := .running, shelver := some (sh, p, i) })

/-- Whether a SHELVE command of a partition is held for a stack. -/
def shelveHeld (s : State) (p k : Nat) : Bool := s.work.cmds.any (fun d => d.2.phase == .held && ctxPart d.2.ctx == p && d.2.heldStack == k)

/-- The byte that places a SHELVE, with its access: the first of SRC, or of DST for FILL; with nothing to move that of PUB_ADDR, if any
(13 R381, 07 R193; assumption 75). -/
def shelveByte (w : BitVec 1024) : Option (Nat × Nat) :=
  if ShCmd.empty w then (if ShCmd.pubOp w == 0 then none else some (ShCmd.pubAddr w, if ShCmd.pubOp w == 2 then 3 else 1))
  else if ShCmd.opcode w == 2 then some (ShCmd.dst w, 1) else some (ShCmd.src w, 0)

/-- SHELVE: the stack found by the byte that places it; submitted, or held in order of release (13 R381, R382). -/
def execShelve (cmd : Nat) (s : State) : Out :=
  match startable s cmd 2 with
  | none => .next s
  | some c =>
    let w := c.tail
    let go := fun (s : State) (k slot : Nat) =>
      if shelveFenced s c k then completeCmd s cmd { status := Status.isolated.code }
      else if shelveHeld s (ctxPart c.ctx) k then modCmd s cmd (fun c => { c with phase := .held, heldStack := k })
      else match shelveTarget s c k with
        | some sh => submitShelve s cmd c sh slot
        | none => modCmd s cmd (fun c => { c with phase := .held, heldStack := k })
    match makeResident s c.ctx with
    | (s, false) => .next s
    | (s, true) =>
      match Tbl.find s.work.ctxs c.ctx with
      | none => .next s
      | some x =>
        let slot := x.slot.getD 0
        match shelveByte w with
        | none => .next (go s 0 slot)
        | some (va, acc) =>
        if ShCmd.phys w then .next (go s (stackOfPa va % 8) slot)
        else match walkPages s c.ctx x.root acc [(va, 1)] with
          | .wait s => .next s
          | .fail s cause level va =>
            let st := causeStatus cause
            let s := faultForCmd s cmd { kind := 1, status := st, body := translationBody s c.ctx va cause acc level st [] }
            .next (completeCmd s cmd { status := st })
          | .ok s es => match es with
            | e :: _ => .next (go s (if leafRemote e.leaf then 0 else stackOfPa (entryPA e va) % 8) slot)
            | [] => .next s

/-- SHELVE_SUBMIT: a slot has freed; the first held command of the stack, in order of release within its partition, that a queue has room for
is submitted (13 R382). -/
def execShelveSubmit (k : StackNo) (s : State) : Out :=
  let held := s.work.cmds.filter (fun d => d.2.phase == .held && d.2.heldStack == k.val)
  let first := (List.range 8).filterMap (fun p => firstReleased (held.filter (fun d => ctxPart d.2.ctx == p)))
  match first.find? (fun d => (shelveTarget s d.2 k).isSome && ((Tbl.find s.work.ctxs d.2.ctx).bind (·.slot)).isSome) with
  | some (id, c) => match shelveTarget s c k with
    | some sh => .next (submitShelve s id c sh (((Tbl.find s.work.ctxs c.ctx).bind (·.slot)).getD 0))
    | none => .next s
  | none => .next s

/-- The descriptor as the Registrar hands it over: EPOCH, CTX_SLOT and CALL filled in (13 R383). -/
def collWord (c : Cmd) (epoch slot : Nat) : BitVec 1024 :=
  let keep := fieldMask [(0, 32, 16), (8, 32, 16), (0x38, 40, 6)]
  let w := c.tail.toNat &&& (2 ^ 1024 - 1 - keep)
  BitVec.ofNat 1024 (w + put c.call 32 16 + put epoch 96 16 + put slot (8 * 0x38 + 40) 6)

/-- COLLECTIVE: the descriptor handed to the engine of the lowest port that the Volume binds; while that engine holds 16, it waits (11 R325, R331, 13 R383). -/
def execCollective (cmd : Nat) (s : State) : Out :=
  match startable s cmd 3 with
  | none => .next s
  | some c =>
    match volMembers s (Ce.volume c.tail) with
    | none => .next (completeCmd s cmd { status := Status.permission.code })
    | some m =>
      let members := m.members.map (·.device)
      let ports := volumePorts s m
      if !Ce.ok c.tail members || (lowestPort ports).isNone && members.length > 1 then .next (completeCmd s cmd { status := Status.aborted.code })
      else match makeResident s c.ctx with
        | (s, false) => .next s
        | (s, true) =>
          let g := ((lowestPort ports).getD 0) / 6
          let d := collWord c m.epoch (((Tbl.find s.work.ctxs c.ctx).bind (·.slot)).getD 0)
          let e := s.fab.engine g
          if e.open_.length ≥ 16 || Tbl.has e.open_ (Ce.keyOf d) then .next s
          else .next (openColl (modCmd s cmd (fun c => { c with phase := .running })) g { desc := d, cmd, key := c.ctx, members, ports })

end Sys2Proof.Machine
end

