-- ==== Sys2Proof/Machine/Contexts.lean ====
section
/-! DEFINITION. Mailbox commands on contexts, queues, fault records, images and storage, and the Colophon (05_vector_scalar.md R144, 09_translation.md R261, 13_work_objects.md R373, R392 to R399). -/

namespace Sys2Proof.Machine

/-- CTX_RESUME: the save area is checked again, and a context that passes is RUNNABLE (13 R372, R373). -/
def execCtxResume (slot : MbSlot) (s : State) : Out :=
  let p := partOfFn slot
  let go := fun (s : State) (c : MbCmd) => match liveCtx s p (c.f 0x10 0 32) with
    | none => mbFail s .staleHandle 3
    | some (key, x) =>
      if x.state != .faulted then mbFail s .aborted
      else match checkSave (makeResident s key).1 key with
        | (s, none) => .going s 0
        | (s, some 0) => mbOk (markAllSlices (modCtx s key (fun c => { c with state := .runnable, saveOk := c.slot.isSome })))
        | (s, some st) => .done s st 0 []
  .next (mbCommand s slot 0x22 (fun _ => true)
    (fun s c => { fields := [(0x10, 0, 32)], permitted := isPartFn slot, handles := (liveCtx s p (c.f 0x10 0 32)).isSome }) go go)

/-! The driver's answer to a fault record (09 R261). -/

/-- A holder of a record, by its number. -/
def holderOfRec (w access va : Nat) : Waiter := { req := w % 1024, port := w / 1024, access, va }

/-- A tile's watchdog moved later by the time its mover port was held (14 R408). -/
def endHold (s : State) (id : Nat) : State :=
  modTile s id (fun t => match t.heldSince with
    | some h => { t with heldSince := none, deadline := t.deadline.map (· + (s.now - h)) }
    | none => t)

/-- The time of a record's holders no longer counts from the driver's answer on (14 R408). -/
def endHolds (s : State) (r : FaultRec) : State := r.waiters.foldl (fun s w => endHold s (waiterTile s (holderOfRec w r.access r.va))) s

/-- A holder goes on: its port's group, or its command's admission, is presented again. -/
def resumeHolder (s : State) (w : Waiter) : State :=
  if w.req < 224 then s.modMover (w.req - 192) w.port moverResume
  else s.modShelver (w.req - 224) (fun x => { x with heldOn := Tbl.del x.heldOn w.port })

/-- The cause that a record's status stands for (09 R260). -/
def statusCause (st : Nat) : Nat := if st == Status.translationFault.code then 1 else if st == Status.permission.code then 4 else 5

/-- A record's holders ended with a cause, and the record gone. -/
def failHolders (s : State) (key : Nat) (r : FaultRec) (cause seq : Nat) : State :=
  let s := s.modWork (fun w => { w with faultRecs := Tbl.del w.faultRecs (key * 65536 + r.seq) })
  r.waiters.foldl (fun s w => failWaiter s (holderOfRec w r.access r.va) cause seq) s

/-- What a record comes to once the page has been walked again (09 R261). -/
def retryRecord (s : State) (key : Nat) (r : FaultRec) : MbRes :=
  let fail := fun (s : State) (cause level : Nat) =>
    let st := causeStatus cause
    let ws := r.waiters.map (fun w => holderOfRec w r.access r.va)
    let (s, seq) := writeFault s key { kind := 1, status := st, body := translationBody s key r.va cause r.access level st ws }
    mbOk (failHolders s key r cause seq)
  match keyRoot s key with
  | none => mbFail s .staleHandle 3
  | some root => match walkFrom s (ctxPart key) false r.va root 3 with
    | .wait s => .going s 0
    | .fail s cause level => fail s cause level
    | .leaf s l level =>
      match sealPages s l with
      | (s, false) => .going s 0
      | (s, true) =>
        let s := installEntry s (entryOf s key r.va l)
        if !leafPermits l r.access then fail s 4 level
        else
          let s := s.modWork (fun w => { w with faultRecs := Tbl.del w.faultRecs (key * 65536 + r.seq) })
          mbOk (r.waiters.foldl (fun s w => resumeHolder s (holderOfRec w r.access r.va)) s)

/-- FAULT_RETRY or FAULT_ABORT on a record that holders wait on; a record that has none fails with ABORTED. -/
def faultAnswer (s : State) (slot : MbSlot) (opcode : Nat) (body : State → Nat → FaultRec → MbRes) : State :=
  let p := partOfFn slot
  let go := fun (first : Bool) (s : State) (c : MbCmd) => match liveCtx s p (c.f 0x10 0 32) with
    | none => mbFail s .staleHandle 3
    | some (key, _) => match Tbl.find s.work.faultRecs (key * 65536 + c.f 0x18 0 16) with
      | none => mbFail s .aborted 0x10
      | some r => body (if first then endHolds s r else s) key r
  mbCommand s slot opcode (fun _ => true)
    (fun s c => { fields := [(0x10, 0, 32), (0x18, 0, 16)], permitted := isPartFn slot, handles := (liveCtx s p (c.f 0x10 0 32)).isSome }) (go true) (go false)

/-- FAULT_RETRY: the page is walked again, and every holder resumes or fails on the new result (09 R261). -/
def execFaultRetry (slot : MbSlot) (s : State) : Out := .next (faultAnswer s slot 0x25 retryRecord)

/-- FAULT_ABORT: every holder ends with the record's STATUS (09 R261). -/
def execFaultAbort (slot : MbSlot) (s : State) : Out :=
  .next (faultAnswer s slot 0x26 (fun s key r => mbOk (failHolders s key r (statusCause r.status) r.seq)))

/-! Destruction (13 R395, R396). -/

/-- A tile of work that is being destroyed told to stop; a suspect's replay is killed (13 R395, 18 R521). -/
def stopTile (s : State) (id : Nat) : State :=
  match Tbl.find s.work.tiles id with
  | none => s
  | some t => if t.suspect then killTile s id else if t.killed || t.preemptAt.isSome then s else sendTile s id 1

/-- The commands that a destruction covers are stopped: those not running dropped, Shelver commands and collectives ended, tiles told to stop (13 R395). -/
def stopCmds (s : State) (pick : Nat → Cmd → Bool) : State :=
  let mine := s.work.cmds.filter (fun c => pick c.1 c.2)
  let s := (mine.filter (fun c => c.2.phase != .running)).foldl (fun s c => dropCmd s c.1) s
  let subs := mine.filterMap (fun c => c.2.shelver)
  let s := (subs.map (fun x => (x.1, x.2.1))).eraseDups.foldl (fun s q => abortQueue s q.1 q.2 (fun i _ => subs.contains (q.1, q.2, i))) s
  let s := endColls s Status.aborted.code (fun k => match Tbl.find s.work.cmds k.cmd with | some c => pick k.cmd c | none => false)
  let ids := s.work.tiles.filter (fun t => match Tbl.find s.work.cmds t.2.cmd with | some c => pick t.2.cmd c | none => false)
  ids.foldl (fun s t => stopTile s t.1) s

/-- Whether nothing of the work runs any more: no tile, no tag of a parked tile, no Shelver command, no collective. -/
def cmdsStopped (s : State) (pick : Nat → Cmd → Bool) : Bool :=
  let of_ := fun (id : Nat) => match Tbl.find s.work.cmds id with | some c => pick id c | none => false
  !s.work.tiles.any (fun t => of_ t.2.cmd) && !s.work.parked.any (fun p => of_ p.2.tile.cmd)
    && !s.work.cmds.any (fun c => pick c.1 c.2 && c.2.opcode != 1 && c.2.phase == .running)

/-- A queue released: its number is free, and its generation advances. -/
def deleteQueue (s : State) (q : Nat) : State :=
  match Tbl.find s.work.queues q with
  | none => s
  | some x => s.modWork (fun w => { w with queues := Tbl.del w.queues q, queueGens := Tbl.put w.queueGens q (nextGen x.gen 16) })

/-- A context's destruction begins (13 R395, at T and by T + 100 µs); `own` is the mailbox index of the command that destroys it. -/
def beginDestroy (s : State) (key f own : Nat) : State :=
  match Tbl.find s.work.ctxs key with
  | none => s
  | some x =>
    if x.state == .destroying then s
    else
      let name := (16 + f) * 2 ^ 64 + ctxHandle key x
      let s := setCtx s key { x with state := .destroying, destroyAt := some s.now }
      let others := (s.fn f).active.filter (fun a => a.index != own && a.opcode != 0x23 && (mbNames f a).contains name)
      let s := others.foldl (fun s a => mbFinish s f a.index Status.aborted.code 0) s
      let s := stopCmds s (fun _ c => c.ctx == key)
      let recs := s.work.faultRecs.filter (fun r => r.1 / 65536 == key)
      let s := recs.foldl (fun s r => r.2.waiters.foldl (fun s w => abortWaiter s (holderOfRec w r.2.access r.2.va)) s) s
      let s := s.modWork (fun w => { w with faultRecs := w.faultRecs.filter (fun r => r.1 / 65536 != key) })
      s.modPwr (fun p => { p with hints := p.hints.filter (fun h => h.ctx != key) })

/-- A context's destruction completes once its work has stopped (13 R395, by T + 5 ms); false while it has not. -/
def finishDestroy (s : State) (key : Nat) : State × Bool :=
  match Tbl.find s.work.ctxs key with
  | none => (s, true)
  | some x =>
    let mine := fun (_ : Nat) (c : Cmd) => c.ctx == key
    if !cmdsStopped s mine then (s, false)
    else
      let s := (s.work.cmds.filter (fun c => mine c.1 c.2)).foldl (fun s c => dropCmd s c.1) s
      let s := (s.work.jobs.filter (fun j => j.2.ctx == key)).foldl (fun s j => jobRecord s j.1 (some Status.aborted.code)) s
      let x := (Tbl.find s.work.ctxs key).getD x
      let s := ledgerAppend s (ctxPart key) (ledgerRec 1 0 x.firstBad (ctxHandle key x) x.created s.now x.counts (x.counts.energyNj / 1000) false)
      let s := dropSlot s key
      let held := s.work.objs.filter (fun o => o.2.holds.contains key || (o.2.image.map (·.1)) == some key)
      let s := held.foldl (fun s o => settleObj (modObj s o.1 (fun o => { o with
        holds := NSet.rem o.holds key, image := if (o.image.map (·.1)) == some key then none else o.image })) o.1) s
      let s := (s.work.queues.filter (fun q => q.2.ctx == key)).foldl (fun s q => deleteQueue s q.1) s
      (s.modWork (fun w => { w with
        ctxs := Tbl.del w.ctxs key
        ctxGens := Tbl.put w.ctxGens key (nextGen x.gen 16)
        heldSince := w.heldSince.filter (fun h => h.1 % 2 ^ 16 != key)
        heldFor := w.heldFor.filter (fun h => h.1 % 2 ^ 16 != key) }), true)

/-- CTX_DESTROY (13 R395). -/
def execCtxDestroy (slot : MbSlot) (s : State) : Out :=
  let p := partOfFn slot
  let done := fun (s : State) (key : Nat) => match finishDestroy s key with
    | (s, true) => mbOk s
    | (s, false) => .going s key
  .next (mbCommand s slot 0x23 (fun _ => true)
    (fun s c => { fields := [(0x10, 0, 32)], permitted := isPartFn slot, handles := (liveCtx s p (c.f 0x10 0 32)).isSome })
    (fun s c => match liveCtx s p (c.f 0x10 0 32) with
      | some (key, _) => done (beginDestroy s key slot.fn c.index) key
      | none => mbFail s .staleHandle 3)
    (fun s c => done s c.arg))

/-- The number of a live queue that a handle names and that is not being destroyed. -/
def liveQueue (s : State) (p h : Nat) : Option Nat :=
  match findQueue s p h with
  | some (q, x) => if queueDying s x then none else some q
  | none => none

/-- A queue's end, once its commands have stopped. -/
def endQueue (s : State) (q : Nat) : MbRes :=
  let mine := fun (_ : Nat) (c : Cmd) => c.queue == q
  if !cmdsStopped s mine then .going s q
  else mbOk (deleteQueue ((s.work.cmds.filter (fun c => mine c.1 c.2)).foldl (fun s c => dropCmd s c.1) s) q)

/-- QUEUE_DESTROY: the steps of R395 for the commands of one queue (13 R396). -/
def execQueueDestroy (slot : MbSlot) (s : State) : Out :=
  let p := partOfFn slot
  .next (mbCommand s slot 0x29 (fun _ => true)
    (fun s c => { fields := [(0x10, 0, 32)], permitted := isPartFn slot, handles := (liveQueue s p (c.f 0x10 0 32)).isSome })
    (fun s c => match liveQueue s p (c.f 0x10 0 32) with
      | some q => endQueue (stopCmds (modQueue s q (fun x => { x with destroyAt := some s.now })) (fun _ c => c.queue == q)) q
      | none => mbFail s .staleHandle 3)
    (fun s c => endQueue s c.arg))

/-! Kernel images (05 R143, R144). -/

/-- Bank of a Bay offset. -/
def bankAt (o : Nat) : Nat := o / bankBytes

/-- Checks 3 to 7 of R144 on a header and its sections: the first that fails. -/
def imageFault (h : BitVec 2048) (xs : List Section) : Option Nat :=
  let banks := List.range 16
  let code := fun (o : Nat) => xs.any (fun x => x.type == 1 && decide (x.off ≤ o) && decide (o < x.off + x.bytes))
  let plan := Img.planOf h
  let three := plan (Img.rtBank h) == 8 && !banks.any (fun b => b != Img.rtBank h && plan b == 8) && banks.all (fun b => ownerCodeOk (plan b))
    && banks.all (fun b => (4 ≤ plan b || bitsAt (Img.mxMask h) (plan b) 1 == 1) && (plan b < 4 || 7 < plan b || bitsAt (Img.vMask h) (plan b - 4) 1 == 1))
  let nine := fun (o n : Nat) => decide (o + n ≤ bayBytes) && plan (bankAt o) == 9 && plan (bankAt (o + n - 1)) == 9
  let four := Img.argOff h % 256 == 0 && nine (Img.argOff h) 256 && Img.stackTop h % 16 == 0 && decide (16 ≤ Img.stackTop h) && nine (Img.stackTop h - 16) 16
    && decide (Img.lsBytes h ≤ 0x7FF00)
  let vAbsent := Img.vEntry h == 0xFFFFFFFF
  let five := xs.all (fun x => decide (1 ≤ x.type) && decide (x.type ≤ 4) && x.bytes != 0 && x.bytes % 4 == 0
      && (if x.type == 4 then x.off == 0 else x.off % 64 == 0 && decide (x.off + x.bytes ≤ Img.bytes h)))
    && code (Img.kcEntry h) && (vAbsent || code (Img.vEntry h)) && vAbsent == (Img.vMask h == 0)
  let six := xs.all (fun x => decide (x.type ≤ 2) || (decide (x.dest + x.bytes ≤ bayBytes)
    && (List.range 16).all (fun b => plan b != 8 || decide (x.dest + x.bytes ≤ b * bankBytes) || decide ((b + 1) * bankBytes ≤ x.dest))))
  let seven := fld h 0x80 0 1024 == 0 && fld h 0x20 9 3 == 0 && fld h 0x20 16 16 == 0 && fld h 0x2C 25 7 == 0 && fld h 0x30 25 7 == 0 && fld h 0x34 20 12 == 0
    && fld h 0x3C 0 32 == 0 && xs.all (fun x => x.reserved == 0)
  if !three then some 3 else if !four then some 4 else if !five then some 5 else if !six then some 6 else if !seven then some 7 else none

/-- Bytes of a context's memory read by the Registrar. -/
def ctxRead (s : State) (key root va n : Nat) : Got (List CatEntry × List Byte) :=
  match walkPages s key root 0 (pagePieces va n) with
  | .wait s => .wait s
  | .fail s _ _ a => .bad s a
  | .ok s es =>
    match vRead s { rq := fun _ => { master := 42, part := ctxPart key, bypass := true }, key, ents := es } [(va, n)] with
    | .ok s bs => .ok s (es, bytesOf bs)
    | .wait s => .wait s
    | .bad s a => .bad s a

/-- Whether every page of a range maps within a memory object. -/
def insideObj (o : MemObj) (es : List CatEntry) (va n : Nat) : Bool :=
  let own := (List.range (o.bytes / pageBytes)).flatMap (fun i => directPages (o.base + i * pageBytes))
  (pagePieces va n).all (fun p => match es.find? (fun e => decide (e.va ≤ p.1) && decide (p.1 < e.va + e.bytes)) with
    | some e => !leafRemote e.leaf && (directPages (entryPA e p.1)).all own.contains
    | none => false)

/-- The checks of R144 on an image in a context's memory. -/
def checkImage (s : State) (key : Nat) (x : Ctx) (o : MemObj) (va : Nat) : Got (Except Nat (BitVec 2048)) :=
  match ctxRead s key x.root va 256 with
  | .wait s => .wait s
  | .bad s _ => .ok s (.error 1)
  | .ok s (_, hb) =>
    let h := BitVec.ofNat 2048 (natLE hb)
    let n := Img.bytes h
    if Img.magic h != 0x494B4A48 || Img.major h != 1 || Img.hdrBytes h != 256 || n < 256 || n > o.bytes then .ok s (.error 1)
    else match ctxRead s key x.root va n with
      | .wait s => .wait s
      | .bad s _ => .ok s (.error 1)
      | .ok s (es, bs) =>
        let k := Img.sectCount h
        let at_ := Img.sectOff h
        if !insideObj o es va n then .ok s (.error 1)
        else if (sha3Nat (bs.take 0x40 ++ List.replicate 64 0#8 ++ bs.drop 0x80)).toNat != Img.digest h then .ok s (.error 2)
        else
          let table := k != 0 && decide (k ≤ 32) && at_ % 32 == 0 && decide (at_ + 32 * k ≤ n)
          let xs := if table then (chunks 32 ((bs.drop at_).take (32 * k))).map sectionOf else []
          match imageFault h xs with
          | some c => .ok s (.error (if c > 5 && !table then 5 else c))
          | none => .ok s (if table then .ok h else .error 5)

/-- IMAGE_REGISTER: an image that passes, and that a seal policy in force lists, is a hold on its object (05 R144, 13 R393, 17 R481). -/
def execImageRegister (slot : MbSlot) (s : State) : Out :=
  let p := partOfFn slot
  let obj := fun (s : State) (c : MbCmd) => match liveCtx s p (c.f 0x10 0 32), findObj s p (c.f 0x18 0 32) with
    | some (k, x), some (ok, o) => if o.holds.contains k && o.state == .live then some (k, x, ok, o) else none
    | _, _ => none
  let go := fun (s : State) (c : MbCmd) => match obj s c with
    | none => mbFail s .staleHandle 3
    | some (k, x, ok, o) => match checkImage s k x o (c.f 0x20 0 64) with
      | .wait s => .going s 0
      | .bad s _ => mbFail s .aborted 0x11
      | .ok s (.error n) => mbFail s .aborted (0x10 + n)
      | .ok s (.ok h) =>
        let listed := match Tbl.find s.sec.policies p with | some pol => pol.digests.any (fun d => d.toNat == Img.digest h) | none => true
        if !listed then mbFail s .denied 0x20 else mbOk (modObj s ok (fun o => { o with image := some (k, c.f 0x20 0 64, h) }))
  .next (mbCommand s slot 0x2A (fun _ => true)
    (fun s c => { fields := [(0x10, 0, 32), (0x18, 0, 32), (0x20, 0, 64)], range := decide (c.f 0x20 0 64 < 2 ^ 57), permitted := isPartFn slot
                  handles := (obj s c).isSome }) go go)

/-! Storage (13 R392). -/

/-- The Shelves that an object touches, and the Shelf offsets it takes in each (06 R153, R154). -/
def objSpan (o : MemObj) : List Nat × Nat × Nat :=
  if o.interleaved then
    let x := o.base - 0x10000000000
    let row := 48 * 2 ^ 30
    ((List.range 8).map (fun k => k * 16 + x / row), x % row / 8, (x % row + o.bytes) / 8)
  else ([o.base / 2 ^ 33], o.base % 2 ^ 33, o.base % 2 ^ 33 + o.bytes)

/-- The lowest place in a set of Shelves for so many bytes in each, clear of the partition's objects. -/
def freeSpan (s : State) (p : Nat) (shelves : List Nat) (n align : Nat) : Option Nat :=
  let spans := (s.work.objs.filter (fun o => o.1 / 65536 == p)).map (fun o => objSpan o.2)
  let near := spans.filter (fun x => x.1.any shelves.contains)
  let starts := (near.map (fun x => alignUp x.2.2 align)).foldl NSet.ins [0]
  starts.find? (fun a => decide (a + n ≤ registrarArea) && near.all (fun x => decide (a + n ≤ x.2.1) || decide (x.2.2 ≤ a)))

/-- Shelves, and Shelf rows, that a partition holds. -/
def partShelves (s : State) (p : Nat) : List Nat := (List.range 128).filter (fun k => s.partOfShelf k == p)
def partRows (s : State) (p : Nat) : List Nat := (List.range 16).filter (fun r => s.partOfShelf r == p)

/-- Where an allocation goes: physical base (13 R392). -/
def placeObj (s : State) (p n : Nat) (inter : Bool) (shelf : Nat) : Option Nat :=
  if inter then (partRows s p).findSome? (fun r =>
    (freeSpan s p ((List.range 8).map (fun k => k * 16 + r)) (n / 8) 0x40000).map (fun a => 0x10000000000 + r * (48 * 2 ^ 30) + 8 * a))
  else (if shelf == 0xFF then partShelves s p else [shelf]).findSome? (fun k => (freeSpan s p [k] n pageBytes).map (fun a => k * 2 ^ 33 + a))

/-- A physical range zeroed: every direct page of it; false while a companion's answer is awaited. -/
def zeroObj (s : State) (o : MemObj) : State × Bool :=
  (objSpan o).1.foldl (fun (a : State × Bool) k =>
    let (_, lo, hi) := objSpan o
    let (s, ok) := purgeRange a.1 (k * 2 ^ 33 + lo) (hi - lo)
    (s, a.2 && ok)) (s, true)

/-- MEM_ALLOC (13 R392). -/
def execMemAlloc (slot : MbSlot) (s : State) : Out :=
  let p := partOfFn slot
  let go := fun (s : State) (c : MbCmd) => match liveCtx s p (c.f 0x10 0 32) with
    | none => mbFail s .staleHandle 3
    | some (ck, _) =>
      let n := c.f 0x18 0 64
      let inter := c.f 0x20 0 1 == 1
      match placeObj s p n inter (c.f 0x20 8 8), Tbl.freeKey s.work.objs (p * 65536) ((p + 1) * 65536) with
      | some base, some key =>
        let o : MemObj := { gen := Tbl.getD s.work.objGens key 1, base, bytes := n, interleaved := inter, holds := [ck] }
        match zeroObj s o with
        | (s, false) => .going s 0
        | (s, true) => mbOk (s.modWork (fun w => { w with objs := Tbl.put w.objs key o })) [objHandle key o, base]
      | _, _ => mbFail s .resourceExhausted
  .next (mbCommand s slot 0x30 (fun _ => true)
    (fun s c =>
      let shelf := c.f 0x20 8 8
      let n := c.f 0x18 0 64
      { fields := [(0x10, 0, 32), (0x18, 0, 64), (0x20, 0, 1), (0x20, 8, 8)]
        range := n != 0 && n % pageBytes == 0 && (decide (shelf < 128) || shelf == 0xFF)
        permitted := isPartFn slot && (c.f 0x20 0 1 == 1 || shelf == 0xFF || s.partOfShelf shelf == p)
        handles := (liveCtx s p (c.f 0x10 0 32)).isSome }) go go)

/-! The Colophon (13 R398, R399). -/

/-- The Volume that binds a resource of this part, by a test on this part's entry. -/
def boundBy (s : State) (f : VolMember → Bool) : Option Nat :=
  (s.vols.vols.find? (fun v => match v.2.cur.bind (ownEntry s) with | some e => !isRouting v.1 && f e | none => false)).map (·.1)

/-- A table entry's bytes: offset in it, and value in a number of bytes. -/
def colEntry (n : Nat) (fields : List (Nat × Nat × Nat)) : List Byte :=
  bytesLE n (fields.foldl (fun a f => a + put f.2.1 (8 * f.1) (8 * f.2.2)) 0)

def colBay (s : State) (b : Nat) : List Byte :=
  let x := s.bay b
  let v := boundBy s (fun e => bitsAt e.bays b 1 == 1)
  let half := bit (decide (routerCol (s.sites.getD b 0) ≥ 4))
  colEntry 16 ([(0, b + put half 5 1 + put (bit (!x.fenced)) 6 1 + put (bit x.fenced) 7 1, 1), (1, s.partOfBay b + put (bit v.isSome) 7 1, 1), (2, baySpineHops s b, 1)]
    ++ (List.range 8).map (fun k => (4 + k, bayHops s b k, 1)) ++ [(0xC, v.getD 0xFFFFFFFF, 4)])

def colShelf (s : State) (k : Nat) : List Byte :=
  colEntry 4 [(0, shelfMask s k, 1), (1, bit (boundBy s (fun e => bitsAt e.shelves k 1 == 1)).isSome, 1)]

def colPort (s : State) (q : Nat) : List Byte :=
  let x := s.fport (leaderOf s q)
  let v := boundBy s (fun e => bitsAt e.ports q 1 == 1)
  let peer := x.peer.getD (0, 0)
  colEntry 16 [(0, (linkOf s q).state + put (leaderOf s q) 3 5, 1), (1, holderOf s q % 8 + put (bit v.isSome) 3 1, 1), (2, peer.1 % 2 ^ 14, 2),
    (4, peer.2 % 32 + put x.members.length 5 3, 1), (5, portDim s q + put (bit (portDateline s q)) 2 1, 1), (8, v.getD 0xFFFFFFFF, 4)]

def colSite (s : State) (i : Nat) : List Byte :=
  let r := i / 6 * 8 + i % 6 + 1
  let b := s.sites.findIdx? (· == r)
  let st := if s.nets.failedRouters.contains r then 4 else match b with | none => 1 | some b => if (s.bay b).fenced then 3 else 0
  colEntry 8 [(0, i / 6 + put (i % 6 + 1) 3 3, 1), (1, st, 1), (2, b.getD 0xFF, 1)]

/-- A snapshot of the Colophon: the whole part's for function 0, or a partition's view (13 R398, R399). -/
def colophonBytes (s : State) (view : Option Nat) : List Byte :=
  let n := match view with | some _ => s.nparts | none => 1
  let mine := fun (p : Nat) => match view with | some v => v == p | none => true
  let le := fun (k v : Nat) => bytesLE k v
  let head := le 4 0x4F4C4F43 ++ le 2 0x0100 ++ le 2 0x0800 ++ le 4 s.colophon.generation ++ le 4 (0x9416 + put 0xB0 16 8)
    ++ le 4 (s.fab.deviceId + put (bitsAt s.seq.straps.toNat 4 3) 16 3) ++ le 4 (s.mode + put (view.getD 0xF) 8 4) ++ le 8 s.colophon.updated
    ++ le 4 s.sec.fwVersion ++ le 4 s.sec.secVersion ++ le 24 0
  let counts := le 1 32 ++ le 1 ((List.range 32).filter (fun b => !(s.bay b).fenced)).length ++ le 1 128 ++ le 1 24 ++ le 1 2 ++ le 1 (48 / n) ++ le 2 (256 / n)
    ++ le 4 4096 ++ le 4 65536 ++ le 4 (65536 / n) ++ le 4 (2 ^ 24) ++ le 4 (1024 / n) ++ le 4 (65536 / n) ++ le 4 (0x1000000 / n) ++ le 4 0x803F0FFF
    ++ le 2 (if view.isSome then 0x2FFF else 0x7FFF) ++ le 2 0x00FE ++ le 4 (44 * 2 ^ 8 + 50 * 2 ^ 16 + 58 * 2 ^ 24) ++ le 2 4096 ++ le 2 64
  let table := fun (k size : Nat) (own : Nat → Nat) (f : State → Nat → List Byte) => (List.range k).flatMap (fun i => if mine (own i) then f s i else le size 0)
  head ++ counts ++ le (0x100 - 0x74) 0 ++ table 32 16 s.partOfBay colBay ++ table 128 4 s.partOfShelf colShelf ++ table 24 16 (holderOf s) colPort
    ++ (if view.isNone then (List.range 36).flatMap (colSite s) else le 288 0) ++ le (0x800 - 0x7A0) 0

/-- COLOPHON_READ (13 R398). -/
def execColophonRead (slot : MbSlot) (s : State) : Out :=
  let f := slot.fn.val
  .next (mbCommand s slot 2 (fun _ => true)
    (fun _ c => { fields := [(0x10, 0, 64)], range := c.f 0x10 0 64 % 64 == 0 })
    (fun s c => mbOk (cmWrite s f (c.f 0x10 0 64) (colophonBytes s (if f == 0 then none else some (f - 1)))) [s.colophon.generation]))

end Sys2Proof.Machine
end

