-- ==== Sys2Proof/Machine/Manage.lean ====
section
/-! DEFINITION. Mailbox commands of function 0 on the part as a whole: the options of CONFIG_SET, bandwidth guarantees, route tables, ports, and messages between fabric managers (06_memory.md R177, R178, 10_volumes.md R275, 11_fabric.md R304, R319, R332, 15_registrar.md R435 to R439). -/

namespace Sys2Proof.Machine

/-- Whether a command is on function 0. -/
def isFn0 (m : MbSlot) : Bool := m.fn.val == 0

/-! An idle partition (10 R275). -/

/-- Whether a partition waits for no answer to an outbound fabric request. -/
def outboundDone (s : State) (p : Nat) : Bool :=
  !s.fab.tags.any (fun t => requestPart s t.2 == p) && !s.fab.stalled.any (fun r => requestPart s r == p)

/-- Whether no Shelver command of the partition's queues is queued or runs. -/
def shelversDone (s : State) (p : Nat) : Bool :=
  !s.shelvers.any (fun x => (x.2.queue p).rd != (x.2.queue p).wr || Tbl.has x.2.runs p)

/-- Whether a map draws on a partition of this part. -/
def mapUses (s : State) (p : Nat) (m : VolMap) : Bool :=
  match ownEntry s m with
  | some e => bitsAt e.parts p 1 == 1
  | none => false

/-- Whether a Volume names resources of a partition. -/
def volUses (s : State) (p : Nat) (v : Volume) : Bool := ([v.cur, v.prev, v.next].filterMap id).any (mapUses s p)

/-- Whether a Concordance round that involves a partition is open. -/
def roundUses (s : State) (p h : Nat) (r : Round) : Bool :=
  (match r.map with | some m => !isRouting h && mapUses s p m | none => false)
    || (match Tbl.find s.vols.vols h with | some v => !isRouting h && volUses s p v | none => false)

/-- Whether a context of a partition has a queued or running command. -/
def workDone (s : State) (p : Nat) : Bool :=
  !s.work.cmds.any (fun c => ctxPart c.2.ctx == p) && !s.work.queues.any (fun q => ctxPart q.2.ctx == p && q.2.wr != q.2.rd)
    && !s.work.parked.any (fun t => match Tbl.find s.work.cmds t.2.tile.cmd with | some c => ctxPart c.ctx == p | none => false)

/-- Whether a partition is idle (10 R275). -/
def partIdle (s : State) (p : Nat) : Bool :=
  workDone s p && shelversDone s p && !s.vols.vols.any (fun v => !isRouting v.1 && volUses s p v.2)
    && !s.vols.rounds.any (fun r => roundUses s p r.1 r.2) && outboundDone s p

/-- Whether every partition is idle. -/
def allIdle (s : State) : Bool := (List.range s.mode).all (partIdle s)

/-! CONFIG_SET (15 R436). -/

/-- One option of CONFIG_SET: the range of its VALUE, its condition, and what it sets. -/
def configSet (s : State) (slot : MbSlot) (option : Nat) (range : Nat → Bool) (allowed : State → Bool) (set : State → Nat → State) : Out :=
  .next (mbCommand s slot 1 (fun c => c.f 0x10 0 8 == option)
    (fun _ c => { fields := [(0x10, 0, 8), (0x18, 0, 64)], range := range (c.f 0x18 0 64), permitted := isFn0 slot })
    (fun s c => if allowed s then mbOk (set s (c.f 0x18 0 64)) else mbFail s .aborted 0x10))

/-- Zero or one. -/
def isBit (v : Nat) : Bool := decide (v ≤ 1)

/-- RSVD_POLICY (00 R6, 15 R436). -/
def execRsvdPolicy (slot : MbSlot) (s : State) : Out :=
  configSet s slot 1 isBit (fun _ => true) (fun s v => { s with regs := { s.regs with policyP := v == 1 } })

/-- ISOLATION: ISOLATED and TDM change together at the next epoch boundary, only while every partition is idle (06 R176, 12 R363). -/
def execIsolation (slot : MbSlot) (s : State) : Out :=
  configSet s slot 2 isBit allIdle (fun s v => s.modPwr (fun p => { p with isoNext := some (v == 1) }))

/-- BOOST_EN (12 R367). -/
def execBoostEn (slot : MbSlot) (s : State) : Out :=
  configSet s slot 3 isBit (fun _ => true) (fun s v => s.modPwr (fun p => { p with ctrl := (p.ctrl &&& ~~~1#32) ||| BitVec.ofNat 32 v }))

/-- HINTS_EN (12 R367). -/
def execHintsEn (slot : MbSlot) (s : State) : Out :=
  configSet s slot 4 isBit (fun _ => true) (fun s v => s.modPwr (fun p => { p with ctrl := (p.ctrl &&& ~~~4#32) ||| BitVec.ofNat 32 (4 * v) }))

/-- DEVICE_ID: only while no fabric port is UP (11 R332). -/
def execDeviceId (slot : MbSlot) (s : State) : Out :=
  configSet s slot 5 (fun v => decide (v < 16384)) (fun s => !(List.range 24).any (portUp s)) (fun s v => s.modFab (fun f => { f with deviceId := v }))

/-- SCRUB_PERIOD: PERIOD_H of every stack (06 R170, R181). -/
def execScrubPeriod (slot : MbSlot) (s : State) : Out :=
  configSet s slot 6 (fun v => decide (1 ≤ v) && decide (v ≤ 255)) (fun _ => true) (fun s v =>
    (List.range 8).foldl (fun s k => s.modStack k (fun x => { x with scrubCtrl := (x.scrubCtrl &&& ~~~0xFF#32) ||| BitVec.ofNat 32 v })) s)

/-! Bandwidth guarantees (06 R177, R178). -/

/-- The least cap of a real-time master (06 R178). -/
def capFloor (m : Nat) : Nat := if m < 36 then 0 else if m < 40 then 128 else if m < 43 then 256 else 0

/-- The committed values of a stack: those that the next window takes count. -/
def committed (x : Stack) : Tbl Nat := x.guarNext.foldl (fun g e => Tbl.put g e.1 e.2) x.guar

/-- The masters whose guarantees share a budget with a master's, and the budget: every master and 85 % of D; under TDM a Bay's partition
and its slot's share of it (06 R177). -/
def guarBudget (s : State) (x : Stack) (m : Nat) : List Nat × Nat :=
  if bitsAt x.mscCtrl.toNat 16 1 == 1 && m < 32 then
    ((List.range 32).filter (fun b => s.partOfBay b == s.partOfBay m), x.deliverable * 85 * 960 / (100 * 1024 * s.nparts))
  else (List.range 44, x.deliverable * 85 / 100)

/-- Whether a stack admits a guarantee of `n` granules. -/
def guarFits (s : State) (k m n : Nat) : Bool :=
  let x := s.stack k
  let (ms, budget) := guarBudget s x m
  let g := committed x
  decide ((ms.filter (· != m)).foldl (fun a i => a + guarOf g i) n ≤ budget)

/-- BW_GUARANTEE: a guarantee or a cap that every stack admits is taken at the next window boundary; else no register changes (06 R177, R178). -/
def execBwGuarantee (slot : MbSlot) (s : State) : Out :=
  let f := slot.fn.val
  let want := fun (c : MbCmd) (k : Nat) => c.f (0x18 + 2 * k) 0 16
  let ks := List.range 8
  .next (mbCommand s slot 0x0B (fun _ => true)
    (fun s c =>
      let m := c.f 0x10 0 6
      { fields := [(0x10, 0, 6), (0x10, 8, 1), (0x18, 0, 128)], range := decide (m ≤ 43)
        permitted := f == 0 || (decide (m < 32) && s.partOfBay m == f - 1) })
    (fun s c =>
      let m := c.f 0x10 0 6
      match ks.find? (fun k => decide (want c k < capFloor m)), ks.find? (fun k => !guarFits s k m (want c k)) with
      | some k, _ => mbFail s .aborted (k + 0x10)
      | none, some k => mbFail s .guaranteeRefused (k + 0x10)
      | none, none =>
        let high := 36 ≤ m && m ≤ 42 || c.f 0x10 8 1 == 1
        mbOk (ks.foldl (fun s k => s.modStack k (fun x => { x with guarNext := Tbl.put x.guarNext m (want c k + put (bit high) 16 1) })) s)))

/-! Route tables and ports (11 R304, R317, R319, R332). -/

/-- Whether the bank that is not active still serves the routing map's previous epoch (11 R319). -/
def bankInGrace (s : State) : Bool := s.vols.vols.any (fun v => isRouting v.1 && v.2.prev.isSome)

/-- ROUTE_LOAD: a table of 64 KiB into the standby bank; its digest is answered (11 R319). -/
def execRouteLoad (slot : MbSlot) (table : List Byte) (s : State) : Out :=
  .next (mbCommand s slot 0x0C (fun _ => true)
    (fun _ _ => { fields := [(0x10, 0, 64)], permitted := isFn0 slot })
    (fun s _ =>
      if bankInGrace s || table.length != 65536 then mbFail s .aborted
      else
        let bank := 1 - s.fab.bank
        let new := ((chunks 4 table).zipIdx).filterMap (fun e => let v := natLE e.1; if v == 0 then none else some (bank * 16384 + e.2, v))
        let kept := s.fab.routes.filter (fun e => e.1 / 16384 != bank)
        let d := sha3Nat table
        let s := s.modFab (fun x => { x with routes := if bank == 0 then new ++ kept else kept ++ new, standby := some d })
        mbOk s ((List.range 4).map (fun i => fld d (8 * i) 0 64))))

/-- A port's FP_CTRL written: ENABLE set starts a port that is DOWN, ENABLE clear stops it, and RETRAIN starts a HELD one (11 R303, R304). -/
def writePortCtrl (s : State) (q v : Nat) : State :=
  let s := s.modFport q (fun x => { x with ctrl := BitVec.ofNat 32 (v % 2 ^ 16) })
  if leaderOf s q != q then s
  else
    let st := (linkOf s q).state
    if v % 2 == 0 then (if st == 0 then s else goDown { s with sec := { s.sec with peers := Tbl.del s.sec.peers q } } q)
    else if !linkEnabled s q then s
    else if st == 0 || (st == 5 && bitsAt v 16 1 == 1) then enterTrain s q else s

/-- PORT_CONFIG (11 R304, R332). -/
def execPortConfig (slot : MbSlot) (s : State) : Out :=
  .next (mbCommand s slot 0x0D (fun _ => true)
    (fun _ c => { fields := [(0x10, 0, 5), (0x18, 0, 11), (0x18, 12, 2), (0x18, 16, 1)], range := decide (c.f 0x10 0 5 < 24) && decide (c.f 0x18 8 3 ≤ 4)
                  permitted := isFn0 slot })
    (fun s c => mbOk (writePortCtrl s (c.f 0x10 0 5) (c.f 0x18 0 32))))

/-! Messages between fabric managers (15 R437, R439). -/

/-- The 200 µs in which an FM_SEND waits for its FM_ACK (15 R437). -/
def fmWait : Nat := 200 * us

/-- FM_SEND: an FM_MESSAGE to another part's Registrar; it completes with the FM_ACK (15 R439). -/
def execFmSend (slot : MbSlot) (s : State) : Out :=
  .next (mbCommand s slot 0x0F (fun _ => true)
    (fun _ c => { fields := [(0x10, 0, 14), (0x18, 0, 7), (0x20, 0, 832)], range := decide (1 ≤ c.f 0x18 0 7) && decide (c.f 0x18 0 7 ≤ 104), permitted := isFn0 slot })
    (fun s c =>
      let n := c.f 0x18 0 7
      let (s, seq) := sendMgmt s (c.f 0x10 0 14) 4 (bytesLE 8 n ++ bytesLE n (c.f 0x20 0 (8 * n)))
      .going (s.modFab (fun f => { f with fmSends := Tbl.put f.fmSends seq (slot.fn.val, c.index) })) seq))

/-- FM_MESSAGE: posted on function 0, or dropped there, and then acknowledged (15 R438, R439). -/
def execFmMessage (s : State) : Out :=
  match takeMgmt s (fun p => Mg.mtype p == 4) with
  | none => .next s
  | some (_, p, s) =>
    let n := min (Mg.f p 0x10 0 7) 104
    let src := Pk.src p.hdr
    let s := postEvent s 0 10 0 0 (put src 128 14 + put n 160 7 + put (natLE ((p.payload.drop 0x18).take n)) 192 832)
    .next (sendMgmt s src 5 (bytesLE 8 (Mg.seq p))).1

/-- FM_ACK: the FM_SEND whose sequence number it names completes, where it arrived in time (12 R344, 15 R439). -/
def execFmAck (s : State) : Out :=
  match takeMgmt s (fun p => Mg.mtype p == 5) with
  | none => .next s
  | some (t, p, s) =>
    let seq := Mg.f p 0x10 0 32
    match Tbl.find s.fab.fmSends seq with
    | none => .next s
    | some (f, i) =>
      match (s.fn f).active.find? (fun a => a.index == i) with
      | none => .next s
      | some c => if t > c.readAt + fmWait then .next s
        else .next (mbFinish (s.modFab (fun x => { x with fmSends := Tbl.del x.fmSends seq })) f i 0 0)

/-- FM_SEND_TIMEOUT: no FM_ACK has arrived within 200 µs (12 R344, 15 R437). -/
def execFmSendTimeout (slot : MbSlot) (s : State) : Out :=
  match mbFind s slot with
  | none => .next s
  | some c =>
    let acked := s.fab.mgmtIn.any (fun m => Mg.mtype m.2 == 5 && Mg.f m.2 0x10 0 32 == c.arg && decide (m.1 ≤ c.readAt + fmWait))
    if c.opcode != 0x0F || c.started.isNone || c.answer.isSome || acked then .next s
    else
      let s := reach s (c.readAt + fmWait + 64)
      .next (mbFinish (s.modFab (fun x => { x with fmSends := Tbl.del x.fmSends c.arg })) slot.fn c.index Status.timeout.code 0)

end Sys2Proof.Machine
end

