-- ==== Sys2Proof/Machine/Resets.lean ====
section
/-! DEFINITION. The reset of a partition, and what its steps wait for: Bay resets, cache flushes and the answers to outbound requests (18_reset_recovery.md R494, R503, R508, R519, 03_bays.md R78, 06_memory.md R162, 11_fabric.md R321 to R323). -/

namespace Sys2Proof.Machine

/-! The steps of a partition reset (18 R508). -/

/-- The Bays of a partition. -/
def partBays (s : State) (p : Nat) : List Nat := (List.range 32).filter (fun b => s.partOfBay b == p)

/-- Steps 1 to 3: queues stop, every Bay is reset, and the partition's Shelver commands end, those held for a Shelver among them. A second
reset while one runs is merged (18 R508, R521, 07 R221). -/
def startPartReset (s : State) (p : Nat) : State :=
  if resetRuns s 3 p || decide (s.mode ≤ p) then s
  else
    let s := (beginReset s 3 p).modPart p (fun x => { x with resetting := true, flushing := false })
    let s := (partBays s p).foldl resetBay s
    let s := (List.range 32).foldl (fun s sh => abortQueue s sh p (fun _ _ => true)) s
    let held := s.work.cmds.filter (fun c => ctxPart c.2.ctx == p && c.2.phase == .held)
    held.foldl (fun s c => completeCmd s c.1 { status := Status.aborted.code }) s

/-- Whether steps 2 to 4 have ended: Bays reset, Shelver commands done, outbound requests answered. -/
def partStopped (s : State) (p : Nat) : Bool :=
  (partBays s p).all (fun b => (s.bay b).resetAt.isNone) && shelversDone s p && outboundDone s p

/-- Whether no stack runs a maintenance operation of a kind. -/
def maintFree (s : State) (busy : Nat × Nat × Nat → Bool) : Bool :=
  (List.range 8).all (fun k => match (s.stack k).maint with | some m => !busy m | none => true)

/-- Mailbox commands of an opcode in progress that a test picks answered. -/
def answerAll (s : State) (opcode : Nat) (pick : Nat → MbCmd → Bool) (status : Nat) (res : MbCmd → List Nat) : State :=
  (List.range 9).foldl (fun s f => ((s.fn f).active.filter (fun a => a.opcode == opcode && a.started.isSome && pick f a)).foldl (fun s a => mbFinish s f a.index status 0 (res a)) s) s

/-- The partition that a PART_RESET names. -/
def resetTarget (c : MbCmd) : Nat := c.f 0x10 0 3

/-- Step 7: Catalogue state goes, wrappers open but a fenced Bay's, and queues are read again; the Partition-fatal ERROR is posted, and
PART_RESET answers with the time taken (09 R271, 18 R508, R514, R519). -/
def endPartReset (s : State) (p : Nat) : State :=
  let s := dropPartCat s p
  let s := (partBays s p).foldl (fun s b => s.modBay b (fun x => { x with wrapper := if x.fenced then .closed else .open_ })) s
  let s := s.modPart p (fun x => { x with resetting := false, flushing := false })
  let s := (endReset s 3 p).modSeq (fun q => { q with partResets := min 65535 (q.partResets + 1) })
  let s := postError s { block := 17, inst := 0, cause := 0, sev := 3, parts := 2 ^ p, fm := true, action := 5, off := 4, seq := evtSeq s.seq.rstStatus, reg := s.seq.rstStatus.toNat }
  answerAll s 0x71 (fun _ a => resetTarget a == p) 0 (fun a => [(s.now - a.started.getD s.now) / us])

/-- A partition reset taken as far as it can go: step 5 and FLUSH_PART in every MSC once steps 2 to 4 have ended, step 7 once the flushes
have (18 R508). -/
def settlePartReset (s : State) (p : Nat) : State :=
  let x := s.part p
  if !x.resetting then s
  else if !x.flushing then
    if !partStopped s p then s
    else
      let s := endColls s Status.stateLost.code (fun k => ctxPart k.key == p)
      if maintFree s (fun _ => true) then (List.range 8).foldl (fun s k => startMaint s k 2 p 0) (s.modPart p (fun x => { x with flushing := true })) else s
  else if maintFree s (fun m => m.1 == 2 && m.2.1 == p) then endPartReset s p else s

/-- Every partition reset taken as far as it can go. -/
def settlePartResets (s : State) : State := (List.range s.mode).foldl settlePartReset s

/-- PART_RESET (18 R508, R519). -/
def execPartReset (slot : MbSlot) (s : State) : Out :=
  let f := slot.fn.val
  .next (settlePartResets (mbCommand s slot 0x71 (fun _ => true)
    (fun s c => { fields := [(0x10, 0, 3)], range := decide (resetTarget c < s.mode), permitted := f == 0 || resetTarget c == f - 1 })
    (fun s c => .going (startPartReset s (resetTarget c)) 0)))

/-! Events that the steps wait for. -/

/-- A Bay comes out of reset with no stretch (12 R354). -/
def freshClock (s : State) (b : Nat) : State :=
  s.modPwr (fun p => p.setBay b { p.bay b with droop := 0, clip := 0, thermal := 0 })

/-- BAY_RESET_DONE: the reset reports completion and the wrapper opens, unless the Bay is fenced or its partition's reset goes on (18 R503, R508). -/
def execBayResetDone (bay : BayNo) (s : State) : Out :=
  let x := s.bay bay
  if x.resetAt.isNone || x.draining != 0 then .next s
  else
    let shut := x.fenced || (s.part (s.partOfBay bay)).resetting
    let s := (List.range 10).foldl (fun s p => endReset s 1 (bay.val * 16 + p)) (endReset s 2 bay)
    let s := s.modBay bay (fun x => { x with
      resetAt := none, wrapper := if shut then .closed else .open_, coreFence := if x.fenced then x.coreFence else 0#10, coreResets := [] })
    .next (settlePartResets (freshClock s bay))

/-- What an answer lets go on: parked tiles, and partition resets. -/
def answered (s : State) : State := settlePartResets (settleParkedAll s)

/-- WR_ACK (11 R315, 14 R413). -/
def execWrAck (port : FabricPort) (pkt : Packet) (s : State) : Out := .next (answered (response s 3 port pkt))
/-- RD_RESP (11 R315, 14 R413). -/
def execRdResp (port : FabricPort) (pkt : Packet) (s : State) : Out := .next (answered (response s 1 port pkt))
/-- ATOMIC_RESP (11 R315). -/
def execAtomicResp (port : FabricPort) (pkt : Packet) (s : State) : Out := .next (answered (response s 5 port pkt))

/-- FABRIC_DEADLINE: a request's deadline passes with no response, and it ends with TIMEOUT (11 R323, 14 R413). -/
def execFabricDeadline (tag : BitVec 16) (s : State) : Out :=
  match Tbl.find s.fab.tags tag.toNat with
  | none => .next s
  | some r =>
    let s := reach s (r.deadline + 1)
    .next (answered (endRequest (s.modFab (fun f => { f with tags := Tbl.del f.tags tag.toNat })) tag.toNat r Status.timeout.code true []))

/-- TAG_FREE: the oldest stalled request takes a tag; one whose deadline has passed ends with TIMEOUT (11 R321). -/
def execTagFree (s : State) : Out :=
  match s.fab.stalled with
  | [] => .next s
  | r :: rest =>
    let t := s.modFab (fun f => { f with stalled := rest })
    if s.now > r.deadline then .next (answered (endRequest t 65536 r Status.timeout.code true []))
    else if tagFree s (requestPort s (Pk.dst r.pkt.hdr)) then .next (sendRequest t r)
    else .next s

end Sys2Proof.Machine
end

