-- ==== Sys2Proof/Machine/StateImage.lean ====
section
/-! DEFINITION. The state image of a partition (10_volumes.md R301). The spec gives no layout for it: how it is written as bytes is a free value. -/

namespace Sys2Proof.Machine

/-- What PART_EXPORT takes along: contexts, queues, fences, memory objects, commands in flight, jobs, the partition's own records and the
Volumes that bind it. -/
structure PartImage where
  part : Nat := 0
  ctxs : Tbl Ctx := []
  queues : Tbl Queue := []
  fences : Tbl Fence := []
  objs : Tbl MemObj := []
  ctxGens : Tbl Nat := []
  queueGens : Tbl Nat := []
  fenceGens : Tbl Nat := []
  objGens : Tbl Nat := []
  waits : List FenceWait := []
  cmds : Tbl Cmd := []
  jobs : Tbl Job := []
  rec_ : Part := {}
  vols : Tbl Volume := []
  deriving DecidableEq, Repr

end Sys2Proof.Machine

namespace Sys2Proof.Config

/-- The bytes of a state image (10 R301; assumption 3). -/
opaque imageBytes : Machine.PartImage → List Byte
/-- The state image that bytes spell; none where they spell none (10 R301; assumption 3). -/
opaque imageOf : List Byte → Option Machine.PartImage

end Sys2Proof.Config
end

