-- ==== Sys2Proof/Machine/Partitions.lean ====
section
/-! DEFINITION. Partitions as a whole: the partition mode, release and scrub, quiescing, and the move to another part (10_volumes.md R273 to R275, R298 to R301, 17_security.md R488, R489). -/

namespace Sys2Proof.Machine

/-! PART_MODE (10 R273 to R275). -/

/-- The partition of each port that a PART_MODE names. -/
def mapPort (c : MbCmd) (q : Nat) : Nat := c.f (0x20 + q) 0 8

/-- Whether a port map gives every partition 24/n ports. -/
def mapOk (c : MbCmd) (n : Nat) : Bool :=
  (List.range n).all (fun p => ((List.range 24).filter (fun q => mapPort c q == p)).length == 24 / n)

/-- Records of objects that survive a change of mode: those of partitions below the new number. -/
def keepBelow {α : Type} (t : Tbl α) (n width : Nat) : Tbl α := t.filter (fun e => decide (e.1 / width < n))

/-- The work that survives: contexts of partitions that still exist, and their queues whose numbers lie in the partition's new range (10 R275). -/
def modeWork (w : Work) (n : Nat) : Work :=
  let ctxs := Tbl.mapV (keepBelow w.ctxs n 4096) (fun _ c => { c with slot := none, saveOk := false })
  let qs := (w.queues.filter (fun q => Tbl.has ctxs q.2.ctx && q.1 / (65536 / n) == ctxPart q.2.ctx))
  { w with
    ctxs, ctxGens := keepBelow w.ctxGens n 4096, queues := Tbl.mapV qs (fun _ q => { q with resident := none })
    objs := keepBelow w.objs n 65536, objGens := keepBelow w.objGens n 65536
    fences := keepBelow w.fences n (2 ^ 24), fenceGens := keepBelow w.fenceGens n (2 ^ 24)
    waits := w.waits.filter (fun x => decide (x.fence / 2 ^ 24 < n)), jobs := w.jobs.filter (fun j => Tbl.has ctxs j.2.ctx)
    faultRecs := w.faultRecs.filter (fun r => Tbl.has ctxs (r.1 / 65536)) }

/-- SHELF_OWNER masks of every stack for a mode (06 R157). -/
def ownShelves (s : State) (n : Nat) : State :=
  let masks : Tbl Nat := (List.range 16).map (fun i => (i, 2 ^ (i / (16 / n))))
  (List.range 8).foldl (fun s k => s.modStack k (fun x => { x with shelfOwner := masks })) s

/-- Functions of a mode: those that stay keep their registers, new ones are as after reset, the others are gone (15 R424). -/
def modeFns (fns : Tbl Fn) (old n : Nat) : Tbl Fn := fns.filter (fun f => f.1 == 0 || decide (f.1 ≤ min old n))

/-- Shadows and held values of the functions that stay, and of the blocks (00 R3). -/
def modeRegs (r : Regs) (last : Nat) : Regs :=
  let keep := fun (k : Nat) => decide (k < 253 * 4096) || decide (k ≥ 262 * 4096) || decide (k / 4096 ≤ 253 + last)
  { r with shadow := Tbl.keep r.shadow (fun k _ => keep k), held := Tbl.keep r.held (fun k _ => keep k) }

/-- The mode changed: owners, ways, shares, windows, ports and functions written, and the Colophon updated (10 R275). -/
def applyMode (s : State) (n : Nat) (holder : Tbl Nat) : State :=
  let old := s.mode
  let s := ownShelves s n
  let s := modCat s (fun c => { c with entries := [], locals := [], windows := [], misses := [], dlog := c.dlog.filter (fun d => decide (d.1 < n)) })
  let s := s.modMem (fun m => { m with plru := [] })
  let s := s.modFab (fun f => { f with holder })
  let s := { s with regs := modeRegs s.regs (min old n), mode := n, fns := modeFns s.fns old n, parts := s.parts.filter (fun p => decide (p.1 < n)), work := modeWork s.work n }
  let below := fun (p : Nat) => decide (p < n)
  let s := { s with sec := { s.sec with
    policies := s.sec.policies.filter (fun e => below e.1), partKeys := s.sec.partKeys.filter (fun e => below e.1)
    sealedParts := s.sec.sealedParts.filter below, kems := s.sec.kems.filter (fun e => below e.2.part) } }
  colophonChange s (2 ^ n - 1)

/-- PART_MODE: every MSC is flushed, and the mode changes when the flushes have ended (10 R273, R275). -/
def execPartMode (slot : MbSlot) (s : State) : Out :=
  let mode := fun (c : MbCmd) => c.f 0x10 0 4
  let go := fun (s : State) (c : MbCmd) (stage : Nat) =>
    if stage == 0 then
      if !maintFree s (fun _ => true) then MbRes.going s 0
      else .going ((List.range 8).foldl (fun s k => startMaint s k 4 0 0) s) 1
    else if !maintFree s (fun m => m.1 == 4) then .going s 1
    else if !([1, 2, 4, 8].contains (mode c)) then mbFail s .aborted 1
    else mbOk (applyMode s (mode c) (if c.f 0x18 0 1 == 1 then (List.range 24).map (fun q => (q, mapPort c q)) else []))
  .next (mbCommand s slot 3 (fun _ => true)
    (fun _ c => { fields := [(0x10, 0, 4), (0x18, 0, 1), (0x20, 0, 192)], range := [1, 2, 4, 8].contains (mode c), permitted := isFn0 slot })
    (fun s c =>
      if !allIdle s || !s.vols.releases.isEmpty || (c.f 0x18 0 1 == 1 && !mapOk c (mode c)) then mbFail s .aborted 0x10
      else go s c 0)
    (fun s c => go s c c.arg))

/-! PART_RELEASE (10 R298 to R300). -/

def modRelease (s : State) (p : Nat) (f : Release → Release) : State :=
  { s with vols := { s.vols with releases := Tbl.upd s.vols.releases p f } }

/-- Whether a partition's resources are bound in a Volume with more than one member (10 R298). -/
def partAbroad (s : State) (p : Nat) : Bool :=
  s.vols.vols.any (fun v => match v.2.cur with | some m => !isRouting v.1 && decide (m.members.length > 1) && mapUses s p m | none => false)

/-- The steps of SQUASH that need no answer: contexts' destruction begins, the partition's Shelver commands end, its windows go (10 R299). -/
def squashPart (s : State) (p : Nat) : State :=
  let s := modRelease s p (fun r => { r with squash := true })
  let s := (s.work.ctxs.filter (fun c => ctxPart c.1 == p)).foldl (fun s c => beginDestroy s c.1 (p + 1) 65536) s
  let s := (List.range 32).foldl (fun s sh => abortQueue s sh p (fun _ _ => true)) s
  let wins := (s.cat.windows.filter (fun w => w.2.part == p)).map (·.1)
  modCat s (fun c => { c with windows := c.windows.filter (fun w => w.2.part != p), entries := c.entries.filter (fun e => !wins.any (fun w => e.key == 2 ^ 20 + w)) })

/-- Whether the partition's work has ended: under SQUASH its contexts are destroyed; its Volumes go afterwards (10 R299, R300). -/
def releaseIdle (s : State) (p : Nat) (squash : Bool) : Bool :=
  workDone s p && shelversDone s p && outboundDone s p && !(squash && s.work.ctxs.any (fun c => ctxPart c.1 == p))

/-- The single-part Volumes that lie within a partition destroyed (10 R300). -/
def dropPartVols (s : State) (p : Nat) : State :=
  let gone := fun (v : Nat × Volume) => match v.2.cur with
    | some m => !isRouting v.1 && m.members.length == 1 && (match ownEntry s m with | some e => e.parts == 2 ^ p | none => false)
    | none => false
  { s with vols := { s.vols with vols := s.vols.vols.filter (fun v => !gone v) } }

/-- Steps 1 and 2 of the scrub: the partition's keys, its Bays, its MSC ways and its directory ways (17 R488). -/
def scrubKeys (s : State) (p : Nat) : State :=
  let n := 4096 / s.nparts
  { s with sec := { s.sec with
    keys := s.sec.keys.filter (fun k => k.1 / n != p), partKeys := Tbl.del s.sec.partKeys p, kems := s.sec.kems.filter (fun k => k.2.part != p) } }

def scrubBays (s : State) (p : Nat) : State :=
  let s := (partBays s p).foldl (fun s b => s.modBay b (clearBay s.now)) s
  let (w0, w) := partWays s p
  let mine := fun (x : Nat) => decide (w0 ≤ x) && decide (x < w0 + w)
  s.modMem (fun m => { m with msc := m.msc.filter (fun e => !mine e.2.way), dir := m.dir.filter (fun e => !mine e.2.way) })

/-- A release taken as far as it can go without an instant being reached (10 R298 to R300, 17 R488). -/
def advanceRelease (s : State) (p : Nat) : State :=
  match Tbl.find s.vols.releases p with
  | none => s
  | some r =>
    let s := if r.stage == 0 && r.squash then
        (s.work.ctxs.filter (fun c => ctxPart c.1 == p && c.2.state == .destroying)).foldl (fun s c => (finishDestroy s c.1).1) s
      else s
    if r.stage == 0 then
      if releaseIdle s p r.squash then modRelease (startPartReset (dropPartVols s p) p) p (fun r => { r with stage := 1 }) else s
    else if r.stage == 1 && !(s.part p).resetting then
      modRelease (scrubBays (scrubKeys s p) p) p (fun r => { r with stage := 2, cleared := s.now })
    else s

/-- Whether an open round involves a partition. -/
def roundOpen (s : State) (p : Nat) : Bool := s.vols.rounds.any (fun r => roundUses s p r.1 r.2)

/-- PART_RELEASE under DRAIN or SQUASH: an open round is resolved first; then the release begins, and the command completes with its end (10 R298). -/
def partRelease (slot : MbSlot) (squash : Bool) (s : State) : State :=
  let target := fun (c : MbCmd) => c.f 0x10 0 3
  let begin_ := fun (s : State) (c : MbCmd) =>
    let p := target c
    if roundOpen s p then MbRes.going s 0
    else if partAbroad s p then mbFail s .aborted 0x10
    else
      let s := s.modPart p (fun x => { x with releasing := true })
      let r : Release := { cmd := some c.index, limit := s.now + c.f 0x18 0 14 * ms, squash }
      let s := { s with vols := { s.vols with releases := Tbl.put s.vols.releases p r } }
      .going (advanceRelease (if squash then squashPart s p else s) p) 1
  settlePartResets (mbCommand s slot 4 (fun c => (c.f 0x10 8 1 == 1) == squash)
    (fun s c => { fields := [(0x10, 0, 3), (0x10, 8, 1), (0x18, 0, 14)]
                  range := decide (target c < s.mode) && decide (1 ≤ c.f 0x18 0 14) && decide (c.f 0x18 0 14 ≤ 10000), permitted := isFn0 slot })
    (fun s c => if Tbl.has s.vols.releases (target c) then mbFail s .aborted 0x11 else begin_ s c)
    (fun s c => if c.arg == 0 then begin_ s c else .going (advanceRelease s (target c)) 1))

/-- PART_RELEASE with DRAIN: queued and running work completes normally (10 R299). -/
def execPartReleaseDrain (slot : MbSlot) (s : State) : Out := .next (partRelease slot false s)
/-- PART_RELEASE with SQUASH: the partition's work is destroyed (10 R299). -/
def execPartReleaseSquash (slot : MbSlot) (s : State) : Out := .next (partRelease slot true s)

/-- DRAIN_LIMIT: what remains is handled as under SQUASH (10 R299). -/
def execDrainLimit (part : PartNo) (s : State) : Out :=
  match Tbl.find s.vols.releases part with
  | none => .next s
  | some r =>
    if r.squash || r.stage != 0 then .next (settlePartResets (advanceRelease s part))
    else .next (settlePartResets (advanceRelease (squashPart (reach s r.limit) part) part))

/-! The scrub of a released partition's Shelves (17 R488, R489). -/

/-- Granules of a Shelf that are written: all but the Registrar area. -/
def scrubGranules : Nat := 6114 * 16384

/-- First regulation window boundary at least 10 µs after step 2 ended, and the end of the last window (17 R488, R489). -/
def scrubStart (t : Nat) : Nat := (t + 10 * us + 1023) / 1024 * 1024
def scrubEnd (s : State) (t : Nat) : Nat := scrubStart t + (16 / s.nparts * scrubGranules + 8959) / 8960 * 1024

/-- A Shelf zeroed, its tag area included and its Registrar area left out. -/
def zeroShelf (s : State) (shelf : Nat) : State :=
  let b := shelf * 2 ^ 33
  let out := fun (c : Nat) => decide (c < b / 32) || decide ((b + shelfBytes) / 32 ≤ c) || (decide ((b + registrarArea) / 32 ≤ c) && decide (c < (b + tagArea) / 32))
  s.modMem (fun m => { m with dram := Mem.clear (Mem.clear m.dram b (b + registrarArea)) (b + tagArea) (b + shelfBytes), poison := m.poison.filter out })

/-- The Registrar's records of a partition erased (17 R488). -/
def eraseRecords (s : State) (p : Nat) : State :=
  let not_ := fun {α : Type} (width : Nat) (t : Tbl α) => t.filter (fun e => e.1 / width != p)
  let of_ := fun (ctx : Nat) => ctxPart ctx == p
  let s := s.modWork (fun w => { w with
    ctxs := not_ 4096 w.ctxs, ctxGens := not_ 4096 w.ctxGens, queues := w.queues.filter (fun q => !of_ q.2.ctx), queueGens := w.queueGens.filter (fun q => s.partOfQueue q.1 != p)
    objs := not_ 65536 w.objs, objGens := not_ 65536 w.objGens, fences := not_ (2 ^ 24) w.fences, fenceGens := not_ (2 ^ 24) w.fenceGens
    waits := w.waits.filter (fun x => x.fence / 2 ^ 24 != p), cmds := w.cmds.filter (fun c => !of_ c.2.ctx), jobs := w.jobs.filter (fun j => !of_ j.2.ctx)
    heldSince := w.heldSince.filter (fun h => !of_ (h.1 % 2 ^ 16)), heldFor := w.heldFor.filter (fun h => !of_ (h.1 % 2 ^ 16))
    faultRecs := w.faultRecs.filter (fun r => !of_ (r.1 / 65536)) })
  { s with parts := Tbl.del s.parts p, pwr := { s.pwr with hints := s.pwr.hints.filter (fun h => !of_ h.ctx) }
           sec := { s.sec with policies := Tbl.del s.sec.policies p, sealedParts := NSet.rem s.sec.sealedParts p } }

/-- Steps 3 and 4, and the release's end: Shelves zeroed, records erased, seal-map bits cleared, SCRUB_DONE, SHELF_OWNER cleared, and the
command's OK (10 R300, 17 R488). -/
def finishRelease (s : State) (p : Nat) (r : Release) : State :=
  let s := reach s (scrubEnd s r.cleared)
  let shelves := (List.range 128).filter (fun k => s.partOfShelf k == p)
  let s := eraseRecords (shelves.foldl zeroShelf s) p
  let s := s.modOt (fun o => { o with sealMap := o.sealMap.filter (fun g => s.partOfShelf (g * 2 ^ 21 / 2 ^ 33) != p) })
  let s := secEvent s 21 0 0
  let s := (List.range 8).foldl (fun s k => s.modStack k (fun x => { x with shelfOwner := Tbl.mapV x.shelfOwner (fun _ m => m &&& (255 - 2 ^ p)) })) s
  let s := { s with vols := { s.vols with releases := Tbl.del s.vols.releases p } }
  match r.cmd with
  | some i => mbFinish s 0 i 0 0
  | none => s

/-- PARTITION_SCRUB: at the scheduled window boundary the Shelvers zero the partition's Shelves; a release that is not there yet goes on (17 R488). -/
def execPartitionScrub (part : PartNo) (s : State) : Out :=
  let s := advanceRelease s part
  match Tbl.find s.vols.releases part with
  | none => .next s
  | some r => if r.stage == 2 then .next (finishRelease s part r) else .next (settlePartResets s)

/-! Quiescing and moving (10 R301). -/

/-- Tiles placed of a partition. -/
def partTiles (s : State) (p : Nat) : List Nat := (s.work.tiles.filter (fun t => match Tbl.find s.work.cmds t.2.cmd with | some c => ctxPart c.ctx == p | none => false)).map (·.1)

/-- Whether a quiesced partition has come to rest. -/
def quiet (s : State) (p : Nat) : Bool :=
  (partTiles s p).isEmpty && outboundDone s p && shelversDone s p
    && !s.work.parked.any (fun t => match Tbl.find s.work.cmds t.2.tile.cmd with | some c => ctxPart c.ctx == p | none => false)

/-- PART_QUIESCE: every context is pre-empted, queues stop, and outbound requests are awaited (10 R301, step 4). -/
def execPartQuiesce (slot : MbSlot) (s : State) : Out :=
  let p := partOfFn slot
  let done := fun (s : State) => if !(s.part p).quiesced then mbFail s .aborted else if quiet s p then mbOk s else .going s 0
  .next (mbCommand s slot 5 (fun c => c.f 0x10 0 1 == 0)
    (fun _ _ => { fields := [(0x10, 0, 1)], permitted := isPartFn slot })
    (fun s _ => done ((partTiles s p).foldl sendPreempt (s.modPart p (fun x => { x with quiesced := true }))))
    (fun s _ => done s))

/-- PART_QUIESCE with CANCEL: the partition resumes (10 R301). -/
def execPartQuiesceCancel (slot : MbSlot) (s : State) : Out :=
  .next (mbCommand s slot 5 (fun c => c.f 0x10 0 1 == 1)
    (fun _ _ => { fields := [(0x10, 0, 1)], permitted := isPartFn slot })
    (fun s _ => mbOk (markAllSlices (s.modPart (partOfFn slot) (fun x => { x with quiesced := false })))))

/-- Whether a partition holds a sealed page (10 R301, 16 R450). -/
def holdsSealed (s : State) (p : Nat) : Bool := s.ot.sealMap.any (fun g => s.partOfShelf (g * 2 ^ 21 / 2 ^ 33) == p)

/-- The state image of a partition. -/
def imageOfPart (s : State) (p : Nat) : PartImage :=
  let own := fun {α : Type} (width : Nat) (t : Tbl α) => t.filter (fun e => e.1 / width == p)
  let w := s.work
  { part := p, ctxs := own 4096 w.ctxs, queues := w.queues.filter (fun q => s.partOfQueue q.1 == p), fences := own (2 ^ 24) w.fences, objs := own 65536 w.objs
    ctxGens := own 4096 w.ctxGens, queueGens := w.queueGens.filter (fun q => s.partOfQueue q.1 == p), fenceGens := own (2 ^ 24) w.fenceGens, objGens := own 65536 w.objGens
    waits := w.waits.filter (fun x => x.fence / 2 ^ 24 == p), cmds := w.cmds.filter (fun c => ctxPart c.2.ctx == p)
    jobs := w.jobs.filter (fun j => ctxPart j.2.ctx == p), rec_ := s.part p, vols := s.vols.vols.filter (fun v => !isRouting v.1 && volUses s p v.2) }

/-- PART_EXPORT: the image and its length go into the partition's Shelves, and its SHA3-512 digest to the companion (10 R301). -/
def execPartExport (slot : MbSlot) (s : State) : Out :=
  let p := partOfFn slot
  let go := fun (s : State) (c : MbCmd) =>
    if holdsSealed s p then mbFail s .denied
    else
      let bs := Config.imageBytes (imageOfPart s p)
      let all := bytesLE 8 bs.length ++ bs
      match placeObj s p (alignUp all.length pageBytes) false 0xFF with
      | none => mbFail s .resourceExhausted
      | some pa => match engineWrite s { master := 42, part := p, bypass := true } 0 pa all with
        | .wait s => MbRes.going s 0
        | .bad s _ => mbFail s .permission
        | .ok s _ => mbOk (cmWrite s slot.fn (c.f 0x10 0 64) (sha3 all)) [pa, all.length]
  .next (mbCommand s slot 6 (fun _ => true) (fun _ _ => { fields := [(0x10, 0, 64)], permitted := isPartFn slot }) go go)

/-- A state image installed in place of what the partition holds: commands and jobs under numbers of their own here (10 R301). -/
def installImage (s : State) (p : Nat) (m : PartImage) : State :=
  let s := eraseRecords s p
  let cb := s.work.nextCmd
  let jb := s.work.nextJob
  let all := fun {α : Type} (t u : Tbl α) => u.foldl (fun t e => Tbl.put t e.1 e.2) t
  let cmds : Tbl Cmd := m.cmds.map (fun e => (e.1 + cb, { e.2 with job := e.2.job + jb, shelver := none, gangBays := [] }))
  let jobs : Tbl Job := m.jobs.map (fun e => (e.1 + jb, e.2))
  let s := s.modWork (fun w => { w with
    ctxs := all w.ctxs (Tbl.mapV m.ctxs (fun _ c => { c with slot := none, saveOk := false }))
    queues := all w.queues (Tbl.mapV m.queues (fun _ q => { q with resident := none })), fences := all w.fences m.fences, objs := all w.objs m.objs
    ctxGens := all w.ctxGens m.ctxGens, queueGens := all w.queueGens m.queueGens, fenceGens := all w.fenceGens m.fenceGens, objGens := all w.objGens m.objGens
    waits := w.waits ++ m.waits, cmds := all w.cmds cmds, jobs := all w.jobs jobs
    nextCmd := cmds.foldl (fun n e => max n (e.1 + 1)) cb, nextJob := jobs.foldl (fun n e => max n (e.1 + 1)) jb })
  let s := s.setPart p { m.rec_ with releasing := false, quiesced := false, resetting := false, flushing := false }
  { s with vols := { s.vols with vols := m.vols.foldl (fun t v => if Tbl.has t v.1 then t else Tbl.put t v.1 v.2) s.vols.vols } }

/-- PART_IMPORT: an image whose digest matches is installed (10 R301). -/
def execPartImport (slot : MbSlot) (s : State) : Out :=
  let p := partOfFn slot
  let go := fun (s : State) (c : MbCmd) =>
    let pa := c.f 0x50 0 64
    let rq : Rq := { master := 42, part := p, bypass := true }
    match engineRead s rq 0 pa 8 with
    | .wait s => MbRes.going s 0
    | .bad s _ => mbFail s .aborted 0x10
    | .ok s (n, _) => match engineRead s rq 0 pa (8 + natLE n) with
      | .wait s => .going s 0
      | .bad s _ => mbFail s .aborted 0x10
      | .ok s (all, _) =>
        if (sha3Nat all).toNat != c.f 0x10 0 512 then mbFail s .aborted 0x10
        else match Config.imageOf (all.drop 8) with
          | some m => if m.part == p then mbOk (installImage s p m) else mbFail s .aborted 0x11
          | none => mbFail s .aborted 0x11
  .next (mbCommand s slot 7 (fun _ => true) (fun _ c => { fields := [(0x10, 0, 512), (0x50, 0, 64)], range := c.f 0x50 0 64 % 8 == 0, permitted := isPartFn slot }) go go)

end Sys2Proof.Machine
end

