-- ==== Sys2Proof/Machine/Security.lean ====
section
/-! DEFINITION. The security block: identity, firmware images, the Carrel's wipe, Provenance reports, seal policies and keys (17_security.md R464 to R483). -/

namespace Sys2Proof.Machine

def modSec (s : State) (f : Sec → Sec) : State := { s with sec := f s.sec }

/-! Identity (17 R469). -/

/-- A list cut, or filled with zeros, to a length. -/
def fitTo (n : Nat) (bs : List Byte) : List Byte := (bs ++ List.replicate n 0#8).take n

/-- Bytes of a label. -/
def ascii (t : String) : List Byte := t.toList.map (fun c => BitVec.ofNat 8 c.toNat)

/-- Seeds of the DevID key and of the Alias key of the running image. -/
def devSeed : List Byte := (sha3 (ascii "HJDEVID" ++ bytesLE 32 Config.uds.toNat)).take 32
def aliasSeed (s : State) : List Byte :=
  (sha3 (ascii "HJCDI" ++ bytesLE 32 Config.uds.toNat ++ bytesLE 64 s.sec.fwDigest.toNat ++ bytesLE 4 s.sec.imageSecVersion)).take 32

def devPublic : List Byte := fitTo 2592 (Config.dsaPublic devSeed)
def aliasPublic (s : State) : List Byte := fitTo 2592 (Config.dsaPublic (aliasSeed s))
/-- The Alias endorsement. -/
def endorsement (s : State) : List Byte :=
  fitTo 4627 (Config.dsaSign devSeed (sha3 (aliasPublic s ++ bytesLE 64 s.sec.fwDigest.toNat ++ bytesLE 4 s.sec.imageSecVersion)))

/-! The firmware image (17 R470, R471). -/

namespace Fw
def le (image : List Byte) (off n : Nat) : Nat := natLE ((image.drop off).take n)
def fwVersion (i : List Byte) : Nat := le i 0x10 4
def secVersion (i : List Byte) : Nat := le i 0x14 4
def keyIndex (i : List Byte) : Nat := le i 0x18 4
def lcMask (i : List Byte) : Nat := le i 0x1C 4
def signer (i : List Byte) : List Byte := (i.drop 0x20).take 2592
def signature (i : List Byte) : List Byte := (i.drop 0xA40).take 4627
/-- FW_DIGEST. -/
def digest (i : List Byte) : List Byte := sha3 (i.take 0xA40 ++ i.drop 0x2000)
end Fw

/-- The number of the first check of R471 that an image fails; 0 where it passes all. -/
def imageCause (s : State) (i : List Byte) : Nat :=
  let n := i.length
  if !(Fw.le i 0 4 == 0x444D444E && Fw.le i 4 4 == 1 && Fw.le i 8 8 == n && decide (0x2000 ≤ n) && decide (n ≤ 0x600000)) then 1
  else if !(decide (Fw.keyIndex i < 4) && sha3Nat (Fw.signer i) == Config.signerDigest (Fw.keyIndex i) && bitsAt s.sec.revoke (Fw.keyIndex i) 1 == 0) then 2
  else if !(decide (1 ≤ s.sec.lc) && decide (s.sec.lc ≤ 3) && bitsAt (Fw.lcMask i) s.sec.lc 1 == 1) then 3
  else if !Config.dsaVerify (Fw.signer i) (Fw.digest i) (Fw.signature i) then 4
  else if Fw.secVersion i < s.sec.secVersion then 5
  else 0

/-- What an accepted image and the keys derived from it leave (17 R469, R470, R471). -/
def takeImage (s : State) (i : List Byte) : State :=
  modSec s (fun x => { x with fwVersion := Fw.fwVersion i, imageSecVersion := Fw.secVersion i, fwDigest := BitVec.ofNat 512 (natLE (Fw.digest i)), identity := !x.udsKill })

/-! Wipe and tamper (17 R474, R475). -/

/-- A wipe: every region of the Carrel is zero, the XTS and link keys with it; links fail and train again (17 R473, R474, 11 R307). -/
def wipeCarrel (s : State) : State :=
  let s := modSec s (fun x => { x with keys := [], partKeys := [], kems := [], identity := false, challenge := none })
  let s := (List.range 26).foldl (fun s n =>
    if n < 24 && leaderOf s n != n then s
    else
      let up := (linkOf s n).state == 4
      let s := modLink s n (fun l => { l with secret := 0#512 })
      if up then linkFail s n else s) s
  secEvent s 17 0 0

/-- TAMPER: the Carrel is wiped, TAMPER_COUNT advances, TAMPER is set, and a Device-fatal event is reported (17 R475). -/
def execTamper (s : State) : Out :=
  let s := wipeCarrel s
  let s := modSec s (fun x => { x with tamperCount := min 64 (x.tamperCount + 1), tampered := true })
  .next { secEvent s 16 4 0 with smb := { s.smb with alerts := s.smb.alerts ||| 8 } }

/-! Provenance reports (17 R476 to R478). -/

/-- Whether a report can be signed: UDS_KILL clear, and identity keys in the Carrel (17 R469). -/
def canSign (s : State) : Bool := s.sec.identity && !s.sec.udsKill

/-- Bytes 0x0000 to 0x2DA7 of a report (17 R476). -/
def reportBody (s : State) (part : Option Nat) (nonce : List Byte) (kem : Option Nat) : List Byte :=
  let x := s.sec
  let flags := bit kem.isSome + put (bit part.isSome) 1 1 + put (bit x.tampered) 2 1
    + put (bit ((part.map x.sealedParts.contains).getD false)) 3 1 + put (bit s.isolated) 4 1
  let policy := match part.bind (Tbl.find x.policies) with | some p => p.digest.toNat | none => 0
  bytesLE 4 0x564F5250 ++ bytesLE 2 0x0100 ++ bytesLE 2 flags ++ bytesLE 4 16320 ++ bytesLE 4 (0x9416 + put 0xB0 16 8)
    ++ bytesLE 4 (s.fab.deviceId + put (bitsAt s.seq.straps.toNat 4 3) 16 3) ++ bytesLE 4 (x.lc + put (part.getD 0xFF) 8 8 + put s.mode 16 4)
    ++ bytesLE 8 s.now ++ bytesLE 4 x.secVersion ++ bytesLE 4 x.imageSecVersion ++ bytesLE 4 x.fwVersion ++ bytesLE 4 x.tamperCount
    ++ fitTo 64 nonce ++ bytesLE 64 x.fwDigest.toNat ++ bytesLE 64 policy ++ sha3 (colophonBytes { s with colophon := {} } part)
    ++ devPublic ++ aliasPublic s ++ endorsement s ++ bytesLE 5 0 ++ (match kem with | some k => fitTo 1568 (Config.kemPublic k) | none => bytesLE 1568 0)

/-- A whole report (17 R476). -/
def report (s : State) (body : List Byte) : List Byte := body ++ fitTo 4627 (Config.dsaSign (aliasSeed s) (sha3 body)) ++ bytesLE 5 0

/-- An ephemeral KEM key's handle (17 R477). -/
def kemHandle (i : Nat) (k : KemKey) : Nat := i + 32 * k.gen

/-- The slot of a partition's next ephemeral key: a free one of its four, or that of its oldest (17 R477). -/
def kemSlot (s : State) (p : Nat) : Nat :=
  match (List.range 4).find? (fun j => !Tbl.has s.sec.kems (4 * p + j)) with
  | some j => 4 * p + j
  | none =>
    let g := fun (i : Nat) => ((Tbl.find s.sec.kems i).map (·.gen)).getD 0
    (List.range 4).foldl (fun b j => if g (4 * p + j) < g b then 4 * p + j else b) (4 * p)

/-- ATTEST (17 R477). -/
def execAttest (slot : MbSlot) (s : State) : Out :=
  let f := slot.fn.val
  let part := if f == 0 then none else some (f - 1)
  .next (mbCommand s slot 0x61 (fun _ => true)
    (fun _ c => { fields := [(0x10, 0, 1), (0x18, 0, 512), (0x58, 0, 64)], range := c.f 0x58 0 64 % 64 == 0 })
    (fun s c =>
      let want := c.f 0x10 0 1 == 1
      let nonce := bytesLE 64 (c.f 0x18 0 512)
      if !canSign s || (want && (f == 0 || !Tbl.has s.sec.policies (f - 1))) then mbFail s .denied
      else if !want then mbOk (cmWrite s f (c.f 0x58 0 64) (report s (reportBody s part nonce none))) [16320, 0]
      else
        let (n, s) := s.fresh
        let body := reportBody s part nonce (some n)
        let i := kemSlot s (f - 1)
        let k : KemKey := { part := f - 1, gen := s.sec.kemGen, stamp := s.now, rd := sha3Nat body, seed := n }
        let s := modSec s (fun x => { x with kems := Tbl.put x.kems i k, kemGen := x.kemGen + 1 })
        mbOk (cmWrite s f (c.f 0x58 0 64) (report s body)) [16320, kemHandle i k]))

/-- The life of an ephemeral key (17 R477). -/
def kemLife : Nat := 600 * 1000 * ms

/-- KEM_KEY_EXPIRY: an ephemeral key is destroyed 600 s after its STAMP (17 R477). -/
def execKemKeyExpiry (key : Fin 32) (s : State) : Out :=
  match Tbl.find s.sec.kems key with
  | none => .next s
  | some k => .next (modSec (reach s (k.stamp + kemLife)) (fun x => { x with kems := Tbl.del x.kems key }))

/-- A response of the board controller's port (19 R538). -/
def smbReply (s : State) (code : Nat) (bs : List Byte := []) : State := { s with smb := { s.smb with code, reply := bs } }

/-- A request that is acknowledged from step 5 of start-up on, is answered busy while another is in progress, and is served in SERVING, or
always (17 R478, 19 R537, R538). -/
def smbServed (s : State) (always : Bool) (body : State → State) : State :=
  if s.seq.step < 5 then s
  else if s.now < s.smb.until_ then smbReply s 2
  else if !always && (s.seq.resetFail || s.seq.fwState != 1) then smbReply s 4
  else body s

/-- GET_PROVENANCE: the device-scope report, sent across MCTP packets for a time that the spec does not give (17 R478, 19 R538). -/
def execGetProvenance (nonce : BitVec 512) (s : State) : Out :=
  .next (smbServed s false (fun s =>
    if !canSign s then smbReply s 1
    else
      let (n, s) := s.fresh
      let s := smbReply s 0 (report s (reportBody s none (bytesLE 64 nonce.toNat) none))
      { s with smb := { s.smb with until_ := s.now + (Config.freeWord n).toNat } }))

/-! Seal policies and keys (17 R480 to R482). -/

/-- A partition's key slots (17 R473). -/
def keyRange (s : State) (p k : Nat) : Bool := k / (4096 / s.nparts) == p

/-- Whether a policy block is well formed: COUNT from 1 to 64 digests (17 R481). -/
def policyOk (bs : List Byte) : Bool :=
  let h := natLE (bs.take 8)
  let n := h % 256
  decide (1 ≤ n) && decide (n ≤ 64) && decide (h < 512) && decide (8 + 64 * n ≤ bs.length)

/-- SEAL_POLICY: the policy block that its companion address holds (17 R480, R481). -/
def execSealPolicy (slot : MbSlot) (policy : List Byte) (s : State) : Out :=
  let p := partOfFn slot
  .next (mbCommand s slot 0x60 (fun _ => true)
    (fun _ _ => { fields := [(0x10, 0, 64)], permitted := isPartFn slot })
    (fun s _ =>
      let used := s.sec.keys.any (fun k => keyRange s p k.1) || s.work.objs.any (fun o => o.1 / 65536 == p && o.2.image.isSome)
      if used || !policyOk policy then mbFail s .aborted 0x10
      else
        let n := natLE (policy.take 1)
        let blk := policy.take (8 + 64 * n)
        let d := sha3Nat blk
        let pol : Policy := { digests := (chunks 64 (blk.drop 8)).map (fun b => BitVec.ofNat 512 (natLE b)), allowPeer := bitsAt (natLE (policy.take 8)) 8 1 == 1, digest := d }
        mbOk (modSec s (fun x => { x with policies := Tbl.put x.policies p pol })) ((List.range 4).map (fun i => fld d (8 * i) 0 64))))

/-- An ephemeral key that a handle names, of a partition and not expired. -/
def findKem (s : State) (p h : Nat) : Option (Nat × KemKey) :=
  match Tbl.find s.sec.kems (h % 32) with
  | some k => if kemHandle (h % 32) k == h && k.part == p && decide (s.now < k.stamp + kemLife) then some (h % 32, k) else none
  | none => none

/-- The payload of a key blob opened with an ephemeral key (17 R482). -/
def openBlob (k : KemKey) (blob : List Byte) : Option (List Byte) :=
  let rd := bytesLE 64 k.rd.toNat
  let ss := fitTo 32 (Config.kemDecap k.seed (blob.take 1568))
  let kek := (sha3 (ss ++ rd)).take 32
  gcmOpen kek (List.replicate 12 0#8) rd ((blob.drop 1568).take 48) ((blob.drop 1616).take 16)

/-- A refused import (17 R493). -/
def importFail (s : State) (p : Nat) (st : Status) (d : Nat) : MbRes := mbFail (secEvent s 19 2 (2 ^ p)) st d

/-- A weight key placed in its slot; the first marks the partition sealed and draws its page keys (17 R481, R482, R484). -/
def placeKey (s : State) (p n : Nat) (pt : List Byte) : State :=
  let k : KeySlot := { key := BitVec.ofNat 256 (natLE (pt.take 32)), salt := BitVec.ofNat 32 (natLE ((pt.drop 32).take 4)), id := BitVec.ofNat 32 (natLE ((pt.drop 36).take 4)) }
  let (i, s) := if Tbl.has s.sec.partKeys p then (0, s) else s.fresh
  modSec s (fun x => { x with
    keys := Tbl.put x.keys n k, sealedParts := NSet.ins x.sealedParts p
    partKeys := if Tbl.has x.partKeys p then x.partKeys else Tbl.put x.partKeys p (Config.freeWide i) })

/-- KEY_IMPORT: a weight key decapsulated, unwrapped and placed; the ephemeral key is destroyed whatever comes of it (17 R480, R482). -/
def execKeyImport (slot : MbSlot) (blob : List Byte) (s : State) : Out :=
  let p := partOfFn slot
  .next (mbCommand s slot 0x62 (fun _ => true)
    (fun s c => { fields := [(0x10, 0, 64), (0x18, 0, 12), (0x20, 0, 64)], permitted := isPartFn slot && keyRange s p (c.f 0x18 0 12), handles := (findKem s p (c.f 0x10 0 64)).isSome })
    (fun s c => match findKem s p (c.f 0x10 0 64) with
      | none => mbFail s .staleHandle 3
      | some (i, k) =>
        let n := c.f 0x18 0 12
        let s := modSec s (fun x => { x with kems := Tbl.del x.kems i })
        if Tbl.has s.sec.keys n then importFail s p .aborted 0x10
        else match openBlob k blob with
          | none => importFail s p .denied 0
          | some pt => if natLE (pt.drop 40) != 0 then importFail s p .aborted 0x11 else mbOk (placeKey s p n pt)))

/-- KEY_DESTROY: the slot is empty afterwards (17 R480). -/
def execKeyDestroy (slot : MbSlot) (s : State) : Out :=
  let p := partOfFn slot
  .next (mbCommand s slot 0x63 (fun _ => true)
    (fun s c => { fields := [(0x10, 0, 12)], permitted := isPartFn slot && keyRange s p (c.f 0x10 0 12) })
    (fun s c => mbOk (modSec s (fun x => { x with keys := Tbl.del x.keys (c.f 0x10 0 12) }))))

/-- PEER_READ: a peer's DevID digest; ISOLATED where the port is not UP (17 R479, R480). -/
def execPeerRead (slot : MbSlot) (s : State) : Out :=
  .next (mbCommand s slot 0x64 (fun _ => true)
    (fun _ c => { fields := [(0x10, 0, 5)], range := decide (c.f 0x10 0 5 < 26), permitted := isFn0 slot })
    (fun s c =>
      let n := c.f 0x10 0 5
      let l := if n < 24 then leaderOf s n else n
      let d := Tbl.getD s.sec.peers l 0#512
      if (linkOf s n).state != 4 then mbFail s .isolated else mbOk s ((List.range 4).map (fun i => fld d (8 * i) 0 64))))

/-! Fuses (17 R465, R472, 15 R435, 03 R77). -/

/-- Rows of a Bay whose soft repair is not in fuses. -/
def softRows (x : Bay) : Nat :=
  (List.range 16).foldl (fun n b => if bitsAt x.spareUnfused.toNat b 1 == 1 then n + (sparesUsed x b - bitsAt x.spareFused.toNat (4 * b) 4) else n) 0

/-- The longest program pulse (17 R465). -/
def pulseNs : Nat := 12 * us

/-- A program pulse begun (17 R465, 18 R502). -/
def beginPulse (s : State) : State := s.modSeq (fun q => { q with fusePulse := some (s.now + pulseNs) })

/-- MAINT_FUSE: soft repairs become permanent, and SEC_VERSION rises to the running image's; it completes when the pulse has ended (15 R435, 17 R472). -/
def execMaintFuse (slot : MbSlot) (s : State) : Out :=
  let done := fun (s : State) (n : Nat) => if s.seq.fusePulse.isSome then MbRes.going s n else mbOk s [n]
  .next (mbCommand s slot 0x0E (fun _ => true)
    (fun _ _ => { fields := [], permitted := isFn0 slot })
    (fun s _ =>
      let n := (List.range 32).foldl (fun n b => n + softRows (s.bay b)) 0
      if s.sec.fusedRows + n > Config.fuseRoom then mbFail s .resourceExhausted
      else
        let s := (List.range 32).foldl (fun s b => if softRows (s.bay b) == 0 then s else s.modBay b (fun x => { x with spareFused := x.spareUsed, spareUnfused := 0#16 })) s
        let raised := decide (s.sec.secVersion < s.sec.imageSecVersion)
        let s := modSec s (fun x => { x with fusedRows := x.fusedRows + n, secVersion := max x.secVersion (min 256 x.imageSecVersion) })
        let s := if raised then secEvent s 18 0 0 else s
        if n == 0 && !raised then mbOk s [0] else .going (beginPulse s) n)
    (fun s c => done s c.arg))

end Sys2Proof.Machine
end

