-- ==== Sys2Proof/Machine/Recovery.lean ====
section
/-! DEFINITION. The reset sequencer: power, RESET_N, start-up and boot, Registrar failover and restart, device warm resets and their escalation, and what survives them (18_reset_recovery.md R494 to R522, 17_security.md R467). -/

namespace Sys2Proof.Machine

/-- A bit of RST_STATUS set, with its event sequence (18 R522, 00 R5). -/
def setRst (s : State) (b : Nat) : State := s.modSeq (fun q => { q with rstStatus := statusFlag q.rstStatus b })

/-- An event of the sequencer reported (18 R507, R515). -/
def seqError (s : State) (b sev parts action : Nat) : State :=
  let s := setRst s b
  let r := s.seq.rstStatus
  postError s { block := 17, inst := 0, cause := b, sev, parts, fm := decide (sev ≥ 3), action, off := 4, seq := evtSeq r, reg := r.toNat }

/-! Power (18 R495, 19 R532). -/

/-- What is left of a part without power: its fuses and what was made of it; everything else is at its reset value (18 R520). -/
def powerLost (s : State) : State :=
  let x := s.sec
  { State.reset with
    pending := s.pending, free := s.free, sites := s.sites
    bays := (List.range 32).filterMap (fun b => if (s.bay b).spareFused == 0#64 then none else
      some (b, ({ spareUsed := (s.bay b).spareFused, spareFused := (s.bay b).spareFused } : Bay)))
    sec := { lc := x.lc, udsKill := x.udsKill, secVersion := x.secVersion, revoke := x.revoke, tamperCount := x.tamperCount, serial := x.serial, fusedRows := x.fusedRows } }

/-- POWER_ON_RESET: the rails are within limits, the internal power-on reset is released, and Datestamp starts from 0 (18 R495, R497, 12 R335). -/
def execPowerOnReset (s : State) : Out :=
  if s.seq.railsGood then .next s else .next ((powerLost s).modSeq (fun q => { q with railsGood := true, resetN := s.seq.resetN }))

/-- RAIL_BELOW_THRESHOLD: every block is held in power-on reset, and the state is lost (19 R532). -/
def execRailBelowThreshold (s : State) : Out := .next (powerLost s)

/-! What stops at a restart or a warm reset (18 R511, R520). -/

/-- Every Bay reset at once: its lines return to their homes, it is cleared, and its wrapper stays closed. -/
def closeBays (s : State) : State :=
  (List.range 32).foldl (fun s b =>
    let s := (List.range 6).foldl (fun s c => flushL1 s (b * 6 + c)) s
    s.modBay b (fun x => { clearBay s.now x with resetAt := none, wrapper := .closed })) s

/-- Every Shelver reset: what it ran is lost with its destination undefined (07 R208, R221). -/
def closeShelvers (s : State) : State :=
  (List.range 32).foldl (fun s sh => (cutAll s sh Status.stateLost.code).modShelver sh (fun x => { x with resetting := true, active := 0xF, heldOn := [], doomed := [] })) s

/-- Every MSC that is not behind self-refresh already begins its flush (06 R180). -/
def flushStacks (s : State) : State :=
  let ks := (List.range 8).filter (fun k => !(s.stack k).selfRefresh)
  let s := ks.foldl (fun s k => startMaint (s.modStack k (fun x => { x with maint := none })) k 4 0 0) s
  s.modSeq (fun q => { q with flushing := ks })

/-- A fabric link as a warm reset leaves it, to be trained again (18 R520). -/
def dropLinks (s : State) : State :=
  (List.range 24).foldl (fun s n =>
    if leaderOf s n != n then s
    else
      let s := timeLinkLost (modLink s n (fun l => l.fresh 0 s.now)) n
      let s := { s with sec := { s.sec with peers := Tbl.del s.sec.peers n } }
      s.modFport n (fun x => { x with members := [], peer := none })) s

/-- A Registrar restart (kind 1) or a device warm reset (kind 2) begins: wrappers close, outbound requests are dropped, and the MSCs are
flushed. A warm reset that meets a restart goes on from where it is, and a second one is merged (18 R501, R511, R520, R521). -/
def beginRestart (s : State) (kind cause : Nat) (reload : Bool) : State :=
  if s.seq.restart == 3 || s.seq.restart == 2 || s.seq.restart == kind || s.seq.resetFail then s
  else
    let first := s.seq.restart == 0
    let s := if first then closeShelvers (closeBays s) else s
    let s := s.modFab (fun f => { f with tags := [], stalled := [] })
    let s := if first then flushStacks s else s
    let s := if kind == 2 then dropLinks s else s
    s.modSeq (fun q => { q with
      restart := kind, restartAt := s.now, flushLost := if first then false else q.flushLost, fatalPosted := false, reload := reload || kind == 1
      rstCause := BitVec.ofNat 32 cause, fwState := if kind == 1 then 3 else 0, standby := false, healthy0 := false, healthy1 := false
      brState := if bitsAt q.straps.toNat 0 2 == 3 && (reload || kind == 1) then 1 else 0, loading := false, bootImage := [], loadCause := 0, bootCause := 0
      running := [(if kind == 1 then 6 else 4, 0, s.now)], ladder := if kind == 1 then none else some (4, 0, s.now)
      warmResets := if kind == 2 then min 65535 (q.warmResets + 1) else q.warmResets
      rstStatus := if kind == 1 then statusFlag q.rstStatus 21 else q.rstStatus })

/-- A device warm reset requested; one that reaches a fuse program pulse waits for its end (18 R502). -/
def warmReset (s : State) (cause : Nat) (reload : Bool) : State :=
  if s.seq.fusePulse.isSome then s.modSeq (fun q => { q with fuseWaits := q.fuseWaits ++ [(cause, bit reload)] }) else beginRestart s 2 cause reload

/-! What comes back at SERVING (18 R511, R512, R520). -/

/-- A stack controller after a restart: reset values, with masks, guarantees and controls restored; requests of Bays, engines and Shelvers are
squashed, those of the companion kept (06 R180). -/
def stackBack (x : Stack) : Stack :=
  { x with
    status := 0#32, queue := x.queue.filter (fun r => match r.src with | .otfold _ _ => true | _ => false), answer := none, enforcing := false
    maintStatus := 0#32, maint := none, pfDrops := 0#32, streams := [], ranges := [], eccCorr := 0#32, errAddr := 0#64, scrubPasses := 0#32, scrubAt := 0
    guar := x.guarNext.foldl (fun g e => Tbl.put g e.1 e.2) x.guar, guarNext := [], used := [], usedNow := [], selfRefresh := false, cohStatus := 0#32, dirRecalls := 0#32
    farAtomics := 0#32, farLines := [] }

/-- Stacks, MSC bookkeeping and the Catalogue as the Registrar restores them (06 R180, 09 R271). -/
def restoreMemory (s : State) : State :=
  let s := (List.range 8).foldl (fun s k => s.modStack k stackBack) s
  let s := s.modMem (fun m => { m with plru := [] })
  modCat s (fun c => { c with status := 0#32, missCount := 0#32, faultCount := 0#32, walkMax := 0#32, entries := [], misses := [], invals := [], locals := [] })

/-- A tile that was placed goes back to its DISPATCH, to be replayed from its checkpoint; a gang's tiles are placed together again (18 R520). -/
def tileBack (s : State) (t : Tile) : State :=
  match Tbl.find s.work.cmds t.cmd with
  | none => s
  | some c =>
    if cmdDying s c then s
    else
      let s := if t.step == 0 then s else charge s c.job c.ctx { replays := 1 }
      modCmd s t.cmd (fun c => { c with
        unplaced := if c.gang then NSet.ins c.unplaced t.index else c.unplaced
        urgent := if c.gang then c.urgent else NSet.ins c.urgent t.index
        gangBays := [], gangStart := none
        suspects := match t.hang with | some g => Tbl.put c.suspects t.index g | none => c.suspects })

/-- Jobs, contexts and totals at the last write of the Ledger; jobs open across the restart carry GAP (14 R421). -/
def ledgerBack (w : Work) : Work :=
  { w with
    jobs := Tbl.mapV w.jobs (fun k j => { j with counts := Tbl.getD w.ledgerSaved k {}, gap := true })
    ctxs := Tbl.mapV w.ctxs (fun k c => { c with counts := Tbl.getD w.ledgerCtxs k {}, slot := none, saveOk := false })
    queues := Tbl.mapV w.queues (fun _ q => { q with resident := none }), partCounts := w.ledgerPart, idleNj := w.ledgerIdle }

/-- Contexts and queues whose destruction the restart met are destroyed (13 R395, R396). -/
def finishDestroys (s : State) : State :=
  let s := (s.work.ctxs.filter (fun c => c.2.state == .destroying)).foldl (fun s c => (finishDestroy s c.1).1) s
  (s.work.queues.filter (fun q => q.2.destroyAt.isSome)).foldl (fun s q =>
    deleteQueue ((s.work.cmds.filter (fun c => c.2.queue == q.1)).foldl (fun s c => dropCmd s c.1) s) q.1) s

/-- Work after a restart: Ledger counters, tiles, Shelver commands and collectives (18 R511, R520). -/
def restoreWork (s : State) : State :=
  let tiles := s.work.tiles.map (·.2) ++ (s.work.parked.filter (fun p => decide (p.2.tile.step > 4) && !Tbl.has s.work.tiles p.1)).map (·.2.tile)
  let s := s.modWork (fun w => { ledgerBack w with tiles := [], done := [], parked := [], faultRecs := [], heldSince := [], heldFor := [] })
  let s := tiles.foldl tileBack { s with reports := [] }
  let lost := s.work.cmds.filter (fun c => c.2.shelver.isSome)
  let s := lost.foldl (fun s c => completeCmd s c.1 { status := Status.stateLost.code }) s
  let s := endColls s Status.stateLost.code (fun _ => true)
  let s := finishDestroys s
  { s with
    shelvers := Tbl.mapV s.shelvers (fun _ x => { ctrl := x.ctrl, watchdog := x.watchdog, queues := x.queues.map (fun (q : Nat × ShQueue) => (q.1, { q.2 with rd := q.2.wr })), fenced := x.fenced })
    parts := Tbl.mapV s.parts (fun _ p => { p with resetting := false, flushing := false })
    vols := { s.vols with migrations := (s.vols.migrations.filter (fun m => m.2.copied)).map (fun (m : Nat × Migration) => (m.1, { m.2 with lost := true })) } }

/-- Releases begin again under SQUASH, their commands ended (10 R300). -/
def restoreReleases (s : State) : State :=
  s.vols.releases.foldl (fun s r => squashPart (modRelease s r.1 (fun x => { x with cmd := none, stage := 0 })) r.1) s

/-- Mailbox commands that had started complete with STATE_LOST, but DEVICE_RESET with OK; the others are performed now (15 R434, 18 R519). -/
def restoreMailboxes (s : State) : State :=
  (List.range 9).foldl (fun s f => ((s.fn f).active.filter (fun a => a.started.isSome && a.answer.isNone)).foldl (fun s a =>
    if f == 0 && s.seq.resetReply == some a.index then mbFinish s f a.index 0 0 else mbFinish s f a.index Status.stateLost.code 0) s) s

/-- A bit of FN_STATUS set and its event posted on every function (15 R423, R434, R438). -/
def tellAll (s : State) (b type body : Nat) : State :=
  (List.range 9).foldl (fun s f => if s.fnExists f then postEvent (s.modFn f (fun x => { x with status := statusFlag x.status b })) f type 0 0 body else s) s

/-- ERROR for a failover or a restart, which the fabric manager must act on: the flag of function 0's FN_STATUS, on the pair (18 R514, R515, R518). -/
def pairError (s : State) (pair b sev action : Nat) : State :=
  let r := (s.fn 0).status
  postError s { block := 12, inst := pair, cause := b, sev, parts := if sev == 3 then 2 ^ s.mode - 1 else 0, fm := true, action, off := 4, seq := evtSeq r, reg := r.toNat }

/-- Bays after a restart: wrappers open but a fenced Bay's. A warm reset tests a fenced Bay again, and it is available where the test passes,
which is a free value (18 R506; assumption 3). -/
def openBays (s : State) (test : Bool) : State :=
  (List.range 32).foldl (fun s b =>
    let x := s.bay b
    if !x.fenced then s.modBay b (fun x => { x with wrapper := .open_, coreFence := 0#10 })
    else if !test then s
    else
      let (n, s) := s.fresh
      if (Config.freeWord n).toNat % 2 == 1 then s.modBay b (fun x => { x with fenced := false, coreFence := 0#10, wrapper := .open_, test := { x.test with redirected := [] } })
      else s) s

/-- The power controller after a warm reset: the time unit, the energy counters, the boost record and the isolated mode stay (12 R335, R359, R363). -/
def powerBack (s : State) : State :=
  s.modPwr (fun p => { p with
    status := 0#32, ctrl := (p.ctrl &&& 0xFFFFFFFA#32) ||| 4#32, cap := 0x3E8, droops := 0#32, clips4 := 0, clips2 := 0, bays := []
    vols := Tbl.mapV p.vols (fun _ v => { target := v.target }), hints := [], clip4 := false, clip2 := false, clip60 := false, capped := false, boostHold := 0 })

/-- Blocks that a warm reset alone resets, and the links trained again (18 R520, 11 R303, 17 R467). -/
def warmBack (s : State) : State :=
  let s := powerBack s
  let s := { s with
    regs := {}, corr := [], sec := { s.sec with status := 0#32, challenge := none }, shelvers := Tbl.mapV s.shelvers (fun _ x => { queues := x.queues, ctrl := x.ctrl })
    fab := { s.fab with status := 0#32, margin := 0x14#32, noRoute := 0#32, loops := 0#32, malformed := 0#32, engines := [], out := [], concIn := [], mgmtIn := [], fmSends := [] }
    nets := { s.nets with held := [], queues := [], requests := [] } }
  (List.range 24).foldl (fun s n => if leaderOf s n == n && linkEnabled s n then enterTrain s n else s) s

/-- Every context destroyed, where a flush lost lines (18 R512, 13 R395). -/
def destroyAll (s : State) : State :=
  s.work.ctxs.foldl (fun s c => (finishDestroy (beginDestroy s c.1 (ctxPart c.1 + 1) 65536) c.1).1) s

/-- FW_STATE becomes SERVING (18 R497, R511, R520). -/
def serving (s : State) : State :=
  let k := s.seq.restart
  let s := s.modSeq (fun q => { q with
    restart := 0, fwState := 1, step := 12, brState := 3, attempts := 0, tries := 0, loading := false, bootImage := [], running := [], ladder := none, activePair := 0
    healthy0 := true, healthy1 := true, standby := true, flushing := [], fatalPosted := false, hangs := []
    startTime := if k == 3 then (s.now - q.startAt) / us else q.startTime, fnZeroOnly := q.fnZeroOnly || (k == 2 && q.persistentFault) })
  let s := { s with nets := { s.nets with routedLinks := s.nets.failedLinks, routedRouters := s.nets.failedRouters, tablesStale := false } }
  if k == 3 then s
  else
    let s := restoreWork (restoreMemory s)
    let s := if k == 2 then warmBack s else { s with fab := { s.fab with concIn := [], mgmtIn := [], fmSends := [] } }
    let s := restoreReleases (restoreMailboxes s)
    let s := if s.seq.flushLost then destroyAll s else s
    let s := openBays (s.modSeq (fun q => { q with resetReply := none, flushLost := false })) (k == 2)
    let s := { s with fns := Tbl.mapV s.fns (fun _ x => { x with heartbeat := 0#32, beatAt := s.now }) }
    let s := tellAll s 19 12 (put s.sec.fwVersion 128 32)
    let s := if k == 1 then pairError s 0 19 3 7 else s
    (List.range 8).foldl (fun s k => issueQueue s k (s.stack k).queue.length) s

/-- An image is ready to start: at once where the flushes have ended and RESET_N is high (18 R497, R501). -/
def ready (s : State) : Bool := s.seq.restart != 0 && s.seq.flushing.isEmpty && s.seq.resetN && s.seq.railsGood && decide (3 ≤ s.seq.step) && !s.seq.resetFail

/-- A warm reset that does not read its image again starts with the one it has, once it is ready (18 R519). -/
def startHeld (s : State) : State := if ready s && s.seq.restart == 2 && !s.seq.reload then serving (modSec s (fun x => { x with identity := !x.udsKill })) else s

/-! The flush before self-refresh (06 R180). -/

/-- A stack whose flush has ended enters self-refresh. -/
def flushed (s : State) (k : Nat) : State :=
  if !s.seq.flushing.contains k then s
  else startHeld ((s.modStack k (fun x => { x with selfRefresh := true })).modSeq (fun q => { q with flushing := NSet.rem q.flushing k }))

/-- MSC_MAINT_DONE: the walk ends once no recall is outstanding; BUSY clears and DONE is set (06 R162). -/
def execMscMaintDone (k : StackNo) (s : State) : Out :=
  match (s.stack k).maint with
  | none => .next s
  | some (op, part, shelf) =>
    if s.mem.txns.any (fun t => stackOf (128 * t.1) == k.val && t.2.req == .outside true) then .next s
    else
      let s := maintWalk s k op part shelf
      .next (flushed (settlePartResets (s.modStack k (fun x => { x with maint := none, maintStatus := statusFlag (x.maintStatus &&& ~~~0x10000#32) 17 }))) k)

/-- MSC_FLUSH_LIMIT: 1 ms has passed; each dirty line that is left is lost or was written, which is a free value, and a Device-fatal event is
reported (06 R180, 18 R512; assumption 3). -/
def execMscFlushLimit (k : StackNo) (s : State) : Out :=
  if !s.seq.flushing.contains k.val then .next s
  else
    let s := reach s (s.seq.restartAt + ms)
    let mine := Tbl.keep s.mem.msc (fun l _ => stackOf (128 * l) == k.val)
    let s := mine.foldl (fun s e =>
      if e.2.dirtyMask == 0 then mscDrop s e.1
      else
        let (n, s) := s.fresh
        mscDrop (if (Config.freeWord n).toNat % 2 == 1 then writeBackLine s { bypass := true } e.1 else s) e.1) s
    let s := (s.modStack k (fun x => { x with maint := none })).modSeq (fun q => { q with flushLost := true })
    .next (flushed (postError s { block := 6, inst := k, cause := 0, sev := 4, fm := true, action := 7 }) k)

/-! RESET_N and start-up (18 R495 to R498, R501). -/

/-- Steps 3 to 8 of start-up: fuses sensed, a cut life-cycle step completed, Otfold ports brought up, and the image's source chosen (17 R467, 18 R497, R498). -/
def beginBoot (s : State) : State :=
  let s := if s.sec.udsKill && s.sec.lc == 2 then secEvent (modSec s (fun x => { x with lc := 3 })) 22 0 0 else s
  let src := bitsAt s.seq.straps.toNat 0 2
  let s := s.modSeq (fun q => { q with step := 8, brState := if src == 3 then 1 else 0, loadCause := 0, bootCause := 0 })
  let s := [24, 25].foldl (fun s n => if (linkOf s n).state == 0 && linkEnabled s n then enterTrain s n else s) s
  if src == 2 then [0, 1, 2, 3, 4, 5, 18].foldl (fun s n => if (linkOf s n).state == 0 then enterTrain s n else s) s else s

/-- RESET_N_FALL: the assertion filter starts (18 R495). -/
def execResetNFall (s : State) : Out :=
  if !s.seq.railsGood || !s.seq.resetN then .next s else .next (s.modSeq (fun q => { q with resetN := false, fellAt := some s.now }))

/-- SHORT_PULSE: RESET_N rises before 1 µs, and the pulse is ignored (18 R495). -/
def execShortPulse (s : State) : Out :=
  if s.seq.fellAt.isNone then .next s else .next (setRst (s.modSeq (fun q => { q with resetN := true, fellAt := none })) 16)

/-- RESET_N_ASSERT: after 1 µs low a device warm reset is requested; before SERVING start-up is to begin again (18 R495, R501). -/
def execResetNAssert (s : State) : Out :=
  match s.seq.fellAt with
  | none => .next s
  | some t =>
    let s := (reach s (t + us)).modSeq (fun q => { q with fellAt := none, warmHeld := true })
    if s.seq.restart == 3 then .next (s.modSeq (fun q => { q with step := 0 }))
    else .next (warmReset s 1 true)

/-- RESET_N_RISE: straps are latched, and start-up begins, or goes on where a warm reset has waited (18 R495 to R497, R501). -/
def execResetNRise (clkMode : Fin 4) (slot : Fin 8) (bootSrc : Fin 4) (refclk : Bool) (s : State) : Out :=
  if !s.seq.railsGood || s.seq.resetN || s.seq.fellAt.isSome then .next s
  else
    let old := s.seq.straps.toNat
    let straps := if s.seq.latched then old / 4 * 4 + bootSrc.val else bootSrc.val + 4 * clkMode.val + 16 * slot.val
    let s := if s.seq.latched then s else s.modFab (fun f => { f with deviceId := f.deviceId / 8 * 8 + slot.val })
    let s := s.modSeq (fun q => { q with resetN := true, latched := true, warmHeld := false, straps := BitVec.ofNat 32 straps })
    if s.seq.restart == 3 then
      let s := s.modSeq (fun q => { q with step := 2, startAt := s.now, tries := 0 })
      .next (if refclk then beginBoot s else setRst s 18)
    else .next (startHeld (s.modSeq (fun q => { q with tries := 0, brState := if q.restart != 0 && q.reload then (if bootSrc.val == 3 then 1 else 0) else q.brState })))

/-- REFCLK_PRESENT: start-up goes on past step 2 (18 R497). -/
def execRefclkPresent (s : State) : Out := if s.seq.restart == 3 && s.seq.step == 2 then .next (beginBoot s) else .next s

/-! The boot image (18 R498 to R500, 17 R471). -/

/-- A failed attempt: BOOT_COUNT and BOOT_FAIL; after three the boot ROM waits (18 R499). -/
def bootFail (s : State) : State :=
  setRst (s.modSeq (fun q => { q with attempts := min 15 (q.attempts + 1), tries := q.tries + 1, brState := if q.tries + 1 ≥ 3 then 1 else q.brState })) 19

/-- An image checked: start-up goes on, or the failing check is recorded (17 R471, 18 R499). -/
def checkBoot (s : State) (image : List Byte) : State × Bool :=
  let c := imageCause s image
  if c == 0 then (serving (takeImage (s.modSeq (fun q => { q with bootCause := 0, loadCause := 0 })) image), true)
  else (bootFail (s.modSeq (fun q => { q with bootCause := c, loadCause := 0 })), false)

/-- IMAGE_READ_DONE: the strapped source delivers the image, or fails (18 R498, R499). -/
def execImageReadDone (cause : Fin 6) (image : List Byte) (s : State) : Out :=
  let src := bitsAt s.seq.straps.toNat 0 2
  if !ready s || s.seq.brState != 0 || s.seq.loading || src == 0 || src == 3 then .next s
  else if cause.val != 0 then .next (bootFail (s.modSeq (fun q => { q with loadCause := cause.val })))
  else .next (checkBoot s image).1

/-- BR_RESULT: the last command's status, and BOOT_CAUSE (18 R500). -/
def bootResult (s : State) (status : Nat) : State :=
  s.modSeq (fun q => { q with brResult := BitVec.ofNat 32 (status + put q.bootCause 8 3) })

/-- The CM_RD of the next piece of the image that a LOAD reads (18 R500). -/
def bootRead (s : State) : State :=
  let at_ := s.seq.bootImage.length
  let a := s.seq.brAddr.toNat + at_
  cmIssue s 0 a [] (min (128 - a % 128) (s.seq.brLen.toNat - at_)) (.boot at_)

/-- BOOT_LOAD: the image is read from companion memory with CM_RD (18 R500). -/
def execBootLoad (s : State) : Out :=
  let n := s.seq.brLen.toNat
  let waits := s.seq.brState == 1 || bitsAt s.seq.straps.toNat 0 2 == 0
  if s.seq.fwState != 0 || !ready s || s.seq.loading || !waits then .next s
  else if n < 0x2000 || n > 0x600000 then .next (bootResult s Status.aborted.code)
  else .next (bootRead (s.modSeq (fun q => { q with loading := true, bootImage := [] })))

/-- RETRY_SOURCE: the strapped source is read again (18 R500). -/
def execRetrySource (s : State) : Out :=
  if s.seq.fwState != 0 || s.seq.brState != 1 || s.seq.loading then .next s
  else .next (bootResult (s.modSeq (fun q => { q with tries := 0, brState := if bitsAt q.straps.toNat 0 2 == 3 then 1 else 0 })) 0)

/-- A piece of the image that has arrived; with the last one the image is checked (18 R500). -/
def bootPiece (s : State) (offset : Nat) (data : List Byte) : State :=
  if !s.seq.loading || offset != s.seq.bootImage.length then s
  else
    let s := s.modSeq (fun q => { q with bootImage := q.bootImage ++ data })
    if data.isEmpty || s.seq.bootImage.length ≥ s.seq.brLen.toNat then
      let image := s.seq.bootImage
      match checkBoot (s.modSeq (fun q => { q with loading := false, bootImage := [] })) image with
      | (s, true) => bootResult s 0
      | (s, false) => bootResult s Status.denied.code
    else bootRead s

/-- A CM_RD of a LOAD that has passed OT_DEADLINE: the LOAD ends with TIMEOUT (18 R500). -/
def bootTimeout (s : State) : State :=
  if !s.seq.loading then s else bootResult (s.modSeq (fun q => { q with loading := false, bootImage := [] })) Status.timeout.code

/-! Registrar failure (18 R509 to R511). -/

/-- The active pair fails: the standby pair takes over, or both have failed (18 R509, R510). -/
def failover (s : State) : State :=
  if s.seq.restart != 0 then s
  else if !s.seq.standby then s.modSeq (fun q => { q with fwState := 3, healthy0 := false, healthy1 := false })
  else
    let old := s.seq.activePair
    let s := s.modSeq (fun q => { q with
      activePair := 1 - old, failovers := min 255 (q.failovers + 1), standby := false, fwState := 1
      healthy0 := if old == 0 then false else q.healthy0, healthy1 := if old == 1 then false else q.healthy1 })
    pairError (tellAll (setRst (beginReset s 7 old) 20) 18 11 0) old 18 2 6

/-- REGISTRAR_WATCHDOG: 5 ms without a kick (18 R504, R509). -/
def execRegistrarWatchdog (s : State) : Out := if s.seq.fwState != 1 then .next s else .next (failover s)

/-- LOCKSTEP_MISMATCH: of the pair that serves, or of the standby, which is reset (18 R509, R510). -/
def execLockstepMismatch (pair : Fin 2) (s : State) : Out :=
  if s.seq.fwState != 1 then .next s
  else if pair.val == s.seq.activePair then .next (failover s)
  else .next (beginReset (s.modSeq (fun q => { q with standby := false, healthy0 := if pair.val == 0 then false else q.healthy0, healthy1 := if pair.val == 1 then false else q.healthy1 })) 7 pair)

/-- PAIR_RESET_DONE: the failed pair becomes the standby, or stays off where its self-test fails (18 R510). -/
def execPairResetDone (passed : Bool) (s : State) : Out :=
  let old := 1 - s.seq.activePair
  if !resetRuns s 7 old then .next s
  else .next ((endReset s 7 old).modSeq (fun q => { q with
    standby := passed, healthy0 := if old == 0 then passed else q.healthy0, healthy1 := if old == 1 then passed else q.healthy1 }))

/-- REGISTRAR_RESTART: both pairs have failed (18 R511). -/
def execRegistrarRestart (s : State) : Out :=
  if s.seq.restart != 0 then .next s else .next (beginRestart s 1 2 true)

/-! Warm resets and escalation (18 R494, R507, R512, R513, R519). -/

/-- DEVICE_WARM_RESET (18 R494). -/
def execDeviceWarmReset (cause : Fin 8) (s : State) : Out := .next (warmReset s cause true)

/-- DEVICE_FATAL: the event is posted on every function where it has not been, and a device warm reset follows (18 R512). -/
def execDeviceFatal (cause : Fin 8) (s : State) : Out :=
  if s.seq.restart == 2 || s.seq.restart == 3 then .next s
  else
    let s := if s.seq.fatalPosted then s else postError s { block := 17, inst := 0, cause := 0, sev := 4, fm := true, action := 7 }
    .next (warmReset s cause true)

/-- DEVICE_RESET: the response is written once SERVING (18 R519). -/
def execDeviceReset (slot : MbSlot) (s : State) : Out :=
  let s' := mbCommand s slot 0x72 (fun _ => true)
    (fun _ _ => { fields := [(0x10, 0, 1)], permitted := isFn0 slot })
    (fun s c => .going (s.modSeq (fun q => { q with resetReply := some c.index })) (1 + c.f 0x10 0 1))
  match mbFind s' slot with
  | some c => if s'.seq.resetReply == some c.index && isFn0 slot && c.arg != 0 then .next (warmReset s' 4 (c.arg == 2)) else .next s'
  | none => .next s'

/-- Allowance of a reset level, in ns (18 R494). -/
def allowance (level : Nat) : Nat :=
  match level with | 1 => 200 * us | 5 => 100 * us | 2 => 1 * ms | 3 => 5 * ms | 7 => 2 * ms | _ => 1000 * ms

/-- Partitions that hold a Bay's Volume, and the Bay's own (18 R507). -/
def bayVolumeParts (s : State) (b : Nat) : List Nat :=
  let uses := fun (v : Nat × Volume) => match v.2.cur.bind (ownEntry s) with | some e => !isRouting v.1 && bitsAt e.bays b 1 == 1 | none => false
  let maps := (s.vols.vols.filter uses).filterMap (fun v => v.2.cur.bind (ownEntry s))
  (List.range s.mode).filter (fun p => p == s.partOfBay b || maps.any (fun e => bitsAt e.parts p 1 == 1))

/-- Partitions whose commands a Shelver holds, one bit each (18 R514). -/
def shelverParts (s : State) (sh : Nat) : Nat :=
  s.work.cmds.foldl (fun m c => match c.2.shelver with | some (k, _, _) => if k == sh then m ||| 2 ^ ctxPart c.2.ctx else m | none => m) 0

/-- A Shelver fenced: its queued and running commands complete with ISOLATED (18 R507). -/
def fenceShelver (s : State) (sh : Nat) : State :=
  let s := (cutAll s sh Status.isolated.code).modShelver sh (fun x => { x with
    fenced := true, active := 0xF, runs := [], heldOn := [], doomed := [], queues := x.queues.map (fun (q : Nat × ShQueue) => (q.1, { q.2 with rd := q.2.wr })) })
  let mine := s.work.cmds.filter (fun c => match c.2.shelver with | some (k, _, _) => k == sh | none => false)
  let s := mine.foldl (fun s c => completeCmd s c.1 { status := Status.isolated.code }) s
  let held := s.work.cmds.filter (fun c => c.2.phase == .held && c.2.heldStack == sh / 4 && shelveFenced s c.2 (sh / 4))
  let s := held.foldl (fun s c => completeCmd s c.1 { status := Status.isolated.code }) s
  let ms := s.vols.migrations.filter (fun m => m.2.sh == sh && !m.2.copied)
  ms.foldl (fun s m => mbFinish s m.2.cmd.1 m.2.cmd.2 Status.isolated.code 0) { s with vols := { s.vols with migrations := s.vols.migrations.filter (fun m => !(m.2.sh == sh && !m.2.copied)) } }

/-- The level that the hang handling of a Bay has reached, in the records of its suspects (18 R507, R517). -/
def raiseHangs (s : State) (b level : Nat) : State :=
  let up := fun (g : Hang) => if g.bay == b then { g with level := max g.level level } else g
  s.modWork (fun w => { w with
    tiles := Tbl.mapV w.tiles (fun _ t => { t with hang := t.hang.map up })
    cmds := Tbl.mapV w.cmds (fun _ c => { c with suspects := Tbl.mapV c.suspects (fun _ g => up g) }) })

/-- STEP_TIMER_OVERRUN: a reset has overrun its allowance, and the next level starts (18 R507, R513). -/
def execStepTimerOverrun (level : Fin 8) (instance_ : Nat) (s : State) : Out :=
  match s.seq.running.find? (fun r => r.1 == level.val && r.2.1 == instance_) with
  | none => .next s
  | some (_, _, t) =>
    let s := reach s (t + allowance level + 1)
    match level.val with
    | 1 => .next (resetBay (seqError s 22 2 (2 ^ s.partOfBay (instance_ / 16)) 4) (instance_ / 16))
    | 2 =>
      let ps := bayVolumeParts s instance_
      let s := raiseHangs (setRst s 22) instance_ 3
      .next (settlePartResets (ps.foldl startPartReset (fenceBay s instance_)))
    | 3 => .next (warmReset (seqError ((partBays s instance_).foldl (fun s b => raiseHangs s b 4) s) 22 4 0 7) 3 true)
    | 4 => .next (noteAlerts ((setRst s 23).modSeq (fun q => { q with resetFail := true, rstStatus := statusFlag q.rstStatus 22, running := [], ladder := none })))
    | 5 => .next (fenceShelver (seqError (endReset s 5 instance_) 22 2 (shelverParts s instance_) 2) instance_)
    | 6 => .next (warmReset (setRst s 22) 3 true)
    | _ => .next (endReset (setRst s 22) level instance_)

/-- FUSE_PULSE_END: the pulse ends, and a reset that it delayed takes effect (18 R502). -/
def execFusePulseEnd (s : State) : Out :=
  match s.seq.fusePulse with
  | none => .next s
  | some t =>
    let waits := s.seq.fuseWaits
    let s := (reach s t).modSeq (fun q => { q with fusePulse := none, fuseWaits := [] })
    match waits with
    | [] => .next s
    | (cause, r) :: _ => .next (warmReset (setRst s 17) cause (waits.any (fun w => w.2 == 1) || r == 1))

/-- CORRECTED_REPORT_INTERVAL: one ERROR stands for the events of the second (18 R516). -/
def execCorrectedReportInterval (source : Nat) (s : State) : Out :=
  match Tbl.find s.corr source with
  | none => .next s
  | some c =>
    let s := reach s c.until_
    if c.count == 0 then .next { s with corr := Tbl.del s.corr source }
    else
      let i := fun (n : Nat) => c.info.getD n 0
      let e : Err := { block := i 0, inst := i 1, cause := i 2, sev := 0, off := i 3, seq := i 4, reg := i 5, count := c.count }
      .next (postEvent { s with corr := Tbl.put s.corr source { c with until_ := s.now + 1000 * ms, count := 0 } } (source / 65536) 1 0 0 (errBody e))

/-! Peers and the life cycle (18 R519, 17 R467). -/

/-- PEER_STATE FAILED: collectives that name the device end, and its votes count as MISSING (18 R519). -/
def execPeerStateFailed (slot : MbSlot) (s : State) : Out :=
  .next (mbCommand s slot 0x70 (fun c => c.f 0x10 16 1 == 0)
    (fun _ _ => { fields := [(0x10, 0, 14), (0x10, 16, 1)], permitted := isFn0 slot })
    (fun s c => mbOk (collPeerFailed (s.modSeq (fun q => { q with peersDown := NSet.ins q.peersDown (c.f 0x10 0 14) })) (c.f 0x10 0 14))))

/-- PEER_STATE RESTORED (18 R519). -/
def execPeerStateRestored (slot : MbSlot) (s : State) : Out :=
  .next (mbCommand s slot 0x70 (fun c => c.f 0x10 16 1 == 1)
    (fun _ _ => { fields := [(0x10, 0, 14), (0x10, 16, 1)], permitted := isFn0 slot })
    (fun s c => mbOk (s.modSeq (fun q => { q with peersDown := NSet.rem q.peersDown (c.f 0x10 0 14) }))))

/-- Fields of an LC_RETURN request (17 R480). -/
def lcFields : List (Nat × Nat × Nat) := [(0x10, 0, 1), (0x18, 0, 64)]

/-- LC_RETURN phase 0: a challenge drawn, kept and returned (17 R467). -/
def execLcReturnChallenge (slot : MbSlot) (s : State) : Out :=
  .next (mbCommand s slot 0x65 (fun c => c.f 0x10 0 1 == 0) (fun _ _ => { fields := lcFields, permitted := isFn0 slot })
    (fun s _ =>
      if s.sec.lc != 2 then mbFail s .denied
      else
        let (n, s) := s.fresh
        let x := BitVec.ofNat 256 (Config.freeWide n).toNat
        mbOk (modSec s (fun c => { c with challenge := some x })) ((List.range 4).map (fun i => fld x (8 * i) 0 64))))

/-- Whether a token answers the challenge (17 R467). -/
def tokenOk (s : State) (token : List Byte) : Bool :=
  match s.sec.challenge with
  | some x => s.sec.lc == 2 && Config.dsaVerify Config.returnKey (sha3 (bytesLE 8 s.sec.serial.toNat ++ bytesLE 32 x.toNat ++ [3#8])) (fitTo 4627 token)
  | none => false

/-- LC_RETURN phase 1: a token that verifies wipes the Carrel, programs UDS_KILL and the LC step, and resets the part (17 R467). -/
def execLcReturnToken (slot : MbSlot) (token : List Byte) (s : State) : Out :=
  let was := s.sec.lc
  let s := mbCommand s slot 0x65 (fun c => c.f 0x10 0 1 == 1) (fun _ _ => { fields := lcFields, permitted := isFn0 slot })
    (fun s _ =>
      if !tokenOk s token then mbFail s .denied
      else mbOk (secEvent (modSec (wipeCarrel s) (fun x => { x with udsKill := true, lc := 3 })) 22 0 0))
  .next (if s.sec.lc != was then warmReset s 3 true else s)

end Sys2Proof.Machine
end

