-- ==== Sys2Proof/Machine/Board.lean ====
section
/-! DEFINITION. The board controller's commands over SMBus, and JTAG (19_electrical.md R537 to R540). -/

namespace Sys2Proof.Machine

/-! SMBus (19 R537 to R539). -/

/-- BR_STATUS, and BOOT_COUNT (18 R500, R522). -/
def brStatus (q : Seq) : Nat := put q.brState 0 2 + put q.bootCause 4 3 + put q.loadCause 8 4 + put q.attempts 12 4
def bootCount (q : Seq) : Nat := put q.attempts 0 4 + put q.warmResets 16 16

/-- FW_STATE (15 R423). -/
def fwStateReg (q : Seq) : Nat := put q.fwState 0 2 + put (bit q.standby) 2 1

/-- The telemetry block (19 R539). -/
def telemetryBlock (s : State) : List Byte :=
  bytesLE 2 (windowAvg s window60 / 1000) ++ bytesLE 2 (windowAvg s window2 / 1000) ++ bytesLE 2 s.pwr.cap ++ bytesLE 1 s.pwr.tjMax ++ bytesLE 1 (fwStateReg s.seq)
    ++ (List.range 8).map (fun k => BitVec.ofNat 8 (s.stack k).temp) ++ bytesLE 1 s.pwr.dsState ++ bytesLE 1 s.smb.alerts ++ bytesLE 2 0
    ++ bytesLE 4 (boostRecord s.pwr / 1000000000) ++ bytesLE 8 (s.pwr.pkgNj / 1000)

/-- TELEMETRY_REFRESH: once every 1 s (19 R538). -/
def execTelemetryRefresh (s : State) : Out :=
  if s.seq.step < 5 || s.seq.clocksStopped then .next s
  else
    let s := noteAlerts (reach s (s.smb.refreshAt + 1000 * ms))
    .next { s with smb := { s.smb with telemetry := telemetryBlock s, refreshAt := s.now } }

/-- GET_TELEMETRY (19 R538, R539). -/
def execGetTelemetry (s : State) : Out := .next (smbServed s false (fun s => smbReply s 0 s.smb.telemetry))

/-- SET_PWR_CAP: 400 to 1,000 W (19 R538, 12 R361). -/
def execSetPwrCap (watts : BitVec 16) (s : State) : Out :=
  .next (smbServed s false (fun s => if 400 ≤ watts.toNat && watts.toNat ≤ 1000 then smbReply (setCap s watts.toNat) 0 else smbReply s 3))

/-- GET_RESET_STATUS: served from step 5 on, under RESET_FAIL too (19 R538). -/
def execGetResetStatus (s : State) : Out :=
  .next (smbServed s true (fun s => smbReply s 0 (bytesLE 4 s.seq.rstCause.toNat ++ bytesLE 4 (brStatus s.seq) ++ bytesLE 4 (bootCount s.seq))))

/-- CLEAR_ALERT: a bit whose condition still holds stays set (19 R538, R539). -/
def execClearAlert (mask : BitVec 16) (s : State) : Out :=
  .next (smbServed s false (fun s =>
    let kept := (List.range 6).foldl (fun n i => if bitsAt mask.toNat i 1 == 1 then n else n + put (bitsAt s.smb.alerts i 1) i 1) 0
    noteAlerts (smbReply { s with smb := { s.smb with alerts := kept } } 0)))

/-- SMBUS_CLOCK_LOW_TIMEOUT: the transaction is abandoned (19 R537). -/
def execSmbusClockLowTimeout (s : State) : Out := .next { s with smb := { s.smb with reply := [], until_ := s.now } }

/-! JTAG (19 R540, 17 R468): instruction 0 BYPASS, 1 IDCODE, 2 SAMPLE/PRELOAD, 3 CLAMP, 4 HIGHZ, 5 EXTEST, 6 EXTEST_PULSE, 7 EXTEST_TRAIN. -/

/-- An instruction taken, and what it shifts out. -/
def jtagTake (s : State) (i out : Nat) : State := s.modSeq (fun q => { q with jtag := i, jtagOut := out })

/-- The identification code (19 R540). -/
def idcode : Nat := 1 + put Config.jedecCode.toNat 1 11 + put 0x9416 12 16 + put 1 28 4

/-- An instruction that takes effect only while RESET_N is low; at any other time it acts as BYPASS (19 R540). -/
def jtagLow (s : State) (effect : State → State) : State := if s.seq.resetN then jtagTake s 0 0 else effect s

/-- The pins captured, which are a free value, and cells loaded (19 R540; assumption 3). -/
def jtagCells (i cells : Nat) (s : State) : State :=
  let (n, s) := s.fresh
  (jtagTake s i (Config.freeWord n).toNat).modSeq (fun q => { q with boundary := cells })

/-- BYPASS (19 R540). -/
def execBypass (s : State) : Out := .next (jtagTake s 0 0)
/-- IDCODE (19 R540). -/
def execIdcode (s : State) : Out := .next (jtagTake s 1 idcode)
/-- SAMPLE/PRELOAD (19 R540). -/
def execSamplePreload (cells : Nat) (s : State) : Out := .next (jtagCells 2 cells s)
/-- CLAMP: the pins hold the cells, and the bypass register shifts (19 R540). -/
def execClamp (s : State) : Out := .next (jtagLow s (fun s => jtagTake s 3 0))
/-- HIGHZ (19 R540). -/
def execHighz (s : State) : Out := .next (jtagLow s (fun s => jtagTake s 4 0))
/-- EXTEST (19 R540). -/
def execExtest (cells : Nat) (s : State) : Out := .next (jtagLow s (jtagCells 5 cells))
/-- EXTEST_PULSE (19 R540). -/
def execExtestPulse (cells : Nat) (s : State) : Out := .next (jtagLow s (jtagCells 6 cells))
/-- EXTEST_TRAIN (19 R540). -/
def execExtestTrain (cells : Nat) (s : State) : Out := .next (jtagLow s (jtagCells 7 cells))

end Sys2Proof.Machine
end

