-- ==== Sys2Proof/Machine/CatCommands.lean ====
section
/-! DEFINITION. Mailbox commands on translations, the dirty log, windows, and the moving of a Shelf's data (09_translation.md R263 to R270, 10_volumes.md R294, R295, 15_registrar.md R435). -/

namespace Sys2Proof.Machine

/-! CAT_INVALIDATE (09 R263 to R265). -/

/-- The body of a CAT_INVALIDATE at a byte offset of the slot. -/
def invalFields (o : Nat) : List (Nat × Nat × Nat) := [(o, 0, 2), (o + 8, 0, 64), (o + 0x10, 0, 64), (o + 0x18, 0, 32)]

/-- Its values in their ranges. -/
def invalRange (c : MbCmd) (o : Nat) : Bool :=
  let who := c.f (o + 8) 0 64
  let base := c.f (o + 0x10) 0 64
  let pages := c.f (o + 0x18) 0 32
  match c.f o 0 2 with
  | 0 => decide (who < 2 ^ 32) && base % pageBytes == 0 && decide (base < 2 ^ 57)
  | 1 => decide (who < 2 ^ 32) && base == 0 && pages == 0
  | 2 => decide (who < 256) && base % pageBytes == 0
  | _ => who == 0 && base == 0 && pages == 0

/-- The windows of a partition (09 R266). -/
def windowHeld (s : State) (p w : Nat) : Bool := decide (w / (256 / s.nparts) = p)

/-- A window named lies in the caller's share. -/
def invalPermitted (s : State) (p : Nat) (c : MbCmd) (o : Nat) : Bool := c.f o 0 2 != 2 || windowHeld s p (c.f (o + 8) 0 8)

/-- A context named exists. -/
def invalHandles (s : State) (p : Nat) (c : MbCmd) (o : Nat) : Bool := decide (c.f o 0 2 ≥ 2) || (liveCtx s p (c.f (o + 8) 0 32)).isSome

/-- The invalidation that a body asks for. -/
def invalOf (s : State) (p : Nat) (c : MbCmd) (o : Nat) (hold : Bool) : Inval :=
  let scope := c.f o 0 2
  let key := match scope with
    | 0 | 1 => ((liveCtx s p (c.f (o + 8) 0 32)).map (·.1)).getD 0
    | 2 => 2 ^ 20 + c.f (o + 8) 0 8
    | _ => 0
  { part := p, scope, key, base := c.f (o + 0x10) 0 64, bytes := c.f (o + 0x18) 0 32 * pageBytes, hold }

/-- Whether a scope names a context that holds no resident slot, which has no cached translations. -/
def invalVacant (s : State) (i : Inval) : Bool := decide (i.scope ≤ 1) && (((Tbl.find s.work.ctxs i.key).bind (·.slot)).isNone)

/-- An invalidation started: what can go goes now, and the misses of the scope that are busy are noted (09 R264, R265). -/
def startInval (s : State) (f index : Nat) (i : Inval) : State :=
  let i := { i with misses := invalMisses s i }
  modCat (invalNow s i) (fun c => { c with invals := Tbl.put c.invals (f * 65536 + index) i })

/-- Whether the invalidation that a command started still runs. -/
def invalRuns (s : State) (f index : Nat) : Option Inval := Tbl.find s.cat.invals (f * 65536 + index)

/-- The end of an invalidation that has come to it. -/
def finishInval (s : State) (f : Nat) (c : MbCmd) : MbRes :=
  match invalRuns s f c.index with
  | none => mbOk s
  | some i => if invalDone s i then mbOk (modCat s (fun x => { x with invals := Tbl.del x.invals (f * 65536 + c.index) })) else .going s c.arg

/-- CAT_INVALIDATE: it answers once the three points of R264 hold. -/
def execCatInvalidate (slot : MbSlot) (s : State) : Out :=
  let p := partOfFn slot
  .next (mbCommand s slot 0x40 (fun _ => true)
    (fun s c => { fields := invalFields 0x10, range := invalRange c 0x10, permitted := isPartFn slot && invalPermitted s p c 0x10, handles := invalHandles s p c 0x10 })
    (fun s c =>
      let i := invalOf s p c 0x10 false
      if invalVacant s i then mbOk s else finishInval (startInval s slot.fn c.index i) slot.fn c)
    (fun s c => finishInval s slot.fn c))

/-! The dirty log and windows (09 R266, R269, R270). -/

/-- DLOG_SET: the ring's base and size, then ENABLE (09 R269, R272). -/
def execDlogSet (slot : MbSlot) (s : State) : Out :=
  let p := partOfFn slot
  .next (mbCommand s slot 0x41 (fun _ => true)
    (fun _ c => { fields := [(0x10, 0, 64), (0x18, 0, 5), (0x18, 8, 1)], permitted := isPartFn slot
                  range := c.f 0x10 0 64 % 4096 == 0 && decide (10 ≤ c.f 0x18 0 5) && decide (c.f 0x18 0 5 ≤ 20) })
    (fun s c =>
      let d := Tbl.getD s.cat.dlog p {}
      let ctrl := BitVec.ofNat 32 (c.f 0x18 8 1 + put (bitsAt d.ctrl.toNat 1 1) 1 1 + put (c.f 0x18 0 5) 2 6)
      mbOk (modCat s (fun x => { x with dlog := Tbl.put x.dlog p { d with base := BitVec.ofNat 64 (c.f 0x10 0 64), ctrl } }))))

/-- DLOG_RETURN: space returned, and OVERFLOW cleared (09 R270). -/
def execDlogReturn (slot : MbSlot) (s : State) : Out :=
  let p := partOfFn slot
  .next (mbCommand s slot 0x42 (fun _ => true)
    (fun _ _ => { fields := [(0x10, 0, 32)], permitted := isPartFn slot })
    (fun s c =>
      let d := Tbl.getD s.cat.dlog p {}
      mbOk (modCat s (fun x => { x with dlog := Tbl.put x.dlog p { d with rd := BitVec.ofNat 32 (c.f 0x10 0 32), ctrl := d.ctrl &&& ~~~2#32 } }))))

/-- Whether a Volume is one that a partition of this part draws on. -/
def partInVolume (s : State) (p h : Nat) : Bool :=
  match (Tbl.find s.vols.vols h).bind (·.cur) with
  | some m => ((ownEntry s m).map (fun e => bitsAt e.parts p 1 == 1)).getD false
  | none => false

/-- WIN_SET (09 R266, 17 R486). -/
def execWinSet (slot : MbSlot) (s : State) : Out :=
  let p := partOfFn slot
  .next (mbCommand s slot 0x43 (fun _ => true)
    (fun s c => { fields := [(0x10, 0, 8), (0x10, 12, 4), (0x18, 0, 32), (0x20, 0, 64), (0x28, 0, 64)]
                  range := c.f 0x20 0 64 % 0x8000 == 0 && decide (c.f 0x20 0 64 < 2 ^ 46) && c.f 0x28 0 64 % pageBytes == 0 && decide (c.f 0x28 0 64 < 2 ^ 40)
                  permitted := isPartFn slot && windowHeld s p (c.f 0x10 0 8) && partInVolume s p (c.f 0x18 0 32) })
    (fun s c =>
      let peer := c.f 0x10 15 1 == 1
      if peer && !(((Tbl.find s.sec.policies p).map (·.allowPeer)).getD false) then mbFail s .denied
      else
        let w : WinEntry := { part := p, r := c.f 0x10 12 1 == 1, w := c.f 0x10 13 1 == 1, atomic := c.f 0x10 14 1 == 1, sealPeer := peer,
                              volume := c.f 0x18 0 32, root := c.f 0x20 0 64, limit := c.f 0x28 0 64 }
        mbOk (modCat s (fun x => { x with windows := Tbl.put x.windows (c.f 0x10 0 8) w }))))

/-- WIN_CLEAR (09 R266). -/
def execWinClear (slot : MbSlot) (s : State) : Out :=
  let p := partOfFn slot
  .next (mbCommand s slot 0x44 (fun _ => true)
    (fun s c => { fields := [(0x10, 0, 8)], permitted := isPartFn slot && windowHeld s p (c.f 0x10 0 8) })
    (fun s c => mbOk (modCat s (fun x => { x with windows := Tbl.del x.windows (c.f 0x10 0 8) }))))

/-! SHELF_MIGRATE (10 R294, R295). -/

/-- A range of direct addresses within one Shelf, clear of its reserved area. -/
def inOneShelf (pa n : Nat) : Bool :=
  decide (pa + n ≤ 2 ^ 40) && pa % pageBytes == 0 && decide (shelfOff pa + n ≤ registrarArea)

/-- The ranges of a SHELF_MIGRATE in their ranges. -/
def migrateRange (c : MbCmd) : Bool :=
  let n := c.f 0x28 0 64
  n != 0 && n % pageBytes == 0 && inOneShelf (c.f 0x18 0 64) n && inOneShelf (c.f 0x20 0 64) n && cmpValid (c.f 0x30 0 16) && cmpValid (c.f 0x30 16 16)

/-- The Volumes whose current or next map binds a Shelf of this part. -/
def shelfVolumes (s : State) (shelf : Nat) : List Nat :=
  (s.vols.vols.filter (fun v => [v.2.cur, v.2.next].any (fun m => match m.bind (ownEntry s) with
    | some e => bitsAt e.shelves shelf 1 == 1
    | none => false))).map (·.1)

/-- SHELF_MIGRATE, phase COPY: MIGRATE runs on queue 8 of a Shelver of the source stack (10 R294). -/
def execShelfMigrateCopy (slot : MbSlot) (s : State) : Out :=
  let p := partOfFn slot
  .next (mbCommand s slot 0x58 (fun c => !flag c.slot 0x10 0)
    (fun s c => { fields := [(0x10, 0, 1), (0x18, 0, 64), (0x20, 0, 64), (0x28, 0, 64), (0x30, 0, 32)], range := migrateRange c
                  permitted := isPartFn slot && shelfAllows s p (c.f 0x18 0 64) && shelfAllows s p (c.f 0x20 0 64) })
    (fun s c =>
      let src := c.f 0x18 0 64
      let dst := c.f 0x20 0 64
      let mine := shelfVolumes s (shelfOf src)
      let shs := (List.range 4).map (· + 4 * stackOf src)
      if (shelfVolumes s (shelfOf dst)).any (fun h => !mine.contains h) then mbFail s .aborted
      else match shs.find? (fun n => (s.shelver n).mirror.isNone && !s.vols.migrations.any (fun m => m.2.sh == n && !m.2.lost) && queueRoom s n 8) with
        | none => mbFail s .resourceExhausted
        | some sh =>
          let w : BitVec 1024 := BitVec.ofNat 1024 (0x0C + put 1 8 1 + put src 64 57 + put dst 128 57 + put (c.f 0x28 0 64) 192 40
            + put (c.f 0x30 16 16) (8 * 0x70 + 16) 16 + put (c.f 0x30 0 16) (8 * 0x70 + 32) 16)
          let (s, i) := submitShelver s sh 8 w
          let m : Migration := { sh, src, dst, bytes := c.f 0x28 0 64, index := i, cmd := (slot.fn.val, c.index) }
          .going { s with vols := { s.vols with migrations := s.vols.migrations ++ [(p, m)] } } sh)
    (fun s c => .going s c.arg))

/-- A migration taken out. -/
def dropMigration (s : State) (x : Nat × Migration) : State :=
  { s with vols := { s.vols with migrations := s.vols.migrations.filter (fun y => !(y == x)) } }

/-- The steps of R295 once point 2 of R264 holds: the source flushed, the mirror stopped, the misses served, the source zeroed. -/
def migrateEnd (s : State) (f : Nat) (c : MbCmd) : MbRes :=
  match s.vols.migrations.find? (fun m => m.1 + 1 == f && m.2.src == c.f 0x18 0 64 && m.2.copied) with
  | none => mbFail (modCat s (fun x => { x with invals := Tbl.del x.invals (f * 65536 + c.index) })) .aborted
  | some x =>
    let m := x.2
    let drop := fun (s : State) => modCat s (fun x => { x with invals := Tbl.del x.invals (f * 65536 + c.index) })
    if m.lost then mbFail (dropMigration (drop s) x) .stateLost
    else match invalRuns s f c.index with
      | none => mbOk s
      | some i =>
        let s := settlePoint1 s
        if !(i.clear || invalPoint1 s i) then .going s c.arg
        else
          let k := stackOf m.src
          let s := maintRecall s k 3 0 (shelfIndex m.src)
          if s.mem.txns.any (fun t => stackOf (128 * t.1) == k && shelfIndex (128 * t.1) == shelfIndex m.src) then .going s c.arg
          else
            let s := maintWalk s k 3 0 (shelfIndex m.src)
            let (s, ok) := purgeRange s m.src m.bytes
            if !ok then .going s c.arg
            else
              let s := s.modShelver m.sh (fun y => { y with mirror := none })
              mbOk (dropMigration (drop s) x)

/-- SHELF_MIGRATE, phase FINISH (10 R295). -/
def execShelfMigrateFinish (slot : MbSlot) (s : State) : Out :=
  let p := partOfFn slot
  .next (mbCommand s slot 0x58 (fun c => flag c.slot 0x10 0)
    (fun s c => { fields := [(0x10, 0, 1), (0x18, 0, 64), (0x20, 0, 64), (0x28, 0, 64), (0x30, 0, 32)] ++ invalFields 0x38
                  range := migrateRange c && invalRange c 0x38
                  permitted := isPartFn slot && shelfAllows s p (c.f 0x18 0 64) && shelfAllows s p (c.f 0x20 0 64) && invalPermitted s p c 0x38
                  handles := invalHandles s p c 0x38 })
    (fun s c =>
      match s.vols.migrations.find? (fun m => m.1 == p && m.2.src == c.f 0x18 0 64 && m.2.dst == c.f 0x20 0 64 && m.2.bytes == c.f 0x28 0 64 && m.2.copied) with
      | none => mbFail s .aborted
      | some x =>
        if x.2.lost then mbFail (dropMigration s x) .stateLost
        else if (s.shelver x.2.sh).mirror.isNone then mbFail s .aborted
        else
          let i := invalOf s p c 0x38 true
          migrateEnd (startInval s slot.fn c.index i) slot.fn c)
    (fun s c => migrateEnd s slot.fn c))

end Sys2Proof.Machine
end

