-- ==== Sys2Proof/Machine/Registers.lean ====
section
/-! DEFINITION. The register maps of every block, who may write what, and the windows of the functions (00_scope.md R2 to R8, 15_registrar.md R422 to R426, and each block's register table). -/

namespace Sys2Proof.Machine

/-- A set of numbers below 64 as a mask. -/
def maskOf (l : List Nat) : Nat := l.foldl (fun m b => m ||| 2 ^ b) 0

/-! What a register reads as. A pair is given once, by its _LO offset; every other register by its own. -/

/-- The ROOT pair of a context slot: that of the context it holds, or as last written (09 R272, 13 R371). -/
def rootOf (s : State) (slot : Nat) : Nat :=
  match s.work.ctxs.find? (fun c => c.2.slot == some slot) with
  | some c => 1 + put (bit c.2.retry) 1 1 + c.2.root / 2 ^ 15 * 2 ^ 15
  | none => (Tbl.getD s.cat.roots slot 0#64).toNat

/-- A window entry as 32 bytes (09 R266). -/
def winBits (s : State) (w : Nat) : Nat :=
  match Tbl.find s.cat.windows w with
  | some e => 1 + put e.part 1 3 + put (bit e.r) 4 1 + put (bit e.w) 5 1 + put (bit e.atomic) 6 1 + put (bit e.sealPeer) 7 1 + put e.volume 32 32
      + put (e.root / 2 ^ 15) (64 + 15) 31 + put e.limit 128 40
  | none => (Tbl.getD s.cat.winWords w 0#256).toNat

/-- Retrains of a link in the last 60 s (11 R332, 16 R463). -/
def retrainsOf (s : State) (l : Link) : Nat := min 255 (l.retrains.filter (fun t => decide (s.now < t + 60 * 1000 * ms))).length

/-- Lanes locked, a bit each: those found good at TRAIN, from ALIGN on (11 R302, R332). -/
def lanesLocked (l : Link) : Nat := if 2 ≤ l.state && l.state ≤ 4 then 15 - l.badLanes % 16 else 0

/-- The 64-bit value of a pair, by its _LO offset; none where no pair begins. -/
def pairGet (s : State) : Block → Nat → Option Nat
  | .bay b, off => bayPair (s.bay b) off
  | .stack k, 0x30 => some (s.stack k).errAddr.toNat
  | .shelver n, off =>
    if off < 0x100 || off ≥ 0x220 then none
    else
      let q := (s.shelver n).queue ((off - 0x100) / 0x20)
      match off % 0x20 with | 0 => some q.cmdBase.toNat | 8 => some q.cplBase.toNat | _ => none
  | .catalogue p, off =>
    if p.val != 0 then none
    else if 0x100 ≤ off && off < 0x280 && off % 8 == 0 then some (rootOf s ((off - 0x100) / 8))
    else if 0x300 ≤ off && off < 0x400 && off % 0x20 == 0 then some (Tbl.getD s.cat.dlog ((off - 0x300) / 0x20) {}).base.toNat
    else none
  | .timePower, off =>
    match off with
    | 0 => some s.now | 0x10 => some s.pwr.dsSet.toNat | 0x120 => some (s.pwr.pkgNj / 1000) | 0x128 => some (s.pwr.modelNj / 1000) | _ => none
  | .fn f, off =>
    let x := s.fn f
    match off with
    | 8 => some x.mbBase.toNat | 0x20 => some x.evBase.toNat | 0x34 => some x.mask.toNat | 0x3C => some x.pend.toNat
    | 0x804 => if f.val == 0 && s.seq.fwState == 0 then some s.seq.brAddr.toNat else none
    | _ => none
  | _, _ => none

/-- A register of a stack controller (06 R181, 08 R242). -/
def stackWord (s : State) (k : StackNo) (off : Nat) : Nat :=
  let x := s.stack k
  let mine := Tbl.keep s.mem.dir (fun l _ => stackOf (128 * l) == k.val)
  let m := off % 0x100 / 4
  match off with
  | 0 => k + put (k / 4) 3 1 + put x.spareLanes 4 4
  | 4 => x.status.toNat
  | 8 => x.temp + put x.state 8 2
  | 0xC => x.deliverable
  | 0x10 => x.queueThresh.toNat
  | 0x14 => x.queue.length + put (bit x.enforcing) 16 1
  | 0x18 => x.mscCtrl.toNat
  | 0x20 => x.maintStatus.toNat
  | 0x24 => x.pfCtrl.toNat
  | 0x28 => x.pfDrops.toNat
  | 0x2C => x.eccCorr.toNat
  | 0x38 => x.scrubCtrl.toNat
  | 0x3C => x.scrubPasses.toNat
  | 0x400 => mine.length
  | 0x404 => (mine.filter (fun e => e.2.bcast)).length
  | 0x408 => x.cohStatus.toNat
  | 0x40C => x.dirRecalls.toNat
  | 0x410 => x.farAtomics.toNat
  | 0x414 => x.snoopDeadline.toNat
  | _ =>
    if 0x40 ≤ off && off < 0x50 then natLE ((List.range 4).map (fun i => BitVec.ofNat 8 (Tbl.getD x.shelfOwner (off - 0x40 + i) 0)))
    else if m > 43 then 0
    else match off / 0x100 with
      | 1 => Tbl.getD x.guar m 0
      | 2 => Tbl.getD x.eff m 0 % 65536 + put (bit (decide (Tbl.getD x.usedNow m 0 > Tbl.getD x.eff m 0 % 65536))) 16 1
      | 3 => Tbl.getD x.used m 0 % 65536
      | _ => 0

/-- A register of a Shelver (07 R222). -/
def shelverWord (s : State) (n : ShelverNo) (off : Nat) : Nat :=
  let x := s.shelver n
  match off with
  | 0 => n % 4 + put (n / 4) 2 3
  | 4 => x.ctrl.toNat
  | 8 => x.status.toNat
  | 0xC => x.active
  | 0x10 => x.watchdog.toNat
  | 0x14 => x.done.toNat
  | 0x18 => x.scratchParity.toNat
  | 0x20 => bit x.mirror.isSome
  | _ =>
    if off < 0x100 || off ≥ 0x220 then 0
    else
      let q := x.queue ((off - 0x100) / 0x20)
      match off % 0x20 with | 0x10 => q.size | 0x14 => q.wr | 0x18 => q.rd | 0x1C => q.failed | _ => 0

/-- A register of the Catalogue (09 R266, R272). -/
def catWord (s : State) (off : Nat) : Nat :=
  match off with
  | 0 => 0x04010000
  | 4 => s.cat.status.toNat
  | 8 => s.cat.entries.length
  | 0xC => s.cat.misses.length
  | 0x10 => s.cat.missCount.toNat
  | 0x14 => s.cat.faultCount.toNat
  | 0x18 => s.cat.walkMax.toNat
  | 0x1C => bit (!s.cat.invals.isEmpty)
  | _ =>
    if 0x300 ≤ off && off < 0x400 then
      let d := Tbl.getD s.cat.dlog ((off - 0x300) / 0x20) {}
      match off % 0x20 with | 8 => d.ctrl.toNat | 0xC => d.wr.toNat | 0x10 => d.rd.toNat | _ => 0
    else if 0x2000 ≤ off && off < 0x4000 then bitsAt (winBits s ((off - 0x2000) / 32)) (8 * (off % 32)) 32
    else 0

/-- A register of a fabric port (11 R332). -/
def portWord (s : State) (q off : Nat) : Nat :=
  let x := s.fport q
  let l := linkOf s q
  match off with
  | 0 => x.ctrl.toNat
  | 4 => x.status.toNat
  | 8 => put l.state 0 3 + put (lanesLocked l) 3 4 + put (s.fport (leaderOf s q)).members.length 7 3 + put (leaderOf s q) 10 5
  | 0xC => match (s.fport (leaderOf s q)).peer with | some (d, p) => put d 0 14 + put p 14 5 + put 1 19 1 | none => 0
  | 0x10 => l.replays.toNat
  | 0x14 => l.fecCorr.toNat
  | 0x18 => l.fecUncorr.toNat
  | 0x1C => l.authFail.toNat
  | 0x20 => l.txKey % 2 ^ 32
  | 0x24 => (s.fab.tags.filter (fun t => t.2.port == q)).length
  | 0x28 => retrainsOf s l
  | _ => 0

/-- A register of the fabric block (11 R319, R332). -/
def fabWord (s : State) (off : Nat) : Nat :=
  match off with
  | 0 => 0x418
  | 4 => s.fab.deviceId
  | 8 => s.fab.status.toNat
  | 0xC => s.fab.bank + put (bit s.fab.standby.isSome) 1 1 + put (bit (bankInGrace s)) 2 1
  | 0x10 => s.fab.margin.toNat
  | 0x14 => s.fab.tags.length
  | 0x18 => s.fab.noRoute.toNat
  | 0x1C => s.fab.loops.toNat
  | 0x20 => s.fab.malformed.toNat
  | _ =>
    if 0x400 ≤ off && off < 0xA00 then portWord s ((off - 0x400) / 0x40) (off % 0x40)
    else if 0xC00 ≤ off && off < 0xD00 then
      let e := s.fab.engine ((off - 0xC00) / 0x40)
      match off % 0x40 with | 0 => e.status.toNat | 4 => e.open_.length | 8 => heldBytes e | _ => 0
    else if 0x10000 ≤ off && off < 0x30000 then Tbl.getD s.fab.routes ((off - 0x10000) / 4) 0
    else 0

/-- A register of the time and power block (12 R367). -/
def powerWord (s : State) (off : Nat) : Nat :=
  let p := s.pwr
  match off with
  | 8 => p.dsStatus.toNat
  | 0xC => p.dsCtrl.toNat
  | 0x18 => dsOffsetReg s
  | 0x1C => put p.source 0 2 + put p.parent 2 5 + put p.quality 8 8
  | 0x20 => dsErrBound s
  | 0x24 => p.accepted + put p.rejected 16 16
  | 0x100 => p.status.toNat
  | 0x104 => p.ctrl.toNat
  | 0x108 => p.cap
  | 0x10C => windowAvg s window4 / 1000 % 2048
  | 0x110 => windowAvg s window2 / 1000 % 2048
  | 0x114 => windowAvg s window60 / 1000 % 2048
  | 0x118 => put p.tjMax 0 8 + put p.tjBay 8 5
  | 0x11C => boostUsed p
  | 0x130 => p.droops.toNat
  | 0x134 => p.clips4 + put p.clips2 16 16
  | _ =>
    if 0x200 ≤ off && off < 0x280 then
      let b := p.bay ((off - 0x200) / 4)
      put b.code 0 6 + put b.next 8 6 + put b.level 16 3 + put (bit (decide (b.code > 50))) 19 1
    else 0

/-- A register of a function, and of function 0's boot mailbox while FW_STATE is BOOT (15 R423, 18 R500). -/
def fnWord (s : State) (f : FnNo) (off : Nat) : Nat :=
  let x := s.fn f
  let boot := f.val == 0 && s.seq.fwState == 0
  match off with
  | 0 => f + put s.mode 4 4 + put (f - 1) 8 3
  | 4 => x.status.toNat
  | 0x10 => x.mbCtrl.toNat
  | 0x18 => x.mbRd + put x.mbResp 16 16
  | 0x1C => x.active.length
  | 0x28 => x.evCtrl.toNat
  | 0x2C => x.evWr.toNat
  | 0x30 => x.evRd.toNat
  | 0x44 => x.heartbeat.toNat
  | 0x48 => fwStateReg s.seq
  | 0x4C => bit (f.val == 0 && s.regs.policyP)
  | 0x800 => if boot then brStatus s.seq else 0
  | 0x80C => if boot then s.seq.brLen.toNat else 0
  | 0x814 => if boot then s.seq.brResult.toNat else 0
  | _ => 0

/-- A register of an Otfold port (16 R463). -/
def otWord (s : State) (p : Fin 2) (off : Nat) : Nat :=
  let x := s.ot.port p
  match off with
  | 0 => p
  | 4 => x.ctrl.toNat
  | 8 => x.status.toNat
  | 0xC => put x.link.state 0 3 + put x.lanes 3 4 + put x.agents 7 6
  | 0x10 => x.link.replays.toNat
  | 0x14 => x.link.fecCorr.toNat
  | 0x18 => x.link.fecUncorr.toNat
  | 0x1C => x.link.authFail.toNat
  | 0x20 => x.link.txKey % 2 ^ 32
  | 0x24 => min 4096 (s.ot.cm.filter (fun r => r.sent && r.port == p.val)).length + put x.tags.length 16 13
  | 0x28 => x.deadline.toNat
  | 0x2C => x.agentDown.toNat
  | 0x30 => retrainsOf s x.link
  | 0x34 => x.badMessages.toNat
  | _ => 0

/-- A register of the security block (17 R493). -/
def secWord (s : State) (off : Nat) : Nat :=
  let x := s.sec
  match off with
  | 0 => put x.lc 0 3 + put (bit x.udsKill) 3 1
  | 4 => x.status.toNat
  | 8 => x.secVersion
  | 0xC => x.imageSecVersion
  | 0x10 => x.tamperCount
  | 0x14 => s.seq.bootCause
  | 0x18 => maskOf x.sealedParts
  | 0x1C => x.keys.length
  | _ => 0

/-- A register of the reset sequencer (18 R522). -/
def seqWord (s : State) (off : Nat) : Nat :=
  let q := s.seq
  match off with
  | 0 => q.rstCause.toNat
  | 4 => q.rstStatus.toNat
  | 8 => q.straps.toNat
  | 0xC => bootCount q
  | 0x10 => q.activePair + put (bit q.healthy0) 1 1 + put (bit q.healthy1) 2 1 + put q.failovers 8 8
  | 0x14 => match q.ladder with | some (l, i, t) => put l 0 3 + put i 8 8 + put (min 65535 ((s.now - t) / us)) 16 16 | none => 0
  | 0x18 => maskOf ((List.range 32).filter (fun b => (s.bay b).wrapper != .open_))
  | 0x1C => maskOf ((List.range 32).filter (fun n => (s.shelver n).fenced || (s.shelver n).resetting))
  | 0x20 => maskOf ((List.range s.mode).filter (fun p => (s.part p).resetting || q.fnZeroOnly))
  | 0x24 => q.startTime % 2 ^ 32
  | 0x28 => q.partResets + put q.suspectReplays 16 16
  | _ => 0

/-- A register that is no half of a pair; 0 for a location that no table lists, and for a write-only one (00 R6, R8). -/
def wordGet (s : State) : Block → Nat → Nat
  | .bay b, off => bayWord s b off
  | .matrix b c, off => mxRegGet s b c off
  | .stack k, off => stackWord s k off
  | .shelver n, off => shelverWord s n off
  | .catalogue p, off => catWord s (4096 * p + off)
  | .fabric p, off => fabWord s (4096 * p + off)
  | .timePower, off => powerWord s off
  | .fn f, off => fnWord s f off
  | .otfold p, off => otWord s p off
  | .security, off => secWord s off
  | .sequencer, off => seqWord s off

/-- A read: of a _LO register, which latches; of a _HI register, which returns the shadow; or of another (00 R3). -/
def readReg (s : State) (blk : Block) (off : Nat) : State × Nat :=
  match pairGet s blk off with
  | some v => (latchHi s blk off v, v % 2 ^ 32)
  | none => if 4 ≤ off && (pairGet s blk (off - 4)).isSome then (s, shadowHi s blk off) else (s, wordGet s blk off)

/-! Who may write, and what a write does. -/

/-- Whether the rules of a block let a writer write there at all. A matrix core's registers differ among themselves, and R124 decides (00 R8,
03 R79, 04 R124, 06 R181, 07 R222, 09 R272, 11 R332, 12 R367, 15 R423, 16 R463, 17 R493, 18 R522). -/
def mayWrite (s : State) : Writer → Block → Bool
  | .registrar, .fn f => s.fnExists f
  | .registrar, _ => true
  | .driver f, .fn g => f == g && s.fnExists f
  | .core b c, .bay b' => b == b' && c.val == 4
  | .core b _, .matrix b' _ => b == b'
  | .sequencer, .sequencer => true
  | _, _ => false

/-- Pairs that may be written, by their _LO offset (07 R222, 09 R272, 12 R367, 15 R423, 18 R500). -/
def writablePair (s : State) (blk : Block) (off : Nat) : Bool :=
  (pairGet s blk off).isSome && match blk with
  | .shelver _ | .catalogue _ => true
  | .timePower => off == 0x10
  | .fn _ => off != 0x3C
  | _ => false

/-- ROOT of a context slot written: that of the context it holds, which loses the slot where VALID is clear (09 R256, R272). -/
def setRoot (s : State) (slot v : Nat) : State :=
  match s.work.ctxs.find? (fun c => c.2.slot == some slot) with
  | some c =>
    let s := modCtx s c.1 (fun c => { c with root := bitsAt v 15 31 * 2 ^ 15, retry := bitsAt v 1 1 == 1, slot := if v % 2 == 1 then c.slot else none })
    if v % 2 == 1 then s else { s with cat := { s.cat with roots := Tbl.put s.cat.roots slot (BitVec.ofNat 64 (bitsAt v 15 31 * 2 ^ 15 + v % 4)) } }
  | none => { s with cat := { s.cat with roots := Tbl.put s.cat.roots slot (BitVec.ofNat 64 (bitsAt v 15 31 * 2 ^ 15 + v % 4)) } }

/-- A pair takes a 64-bit value; its reserved bits stay 0 (00 R4). -/
def setPair (s : State) (blk : Block) (off v : Nat) : State :=
  match blk with
  | .shelver n =>
    let k := (off - 0x100) / 0x20
    s.modShelver n (fun x => { x with queues := Tbl.put x.queues k (if off % 0x20 == 0 then { x.queue k with cmdBase := BitVec.ofNat 64 (bitsAt v 7 39 * 128) }
                                                                    else { x.queue k with cplBase := BitVec.ofNat 64 (bitsAt v 5 41 * 32) }) })
  | .catalogue _ =>
    if off < 0x300 then setRoot s ((off - 0x100) / 8) v
    else
      let p := (off - 0x300) / 0x20
      { s with cat := { s.cat with dlog := Tbl.updD s.cat.dlog p {} (fun d => { d with base := BitVec.ofNat 64 (alignDown v 4096) }) } }
  | .timePower => s.modPwr (fun p => { p with dsSet := BitVec.ofNat 64 v, dsArmed := true })
  | .fn f =>
    match off with
    | 8 => s.modFn f (fun x => { x with mbBase := BitVec.ofNat 64 (alignDown v 256) })
    | 0x20 => s.modFn f (fun x => { x with evBase := BitVec.ofNat 64 (alignDown v 128) })
    | 0x34 => setIrqMask s f (BitVec.ofNat 64 v)
    | _ => s.modSeq (fun q => { q with brAddr := BitVec.ofNat 64 (alignDown v 64) })
  | _ => s

/-- The bits of a status register that a sequence write clears; none where the register is no status register (00 R5). -/
def clearable : Block → Nat → Option Nat
  | .bay _, 0x14 => some 0x07FF0000
  | .bay _, 0x34 | .bay _, 0x54 => some 0x0FFF0000
  | .matrix _ _, 0x18 => some 0x2F0000
  | .stack _, 4 => some 0x0FFF0000
  | .stack _, 0x20 => some 0x60000
  | .stack _, 0x408 => some 0x07FF0000
  | .shelver _, 8 => some 0xFFFF0000
  | .catalogue p, 4 => if p.val == 0 then some 0x00FF0000 else none
  | .fabric p, off =>
    if p.val != 0 then none
    else if off == 8 then some 0x001F0000
    else if 0x400 ≤ off && off < 0xA00 && off % 0x40 == 4 then some 0x00FF0000
    else if 0xC00 ≤ off && off < 0xD00 && off % 0x40 == 0 then some 0x03FF0000
    else none
  | .timePower, 8 => some 0x00FC0000
  | .timePower, 0x100 => some 0x00FF0000
  | .fn _, 4 => some 0x001F0000
  | .otfold _, 8 => some 0x07FF0000
  | .security, 4 => some 0x007F0000
  | .sequencer, 4 => some 0x00FF0000
  | _, _ => none

/-- A sequence write: the status clears where EVT_SEQ is the present one (00 R5). -/
def clearStatus (s : State) (blk : Block) (off v : Nat) : State :=
  match clearable blk off with
  | none => s
  | some m =>
    let c := fun (r : Word) => statusClear r m v
    match blk with
    | .bay b =>
      if off == 0x14 then s.modBay b (fun x => { x with status := c x.status }) else s.modMover b (if off == 0x34 then 0 else 1) (fun x => { x with fault := c x.fault })
    | .matrix b k => s.modMx b k (fun x => { x with status := c x.status })
    | .stack k => s.modStack k (fun x => match off with
      | 4 => { x with status := c x.status } | 0x20 => { x with maintStatus := c x.maintStatus } | _ => { x with cohStatus := c x.cohStatus })
    | .shelver n => s.modShelver n (fun x => { x with status := c x.status })
    | .catalogue _ => { s with cat := { s.cat with status := c s.cat.status } }
    | .fabric _ =>
      if off == 8 then s.modFab (fun f => { f with status := c f.status })
      else if off < 0xC00 then s.modFport ((off - 0x400) / 0x40) (fun x => { x with status := c x.status })
      else s.modFab (fun f => { f with engines := Tbl.updD f.engines ((off - 0xC00) / 0x40) {} (fun e => { e with status := c e.status }) })
    | .timePower => s.modPwr (fun p => if off == 8 then { p with dsStatus := c p.dsStatus } else { p with status := c p.status })
    | .fn f => s.modFn f (fun x => { x with status := c x.status })
    | .otfold p => s.modOt (fun o => o.setPort p { o.port p with status := c (o.port p).status })
    | .security => { s with sec := { s.sec with status := c s.sec.status } }
    | .sequencer => s.modSeq (fun q => { q with rstStatus := c q.rstStatus })

/-- A write to a register of a stack controller. GUAR is taken at the next window boundary (06 R162, R177, R181, 08 R242). -/
def stackPut (s : State) (k : StackNo) (off : Nat) (v : Word) : State :=
  let n := v.toNat
  let m := (off - 0x100) / 4
  let hi := bitsAt n 0 9
  match off with
  | 0x10 => if hi == 0 || hi > 256 || bitsAt n 16 9 ≥ hi then s else s.modStack k (fun x => { x with queueThresh := v &&& 0x01FF01FF#32 })
  | 0x18 => s.modStack k (fun x => { x with mscCtrl := v &&& 0x1FFFF#32 })
  | 0x1C => if 1 ≤ n % 8 && n % 8 ≤ 4 then startMaint s k (n % 8) (bitsAt n 4 3) (bitsAt n 8 4) else s
  | 0x24 => s.modStack k (fun x => { x with pfCtrl := v &&& 0x00FF3F03#32 })
  | 0x38 => s.modStack k (fun x => { x with scrubCtrl := v &&& 0x1FF#32 })
  | 0x414 => s.modStack k (fun x => { x with snoopDeadline := v &&& 0xFFFF#32 })
  | _ =>
    if 0x40 ≤ off && off < 0x50 then
      s.modStack k (fun x => { x with shelfOwner := (List.range 4).foldl (fun t i => Tbl.put t (off - 0x40 + i) (bitsAt n (8 * i) 8)) x.shelfOwner })
    else if 0x100 ≤ off && m < 44 then s.modStack k (fun x => { x with guarNext := Tbl.put x.guarNext m (n % 2 ^ 17) })
    else s

/-- A write to a register of a Shelver; Q_SIZE only while its queue's QEN is clear (07 R222). -/
def shelverPut (s : State) (n : ShelverNo) (off : Nat) (v : Word) : State :=
  match off with
  | 4 => s.modShelver n (fun x => { x with ctrl := v &&& 0x101FF#32 })
  | 0x10 => s.modShelver n (fun x => { x with watchdog := v &&& 0xFFFF#32 })
  | 0x1C => if v.toNat % 2 == 1 then outState s (execMirrorStop n s) else s
  | _ =>
    if off < 0x100 || off ≥ 0x220 || off % 0x20 != 0x10 || !([4, 8, 16, 32, 64].contains (v.toNat % 128)) then s
    else
      let k := (off - 0x100) / 0x20
      s.modShelver n (fun x => if x.enabled k then x else { x with queues := Tbl.put x.queues k { x.queue k with size := v.toNat % 128 } })

/-- A window entry as its bits say; one that is not VALID is kept as it was written (09 R266). -/
def setWindow (s : State) (w bits : Nat) : State :=
  let v := BitVec.ofNat 256 bits
  let c := s.cat
  if bits % 2 == 1 then
    let e : WinEntry := { part := fld v 0 1 3, r := flag v 0 4, w := flag v 0 5, atomic := flag v 0 6, sealPeer := flag v 0 7, volume := fld v 4 0 32
                          root := fld v 8 15 31 * 2 ^ 15, limit := fld v 0x10 0 40 }
    { s with cat := { c with windows := Tbl.put c.windows w e, winWords := Tbl.del c.winWords w } }
  else { s with cat := { c with windows := Tbl.del c.windows w, winWords := Tbl.put c.winWords w v } }

/-- The bits of each word of a window entry that are no reserved ones (09 R266). -/
def winMask (i : Nat) : Nat := match i with | 0 => 0xFF | 1 => 0xFFFFFFFF | 2 => 0xFFFF8000 | 3 => 0x3FFF | 4 => 0xFFFFFFFF | 5 => 0xFF | _ => 0

/-- A write to a register of the Catalogue (09 R266, R272). -/
def catPut (s : State) (off : Nat) (v : Word) : State :=
  let n := v.toNat
  if 0x300 ≤ off && off < 0x400 then
    let set := fun (f : Dlog → Dlog) => { s with cat := { s.cat with dlog := Tbl.updD s.cat.dlog ((off - 0x300) / 0x20) {} f } }
    match off % 0x20 with
    | 8 => set (fun d =>
      let log := bitsAt n 2 6
      let log := if 10 ≤ log && log ≤ 20 then log else bitsAt d.ctrl.toNat 2 6
      { d with ctrl := BitVec.ofNat 32 (n % 2 + (if bitsAt n 1 1 == 0 then 0 else bitsAt d.ctrl.toNat 1 1 * 2) + put log 2 6) })
    | 0x10 => set (fun d => { d with rd := v })
    | _ => s
  else if 0x2000 ≤ off && off < 0x4000 then
    let w := (off - 0x2000) / 32
    let i := off % 32 / 4
    let old := winBits s w
    setWindow s w (old - bitsAt old (32 * i) 32 <<< (32 * i) + (n &&& winMask i) <<< (32 * i))
  else s

/-- A write to a register of the fabric block; the route tables are written under ROUTE_LOAD alone (11 R304, R319, R332). -/
def fabPut (s : State) (off : Nat) (v : Word) : State :=
  match off with
  | 4 => if (List.range 24).any (portUp s) then s else s.modFab (fun f => { f with deviceId := v.toNat % 16384 })
  | 0x10 => s.modFab (fun f => { f with margin := v &&& 0xFFFF#32 })
  | _ => if 0x400 ≤ off && off < 0xA00 && off % 0x40 == 0 then writePortCtrl s ((off - 0x400) / 0x40) (v &&& 0x137FF#32).toNat else s

/-- A write to a register of the time and power block; ISOLATED changes at the next epoch boundary (12 R361, R363, R367). -/
def powerPut (s : State) (off : Nat) (v : Word) : State :=
  let n := v.toNat
  match off with
  | 0xC => s.modPwr (fun p => { p with dsCtrl := v &&& 7#32 })
  | 0x104 => s.modPwr (fun p => { p with ctrl := (p.ctrl &&& 2#32) ||| (v &&& 5#32), isoNext := some (bitsAt n 1 1 == 1) })
  | 0x108 => if 400 ≤ n % 2048 && n % 2048 ≤ 1000 then setCap s (n % 2048) else s
  | _ => s

/-- MB_CTRL or EV_CTRL as a write leaves it: the size changes only while ENABLE is clear and no command is in progress (15 R423). -/
def ringCtrl (old v : Word) (idle : Bool) : Word :=
  let size := bitsAt v.toNat 4 4
  let size := if bitsAt old.toNat 0 1 == 0 && idle && 4 ≤ size && size ≤ 10 then size else bitsAt old.toNat 4 4
  BitVec.ofNat 32 (v.toNat % 2 + put size 4 4)

/-- A write to a register of a function, or of the boot mailbox (15 R423, R430, 18 R500). -/
def fnPut (s : State) (f : FnNo) (off : Nat) (v : Word) : State :=
  let boot := f.val == 0 && s.seq.fwState == 0
  match off with
  | 0x10 => s.modFn f (fun x => { x with mbCtrl := ringCtrl x.mbCtrl v x.active.isEmpty })
  | 0x14 => outState s (execMbDb f v s)
  | 0x28 => eventsReturn (s.modFn f (fun x => { x with evCtrl := ringCtrl x.evCtrl v x.active.isEmpty })) f
  | 0x30 => eventsReturn (s.modFn f (fun x => { x with evRd := v })) f
  | 0x80C => if boot then s.modSeq (fun q => { q with brLen := v }) else s
  | 0x810 => if !boot then s else match v.toNat % 4 with | 1 => outState s (execBootLoad s) | 2 => outState s (execRetrySource s) | _ => s
  | _ => s

/-- A write to a register of an Otfold port; RETRAIN reads 0 (16 R442, R463). -/
def otPut (s : State) (p : Fin 2) (off : Nat) (v : Word) : State :=
  let n := 24 + p.val
  match off with
  | 4 =>
    let s := s.modOt (fun o => o.setPort p { o.port p with ctrl := v &&& 0x000FFFFD#32 })
    let st := (linkOf s n).state
    if v.toNat % 2 == 0 then (if st == 0 then s else goDown s n)
    else if !linkEnabled s n then s
    else if st == 0 || (st == 5 && bitsAt v.toNat 1 1 == 1) then enterTrain s n else s
  | 0x28 => s.modOt (fun o => o.setPort p { o.port p with deadline := v &&& 0xFFFF#32 })
  | _ => s

/-- A write to a register that is neither half of a pair nor a status register; one that its access code does not permit is ignored (00 R8). -/
def plainPut (s : State) (who : Writer) (blk : Block) (off : Nat) (v : Word) : State :=
  match blk with
  | .bay b => bayRegPut s (who == .registrar) b off v
  | .matrix b c =>
    let a : MxAgent := match who with | .core _ k => .core k | _ => .registrar
    if mxPermits a c off true && !mxPushStalls s b c off then mxRegPut s b c off v else s
  | .stack k => stackPut s k off v
  | .shelver n => shelverPut s n off v
  | .catalogue p => catPut s (4096 * p + off) v
  | .fabric p => fabPut s (4096 * p + off) v
  | .timePower => powerPut s off v
  | .fn f => fnPut s f off v
  | .otfold p => otPut s p off v
  | .security | .sequencer => s

/-- A write by an agent that may write: held, taking effect as a pair, clearing a status, or plain. -/
def writeReg (s : State) (who : Writer) (blk : Block) (off : Nat) (v : Word) : State :=
  if !mayWrite s who blk || off % 4 != 0 then s
  else if writablePair s blk off then holdLo s blk off v
  else if 4 ≤ off && writablePair s blk (off - 4) then setPair s blk (off - 4) (withHeld s blk (off - 4) v)
  else if (clearable blk off).isSome then
    let a : MxAgent := match who with | .core _ k => .core k | _ => .registrar
    match blk with
    | .matrix _ c => if mxPermits a c off true then clearStatus s blk off v.toNat else s
    | _ => clearStatus s blk off v.toNat
  else plainPut s who blk off v

/-! Function windows, and RSVD_POLICY (00 R6 to R8, 15 R422, R425, R426). -/

/-- The block and offset that function 0 reaches through a block window (15 R425, 16 R463, 17 R493, 18 R522). -/
def windowBlock (off : Nat) : Option (Block × Nat) :=
  let page := off / 4096
  let o := off % 4096
  let num := fun (base n : Nat) => if h : page - base < n ∧ base ≤ page then some (⟨page - base, h.1⟩ : Fin n) else none
  match num 0x100 32, num 0x120 8, num 0x130 32, num 0x150 4, num 0x170 2, num 0x180 48 with
  | some b, _, _, _, _, _ => some (.bay b, o)
  | _, some k, _, _, _, _ => some (.stack k, o)
  | _, _, some n, _, _, _ => some (.shelver n, o)
  | _, _, _, some p, _, _ => some (.catalogue p, o)
  | _, _, _, _, some p, _ => some (.otfold p, o)
  | _, _, _, _, _, some p => some (.fabric p, o)
  | _, _, _, _, _, _ => if page == 0x160 then some (.security, o) else if page == 0x1B0 then some (.sequencer, o) else if page == 0x1C0 then some (.timePower, o) else none

/-- A register of the slow domain: DRAM_TEMP and TJ_MAX (06 R181, 12 R367). -/
def slowReg : Block → Nat → Bool
  | .stack _, 8 => true
  | .timePower, 0x118 => true
  | _, _ => false

/-- The bits of a register that its table defines, in the blocks that function 0 reaches; 0 for a location that no table lists. -/
def defined (blk : Block) (off : Nat) : Nat :=
  let full := 0xFFFFFFFF
  match blk with
  | .bay _ => match if 0x40 ≤ off && off < 0x60 then off - 0x20 else off with
    | 0 => 0x3F | 4 | 8 => full | 0xC => 0xFFFF | 0x10 => 0x3FF | 0x14 => 0x07FFFFFF | 0x18 => full | 0x20 => 0x01FFFF00 | 0x24 => 0x7F | 0x28 | 0x2C => 0xFFFF
    | 0x30 => 3 | 0x34 => 0x0FFFFFFF | 0x38 => full | 0x3C => 0x7FFFFFFF | 0x60 => 0xFFFF0001 | 0x64 => 0xFFFF7FFF | 0x68 | 0x6C => full | 0x70 => 0xFFFF | _ => 0
  | .matrix _ _ => full
  | .stack _ => match off with
    | 0 => 0xFF | 4 => 0x0FFFFFFF | 8 => 0x3FF | 0xC => 0xFFFF | 0x10 => 0x01FF01FF | 0x14 => 0x101FF | 0x18 => 0x1FFFF | 0x1C => 0xF77 | 0x20 => 0x7FFFF
    | 0x24 => 0x00FF3F03 | 0x28 | 0x2C | 0x30 => full | 0x34 => 0x3FFFFF | 0x38 => 0x1FF | 0x3C | 0x40 | 0x44 | 0x48 | 0x4C => full
    | 0x400 | 0x404 => 0x7FFFF | 0x408 => 0x07FFFFFF | 0x40C | 0x410 => full | 0x414 => 0xFFFF
    | _ => if off % 0x100 / 4 > 43 then 0 else match off / 0x100 with | 1 | 2 => 0x1FFFF | 3 => 0xFFFF | _ => 0
  | .shelver _ => match off with
    | 0 => 0x1F | 4 => 0x101FF | 8 => full | 0xC => 0xF | 0x10 => 0xFFFF | 0x14 | 0x18 => full | 0x1C | 0x20 => 1
    | _ => if off < 0x100 || off ≥ 0x220 then 0 else match off % 0x20 with
      | 0 => 0xFFFFFF80 | 4 | 0xC => 0x3FFF | 8 => 0xFFFFFFE0 | 0x10 => 0x7F | _ => 0xFFFF
  | .catalogue p => match 4096 * p.val + off with
    | 0 => 0x07FFFFFF | 4 => 0x00FFFFFF | 8 => 0x1FFFF | 0xC => 0x3FF | 0x10 | 0x14 | 0x18 => full | 0x1C => 1
    | n =>
      if 0x100 ≤ n && n < 0x280 then (if n % 8 == 0 then 0xFFFF8003 else 0x3FFF)
      else if 0x300 ≤ n && n < 0x400 then (match n % 0x20 with | 0 => 0xFFFFF000 | 4 | 0xC | 0x10 => full | 8 => 0xFF | _ => 0)
      else if 0x2000 ≤ n && n < 0x4000 then winMask (n % 32 / 4) else 0
  | .fabric p => match 4096 * p.val + off with
    | 0 => 0xFFFF | 4 => 0x3FFF | 8 => 0x001FFFFF | 0xC => 7 | 0x10 => 0xFFFF | 0x14 => 0x7FFF | 0x18 | 0x1C | 0x20 => full
    | n =>
      if 0x400 ≤ n && n < 0xA00 then (match n % 0x40 with
        | 0 => 0x137FF | 4 => 0x00FFFFFF | 8 => 0x7FFF | 0xC => 0xFFFFF | 0x10 | 0x14 | 0x18 | 0x1C | 0x20 => full | 0x24 => 0x1FFF | 0x28 => 0xFF | _ => 0)
      else if 0xC00 ≤ n && n < 0xD00 then (match n % 0x40 with | 0 => 0x03FFFFFF | 4 => 0x1F | 8 => 0x7FFFFF | _ => 0)
      else if 0x10000 ≤ n && n < 0x30000 then full else 0
  | .timePower => match off with
    | 0 | 4 => full | 8 => 0x00FFFFFF | 0xC => 7 | 0x10 | 0x14 | 0x18 => full | 0x1C | 0x20 => 0xFFFF | 0x24 => full | 0x100 => 0x00FFFFFF | 0x104 => 7
    | 0x108 | 0x10C | 0x110 | 0x114 => 0x7FF | 0x118 => 0x3FFF | 0x11C => 0x1FFFF | 0x120 | 0x124 | 0x128 | 0x12C | 0x130 | 0x134 => full
    | _ => if 0x200 ≤ off && off < 0x280 then 0xF3F3F else 0
  | .fn _ => match off with
    | 0 => 0x7FF | 4 => 0x001FFFFF | 8 => 0xFFFFFF00 | 0xC => full | 0x10 => 0xF1 | 0x14 => 0xFFFF | 0x18 => full | 0x1C => 0x1F | 0x20 => 0xFFFFFF80 | 0x24 => full
    | 0x28 => 0xF1 | 0x2C | 0x30 | 0x34 | 0x38 | 0x3C | 0x40 | 0x44 => full | 0x48 => 7 | 0x4C => 1
    | 0x800 => 0xFFFF | 0x804 => 0xFFFFFFC0 | 0x808 | 0x80C => full | 0x810 => 3 | 0x814 => 0x7FF | _ => 0
  | .otfold _ => match off with
    | 0 => 1 | 4 => 0xFFFFF | 8 => 0x07FFFFFF | 0xC => 0x1FFF | 0x10 | 0x14 | 0x18 | 0x1C | 0x20 => full | 0x24 => 0x1FFF1FFF | 0x28 => 0xFFFF | 0x2C => full
    | 0x30 => 0xFF | 0x34 => full | _ => 0
  | .security => match off with | 0 => 0xF | 4 => 0x007FFFFF | 8 | 0xC => 0x1FF | 0x10 => 0x7F | 0x14 => 7 | 0x18 => 0xFF | 0x1C => 0x1FFF | _ => 0
  | .sequencer => match off with
    | 0 => 0xF | 4 => 0x00FFFFFF | 8 => 0x7F | 0xC => 0xFFFF000F | 0x10 => 0xFF07 | 0x14 => 0xFFFFFF07 | 0x18 | 0x1C => full | 0x20 => 0xFF | 0x24 | 0x28 => full | _ => 0

/-- The reserved bits of a register that are live test controls under P (00 R6, 17 R468; assumption 3). -/
def liveBits (blk : Block) (off : Nat) : Word := Config.testControls (blockKey blk) off &&& ~~~BitVec.ofNat 32 (defined blk off)

/-- Live test controls take the bits written (00 R6). -/
def testPut (s : State) (blk : Block) (off : Nat) (v : Word) : State :=
  { s with regs := { s.regs with test := Tbl.put s.regs.test (regKey blk off) (v &&& liveBits blk off) } }

/-- A write of function 0 under P to the reserved bits of a register; a slow-domain register's is posted (00 R6, R7). -/
def reservedPut (s : State) (blk : Block) (off : Nat) (v : Word) : State :=
  if !s.regs.policyP then s
  else if slowReg blk off then { s with regs := { s.regs with slow := s.regs.slow ++ [{ who := .driver 0, blk, off, v }] } }
  else testPut s blk off v

/-- The queue that a doorbell offset of a function names, and whether it is CPL_DB (15 R426). -/
def doorbellOf (s : State) (f off : Nat) : Nat × Bool := ((f - 1) * (65536 / s.nparts) + (off - 0x80000) / 8, off % 8 == 4)

/-- Registers of a function whose access code permits no write (15 R423, 18 R500). -/
def fnReadOnly (off : Nat) : Bool := [0, 0x18, 0x1C, 0x2C, 0x3C, 0x40, 0x44, 0x48, 0x4C, 0x800, 0x814].contains off

/-- A read by the driver of a function, at an offset of its window: reserved locations and bits read as 0, or as the live test controls hold
(00 R6, 15 R422). -/
def driverRead (s : State) (f : FnNo) (off : Nat) : State × Nat :=
  let at_ := if off < 0x1000 then some (Block.fn f, off) else if f.val == 0 then windowBlock off else none
  match at_ with
  | none => (s, 0)
  | some (blk, o) =>
    let r := readReg s blk o
    (r.1, if f.val == 0 && s.regs.policyP then r.2 ||| (Tbl.getD s.regs.test (regKey blk o) 0#32).toNat else r.2)

/-- A write by the driver of a function, at an offset of its window (15 R422 to R426). -/
def driverWrite (s : State) (f : FnNo) (off : Nat) (v : Word) : State :=
  if off < 0x1000 then
    let s := writeReg s (.driver f) (.fn f) off v
    if f.val == 0 && !fnReadOnly off then reservedPut s (.fn f) off v else s
  else if f.val == 0 then match windowBlock off with | some (blk, o) => reservedPut s blk o v | none => s
  else if 0x80000 ≤ off && off < 0x100000 then
    let (q, cpl) := doorbellOf s f off
    if q ≥ 65536 then queueDbError s f q (v.toNat % 65536)
    else outState s (if cpl then execCplDb f (BitVec.ofNat 16 q) v s else execCmdDb f (BitVec.ofNat 16 q) v s)
  else s

/-! The rows. -/

/-- LO_READ_LATCH (00 R3). -/
def execLoReadLatch (pair : RegPair) (s : State) : Out :=
  match pairGet s pair.blk pair.off.toNat with
  | some v => .next (latchHi s pair.blk pair.off.toNat v)
  | none => .next s

/-- LO_WRITE_HOLD (00 R4). -/
def execLoWriteHold (who : Writer) (pair : RegPair) (v : Word) (s : State) : Out :=
  if mayWrite s who pair.blk && writablePair s pair.blk pair.off.toNat then .next (holdLo s pair.blk pair.off.toNat v) else .next s

/-- HI_WRITE_COMMIT (00 R4). -/
def execHiWriteCommit (who : Writer) (pair : RegPair) (v : Word) (s : State) : Out :=
  if mayWrite s who pair.blk && writablePair s pair.blk pair.off.toNat then
    .next (setPair s pair.blk pair.off.toNat (withHeld s pair.blk pair.off.toNat v))
  else .next s

/-- STATUS_SEQ_CLEAR (00 R5). -/
def execStatusSeqClear (who : Writer) (reg : StatusReg) (v : Word) (s : State) : Out :=
  if (clearable reg.blk reg.off.toNat).isSome then .next (writeReg s who reg.blk reg.off.toNat v) else .next s

/-- REGISTER_WRITE: the driver of function 0 reaches other blocks' reserved bits alone (00 R6, R8, 15 R425). -/
def execRegisterWrite (who : Writer) (blk : Block) (off : BitVec 12) (v : Word) (s : State) : Out :=
  let s' := writeReg s who blk off.toNat v
  match who, blk with
  | .driver f, .fn _ => .next (if f.val == 0 && !fnReadOnly off.toNat then reservedPut s' blk off.toNat v else s')
  | .driver f, .matrix _ _ => .next (if f.val == 0 then s' else s)
  | .driver f, _ => .next (if f.val == 0 then reservedPut s' blk off.toNat v else s)
  | _, _ => .next s'

/-- SLOW_WRITE_EFFECT: the oldest posted write takes effect (00 R7). -/
def execSlowWriteEffect (s : State) : Out :=
  match s.regs.slow with
  | [] => .next s
  | w :: rest => .next (testPut { s with regs := { s.regs with slow := rest } } w.blk w.off w.v)

end Sys2Proof.Machine
end

