-- ==== Sys2Proof/Machine/Otfold.lean ====
section
/-! DEFINITION. Messages of the Otfold ports: the companion's uncached reads, writes and atomics, register accesses and time requests, and the answers to the part's own requests (16_otfold_link.md R446 to R461). -/

namespace Sys2Proof.Machine

/-! A message (16 R446, R447). -/
namespace Ms

def mtype (m : OtHead) : Nat := fld m.hdr 0 0 8
def func (m : OtHead) : Nat := fld m.hdr 0 8 4
def agent (m : OtHead) : Nat := fld m.hdr 0 12 5
def tag (m : OtHead) : Nat := fld m.hdr 0 20 12
def status (m : OtHead) : Nat := fld m.hdr 4 0 8
/-- Data bytes: of a read, those it asks for. -/
def bytes (m : OtHead) : Nat := 4 * fld m.hdr 4 8 8
def poison (m : OtHead) : Bool := flag m.hdr 4 16
def addr (m : OtHead) : Nat := fld m.hdr 8 0 64
/-- The bits that the layout does not name. -/
def reservedClear (m : OtHead) : Bool := fld m.hdr 0 17 3 == 0 && fld m.hdr 4 19 13 == 0

/-- The codes that the table lists. -/
def known : List Nat := [1, 2, 3, 4, 5, 6, 7, 8, 9, 0xA, 0xB, 0x10, 0x11, 0x12, 0x13, 0x14, 0x15, 0x16, 0x20, 0x21, 0x22, 0x23]

/-- Whether an access of `n` bytes starts at a multiple of 4 and stays in one line (16 R446). -/
def accessOk (m : OtHead) (n : Nat) : Bool := decide (4 ≤ n) && decide (n ≤ 128) && n % 4 == 0 && addr m % 4 == 0 && decide (addr m % 128 + n ≤ 128)

end Ms

/-- A message discarded or answered ABORTED: BAD_MESSAGE, and its count (16 R447, R463). -/
def badMessage (s : State) (p : Nat) : State :=
  otEvent (s.modOt (fun o => o.setPort p { o.port p with badMessages := satInc (o.port p).badMessages })) p 26 2

/-- A request answered: its tag is free again. -/
def otAnswer (s : State) (p : Nat) (m : OtHead) (a : OtMsg) : State :=
  otSend (s.modOt (fun o => o.setPort p { o.port p with tags := Tbl.del (o.port p).tags (Ms.tag m) })) a

/-- A request that waits keeps its tag, and is to be presented again (16 R447, R461). -/
def otWait (s : State) (p : Nat) (m : OtHead) : State :=
  s.modOt (fun o => o.setPort p { o.port p with tags := Tbl.put (o.port p).tags (Ms.tag m) m })

/-- What a message that arrives as a request comes to before it is served: the port's first checks (16 R447, R448). -/
inductive OtGate where
  /-- It is none of this row's, or the port is not UP. -/
  | no
  /-- It is discarded: its tag is in use by another request, or its MTYPE is reserved. -/
  | drop
  /-- It is refused with a status. -/
  | refuse (status : Nat)
  | serve

/-- The gate of a request of one MTYPE; `ok` says that its layout is right. -/
def otGate (s : State) (p mtype : Nat) (m : OtHead) (ok : Bool) : OtGate :=
  let held := Tbl.find (s.ot.port p).tags (Ms.tag m)
  if (s.ot.port p).link.state != 4 then .no
  else if !Ms.known.contains (Ms.mtype m) then .drop
  else if Ms.mtype m != mtype then .no
  else if held.isSome && held != some m then .drop
  else if !(ok && Ms.reservedClear m) then .refuse Status.aborted.code
  else if !(otServes s p (Ms.func m) && decide (Ms.func m < 9) && s.fnExists (Ms.func m)) then .refuse Status.permission.code
  else .serve

/-- A request of one MTYPE arrives: discarded, refused with `answer`, or served (16 R447, R448). -/
def otRequest (s : State) (p mtype : Nat) (m : OtHead) (ok : Bool) (answer : Nat → OtMsg) (serve : State → State) : State :=
  match otGate s p mtype m ok with
  | .no => s
  | .drop => badMessage s p
  | .refuse st => otAnswer (if st == Status.aborted.code then badMessage s p else s) p m (answer st)
  | .serve => serve s

/-- What the checks of a memory request come to (16 R449). -/
inductive OtMem where
  | bad (s : State) (status : Nat)
  | ok (rq : Rq) (d : Nat)

/-- The checks of a memory request, in the order of R449 (16 R448 to R450, 06 R157). -/
def otMemCheck (s : State) (p : Nat) (m : OtHead) : OtMem :=
  let part := Ms.func m - 1
  let x := s.ot.port p
  if Ms.func m == 0 then .bad s Status.permission.code
  else match if Ms.addr m < 2 ^ 46 then usable (Ms.addr m) else none with
    | none => .bad s Status.permission.code
    | some d =>
      let rq : Rq := { master := 40 + p, part }
      if Ms.agent m ≥ x.agents || bitsAt x.agentDown.toNat (Ms.agent m) 1 == 1 then .bad s Status.isolated.code
      else if !shelfAllows s part d then .bad (refuseRequest s rq (stackOf d) 25 d) Status.permission.code
      else if s.ot.sealMap.contains (d / 0x200000) then .bad (otEvent s p 25 2 (some (2 ^ part))) Status.denied.code
      else .ok rq d

/-- A memory request that has passed its port's gate: refused, waiting, or performed at the home (16 R449, R461, 06 R180). -/
def otMemory (s : State) (p : Nat) (m : OtHead) (refuse : Nat → OtMsg) (perform : State → Rq → Nat → Got OtMsg) : State :=
  match otMemCheck s p m with
  | .bad s st => otAnswer s p m (refuse st)
  | .ok rq d =>
    if s.seq.restart != 0 || stackStopped (s.stack (stackOf d)) then otWait s p m
    else match perform s rq d with
      | .ok s a => otAnswer s p m a
      | .wait s => otWait s p m
      | .bad s _ => otAnswer s p m (refuse Status.permission.code)

/-- DATA, or ACK, that refuses a request: it carries no data (16 R447). -/
def otDataBad (p : Nat) (m : OtHead) (st : Nat) : OtMsg := .data p (Ms.func m) (Ms.tag m) st false []
def otAckBad (p : Nat) (m : OtHead) (st : Nat) : OtMsg := .ack p (Ms.func m) (Ms.tag m) st

/-- RD_NC: LEN gives the bytes it asks for; poisoned data return with POISON set (16 R449, R459). -/
def execRdNc (port : Fin 2) (m : OtHead) (s : State) : Out :=
  .next (otRequest s port 6 m (Ms.accessOk m (Ms.bytes m) && m.data.isEmpty) (otDataBad port m) (fun s =>
    otMemory s port m (otDataBad port m) (fun s rq d =>
      match engineRead s rq 0 d (Ms.bytes m) with
      | .ok s (bs, bad) => .ok s (.data port (Ms.func m) (Ms.tag m) 0 bad bs)
      | .wait s => .wait s
      | .bad s a => .bad s a)))

/-- WR_NC; data with POISON set are written in the poisoned form (16 R449, R459). -/
def execWrNc (port : Fin 2) (m : OtHead) (s : State) : Out :=
  .next (otRequest s port 7 m (Ms.accessOk m (Ms.bytes m) && m.data.length == Ms.bytes m) (otAckBad port m) (fun s =>
    otMemory s port m (otAckBad port m) (fun s rq d =>
      match engineWrite s rq 0 d m.data (Ms.poison m) with
      | .ok s _ => .ok s (.ack port (Ms.func m) (Ms.tag m) 0)
      | .wait s => .wait s
      | .bad s a => .bad s a)))

/-- Opcode word, operand and compare value of an ATOMIC (16 R452). -/
def otWordAt (m : OtHead) (i : Nat) : Nat := natLE ((m.data.drop (8 * i)).take 8)
def otAtomicBytes (m : OtHead) : Nat := if bitsAt (otWordAt m 0) 8 1 == 1 then 8 else 4

/-- Whether an ATOMIC's layout is right: an opcode of 10 to 15 is answered with ABORTED (16 R452). -/
def otAtomicOk (m : OtHead) : Bool :=
  let w := otWordAt m 0
  m.data.length == 24 && Ms.bytes m == 24 && w % 16 + put (w / 256) 8 1 == w && decide (w % 16 < 10) && Ms.addr m % otAtomicBytes m == 0

/-- ATOMIC: a far AMO at the home, which answers the old value (16 R452, 08 R233). -/
def execOtAtomic (port : Fin 2) (m : OtHead) (s : State) : Out :=
  .next (otRequest s port 8 m (otAtomicOk m) (otDataBad port m) (fun s =>
    otMemory s port m (otDataBad port m) (fun s rq d =>
      let n := otAtomicBytes m
      match prepare s rq true [(d, n)] with
      | .ok s _ =>
        let (s, old, bad) := farPerform (chargeGranules s (stackOf d) rq 1) rq.part 0 d (otWordAt m 0 % 16) n (otWordAt m 1) (otWordAt m 2)
        .ok s (.data port (Ms.func m) (Ms.tag m) 0 bad (bytesLE 8 old))
      | .wait s => .wait s
      | .bad s a => .bad s a)))

/-- The window offset of a register access (16 R453). -/
def otOffset (m : OtHead) : Nat := Ms.addr m % 2 ^ 21

/-- The function that a message names. -/
def otFn (m : OtHead) : FnNo := Fin.ofNat 9 (Ms.func m)

/-- REG_RD (16 R453, 15 R422). -/
def execRegRd (port : Fin 2) (m : OtHead) (s : State) : Out :=
  .next (otRequest s port 9 m (otOffset m % 4 == 0 && m.data.isEmpty) (otDataBad port m) (fun s =>
    let (s, v) := driverRead s (otFn m) (otOffset m)
    otAnswer s port m (.data port (Ms.func m) (Ms.tag m) 0 false (bytesLE 4 v))))

/-- Whether a write or an ATOMIC of a port has not been performed at its home (16 R458). -/
def otWritesWait (s : State) (p : Nat) : Bool := (s.ot.port p).tags.any (fun t => Ms.mtype t.2 == 7 || Ms.mtype t.2 == 8)

/-- REG_WR: posted; it takes effect only after the port's earlier writes and ATOMICs, and is presented again while one waits (16 R453, R458). -/
def execRegWr (port : Fin 2) (m : OtHead) (s : State) : Out :=
  match otGate s port 0xA m (otOffset m % 4 == 0 && m.data.length == 4 && Ms.bytes m == 4) with
  | .no => .next s
  | .drop => .next (badMessage s port)
  | .refuse st => .next (if st == Status.aborted.code then badMessage s port else s)
  | .serve =>
    if otWritesWait s port then .next s
    else .next (driverWrite s (otFn m) (otOffset m) (BitVec.ofNat 32 (natLE m.data)))

/-- TIME_REQ: T_RX and T_TX are the Datestamp of the step (16 R457). -/
def execTimeReq (port : Fin 2) (m : OtHead) (s : State) : Out :=
  let answer := fun (st : Nat) => OtMsg.timeRsp port (Ms.func m) (Ms.tag m) st []
  .next (otRequest s port 0xB m m.data.isEmpty answer (fun s =>
    otAnswer s port m (.timeRsp port (Ms.func m) (Ms.tag m) 0 (bytesLE 8 s.now ++ bytesLE 8 s.now))))

/-! Answers to CM_RD and CM_WR (16 R454, R455, R459, 12 R344). -/

/-- The CM request that an answer on a port names. -/
def cmFind (s : State) (p tag : Nat) (read : Bool) : Option CmReq :=
  s.ot.cm.find? (fun r => r.sent && r.port == p && r.tag % 4096 == tag && (r.read != 0) == read)

/-- A CM request that has ended; the interrupts that waited for it are sent (16 R458). -/
def cmEnd (s : State) (r : CmReq) : State := settleIntr (s.modOt (fun o => { o with cm := o.cm.filter (fun x => x.tag != r.tag) }))

/-- Whether an address lies in a function's event ring (16 R455). -/
def inEventRing (x : Fn) (a : Nat) : Bool := decide (x.evBase.toNat ≤ a) && decide (a < x.evBase.toNat + 128 * evEntries x)

/-- An answer whose STATUS is not OK, or that is poisoned: ENABLE cleared and EV_LOST for the event ring, else ERROR on the function (16 R455). -/
def cmFailed (s : State) (r : CmReq) : State :=
  if inEventRing (s.fn r.fn) r.addr then
    s.modFn r.fn (fun x => { x with evCtrl := x.evCtrl &&& ~~~1#32, status := statusFlag x.status 17 })
  else postEvent s r.fn 1 0 2 (errBody { block := 11, inst := r.port, cause := 0, sev := 2, parts := if r.fn == 0 then 0 else 2 ^ (r.fn - 1) })

/-- A request that has ended with TIMEOUT: CPL_TIMEOUT; it is issued again with a new deadline once a port is UP, but the boot ROM's LOAD
ends (16 R455, R463, 18 R500). -/
def cmTimeout (s : State) (r : CmReq) : State :=
  let s := otEvent s r.port 24 2
  match r.use with
  | .boot _ => bootTimeout (cmEnd s r)
  | _ => reissueCm (s.modOt (fun o => { o with cm := o.cm.map (fun x => if x.tag == r.tag then { x with sent := false } else x) }))

/-- A request answered: a read's bytes go where they were asked for. -/
def cmAnswer (s : State) (p : Nat) (m : OtHead) (read : Bool) : State :=
  if (s.ot.port p).link.state != 4 then s
  else match cmFind s p (Ms.tag m) read with
    | none => s
    | some r =>
      if s.now > r.deadline then cmTimeout s r
      else
        let bad := Ms.status m != 0 || (read && Ms.poison m)
        let s := cmEnd s r
        let s := if bad then cmFailed s r else s
        match r.use with
        | .boot off => bootPiece s off (if bad then [] else m.data.take r.read)
        | _ => s

/-- DATA: the answer of a CM_RD (16 R454, R455). -/
def execData (port : Fin 2) (m : OtHead) (s : State) : Out := .next (if Ms.mtype m == 0x21 then cmAnswer s port m true else s)

/-- ACK: the answer of a CM_WR (16 R454, R455). -/
def execAck (port : Fin 2) (m : OtHead) (s : State) : Out := .next (if Ms.mtype m == 0x22 then cmAnswer s port m false else s)

/-- CM_DEADLINE: a request's deadline has passed (16 R455, 12 R344). -/
def execCmDeadline (tag : BitVec 12) (s : State) : Out :=
  match s.ot.cm.find? (fun r => r.sent && r.tag % 4096 == tag.toNat) with
  | none => .next s
  | some r => .next (cmTimeout (reach s (r.deadline + 1)) r)

end Sys2Proof.Machine
end

