-- ==== Sys2Proof/Machine/Dispatch.lean ====
section
/-! DEFINITION. The dispatch: one arm for each constructor of Instr, one direct call of its meaning. -/

namespace Sys2Proof.Machine

def exec (i : Instr) (s : State) : Host.Outcome State Fault Refusal :=
  match i with
  | .loReadLatch pair => Sys2Proof.Machine.execLoReadLatch pair s
  | .loWriteHold who pair v => Sys2Proof.Machine.execLoWriteHold who pair v s
  | .hiWriteCommit who pair v => Sys2Proof.Machine.execHiWriteCommit who pair v s
  | .statusSeqClear who reg v => Sys2Proof.Machine.execStatusSeqClear who reg v s
  | .registerWrite who blk off v => Sys2Proof.Machine.execRegisterWrite who blk off v s
  | .slowWriteEffect => Sys2Proof.Machine.execSlowWriteEffect s
  | .bankOwnerWrite who bay hi v => Sys2Proof.Machine.execBankOwnerWrite who bay hi v s
  | .handoverComplete bay bank => Sys2Proof.Machine.execHandoverComplete bay bank s
  | .moverWrWrite bay port wr => Sys2Proof.Machine.execMoverWrWrite bay port wr s
  | .groupPretranslate bay port => Sys2Proof.Machine.execGroupPretranslate bay port s
  | .ttbEntriesFree bay port => Sys2Proof.Machine.execTtbEntriesFree bay port s
  | .moverTileBegin bay port => Sys2Proof.Machine.execMoverTileBegin bay port s
  | .moverLoad bay port => Sys2Proof.Machine.execMoverLoad bay port s
  | .moverStore bay port => Sys2Proof.Machine.execMoverStore bay port s
  | .moverCopyLocal bay port => Sys2Proof.Machine.execMoverCopyLocal bay port s
  | .moverFill bay port => Sys2Proof.Machine.execMoverFill bay port s
  | .moverPrefetch bay port => Sys2Proof.Machine.execMoverPrefetch bay port s
  | .moverDescriptorComplete bay port => Sys2Proof.Machine.execMoverDescriptorComplete bay port s
  | .moverResume bay port => Sys2Proof.Machine.execMoverResume bay port s
  | .moverFlush bay port => Sys2Proof.Machine.execMoverFlush bay port s
  | .testIntervalExpire bay => Sys2Proof.Machine.execTestIntervalExpire bay s
  | .testCopyDone bay => Sys2Proof.Machine.execTestCopyDone bay s
  | .marchCDone bay failed => Sys2Proof.Machine.execMarchCDone bay failed s
  | .testRestoreDone bay => Sys2Proof.Machine.execTestRestoreDone bay s
  | .bayReset bay => Sys2Proof.Machine.execBayReset bay s
  | .bayResetDrainLimit bay => Sys2Proof.Machine.execBayResetDrainLimit bay s
  | .coreFenceWrite bay core => Sys2Proof.Machine.execCoreFenceWrite bay core s
  | .flitParityError site replayOk => Sys2Proof.Machine.execFlitParityError site replayOk s
  | .linkSilence plane a b => Sys2Proof.Machine.execLinkSilence plane a b s
  | .routerSelfCheckFault router => Sys2Proof.Machine.execRouterSelfCheckFault router s
  | .routeTablesInstall => Sys2Proof.Machine.execRouteTablesInstall s
  | .requestDeadline index => Sys2Proof.Machine.execRequestDeadline index s
  | .cardInject index => Sys2Proof.Machine.execCardInject index s
  | .doorbell sh queue index => Sys2Proof.Machine.execDoorbell sh queue index s
  | .fenceSignalMsg src dst arg => Sys2Proof.Machine.execFenceSignalMsg src dst arg s
  | .tileRun bay => Sys2Proof.Machine.execTileRun bay s
  | .tilePreempt bay => Sys2Proof.Machine.execTilePreempt bay s
  | .tileKill bay => Sys2Proof.Machine.execTileKill bay s
  | .tileDone => Sys2Proof.Machine.execTileDone s
  | .interrupt src dst arg => Sys2Proof.Machine.execInterrupt src dst arg s
  | .powerCmd src dst arg => Sys2Proof.Machine.execPowerCmd src dst arg s
  | .moverNotify bay => Sys2Proof.Machine.execMoverNotify bay s
  | .faultReport => Sys2Proof.Machine.execFaultReport s
  | .user dst => Sys2Proof.Machine.execUser dst s
  | .routerCtrl src dst arg => Sys2Proof.Machine.execRouterCtrl src dst arg s
  | .mxPushS bay mx writer => Sys2Proof.Machine.execMxPushS bay mx writer s
  | .mxPushV bay mx writer => Sys2Proof.Machine.execMxPushV bay mx writer s
  | .mxNop bay mx => Sys2Proof.Machine.execMxNop bay mx s
  | .loadTile bay mx => Sys2Proof.Machine.execLoadTile bay mx s
  | .storeTile bay mx => Sys2Proof.Machine.execStoreTile bay mx s
  | .anchorSet bay mx => Sys2Proof.Machine.execAnchorSet bay mx s
  | .expScan bay mx => Sys2Proof.Machine.execExpScan bay mx s
  | .mma bay mx => Sys2Proof.Machine.execMma bay mx s
  | .mmaFp64 bay mx => Sys2Proof.Machine.execMmaFp64 bay mx s
  | .conv bay mx => Sys2Proof.Machine.execConv bay mx s
  | .accRead bay mx => Sys2Proof.Machine.execAccRead bay mx s
  | .accSave bay mx => Sys2Proof.Machine.execAccSave bay mx s
  | .accLoad bay mx => Sys2Proof.Machine.execAccLoad bay mx s
  | .quantMx bay mx => Sys2Proof.Machine.execQuantMx bay mx s
  | .mxDescriptorComplete bay mx => Sys2Proof.Machine.execMxDescriptorComplete bay mx s
  | .rampStep bay mx up => Sys2Proof.Machine.execRampStep bay mx up s
  | .mxResume bay mx => Sys2Proof.Machine.execMxResume bay mx s
  | .mxFlush bay mx => Sys2Proof.Machine.execMxFlush bay mx s
  | .matrixCoreReset bay mx => Sys2Proof.Machine.execMatrixCoreReset bay mx s
  | .riscvInstruction bay core word => Sys2Proof.Machine.execRiscvInstruction bay core word s
  | .cnSend bay core rd rs1 rs2 => Sys2Proof.Machine.execCnSend bay core rd rs1 rs2 s
  | .cnTrysend bay core rd rs1 rs2 => Sys2Proof.Machine.execCnTrysend bay core rd rs1 rs2 s
  | .cnRecv bay core rd rs1 => Sys2Proof.Machine.execCnRecv bay core rd rs1 s
  | .cnRecvDeadline bay core => Sys2Proof.Machine.execCnRecvDeadline bay core s
  | .dsRead bay core rd => Sys2Proof.Machine.execDsRead bay core rd s
  | .dsWait bay core rd rs1 => Sys2Proof.Machine.execDsWait bay core rd rs1 s
  | .dsWaitReturn bay core => Sys2Proof.Machine.execDsWaitReturn bay core s
  | .tileYield bay core rs1 => Sys2Proof.Machine.execTileYield bay core rs1 s
  | .bayGive bay core rd rs1 rs2 => Sys2Proof.Machine.execBayGive bay core rd rs1 rs2 s
  | .bayOwn bay core rd => Sys2Proof.Machine.execBayOwn bay core rd s
  | .vaSeta bay core rs1 vm => Sys2Proof.Machine.execVaSeta bay core rs1 vm s
  | .vaAddV bay core vs2 vm => Sys2Proof.Machine.execVaAddV bay core vs2 vm s
  | .vaMacVv bay core vs2 vs1 vm => Sys2Proof.Machine.execVaMacVv bay core vs2 vs1 vm s
  | .vaRedV bay core vs2 vm => Sys2Proof.Machine.execVaRedV bay core vs2 vm s
  | .vaRedmacVv bay core vs2 vs1 vm => Sys2Proof.Machine.execVaRedmacVv bay core vs2 vs1 vm s
  | .vaRdV bay core vd vm => Sys2Proof.Machine.execVaRdV bay core vd vm s
  | .vaRdx bay core vd rs1 => Sys2Proof.Machine.execVaRdx bay core vd rs1 s
  | .vaSave bay core rs1 => Sys2Proof.Machine.execVaSave bay core rs1 s
  | .vaLoad bay core rs1 => Sys2Proof.Machine.execVaLoad bay core rs1 s
  | .vaAddrec bay core rs1 => Sys2Proof.Machine.execVaAddrec bay core rs1 s
  | .vfexpmaxVs bay core vd vs2 vs1 vm => Sys2Proof.Machine.execVfexpmaxVs bay core vd vs2 vs1 vm s
  | .vfexp2 bay core vd vs2 vm bf16 => Sys2Proof.Machine.execVfexp2 bay core vd vs2 vm bf16 s
  | .vflog2 bay core vd vs2 vm bf16 => Sys2Proof.Machine.execVflog2 bay core vd vs2 vm bf16 s
  | .vfsinpi bay core vd vs2 vm bf16 => Sys2Proof.Machine.execVfsinpi bay core vd vs2 vm bf16 s
  | .vfcospi bay core vd vs2 vm bf16 => Sys2Proof.Machine.execVfcospi bay core vd vs2 vm bf16 s
  | .vftanh bay core vd vs2 vm bf16 => Sys2Proof.Machine.execVftanh bay core vd vs2 vm bf16 s
  | .vferf bay core vd vs2 vm bf16 => Sys2Proof.Machine.execVferf bay core vd vs2 vm bf16 s
  | .vfrsqrt bay core vd vs2 vm bf16 => Sys2Proof.Machine.execVfrsqrt bay core vd vs2 vm bf16 s
  | .vfrecip bay core vd vs2 vm bf16 => Sys2Proof.Machine.execVfrecip bay core vd vs2 vm bf16 s
  | .vbl2d bay core vd rs1 rs2 rowCode regCode => Sys2Proof.Machine.execVbl2d bay core vd rs1 rs2 rowCode regCode s
  | .vbs2d bay core vs3 rs1 rs2 rowCode regCode => Sys2Proof.Machine.execVbs2d bay core vs3 rs1 rs2 rowCode regCode s
  | .gangStart bay => Sys2Proof.Machine.execGangStart bay s
  | .stackRequest req => Sys2Proof.Machine.execStackRequest req s
  | .writebackPart k part => Sys2Proof.Machine.execWritebackPart k part s
  | .flushPart k part => Sys2Proof.Machine.execFlushPart k part s
  | .flushShelf k shelf => Sys2Proof.Machine.execFlushShelf k shelf s
  | .flushAll k => Sys2Proof.Machine.execFlushAll k s
  | .mscMaintDone k => Sys2Proof.Machine.execMscMaintDone k s
  | .lookaheadRange k bay order addr bytes => Sys2Proof.Machine.execLookaheadRange k bay order addr bytes s
  | .prefetchIssue k => Sys2Proof.Machine.execPrefetchIssue k s
  | .laneFail k channel => Sys2Proof.Machine.execLaneFail k channel s
  | .patrolScrub k symbols => Sys2Proof.Machine.execPatrolScrub k symbols s
  | .dramTempSample k temp => Sys2Proof.Machine.execDramTempSample k temp s
  | .regulationWindow k => Sys2Proof.Machine.execRegulationWindow k s
  | .shNop sh => Sys2Proof.Machine.execShNop sh s
  | .shCopy sh => Sys2Proof.Machine.execShCopy sh s
  | .shFill sh => Sys2Proof.Machine.execShFill sh s
  | .shGather sh => Sys2Proof.Machine.execShGather sh s
  | .shScatter sh => Sys2Proof.Machine.execShScatter sh s
  | .shReduce sh => Sys2Proof.Machine.execShReduce sh s
  | .shAtomic sh => Sys2Proof.Machine.execShAtomic sh s
  | .shScan sh => Sys2Proof.Machine.execShScan sh s
  | .shTranspose sh => Sys2Proof.Machine.execShTranspose sh s
  | .shMeasure sh => Sys2Proof.Machine.execShMeasure sh s
  | .shScrub sh => Sys2Proof.Machine.execShScrub sh s
  | .shPatternTest sh failed => Sys2Proof.Machine.execShPatternTest sh failed s
  | .shPrefetch sh => Sys2Proof.Machine.execShPrefetch sh s
  | .shSealIngest sh => Sys2Proof.Machine.execShSealIngest sh s
  | .shMigrate sh => Sys2Proof.Machine.execShMigrate sh s
  | .shelverChunkDone sh => Sys2Proof.Machine.execShelverChunkDone sh s
  | .shelverComplete sh => Sys2Proof.Machine.execShelverComplete sh s
  | .shWatchdogExpire sh => Sys2Proof.Machine.execShWatchdogExpire sh s
  | .scratchParityError sh => Sys2Proof.Machine.execScratchParityError sh s
  | .halt sh => Sys2Proof.Machine.execHalt sh s
  | .mirrorStop sh => Sys2Proof.Machine.execMirrorStop sh s
  | .compressedWriteback block => Sys2Proof.Machine.execCompressedWriteback block s
  | .rdShared agent line => Sys2Proof.Machine.execRdShared agent line s
  | .rdOwn agent line => Sys2Proof.Machine.execRdOwn agent line s
  | .upgrade agent line => Sys2Proof.Machine.execUpgrade agent line s
  | .writeback agent line poison data => Sys2Proof.Machine.execWriteback agent line poison data s
  | .cleanEvict agent line => Sys2Proof.Machine.execCleanEvict agent line s
  | .snpShare agent line => Sys2Proof.Machine.execSnpShare agent line s
  | .snpInv agent line => Sys2Proof.Machine.execSnpInv agent line s
  | .snpData agent line => Sys2Proof.Machine.execSnpData agent line s
  | .snpRsp agent line state poison data => Sys2Proof.Machine.execSnpRsp agent line state poison data s
  | .grant agent line => Sys2Proof.Machine.execGrant agent line s
  | .snoopHoldExpire agent line => Sys2Proof.Machine.execSnoopHoldExpire agent line s
  | .farAmo agent tag addr op double operand compare => Sys2Proof.Machine.execFarAmo agent tag addr op double operand compare s
  | .snoopDeadline line => Sys2Proof.Machine.execSnoopDeadline line s
  | .l1dFlushTimeout bay core => Sys2Proof.Machine.execL1dFlushTimeout bay core s
  | .catalogueLookup req key va access pages => Sys2Proof.Machine.execCatalogueLookup req key va access pages s
  | .tableWalk record => Sys2Proof.Machine.execTableWalk record s
  | .dirty key va => Sys2Proof.Machine.execDirty key va s
  | .mapChunk => Sys2Proof.Machine.execMapChunk s
  | .prepare => Sys2Proof.Machine.execPrepare s
  | .vote => Sys2Proof.Machine.execVote s
  | .commit => Sys2Proof.Machine.execCommit s
  | .concAbort => Sys2Proof.Machine.execConcAbort s
  | .drain => Sys2Proof.Machine.execDrain s
  | .query => Sys2Proof.Machine.execQuery s
  | .state => Sys2Proof.Machine.execState s
  | .prepareDeadline handle => Sys2Proof.Machine.execPrepareDeadline handle s
  | .switchAt handle => Sys2Proof.Machine.execSwitchAt handle s
  | .graceLimit handle => Sys2Proof.Machine.execGraceLimit handle s
  | .recoverStateWait handle => Sys2Proof.Machine.execRecoverStateWait handle s
  | .trainDone port badLanes => Sys2Proof.Machine.execTrainDone port badLanes s
  | .alignDone port => Sys2Proof.Machine.execAlignDone port s
  | .handshakeDone port peer => Sys2Proof.Machine.execHandshakeDone port peer s
  | .linkStepLimit port => Sys2Proof.Machine.execLinkStepLimit port s
  | .heldTimeout port => Sys2Proof.Machine.execHeldTimeout port s
  | .dataFlit port flit => Sys2Proof.Machine.execDataFlit port flit s
  | .ctrlFlit port flit => Sys2Proof.Machine.execCtrlFlit port flit s
  | .idleFlit port flit => Sys2Proof.Machine.execIdleFlit port flit s
  | .timeFlit port flit => Sys2Proof.Machine.execTimeFlit port flit s
  | .timeFlitSend port => Sys2Proof.Machine.execTimeFlitSend port s
  | .flitCrcError port fec => Sys2Proof.Machine.execFlitCrcError port fec s
  | .frameAuthFail port => Sys2Proof.Machine.execFrameAuthFail port s
  | .flitSilence port => Sys2Proof.Machine.execFlitSilence port s
  | .fecLockLoss port => Sys2Proof.Machine.execFecLockLoss port s
  | .keyRollover port => Sys2Proof.Machine.execKeyRollover port s
  | .rd port pkt => Sys2Proof.Machine.execRd port pkt s
  | .wr port pkt => Sys2Proof.Machine.execWr port pkt s
  | .atomic port pkt => Sys2Proof.Machine.execAtomic port pkt s
  | .rdResp port pkt => Sys2Proof.Machine.execRdResp port pkt s
  | .wrAck port pkt => Sys2Proof.Machine.execWrAck port pkt s
  | .atomicResp port pkt => Sys2Proof.Machine.execAtomicResp port pkt s
  | .coll port pkt => Sys2Proof.Machine.execColl port pkt s
  | .conc port pkt => Sys2Proof.Machine.execConc port pkt s
  | .mgmt port pkt => Sys2Proof.Machine.execMgmt port pkt s
  | .fabricDeadline tag => Sys2Proof.Machine.execFabricDeadline tag s
  | .tagFree => Sys2Proof.Machine.execTagFree s
  | .allreduce engine id => Sys2Proof.Machine.execAllreduce engine id s
  | .collReduce engine id => Sys2Proof.Machine.execCollReduce engine id s
  | .broadcast engine id => Sys2Proof.Machine.execBroadcast engine id s
  | .allgather engine id => Sys2Proof.Machine.execAllgather engine id s
  | .reduceScatter engine id => Sys2Proof.Machine.execReduceScatter engine id s
  | .barrier engine id => Sys2Proof.Machine.execBarrier engine id s
  | .expMax engine id => Sys2Proof.Machine.execExpMax engine id s
  | .collStartAt engine id => Sys2Proof.Machine.execCollStartAt engine id s
  | .collDone engine pkt => Sys2Proof.Machine.execCollDone engine pkt s
  | .collComplete engine pkt => Sys2Proof.Machine.execCollComplete engine pkt s
  | .collDeadline engine id => Sys2Proof.Machine.execCollDeadline engine id s
  | .syncIn stamp => Sys2Proof.Machine.execSyncIn stamp s
  | .syncInLoss => Sys2Proof.Machine.execSyncInLoss s
  | .syncOutPulse => Sys2Proof.Machine.execSyncOutPulse s
  | .powerEpochBoundary => Sys2Proof.Machine.execPowerEpochBoundary s
  | .voteInstant => Sys2Proof.Machine.execVoteInstant s
  | .voteDeadline handle => Sys2Proof.Machine.execVoteDeadline handle s
  | .voltageOffset => Sys2Proof.Machine.execVoltageOffset s
  | .powerVote => Sys2Proof.Machine.execPowerVote s
  | .decide => Sys2Proof.Machine.execDecide s
  | .powerSample mw => Sys2Proof.Machine.execPowerSample mw s
  | .droopDetect bay => Sys2Proof.Machine.execDroopDetect bay s
  | .droopRelease bay => Sys2Proof.Machine.execDroopRelease bay s
  | .stretchDecay bay => Sys2Proof.Machine.execStretchDecay bay s
  | .thermalSensorSample bay temp => Sys2Proof.Machine.execThermalSensorSample bay temp s
  | .thermalTrip => Sys2Proof.Machine.execThermalTrip s
  | .boostBucket => Sys2Proof.Machine.execBoostBucket s
  | .dispatch cmd => Sys2Proof.Machine.execDispatch cmd s
  | .shelve cmd => Sys2Proof.Machine.execShelve cmd s
  | .shelveSubmit k => Sys2Proof.Machine.execShelveSubmit k s
  | .collective cmd => Sys2Proof.Machine.execCollective cmd s
  | .hint cmd => Sys2Proof.Machine.execHint cmd s
  | .sync cmd => Sys2Proof.Machine.execSync cmd s
  | .queueRead queue command => Sys2Proof.Machine.execQueueRead queue command s
  | .queueSwapIn queue => Sys2Proof.Machine.execQueueSwapIn queue s
  | .commandRelease cmd => Sys2Proof.Machine.execCommandRelease cmd s
  | .tilePlace handle bay => Sys2Proof.Machine.execTilePlace handle bay s
  | .timesliceExpire handle ctx => Sys2Proof.Machine.execTimesliceExpire handle ctx s
  | .tileWatchdog bay => Sys2Proof.Machine.execTileWatchdog bay s
  | .preemptGraceExpire bay => Sys2Proof.Machine.execPreemptGraceExpire bay s
  | .runtimeResponseTimeout bay => Sys2Proof.Machine.execRuntimeResponseTimeout bay s
  | .preemptAt handle => Sys2Proof.Machine.execPreemptAt handle s
  | .resumeAt handle => Sys2Proof.Machine.execResumeAt handle s
  | .volPreemptRelay => Sys2Proof.Machine.execVolPreemptRelay s
  | .volPreemptReport => Sys2Proof.Machine.execVolPreemptReport s
  | .fmMessage => Sys2Proof.Machine.execFmMessage s
  | .fmAck => Sys2Proof.Machine.execFmAck s
  | .fmSendTimeout slot => Sys2Proof.Machine.execFmSendTimeout slot s
  | .mbDb fn v => Sys2Proof.Machine.execMbDb fn v s
  | .mailboxRead fn data => Sys2Proof.Machine.execMailboxRead fn data s
  | .cmdDb fn queue v => Sys2Proof.Machine.execCmdDb fn queue v s
  | .cplDb fn queue v => Sys2Proof.Machine.execCplDb fn queue v s
  | .irqMaskWrite fn hi v => Sys2Proof.Machine.execIrqMaskWrite fn hi v s
  | .heartbeat => Sys2Proof.Machine.execHeartbeat s
  | .rsvdPolicy slot => Sys2Proof.Machine.execRsvdPolicy slot s
  | .isolation slot => Sys2Proof.Machine.execIsolation slot s
  | .boostEn slot => Sys2Proof.Machine.execBoostEn slot s
  | .hintsEn slot => Sys2Proof.Machine.execHintsEn slot s
  | .deviceId slot => Sys2Proof.Machine.execDeviceId slot s
  | .scrubPeriod slot => Sys2Proof.Machine.execScrubPeriod slot s
  | .colophonRead slot => Sys2Proof.Machine.execColophonRead slot s
  | .partMode slot => Sys2Proof.Machine.execPartMode slot s
  | .partReleaseDrain slot => Sys2Proof.Machine.execPartReleaseDrain slot s
  | .partReleaseSquash slot => Sys2Proof.Machine.execPartReleaseSquash slot s
  | .drainLimit part => Sys2Proof.Machine.execDrainLimit part s
  | .partitionScrub part => Sys2Proof.Machine.execPartitionScrub part s
  | .partQuiesce slot => Sys2Proof.Machine.execPartQuiesce slot s
  | .partQuiesceCancel slot => Sys2Proof.Machine.execPartQuiesceCancel slot s
  | .partExport slot => Sys2Proof.Machine.execPartExport slot s
  | .partImport slot => Sys2Proof.Machine.execPartImport slot s
  | .dsSet slot => Sys2Proof.Machine.execDsSet slot s
  | .pwrCap slot => Sys2Proof.Machine.execPwrCap slot s
  | .freqTarget slot => Sys2Proof.Machine.execFreqTarget slot s
  | .schedSet slot => Sys2Proof.Machine.execSchedSet slot s
  | .bwGuarantee slot => Sys2Proof.Machine.execBwGuarantee slot s
  | .routeLoad slot table => Sys2Proof.Machine.execRouteLoad slot table s
  | .portConfig slot => Sys2Proof.Machine.execPortConfig slot s
  | .maintFuse slot => Sys2Proof.Machine.execMaintFuse slot s
  | .fmSend slot => Sys2Proof.Machine.execFmSend slot s
  | .ctxCreate slot => Sys2Proof.Machine.execCtxCreate slot s
  | .ctxSet slot => Sys2Proof.Machine.execCtxSet slot s
  | .ctxResume slot => Sys2Proof.Machine.execCtxResume slot s
  | .ctxDestroy slot => Sys2Proof.Machine.execCtxDestroy slot s
  | .destroyTileKill bay => Sys2Proof.Machine.execDestroyTileKill bay s
  | .faultAck slot => Sys2Proof.Machine.execFaultAck slot s
  | .faultRetry slot => Sys2Proof.Machine.execFaultRetry slot s
  | .faultAbort slot => Sys2Proof.Machine.execFaultAbort slot s
  | .queueCreate slot => Sys2Proof.Machine.execQueueCreate slot s
  | .queueDestroy slot => Sys2Proof.Machine.execQueueDestroy slot s
  | .imageRegister slot => Sys2Proof.Machine.execImageRegister slot s
  | .imageUnregister slot => Sys2Proof.Machine.execImageUnregister slot s
  | .memAlloc slot => Sys2Proof.Machine.execMemAlloc slot s
  | .memImport slot => Sys2Proof.Machine.execMemImport slot s
  | .memFree slot => Sys2Proof.Machine.execMemFree slot s
  | .memReclaim slot => Sys2Proof.Machine.execMemReclaim slot s
  | .fenceTable slot => Sys2Proof.Machine.execFenceTable slot s
  | .fenceAlloc slot => Sys2Proof.Machine.execFenceAlloc slot s
  | .fenceSignal slot => Sys2Proof.Machine.execFenceSignal slot s
  | .fenceReset slot => Sys2Proof.Machine.execFenceReset slot s
  | .fenceFree slot => Sys2Proof.Machine.execFenceFree slot s
  | .fenceWait slot => Sys2Proof.Machine.execFenceWait slot s
  | .catInvalidate slot => Sys2Proof.Machine.execCatInvalidate slot s
  | .dlogSet slot => Sys2Proof.Machine.execDlogSet slot s
  | .dlogReturn slot => Sys2Proof.Machine.execDlogReturn slot s
  | .winSet slot => Sys2Proof.Machine.execWinSet slot s
  | .winClear slot => Sys2Proof.Machine.execWinClear slot s
  | .ledgerRing slot => Sys2Proof.Machine.execLedgerRing slot s
  | .ledgerAck slot => Sys2Proof.Machine.execLedgerAck slot s
  | .ledgerQuery slot => Sys2Proof.Machine.execLedgerQuery slot s
  | .volCreate slot map => Sys2Proof.Machine.execVolCreate slot map s
  | .volModify slot map => Sys2Proof.Machine.execVolModify slot map s
  | .volDestroy slot => Sys2Proof.Machine.execVolDestroy slot s
  | .volRecover slot => Sys2Proof.Machine.execVolRecover slot s
  | .volPreempt slot => Sys2Proof.Machine.execVolPreempt slot s
  | .volResume slot => Sys2Proof.Machine.execVolResume slot s
  | .shelfMigrateCopy slot => Sys2Proof.Machine.execShelfMigrateCopy slot s
  | .shelfMigrateFinish slot => Sys2Proof.Machine.execShelfMigrateFinish slot s
  | .sealPolicy slot policy => Sys2Proof.Machine.execSealPolicy slot policy s
  | .attest slot => Sys2Proof.Machine.execAttest slot s
  | .keyImport slot blob => Sys2Proof.Machine.execKeyImport slot blob s
  | .keyDestroy slot => Sys2Proof.Machine.execKeyDestroy slot s
  | .peerRead slot => Sys2Proof.Machine.execPeerRead slot s
  | .lcReturnChallenge slot => Sys2Proof.Machine.execLcReturnChallenge slot s
  | .lcReturnToken slot token => Sys2Proof.Machine.execLcReturnToken slot token s
  | .peerStateFailed slot => Sys2Proof.Machine.execPeerStateFailed slot s
  | .peerStateRestored slot => Sys2Proof.Machine.execPeerStateRestored slot s
  | .partReset slot => Sys2Proof.Machine.execPartReset slot s
  | .deviceReset slot => Sys2Proof.Machine.execDeviceReset slot s
  | .rdNc port m => Sys2Proof.Machine.execRdNc port m s
  | .wrNc port m => Sys2Proof.Machine.execWrNc port m s
  | .otAtomic port m => Sys2Proof.Machine.execOtAtomic port m s
  | .regRd port m => Sys2Proof.Machine.execRegRd port m s
  | .regWr port m => Sys2Proof.Machine.execRegWr port m s
  | .timeReq port m => Sys2Proof.Machine.execTimeReq port m s
  | .data port m => Sys2Proof.Machine.execData port m s
  | .ack port m => Sys2Proof.Machine.execAck port m s
  | .cmDeadline tag => Sys2Proof.Machine.execCmDeadline tag s
  | .otLaneFail port lane => Sys2Proof.Machine.execOtLaneFail port lane s
  | .otRetrain port => Sys2Proof.Machine.execOtRetrain port s
  | .tamper => Sys2Proof.Machine.execTamper s
  | .getProvenance nonce => Sys2Proof.Machine.execGetProvenance nonce s
  | .getTelemetry => Sys2Proof.Machine.execGetTelemetry s
  | .setPwrCap watts => Sys2Proof.Machine.execSetPwrCap watts s
  | .getResetStatus => Sys2Proof.Machine.execGetResetStatus s
  | .clearAlert mask => Sys2Proof.Machine.execClearAlert mask s
  | .telemetryRefresh => Sys2Proof.Machine.execTelemetryRefresh s
  | .powerOnReset => Sys2Proof.Machine.execPowerOnReset s
  | .railBelowThreshold => Sys2Proof.Machine.execRailBelowThreshold s
  | .resetNFall => Sys2Proof.Machine.execResetNFall s
  | .shortPulse => Sys2Proof.Machine.execShortPulse s
  | .resetNAssert => Sys2Proof.Machine.execResetNAssert s
  | .resetNRise clkMode slot bootSrc refclk => Sys2Proof.Machine.execResetNRise clkMode slot bootSrc refclk s
  | .imageReadDone cause image => Sys2Proof.Machine.execImageReadDone cause image s
  | .bootLoad => Sys2Proof.Machine.execBootLoad s
  | .retrySource => Sys2Proof.Machine.execRetrySource s
  | .registrarWatchdog => Sys2Proof.Machine.execRegistrarWatchdog s
  | .lockstepMismatch pair => Sys2Proof.Machine.execLockstepMismatch pair s
  | .pairResetDone passed => Sys2Proof.Machine.execPairResetDone passed s
  | .registrarRestart => Sys2Proof.Machine.execRegistrarRestart s
  | .stepTimerOverrun level instance_ => Sys2Proof.Machine.execStepTimerOverrun level instance_ s
  | .deviceFatal cause => Sys2Proof.Machine.execDeviceFatal cause s
  | .deviceWarmReset cause => Sys2Proof.Machine.execDeviceWarmReset cause s
  | .bypass => Sys2Proof.Machine.execBypass s
  | .idcode => Sys2Proof.Machine.execIdcode s
  | .samplePreload cells => Sys2Proof.Machine.execSamplePreload cells s
  | .clamp => Sys2Proof.Machine.execClamp s
  | .highz => Sys2Proof.Machine.execHighz s
  | .extest cells => Sys2Proof.Machine.execExtest cells s
  | .extestPulse cells => Sys2Proof.Machine.execExtestPulse cells s
  | .extestTrain cells => Sys2Proof.Machine.execExtestTrain cells s
  | .refclkPresent => Sys2Proof.Machine.execRefclkPresent s
  | .coreResetDone bay core => Sys2Proof.Machine.execCoreResetDone bay core s
  | .bayResetDone bay => Sys2Proof.Machine.execBayResetDone bay s
  | .shelverResetDone sh => Sys2Proof.Machine.execShelverResetDone sh s
  | .mscFlushLimit k => Sys2Proof.Machine.execMscFlushLimit k s
  | .volPreemptTimeout handle => Sys2Proof.Machine.execVolPreemptTimeout handle s
  | .mailboxDeadline slot => Sys2Proof.Machine.execMailboxDeadline slot s
  | .kemKeyExpiry key => Sys2Proof.Machine.execKemKeyExpiry key s
  | .fusePulseEnd => Sys2Proof.Machine.execFusePulseEnd s
  | .smbusClockLowTimeout => Sys2Proof.Machine.execSmbusClockLowTimeout s
  | .missFixedResume record => Sys2Proof.Machine.execMissFixedResume record s
  | .mailboxFixedAnswer slot => Sys2Proof.Machine.execMailboxFixedAnswer slot s
  | .correctedReportInterval source => Sys2Proof.Machine.execCorrectedReportInterval source s
  | .collAbort engine pkt => Sys2Proof.Machine.execCollAbort engine pkt s

end Sys2Proof.Machine
end

