-- ==== Sys2Proof/Safety.lean ====
section
/-! DEFINITION. What counts as a safe step, and what every step keeps: the legal modes, the canonical memory, the ranges of the
configuration registers, and the fuses, which only go forward. -/

namespace Sys2Proof

/-- Whether a step went on. -/
def wentOn : Host.Outcome Machine.State Machine.Fault Machine.Refusal → Bool
  | .next _ => true
  | _ => false

namespace Machine

/-- The partition modes: none yet, then 1, 2, 4 or 8 partitions (01 R16, 10 R274). -/
def legalMode (m : Nat) : Bool := m == 0 || m == 1 || m == 2 || m == 4 || m == 8

/-- What holds in every state a run reaches: a legal mode (01 R16), stack memory in its canonical form, a power cap in its
range (12 R361), a device number of 14 bits (11 R332), and no more tamper and life-cycle steps than there are fuses (17 R464, R475). -/
structure Inv (s : State) : Prop where
  mode : legalMode s.mode = true
  dram : s.mem.dram.wf = true
  cap : 400 ≤ s.pwr.cap ∧ s.pwr.cap ≤ 1000
  device : s.fab.deviceId < 16384
  tamper : s.sec.tamperCount ≤ 64
  life : s.sec.lc ≤ 3

/-- The fuses of `b` are those of `a` or later ones (17 R464): counts never fall, and what is blown stays blown. -/
structure FusesOn (a b : Sec) : Prop where
  lc : a.lc ≤ b.lc
  kill : a.udsKill = true → b.udsKill = true
  version : a.secVersion ≤ b.secVersion
  tamper : a.tamperCount ≤ b.tamperCount
  rows : a.fusedRows ≤ b.fusedRows
  revoke : b.revoke = a.revoke
  serial : b.serial = a.serial

/-! Conditions under which a command has its own effect, as the statements name them. -/

/-- The oldest descriptor of a matrix core that has not run has the opcode `op`, passes the checks of R119 and may start. -/
def MxReady (s : State) (b c op : Nat) (d : BitVec 1024) : Prop :=
  ((s.mx b c).fifo.find? (fun e => !e.ran)).map (·.desc) = some d ∧ Mx.op d = op ∧ (s.mx b c).halted = false ∧
    mxCheck (s.bay b) c d = none ∧ mxMayStart (s.bay b) (s.mx b c) d = true

/-- A Bay and its matrix core `c` after the core's oldest descriptor has run, leaving the core `k` and the exceptions `exc`. -/
def mxDid (s : State) (b c : Nat) (x : Bay) (k : MatrixCore) (exc : Nat) : State :=
  mxSettle (s.setBay b (x.setMx c { k with fifo := markRan k.fifo, exc := k.exc ||| exc })) b c

/-- A Bay's core may execute its next instruction, of `len` bytes, and the fetch leaves `t` (05 R125, R126). -/
def CoreReady (s : State) (b : BayNo) (c : CoreNo) (len : Nat) (t : State) : Prop :=
  coreMay s b c = true ∧ coreFetch s b c len = .ok t ()

/-- The pc after a 32-bit instruction. -/
def pc4 (t : State) (b : BayNo) (c : CoreNo) : Nat := ((t.core b c).pc.toNat + 4) % 2 ^ 64

/-- A core's instruction retires from `t` to the pc `npc`. -/
def retire (t : State) (b : BayNo) (c : CoreNo) (npc : Nat) : State := coreEnd b c (.ok t npc)

/-- `t` with `v` in register `rd` of a core, and the instruction retired to the next word. -/
def retireRd (t : State) (b : BayNo) (c : CoreNo) (rd : RegNo) (v : Nat) : State :=
  retire (t.modCore b c (fun k => k.xSet rd v)) b c (pc4 t b c)

/-- A vector core may run a function instruction on a group at `vs2` into one at `vd`, and the fetch leaves `t` (05 R136). -/
def FnReady (s : State) (b : BayNo) (c : CoreNo) (vd vs2 : RegNo) (bf16 : Bool) (t : State) : Prop :=
  CoreReady s b c 4 t ∧ c.val < 4 ∧ (fnFmt (t.core b c) bf16).isSome = true ∧ (rvMode ((t.core b c).fcsr / 32)).isSome = true ∧
    vAligned vd (t.core b c).vlg = true ∧ vAligned vs2 (t.core b c).vlg = true

/-- `t` after the unmasked function `code` of the group at `vs2` is written to the group at `vd`, and the instruction retired. -/
def fnDid (t : State) (b : BayNo) (c : CoreNo) (code : Nat) (vd vs2 : RegNo) (bf16 : Bool) : State :=
  let k := t.core b c
  let f := (fnFmt k bf16).getD .fp32
  let m := (rvMode (k.fcsr / 32)).getD .rne
  retire { t.setCore b c (vPutAll k t.free true vd k.vsew k.vlg (fun i => fnElem f m code (k.vGet vs2 k.vsew i))) with free := t.free + 4096 } b c (pc4 t b c)

/-- The queue `q` that a Shelver serves next holds at Q_RD the command word `w`, of the opcode `op`, whose read leaves `t` and whose
admission leaves `u` with the translations of `c` (07 R189, R191). -/
def ShReady (s : State) (sh op q : Nat) (w : BitVec 1024) (u : State) (c : ShCx) : Prop :=
  (s.shelver sh).choose = some q ∧ Tbl.has (s.shelver sh).runs q = false ∧
    (s.shelver sh).doomed.contains (q * 65536 + ((s.shelver sh).queue q).rd) = false ∧ ShCmd.opcode w = op ∧
    ∃ t bs, regRead s (((s.shelver sh).queue q).cmdBase.toNat + ((s.shelver sh).queue q).rd % ((s.shelver sh).queue q).size * 128) 128 = .ok t (bs, false) ∧
      w = BitVec.ofNat 1024 (natLE bs) ∧ admission t sh q w = .go u c

/-- The run of a command that admission let through (07 R189, R191). -/
def shAdmitted (s : State) (sh q : Nat) (w : BitVec 1024) (c : ShCx) : ShRun :=
  { index := ((s.shelver sh).queue q).rd, word := w, chunks := shChunks w, ttb := (c.ents.map (fun e => (e.key, e.va, e.bytes, e.leaf))).eraseDups }

/-- What an admitted command does: nothing to move ends it at once, else the operation `op` runs (07 R193). -/
def shDoes (op : State → ShCx → BitVec 1024 → ShRun → ShRes) (s : State) (c : ShCx) (w : BitVec 1024) (r : ShRun) : ShRes :=
  if ShCmd.empty w then .did s r else op s c w r

/-- A link is in the state `n` (11 R303). -/
def linkIn (s : State) (port n : Nat) : Prop := (linkOf s port).state = n

/-- An end-to-end request of kind `k` arrives for this part over an UP port, is well formed, in time, and names a Volume here whose
epoch answers with the map `m`, leaving `u` (11 R315, R322, 10 R287). -/
def ReqReady (s : State) (k : ReqKind) (port : FabricPort) (p : Packet) (u : State) (m : VolMap) : Prop :=
  portUp s port = true ∧ Pk.dst p.hdr = s.fab.deviceId ∧ Pk.ptype p.hdr = k.ptype ∧ requestOk k p = true ∧
    s.now + max 1 (s.fab.margin.toNat % 65536) * us ≤ Pk.deadline p.hdr ∧ Tbl.has s.vols.vols (Pk.volume p.hdr) = true ∧
    epochMap s (Pk.volume p.hdr) (Pk.epoch p.hdr) = (u, some m)

/-- A response of `ptype` arrives for this part over an UP port, and matches the outstanding request `r` of a core that waits (11 R315). -/
def RespReady (s : State) (ptype : Nat) (port : FabricPort) (p : Packet) (r : FabReq) : Prop :=
  portUp s port = true ∧ Pk.dst p.hdr = s.fab.deviceId ∧ Pk.ptype p.hdr = ptype ∧ Tbl.find s.fab.tags (Pk.tag p.hdr) = some r ∧
    Pk.ptype r.pkt.hdr + 1 = ptype ∧ Pk.deadline r.pkt.hdr = Pk.deadline p.hdr ∧ Pk.dst r.pkt.hdr = Pk.src p.hdr

/-- A state after a response's tag is freed and its bytes are charged to the tile that asked (11 R321, 14 R417). -/
def tagDone (s : State) (p : Packet) (r : FabReq) : State :=
  (chargeTile s (whoTile s r.who) { fabRx := pktSize p }).modFab (fun f => { f with tags := Tbl.del f.tags (Pk.tag p.hdr) })

/-- A function's slot `m` holds the command `c` of the opcode `op`, not yet started, which the Registrar's pair may run now and which
passes the checks `k` of its row (15 R431, R433, R434). -/
def MbTakes (s : State) (m : MbSlot) (op : Nat) (c : MbCmd) (k : MbChecks) : Prop :=
  mbFind s m = some c ∧ c.opcode = op ∧ c.answer = none ∧ c.started = none ∧ s.seq.fwState = 1 ∧ mbBlocked s m.fn c = false ∧
    (s.seq.fnZeroOnly = false ∨ m.fn.val = 0) ∧ mbCheck s m.fn c k = none

/-- `s` after a command that goes on is noted as started, with the stage `a`. -/
def mbGoes (s : State) (m : MbSlot) (c : MbCmd) (now a : Nat) : State := mbKeep s m.fn { c with started := some now, arg := a }

/-- The SMBus interface serves a request now (19 R537, R538). -/
def SmbOpen (s : State) : Prop := 5 ≤ s.seq.step ∧ s.smb.until_ ≤ s.now ∧ s.seq.resetFail = false ∧ s.seq.fwState = 1

/-- A port serves the message `m` of the row `mtype`, whose own conditions are `ok` (16 R446, R449, R453). -/
def OtServed (s : State) (port : Fin 2) (mtype : Nat) (m : OtHead) (ok : Bool) : Prop := otGate s port mtype m ok = .serve

/-- A memory request of a port passes the checks of 16 R449 and its stack runs: the request `rq` at the direct address `d`. -/
def OtMemReady (s : State) (port : Fin 2) (m : OtHead) (rq : Rq) (d : Nat) : Prop :=
  otMemCheck s port m = .ok rq d ∧ s.seq.restart = 0 ∧ stackStopped (s.stack (stackOf d)) = false

/-- The status register at an offset of a block, where there is one (00 R5). -/
def statusWord (s : State) : Block → Nat → Word
  | .bay b, off => if off == 0x14 then (s.bay b).status else (s.mover b (if off == 0x34 then 0 else 1)).fault
  | .matrix b k, _ => (s.mx b k).status
  | .stack k, off => match off with | 4 => (s.stack k).status | 0x20 => (s.stack k).maintStatus | _ => (s.stack k).cohStatus
  | .shelver n, _ => (s.shelver n).status
  | .catalogue _, _ => s.cat.status
  | .fabric _, off =>
    if off == 8 then s.fab.status else if off < 0xC00 then (s.fport ((off - 0x400) / 0x40)).status
    else (Tbl.getD s.fab.engines ((off - 0xC00) / 0x40) {}).status
  | .timePower, off => if off == 8 then s.pwr.dsStatus else s.pwr.status
  | .fn f, _ => (s.fn f).status
  | .otfold p, _ => (s.ot.port p).status
  | .security, _ => s.sec.status
  | .sequencer, _ => s.seq.rstStatus

/-- Whether a writer's sequence write reaches a status register, whose events are the bits `m` (00 R5, R8, 04 R124). -/
def ClearsAt (s : State) (who : Writer) (reg : StatusReg) (m : Nat) : Prop :=
  clearable reg.blk reg.off.toNat = some m ∧ mayWrite s who reg.blk = true ∧
    ∀ b k, reg.blk = .matrix b k → mxPermits (match who with | .core _ c => .core c | _ => .registrar) k reg.off.toNat true = true

end Machine

end Sys2Proof
end

