-- ==== Sys2Proof/WellFormed.lean ====
section
/-! DEFINITION. Which operands a command may carry: sizes and ranges that its rule gives and its Lean type does not. -/

namespace Sys2Proof

/-- A register offset names a 32-bit word (00 R2). -/
def wordAligned (off : BitVec 12) : Bool := off.toNat % 4 == 0

/-- A request stays in one 128-byte line and moves at least one byte; a read meets at most the four chunks of a line (06 R151, R168). -/
def memReqFits (r : MemReq) : Bool :=
  let n := match r.op with | .read b => b.val | .write d => d.length
  decide (1 ≤ n) && decide (r.addr.toNat % 128 + n ≤ 128) && decide (r.errors.length ≤ 4)

/-- Two different routers, or a row that a bank has: 6,144 rows and 8 spares (03 R60, R80, 09 R272). -/
def siteExists : ParitySite → Bool
  | .link _ a b => a != b
  | .bank _ _ row => decide (row.toNat < 6152)
  | .catalogueEntry i => decide (i < 65536)
  | _ => true

/-- A packet's payload is at most 512 bytes (11 R314). -/
def packetFits (p : Packet) : Bool := decide (p.payload.length ≤ 512)

/-- A message's data are at most 128 bytes, in words of 4 (16 R446). -/
def messageFits (m : OtHead) : Bool := decide (m.data.length ≤ 128) && m.data.length % 4 == 0

/-- A Volume map: a 64-byte header and 1 to 16,384 entries of 32 bytes (10 R278, R279). -/
def mapFits (bs : List Byte) : Bool := decide (96 ≤ bs.length) && decide (bs.length ≤ 64 + 32 * 16384) && bs.length % 32 == 0

/-- A policy block: an 8-byte header and at most 64 digests of 64 bytes (17 R481). -/
def policyFits (bs : List Byte) : Bool := decide (72 ≤ bs.length) && decide (bs.length ≤ 8 + 64 * 64)

/-- A boot image of at most 6 MiB (18 R500). -/
def imageFits (bs : List Byte) : Bool := decide (bs.length ≤ 0x600000)

/-- A peer's bond has 1 to 4 ports (11 R312). -/
def peerFits (p : PeerInfo) : Bool := decide (1 ≤ p.bondSize.val) && decide (p.members.length ≤ 4)

/-- Whether a command's operands lie within what its rule gives. -/
def wellFormed : Instr → Bool
  | .loReadLatch p => wordAligned p.off
  | .loWriteHold _ p _ => wordAligned p.off
  | .hiWriteCommit _ p _ => wordAligned p.off
  | .statusSeqClear _ r _ => wordAligned r.off
  | .registerWrite _ _ off _ => wordAligned off
  | .flitParityError site _ => siteExists site
  | .linkSilence _ a b => a != b
  | .stackRequest r => memReqFits r
  | .catalogueLookup _ _ _ _ pages => decide (1 ≤ pages) && decide (pages ≤ 512)
  | .handshakeDone _ p => peerFits p
  | .rd _ p => packetFits p
  | .wr _ p => packetFits p
  | .atomic _ p => packetFits p
  | .rdResp _ p => packetFits p
  | .wrAck _ p => packetFits p
  | .atomicResp _ p => packetFits p
  | .coll _ p => packetFits p
  | .conc _ p => packetFits p
  | .mgmt _ p => packetFits p
  | .collDone _ p => packetFits p
  | .collComplete _ p => packetFits p
  | .routeLoad _ t => t.length == 65536
  | .volCreate _ m => mapFits m
  | .volModify _ m => mapFits m
  | .sealPolicy _ p => policyFits p
  | .keyImport _ b => b.length == 1632
  | .lcReturnToken _ t => t.length == 4627
  | .imageReadDone _ i => imageFits i
  | .stepTimerOverrun l _ => decide (1 ≤ l.val)
  | .rdNc _ m => messageFits m
  | .wrNc _ m => messageFits m
  | .otAtomic _ m => messageFits m
  | .regRd _ m => messageFits m
  | .regWr _ m => messageFits m
  | .timeReq _ m => messageFits m
  | .data _ m => messageFits m
  | .ack _ m => messageFits m
  | .cmdDb f _ _ => f.val != 0
  | .cplDb f _ _ => f.val != 0
  | _ => true

/-- Bytes that a command carries in lists. -/
def carried : Instr → Nat
  | .stackRequest { op := .write d, .. } => d.length
  | .rd _ p => p.payload.length
  | .wr _ p => p.payload.length
  | .atomic _ p => p.payload.length
  | .rdResp _ p => p.payload.length
  | .wrAck _ p => p.payload.length
  | .atomicResp _ p => p.payload.length
  | .coll _ p => p.payload.length
  | .conc _ p => p.payload.length
  | .mgmt _ p => p.payload.length
  | .collDone _ p => p.payload.length
  | .collComplete _ p => p.payload.length
  | .routeLoad _ t => t.length
  | .volCreate _ m => m.length
  | .volModify _ m => m.length
  | .sealPolicy _ p => p.length
  | .keyImport _ b => b.length
  | .lcReturnToken _ t => t.length
  | .imageReadDone _ i => i.length
  | .rdNc _ m => m.data.length
  | .wrNc _ m => m.data.length
  | .otAtomic _ m => m.data.length
  | .regRd _ m => m.data.length
  | .regWr _ m => m.data.length
  | .timeReq _ m => m.data.length
  | .data _ m => m.data.length
  | .ack _ m => m.data.length
  | _ => 0

end Sys2Proof
end

