-- ==== Sys2Proof/Certificates/Slice0/Obligations.lean ====
section
/-! DEFINITION. The statements. Each command's own effect has its completion here: a next state, under conditions on the state and the
operands alone. -/

section

open Sys2Proof Sys2Proof.Machine

/-- The front command's step is exec of it on the state with the queue's rest. -/
def Obligations.StepRunsTheFrontCommand : Prop :=
  ∀ (c : Instr) (rest : List Instr) (s : State), s.pending = c :: rest → step s = exec c { s with pending := rest }

/-- On an empty queue a step is one tick of Datestamp: the model's choice, assumption 6 (12 R334 leaves no other event). -/
def Obligations.EmptyQueueTicks : Prop :=
  (∀ s : State, s.pending = [] → step s = .next (tick s)) ∧
  (∀ s : State, s.pwr.slew = 0 → tick s = { s with now := s.now + 1, pwr := { s.pwr with slewWait := s.pwr.slewWait - 1 } })

/-- The invariant holds at reset. -/
def Obligations.ResetKeepsInv : Prop := Inv State.reset

/-- The invariant is kept by every step. -/
def Obligations.StepKeepsInv : Prop := ∀ s t : State, Inv s → step s = .next t → Inv t

/-- The pair rules and writes of the register interface (00 R3 to R7): a _LO read latches, a _LO write is held, a _HI write takes effect
with the held half, a sequence write reaches the status, a plain write takes effect, and a posted write takes effect in order.
The model's choices in it: assumptions 1, 107, 108, 109, 110. -/
def Obligations.RegisterAccessesComplete : Prop :=
  (∀ pair v s, pairGet s pair.blk pair.off.toNat = some v →
    exec (.loReadLatch pair) s = .next (latchHi s pair.blk pair.off.toNat v) ∧
    shadowHi (latchHi s pair.blk pair.off.toNat v) pair.blk (pair.off.toNat + 4) = v / 2 ^ 32 % 2 ^ 32) ∧
  (∀ who pair v s, mayWrite s who pair.blk = true → writablePair s pair.blk pair.off.toNat = true →
    exec (.loWriteHold who pair v) s = .next (holdLo s pair.blk pair.off.toNat v) ∧
    ∀ hi, withHeld (holdLo s pair.blk pair.off.toNat v) pair.blk pair.off.toNat hi = v.toNat + hi.toNat * 2 ^ 32) ∧
  (∀ who pair v s, mayWrite s who pair.blk = true → writablePair s pair.blk pair.off.toNat = true →
    exec (.hiWriteCommit who pair v) s = .next (setPair s pair.blk pair.off.toNat (withHeld s pair.blk pair.off.toNat v))) ∧
  (∀ who reg v s, (clearable reg.blk reg.off.toNat).isSome = true →
    exec (.statusSeqClear who reg v) s = .next (writeReg s who reg.blk reg.off.toNat v)) ∧
  (∀ blk off v s, exec (.registerWrite .registrar blk off v) s = .next (writeReg s .registrar blk off.toNat v)) ∧
  (∀ s w rest, s.regs.slow = w :: rest →
    exec .slowWriteEffect s = .next (testPut { s with regs := { s.regs with slow := rest } } w.blk w.off w.v))

/-- Bank owners and the movers' rings (03 R65, R69, R71 to R73).
The model's choices in it: assumption 18. -/
def Obligations.BanksAndRingsComplete : Prop :=
  (∀ bay hi v s, exec (.bankOwnerWrite .registrar bay hi v) s = .next (writeOwners s bay hi v)) ∧
  (∀ bay bank s, ∃ t, exec (.handoverComplete bay bank) s = .next t ∧
    (t.bay bay).pending = (s.bay bay).pending &&& ~~~(BitVec.ofNat 16 (2 ^ bank.val)) ∧ (t.bay bay).owners = (s.bay bay).owners ∧
    ∀ b, b ≠ bay.val → t.bay b = s.bay b) ∧
  (∀ bay port wr s, (s.bay bay).wrapper = .open_ → ∃ t, exec (.moverWrWrite bay port wr) s = .next t ∧ (t.mover bay port).wr = wr.toNat ∧
    (t.mover bay port).rd = (s.mover bay port).rd ∧ t.mem = s.mem) ∧
  (∀ bay port s, (s.mover bay port).ttbWait = false → exec (.groupPretranslate bay port) s = .next (pretranslate s bay port)) ∧
  (∀ bay port s, (s.mover bay port).ttbWait = true → exec (.ttbEntriesFree bay port) s = .next (pretranslate s bay port)) ∧
  (∀ bay port s, (s.mover bay port).halted = true →
    ∃ t, exec (.moverResume bay port) s = .next t ∧ (t.mover bay port).halted = false ∧ (t.mover bay port).cause = 0 ∧ t.mem = s.mem) ∧
  (∀ bay port s, exec (.moverFlush bay port) s = .next (s.modMover bay port moverFlush))

/-- The movers' descriptors (03 R69, R70): a group opens, bytes move in, out and within the Bay, lines are fetched, and a finished
descriptor advances RD.
The model's choices in it: assumptions 9, 32, 33. -/
def Obligations.MoverDescriptorsComplete : Prop :=
  (∀ (bay : BayNo) (port : Fin 2) s d order group, moverNext s bay port 0 = some (d, order, group) →
    exec (.moverTileBegin bay port) s = .next (moverStart s bay port d order group 0)) ∧
  (∀ (bay : BayNo) (port : Fin 2) s d order group t bs, moverNext s bay port 1 = some (d, order, group) →
    let ps := moverPieces (moverView s bay port d) d
    remotePieces ps = [] →
    let here := ps.filter (fun q => !leafRemote q.ent.leaf)
    vRead s (moverView s bay port d) (here.map (fun q => (q.va, q.n))) = .ok t bs → bs.all (fun c => !c.2) = true →
    exec (.moverLoad bay port) s = .next (moverStart (chargeMover ((dropWait t true bay port).modBay bay (fun x =>
      (bs.zip (here.flatMap (fun q => (List.range q.n).map (q.bay + ·)))).foldl (fun x c => x.writeByte c.2 c.1.1) x))
      bay port { stackRd := bs.length }) bay port d order group 0)) ∧
  (∀ (bay : BayNo) (port : Fin 2) s d order group t ds, moverNext s bay port 2 = some (d, order, group) → storesEarly s bay port = false →
    let ps := moverPieces (moverView s bay port d) d
    remotePieces ps = [] →
    let here := ps.filter (fun q => !leafRemote q.ent.leaf)
    let bs := here.flatMap (fun q => (s.bay bay).read q.bay q.n)
    vWrite s (moverView s bay port d) (here.map (fun q => (q.va, q.n))) (clean bs) = .ok t ds →
    exec (.moverStore bay port) s = .next (moverStart (chargeMover (dropWait t true bay port) bay port { stackWr := bs.length }) bay port d order group 0)) ∧
  (∀ (bay : BayNo) (port : Fin 2) s d order group, moverNext s bay port 3 = some (d, order, group) →
    exec (.moverCopyLocal bay port) s = .next (moverStart (s.modBay bay (fun x => (Mv.runs d).foldl (fun x r =>
      (List.range (Mv.xBytes d)).foldl (fun x i => x.writeByte (r.2 + i) (x.readByte (r.1.toNat + i))) x) x)) bay port d order group 0)) ∧
  (∀ (bay : BayNo) (port : Fin 2) s d order group, moverNext s bay port 4 = some (d, order, group) →
    exec (.moverFill bay port) s = .next (moverStart (s.modBay bay (fun x => ((Mv.runs d).zipIdx).foldl (fun x r =>
      (List.range (Mv.xBytes d)).foldl (fun x i =>
        x.writeByte (r.1.2 + i) ((bytesLE 8 (Mv.pattern d)).getD ((r.2 * Mv.xBytes d + i) % 8) 0#8)) x) x)) bay port d order group 0)) ∧
  (∀ (bay : BayNo) (port : Fin 2) s d order group, moverNext s bay port 5 = some (d, order, group) → moverPieces (moverView s bay port d) d = [] →
    exec (.moverPrefetch bay port) s = .next (moverStart s bay port d order group 0)) ∧
  (∀ (bay : BayNo) (port : Fin 2) s d order group q, moverNext s bay port 5 = some (d, order, group) →
    moverPieces (moverView s bay port d) d = [q] → leafRemote q.ent.leaf = false →
    exec (.moverPrefetch bay port) s = .next (moverStart (((linePieces (entryPA q.ent q.va) q.n).filterMap (fun c => (direct? c.1).map (· / 128))).foldl
      (fun s l => prefetchLine s ((moverView s bay port d).rq 0) l) s) bay port d order group 0)) ∧
  (∀ (bay : BayNo) (port : Fin 2) s o rest, (s.mover bay port).started = o :: rest → (s.mover bay port).halted = false → o.waits = 0 → o.bad = none →
    Mv.notify o.desc = false →
    exec (.moverDescriptorComplete bay port) s = .next (settleTile (advanceTile (s.setMover bay port
      { s.mover bay port with started := rest, rd := ((s.mover bay port).rd + 1) % 65536, orders := (s.mover bay port).orders.drop 1 }) bay)
      bay (s.mover bay port).tile))

/-- The Bay test engine, Bay reset and core fencing (03 R75 to R78, R90).
The model's choices in it: assumptions 3, 4. -/
def Obligations.BayTestAndResetComplete : Prop :=
  (∀ bay s, (s.bay bay).test.state = 0 → bitsAt (s.bay bay).test.ctrl.toNat 0 1 = 1 → (s.bay bay).resetAt = none →
    ∃ t, exec (.testIntervalExpire bay) s = .next t ∧ (t.bay bay).test.state = 1 ∧ (t.bay bay).test.shadow = [] ∧
      s.now ≤ t.now ∧ (t.bay bay).mem = (s.bay bay).mem) ∧
  (∀ bay s, (s.bay bay).test.state = 1 → ∃ t, exec (.testCopyDone bay) s = .next t ∧ (t.bay bay).test.state = 2 ∧
    (t.bay bay).test.shadow = regionCopy (s.bay bay) (s.bay bay).test.current ∧ (t.bay bay).mem = (s.bay bay).mem) ∧
  (∀ bay s, (s.bay bay).test.state = 2 → ∃ t, exec (.marchCDone bay 0#16) s = .next t ∧ (t.bay bay).test.state = 3 ∧
    (t.bay bay).mem = Mem.clear (s.bay bay).mem (regionBase (s.bay bay).test.current) (regionBase (s.bay bay).test.current + regionBytes)) ∧
  (∀ bay s, (s.bay bay).test.state = 3 → ∃ t, exec (.testRestoreDone bay) s = .next t ∧ (t.bay bay).test.state = 0 ∧
    (t.bay bay).mem = Mem.writeN (s.bay bay).mem (regionBase (s.bay bay).test.current) (Mem.readN (s.bay bay).test.shadow 0 regionBytes) ∧
    t.mem = s.mem) ∧
  (∀ bay s, (s.bay bay).resetAt = none → (s.bay bay).tile = 0 → (s.bay bay).nextTile = 0 → Tbl.has s.work.tiles 0 = false →
    exec (.bayReset bay) s = .next (beginBayReset s bay)) ∧
  (∀ bay s since, (s.bay bay).resetAt = some since → (s.bay bay).draining ≠ 0 →
    ∃ t, exec (.bayResetDrainLimit bay) s = .next t ∧ (t.bay bay).mem = [] ∧ (t.bay bay).owners = 0xFFFFFFFFFFFFFFFF#64 ∧ (t.bay bay).draining = 0 ∧
      since + 100 * us ≤ t.now) ∧
  (∀ bay core s, bitsAt (s.bay bay).coreFence.toNat core.val 1 ≠ 1 → exec (.coreFenceWrite bay core) s = .next (fenceCore s bay core.val true))

/-- Parity, failing links and routers, and deadlines of the on-die networks (03 R62, R63, R83, R91, R92).
The model's choices in it: assumptions 4, 35, 36. -/
def Obligations.NetworksComplete : Prop :=
  (∀ plane a b s, exec (.flitParityError (.link plane a b) true) s = .next (replayDone s (linkNo (netLink plane a b)))) ∧
  (∀ (plane : Fin 3) (a b : Fin 49) s, Tbl.getD s.nets.replayFails (linkNo (netLink plane a b)) 0 = 0 → ∃ t,
    exec (.flitParityError (.link plane a b) false) s = .next t ∧ Tbl.getD t.nets.replayFails (linkNo (netLink plane a b)) 0 = 1 ∧
    t.nets.failedLinks = s.nets.failedLinks) ∧
  (∀ plane a b s, exec (.linkSilence plane a b) s = .next (linkDeclare s (netLink plane a b))) ∧
  (∀ router s, exec (.routerSelfCheckFault router) s = .next (routerFail s router.val)) ∧
  (∀ s, ∃ t, exec .routeTablesInstall s = .next t ∧ t.nets.routedLinks = s.nets.failedLinks ∧ t.nets.routedRouters = s.nets.failedRouters ∧
    t.nets.tablesStale = false ∧ t.mem = s.mem ∧ t.fns = s.fns) ∧
  (∀ index s r, s.nets.requests[index]? = some r → r.mover = false →
    exec (.requestDeadline index) s = .next (trapCore ((reach s (r.deadline + 1)).modNets (fun n => { n with requests := n.requests.eraseIdx index }))
      (r.who / 6) (r.who % 6) 5 r.va Status.timeout.code))

/-- The pushes into a matrix core's descriptor FIFO, the ramp and the resume (04 R97, R117, R119, R124): a push by the core that may
push appends the staged descriptor, one by another core traps it.
The model's choices in it: assumption 9. -/
def Obligations.MatrixPushAndRampComplete : Prop :=
  (∀ (bay : BayNo) (mx : Fin 4) s, (s.bay bay).resetAt = none → (s.bay bay).coreResets = [] → (s.mx bay mx).fifo.length < 32 →
    exec (.mxPushS bay mx 5) s = .next (mxSettle (s.setMx bay mx
      { s.mx bay mx with fifo := (s.mx bay mx).fifo ++ [{ desc := (s.mx bay mx).stageS }] }) bay mx)) ∧
  (∀ (bay : BayNo) (mx : Fin 4) s, exec (.mxPushS bay mx 4) s = .next (trapCore s bay 4 7 (mxRegAddr mx 8) Status.permission.code)) ∧
  (∀ (bay : BayNo) (mx : Fin 4) (w : Fin 6) s, (s.bay bay).resetAt = none → (s.bay bay).coreResets = [] → (s.mx bay mx).fifo.length < 32 →
    w.val = mx.val → exec (.mxPushV bay mx w) s = .next (mxSettle (s.setMx bay mx
      { s.mx bay mx with fifo := (s.mx bay mx).fifo ++ [{ desc := (s.mx bay mx).stageV }] }) bay mx)) ∧
  (∀ (bay : BayNo) (mx : Fin 4) (w : Fin 6) s, w.val ≠ mx.val →
    exec (.mxPushV bay mx w) s = .next (trapCore s bay w 7 (mxRegAddr mx 0xC) Status.permission.code)) ∧
  (∀ (bay : BayNo) (mx : Fin 4) s e rest, (s.mx bay mx).fifo = e :: rest → e.ran = true →
    exec (.mxDescriptorComplete bay mx) s = .next (settleCompute (mxSettle (s.setMx bay mx
      { s.mx bay mx with fifo := rest, done := (s.mx bay mx).done + 1#32 }) bay mx) bay)) ∧
  (∀ (bay : BayNo) (mx : Fin 4) s d, (s.mx bay mx).halted = false → (s.mx bay mx).fifo = [d] → d.ran = false →
    5 ≤ Mx.op d.desc → Mx.op d.desc ≤ 7 → (s.mx bay mx).ramp < 8 →
    exec (.rampStep bay mx true) s = .next (s.setMx bay mx { s.mx bay mx with ramp := (s.mx bay mx).ramp + 1 })) ∧
  (∀ (bay : BayNo) (mx : Fin 4) s, (s.mx bay mx).fifo = [] → 0 < (s.mx bay mx).ramp →
    exec (.rampStep bay mx false) s = .next (s.setMx bay mx { s.mx bay mx with ramp := (s.mx bay mx).ramp - 1 })) ∧
  (∀ (bay : BayNo) (mx : Fin 4) s, exec (.mxResume bay mx) s =
    .next (mxSettle (s.modMx bay mx (fun m => { m with status := m.status &&& ~~~0x100000#32 })) bay mx))

/-- The matrix opcodes that move, anchor and save (04 R97 to R106): a descriptor that passes the checks of R119 and may start has its
effect on the Bay's memory and its own core, and is marked run.
The model's choices in it: assumptions 9, 14, 15. -/
def Obligations.MatrixMovesComplete : Prop :=
  (∀ (bay : BayNo) (mx : Fin 4) s d, MxReady s bay mx 0 d → exec (.mxNop bay mx) s = .next (mxDid s bay mx (s.bay bay) (s.mx bay mx) 0)) ∧
  (∀ (bay : BayNo) (mx : Fin 4) s d, MxReady s bay mx 1 d → exec (.loadTile bay mx) s =
    .next (mxDid s bay mx (mxMove (s.bay bay) (s.mx bay mx) d true).bay (mxMove (s.bay bay) (s.mx bay mx) d true).core
      (mxMove (s.bay bay) (s.mx bay mx) d true).exc)) ∧
  (∀ (bay : BayNo) (mx : Fin 4) s d, MxReady s bay mx 2 d → exec (.storeTile bay mx) s =
    .next (mxDid s bay mx (mxMove (s.bay bay) (s.mx bay mx) d false).bay (mxMove (s.bay bay) (s.mx bay mx) d false).core
      (mxMove (s.bay bay) (s.mx bay mx) d false).exc)) ∧
  (∀ (bay : BayNo) (mx : Fin 4) s d, MxReady s bay mx 3 d → exec (.anchorSet bay mx) s =
    .next (mxDid s bay mx (s.bay bay) (mxAnchorSet (s.mx bay mx) d) 0)) ∧
  (∀ (bay : BayNo) (mx : Fin 4) s d, MxReady s bay mx 4 d → exec (.expScan bay mx) s =
    .next (mxDid s bay mx (s.bay bay) { s.mx bay mx with
      anchor := foldOperands (s.mx bay mx) d (mxOperands (s.mx bay mx) d).1 (mxOperands (s.mx bay mx) d).2 } 0)) ∧
  (∀ (bay : BayNo) (mx : Fin 4) s d, MxReady s bay mx 9 d → exec (.accSave bay mx) s =
    .next (mxDid s bay mx (mxAccSave (s.bay bay) (s.mx bay mx) d) (s.mx bay mx) 0)) ∧
  (∀ (bay : BayNo) (mx : Fin 4) s d, MxReady s bay mx 10 d → (mxAccLoad (s.bay bay) (s.mx bay mx) d).2 = true →
    exec (.accLoad bay mx) s = .next (mxDid s bay mx (s.bay bay) (mxAccLoad (s.bay bay) (s.mx bay mx) d).1 0)) ∧
  (∀ (bay : BayNo) (mx : Fin 4) s d, MxReady s bay mx 10 d → (mxAccLoad (s.bay bay) (s.mx bay mx) d).2 = false →
    exec (.accLoad bay mx) s = .next (mxHalt (s.setBay bay ((s.bay bay).setMx mx (mxAccLoad (s.bay bay) (s.mx bay mx) d).1)) bay mx 8))

/-- The matrix opcodes that multiply, convolve, read out and quantise (04 R107 to R115).
The model's choices in it: assumptions 9, 12, 15, 22. -/
def Obligations.MatrixArithmeticCompletes : Prop :=
  (∀ (bay : BayNo) (mx : Fin 4) s d, MxReady s bay mx 5 d → exec (.mma bay mx) s =
    .next (mxDid s bay mx (s.bay bay) (mxMma (s.mx bay mx) d) 0)) ∧
  (∀ (bay : BayNo) (mx : Fin 4) s d, MxReady s bay mx 6 d → exec (.mmaFp64 bay mx) s =
    .next (mxDid s bay mx (s.bay bay) (mxMmaFp64 (s.mx bay mx) d) 0)) ∧
  (∀ (bay : BayNo) (mx : Fin 4) s d, MxReady s bay mx 7 d → exec (.conv bay mx) s =
    .next (mxDid s bay mx (s.bay bay) (mxConv (s.mx bay mx) d) 0)) ∧
  (∀ (bay : BayNo) (mx : Fin 4) s d, MxReady s bay mx 8 d → Mx.trapAo d = false → exec (.accRead bay mx) s =
    .next (mxDid s bay mx (mxAccRead (s.bay bay) (s.mx bay mx) (baySeed s bay) d).bay (mxAccRead (s.bay bay) (s.mx bay mx) (baySeed s bay) d).core
      (mxAccRead (s.bay bay) (s.mx bay mx) (baySeed s bay) d).exc)) ∧
  (∀ (bay : BayNo) (mx : Fin 4) s d, MxReady s bay mx 8 d → Mx.trapAo d = true →
    ((mxAccRead (s.bay bay) (s.mx bay mx) (baySeed s bay) d).exc &&& Exc.ao) ≠ 0 → exec (.accRead bay mx) s =
    .next (mxDid s bay mx (mxAccRead (s.bay bay) (s.mx bay mx) (baySeed s bay) d).bay
      { (mxAccRead (s.bay bay) (s.mx bay mx) (baySeed s bay) d).core with
        status := statusFlag (mxAccRead (s.bay bay) (s.mx bay mx) (baySeed s bay) d).core.status 21, trapAo := true }
      (mxAccRead (s.bay bay) (s.mx bay mx) (baySeed s bay) d).exc)) ∧
  (∀ (bay : BayNo) (mx : Fin 4) s d, MxReady s bay mx 11 d → exec (.quantMx bay mx) s =
    .next (mxDid s bay mx (s.bay bay) (mxQuant (s.mx bay mx) (baySeed s bay) d).1 (mxQuant (s.mx bay mx) (baySeed s bay) d).2))

/-- A tile's messages (05 R146, 14 R406 to R410): RUN enters the tile, PREEMPT and KILL reach the Bay they name, and TILE_DONE reports.
The model's choices in it: assumptions 54, 58. -/
def Obligations.TileMessagesComplete : Prop :=
  (∀ (bay : BayNo) s id rest t, id ≠ 0 → (s.bay bay).inbox = (0, id) :: rest → (s.bay bay).wrapper = .open_ → Tbl.has s.work.tiles id = true →
    (s.bay bay).tile = 0 → enterTile (receiveRun s bay id) bay id = .ok t () →
    exec (.tileRun bay) s = .next (pushTile (t.modBay bay (fun x => { x with inbox := x.inbox.filter (fun m => m != (0, id)) })) bay)) ∧
  (∀ (bay : BayNo) s, (s.bay bay).inbox = [] → exec (.tileRun bay) s = .next (pushTile s bay)) ∧
  (∀ (bay : BayNo) s id t, (s.bay bay).inbox = [(1, id)] → Tbl.find s.work.tiles id = some t → t.bay = bay.val → t.killed = false →
    t.preemptAt = none → t.status = none → s.work.done = [] → 4 < t.step →
    exec (.tilePreempt bay) s = .next (settleTile (modTile (modTile (s.modBay bay (fun x => { x with inbox := [] })) id
      (fun t => { t with answerBy := none })) id (fun t => { t with preemptAt := some s.now })) bay id)) ∧
  (∀ (bay : BayNo) s id t c, inboxTile (s.bay bay) 2 = some id → tileCmd s id = some (t, c) → t.bay = bay.val → c.gang = false →
    exec (.tileKill bay) s = .next (killTile (s.modBay bay (fun x => dropMsg x 2 id)) id)) ∧
  (∀ (bay : BayNo) s id t c, inboxTile (s.bay bay) 2 = some id → tileCmd s id = some (t, c) → t.bay = bay.val → c.gang = true →
    exec (.tileKill bay) s = .next (killGang (killTile (s.modBay bay (fun x => dropMsg x 2 id)) id) t.cmd)) ∧
  (∀ s d rest t, s.work.done = d :: rest → Tbl.find s.work.tiles d.tile = some t → ∃ u, exec .tileDone s = .next u ∧
    Tbl.find (s.modWork (fun w => { w with done := rest })).work.tiles d.tile = some t ∧
    u = markSlices (settlePreempts (settleInvals (trySendDrain (let a := s.modWork (fun w => { w with done := rest, tiles := Tbl.del w.tiles d.tile, parked := Tbl.upd w.parked d.tile (fun p => { p with tile := t }) });
      let a := settleCmd (settleParked (tileOutcome a d t) d.tile) t.cmd; if (a.bay t.bay).test.redirected.isEmpty then a else fenceBay a t.bay)
      (((Tbl.find s.work.cmds t.cmd).map (·.volume)).getD 0)))) (((Tbl.find s.work.cmds t.cmd).map (·.volume)).getD 0))

/-- The Card Network's messages (03 R84 to R87, 05 R139, R140, R149): a held message goes when its destination has a credit, and each
type is delivered where its rules let it go.
The model's choices in it: assumptions 36, 56. -/
def Obligations.CardMessagesComplete : Prop :=
  (∀ s index m, s.nets.held[index]? = some m → creditsHeld s m.dstRouter m.dstEp < 16 → heldEarlier (s.nets.held.take index) m = false →
    epFenced s m.dstRouter m.dstEp = false → bayAt s m.srcRouter = none →
    exec (.cardInject index) s = .next (cardSend (s.modNets (fun n => { n with held := n.held.eraseIdx index })) m)) ∧
  (∀ (sh : ShelverNo) (queue : Fin 16) (index : BitVec 16) s, queue.val ≤ 8 → (s.shelver sh).enabled queue = true →
    (index.toNat + 65536 - ((s.shelver sh).queue queue).rd) % 65536 ≤ ((s.shelver sh).queue queue).size →
    (((s.shelver sh).queue queue).wr + 65536 - ((s.shelver sh).queue queue).rd) % 65536 ≤
      (index.toNat + 65536 - ((s.shelver sh).queue queue).rd) % 65536 →
    exec (.doorbell sh queue index) s = .next (s.modShelver sh (fun x => { x with
      queues := Tbl.put x.queues queue { (s.shelver sh).queue queue with wr := index.toNat } }))) ∧
  (∀ (sh : ShelverNo) (queue : Fin 16) (index : BitVec 16) s, (s.shelver sh).enabled queue = false →
    exec (.doorbell sh queue index) s = .next (shEvent s sh 31 0 queue 2 0)) ∧
  (∀ src dst arg s, exec (.fenceSignalMsg src dst arg) s = .next (cardArrive s 1 src dst arg true)) ∧
  (∀ src dst arg s, exec (.interrupt src dst arg) s = .next (cardArrive s 4 src dst arg true)) ∧
  (∀ (src dst : CardEnd) arg s, dst.ep = 4 → (bayAt s dst.router.toNat).isSome = true →
    exec (.powerCmd src dst arg) s = .next (cardArrive s 5 src dst arg true)) ∧
  (∀ (src dst : CardEnd) arg s, src.router.toNat = registrarRouter → dst.ep = 0 → dst.router.toNat < 48 →
    exec (.routerCtrl src dst arg) s = .next (cardArrive s 10 src dst arg true)) ∧
  (∀ s type src dst arg, kernelAt s src = none → dst.ep ≠ 0 → crosses s src dst = false → epFenced s dst.router.toNat dst.ep.toNat = false →
    (cardArrive s type src dst arg true).nets.arrived = Tbl.put s.nets.arrived (cardKey dst.router.toNat dst.ep.toNat * 16 + type)
      { srcRouter := src.router.toNat, srcEp := src.ep.toNat, dstRouter := dst.router.toNat, dstEp := dst.ep.toNat, type := type, arg := arg }) ∧
  (∀ (bay : BayNo) s, exec (.moverNotify bay) s = .next (s.modBay bay (fun x => { x with notes := x.notes.drop 1 }))) ∧
  (∀ s r rest, s.reports = r :: rest → r.bay < 32 → exec .faultReport s = .next (bayReport { s with reports := rest } r)) ∧
  (∀ s (dst : CardEnd) m b c, Tbl.getD s.nets.queues (cardKey dst.router.toNat dst.ep.toNat) [] = [m] → kernelAt s dst = some (b, c) →
    epFenced s m.dstRouter m.dstEp = false → (s.core b c).running = true →
    exec (.user dst) s = .next (userArrive (s.modNets (fun n => { n with
      queues := Tbl.del n.queues (cardKey dst.router.toNat dst.ep.toNat) })) b c m))

/-- A core's instructions on messages, time and the tile (05 R139 to R142): each completes for a core that may run and whose fetch
succeeds, and retires to the next word with its result in rd.
The model's choices in it: assumptions 4, 51, 54. -/
def Obligations.CoreMessagesAndTimeComplete : Prop :=
  (∀ (bay : BayNo) (core : CoreNo) (rd rs1 rs2 : RegNo) s t m, CoreReady s bay core 4 t → core.val ≠ 4 →
    cardOf t bay core ((t.core bay core).xGet rs1) ((t.core bay core).xGet rs2 % 2 ^ 32) = some m → epFenced t m.dstRouter m.dstEp = false →
    creditsHeld t m.dstRouter m.dstEp < 16 → t.nets.held = [] →
    exec (.cnSend bay core rd rs1 rs2) s = .next (retire ((cardSend t m).modCore bay core (fun k => k.xSet rd t.now)) bay core (pc4 t bay core))) ∧
  (∀ (bay : BayNo) (core : CoreNo) (rd rs1 rs2 : RegNo) s t m, CoreReady s bay core 4 t → core.val ≠ 4 →
    cardOf t bay core ((t.core bay core).xGet rs1) ((t.core bay core).xGet rs2 % 2 ^ 32) = some m → epFenced t m.dstRouter m.dstEp = false →
    16 ≤ creditsHeld t m.dstRouter m.dstEp → exec (.cnTrysend bay core rd rs1 rs2) s = .next (retireRd t bay core rd (2 ^ 64 - 1))) ∧
  (∀ (bay : BayNo) (core : CoreNo) (rd rs1 rs2 : RegNo) s t m, CoreReady s bay core 4 t → core.val ≠ 4 →
    cardOf t bay core ((t.core bay core).xGet rs1) ((t.core bay core).xGet rs2 % 2 ^ 32) = some m → epFenced t m.dstRouter m.dstEp = false →
    creditsHeld t m.dstRouter m.dstEp < 16 → t.nets.held = [] →
    exec (.cnTrysend bay core rd rs1 rs2) s = .next (retire ((cardSend t m).modCore bay core (fun k => k.xSet rd t.now)) bay core (pc4 t bay core))) ∧
  (∀ (bay : BayNo) (core : CoreNo) (rd rs1 : RegNo) s t m rest, CoreReady s bay core 4 t → core.val ≠ 4 → (t.core bay core).recv = m :: rest →
    (t.core bay core).xGet rs1 = 0 →
    exec (.cnRecv bay core rd rs1) s = .next (retire (t.setCore bay core (takeMsg (t.core bay core) rd m)) bay core (pc4 t bay core))) ∧
  (∀ (bay : BayNo) (core : CoreNo) s d rd, (s.core bay core).wait = some (.recv d rd) →
    exec (.cnRecvDeadline bay core) s = .next (endWait (reach s (d + 1)) bay core rd 0)) ∧
  (∀ (bay : BayNo) (core : CoreNo) (rd : RegNo) s t, CoreReady s bay core 4 t → core.val ≠ 4 →
    exec (.dsRead bay core rd) s = .next (retireRd t bay core rd t.now)) ∧
  (∀ (bay : BayNo) (core : CoreNo) (rd rs1 : RegNo) s t, CoreReady s bay core 4 t → core.val ≠ 4 → (t.core bay core).xGet rs1 ≤ t.now →
    exec (.dsWait bay core rd rs1) s = .next (retireRd t bay core rd t.now)) ∧
  (∀ (bay : BayNo) (core : CoreNo) (rd rs1 : RegNo) s t, CoreReady s bay core 4 t → core.val ≠ 4 → t.now < (t.core bay core).xGet rs1 →
    exec (.dsWait bay core rd rs1) s = .next (t.modCore bay core (fun k => { k with wait := some (.until ((t.core bay core).xGet rs1) rd) }))) ∧
  (∀ (bay : BayNo) (core : CoreNo) s d rd, (s.core bay core).wait = some (.until d rd) →
    exec (.dsWaitReturn bay core) s = .next (endWait (reach s d) bay core rd (max s.now d))) ∧
  (∀ (bay : BayNo) (core : CoreNo) (rs1 : RegNo) s t, CoreReady s bay core 4 t → core.val ≠ 4 → (t.core bay core).xGet rs1 = 0 →
    exec (.tileYield bay core rs1) s = .next (retire (settleCompute (modTile (t.modCore bay core (fun k => { k with running := false }))
      (t.bay bay).tile (fun x => { x with yielded := NSet.ins x.yielded (portOfCore core) })) bay) bay core (pc4 t bay core)))

/-- The ownership instructions, the base instructions and the block transfers (05 R125, R136 to R138).
The model's choices in it: assumptions 20, 51, 53. -/
def Obligations.CoreOwnershipAndBlocksComplete : Prop :=
  (∀ (bay : BayNo) (core : CoreNo) (rd : RegNo) s t, CoreReady s bay core 4 t → core.val ≠ 4 →
    exec (.bayOwn bay core rd) s = .next (retireRd t bay core rd (t.bay bay).owners.toNat)) ∧
  (∀ (bay : BayNo) (core : CoreNo) (rd rs1 rs2 : RegNo) s t i, CoreReady s bay core 4 t → core.val < 4 → i < 16 →
    (t.core bay core).xGet rs1 = 2 ^ i → (t.core bay core).xGet rs2 = 5 → bankOwner (t.bay bay) i = portOfCore core →
    exec (.bayGive bay core rd rs1 rs2) s = .next (retire ((t.modBay bay (fun x => setBankOwner x i 5)).modCore bay core
      (fun k => k.xSet rd (2 ^ i))) bay core (pc4 t bay core))) ∧
  (∀ (bay : BayNo) (core : CoreNo) (rd rs1 rs2 : RegNo) s t, CoreReady s bay core 4 t → core.val ≠ 4 → (t.core bay core).xGet rs2 = 8 →
    exec (.bayGive bay core rd rs1 rs2) s = .next (retireRd t bay core rd 0)) ∧
  (∀ (bay : BayNo) (core : CoreNo) (word : Word) s t u npc, CoreReady s bay core (if word.toNat % 4 = 3 then 4 else 2) t →
    anyWord t bay core word.toNat = .ok u npc → exec (.riscvInstruction bay core word) s = .next (retire u bay core npc)) ∧
  (∀ (bay : BayNo) (core : CoreNo) s t, CoreReady s bay core 4 t →
    exec (.riscvInstruction bay core 0x00500513) s = .next (retireRd t bay core 10 5)) ∧
  (∀ (bay : BayNo) (core : CoreNo) (vd rs1 rs2 : RegNo) (row : Fin 8) (reg : Fin 4) s t, CoreReady s bay core 4 t → core.val < 4 → row.val < 5 →
    vd.val % 2 ^ reg.val = 0 → (t.core bay core).xGet rs1 % 32 = 0 → (t.core bay core).xGet rs2 % 32 = 0 → (t.bay bay).pending = 0 →
    let as := (List.range (2 ^ reg.val * 512 / (32 * 2 ^ row.val))).map (fun r => ((t.core bay core).xGet rs1 + r * (t.core bay core).xGet rs2) % 2 ^ 64)
    blockBad (t.bay bay) core as (32 * 2 ^ row.val) = none →
    exec (.vbl2d bay core vd rs1 rs2 row reg) s = .next (retire (t.setCore bay core
      (((chunks 512 (as.flatMap (fun a => (t.bay bay).read (a - localBase) (32 * 2 ^ row.val)))).zipIdx).foldl
        (fun (k : Core) q => k.vPutReg (vd + q.2) (natLE q.1)) (t.core bay core))) bay core (pc4 t bay core))) ∧
  (∀ (bay : BayNo) (core : CoreNo) (vs3 rs1 rs2 : RegNo) (row : Fin 8) (reg : Fin 4) s t, CoreReady s bay core 4 t → core.val < 4 → row.val < 5 →
    vs3.val % 2 ^ reg.val = 0 → (t.core bay core).xGet rs1 % 32 = 0 → (t.core bay core).xGet rs2 % 32 = 0 → (t.bay bay).pending = 0 →
    let as := (List.range (2 ^ reg.val * 512 / (32 * 2 ^ row.val))).map (fun r => ((t.core bay core).xGet rs1 + r * (t.core bay core).xGet rs2) % 2 ^ 64)
    blockBad (t.bay bay) core as (32 * 2 ^ row.val) = none →
    exec (.vbs2d bay core vs3 rs1 rs2 row reg) s = .next (retire (t.modBay bay (fun x =>
      ((as.zip (chunks (32 * 2 ^ row.val) ((List.range (2 ^ reg.val)).flatMap (fun i => bytesLE 512 ((t.core bay core).vReg (vs3 + i)))))).foldl
        (fun (x : Bay) q => x.write (q.1 - localBase) q.2) x))) bay core (pc4 t bay core)))

/-- The anchored vector accumulators (05 R134, R135): with a format that matches SEW each instruction changes the accumulators of the
active elements, or reads them, and retires.
The model's choices in it: assumptions 51, 52. -/
def Obligations.AnchoredVectorsComplete : Prop :=
  (∀ (bay : BayNo) (core : CoreNo) (rs1 : RegNo) (vm : Bool) s t fm, CoreReady s bay core 4 t → core.val < 4 → anchorFmt (t.core bay core) = some fm →
    (t.core bay core).vl ≤ 64 → exec (.vaSeta bay core rs1 vm) s = .next (retire (t.setCore bay core { (vActive (t.core bay core) vm).foldl
      (fun k i => k.accPut i (A192.cleared (max (-4096) (min 4095 (s64 ((t.core bay core).xGet rs1)))))) (t.core bay core) with vstart := 0 })
      bay core (pc4 t bay core))) ∧
  (∀ (bay : BayNo) (core : CoreNo) (vs2 : RegNo) (vm : Bool) s t fm, CoreReady s bay core 4 t → core.val < 4 → anchorFmt (t.core bay core) = some fm →
    (t.core bay core).vl ≤ 64 → vAligned vs2 (t.core bay core).vlg = true → exec (.vaAddV bay core vs2 vm) s = .next (retire (t.setCore bay core
      { (vActive (t.core bay core) vm).foldl (fun k' i => k'.accPut i ((k'.accGet i).addTerm (elemVal (t.core bay core) fm vs2 i))) (t.core bay core)
        with vstart := 0 }) bay core (pc4 t bay core))) ∧
  (∀ (bay : BayNo) (core : CoreNo) (vs2 vs1 : RegNo) (vm : Bool) s t fm, CoreReady s bay core 4 t → core.val < 4 →
    anchorFmt (t.core bay core) = some fm → (t.core bay core).vl ≤ 64 → vAligned vs2 (t.core bay core).vlg = true → vAligned vs1 (t.core bay core).vlg = true →
    exec (.vaMacVv bay core vs2 vs1 vm) s = .next (retire (t.setCore bay core { (vActive (t.core bay core) vm).foldl (fun k' i =>
      k'.accPut i ((k'.accGet i).addTerm (Val.mul (elemVal (t.core bay core) fm vs1 i) (elemVal (t.core bay core) fm vs2 i)))) (t.core bay core)
        with vstart := 0 }) bay core (pc4 t bay core))) ∧
  (∀ (bay : BayNo) (core : CoreNo) (vs2 : RegNo) (vm : Bool) s t fm, CoreReady s bay core 4 t → core.val < 4 → anchorFmt (t.core bay core) = some fm →
    vAligned vs2 (t.core bay core).vlg = true → exec (.vaRedV bay core vs2 vm) s = .next (retire (t.setCore bay core
      { (t.core bay core).accPut (t.core bay core).accIndex ((vActive (t.core bay core) vm).foldl (fun a i => a.addTerm (elemVal (t.core bay core) fm vs2 i))
        ((t.core bay core).accGet (t.core bay core).accIndex)) with vstart := 0 }) bay core (pc4 t bay core))) ∧
  (∀ (bay : BayNo) (core : CoreNo) (vs2 vs1 : RegNo) (vm : Bool) s t fm, CoreReady s bay core 4 t → core.val < 4 →
    anchorFmt (t.core bay core) = some fm → vAligned vs2 (t.core bay core).vlg = true → vAligned vs1 (t.core bay core).vlg = true →
    exec (.vaRedmacVv bay core vs2 vs1 vm) s = .next (retire (t.setCore bay core { (t.core bay core).accPut (t.core bay core).accIndex
      ((vActive (t.core bay core) vm).foldl (fun a i => a.addTerm (Val.mul (elemVal (t.core bay core) fm vs1 i) (elemVal (t.core bay core) fm vs2 i)))
        ((t.core bay core).accGet (t.core bay core).accIndex)) with vstart := 0 }) bay core (pc4 t bay core))) ∧
  (∀ (bay : BayNo) (core : CoreNo) (vd : RegNo) s t fm, CoreReady s bay core 4 t → core.val < 4 → anchorFmt (t.core bay core) = some fm →
    (t.core bay core).vl ≤ 64 → vAligned vd (t.core bay core).vlg = true → let k := t.core bay core
    exec (.vaRdV bay core vd true) s = .next (retire { t.setCore bay core { (vPutAll k t.free true vd k.vsew k.vlg (fun i => ((accRead k fm i).1, 0))).xAccrue
      ((vActive k true).foldl (fun e i => e ||| (accRead k fm i).2) 0) with vstart := 0 } with free := t.free + 4096 } bay core (pc4 t bay core))) ∧
  (∀ (bay : BayNo) (core : CoreNo) (vd rs1 : RegNo) s t fm, CoreReady s bay core 4 t → core.val < 4 → anchorFmt (t.core bay core) = some fm →
    let k := t.core bay core
    exec (.vaRdx bay core vd rs1) s = .next (retire { t.setCore bay core { (putFirst k t.free vd k.vsew (accRead k fm (k.xGet rs1 % 64)).1).xAccrue
      (accRead k fm (k.xGet rs1 % 64)).2 with vstart := 0 } with free := t.free + 4096 } bay core (pc4 t bay core))) ∧
  (∀ (bay : BayNo) (core : CoreNo) (rs1 : RegNo) s t u fm, CoreReady s bay core 4 t → core.val < 4 → anchorFmt (t.core bay core) = some fm →
    (t.core bay core).xGet rs1 % 32 = 0 →
    saveRecs t bay core ((t.core bay core).xGet rs1) ((List.range 64).filter (fun i => decide ((t.core bay core).vstart ≤ i))) = .ok u () →
    exec (.vaSave bay core rs1) s = .next (retire ((coreCharge u bay core ((t.core bay core).xGet rs1) 2048 false true).modCore bay core
      (fun k => { k with vstart := 0 })) bay core (pc4 t bay core))) ∧
  (∀ (bay : BayNo) (core : CoreNo) (rs1 : RegNo) s t u fm, CoreReady s bay core 4 t → core.val < 4 → anchorFmt (t.core bay core) = some fm →
    (t.core bay core).xGet rs1 % 32 = 0 →
    loadRecs t bay core ((t.core bay core).xGet rs1) ((List.range 64).filter (fun i => decide ((t.core bay core).vstart ≤ i))) = .ok u () →
    exec (.vaLoad bay core rs1) s = .next (retire ((coreCharge u bay core ((t.core bay core).xGet rs1) 2048 true false).modCore bay core
      (fun k => { k with vstart := 0 })) bay core (pc4 t bay core))) ∧
  (∀ (bay : BayNo) (core : CoreNo) (rs1 : RegNo) s t u bs fm, CoreReady s bay core 4 t → core.val < 4 → anchorFmt (t.core bay core) = some fm →
    (t.core bay core).xGet rs1 % 32 = 0 → coreLoad t bay core ((t.core bay core).xGet rs1) 32 = .ok u bs →
    (A192.ofRec (BitVec.ofNat 256 (natLE bs))).anchor = ((t.core bay core).accGet (t.core bay core).accIndex).anchor →
    exec (.vaAddrec bay core rs1) s = .next (retire ((coreCharge u bay core ((t.core bay core).xGet rs1) 32 true false).modCore bay core
      (fun k => { k.accPut k.accIndex (((t.core bay core).accGet (t.core bay core).accIndex).addRec
        (A192.ofRec (BitVec.ofNat 256 (natLE bs)))) with vstart := 0 })) bay core (pc4 t bay core))) ∧
  (∀ (bay : BayNo) (core : CoreNo) (vd vs2 vs1 : RegNo) (vm : Bool) s t fm, CoreReady s bay core 4 t → core.val < 4 →
    anchorFmt (t.core bay core) = some fm → vAligned vs2 (t.core bay core).vlg = true → let k := t.core bay core
    exec (.vfexpmaxVs bay core vd vs2 vs1 vm) s = .next (retire { t.setCore bay core { putFirst k t.free vd k.vsew (toBits
      (((vActive k vm).filterMap (fun i => (elemVal k fm vs2 i).exponent?)).foldl max (sext (k.vGet vs1 k.vsew 0) k.vsew)) k.vsew) with vstart := 0 }
      with free := t.free + 4096 } bay core (pc4 t bay core)))

/-- The function instructions (05 R136): every active element takes the function's value in the format that SEW and the bf16 bit give,
within R136's bound where the function is a free value of the part (assumption 22).
The model's choices in it: assumption 51. -/
def Obligations.VectorFunctionsComplete : Prop :=
  (∀ (bay : BayNo) (core : CoreNo) (vd vs2 : RegNo) (bf16 : Bool) s t, FnReady s bay core vd vs2 bf16 t →
    exec (.vfexp2 bay core vd vs2 true bf16) s = .next (fnDid t bay core 0 vd vs2 bf16)) ∧
  (∀ (bay : BayNo) (core : CoreNo) (vd vs2 : RegNo) (bf16 : Bool) s t, FnReady s bay core vd vs2 bf16 t →
    exec (.vflog2 bay core vd vs2 true bf16) s = .next (fnDid t bay core 1 vd vs2 bf16)) ∧
  (∀ (bay : BayNo) (core : CoreNo) (vd vs2 : RegNo) (bf16 : Bool) s t, FnReady s bay core vd vs2 bf16 t →
    exec (.vfsinpi bay core vd vs2 true bf16) s = .next (fnDid t bay core 2 vd vs2 bf16)) ∧
  (∀ (bay : BayNo) (core : CoreNo) (vd vs2 : RegNo) (bf16 : Bool) s t, FnReady s bay core vd vs2 bf16 t →
    exec (.vfcospi bay core vd vs2 true bf16) s = .next (fnDid t bay core 3 vd vs2 bf16)) ∧
  (∀ (bay : BayNo) (core : CoreNo) (vd vs2 : RegNo) (bf16 : Bool) s t, FnReady s bay core vd vs2 bf16 t →
    exec (.vftanh bay core vd vs2 true bf16) s = .next (fnDid t bay core 4 vd vs2 bf16)) ∧
  (∀ (bay : BayNo) (core : CoreNo) (vd vs2 : RegNo) (bf16 : Bool) s t, FnReady s bay core vd vs2 bf16 t →
    exec (.vferf bay core vd vs2 true bf16) s = .next (fnDid t bay core 5 vd vs2 bf16)) ∧
  (∀ (bay : BayNo) (core : CoreNo) (vd vs2 : RegNo) (bf16 : Bool) s t, FnReady s bay core vd vs2 bf16 t →
    exec (.vfrsqrt bay core vd vs2 true bf16) s = .next (fnDid t bay core 6 vd vs2 bf16)) ∧
  (∀ (bay : BayNo) (core : CoreNo) (vd vs2 : RegNo) (bf16 : Bool) s t, FnReady s bay core vd vs2 bf16 t →
    exec (.vfrecip bay core vd vs2 true bf16) s = .next (fnDid t bay core 7 vd vs2 bf16))

/-- The flush and reset of a matrix core, a gang's start, and the requests of a stack's controller (04 R119, R123, 06 R153 to R174, 14 R406).
The model's choices in it: assumptions 9, 18, 24, 55. -/
def Obligations.StackRequestsComplete : Prop :=
  (∀ (bay : BayNo) (mx : Fin 4) s, exec (.mxFlush bay mx) s =
    .next ((endRunning s bay mx).modMx bay mx (fun m => { m with fifo := [], status := m.status &&& ~~~0x100000#32 }))) ∧
  (∀ (bay : BayNo) (mx : Fin 4) s, exec (.matrixCoreReset bay mx) s = .next ((endRunning s bay mx).modMx bay mx mxCleared)) ∧
  (∀ (bay : BayNo) s t, Tbl.find s.work.tiles (s.bay bay).tile = some t → t.startAt ≠ 0 → t.step = 4 →
    exec (.gangStart bay) s = .next (advanceTile (reach s t.startAt) bay)) ∧
  (∀ (req : MemReq) s, inStacks req.addr.toNat = true → stackStopped (s.stack (stackOfPa req.addr.toNat)) = false →
    capped (s.stack (stackOfPa req.addr.toNat)) (rqOf s req).master = false → exec (.stackRequest req) s = .next (performRequest s req)) ∧
  (∀ (req : MemReq) s, inStacks req.addr.toNat = true → stackStopped (s.stack (stackOfPa req.addr.toNat)) = true →
    (s.stack (stackOfPa req.addr.toNat)).queue.length < 256 → exec (.stackRequest req) s =
      .next (s.modStack (stackOfPa req.addr.toNat) (fun x => enforce { x with queue := x.queue ++ [req] }))) ∧
  (∀ (k : StackNo) (bay : BayNo) order (addr : PAddr) (bytes : BitVec 34) s, (s.stack k).ranges.length < 64 →
    ∃ t, exec (.lookaheadRange k bay order addr bytes) s = .next t ∧ (t.stack k).pfDrops = (s.stack k).pfDrops ∧ t.mem = s.mem ∧
      (t.stack k).ranges = (s.stack k).ranges ++ [{ bay := bay, order := order, addr := addr.toNat, bytes := bytes.toNat }]) ∧
  (∀ (k : StackNo) (bay : BayNo) order (addr : PAddr) (bytes : BitVec 34) s, 64 ≤ (s.stack k).ranges.length → (s.stack k).pfDrops = 0 →
    ∃ t, exec (.lookaheadRange k bay order addr bytes) s = .next t ∧ (t.stack k).pfDrops = 1 ∧ (t.stack k).ranges = (s.stack k).ranges ∧ t.mem = s.mem) ∧
  (∀ (k : StackNo) s r, (s.stack k).enforcing = false → (s.stack k).queue.length < bitsAt (s.stack k).queueThresh.toNat 16 9 →
    stackStopped (s.stack k) = false → (s.stack k).streams = [] → (s.stack k).ranges = [r] → bitsAt (s.stack k).pfCtrl.toNat 1 1 = 1 →
    r.next = 0 → 0 < r.bytes →
    exec (.prefetchIssue k) s = .next (prefetchLine (s.modStack k (fun x => { x with ranges := x.ranges.map (fun u =>
      if u == r then { u with next := (r.addr / 128 + 1) * 128 - u.addr } else u) })) { master := r.bay, part := s.partOfBay r.bay } (r.addr / 128)))

/-- The maintenance and the health of a stack (06 R162, R167, R170 to R179): one operation at a time, BUSY while it runs, DONE after it.
The model's choices in it: assumptions 23, 25, 28, 30. -/
def Obligations.StackMaintenanceComplete : Prop :=
  (∀ (k : StackNo) (part : PartNo) s, (s.stack k).maint = none → exec (.writebackPart k part) s = .next (maintRecall (s.setStack k
    { s.stack k with maint := some (1, part.val, 0), maintStatus := (s.stack k).maintStatus ||| 0x10000#32 }) k 1 part 0)) ∧
  (∀ (k : StackNo) (part : PartNo) s, (s.stack k).maint = none → exec (.flushPart k part) s = .next (maintRecall (s.setStack k
    { s.stack k with maint := some (2, part.val, 0), maintStatus := (s.stack k).maintStatus ||| 0x10000#32 }) k 2 part 0)) ∧
  (∀ (k : StackNo) (shelf : Fin 16) s, (s.stack k).maint = none → exec (.flushShelf k shelf) s = .next (maintRecall (s.setStack k
    { s.stack k with maint := some (3, 0, shelf.val), maintStatus := (s.stack k).maintStatus ||| 0x10000#32 }) k 3 0 shelf)) ∧
  (∀ (k : StackNo) s, (s.stack k).maint = none → exec (.flushAll k) s = .next (maintRecall (s.setStack k
    { s.stack k with maint := some (4, 0, 0), maintStatus := (s.stack k).maintStatus ||| 0x10000#32 }) k 4 0 0)) ∧
  (∀ (k : StackNo) s op, (s.stack k).maint = some op →
    exec (.flushAll k) s = .next (s.setStack k { s.stack k with maintStatus := statusFlag (s.stack k).maintStatus 18 })) ∧
  (∀ (k : StackNo) s op part shelf, (s.stack k).maint = some (op, part, shelf) → s.mem.txns = [] →
    exec (.mscMaintDone k) s = .next (flushed (settlePartResets ((maintWalk s k op part shelf).modStack k (fun x =>
      { x with maint := none, maintStatus := statusFlag (x.maintStatus &&& ~~~0x10000#32) 17 }))) k)) ∧
  (∀ (k : StackNo) (ch : Fin 32) s, Tbl.getD (s.stack k).lanesUsed ch 0 < 2 →
    exec (.laneFail k ch) s = .next (stackEvent (s.setStack k { s.stack k with
      lanesUsed := Tbl.put (s.stack k).lanesUsed ch (Tbl.getD (s.stack k).lanesUsed ch 0 + 1),
      spareLanes := 2 - (Tbl.put (s.stack k).lanesUsed ch (Tbl.getD (s.stack k).lanesUsed ch 0 + 1)).foldl (fun a e => max a e.2) 0 }) k 20 0 0)) ∧
  (∀ (k : StackNo) (ch : Fin 32) s, 2 ≤ Tbl.getD (s.stack k).lanesUsed ch 0 →
    exec (.laneFail k ch) s = .next ((stackEvent s k 21 4 0).modSeq (fun q => { q with persistentFault := true }))) ∧
  (∀ (k : StackNo) s, (s.stack k).selfRefresh = false → (s.stack k).scrubAt = 0 → (s.stack k).scrubCtrl = 0 → s.mem.poison = [] →
    ∃ t, exec (.patrolScrub k 0) s = .next t ∧ (t.stack k).scrubAt = 1 ∧ (t.stack k).scrubPasses = (s.stack k).scrubPasses ∧ t.mem = s.mem) ∧
  (∀ (k : StackNo) (temp : BitVec 8) s, exec (.dramTempSample k temp) s =
    .next (s.modStack k (fun x => { x with temp := temp.toNat, nextState := tempState (s.stack k).state temp.toNat }))) ∧
  (∀ (k : StackNo) s, (s.stack k).nextState = (s.stack k).state → (s.stack k).guarNext = [] → (s.stack k).queue = [] →
    ∃ t, exec (.regulationWindow k) s = .next t ∧ (t.stack k).used = (s.stack k).usedNow ∧ (t.stack k).usedNow = [] ∧
      (t.stack k).state = (s.stack k).state ∧ (t.stack k).guar = (s.stack k).guar ∧ (s.now / 1024 + 1) * 1024 ≤ t.now ∧ t.mem = s.mem)

/-- The Shelver opcodes that move data (07 R188, R193 to R197): the admitted command's bytes move and its run starts.
The model's choices in it: assumptions 9, 31. -/
def Obligations.ShelverMovesComplete : Prop :=
  (∀ (sh : ShelverNo) s q w u c, ShReady s sh 0 q w u c → exec (.shNop sh) s = .next (startRun u sh q (shAdmitted s sh q w c))) ∧
  (∀ (sh : ShelverNo) s q w u c v r, ShReady s sh 1 q w u c → shDoes shCopy u c w (shAdmitted s sh q w c) = .did v r →
    exec (.shCopy sh) s = .next (startRun v sh q r)) ∧
  (∀ (sh : ShelverNo) s q w u c v r, ShReady s sh 2 q w u c → shDoes shFill u c w (shAdmitted s sh q w c) = .did v r →
    exec (.shFill sh) s = .next (startRun v sh q r)) ∧
  (∀ (sh : ShelverNo) s q w u c v r, ShReady s sh 3 q w u c → shDoes (shGather false) u c w (shAdmitted s sh q w c) = .did v r →
    exec (.shGather sh) s = .next (startRun v sh q r)) ∧
  (∀ (sh : ShelverNo) s q w u c v r, ShReady s sh 4 q w u c → shDoes (shGather true) u c w (shAdmitted s sh q w c) = .did v r →
    exec (.shScatter sh) s = .next (startRun v sh q r)) ∧
  (∀ (sh : ShelverNo) s q w u c v r, ShReady s sh 8 q w u c → shDoes shTranspose u c w (shAdmitted s sh q w c) = .did v r →
    exec (.shTranspose sh) s = .next (startRun v sh q r)) ∧
  (∀ (sh : ShelverNo) s q w u c v r, ShReady s sh 11 q w u c → shDoes shPrefetch u c w (shAdmitted s sh q w c) = .did v r →
    exec (.shPrefetch sh) s = .next (startRun v sh q r)) ∧
  (∀ (sh : ShelverNo) s q w u c v r, ShReady s sh 12 q w u c → shDoes shMigrate u c w (shAdmitted s sh q w c) = .did v r →
    exec (.shMigrate sh) s = .next (startRun v sh q r))

/-- The Shelver opcodes that compute, measure and test (07 R197 to R204).
The model's choices in it: assumptions 9, 22, 30, 31. -/
def Obligations.ShelverComputesComplete : Prop :=
  (∀ (sh : ShelverNo) s q w u c v r, ShReady s sh 5 q w u c → shDoes shReduce u c w (shAdmitted s sh q w c) = .did v r →
    exec (.shReduce sh) s = .next (startRun v sh q r)) ∧
  (∀ (sh : ShelverNo) s q w u c v r, ShReady s sh 6 q w u c → shDoes shAtomic u c w (shAdmitted s sh q w c) = .did v r →
    exec (.shAtomic sh) s = .next (startRun v sh q r)) ∧
  (∀ (sh : ShelverNo) s q w u c v r, ShReady s sh 7 q w u c → shDoes shScan u c w (shAdmitted s sh q w c) = .did v r →
    exec (.shScan sh) s = .next (startRun v sh q r)) ∧
  (∀ (sh : ShelverNo) s q w u c v r, ShReady s sh 9 q w u c → shDoes shMeasure u c w (shAdmitted s sh q w c) = .did v r →
    exec (.shMeasure sh) s = .next (startRun v sh q r)) ∧
  (∀ (sh : ShelverNo) s q w u c v r, ShReady s sh 10 q w u c → shDoes shScrub u c w (shAdmitted s sh q w c) = .did v r →
    exec (.shScrub sh) s = .next (startRun v sh q r)) ∧
  (∀ (sh : ShelverNo) failed s q w u c v r, ShReady s sh 14 q w u c → shDoes (shPattern (failed.map (·.toNat))) u c w (shAdmitted s sh q w c) = .did v r →
    exec (.shPatternTest sh failed) s = .next (startRun v sh q r)) ∧
  (∀ (sh : ShelverNo) s q w u c v r, ShReady s sh 13 q w u c → shDoes shIngest u c w (shAdmitted s sh q w c) = .did v r →
    exec (.shSealIngest sh) s = .next (startRun v sh q r))

/-- A Shelver's chunks, completions and faults (07 R191, R192, R205, R207, R221, R222).
The model's choices in it: assumptions 9, 31, 45. -/
def Obligations.ShelverRunsComplete : Prop :=
  (∀ (sh : ShelverNo) s q r, (s.shelver sh).active = q → q < 8 → Tbl.find (s.shelver sh).runs q = some r → r.chunks ≠ 0 →
    (s.shelver sh).resetting = false → runHit s r = false →
    exec (.shelverChunkDone sh) s = .next (settleInvals (s.setShelver sh
      { s.shelver sh with runs := Tbl.put (s.shelver sh).runs q { r with chunks := r.chunks - 1 }, last := q }.settle))) ∧
  (∀ (sh : ShelverNo) s q r, (s.shelver sh).active = q → q < 8 → Tbl.find (s.shelver sh).runs q = some r → r.chunks ≠ 0 →
    (s.shelver sh).resetting = false → runHit s r = true → exec (.shelverChunkDone sh) s = .next (cutRun s sh q Status.aborted.code)) ∧
  (∀ (sh : ShelverNo) s q r, endedQueue (s.shelver sh) = some q → Tbl.find (s.shelver sh).runs q = some r → ShCmd.pubOp r.word = 0 →
    exec (.shelverComplete sh) s = .next (settleInvals (finishRun s sh q r false))) ∧
  (∀ (sh : ShelverNo) s, (s.shelver sh).active ≠ 15 →
    exec (.shWatchdogExpire sh) s = .next (shelverReset (reach s (s.now + max 1 ((s.shelver sh).watchdog.toNat % 65536) * us)) sh 29)) ∧
  (∀ (sh : ShelverNo) s, exec (.scratchParityError sh) s =
    .next (shelverReset (s.modShelver sh (fun x => { x with scratchParity := satInc x.scratchParity })) sh 28)) ∧
  (∀ (sh : ShelverNo) s, ∃ t, exec (.halt sh) s = .next t ∧ (t.shelver sh).ctrl = (s.shelver sh).ctrl ||| 0x10000#32 ∧
    (t.shelver sh).queues = (s.shelver sh).queues ∧ (t.shelver sh).runs = (s.shelver sh).runs ∧ t.mem = s.mem) ∧
  (∀ (sh : ShelverNo) s, ∃ t, exec (.mirrorStop sh) s = .next t ∧ (t.shelver sh).mirror = none ∧
    (t.shelver sh).queues = (s.shelver sh).queues ∧ t.mem = s.mem) ∧
  (∀ (block : PAddr) s d, direct? block.toNat = some d → (∀ i < 32, Tbl.find s.mem.msc (alignDown d 4096 / 128 + i) = none) →
    exec (.compressedWriteback block) s = .next s) ∧
  (∀ (block : PAddr) s d x, direct? block.toNat = some d → Tbl.find s.mem.msc (alignDown d 4096 / 128) = some x → cmpMode x.cmp ≠ 0 →
    exec (.compressedWriteback block) s = .next ((List.range' 1 31).foldl (fun s i => match Tbl.find s.mem.msc (alignDown d 4096 / 128 + i) with
      | some x => if cmpMode x.cmp == 0 then s else writeBackLine s { part := partOfAddr s (alignDown d 4096), bypass := true } (alignDown d 4096 / 128 + i)
      | none => s) (writeBackLine s { part := partOfAddr s (alignDown d 4096), bypass := true } (alignDown d 4096 / 128))))

/-- The requests of coherence agents (08 R226, R227, R233): each reaches the line's home with the partition it is charged to.
The model's choices in it: assumptions 18, 19. -/
def Obligations.CoherentRequestsComplete : Prop :=
  (∀ (agent : AgentNo) (line : PAddr) s l p, coherentCheck s agent line.toNat = .ok (l, p) → isL1 agent = true →
    exec (.rdShared agent line) s = .next (homeRequest s l p agent (attrOfAddr s p (128 * l)) (.rdShared agent) false)) ∧
  (∀ (agent : AgentNo) (line : PAddr) s l p, coherentCheck s agent line.toNat = .ok (l, p) → isL1 agent = true →
    exec (.rdOwn agent line) s = .next (homeRequest s l p agent (attrOfAddr s p (128 * l)) (.rdOwn agent) false)) ∧
  (∀ (agent : AgentNo) (line : PAddr) s l p, coherentCheck s agent line.toNat = .ok (l, p) → isL1 agent = false →
    exec (.upgrade agent line) s = .next (homeRequest s l p agent 0 (.upgrade agent) false)) ∧
  (∀ (agent : AgentNo) (line : PAddr) poison data s l p x, coherentCheck s agent line.toNat = .ok (l, p) → isL1 agent = true →
    l1Find s agent l = some x → x.st = .m →
    exec (.writeback agent line poison data) s = .next (l1Drop (homeWriteback s l p agent x.poison x.data) agent l)) ∧
  (∀ (agent : AgentNo) (line : PAddr) data s l p, coherentCheck s agent line.toNat = .ok (l, p) → isL1 agent = false →
    exec (.writeback agent line false data) s = .next (otSend (homeWriteback s l p agent 0#4 data) (.ack (agentPort agent) 0 0 0))) ∧
  (∀ (agent : AgentNo) (line : PAddr) s l p, coherentCheck s agent line.toNat = .ok (l, p) → isL1 agent = false →
    exec (.cleanEvict agent line) s = .next (homeCleanEvict s l agent)) ∧
  (∀ (agent : AgentNo) (tag : BitVec 12) (addr : PAddr) (op : Fin 10) (operand compare : DWord) s l p, addr.toNat % 8 = 0 →
    coherentCheck s agent addr.toNat = .ok (l, p) → isL1 agent = true →
    exec (.farAmo agent tag addr op true operand compare) s = .next (homeRequest s l p agent (attrOfAddr s p (128 * l))
      (.farAmo agent tag.toNat (128 * l + addr.toNat % 128) op 8 (operand.toNat + 2 ^ 64 * compare.toNat)) false))

/-- Snoops, their answers, grants and deadlines (08 R226, R231, R239, R240, 16 R447, R451).
The model's choices in it: assumptions 4, 18. -/
def Obligations.SnoopsAndGrantsComplete : Prop :=
  (∀ (agent : AgentNo) (line : PAddr) s x, isL1 agent = true → agentLive s agent = true → holdEnd s agent (lineOf line) 0 ≤ s.now →
    s.mem.snoops = [x] → x.agent = agent.val → x.line = lineOf line → x.kind = 0 → x.deferred = false →
    exec (.snpShare agent line) s = .next (let u := s.modMem (fun m => { m with snoops := [] })
      (l1Answer u agent (lineOf line) 0).1.modMem (fun m => { m with answers := m.answers ++ [(l1Answer u agent (lineOf line) 0).2] }))) ∧
  (∀ (agent : AgentNo) (line : PAddr) s x, agentLive s agent = true → s.now < holdEnd s agent (lineOf line) 1 →
    s.mem.snoops = [x] → x.agent = agent.val → x.line = lineOf line → x.kind = 1 → x.deferred = false →
    exec (.snpInv agent line) s = .next (s.modMem (fun m => { m with snoops := [{ x with deferred := true }] }))) ∧
  (∀ (agent : AgentNo) (line : PAddr) s x, isL1 agent = true → agentLive s agent = true → holdEnd s agent (lineOf line) 1 ≤ s.now →
    s.mem.snoops = [x] → x.agent = agent.val → x.line = lineOf line → x.kind = 1 → x.deferred = false →
    exec (.snpInv agent line) s = .next (let u := s.modMem (fun m => { m with snoops := [] })
      (l1Answer u agent (lineOf line) 1).1.modMem (fun m => { m with answers := m.answers ++ [(l1Answer u agent (lineOf line) 1).2] }))) ∧
  (∀ (agent : AgentNo) (line : PAddr) s x, isL1 agent = true → agentLive s agent = true → holdEnd s agent (lineOf line) 2 ≤ s.now →
    s.mem.snoops = [x] → x.agent = agent.val → x.line = lineOf line → x.kind = 2 → x.deferred = false →
    exec (.snpData agent line) s = .next (let u := s.modMem (fun m => { m with snoops := [] })
      (l1Answer u agent (lineOf line) 2).1.modMem (fun m => { m with answers := m.answers ++ [(l1Answer u agent (lineOf line) 2).2] }))) ∧
  (∀ (agent : AgentNo) (line : PAddr) state poison data s x, isL1 agent = true → s.mem.answers = [x] → x.agent = agent.val → x.line = lineOf line →
    exec (.snpRsp agent line state poison data) s = .next (takeAnswer (s.modMem (fun m => { m with answers := [] })) x)) ∧
  (∀ (agent : AgentNo) (line : PAddr) data s, isL1 agent = false →
    exec (.snpRsp agent line 2 false data) s =
      .next (takeAnswer s { agent := agent, line := lineOf line, st := 2, poison := 0#4, data := some data })) ∧
  (∀ (agent : AgentNo) (line : PAddr) s g, isL1 agent = true → s.mem.grants = [g] → g.agent = agent.val → g.line = lineOf line →
    exec (.grant agent line) s = .next (installGrant (s.modMem (fun m => { m with grants := [] })) g)) ∧
  (∀ (agent : AgentNo) (line : PAddr) s x, s.mem.snoops = [x] → x.agent = agent.val → x.line = lineOf line → x.deferred = true →
    exec (.snoopHoldExpire agent line) s = .next (snoopArrives ((reach s (holdEnd s agent (lineOf line) x.kind)).modMem (fun m =>
      { m with snoops := m.snoops.map (fun y => if y == x then { x with deferred := false } else y) })) agent (lineOf line) x.kind)) ∧
  (∀ (line : PAddr) s t a, Tbl.find s.mem.txns (lineOf line) = some t → t.await = [a] → t.owner = none → isL1 a = true →
    exec (.snoopDeadline line) s = .next (fenceCore (takeAnswer (cohEvent ((reach s (t.deadline + 1)).modMem (fun m =>
      { m with snoops := m.snoops.filter (fun x => x.line != lineOf line), answers := m.answers.filter (fun x => x.line != lineOf line) }))
      (stackOf (128 * lineOf line)) 16 a 2
      (partMaskOf ((reach s (t.deadline + 1)).modMem (fun m =>
        { m with snoops := m.snoops.filter (fun x => x.line != lineOf line), answers := m.answers.filter (fun x => x.line != lineOf line) })) (128 * lineOf line)) none)
      { agent := a, line := lineOf line, st := 0 }) (agentBay a) (portOfCore (agentCore a)) false)) ∧
  (∀ (bay : BayNo) (core : CoreNo) s, exec (.l1dFlushTimeout bay core) s = .next (fenceCore (reach s (s.now + 20 * us)) bay (portOfCore core) false))

/-- The Catalogue's rows and Concordance's votes (09 R253 to R268, 10 R282 to R284): each message is taken from the Registrar's inbox and
has its effect on its round.
The model's choices in it: assumptions 16, 18, 37, 44. -/
def Obligations.CatalogueAndVotesComplete : Prop :=
  (∀ (req : Fin 1024) (key : LookupKey) (va : BitVec 57) (acc : Access) s e t, req.val < 192 →
    lookup s (keyOf key) { req := req, access := accessOf acc, va := va.toNat } = (t, some e) →
    exec (.catalogueLookup req key va acc 1) s = .next (localKeep t req e)) ∧
  (∀ (record : Fin 512) s, s.isolated = false → exec (.tableWalk record) s = .next (settleInvals (walkMiss s record))) ∧
  (∀ (record : Fin 512) s m, s.isolated = true → Tbl.find (settlePoint1 s).cat.misses record = some m → missHeld (settlePoint1 s) m = false →
    keyRoot (settlePoint1 s) m.key = none → exec (.tableWalk record) s =
      .next (modCat (settlePoint1 s) (fun c => { c with misses := Tbl.upd c.misses record (fun m => { m with walked := true }) }))) ∧
  (∀ (key : LookupKey) (va : BitVec 57) s, exec (.dirty key va) s = .next (dirtyBlock s (keyOf key) va.toNat)) ∧
  (∀ s t p u r, takeConc s 1 = some (t, p, u) → Tbl.find u.vols.rounds (Conc.handle p) = some r → r.epoch = Conc.epoch p →
    exec .mapChunk s = .next (castVote (relayRound (setRound u (Conc.handle p) { r with
      chunks := Tbl.put r.chunks (Conc.at_ p 8 4) ((p.payload.drop 32).take (Conc.at_ p 16 16)) }) (Conc.handle p)) (Conc.handle p))) ∧
  (∀ s t p u r, takeConc s 2 = some (t, p, u) → Tbl.find u.vols.rounds (Conc.handle p) = some r → r.epoch = Conc.epoch p → r.prepare = none →
    exec .prepare s = .next (castVote (relayRound (setRound u (Conc.handle p) { r with
      prepare := some (Conc.at_ p 8 4, BitVec.ofNat 512 (Conc.at_ p 32 64), Conc.at_ p 16 8) }) (Conc.handle p)) (Conc.handle p))) ∧
  (∀ s t p u r n g dl, takeConc s 3 = some (t, p, u) → Tbl.find u.vols.rounds (Conc.handle p) = some r → r.epoch = Conc.epoch p →
    r.prepare = some (n, g, dl) → t ≤ dl → exec .vote s = .next (settleVotes (setRound u (Conc.handle p) { r with
      votes := r.votes ++ [(Pk.src p.hdr, Conc.at_ p 8 2, Conc.at_ p 12 4)] }) (Conc.handle p))) ∧
  (∀ s t p u r n g dl, takeConc s 3 = some (t, p, u) → Tbl.find u.vols.rounds (Conc.handle p) = some r → r.prepare = some (n, g, dl) → dl < t →
    exec .vote s = .next u)

/-- Concordance's commits, aborts, drains, queries and instants (10 R282 to R291).
The model's choices in it: assumptions 16, 37, 44. -/
def Obligations.ConcordanceComplete : Prop :=
  (∀ s t p u v m r, takeConc s 4 = some (t, p, u) → Tbl.find u.vols.vols (Conc.handle p) = some v → v.st = .prepared → v.next = some m →
    m.epoch = Conc.epoch p → Tbl.find u.vols.rounds (Conc.handle p) = some r →
    exec .commit s = .next (commitHere (delRound (relayConc u (Conc.handle p) r p.payload) (Conc.handle p)) (Conc.handle p) (Conc.at_ p 16 8) m none)) ∧
  (∀ s t p u r, takeConc s 5 = some (t, p, u) → Tbl.find u.vols.rounds (Conc.handle p) = some r → r.epoch = Conc.epoch p →
    exec .concAbort s = .next (abortHere (delRound (relayConc u (Conc.handle p) r p.payload) (Conc.handle p)) (Conc.handle p))) ∧
  (∀ s t p u v, takeConc s 6 = some (t, p, u) → Tbl.find u.vols.vols (Conc.handle p) = some v →
    exec .drain s = .next (castVote (tryEndGrace (trySendDrain (setVol u (Conc.handle p) { v with
      drained := NSet.ins v.drained (Conc.epoch p * 16384 + Pk.src p.hdr) }) (Conc.handle p)) (Conc.handle p)) (Conc.handle p))) ∧
  (∀ s t p u v, takeConc s 7 = some (t, p, u) → Tbl.find u.vols.vols (Conc.handle p) = some v →
    exec .query s = .next (sendConc u (Pk.src p.hdr) (Conc.body 8 ((v.cur.map (·.epoch)).getD 65535) (Conc.handle p)
      (bytesLE 2 (volStateCode v.st) ++ bytesLE 2 ((v.next.map (·.epoch)).getD 65535))))) ∧
  (∀ s t p u r got, takeConc s 8 = some (t, p, u) → Tbl.find u.vols.rounds (Conc.handle p) = some r → r.recover = some got →
    exec .state s = .next (setRound u (Conc.handle p) { r with recover := some (got ++ [(Pk.src p.hdr, Conc.epoch p, Conc.at_ p 8 2)]) })) ∧
  (∀ (handle : Word) s r n g dl own, Tbl.find s.vols.rounds handle.toNat = some r → r.prepare = some (n, g, dl) → r.own = some own →
    r.recover = none → r.cmd.isSome = true →
    exec (.prepareDeadline handle) s = .next (abortRound (reach s (dl + 1)) handle.toNat Status.timeout.code 0 0)) ∧
  (∀ (handle : Word) s v, Tbl.find s.vols.vols handle.toNat = some v → v.st = .switching →
    exec (.switchAt handle) s = .next (switchVol (reach s v.switchAt) handle.toNat)) ∧
  (∀ (handle : Word) s v m, Tbl.find s.vols.vols handle.toNat = some v → v.prev = some m →
    exec (.graceLimit handle) s = .next (castVote (endGrace (reach s (v.switchedAt + m.grace * ms)) handle.toNat) handle.toNat)) ∧
  (∀ (handle : Word) s r v, Tbl.find s.vols.rounds handle.toNat = some r → Tbl.find s.vols.vols handle.toNat = some v → r.recover = some [] →
    r.cmd = none → v.st = .prepared → v.next = none → v.cur = none →
    exec (.recoverStateWait handle) s = .next (abortHere (((treeOf v.cur (v.next.orElse (fun _ => r.map)) s.fab.deviceId).drop 1).foldl
      (fun s d => sendConc s d (Conc.body 5 r.epoch handle.toNat (bytesLE 4 Status.stateLost.code)))
      (delRound (reach s r.recoverBy) handle.toNat)) handle.toNat))

/-- The states of a link (11 R303, R304, R312, 16 R441, R442): each step completes in the state it belongs to.
The model's choices in it: assumptions 4, 40, 41, 83. -/
def Obligations.LinkStatesComplete : Prop :=
  (∀ (port : LinkNo) s, linkIn s port 1 → exec (.trainDone port 0#8) s = .next (modLink (setLink s port { linkOf s port with badLanes := 0 })
    port (fun l => { l with state := 2, since := s.now }))) ∧
  (∀ (port : LinkNo) bad s, linkIn s port 1 → port.val < 24 → bad.toNat % 16 ≠ 0 →
    exec (.trainDone port bad) s = .next (setLink s port { linkOf s port with badLanes := bad.toNat })) ∧
  (∀ (port : LinkNo) s, linkIn s port 2 → exec (.alignDone port) s = .next (modLink s port (fun l => { l with state := 3, since := s.now }))) ∧
  (∀ (port : LinkNo) (peer : PeerInfo) s q m, linkIn s port 3 → port.val < 24 → bondOf s port = (q, m) → peer.verified = false →
    exec (.handshakeDone port peer) s = .next (goDown (linkEvent s q .handshake) q)) ∧
  (∀ (port : LinkNo) (peer : PeerInfo) s, linkIn s port 3 → port.val < 24 → bondOf s port = (port.val, 1) → peer.verified = true →
    peer.bondSize = 1 → peer.members.map (·.val) = [port.val] → exec (.handshakeDone port peer) s = .next (linkUp (s.modFport port (fun x =>
      { x with peer := some (peer.device.toNat, peer.port.val), members := [port.val] })) port peer)) ∧
  (∀ (port : LinkNo) s, linkIn s port 2 → exec (.linkStepLimit port) s = .next (goDown (reach s ((linkOf s port).since + stepLimit port 2)) port)) ∧
  (∀ (port : Fin 2) s, linkIn s (24 + port.val) 5 →
    exec (.heldTimeout port) s = .next (enterTrain (reach s ((linkOf s (24 + port.val)).since + 10 * 1000 * ms)) (24 + port.val))) ∧
  (∀ (port : LinkNo) s, linkIn s port 4 → exec (.frameAuthFail port) s = .next (authFailure s port)) ∧
  (∀ (port : LinkNo) s, linkIn s port 4 → exec (.flitSilence port) s = .next (linkFail (reach s ((linkOf s port).lastFlit + 10 * us)) port)) ∧
  (∀ (port : LinkNo) s, linkIn s port 4 → exec (.fecLockLoss port) s = .next (linkFail s port)) ∧
  (∀ (port : LinkNo) s, linkIn s port 4 →
    exec (.keyRollover port) s = .next (modLink s port (fun l => { l with txKey := l.txKey + 1, txFrame := 0 })))

/-- The flits of an UP link (11 R305 to R311, 12 R339, 16 R444): one with a wrong CRC is counted against the link, one in sequence is taken.
The model's choices in it: assumptions 42, 72. -/
def Obligations.FlitsComplete : Prop :=
  (∀ (port : LinkNo) (flit : BitVec 2048) s, linkIn s port 4 → flitType flit = 1 → flitCrcOk flit = false →
    exec (.dataFlit port flit) s = .next (flitError s port false)) ∧
  (∀ (port : LinkNo) (flit : BitVec 2048) s l, linkIn s port 4 → flitType flit = 1 → flitCrcOk flit = true →
    linkOf (applyAck (modLink s port (fun l => { l with lastFlit := s.now })) port flit) port = l → l.state = 4 → flitSeq flit = l.rxSeq →
    flitLast flit = false → exec (.dataFlit port flit) s = .next (setLink (applyAck (modLink s port (fun l => { l with lastFlit := s.now })) port flit)
      port { l with rxSeq := (l.rxSeq + 1) % 4096, nackSent := false, replayFails := 0, frame := l.frame ++ [flit] })) ∧
  (∀ (port : LinkNo) (flit : BitVec 2048) s l, linkIn s port 4 → flitType flit = 2 → flitCrcOk flit = true →
    linkOf (applyAck (modLink s port (fun l => { l with lastFlit := s.now })) port flit) port = l → l.state = 4 → flitSeq flit = l.rxSeq →
    flitLast flit = false → exec (.ctrlFlit port flit) s = .next (setLink (applyAck (modLink s port (fun l => { l with lastFlit := s.now })) port flit)
      port { l with rxSeq := (l.rxSeq + 1) % 4096, nackSent := false, replayFails := 0, frame := l.frame ++ [flit] })) ∧
  (∀ (port : LinkNo) (flit : BitVec 2048) s, linkIn s port 4 → flitType flit = 0 → flitCrcOk flit = true →
    exec (.idleFlit port flit) s = .next (applyAck (modLink s port (fun l => { l with lastFlit := s.now })) port flit)) ∧
  (∀ (port : LinkNo) (flit : BitVec 2048) s u bs, takeFlit s port 3 flit = (u, some bs) → port.val < 24 →
    exec (.timeFlit port flit) s = .next (takeTime u (leaderOf u port) (((u.fport (leaderOf u port)).peer.map (·.1)).getD 0) bs)) ∧
  (∀ (port : LinkNo) (flit : BitVec 2048) s u bs, takeFlit s port 3 flit = (u, some bs) → 24 ≤ port.val →
    exec (.timeFlit port flit) s = .next (u.modOt (fun o => o.setPort (port.val - 24) { o.port (port.val - 24) with
      badMessages := satInc (o.port (port.val - 24)).badMessages }))) ∧
  (∀ (port : FabricPort) s, portUp s (leaderOf s port) = true → (s.pwr.link (leaderOf s port)).sentAt = 0 →
    let u := (reach s (alignUp s.now 16384)).modPwr (fun p =>
        { p with links := Tbl.put p.links (leaderOf s port) { p.link (leaderOf s port) with sentAt := alignUp s.now 16384 } })
    exec (.timeFlitSend port) s = .next (linkSend u (leaderOf s port) 3 (timePayload u (leaderOf s port)))) ∧
  (∀ (port : LinkNo) fec s, linkIn s port 4 → exec (.flitCrcError port fec) s = .next (flitError s port fec))

/-- End-to-end requests and responses (11 R315 to R323): a request in time on a known epoch is performed and answered; a response ends the
request that waits for it.
The model's choices in it: assumptions 26, 42, 43, 48. -/
def Obligations.FabricRequestsComplete : Prop :=
  (∀ (port : FabricPort) (pkt : Packet) s u m t st data, ReqReady s .rd port pkt u m → windowRequest u .rd port m pkt = .ok t (st, data) →
    exec (.rd port pkt) s = .next (respond t pkt 1 st data)) ∧
  (∀ (port : FabricPort) (pkt : Packet) s u m t st data, ReqReady s .wr port pkt u m → windowRequest u .wr port m pkt = .ok t (st, data) →
    exec (.wr port pkt) s = .next (respond t pkt 3 st data)) ∧
  (∀ (port : FabricPort) (pkt : Packet) s u m t st data, ReqReady s .atomic port pkt u m → windowRequest u .atomic port m pkt = .ok t (st, data) →
    exec (.atomic port pkt) s = .next (respond t pkt 5 st data)) ∧
  (∀ (port : FabricPort) (pkt : Packet) s, portUp s port = true → Pk.dst pkt.hdr ≠ s.fab.deviceId →
    exec (.rd port pkt) s = .next (forwardPacket s port pkt)) ∧
  (∀ (port : FabricPort) (pkt : Packet) s r, RespReady s 1 port pkt r → closingBay (tagDone s pkt r) r.who = none → s.now ≤ r.deadline →
    Pk.status pkt.hdr = 0 → exec (.rdResp port pkt) s = .next (answered (trySendDrain
      (endRequest (tagDone s pkt r) (Pk.tag pkt.hdr) r 0 false pkt.payload) (Pk.volume r.pkt.hdr)))) ∧
  (∀ (port : FabricPort) (pkt : Packet) s r, RespReady s 3 port pkt r → closingBay (tagDone s pkt r) r.who = none → s.now ≤ r.deadline →
    Pk.status pkt.hdr ≠ 0 → exec (.wrAck port pkt) s = .next (answered (trySendDrain
      (endRequest (tagDone s pkt r) (Pk.tag pkt.hdr) r (Pk.status pkt.hdr) false []) (Pk.volume r.pkt.hdr)))) ∧
  (∀ (port : FabricPort) (pkt : Packet) s r, RespReady s 5 port pkt r → closingBay (tagDone s pkt r) r.who = none → r.deadline < s.now →
    exec (.atomicResp port pkt) s = .next (answered (trySendDrain
      (endRequest (tagDone s pkt r) (Pk.tag pkt.hdr) r Status.timeout.code true []) (Pk.volume r.pkt.hdr)))) ∧
  (∀ (tag : BitVec 16) s r, Tbl.find s.fab.tags tag.toNat = some r → exec (.fabricDeadline tag) s = .next (answered (endRequest
    ((reach s (r.deadline + 1)).modFab (fun f => { f with tags := Tbl.del f.tags tag.toNat })) tag.toNat r Status.timeout.code true []))) ∧
  (∀ s r rest, s.fab.stalled = r :: rest → r.deadline < s.now →
    exec .tagFree s = .next (answered (endRequest (s.modFab (fun f => { f with stalled := rest })) 65536 r Status.timeout.code true []))) ∧
  (∀ s r rest, s.fab.stalled = r :: rest → s.now ≤ r.deadline → tagFree s (requestPort s (Pk.dst r.pkt.hdr)) = true →
    exec .tagFree s = .next (sendRequest (s.modFab (fun f => { f with stalled := rest })) r))

/-- Messages of Concordance, management messages and the collectives (10 R282, 11 R318 to R331, 15 R439).
The model's choices in it: assumptions 16, 46, 74. -/
def Obligations.CollectivesComplete : Prop :=
  (∀ (port : FabricPort) (pkt : Packet) s, forRegistrar s 7 port pkt = .ok () → 1 ≤ Conc.code pkt → Conc.code pkt ≤ 8 → 8 ≤ pkt.payload.length →
    exec (.conc port pkt) s = .next (s.modFab (fun f => { f with concIn := f.concIn ++ [(s.now, pkt)] }))) ∧
  (∀ (port : FabricPort) (pkt : Packet) s, forRegistrar s 8 port pkt = .ok () → 1 ≤ Mg.mtype pkt → Mg.mtype pkt ≤ 5 → 16 ≤ pkt.payload.length →
    exec (.mgmt port pkt) s = .next (s.modFab (fun f => { f with mgmtIn := f.mgmtIn ++ [(s.now, pkt)] }))) ∧
  (∀ (port : FabricPort) (pkt : Packet) s g, portUp s port = true → Pk.dst pkt.hdr = s.fab.deviceId → Pk.ptype pkt.hdr = 6 → collOk pkt = true →
    (List.range 4).find? (fun g => (findColl s g (Ce.key (Pk.volume pkt.hdr) (Ce.pId pkt))).isSome) = some g →
    exec (.coll port pkt) s = .next (collArrive s g pkt)) ∧
  (∀ (g : Fin 4) id s c, findColl s g id = some c → Ce.op c.desc = 1 → exec (.allreduce g id) s = .next (collRun s g id true collStages)) ∧
  (∀ (g : Fin 4) id s c, findColl s g id = some c → Ce.op c.desc = 2 → exec (.collReduce g id) s = .next (collRun s g id true collStages)) ∧
  (∀ (g : Fin 4) id s c, findColl s g id = some c → Ce.op c.desc = 3 → exec (.broadcast g id) s = .next (collRun s g id true collStages)) ∧
  (∀ (g : Fin 4) id s c, findColl s g id = some c → Ce.op c.desc = 4 → exec (.allgather g id) s = .next (collRun s g id true collStages)) ∧
  (∀ (g : Fin 4) id s c, findColl s g id = some c → Ce.op c.desc = 5 → exec (.reduceScatter g id) s = .next (collRun s g id true collStages)) ∧
  (∀ (g : Fin 4) id s c, findColl s g id = some c → Ce.op c.desc = 6 → exec (.barrier g id) s = .next (collRun s g id true collStages)) ∧
  (∀ (g : Fin 4) id s c, findColl s g id = some c → Ce.op c.desc = 7 → exec (.expMax g id) s = .next (collRun s g id true collStages)) ∧
  (∀ (g : Fin 4) id s c, findColl s g id = some c →
    exec (.collStartAt g id) s = .next (collBegin (reach s (Ce.startAt c.desc)) g id)) ∧
  (∀ (g : Fin 4) (pkt : Packet) s c, Pk.dst pkt.hdr = s.fab.deviceId → collOk pkt = true → Ce.pStep pkt = 4 →
    findColl s g (Ce.key (Pk.volume pkt.hdr) (Ce.pId pkt)) = some c →
    exec (.collDone g pkt) s = .next (collPacket s g (Ce.key (Pk.volume pkt.hdr) (Ce.pId pkt)) c pkt)) ∧
  (∀ (g : Fin 4) (pkt : Packet) s c, Pk.dst pkt.hdr = s.fab.deviceId → collOk pkt = true → Ce.pStep pkt = 5 →
    findColl s g (Ce.key (Pk.volume pkt.hdr) (Ce.pId pkt)) = some c →
    exec (.collComplete g pkt) s = .next (collPacket s g (Ce.key (Pk.volume pkt.hdr) (Ce.pId pkt)) c pkt)) ∧
  (∀ (g : Fin 4) id s c, findColl s g id = some c →
    exec (.collDeadline g id) s = .next (failCollAll (reach s (Ce.deadline c.desc + 1)) g id Status.timeout.code))

/-- Time (12 R336 to R342, 19 R534): pulses on SYNC_IN, their loss, and the pulses of SYNC_OUT.
The model's choices in it: assumptions 4, 71. -/
def Obligations.TimeSourcesComplete : Prop :=
  (∀ (stamp : DWord) s, s.pwr.dsArmed = false → exec (.syncIn stamp) s = .next (syncPulse s stamp.toNat)) ∧
  (∀ (stamp : DWord) s, s.pwr.dsArmed = true → (syncPulse s stamp.toNat).pwr.dsArmed = false →
    exec (.syncIn stamp) s = .next (answerDsSet (syncPulse s stamp.toNat) (stepAllowed s))) ∧
  (∀ s t, s.pwr.pulseAt = some t → s.pwr.source = 1 →
    let u := reach s (t + 2500 * ms)
    exec .syncInLoss s = .next (sourceLost { u with pwr := { u.pwr with pulseAt := none, farRun := [] } })) ∧
  (∀ s u, s.pwr.dsState ≠ 0 → s.pwr.syncOut = some u → s.now ≤ u →
    ∃ t, exec .syncOutPulse s = .next t ∧ t.now = u + 1000000000 ∧ t.pwr.syncOut = some (u + 1000000000) ∧ t.mem = s.mem) ∧
  (∀ s, s.pwr.dsState = 0 → ∃ t, exec .syncOutPulse s = .next t ∧ t.pwr = s.pwr ∧ s.now ≤ t.now ∧ t.mem = s.mem)

/-- A power epoch's instants and messages (12 R343 to R353, R363).
The model's choices in it: assumptions 4, 65, 66, 68, 69, 70. -/
def Obligations.PowerEpochComplete : Prop :=
  (∀ s, ∃ t, exec .powerEpochBoundary s = .next t ∧ t.work.ledgerSaved = t.work.jobs.map (fun (j : Nat × Job) => (j.1, j.2.counts)) ∧
    t.work.ledgerCtxs = t.work.ctxs.map (fun (c : Nat × Ctx) => (c.1, c.2.counts)) ∧ t.work.ledgerPart = t.work.partCounts ∧ t.work.ledgerIdle = t.work.idleNj) ∧
  (∀ s k, nextEpoch s s.pwr.voteDone = k → s.vols.vols = [] →
    exec .voteInstant s = .next (stage4 (noteAlerts ((reach s (k * epochNs + 262144)).modPwr (fun p => { p with voteDone := some k }))))) ∧
  (∀ (handle : Word) s m w, (Tbl.find s.vols.vols handle.toNat).bind (·.cur) = some m → m.coord = s.fab.deviceId → memberOf m s.fab.deviceId = true →
    m.members.filter (fun e => e.device != s.fab.deviceId) = [] → treeChildren (voteTree m) s.fab.deviceId = [] →
    (s.pwr.vol handle.toNat).decided = 0 → (s.pwr.vol handle.toNat).own = some w → w.epoch = s.now / epochNs + 1 →
    exec (.voteDeadline handle) s = .next (modPwrVol (reach s (s.now / epochNs * epochNs + 786432)) handle.toNat (fun v =>
      { v with decided := s.now / epochNs + 1, decide_ := some (s.now / epochNs + 1, w.code) }))) ∧
  (∀ s, s.vols.vols = [] → exec .voltageOffset s =
    .next ((reach s (nextEpoch s s.pwr.voltDone * epochNs + 948576)).modPwr (fun p => { p with voltDone := some (nextEpoch s s.pwr.voltDone) }))) ∧
  (∀ s stamp p u m, takeMgmt s (voteMessage 0) = some (stamp, p, u) →
    let k := epochOf u (Mg.f p 0x14 0 32)
    let h := Mg.f p 0x10 0 32
    let w : PwrVote := { epoch := k, code := Mg.f p 0x18 8 7, reason := Mg.f p 0x18 16 3, device := Mg.f p 0x1C 0 14 }
    (Tbl.find u.vols.vols h).bind (·.cur) = some m → (treeChildren (voteTree m) u.fab.deviceId).contains (Pk.src p.hdr) = true → k ≠ 0 →
    stamp ≤ (k - 1) * epochNs + 786432 →
    exec .powerVote s = .next (passVote (modPwrVol u h (fun v => { v with
      held := Tbl.put v.held (Pk.src p.hdr) w, last := Tbl.put v.last (Pk.src p.hdr) w.code })) h k)) ∧
  (∀ s stamp p u m, takeMgmt s (voteMessage 1) = some (stamp, p, u) →
    let k := epochOf u (Mg.f p 0x14 0 32)
    let h := Mg.f p 0x10 0 32
    (Tbl.find u.vols.vols h).bind (·.cur) = some m → Pk.src p.hdr = m.coord → k ≠ 0 → stamp ≤ (k - 1) * epochNs + 948576 →
    exec .decide s = .next (modPwrVol u h (fun v => { v with decide_ := some (k, Mg.f p 0x18 8 7) }))) ∧
  (∀ s, let u := accrueBoost (reach s ((s.pwr.boostMark / 900000000000 + 1) * 900000000000))
    exec .boostBucket s = .next (accrueBoost (u.modPwr (fun p => { p with boostPast := (p.boostNow :: p.boostPast).take 95, boostNow := 0 }))))

/-- The sensors of power and heat (12 R348, R356 to R361, 18 R513).
The model's choices in it: assumptions 4, 66, 67, 73. -/
def Obligations.PowerSensorsComplete : Prop :=
  (∀ mw s v, settleClips ((reach s (alignDown s.now us + us)).modPwr (fun p =>
      { p with samples := (mw :: p.samples).take window60, pkgNj := p.pkgNj + mw })) mw = v →
    v.pwr.clip4 = false → v.pwr.clip2 = false → v.pwr.capped = false → exec (.powerSample mw) s = .next (noteAlerts v)) ∧
  (∀ (bay : BayNo) s, s.isolated = false → exec (.droopDetect bay) s = .next (pwrEvent (modBayPwr (s.modPwr (fun p =>
    { p with droops := satInc p.droops })) bay (fun x => { x with droop := 4 })) 23)) ∧
  (∀ (bay : BayNo) s, (s.pwr.bay bay).droop ≠ 0 → exec (.droopRelease bay) s = .next (modBayPwr s bay (fun x => { x with droop := x.droop - 1 }))) ∧
  (∀ (bay : BayNo) s, (s.pwr.bay bay).clip ≠ 0 → s.pwr.clip4 = false → s.pwr.clip2 = false → s.pwr.capped = false →
    exec (.stretchDecay bay) s = .next (modBayPwr s bay (fun x => { x with clip := x.clip - 1 }))) ∧
  (∀ (bay : BayNo) (temp : BitVec 8) s, s.isolated = false → temp.toNat < 108 →
    ∃ t, exec (.thermalSensorSample bay temp) s = .next t ∧ (t.pwr.bay bay).temp = temp.toNat ∧
      (t.pwr.bay bay).thermal = thermalLevel (s.pwr.bay bay).thermal temp.toNat ∧ t.seq = s.seq ∧ t.mem = s.mem) ∧
  (∀ s, exec .thermalTrip s = .next (noteAlerts (thermalTrip s))) ∧
  (∀ s, (thermalTrip s).seq.clocksStopped = true ∧ (thermalTrip s).seq.resetFail = true ∧ (thermalTrip s).mem = s.mem)

/-- Commands that a queue releases (13 R376 to R384): each enters placement, is submitted, or completes.
The model's choices in it: assumptions 13, 64, 75. -/
def Obligations.CommandsComplete : Prop :=
  (∀ cmd s c, startable s cmd 1 = some c → c.tileCount = 0 → exec (.dispatch cmd) s = .next (completeCmd s cmd { r1 := 2 ^ 64 - 1 })) ∧
  (∀ cmd s c, startable s cmd 1 = some c → c.tileCount ≠ 0 → (availableBays s c.volume).length ≠ 0 → c.gang = false →
    exec (.dispatch cmd) s = .next (markSlices (modCmd s cmd (fun c => { c with phase := .running })) c.volume)) ∧
  (∀ cmd s c u x sh, startable s cmd 2 = some c → makeResident s c.ctx = (u, true) → Tbl.find u.work.ctxs c.ctx = some x → ShCmd.phys c.tail = true →
    ShCmd.empty c.tail = false → ShCmd.opcode c.tail ≠ 2 → shelveFenced u c (stackOfPa (ShCmd.src c.tail) % 8) = false → shelveHeld u (ctxPart c.ctx) (stackOfPa (ShCmd.src c.tail) % 8) = false →
    shelveTarget u c (stackOfPa (ShCmd.src c.tail) % 8) = some sh → exec (.shelve cmd) s = .next (submitShelve u cmd c sh (x.slot.getD 0))) ∧
  (∀ (k : StackNo) s id c sh, s.work.cmds = [(id, c)] → c.phase = .held → c.heldStack = k.val → shelveTarget s c k = some sh →
    ((Tbl.find s.work.ctxs c.ctx).bind (·.slot)) = some 0 → (List.range 8).filterMap (fun p => firstReleased (s.work.cmds.filter (fun d => ctxPart d.2.ctx == p))) = [(id, c)] →
    exec (.shelveSubmit k) s = .next (submitShelve s id c sh 0)) ∧
  (∀ cmd s c, startable s cmd 3 = some c → volMembers s (Ce.volume c.tail) = none →
    exec (.collective cmd) s = .next (completeCmd s cmd { status := Status.permission.code })) ∧
  (∀ cmd s c m u p, startable s cmd 3 = some c → volMembers s (Ce.volume c.tail) = some m → Ce.ok c.tail (m.members.map (·.device)) = true →
    lowestPort (volumePorts s m) = some p → makeResident s c.ctx = (u, true) → (u.fab.engine (p / 6)).open_ = [] →
    exec (.collective cmd) s = .next (openColl (modCmd u cmd (fun c => { c with phase := .running })) (p / 6)
      { desc := collWord c m.epoch (((Tbl.find u.work.ctxs c.ctx).bind (·.slot)).getD 0), cmd := cmd, key := c.ctx,
        members := m.members.map (·.device), ports := volumePorts s m })) ∧
  (∀ cmd s c, startable s cmd 4 = some c → exec (.hint cmd) s = .next (completeCmd (s.modPwr (fun p => { p with hints := p.hints ++
    [{ volume := c.volume, cls := fld c.word 0x34 0 3, epochs := fld c.word 0x34 16 16, start := fld c.word 0x38 0 64, cmd := cmd, ctx := c.ctx }] })) cmd {})) ∧
  (∀ cmd s c, startable s cmd 5 = some c → exec (.sync cmd) s = .next (completeCmd s cmd {})) ∧
  (∀ cmd s c, Tbl.find s.work.cmds cmd = some c → c.phase = .accepted → c.barrier = false → c.opcode ≠ 1 →
    (s.work.cmds.filter (fun d => d.1 < cmd && d.2.queue == c.queue)) = [] → ctxRunnable s c.ctx = true →
    (s.part (ctxPart c.ctx)).ledger.held.length < 256 → cmdDying s c = false → fenceLets s c = some false →
    exec (.commandRelease cmd) s = .next ((modCmd s cmd (fun c => { c with phase := .released, relOrder := s.work.nextRel })).modWork (fun w =>
      { w with nextRel := w.nextRel + 1 })))

/-- The reading of queues, placement and pre-emption (13 R368, 14 R400 to R416, 18 R504, R505).
The model's choices in it: assumptions 17, 50, 58, 59, 63. -/
def Obligations.PlacementComplete : Prop :=
  (∀ (queue : BitVec 16) cmd s x, Tbl.find s.work.queues queue.toNat = some x → s.seq.fwState = 1 → x.resident.isSome = true → x.unread = true →
    queueDying s x = false → (s.part (s.partOfQueue queue.toNat)).resetting = false → (s.part (s.partOfQueue queue.toNat)).quiesced = false →
    s.work.cmds = [] → 0 < 1024 / s.nparts → (x.rd + 65536 - x.returned) % 65536 < x.entries →
    exec (.queueRead queue cmd) s = .next (acceptCmd s queue.toNat x cmd)) ∧
  (∀ (queue : BitVec 16) s x, Tbl.find s.work.queues queue.toNat = some x → s.seq.fwState = 1 → x.resident = none → x.unread = true → queueDying s x = false →
    (s.work.queues.filter (fun e => s.partOfQueue e.1 == s.partOfQueue queue.toNat && e.2.resident.isSome)).length < queueSlots s →
    exec (.queueSwapIn queue) s = .next (modQueue s queue.toNat (fun x => { x with resident := some s.now }))) ∧
  (∀ (handle : Word) (bay : BayNo) s, (availableBays s handle.toNat).contains bay.val = true → bayIdle s bay = true → volStopped s handle.toNat = false →
    exec (.tilePlace handle bay) s = .next (placeNext s handle.toNat)) ∧
  (∀ (handle : Word) (ctx : Fin 32768) s t, Tbl.find (markSlices s handle.toNat).work.heldSince (sliceKey handle.toNat ctx) = some t →
    let m := markSlices s handle.toNat
    let u := reach m (t + (m.part (ctxPart ctx)).timeslice * ms - Tbl.getD m.work.heldFor (sliceKey handle.toNat ctx) 0 + 1)
    exec (.timesliceExpire handle ctx) s = .next (((volTiles u handle.toNat).filter (fun id => match tileCmd u id with
      | some (_, c) => c.ctx == ctx.val | none => false)).foldl sendPreempt
        (u.modWork (fun w => { w with lastServed := Tbl.put w.lastServed handle.toNat ctx.val })))) ∧
  (∀ (bay : BayNo) s t d, Tbl.find s.work.tiles (s.bay bay).tile = some t → t.deadline = some d → t.heldSince = none → t.status = none →
    (s.bay bay).resetAt = none → exec (.tileWatchdog bay) s = .next (hangBay (reach s (d + 1)) bay)) ∧
  (∀ (bay : BayNo) s t c p, tileCmd s (s.bay bay).tile = some (t, c) → t.preemptAt = some p → t.killed = false → t.step < 7 → t.status = none →
    exec (.preemptGraceExpire bay) s = .next (sendTile (modTile (reach s (p + (s.part (ctxPart c.ctx)).grace * us)) (s.bay bay).tile
      (fun t => { t with killed := true })) (s.bay bay).tile 2)) ∧
  (∀ (bay : BayNo) s d, (s.work.tiles.filter (fun t => t.2.bay == bay.val)).findSome? (fun t => t.2.answerBy) = some d →
    exec (.runtimeResponseTimeout bay) s = .next (hangBay (reach s (d + 1)) bay)) ∧
  (∀ (handle : Word) s p, Tbl.find s.vols.preempts handle.toNat = some p → p.begun = false →
    exec (.preemptAt handle) s = .next (beginPreempt (reach s p.at_) handle.toNat)) ∧
  (∀ (handle : Word) s p, Tbl.find s.vols.preempts handle.toNat = some p → p.resume ≠ 0 → p.cmd = none →
    exec (.resumeAt handle) s = .next (modVols (reach s p.resume) (fun v => { v with preempts := Tbl.del v.preempts handle.toNat }))) ∧
  (∀ s t p u, takeMgmt s (fun p => Mg.mtype p == 2) = some (t, p, u) → Tbl.has u.vols.vols (Mg.f p 0x10 0 32) = true →
    exec .volPreemptRelay s = .next (takePreempt u (Mg.f p 0x10 0 32) (Mg.f p 0x18 0 64) (Mg.f p 0x20 0 64) (Pk.src p.hdr) none)) ∧
  (∀ s t p u, takeMgmt s (fun p => Mg.mtype p == 3) = some (t, p, u) →
    exec .volPreemptReport s = .next (sendReport u (Mg.f p 0x10 0 32) (Mg.f p 0x14 0 14)))

/-- Messages between managers, the doorbells, and the heartbeat (12 R344, 13 R376, 15 R423 to R430, R437 to R439).
The model's choices in it: assumptions 5, 17, 84. -/
def Obligations.DoorbellsComplete : Prop :=
  (∀ s t p u, takeMgmt s (fun p => Mg.mtype p == 4) = some (t, p, u) →
    let n := min (Mg.f p 0x10 0 7) 104
    exec .fmMessage s = .next (sendMgmt (postEvent u 0 10 0 0 (put (Pk.src p.hdr) 128 14 + put n 160 7 +
      put (natLE ((p.payload.drop 0x18).take n)) 192 832)) (Pk.src p.hdr) 5 (bytesLE 8 (Mg.seq p))).1) ∧
  (∀ s t p u f i c, takeMgmt s (fun p => Mg.mtype p == 5) = some (t, p, u) → Tbl.find u.fab.fmSends (Mg.f p 0x10 0 32) = some (f, i) →
    (u.fn f).active.find? (fun a => a.index == i) = some c → t ≤ c.readAt + fmWait →
    exec .fmAck s = .next (mbFinish (u.modFab (fun x => { x with fmSends := Tbl.del x.fmSends (Mg.f p 0x10 0 32) })) f i 0 0)) ∧
  (∀ (slot : MbSlot) s c, mbFind s slot = some c → c.opcode = 0x0F → c.started.isSome = true → c.answer = none → s.fab.mgmtIn = [] →
    exec (.fmSendTimeout slot) s = .next (mbFinish ((reach s (c.readAt + fmWait + 64)).modFab (fun x =>
      { x with fmSends := Tbl.del x.fmSends c.arg })) slot.fn c.index Status.timeout.code 0)) ∧
  (∀ (fn : FnNo) (v : Word) s, s.fnExists fn = true → (v.toNat % 65536 + 65536 - (s.fn fn).mbResp) % 65536 ≤ mbSlots (s.fn fn) →
    ((s.fn fn).mbWr + 65536 - (s.fn fn).mbResp) % 65536 ≤ (v.toNat % 65536 + 65536 - (s.fn fn).mbResp) % 65536 →
    exec (.mbDb fn v) s = .next (s.setFn fn { s.fn fn with mbWr := v.toNat % 65536, mbStamp := s.now })) ∧
  (∀ (fn : FnNo) data s, s.fnExists fn = true → s.seq.fwState = 1 → bitsAt (s.fn fn).mbCtrl.toNat 0 1 = 1 → (s.fn fn).mbRd ≠ (s.fn fn).mbWr →
    (s.fn fn).active = [] → mbReserved data = false →
    exec (.mailboxRead fn data) s = .next (s.setFn fn { s.fn fn with
      active := [{ index := (s.fn fn).mbRd, slot := data, stamp := (s.fn fn).mbStamp, readAt := s.now }], mbRd := ((s.fn fn).mbRd + 1) % 65536 })) ∧
  (∀ (fn : FnNo) (queue : BitVec 16) (v : Word) s x, fn.val ≠ 0 → s.fnExists fn = true → Tbl.find s.work.queues queue.toNat = some x →
    s.partOfQueue queue.toNat = fn.val - 1 → x.destroyAt = none → ((Tbl.find s.work.ctxs x.ctx).map (·.state)) ≠ some .destroying →
    (v.toNat % 65536 + 65536 - x.rd) % 65536 ≤ x.entries → (x.wr + 65536 - x.rd) % 65536 ≤ (v.toNat % 65536 + 65536 - x.rd) % 65536 →
    exec (.cmdDb fn queue v) s = .next (modQueue s queue.toNat (fun x => { x with wr := v.toNat % 65536, dbStamp := s.now }))) ∧
  (∀ (fn : FnNo) (queue : BitVec 16) (v : Word) s x, fn.val ≠ 0 → s.fnExists fn = true → Tbl.find s.work.queues queue.toNat = some x →
    s.partOfQueue queue.toNat = fn.val - 1 → x.destroyAt = none → ((Tbl.find s.work.ctxs x.ctx).map (·.state)) ≠ some .destroying →
    (v.toNat % 65536 + 65536 - x.returned) % 65536 ≤ (x.written % 65536 + 65536 - x.returned) % 65536 →
    exec (.cplDb fn queue v) s = .next (modQueue s queue.toNat (fun x => { x with returned := v.toNat % 65536 }))) ∧
  (∀ (fn : FnNo) (v : Word) s, s.fnExists fn = true →
    exec (.irqMaskWrite fn true v) s = .next (setIrqMask s fn (BitVec.ofNat 64 (withHeld s (.fn fn) 0x34 v)))) ∧
  (∀ (fn : FnNo) (v : Word) s, s.fnExists fn = true → exec (.irqMaskWrite fn false v) s = .next (holdLo s (.fn fn) 0x34 v)) ∧
  (∀ s, s.seq.fwState = 1 →
    let u := reach s ((s.fn 0).beatAt + ms)
    exec .heartbeat s = .next ((List.range 9).foldl (fun s f => if s.fnExists f then
      s.modFn f (fun x => { x with heartbeat := x.heartbeat + 1, beatAt := s.now }) else s) u))

/-- CONFIG_SET, and the commands of function 0 and of a partition that read and quiesce (06 R170, R176, 10 R301, 11 R332, 12 R367, 13 R398, 15 R436).
The model's choices in it: assumptions 79, 80, 81. -/
def Obligations.ConfigCommandsComplete : Prop :=
  (∀ (slot : MbSlot) s c, MbTakes s slot 1 c { fields := [(0x10, 0, 8), (0x18, 0, 64)], range := isBit (c.f 0x18 0 64), permitted := isFn0 slot } →
    c.f 0x10 0 8 = 1 → exec (.rsvdPolicy slot) s =
      .next (mbAnswer { s with regs := { s.regs with policyP := c.f 0x18 0 64 == 1 } } slot.fn c 0 0 [])) ∧
  (∀ (slot : MbSlot) s c, MbTakes s slot 1 c { fields := [(0x10, 0, 8), (0x18, 0, 64)], range := isBit (c.f 0x18 0 64), permitted := isFn0 slot } →
    c.f 0x10 0 8 = 2 → allIdle s = true → exec (.isolation slot) s =
      .next (mbAnswer (s.modPwr (fun p => { p with isoNext := some (c.f 0x18 0 64 == 1) })) slot.fn c 0 0 [])) ∧
  (∀ (slot : MbSlot) s c, MbTakes s slot 1 c { fields := [(0x10, 0, 8), (0x18, 0, 64)], range := isBit (c.f 0x18 0 64), permitted := isFn0 slot } →
    c.f 0x10 0 8 = 2 → allIdle s = false → exec (.isolation slot) s = .next (mbAnswer s slot.fn c Status.aborted.code 0x10 [])) ∧
  (∀ (slot : MbSlot) s c, MbTakes s slot 1 c { fields := [(0x10, 0, 8), (0x18, 0, 64)], range := isBit (c.f 0x18 0 64), permitted := isFn0 slot } →
    c.f 0x10 0 8 = 3 → exec (.boostEn slot) s =
      .next (mbAnswer (s.modPwr (fun p => { p with ctrl := (p.ctrl &&& ~~~1#32) ||| BitVec.ofNat 32 (c.f 0x18 0 64) })) slot.fn c 0 0 [])) ∧
  (∀ (slot : MbSlot) s c, MbTakes s slot 1 c { fields := [(0x10, 0, 8), (0x18, 0, 64)], range := isBit (c.f 0x18 0 64), permitted := isFn0 slot } →
    c.f 0x10 0 8 = 4 → exec (.hintsEn slot) s =
      .next (mbAnswer (s.modPwr (fun p => { p with ctrl := (p.ctrl &&& ~~~4#32) ||| BitVec.ofNat 32 (4 * c.f 0x18 0 64) })) slot.fn c 0 0 [])) ∧
  (∀ (slot : MbSlot) s c, MbTakes s slot 1 c { fields := [(0x10, 0, 8), (0x18, 0, 64)], range := decide (c.f 0x18 0 64 < 16384), permitted := isFn0 slot } →
    c.f 0x10 0 8 = 5 → (List.range 24).any (portUp s) = false → exec (.deviceId slot) s =
      .next (mbAnswer (s.modFab (fun f => { f with deviceId := c.f 0x18 0 64 })) slot.fn c 0 0 [])) ∧
  (∀ (slot : MbSlot) s c, MbTakes s slot 1 c
      { fields := [(0x10, 0, 8), (0x18, 0, 64)], range := decide (1 ≤ c.f 0x18 0 64) && decide (c.f 0x18 0 64 ≤ 255), permitted := isFn0 slot } →
    c.f 0x10 0 8 = 6 → exec (.scrubPeriod slot) s = .next (mbAnswer ((List.range 8).foldl (fun s k => s.modStack k (fun x =>
      { x with scrubCtrl := (x.scrubCtrl &&& ~~~0xFF#32) ||| BitVec.ofNat 32 (c.f 0x18 0 64) })) s) slot.fn c 0 0 [])) ∧
  (∀ (slot : MbSlot) s c, MbTakes s slot 2 c { fields := [(0x10, 0, 64)], range := c.f 0x10 0 64 % 64 == 0 } → slot.fn.val = 0 →
    exec (.colophonRead slot) s = .next (mbAnswer (cmWrite s 0 (c.f 0x10 0 64) (colophonBytes s none)) slot.fn c 0 0 [s.colophon.generation]))

/-- Partition modes, releases, quiescing and images (10 R273, R275, R299, R301, 17 R488).
The model's choices in it: assumptions 80, 87, 88, 89, 90, 91. -/
def Obligations.PartitionCommandsComplete : Prop :=
  (∀ (slot : MbSlot) s c, MbTakes s slot 3 c
      { fields := [(0x10, 0, 4), (0x18, 0, 1), (0x20, 0, 192)], range := [1, 2, 4, 8].contains (c.f 0x10 0 4), permitted := isFn0 slot } →
    allIdle s = true → s.vols.releases = [] → c.f 0x18 0 1 = 0 → maintFree s (fun _ => true) = true →
    let u := (List.range 8).foldl (fun s k => startMaint s k 4 0 0) s
    exec (.partMode slot) s = .next (mbGoes u slot c u.now 1)) ∧
  (∀ (slot : MbSlot) s c since, mbFind s slot = some c → c.opcode = 3 → c.answer = none → s.seq.fwState = 1 → c.started = some since → c.arg = 1 →
    maintFree s (fun m => m.1 == 4) = true → [1, 2, 4, 8].contains (c.f 0x10 0 4) = true → c.f 0x18 0 1 = 0 →
    exec (.partMode slot) s = .next (mbAnswer (applyMode s (c.f 0x10 0 4) []) slot.fn c 0 0 [])) ∧
  (∀ (part : PartNo) s r, Tbl.find s.vols.releases part = some r → r.squash = false → r.stage = 0 →
    exec (.drainLimit part) s = .next (settlePartResets (advanceRelease (squashPart (reach s r.limit) part) part))) ∧
  (∀ (part : PartNo) s r, Tbl.find (advanceRelease s part).vols.releases part = some r → r.stage = 2 →
    exec (.partitionScrub part) s = .next (finishRelease (advanceRelease s part) part r)) ∧
  (∀ (slot : MbSlot) s c, MbTakes s slot 5 c { fields := [(0x10, 0, 1)], permitted := isPartFn slot } → c.f 0x10 0 1 = 0 →
    partTiles s (partOfFn slot) = [] →
    let u := s.modPart (partOfFn slot) (fun x => { x with quiesced := true })
    (u.part (partOfFn slot)).quiesced = true → quiet u (partOfFn slot) = true → exec (.partQuiesce slot) s = .next (mbAnswer u slot.fn c 0 0 [])) ∧
  (∀ (slot : MbSlot) s c, MbTakes s slot 5 c { fields := [(0x10, 0, 1)], permitted := isPartFn slot } → c.f 0x10 0 1 = 1 →
    exec (.partQuiesceCancel slot) s = .next (mbAnswer (markAllSlices (s.modPart (partOfFn slot) (fun x => { x with quiesced := false }))) slot.fn c 0 0 [])) ∧
  (∀ (slot : MbSlot) s c, MbTakes s slot 6 c { fields := [(0x10, 0, 64)], permitted := isPartFn slot } → holdsSealed s (partOfFn slot) = false →
    let all := bytesLE 8 (Config.imageBytes (imageOfPart s (partOfFn slot))).length ++ Config.imageBytes (imageOfPart s (partOfFn slot))
    exec (.partExport slot) s = .next (match placeObj s (partOfFn slot) (alignUp all.length pageBytes) false 0xFF with
      | none => mbAnswer s slot.fn c Status.resourceExhausted.code 0 []
      | some pa => match engineWrite s { master := 42, part := partOfFn slot, bypass := true } 0 pa all with
        | .ok t _ => mbAnswer (cmWrite t slot.fn (c.f 0x10 0 64) (sha3 all)) slot.fn c 0 0 [pa, all.length]
        | .wait t => mbGoes t slot c t.now 0
        | .bad t _ => mbAnswer t slot.fn c Status.permission.code 0 [])) ∧
  (∀ (slot : MbSlot) s c t n a u all b, MbTakes s slot 7 c { fields := [(0x10, 0, 512), (0x50, 0, 64)], range := c.f 0x50 0 64 % 8 == 0, permitted := isPartFn slot } →
    engineRead s { master := 42, part := partOfFn slot, bypass := true } 0 (c.f 0x50 0 64) 8 = .ok t (n, a) →
    engineRead t { master := 42, part := partOfFn slot, bypass := true } 0 (c.f 0x50 0 64) (8 + natLE n) = .ok u (all, b) →
    (sha3Nat all).toNat = c.f 0x10 0 512 →
    exec (.partImport slot) s = .next (match Config.imageOf (all.drop 8) with
      | some m => if m.part = partOfFn slot then mbAnswer (installImage u (partOfFn slot) m) slot.fn c 0 0 []
        else mbAnswer u slot.fn c Status.aborted.code 0x11 []
      | none => mbAnswer u slot.fn c Status.aborted.code 0x11 []))

/-- The mailbox commands of power, scheduling, bandwidth and routes (06 R177, R178, 11 R319, 12 R342, R350, R361, 14 R402, R410).
The model's choices in it: assumptions 71, 79, 81, 82. -/
def Obligations.PowerCommandsComplete : Prop :=
  (∀ (slot : MbSlot) s c, MbTakes s slot 8 c { fields := [(0x10, 0, 64)], permitted := slot.fn.val == 0 } →
    exec (.dsSet slot) s = .next (mbGoes (s.modPwr (fun p => { p with dsSet := BitVec.ofNat 64 (c.f 0x10 0 64), dsArmed := true, dsCmd := some c.index })) slot c s.now 0)) ∧
  (∀ (slot : MbSlot) s c, MbTakes s slot 9 c
      { fields := [(0x10, 0, 1), (0x18, 0, 32), (0x20, 0, 11)], range := decide (400 ≤ c.f 0x20 0 11) && decide (c.f 0x20 0 11 ≤ 1000), permitted := slot.fn.val == 0 } → c.f 0x10 0 1 = 0 →
    exec (.pwrCap slot) s = .next (mbAnswer (setCap s (c.f 0x20 0 11)) slot.fn c 0 0 [])) ∧
  (∀ (slot : MbSlot) s c, MbTakes s slot 9 c
      { fields := [(0x10, 0, 1), (0x18, 0, 32), (0x20, 0, 11)], range := decide (c.f 0x20 0 11 ≤ 58), permitted := slot.fn.val != 0 && (tenantHolds s (slot.fn.val - 1) (c.f 0x18 0 32) || !Tbl.has s.vols.vols (c.f 0x18 0 32)), handles := ((Tbl.find s.vols.vols (c.f 0x18 0 32)).bind (·.cur)).isSome } → c.f 0x10 0 1 = 1 →
    exec (.freqTarget slot) s = .next (mbAnswer (modPwrVol s (c.f 0x18 0 32) (fun v => { v with target := c.f 0x20 0 11 })) slot.fn c 0 0 [])) ∧
  (∀ (slot : MbSlot) s c, MbTakes s slot 10 c
      { fields := [(0x10, 0, 10), (0x18, 0, 10)], range := decide (1 ≤ c.f 0x10 0 10) && decide (c.f 0x10 0 10 ≤ 1000) && decide (20 ≤ c.f 0x18 0 10) && decide (c.f 0x18 0 10 ≤ 1000), permitted := isPartFn slot } →
    exec (.schedSet slot) s = .next (mbAnswer (s.modPart (partOfFn slot) (fun x => { x with timeslice := c.f 0x10 0 10, grace := c.f 0x18 0 10 })) slot.fn c 0 0 [])) ∧
  (∀ (slot : MbSlot) s c, slot.fn.val = 0 → c.f 0x10 0 6 < 36 → c.f 0x10 8 1 = 0 →
    MbTakes s slot 11 c { fields := [(0x10, 0, 6), (0x10, 8, 1), (0x18, 0, 128)], range := true, permitted := true } →
    (∀ k < 8, capFloor (c.f 0x10 0 6) ≤ c.f (0x18 + 2 * k) 0 16 ∧ guarFits s k (c.f 0x10 0 6) (c.f (0x18 + 2 * k) 0 16) = true) →
    exec (.bwGuarantee slot) s = .next (mbAnswer ((List.range 8).foldl (fun s k => s.modStack k (fun x => { x with
      guarNext := Tbl.put x.guarNext (c.f 0x10 0 6) (c.f (0x18 + 2 * k) 0 16 + put (bit false) 16 1) })) s) slot.fn c 0 0 [])) ∧
  (∀ (slot : MbSlot) table s c, MbTakes s slot 12 c { fields := [(0x10, 0, 64)], permitted := isFn0 slot } → bankInGrace s = false →
    table.length = 65536 → ∃ t, exec (.routeLoad slot table) s = .next (mbAnswer t slot.fn c 0 0 ((List.range 4).map (fun i => fld (sha3Nat table) (8 * i) 0 64))) ∧
      t.fab.standby = some (sha3Nat table) ∧ t.fab.bank = s.fab.bank ∧ t.fns = s.fns ∧ t.mem = s.mem ∧
      t.fab.routes.filter (fun e => e.1 / 16384 == s.fab.bank) = s.fab.routes.filter (fun e => e.1 / 16384 == s.fab.bank))

/-- Ports, fuses and management messages by the mailbox (11 R304, R332, 15 R439, 17 R472), and the keys of 17 R477 to R482.
The model's choices in it: assumptions 84, 92, 93, 94, 96. -/
def Obligations.SecurityCommandsComplete : Prop :=
  (∀ (slot : MbSlot) s c, c.f 0x10 0 5 < 24 → c.f 0x18 8 3 ≤ 4 →
    MbTakes s slot 0x0D c { fields := [(0x10, 0, 5), (0x18, 0, 11), (0x18, 12, 2), (0x18, 16, 1)], permitted := isFn0 slot } →
    exec (.portConfig slot) s = .next (mbAnswer (writePortCtrl s (c.f 0x10 0 5) (c.f 0x18 0 32)) slot.fn c 0 0 [])) ∧
  (∀ (slot : MbSlot) s c, MbTakes s slot 0x0E c { fields := [], permitted := isFn0 slot } → (∀ b < 32, softRows (s.bay b) = 0) →
    s.sec.fusedRows ≤ Config.fuseRoom → s.sec.imageSecVersion ≤ s.sec.secVersion →
    exec (.maintFuse slot) s = .next (mbAnswer s slot.fn c 0 0 [0])) ∧
  (∀ (slot : MbSlot) s c, 1 ≤ c.f 0x18 0 7 → c.f 0x18 0 7 ≤ 104 →
    MbTakes s slot 0x0F c { fields := [(0x10, 0, 14), (0x18, 0, 7), (0x20, 0, 832)], permitted := isFn0 slot } →
    let m := sendMgmt s (c.f 0x10 0 14) 4 (bytesLE 8 (c.f 0x18 0 7) ++ bytesLE (c.f 0x18 0 7) (c.f 0x20 0 (8 * c.f 0x18 0 7)))
    let u := m.1.modFab (fun f => { f with fmSends := Tbl.put f.fmSends m.2 (slot.fn.val, c.index) })
    exec (.fmSend slot) s = .next (mbGoes u slot c u.now m.2)) ∧
  (∀ (slot : MbSlot) s c u n, MbTakes s slot 0x61 c { fields := [(0x10, 0, 1), (0x18, 0, 512), (0x58, 0, 64)], range := c.f 0x58 0 64 % 64 == 0 } →
    slot.fn.val = n + 1 → canSign s = true → c.f 0x10 0 1 = 0 → u = cmWrite s (n + 1) (c.f 0x58 0 64) (report s (reportBody s (some n) (bytesLE 64 (c.f 0x18 0 512)) none)) →
    exec (.attest slot) s = .next (mbAnswer u slot.fn c 0 0 [16320, 0])) ∧
  (∀ (slot : MbSlot) s c, MbTakes s slot 0x61 c { fields := [(0x10, 0, 1), (0x18, 0, 512), (0x58, 0, 64)], range := c.f 0x58 0 64 % 64 == 0 } →
    canSign s = false → exec (.attest slot) s = .next (mbAnswer s slot.fn c Status.denied.code 0 [])) ∧
  (∀ (slot : MbSlot) blob s c i k, keyRange s (partOfFn slot) (c.f 0x18 0 12) = true → findKem s (partOfFn slot) (c.f 0x10 0 64) = some (i, k) →
    MbTakes s slot 0x62 c { fields := [(0x10, 0, 64), (0x18, 0, 12), (0x20, 0, 64)], permitted := isPartFn slot } →
    Tbl.has s.sec.keys (c.f 0x18 0 12) = false → let u := modSec s (fun x => { x with kems := Tbl.del x.kems i })
    exec (.keyImport slot blob) s = .next (match openBlob k blob with
      | none => mbAnswer (secEvent u 19 2 (2 ^ partOfFn slot)) slot.fn c Status.denied.code 0 []
      | some pt => if natLE (pt.drop 40) ≠ 0 then mbAnswer (secEvent u 19 2 (2 ^ partOfFn slot)) slot.fn c Status.aborted.code 0x11 []
        else mbAnswer (placeKey u (partOfFn slot) (c.f 0x18 0 12) pt) slot.fn c 0 0 [])) ∧
  (∀ (slot : MbSlot) s c, keyRange s (partOfFn slot) (c.f 0x10 0 12) = true → MbTakes s slot 0x63 c { fields := [(0x10, 0, 12)], permitted := isPartFn slot } →
    exec (.keyDestroy slot) s = .next (mbAnswer (modSec s (fun x => { x with keys := Tbl.del x.keys (c.f 0x10 0 12) })) slot.fn c 0 0 [])) ∧
  (∀ (slot : MbSlot) s c, c.f 0x10 0 5 < 24 → MbTakes s slot 0x64 c { fields := [(0x10, 0, 5)], permitted := isFn0 slot } → (linkOf s (c.f 0x10 0 5)).state = 4 →
    exec (.peerRead slot) s = .next (mbAnswer s slot.fn c 0 0
      ((List.range 4).map (fun i => fld (Tbl.getD s.sec.peers (leaderOf s (c.f 0x10 0 5)) 0#512) (8 * i) 0 64)))) ∧
  (∀ (slot : MbSlot) policy s c, MbTakes s slot 0x60 c { fields := [(0x10, 0, 64)], permitted := isPartFn slot } → s.sec.keys = [] → s.work.objs = [] →
    policyOk policy = true → let n := natLE (policy.take 1)
    let blk := policy.take (8 + 64 * n)
    exec (.sealPolicy slot policy) s = .next (mbAnswer (modSec s (fun x => { x with policies := Tbl.put x.policies (partOfFn slot) { digests := (chunks 64 (blk.drop 8)).map (fun b => BitVec.ofNat 512 (natLE b)), allowPeer := bitsAt (natLE (policy.take 8)) 8 1 == 1, digest := sha3Nat blk } }))
      slot.fn c 0 0 ((List.range 4).map (fun i => fld (sha3Nat blk) (8 * i) 0 64)))) ∧
  (∀ (slot : MbSlot) s c, MbTakes s slot 0x65 c { fields := lcFields, permitted := isFn0 slot } → c.f 0x10 0 1 = 0 → s.sec.lc = 2 →
    let x := BitVec.ofNat 256 (Config.freeWide s.fresh.1).toNat
    exec (.lcReturnChallenge slot) s = .next (mbAnswer (modSec s.fresh.2 (fun c => { c with challenge := some x })) slot.fn c 0 0
      ((List.range 4).map (fun i => fld x (8 * i) 0 64)))) ∧
  (∀ (slot : MbSlot) token s c, MbTakes s slot 0x65 c { fields := lcFields, permitted := isFn0 slot } → c.f 0x10 0 1 = 1 →
    let u := mbAnswer (secEvent (modSec (wipeCarrel s) (fun x => { x with udsKill := true, lc := 3 })) 22 0 0) slot.fn c 0 0 []
    exec (.lcReturnToken slot token) s = .next (if tokenOk s token = true then (if u.sec.lc != s.sec.lc then warmReset u 3 true else u)
      else mbAnswer s slot.fn c Status.denied.code 0 []))

/-- The commands of contexts and queues (09 R261, 13 R371 to R376, R395, R396).
The model's choices in it: assumptions 17, 76, 78. -/
def Obligations.ContextCommandsComplete : Prop :=
  (∀ (slot : MbSlot) s c key, ctxFieldsOk s (partOfFn slot) c = true → MbTakes s slot 0x20 c
      { fields := [(0x10, 0, 64), (0x18, 0, 1), (0x18, 8, 6), (0x20, 0, 64), (0x28, 0, 64), (0x30, 0, 64), (0x38, 0, 64), (0x40, 0, 11)], permitted := isPartFn slot } →
    Tbl.freeKey s.work.ctxs (partOfFn slot * 4096) ((partOfFn slot + 1) * 4096) = some key →
    let x : Ctx := { gen := Tbl.getD s.work.ctxGens key 1, root := c.f 0x10 0 64, retry := c.f 0x18 0 1 == 1, maxBays := c.f 0x18 8 6, seed := BitVec.ofNat 64 (c.f 0x20 0 64), saveVa := c.f 0x28 0 64, saveBytes := c.f 0x30 0 64, faultRing := c.f 0x38 0 64, faultEntries := c.f 0x40 0 11, created := s.now }
    exec (.ctxCreate slot) s = .next (mbAnswer (setCtx s key x) slot.fn c 0 0 [ctxHandle key x])) ∧
  (∀ (slot : MbSlot) s c key x, MbTakes s slot 0x21 c { fields := [(0x10, 0, 32), (0x18, 0, 64)], permitted := isPartFn slot } →
    liveCtx s (partOfFn slot) (c.f 0x10 0 32) = some (key, x) →
    exec (.ctxSet slot) s = .next (mbAnswer (setCtx s key { x with seed := BitVec.ofNat 64 (c.f 0x18 0 64) }) slot.fn c 0 0 [])) ∧
  (∀ (slot : MbSlot) s c key x u, MbTakes s slot 0x22 c { fields := [(0x10, 0, 32)], permitted := isPartFn slot } →
    liveCtx s (partOfFn slot) (c.f 0x10 0 32) = some (key, x) → x.state = .faulted → checkSave (makeResident s key).1 key = (u, some 0) →
    exec (.ctxResume slot) s = .next (mbAnswer (markAllSlices (modCtx u key (fun c => { c with state := .runnable, saveOk := c.slot.isSome }))) slot.fn c 0 0 [])) ∧
  (∀ (slot : MbSlot) s c key x u, MbTakes s slot 0x23 c { fields := [(0x10, 0, 32)], permitted := isPartFn slot } →
    liveCtx s (partOfFn slot) (c.f 0x10 0 32) = some (key, x) → finishDestroy (beginDestroy s key slot.fn c.index) key = (u, true) →
    exec (.ctxDestroy slot) s = .next (mbAnswer u slot.fn c 0 0 [])) ∧
  (∀ (bay : BayNo) s id t c d, s.work.tiles.filter (fun t => t.2.bay == bay.val) = [(id, t)] → tileCmd s id = some (t, c) →
    (Tbl.find s.work.ctxs c.ctx).bind (·.destroyAt) = some d → exec (.destroyTileKill bay) s = .next (killTile (reach s (d + ms)) id)) ∧
  (∀ (slot : MbSlot) s c key x, MbTakes s slot 0x24 c { fields := [(0x10, 0, 32), (0x18, 0, 16)], permitted := isPartFn slot } →
    liveCtx s (partOfFn slot) (c.f 0x10 0 32) = some (key, x) → x.unacked.contains (c.f 0x18 0 16) = true →
    exec (.faultAck slot) s = .next (mbAnswer (setCtx s key { x with unacked := (x.unacked.dropWhile (· != c.f 0x18 0 16)).drop 1 }) slot.fn c 0 0 [])) ∧
  (∀ (slot : MbSlot) s c key x r t d, MbTakes s slot 0x25 c { fields := [(0x10, 0, 32), (0x18, 0, 16)], permitted := isPartFn slot } →
    liveCtx s (partOfFn slot) (c.f 0x10 0 32) = some (key, x) → Tbl.find s.work.faultRecs (key * 65536 + c.f 0x18 0 16) = some r →
    retryRecord (endHolds s r) key r = .done t 0 d [] → exec (.faultRetry slot) s = .next (mbAnswer t slot.fn c 0 d [])) ∧
  (∀ (slot : MbSlot) s c key x r, MbTakes s slot 0x26 c { fields := [(0x10, 0, 32), (0x18, 0, 16)], permitted := isPartFn slot } →
    liveCtx s (partOfFn slot) (c.f 0x10 0 32) = some (key, x) → Tbl.find s.work.faultRecs (key * 65536 + c.f 0x18 0 16) = some r →
    exec (.faultAbort slot) s = .next (mbAnswer (failHolders (endHolds s r) key r (statusCause r.status) r.seq) slot.fn c 0 0 [])) ∧
  (∀ (slot : MbSlot) s c key x q, MbTakes s slot 0x28 c { fields := [(0x10, 0, 32), (0x18, 0, 64), (0x20, 0, 64), (0x28, 0, 13), (0x30, 0, 8)], permitted := isPartFn slot } →
    isPow2 (c.f 0x28 0 13) = true → 16 ≤ c.f 0x28 0 13 → c.f 0x28 0 13 ≤ 4096 → c.f 0x30 0 8 = 0xFF → liveCtx s (partOfFn slot) (c.f 0x10 0 32) = some (key, x) →
    Tbl.freeKey s.work.queues (partOfFn slot * (65536 / s.nparts)) ((partOfFn slot + 1) * (65536 / s.nparts)) = some q →
    let x : Queue := { gen := Tbl.getD s.work.queueGens q 1, ctx := key, cmdRing := c.f 0x18 0 64, cplRing := c.f 0x20 0 64, entries := c.f 0x28 0 13, vector := c.f 0x30 0 8, idleSince := s.now }
    exec (.queueCreate slot) s = .next (mbAnswer (s.modWork (fun w => { w with queues := Tbl.put w.queues q x })) slot.fn c 0 0
      [queueHandle q x, 0x80000 + 8 * (q - partOfFn slot * (65536 / s.nparts))])) ∧
  (∀ (slot : MbSlot) s c q t d r, MbTakes s slot 0x29 c { fields := [(0x10, 0, 32)], permitted := isPartFn slot } →
    liveQueue s (partOfFn slot) (c.f 0x10 0 32) = some q →
    endQueue (stopCmds (modQueue s q (fun x => { x with destroyAt := some s.now })) (fun _ c => c.queue == q)) q = .done t 0 d r →
    exec (.queueDestroy slot) s = .next (mbAnswer t slot.fn c 0 d r))

/-- The commands of images and memory objects (05 R144, 13 R392 to R394).
The model's choices in it: assumptions 75, 77. -/
def Obligations.ObjectCommandsComplete : Prop :=
  (∀ (slot : MbSlot) s c k x ok o u h, MbTakes s slot 0x2A c { fields := [(0x10, 0, 32), (0x18, 0, 32), (0x20, 0, 64)], permitted := isPartFn slot } →
    c.f 0x20 0 64 < 2 ^ 57 → liveCtx s (partOfFn slot) (c.f 0x10 0 32) = some (k, x) → findObj s (partOfFn slot) (c.f 0x18 0 32) = some (ok, o) →
    o.holds.contains k = true → o.state = .live → checkImage s k x o (c.f 0x20 0 64) = .ok u (.ok h) → Tbl.find u.sec.policies (partOfFn slot) = none →
    exec (.imageRegister slot) s = .next (mbAnswer (modObj u ok (fun o => { o with image := some (k, c.f 0x20 0 64, h) })) slot.fn c 0 0 [])) ∧
  (∀ (slot : MbSlot) s c key o, MbTakes s slot 0x2B c { fields := [(0x10, 0, 32)], permitted := isPartFn slot } →
    findObj s (partOfFn slot) (c.f 0x10 0 32) = some (key, o) → o.image.isSome = true →
    exec (.imageUnregister slot) s = .next (mbAnswer (settleObj (modObj s key (fun o => { o with image := none })) key) slot.fn c 0 0 [])) ∧
  (∀ (slot : MbSlot) s c ck x base key u, MbTakes s slot 0x30 c { fields := [(0x10, 0, 32), (0x18, 0, 64), (0x20, 0, 1), (0x20, 8, 8)], permitted := isPartFn slot } →
    c.f 0x18 0 64 ≠ 0 → c.f 0x18 0 64 % pageBytes = 0 → c.f 0x20 8 8 = 0xFF → liveCtx s (partOfFn slot) (c.f 0x10 0 32) = some (ck, x) →
    placeObj s (partOfFn slot) (c.f 0x18 0 64) (c.f 0x20 0 1 == 1) 0xFF = some base →
    Tbl.freeKey s.work.objs (partOfFn slot * 65536) ((partOfFn slot + 1) * 65536) = some key →
    let o : MemObj := { gen := Tbl.getD s.work.objGens key 1, base := base, bytes := c.f 0x18 0 64, interleaved := c.f 0x20 0 1 == 1, holds := [ck] }
    zeroObj s o = (u, true) →
    exec (.memAlloc slot) s = .next (mbAnswer (u.modWork (fun w => { w with objs := Tbl.put w.objs key o })) slot.fn c 0 0 [objHandle key o, base])) ∧
  (∀ (slot : MbSlot) s c ck x ok o, MbTakes s slot 0x31 c { fields := [(0x10, 0, 32), (0x18, 0, 32)], permitted := isPartFn slot } →
    liveCtx s (partOfFn slot) (c.f 0x10 0 32) = some (ck, x) → findObj s (partOfFn slot) (c.f 0x18 0 32) = some (ok, o) → o.state = .live →
    exec (.memImport slot) s = .next (mbAnswer (modObj s ok (fun o => { o with holds := NSet.ins o.holds ck })) slot.fn c 0 0 [])) ∧
  (∀ (slot : MbSlot) s c ck x ok o, MbTakes s slot 0x32 c { fields := [(0x10, 0, 32), (0x18, 0, 32)], permitted := isPartFn slot } →
    liveCtx s (partOfFn slot) (c.f 0x10 0 32) = some (ck, x) → findObj s (partOfFn slot) (c.f 0x18 0 32) = some (ok, o) → o.holds.contains ck = true →
    exec (.memFree slot) s = .next (mbAnswer (settleObj (modObj s ok (fun o => { o with holds := NSet.rem o.holds ck })) ok) slot.fn c 0 0 [])) ∧
  (∀ (slot : MbSlot) s c key o, MbTakes s slot 0x33 c { fields := [(0x10, 0, 32)], permitted := isPartFn slot } →
    findObj s (partOfFn slot) (c.f 0x10 0 32) = some (key, o) → o.state = .quarantined →
    exec (.memReclaim slot) s = .next (mbAnswer (s.modWork (fun w => { w with objs := Tbl.del w.objs key, objGens := Tbl.put w.objGens key (nextGen o.gen 16) })) slot.fn c 0 0 []))

/-- The commands of fences (13 R388 to R391, 15 R438).
The model's choices in it: assumption 17. -/
def Obligations.FenceCommandsComplete : Prop :=
  (∀ (slot : MbSlot) s c, MbTakes s slot 0x38 c { fields := [(0x10, 0, 64), (0x18, 0, 5)], permitted := isPartFn slot } → 4 ≤ c.f 0x18 0 5 → c.f 0x18 0 5 ≤ 24 →
    anyFence s (partOfFn slot) = false →
    exec (.fenceTable slot) s = .next (mbAnswer (s.modPart (partOfFn slot) (fun x => { x with fenceTable := some (c.f 0x10 0 64, c.f 0x18 0 5) })) slot.fn c 0 0 [])) ∧
  (∀ (slot : MbSlot) s c a l key, MbTakes s slot 0x39 c { fields := [(0x10, 0, 64)], permitted := isPartFn slot } → (s.part (partOfFn slot)).fenceTable = some (a, l) →
    Tbl.freeKey s.work.fences (partOfFn slot * 2 ^ 24) (partOfFn slot * 2 ^ 24 + 2 ^ l) = some key →
    let f : Fence := { gen := Tbl.getD s.work.fenceGens key 1, value := c.f 0x10 0 64 }
    exec (.fenceAlloc slot) s = .next (mbAnswer (writeFence (s.modWork (fun w => { w with fences := Tbl.put w.fences key f })) key f) slot.fn c 0 0 [fenceHandle key f])) ∧
  (∀ (slot : MbSlot) s c key f, MbTakes s slot 0x3A c { fields := [(0x10, 0, 32), (0x18, 0, 64)], permitted := isPartFn slot } →
    findFence s (partOfFn slot) (c.f 0x10 0 32) = some (key, f) →
    exec (.fenceSignal slot) s = .next (mbAnswer (signalFenceKey s key (c.f 0x18 0 64) none) slot.fn c 0 0 [])) ∧
  (∀ (slot : MbSlot) s c key f, MbTakes s slot 0x3B c { fields := [(0x10, 0, 32)], permitted := isPartFn slot } →
    findFence s (partOfFn slot) (c.f 0x10 0 32) = some (key, f) → fenceReferenced s key f = false →
    exec (.fenceReset slot) s = .next (mbAnswer (writeFence (s.modWork (fun w => { w with fences := Tbl.put w.fences key { f with poisoned := false, cause := 0 } })) key
      { f with poisoned := false, cause := 0 }) slot.fn c 0 0 [])) ∧
  (∀ (slot : MbSlot) s c key f, MbTakes s slot 0x3C c { fields := [(0x10, 0, 32)], permitted := isPartFn slot } →
    findFence s (partOfFn slot) (c.f 0x10 0 32) = some (key, f) →
    exec (.fenceFree slot) s = .next (mbAnswer (settleFence (s.modWork (fun w => { w with fences := Tbl.put w.fences key { f with freed := true } })) key) slot.fn c 0 0 [])) ∧
  (∀ (slot : MbSlot) s c key f, MbTakes s slot 0x3D c { fields := [(0x10, 0, 32), (0x18, 0, 64), (0x20, 0, 8)], permitted := isPartFn slot } →
    2 ≤ c.f 0x20 0 8 → c.f 0x20 0 8 ≤ 63 → findFence s (partOfFn slot) (c.f 0x10 0 32) = some (key, f) →
    exec (.fenceWait slot) s = .next (mbAnswer (serveWaits (s.modWork (fun x => { x with waits := x.waits ++
      [{ fn := slot.fn, fence := key, handle := c.f 0x10 0 32, value := c.f 0x18 0 64, vector := c.f 0x20 0 8 }] })) key f) slot.fn c 0 0 []))

/-- The commands of the Catalogue and of the Ledger (09 R264 to R272, 14 R419 to R421).
The model's choices in it: assumptions 49, 122. -/
def Obligations.CatalogueCommandsComplete : Prop :=
  (∀ (slot : MbSlot) s c, MbTakes s slot 0x40 c { fields := invalFields 0x10, range := invalRange c 0x10, permitted := isPartFn slot && invalPermitted s (partOfFn slot) c 0x10, handles := invalHandles s (partOfFn slot) c 0x10 } →
    invalVacant s (invalOf s (partOfFn slot) c 0x10 false) = true → exec (.catInvalidate slot) s = .next (mbAnswer s slot.fn c 0 0 [])) ∧
  (∀ (slot : MbSlot) s c t d r, MbTakes s slot 0x40 c { fields := invalFields 0x10, range := invalRange c 0x10, permitted := isPartFn slot && invalPermitted s (partOfFn slot) c 0x10, handles := invalHandles s (partOfFn slot) c 0x10 } →
    invalVacant s (invalOf s (partOfFn slot) c 0x10 false) = false →
    finishInval (startInval s slot.fn c.index (invalOf s (partOfFn slot) c 0x10 false)) slot.fn c = .done t 0 d r →
    exec (.catInvalidate slot) s = .next (mbAnswer t slot.fn c 0 d r)) ∧
  (∀ (slot : MbSlot) s c, MbTakes s slot 0x41 c { fields := [(0x10, 0, 64), (0x18, 0, 5), (0x18, 8, 1)], permitted := isPartFn slot, range := c.f 0x10 0 64 % 4096 == 0 && decide (10 ≤ c.f 0x18 0 5) && decide (c.f 0x18 0 5 ≤ 20) } →
    let d := Tbl.getD s.cat.dlog (partOfFn slot) {}
    exec (.dlogSet slot) s = .next (mbAnswer (modCat s (fun x => { x with dlog := Tbl.put x.dlog (partOfFn slot) { d with base := BitVec.ofNat 64 (c.f 0x10 0 64), ctrl := BitVec.ofNat 32 (c.f 0x18 8 1 + put (bitsAt d.ctrl.toNat 1 1) 1 1 + put (c.f 0x18 0 5) 2 6) } })) slot.fn c 0 0 [])) ∧
  (∀ (slot : MbSlot) s c, MbTakes s slot 0x42 c { fields := [(0x10, 0, 32)], permitted := isPartFn slot } →
    let d := Tbl.getD s.cat.dlog (partOfFn slot) {}
    exec (.dlogReturn slot) s = .next (mbAnswer (modCat s (fun x => { x with dlog := Tbl.put x.dlog (partOfFn slot) { d with rd := BitVec.ofNat 32 (c.f 0x10 0 32), ctrl := d.ctrl &&& ~~~2#32 } })) slot.fn c 0 0 [])) ∧
  (∀ (slot : MbSlot) s c, MbTakes s slot 0x43 c { fields := [(0x10, 0, 8), (0x10, 12, 4), (0x18, 0, 32), (0x20, 0, 64), (0x28, 0, 64)], range := c.f 0x20 0 64 % 0x8000 == 0 && decide (c.f 0x20 0 64 < 2 ^ 46) && c.f 0x28 0 64 % pageBytes == 0 && decide (c.f 0x28 0 64 < 2 ^ 40), permitted := isPartFn slot && windowHeld s (partOfFn slot) (c.f 0x10 0 8) && partInVolume s (partOfFn slot) (c.f 0x18 0 32) } →
    c.f 0x10 15 1 = 0 → exec (.winSet slot) s = .next (mbAnswer (modCat s (fun x => { x with windows := Tbl.put x.windows (c.f 0x10 0 8) { part := partOfFn slot, r := c.f 0x10 12 1 == 1, w := c.f 0x10 13 1 == 1, atomic := c.f 0x10 14 1 == 1, sealPeer := false, volume := c.f 0x18 0 32, root := c.f 0x20 0 64, limit := c.f 0x28 0 64 } })) slot.fn c 0 0 [])) ∧
  (∀ (slot : MbSlot) s c, MbTakes s slot 0x44 c { fields := [(0x10, 0, 8)], permitted := isPartFn slot && windowHeld s (partOfFn slot) (c.f 0x10 0 8) } →
    exec (.winClear slot) s = .next (mbAnswer (modCat s (fun x => { x with windows := Tbl.del x.windows (c.f 0x10 0 8) })) slot.fn c 0 0 [])) ∧
  (∀ (slot : MbSlot) s c, MbTakes s slot 0x48 c { fields := [(0x10, 0, 64), (0x18, 0, 17)], range := c.f 0x10 0 64 % 128 == 0 && isPow2 (c.f 0x18 0 17) && decide (64 ≤ c.f 0x18 0 17) && decide (c.f 0x18 0 17 ≤ 65536), permitted := isPartFn slot } →
    let l := (s.part (partOfFn slot)).ledger
    exec (.ledgerRing slot) s = .next (mbAnswer (ledgerDrain (s.modPart (partOfFn slot) (fun x => { x with ledger := { l with addr := some (c.f 0x10 0 64), entries := c.f 0x18 0 17, written := 0, acked := 0, firstSeq := (l.seq + 2 ^ 32 - l.held.length) % 2 ^ 32 } })) (partOfFn slot) l.held.length) slot.fn c 0 0 [])) ∧
  (∀ (slot : MbSlot) s c, MbTakes s slot 0x49 c { fields := [(0x10, 0, 32)], permitted := isPartFn slot } →
    let l := (s.part (partOfFn slot)).ledger
    let n := (c.f 0x10 0 32 + 2 ^ 32 - l.firstSeq) % 2 ^ 32
    l.acked ≤ n → n ≤ l.written →
    exec (.ledgerAck slot) s = .next (mbAnswer (ledgerDrain (s.modPart (partOfFn slot) (fun x => { x with ledger := { l with acked := n } })) (partOfFn slot) l.held.length) slot.fn c 0 0 [])) ∧
  (∀ (slot : MbSlot) s c, MbTakes s slot 0x4A c { fields := [(0x10, 0, 32), (0x18, 0, 64)], range := c.f 0x18 0 64 % 128 == 0 } → slot.fn.val = 0 → c.f 0x10 0 32 = 0 →
    let k := s.work.partCounts
    let u := cmRecord s 0 (c.f 0x18 0 64) 128 (ledgerRec 2 0 0 0 0 s.now k (k.energyNj / 1000) false + put 1 31 1)
    exec (.ledgerQuery slot) s = .next (mbAnswer (cmRecord u 0 (c.f 0x18 0 64 + 128) 128
      (ledgerRec 3 0 0 0 0 u.now {} (u.work.idleNj / 1000) false + put 1 31 1)) slot.fn c 0 0 []))

/-- The commands of Volumes and of migration (10 R277 to R295, 14 R416).
The model's choices in it: assumptions 8, 37, 38, 39. -/
def Obligations.VolumeCommandsComplete : Prop :=
  (∀ (slot : MbSlot) map s c m, let h := s.fab.deviceId * 2 ^ 18 + s.vols.nextIndex
    parseMap h map = some m → m.members.isEmpty = false → mapShape m = true → mapRefused s h m = none → mapWithin s slot.fn m = true →
    MbTakes s slot 0x50 c { fields := [(0x10, 0, 64), (0x18, 0, 24), (0x20, 0, 17)], range := prepareUsOk (c.f 0x20 0 17) && c.f 0x18 0 24 == map.length } →
    let u := openRound (modVols s (fun v => { v with nextIndex := if v.nextIndex + 1 ≥ 2 ^ 18 then 1 else v.nextIndex + 1 })) h
      { m with handle := h, epoch := 0 } (prepareUs (c.f 0x20 0 17)) (slot.fn.val, c.index)
    exec (.volCreate slot map) s = .next (mbGoes u slot c u.now h)) ∧
  (∀ (slot : MbSlot) map s c m v x, let h := c.f 0x10 0 32
    parseMap h map = some m → Tbl.find s.vols.vols h = some v → v.cur = some x → x.coord = s.fab.deviceId → isRouting h = false → volWithin s slot.fn h = true →
    mapWithin s slot.fn m = true → Tbl.has s.vols.rounds h = false → m.members.isEmpty = false → mapShape m = true → mapRefused s h m = none →
    MbTakes s slot 0x51 c { fields := [(0x10, 0, 32), (0x18, 0, 64), (0x20, 0, 24), (0x28, 0, 17)], range := prepareUsOk (c.f 0x28 0 17) && c.f 0x20 0 24 == map.length } →
    let u := openRound s h { m with handle := h, epoch := (x.epoch + 1) % 65536 } (prepareUs (c.f 0x28 0 17)) (slot.fn.val, c.index)
    exec (.volModify slot map) s = .next (mbGoes u slot c u.now h)) ∧
  (∀ (slot : MbSlot) s c v m, let h := c.f 0x10 0 32
    Tbl.find s.vols.vols h = some v → v.cur = some m → volWithin s slot.fn h = true → Tbl.has s.vols.rounds h = false →
    MbTakes s slot 0x52 c { fields := [(0x10, 0, 32), (0x20, 0, 64)], range := prepareUsOk (c.f 0x20 0 64) } →
    let u := openRound s h { m with epoch := (m.epoch + 1) % 65536, members := [] } (prepareUs (c.f 0x20 0 64)) (slot.fn.val, c.index)
    exec (.volDestroy slot) s = .next (mbGoes u slot c u.now h)) ∧
  (∀ (slot : MbSlot) s c v m, let h := c.f 0x10 0 32
    Tbl.find s.vols.vols h = some v → v.cur = some m → v.next = none → Tbl.find s.vols.rounds h = none →
    MbTakes s slot 0x53 c { fields := [(0x10, 0, 32)], permitted := slot.fn.val == 0 } →
    let u := ((treeOf v.cur none s.fab.deviceId).drop 1).foldl (fun s d => sendConc s d (Conc.body 7 0 h []))
      (setRound s h { epoch := (m.epoch + 1) % 65536, recover := some [], recoverBy := s.now + ms, cmd := some (slot.fn.val, c.index), root := s.fab.deviceId })
    exec (.volRecover slot) s = .next (mbGoes u slot c u.now h)) ∧
  (∀ (slot : MbSlot) s c, ((Tbl.find s.vols.vols (c.f 0x10 0 32)).bind (·.cur)).isSome = true → c.f 0x20 0 64 ≠ 2 ^ 64 - 1 →
    MbTakes s slot 0x54 c { fields := [(0x10, 0, 32), (0x18, 0, 64), (0x20, 0, 64)], permitted := slot.fn.val == 0 } →
    let u := takePreempt s (c.f 0x10 0 32) (c.f 0x18 0 64) (c.f 0x20 0 64) s.fab.deviceId (some c.index)
    exec (.volPreempt slot) s = .next (mbGoes u slot c u.now 0)) ∧
  (∀ (slot : MbSlot) s c, ((Tbl.find s.vols.vols (c.f 0x10 0 32)).bind (·.cur)).isSome = true →
    MbTakes s slot 0x55 c { fields := [(0x10, 0, 32)], permitted := slot.fn.val == 0 } →
    exec (.volResume slot) s = .next (mbAnswer (takePreempt s (c.f 0x10 0 32) 0 (2 ^ 64 - 1) s.fab.deviceId none) slot.fn c 0 0 [])) ∧
  (∀ (slot : MbSlot) s c sh, let src := c.f 0x18 0 64
    let dst := c.f 0x20 0 64
    flag c.slot 0x10 0 = false → migrateRange c = true → shelfAllows s (partOfFn slot) src = true → shelfAllows s (partOfFn slot) dst = true →
    shelfVolumes s (shelfOf dst) = [] → ((List.range 4).map (· + 4 * stackOf src)).find? (fun n => (s.shelver n).mirror.isNone &&
      !s.vols.migrations.any (fun m => m.2.sh == n && !m.2.lost) && queueRoom s n 8) = some sh →
    MbTakes s slot 0x58 c { fields := [(0x10, 0, 1), (0x18, 0, 64), (0x20, 0, 64), (0x28, 0, 64), (0x30, 0, 32)], permitted := isPartFn slot } →
    let r := submitShelver s sh 8 (BitVec.ofNat 1024 (0x0C + put 1 8 1 + put src 64 57 + put dst 128 57 + put (c.f 0x28 0 64) 192 40 +
      put (c.f 0x30 16 16) (8 * 0x70 + 16) 16 + put (c.f 0x30 0 16) (8 * 0x70 + 32) 16))
    let u := { r.1 with vols := { r.1.vols with migrations := r.1.vols.migrations ++ [(partOfFn slot, { sh := sh, src := src, dst := dst, bytes := c.f 0x28 0 64, index := r.2, cmd := (slot.fn.val, c.index) })] } }
    exec (.shelfMigrateCopy slot) s = .next (mbGoes u slot c u.now sh)) ∧
  (∀ (slot : MbSlot) s c x t d r, flag c.slot 0x10 0 = true → migrateRange c = true → invalRange c 0x38 = true → shelfAllows s (partOfFn slot) (c.f 0x18 0 64) = true →
    shelfAllows s (partOfFn slot) (c.f 0x20 0 64) = true → invalPermitted s (partOfFn slot) c 0x38 = true → invalHandles s (partOfFn slot) c 0x38 = true →
    MbTakes s slot 0x58 c { fields := [(0x10, 0, 1), (0x18, 0, 64), (0x20, 0, 64), (0x28, 0, 64), (0x30, 0, 32)] ++ invalFields 0x38, permitted := isPartFn slot } →
    s.vols.migrations.find? (fun m => m.1 == partOfFn slot && m.2.src == c.f 0x18 0 64 && m.2.dst == c.f 0x20 0 64 && m.2.bytes == c.f 0x28 0 64 && m.2.copied) = some x →
    x.2.lost = false → (s.shelver x.2.sh).mirror.isSome = true →
    migrateEnd (startInval s slot.fn c.index (invalOf s (partOfFn slot) c 0x38 true)) slot.fn c = .done t 0 d r →
    exec (.shelfMigrateFinish slot) s = .next (mbAnswer t slot.fn c 0 d r))

/-- Releases, peers and resets by the mailbox (10 R299, 18 R508, R519).
The model's choices in it: assumptions 85, 89, 99. -/
def Obligations.ResetCommandsComplete : Prop :=
  (∀ (slot : MbSlot) s c, MbTakes s slot 4 c { fields := [(0x10, 0, 3), (0x10, 8, 1), (0x18, 0, 14)], permitted := isFn0 slot } → c.f 0x10 0 3 < s.mode →
    1 ≤ c.f 0x18 0 14 → c.f 0x18 0 14 ≤ 10000 → c.f 0x10 8 1 = 0 → Tbl.has s.vols.releases (c.f 0x10 0 3) = false → roundOpen s (c.f 0x10 0 3) = false →
    partAbroad s (c.f 0x10 0 3) = false → let u := s.modPart (c.f 0x10 0 3) (fun x => { x with releasing := true })
    let v := advanceRelease { u with vols := { u.vols with releases := Tbl.put u.vols.releases (c.f 0x10 0 3) { cmd := some c.index, limit := s.now + c.f 0x18 0 14 * ms, squash := false } } } (c.f 0x10 0 3)
    exec (.partReleaseDrain slot) s = .next (settlePartResets (mbGoes v slot c v.now 1))) ∧
  (∀ (slot : MbSlot) s c, MbTakes s slot 4 c { fields := [(0x10, 0, 3), (0x10, 8, 1), (0x18, 0, 14)], permitted := isFn0 slot } → c.f 0x10 0 3 < s.mode →
    1 ≤ c.f 0x18 0 14 → c.f 0x18 0 14 ≤ 10000 → c.f 0x10 8 1 = 1 → Tbl.has s.vols.releases (c.f 0x10 0 3) = false → roundOpen s (c.f 0x10 0 3) = false →
    partAbroad s (c.f 0x10 0 3) = false → let u := s.modPart (c.f 0x10 0 3) (fun x => { x with releasing := true })
    let v := advanceRelease (squashPart { u with vols := { u.vols with releases := Tbl.put u.vols.releases (c.f 0x10 0 3) { cmd := some c.index, limit := s.now + c.f 0x18 0 14 * ms, squash := true } } } (c.f 0x10 0 3)) (c.f 0x10 0 3)
    exec (.partReleaseSquash slot) s = .next (settlePartResets (mbGoes v slot c v.now 1))) ∧
  (∀ (slot : MbSlot) s c, MbTakes s slot 0x70 c { fields := [(0x10, 0, 14), (0x10, 16, 1)], permitted := isFn0 slot } → c.f 0x10 16 1 = 0 →
    exec (.peerStateFailed slot) s = .next (mbAnswer (collPeerFailed (s.modSeq (fun q => { q with peersDown := NSet.ins q.peersDown (c.f 0x10 0 14) })) (c.f 0x10 0 14)) slot.fn c 0 0 [])) ∧
  (∀ (slot : MbSlot) s c, MbTakes s slot 0x70 c { fields := [(0x10, 0, 14), (0x10, 16, 1)], permitted := isFn0 slot } → c.f 0x10 16 1 = 1 →
    exec (.peerStateRestored slot) s = .next (mbAnswer (s.modSeq (fun q => { q with peersDown := NSet.rem q.peersDown (c.f 0x10 0 14) })) slot.fn c 0 0 [])) ∧
  (∀ (slot : MbSlot) s c, MbTakes s slot 0x71 c { fields := [(0x10, 0, 3)], range := decide (resetTarget c < s.mode) } → slot.fn.val = 0 →
    let u := startPartReset s (resetTarget c)
    exec (.partReset slot) s = .next (settlePartResets (mbGoes u slot c u.now 0))) ∧
  (∀ (slot : MbSlot) s c, MbTakes s slot 0x72 c { fields := [(0x10, 0, 1)], permitted := isFn0 slot } → isFn0 slot = true →
    (s.fn slot.fn).active = [c] → ∃ u, exec (.deviceReset slot) s = .next (warmReset u 4 (c.f 0x10 0 1 == 1)) ∧ u.seq.resetReply = some c.index ∧ u.mem = s.mem) ∧
  (∀ (slot : MbSlot) s c, mbFind s slot = some c → c.started = none → c.answer = none → c.deadline ≠ 0 →
    exec (.mailboxDeadline slot) s = .next (mbAnswer (reach s (c.deadline + 1)) slot.fn c Status.timeout.code 5 [])) ∧
  (∀ (slot : MbSlot) s c st d res b, mbFind s slot = some c → c.answer = some (st :: d :: res) → mbBound c = some b →
    exec (.mailboxFixedAnswer slot) s = .next (mbRespond (reach s (c.readAt + b)) slot.fn c st d res)) ∧
  (∀ (handle : Word) s p i, Tbl.find s.vols.preempts handle.toNat = some p → p.cmd = some i → volumeHere s handle.toNat = none →
    exec (.volPreemptTimeout handle) s = .next (mbFinish (modVols (reach s (p.at_ + 500 * us + 1)) (fun v =>
      { v with preempts := Tbl.put v.preempts handle.toNat { p with cmd := none } })) 0 i Status.timeout.code 0))

/-- The companion's messages (16 R441 to R463): each is served, or counted as a bad message.
The model's choices in it: assumptions 113, 114, 115, 116, 117, 118, 119. -/
def Obligations.OtfoldMessagesComplete : Prop :=
  (∀ (port : Fin 2) m s rq d t bs bad, OtServed s port 6 m (Ms.accessOk m (Ms.bytes m) && m.data.isEmpty) → OtMemReady s port m rq d →
    engineRead s rq 0 d (Ms.bytes m) = .ok t (bs, bad) →
    exec (.rdNc port m) s = .next (otAnswer t port m (.data port (Ms.func m) (Ms.tag m) 0 bad bs))) ∧
  (∀ (port : Fin 2) m s rq d t, OtServed s port 7 m (Ms.accessOk m (Ms.bytes m) && m.data.length == Ms.bytes m) → OtMemReady s port m rq d →
    engineWrite s rq 0 d m.data (Ms.poison m) = .ok t () →
    exec (.wrNc port m) s = .next (otAnswer t port m (.ack port (Ms.func m) (Ms.tag m) 0))) ∧
  (∀ (port : Fin 2) m s rq d t x, OtServed s port 8 m (otAtomicOk m) → OtMemReady s port m rq d → prepare s rq true [(d, otAtomicBytes m)] = .ok t x →
    let r := farPerform (chargeGranules t (stackOf d) rq 1) rq.part 0 d (otWordAt m 0 % 16) (otAtomicBytes m) (otWordAt m 1) (otWordAt m 2)
    exec (.otAtomic port m) s = .next (otAnswer r.1 port m (.data port (Ms.func m) (Ms.tag m) 0 r.2.2 (bytesLE 8 r.2.1)))) ∧
  (∀ (port : Fin 2) m s, OtServed s port 9 m (otOffset m % 4 == 0 && m.data.isEmpty) →
    let r := driverRead s (otFn m) (otOffset m)
    exec (.regRd port m) s = .next (otAnswer r.1 port m (.data port (Ms.func m) (Ms.tag m) 0 false (bytesLE 4 r.2)))) ∧
  (∀ (port : Fin 2) m s, OtServed s port 10 m (otOffset m % 4 == 0 && m.data.length == 4 && Ms.bytes m == 4) → otWritesWait s port = false →
    exec (.regWr port m) s = .next (driverWrite s (otFn m) (otOffset m) (BitVec.ofNat 32 (natLE m.data)))) ∧
  (∀ (port : Fin 2) m s, otGate s port 10 m (otOffset m % 4 == 0 && m.data.length == 4 && Ms.bytes m == 4) = .drop →
    exec (.regWr port m) s = .next (badMessage s port)) ∧
  (∀ (port : Fin 2) m s, OtServed s port 11 m m.data.isEmpty →
    exec (.timeReq port m) s = .next (otAnswer s port m (.timeRsp port (Ms.func m) (Ms.tag m) 0 (bytesLE 8 s.now ++ bytesLE 8 s.now)))) ∧
  (∀ (port : Fin 2) m s, Ms.mtype m = 0x21 → exec (.data port m) s = .next (cmAnswer s port m true)) ∧
  (∀ (port : Fin 2) m s, Ms.mtype m = 0x22 → exec (.ack port m) s = .next (cmAnswer s port m false)) ∧
  (∀ (tag : BitVec 12) s r, s.ot.cm.find? (fun r => r.sent && r.tag % 4096 == tag.toNat) = some r →
    exec (.cmDeadline tag) s = .next (cmTimeout (reach s (r.deadline + 1)) r)) ∧
  (∀ (port : Fin 2) (lane : Fin 8) s, linkIn s (24 + port.val) 4 → exec (.otLaneFail port lane) s =
    .next (linkFail (modLink s (24 + port.val) (fun l => { l with badLanes := l.badLanes ||| 2 ^ lane.val })) (24 + port.val))) ∧
  (∀ (port : Fin 2) s, linkIn s (24 + port.val) 5 → exec (.otRetrain port) s = .next (enterTrain s (24 + port.val)))

/-- The SMBus interface, tampering and the JTAG instructions (17 R475, R478, 19 R537 to R540).
The model's choices in it: assumptions 21, 94, 95, 98, 106. -/
def Obligations.BoardComplete : Prop :=
  (∀ s, exec .tamper s = .next (let u := modSec (wipeCarrel s) (fun x => { x with tamperCount := min 64 (x.tamperCount + 1), tampered := true })
    { secEvent u 16 4 0 with smb := { u.smb with alerts := u.smb.alerts ||| 8 } })) ∧
  (∀ nonce s, SmbOpen s → canSign s = false → exec (.getProvenance nonce) s = .next (smbReply s 1)) ∧
  (∀ (nonce : BitVec 512) s, SmbOpen s → canSign s = true →
    let u := smbReply s.fresh.2 0 (report s.fresh.2 (reportBody s.fresh.2 none (bytesLE 64 nonce.toNat) none))
    exec (.getProvenance nonce) s = .next { u with smb := { u.smb with until_ := u.now + (Config.freeWord s.fresh.1).toNat } }) ∧
  (∀ s, SmbOpen s → exec .getTelemetry s = .next (smbReply s 0 s.smb.telemetry)) ∧
  (∀ (watts : BitVec 16) s, SmbOpen s → 400 ≤ watts.toNat → watts.toNat ≤ 1000 → exec (.setPwrCap watts) s = .next (smbReply (setCap s watts.toNat) 0)) ∧
  (∀ (watts : BitVec 16) s, SmbOpen s → 1000 < watts.toNat → exec (.setPwrCap watts) s = .next (smbReply s 3)) ∧
  (∀ s, 5 ≤ s.seq.step → s.smb.until_ ≤ s.now → exec .getResetStatus s =
    .next (smbReply s 0 (bytesLE 4 s.seq.rstCause.toNat ++ bytesLE 4 (brStatus s.seq) ++ bytesLE 4 (bootCount s.seq)))) ∧
  (∀ (mask : BitVec 16) s, SmbOpen s → ∃ t, exec (.clearAlert mask) s = .next t ∧ t.mem = s.mem ∧ t.fns = s.fns ∧ t.smb.telemetry = s.smb.telemetry) ∧
  (∀ s, 5 ≤ s.seq.step → s.seq.clocksStopped = false → let u := noteAlerts (reach s (s.smb.refreshAt + 1000 * ms))
    exec .telemetryRefresh s = .next { u with smb := { u.smb with telemetry := telemetryBlock u, refreshAt := u.now } }) ∧
  (∀ s, exec .bypass s = .next (s.modSeq (fun q => { q with jtag := 0, jtagOut := 0 }))) ∧
  (∀ s, exec .idcode s = .next (s.modSeq (fun q => { q with jtag := 1, jtagOut := idcode }))) ∧
  (∀ cells s, exec (.samplePreload cells) s = .next (s.fresh.2.modSeq (fun q => { q with jtag := 2, jtagOut := (Config.freeWord s.fresh.1).toNat, boundary := cells }))) ∧
  (∀ s, s.seq.resetN = false → exec .clamp s = .next (s.modSeq (fun q => { q with jtag := 3, jtagOut := 0 }))) ∧
  (∀ s, s.seq.resetN = true → exec .clamp s = .next (s.modSeq (fun q => { q with jtag := 0, jtagOut := 0 }))) ∧
  (∀ s, s.seq.resetN = false → exec .highz s = .next (s.modSeq (fun q => { q with jtag := 4, jtagOut := 0 }))) ∧
  (∀ cells s, s.seq.resetN = false → exec (.extest cells) s = .next (s.fresh.2.modSeq (fun q => { q with jtag := 5, jtagOut := (Config.freeWord s.fresh.1).toNat, boundary := cells }))) ∧
  (∀ cells s, s.seq.resetN = false → exec (.extestPulse cells) s = .next (s.fresh.2.modSeq (fun q => { q with jtag := 6, jtagOut := (Config.freeWord s.fresh.1).toNat, boundary := cells }))) ∧
  (∀ cells s, s.seq.resetN = false → exec (.extestTrain cells) s = .next (s.fresh.2.modSeq (fun q => { q with jtag := 7, jtagOut := (Config.freeWord s.fresh.1).toNat, boundary := cells }))) ∧
  (∀ s, exec .smbusClockLowTimeout s = .next { s with smb := { s.smb with reply := [], until_ := s.now } })

/-- Reset and start-up (18 R494 to R502, 19 R532).
The model's choices in it: assumptions 73, 99, 100. -/
def Obligations.StartUpComplete : Prop :=
  (∀ s, s.seq.railsGood = false → exec .powerOnReset s = .next ((powerLost s).modSeq (fun q => { q with railsGood := true, resetN := s.seq.resetN }))) ∧
  (∀ s, exec .railBelowThreshold s = .next (powerLost s)) ∧
  (∀ s, s.seq.railsGood = true → s.seq.resetN = true → exec .resetNFall s = .next (s.modSeq (fun q => { q with resetN := false, fellAt := some s.now }))) ∧
  (∀ s t, s.seq.fellAt = some t → exec .shortPulse s = .next (setRst (s.modSeq (fun q => { q with resetN := true, fellAt := none })) 16)) ∧
  (∀ s t, s.seq.fellAt = some t → s.seq.restart ≠ 3 →
    exec .resetNAssert s = .next (warmReset ((reach s (t + us)).modSeq (fun q => { q with fellAt := none, warmHeld := true })) 1 true)) ∧
  (∀ s t, s.seq.fellAt = some t → s.seq.restart = 3 →
    exec .resetNAssert s = .next ((reach s (t + us)).modSeq (fun q => { q with fellAt := none, warmHeld := true, step := 0 }))) ∧
  (∀ (clk : Fin 4) (slot : Fin 8) (src : Fin 4) s, s.seq.railsGood = true → s.seq.resetN = false → s.seq.fellAt = none → s.seq.latched = false → s.seq.restart = 3 →
    exec (.resetNRise clk slot src true) s = .next (beginBoot ((s.modFab (fun f => { f with deviceId := f.deviceId / 8 * 8 + slot.val })).modSeq (fun q =>
      { q with resetN := true, latched := true, warmHeld := false, straps := BitVec.ofNat 32 (src.val + 4 * clk.val + 16 * slot.val), step := 2, startAt := s.now, tries := 0 })))) ∧
  (∀ s, s.seq.restart = 3 → s.seq.step = 2 → exec .refclkPresent s = .next (beginBoot s)) ∧
  (∀ (cause : Fin 6) image s, ready s = true → s.seq.brState = 0 → s.seq.loading = false → bitsAt s.seq.straps.toNat 0 2 = 1 → cause.val = 0 →
    exec (.imageReadDone cause image) s = .next (checkBoot s image).1) ∧
  (∀ (cause : Fin 6) image s, ready s = true → s.seq.brState = 0 → s.seq.loading = false → bitsAt s.seq.straps.toNat 0 2 = 1 → cause.val ≠ 0 →
    exec (.imageReadDone cause image) s = .next (bootFail (s.modSeq (fun q => { q with loadCause := cause.val })))) ∧
  (∀ s, s.seq.fwState = 0 → ready s = true → s.seq.loading = false → s.seq.brState = 1 → 0x2000 ≤ s.seq.brLen.toNat → s.seq.brLen.toNat ≤ 0x600000 →
    exec .bootLoad s = .next (bootRead (s.modSeq (fun q => { q with loading := true, bootImage := [] })))) ∧
  (∀ s, s.seq.fwState = 0 → s.seq.brState = 1 → s.seq.loading = false → exec .retrySource s =
    .next (bootResult (s.modSeq (fun q => { q with tries := 0, brState := if bitsAt q.straps.toNat 0 2 == 3 then 1 else 0 })) 0)) ∧
  (∀ (cause : Fin 8) s, s.seq.restart = 0 → s.seq.fatalPosted = true → exec (.deviceFatal cause) s = .next (warmReset s cause true)) ∧
  (∀ (cause : Fin 8) s, exec (.deviceWarmReset cause) s = .next (warmReset s cause true)) ∧
  (∀ s t, s.seq.fusePulse = some t → s.seq.fuseWaits = [] → exec .fusePulseEnd s = .next ((reach s t).modSeq (fun q => { q with fusePulse := none, fuseWaits := [] })))

/-- The ladder of recovery and the ends of resets (03 R90, 07 R221, 17 R477, R490, 18 R503 to R516).
The model's choices in it: assumptions 96, 101, 102, 103, 104, 105. -/
def Obligations.RecoveryComplete : Prop :=
  (∀ s, s.seq.fwState = 1 → exec .registrarWatchdog s = .next (failover s)) ∧
  (∀ (pair : Fin 2) s, s.seq.fwState = 1 → pair.val = s.seq.activePair → exec (.lockstepMismatch pair) s = .next (failover s)) ∧
  (∀ s, s.seq.activePair = 0 → resetRuns s 7 1 = true → exec (.pairResetDone true) s =
    .next ((endReset s 7 1).modSeq (fun q => { q with standby := true, healthy1 := true }))) ∧
  (∀ s, s.seq.restart = 0 → exec .registrarRestart s = .next (beginRestart s 1 2 true)) ∧
  (∀ inst s x, s.seq.running.find? (fun r => r.1 == 5 && r.2.1 == inst) = some x → exec (.stepTimerOverrun 5 inst) s =
    .next (fenceShelver (seqError (endReset (reach s (x.2.2 + allowance 5 + 1)) 5 inst) 22 2 (shelverParts (reach s (x.2.2 + allowance 5 + 1)) inst) 2) inst)) ∧
  (∀ inst s x, s.seq.running.find? (fun r => r.1 == 1 && r.2.1 == inst) = some x → exec (.stepTimerOverrun 1 inst) s =
    .next (resetBay (seqError (reach s (x.2.2 + allowance 1 + 1)) 22 2 (2 ^ (reach s (x.2.2 + allowance 1 + 1)).partOfBay (inst / 16)) 4) (inst / 16))) ∧
  (∀ (bay : BayNo) (core : Fin 10) s c, (s.bay bay).coreResets.contains core.val = true → coreOfPort core = some c → (s.bay bay).fenced = false →
    ∃ t, exec (.coreResetDone bay core) s = .next t ∧ (t.bay bay).coreResets = NSet.rem (s.bay bay).coreResets core.val ∧
      (t.bay bay).coreFence = (s.bay bay).coreFence &&& ~~~(BitVec.ofNat 10 (2 ^ core.val)) ∧ (t.bay bay).mem = (s.bay bay).mem ∧ t.mem = s.mem) ∧
  (∀ (bay : BayNo) s since, (s.bay bay).resetAt = some since → (s.bay bay).draining = 0 → (s.bay bay).fenced = false → (s.part (s.partOfBay bay)).resetting = false →
    exec (.bayResetDone bay) s = .next (settlePartResets (freshClock (((List.range 10).foldl (fun s p => endReset s 1 (bay.val * 16 + p)) (endReset s 2 bay)).modBay bay
      (fun x => { x with resetAt := none, wrapper := .open_, coreFence := if x.fenced then x.coreFence else 0#10, coreResets := [] })) bay))) ∧
  (∀ (sh : ShelverNo) s, exec (.shelverResetDone sh) s = .next ((endReset s 5 sh).modShelver sh (fun x => { x with resetting := false }))) ∧
  (∀ (k : StackNo) s, s.seq.flushing.contains k.val = true → s.mem.msc = [] → exec (.mscFlushLimit k) s =
    .next (flushed (postError (((reach s (s.seq.restartAt + ms)).modStack k (fun x => { x with maint := none })).modSeq (fun q => { q with flushLost := true }))
      { block := 6, inst := k, cause := 0, sev := 4, fm := true, action := 7 }) k)) ∧
  (∀ (key : Fin 32) s k, Tbl.find s.sec.kems key = some k →
    exec (.kemKeyExpiry key) s = .next (modSec (reach s (k.stamp + kemLife)) (fun x => { x with kems := Tbl.del x.kems key }))) ∧
  (∀ (record : Fin 512) s m, Tbl.find s.cat.misses record = some m → s.isolated = true → m.walked = true →
    exec (.missFixedResume record) s = .next (settleInvals (walkMiss (reach s (m.taken + 25 * us)) record))) ∧
  (∀ src s c, Tbl.find s.corr src = some c → c.count = 0 → exec (.correctedReportInterval src) s =
    .next { reach s c.until_ with corr := Tbl.del s.corr src }) ∧
  (∀ src s c, Tbl.find s.corr src = some c → c.count ≠ 0 → let u := reach s c.until_
    exec (.correctedReportInterval src) s = .next (postEvent { u with corr := Tbl.put u.corr src { c with until_ := u.now + 1000 * ms, count := 0 } } (src / 65536) 1 0 0
      (errBody { block := c.info.getD 0 0, inst := c.info.getD 1 0, cause := c.info.getD 2 0, sev := 0, off := c.info.getD 3 0, seq := c.info.getD 4 0, reg := c.info.getD 5 0, count := c.count }))) ∧
  (∀ (g : Fin 4) (pkt : Packet) s c, Pk.dst pkt.hdr = s.fab.deviceId → collOk pkt = true → Ce.pStep pkt = 6 →
    findColl s g (Ce.key (Pk.volume pkt.hdr) (Ce.pId pkt)) = some c →
    exec (.collAbort g pkt) s = .next (collPacket s g (Ce.key (Pk.volume pkt.hdr) (Ce.pId pkt)) c pkt))

/-- No command stops, and none touches the queue: what a command answers is a next state with the queue it was given.
The model's choices in it: assumption 7. -/
def Obligations.EveryCommandGoesOn : Prop :=
  ∀ (c : Instr) (s : State), Inv s → ∃ t, exec c s = .next t ∧ t.pending = s.pending

/-- Datestamp never decreases (12 R334), but for the two commands that bring power back, at which it starts at 0 (12 R335).
The model's choices in it: assumptions 4, 71. -/
def Obligations.DatestampNeverGoesBack : Prop :=
  ∀ (c : Instr) (s t : State), Inv s → c ≠ .powerOnReset → c ≠ .railBelowThreshold → exec c s = .next t → s.now ≤ t.now

/-- One-time fuses only go forward (17 R464), whatever the command, a loss of power among them.
The model's choices in it: assumptions 96, 97. -/
def Obligations.FusesOnlyGoForward : Prop := ∀ (c : Instr) (s t : State), Inv s → exec c s = .next t → FusesOn s.sec t.sec

/-- A run of bytes written to a memory reads back and every other byte reads as before; and two memories in the canonical form that read
alike at every address are equal data, a byte that nothing has written reading as assumption 2 chooses. -/
def Obligations.MemoryReadsBackAndIsCanonical : Prop :=
  (∀ (m : Mem) (a x : Nat) (bs : List Byte), m.wf = true →
    (m.writeN a bs).read x = if h : a ≤ x ∧ x < a + bs.length then bs[x - a]'(by omega) else m.read x) ∧
  (∀ m n : Mem, m.wf = true → n.wf = true → (∀ a, m.read a = n.read a) → m = n)

/-- 00 R4 whole: a write to _LO is held and the pair keeps its value, a second one replaces the first, and a write to _HI takes effect with
the half then held, the one just written or one written earlier. -/
def Obligations.PairWritesWaitForTheHighHalf : Prop :=
  ∀ (who : Writer) (pair : RegPair) (s : State), mayWrite s who pair.blk = true → writablePair s pair.blk pair.off.toNat = true →
    (∀ lo, ∃ t, exec (.loWriteHold who pair lo) s = .next t ∧ t = { s with regs := t.regs } ∧
      pairGet t pair.blk pair.off.toNat = pairGet s pair.blk pair.off.toNat ∧
      ∀ lo', ∃ u, exec (.loWriteHold who pair lo') t = .next u ∧
        ∀ hi, exec (.hiWriteCommit who pair hi) u = .next (setPair u pair.blk pair.off.toNat (lo'.toNat + hi.toNat * 2 ^ 32))) ∧
    ∀ hi, exec (.hiWriteCommit who pair hi) s =
      .next (setPair s pair.blk pair.off.toNat ((Tbl.getD s.regs.held (regKey pair.blk pair.off.toNat) 0#32).toNat + hi.toNat * 2 ^ 32))

/-- 11 R320 whole, for each packet that a part forwards: it goes on with HOPS one higher, and at 64 or more it is dropped, with LOOP_COUNT,
ROUTE_LOOP and a Contained event. -/
def Obligations.ForwardedPacketsCountHops : Prop :=
  ∀ (q : FabricPort) (p : Packet) (s : State) (c : Instr), portUp s q = true → Pk.dst p.hdr ≠ s.fab.deviceId →
    c ∈ [.rd q p, .wr q p, .atomic q p, .conc q p, .mgmt q p, .coll q p, .rdResp q p, .wrAck q p, .atomicResp q p] →
    (Pk.hops p.hdr < 64 → exec c s = .next (routePacket s (portDim s q) { p with hdr := Pk.set p.hdr 0xC 22 8 (Pk.hops p.hdr + 1) }) ∧
      Pk.hops (Pk.set p.hdr 0xC 22 8 (Pk.hops p.hdr + 1)) = Pk.hops p.hdr + 1) ∧
    (64 ≤ Pk.hops p.hdr → ∃ t, exec c s = .next t ∧ t.fab.loops = satInc s.fab.loops ∧ t.fab.status.getLsbD 17 = true ∧
      t.fab.out = s.fab.out ∧ (∀ n, linkOf t n = linkOf s n) ∧ ∃ r, t = postError r
        { block := 9, inst := 0, cause := 17, sev := 2, off := 8, seq := evtSeq t.fab.status, reg := t.fab.status.toNat })

/-- 00 R5 whole: an event advances EVT_SEQ by one; a sequence write of the present EVT_SEQ clears the status, and any other is ignored. -/
def Obligations.StatusClearsBySequence : Prop :=
  (∀ (r : Word) mask v, evtSeq (statusEvent r mask v) = (evtSeq r + 1) % 65536) ∧
  (∀ who (reg : StatusReg) (v : Word) s m, ClearsAt s who reg m → v.toNat % 65536 = evtSeq (statusWord s reg.blk reg.off.toNat) →
    ∃ t, exec (.statusSeqClear who reg v) s = .next t ∧
      statusWord t reg.blk reg.off.toNat = statusWord s reg.blk reg.off.toNat &&& ~~~(BitVec.ofNat 32 m)) ∧
  (∀ who (reg : StatusReg) (v : Word) s m, ClearsAt s who reg m → v.toNat % 65536 ≠ evtSeq (statusWord s reg.blk reg.off.toNat) →
    ∃ t, exec (.statusSeqClear who reg v) s = .next t ∧ statusWord t reg.blk reg.off.toNat = statusWord s reg.blk reg.off.toNat)

/-- The table spells no command by bits, so no word is one.
The model's choices in it: assumption 120. -/
def Obligations.NoWordSpellsACommand : Prop :=
  ∀ nbits w, decodeTableWord nbits w = none ∧ ∀ s : State, s.withFetchWord nbits w = s

/-- Registers at reset, by the values of their register maps (03 R79, 06 R181, 07 R222, 09 R272, 11 R332, 12 R335, 15 R423, 16 R463). -/
def Obligations.RegistersAtReset : Prop :=
  (∀ b : BayNo, (readReg State.reset (.bay b) 4).2 = 0xFFFFFFFF ∧ (readReg State.reset (.bay b) 0x60).2 = 0x00640001) ∧
  (readReg State.reset (.fn 0) 0x34).2 = 0xFFFFFFFF ∧ (readReg State.reset (.fn 0) 0x38).2 = 0 ∧
  (readReg State.reset (.catalogue 0) 0).2 = 0x04010000 ∧
  (∀ k : StackNo, (readReg State.reset (.stack k) 0x10).2 = 0x008000C0 ∧ (readReg State.reset (.stack k) 0x38).2 = 0xC) ∧
  (∀ n : ShelverNo, (readReg State.reset (.shelver n) 0x10).2 = 0x3E8) ∧
  (readReg State.reset (.fabric 0) 0x10).2 = 0x14 ∧
  (∀ p : Fin 2, (readReg State.reset (.otfold p) 4).2 = 0x7FD) ∧
  State.reset.now = 0 ∧ State.reset.mode = 0

end
end

