-- ==== Sys2Proof/Laws/Mem.lean ====
section
/-! SUPPORT. Laws of byte memories: reads after writes, and the canonical form that every operation keeps. -/

namespace Sys2Proof.Machine

/-- Every listed address is at least `lo`. -/
def Mem.above (lo : Nat) (m : Mem) : Prop := ∀ c ∈ m, lo ≤ c.1

theorem Mem.above_cons {lo : Nat} {c : Host.Cell} {m : Mem} : Mem.above lo (c :: m) ↔ lo ≤ c.1 ∧ Mem.above lo m := by
  simp [Mem.above]

theorem Mem.above_nil {lo : Nat} : Mem.above lo [] := by simp [Mem.above]

theorem Mem.wf_cons {a : Nat} {v : Byte} {m : Mem} :
    Mem.wf ((a, v) :: m) = true ↔ v ≠ Mem.unlisted ∧ Mem.above (a + 1) m ∧ Mem.wf m = true := by
  induction m generalizing a v with
  | nil => simp [Mem.wf, Mem.above]
  | cons c m ih =>
    obtain ⟨b, w⟩ := c
    simp only [Mem.wf, Bool.and_eq_true, decide_eq_true_eq, bne_iff_ne]
    constructor
    · rintro ⟨⟨hab, hv⟩, hm⟩
      refine ⟨hv, ?_, hm⟩
      intro c hc
      rcases List.mem_cons.1 hc with rfl | hc
      · exact hab
      · exact Nat.le_trans hab (Nat.le_of_succ_le ((ih.1 hm).2.1 c hc))
    · rintro ⟨hv, ha, hm⟩
      exact ⟨⟨ha (b, w) (List.mem_cons_self ..), hv⟩, hm⟩

theorem Mem.above_write {m : Mem} {lo a : Nat} {b : Byte} (h : m.above lo) (ha : lo ≤ a) : (m.write a b).above lo := by
  induction m with
  | nil => grind [Mem.write, Mem.above_cons, Mem.above_nil]
  | cons c m ih => obtain ⟨k, v⟩ := c; grind [Mem.write, Mem.above_cons]

/-- Writing a byte keeps the canonical form. -/
theorem Mem.wf_write {m : Mem} {a : Nat} {b : Byte} (h : m.wf = true) : (m.write a b).wf = true := by
  induction m with
  | nil => unfold Mem.write; split <;> simp_all [Mem.wf]
  | cons c m ih =>
    obtain ⟨k, v⟩ := c
    have := Mem.wf_cons.1 h
    unfold Mem.write
    split
    · split
      · exact this.2.2
      · rename_i e _; subst e; exact Mem.wf_cons.2 ⟨‹_›, this.2⟩
    · split
      · split
        · exact h
        · refine Mem.wf_cons.2 ⟨‹_›, ?_, h⟩
          intro c hc
          rcases List.mem_cons.1 hc with rfl | hc
          · omega
          · have := this.2.1 c hc; omega
      · exact Mem.wf_cons.2 ⟨this.1, Mem.above_write this.2.1 (by omega), ih this.2.2⟩

/-- Writing bytes keeps the canonical form. -/
theorem Mem.wf_writeN {m : Mem} {a : Nat} {bs : List Byte} (h : m.wf = true) : (m.writeN a bs).wf = true := by
  induction bs generalizing m a with
  | nil => exact h
  | cons b bs ih => exact ih (Mem.wf_write h)

/-- Writing a number keeps the canonical form. -/
theorem Mem.wf_writeLE {m : Mem} {a n v : Nat} (h : m.wf = true) : (m.writeLE a n v).wf = true := Mem.wf_writeN h

theorem Mem.wf_filter {m : Mem} {p : Host.Cell → Bool} (h : m.wf = true) : Mem.wf (m.filter p) = true := by
  induction m with
  | nil => exact h
  | cons c m ih =>
    obtain ⟨k, v⟩ := c
    have := Mem.wf_cons.1 h
    by_cases hp : p (k, v)
    · rw [List.filter_cons_of_pos hp]
      exact Mem.wf_cons.2 ⟨this.1, fun c hc => this.2.1 c (List.mem_filter.1 hc).1, ih this.2.2⟩
    · rw [List.filter_cons_of_neg hp]; exact ih this.2.2

/-- Clearing a range keeps the canonical form. -/
theorem Mem.wf_clear {m : Mem} {lo hi : Nat} (h : m.wf = true) : (m.clear lo hi).wf = true := Mem.wf_filter h

theorem Mem.read_of_above {m : Mem} {a : Nat} (h : m.above (a + 1)) : m.read a = Mem.unlisted := by
  cases m with
  | nil => rfl
  | cons c m =>
    obtain ⟨k, v⟩ := c
    have : a + 1 ≤ k := h (k, v) (List.mem_cons_self ..)
    rw [Mem.read, if_neg (by omega), if_pos (by omega)]

/-- A byte reads as written, and every other byte as before. -/
theorem Mem.read_write {m : Mem} {a x : Nat} {b : Byte} (h : m.wf = true) : (m.write a b).read x = if x = a then b else m.read x := by
  induction m with
  | nil => unfold Mem.write; split <;> grind [Mem.read]
  | cons c m ih =>
    obtain ⟨k, v⟩ := c
    have hc := Mem.wf_cons.1 h
    have := ih hc.2.2
    have up := @Mem.read_of_above m x
    unfold Mem.write
    split
    · rename_i e; subst e
      by_cases hx : x = k
      · subst hx
        have := up hc.2.1
        grind [Mem.read]
      · grind [Mem.read, Mem.above]
    · split
      · split <;> grind [Mem.read]
      · grind [Mem.read]

end Sys2Proof.Machine
end

