-- ==== Sys2Proof/Laws/Kept.lean ====
section
/-! SUPPORT. What every operation keeps, as one predicate on the state after it: the invariant, the queue, a Datestamp no lower,
and fuses no earlier than a mark taken before. -/

namespace Sys2Proof.Machine

set_option Elab.async false
set_option linter.all false

/-- What is noted before a step: the queue, Datestamp and the fuses. -/
structure Mark where
  queue : List Instr
  now : Nat
  sec : Sec

/-- The mark of a state. -/
def State.mark (s : State) : Mark := { queue := s.pending, now := s.now, sec := s.sec }

/-- `Kept` over the values it speaks of. -/
structure KeptOf (k : Mark) (q : List Instr) (n m : Nat) (d : Mem) (c v lc : Nat) (ku : Bool) (sv rv tc : Nat) (se : DWord) (fr : Nat) : Prop where
  queue : q = k.queue
  now : k.now ≤ n
  mode : legalMode m = true
  dram : d.wf = true
  cap : 400 ≤ c ∧ c ≤ 1000
  device : v < 16384
  life : k.sec.lc ≤ lc ∧ lc ≤ 3
  kill : k.sec.udsKill = true → ku = true
  version : k.sec.secVersion ≤ sv
  revoke : rv = k.sec.revoke
  tamper : k.sec.tamperCount ≤ tc ∧ tc ≤ 64
  serial : se = k.sec.serial
  rows : k.sec.fusedRows ≤ fr

/-- The invariant holds, and nothing the mark notes has gone back. -/
def Kept (k : Mark) (s : State) : Prop :=
  KeptOf k s.pending s.now s.mode s.mem.dram s.pwr.cap s.fab.deviceId s.sec.lc s.sec.udsKill s.sec.secVersion s.sec.revoke s.sec.tamperCount s.sec.serial s.sec.fusedRows

theorem kept_eq (k : Mark) (s : State) : Kept k s =
    KeptOf k s.pending s.now s.mode s.mem.dram s.pwr.cap s.fab.deviceId s.sec.lc s.sec.udsKill s.sec.secVersion s.sec.revoke s.sec.tamperCount s.sec.serial s.sec.fusedRows := rfl

theorem KeptOf.now_up {k q n m d c v lc ku sv rv tc se fr n'} (h : KeptOf k q n m d c v lc ku sv rv tc se fr) (hn : n ≤ n') :
    KeptOf k q n' m d c v lc ku sv rv tc se fr := { h with now := Nat.le_trans h.now hn }

theorem KeptOf.mode_to {k q n m d c v lc ku sv rv tc se fr m'} (h : KeptOf k q n m d c v lc ku sv rv tc se fr) (hm : legalMode m' = true) :
    KeptOf k q n m' d c v lc ku sv rv tc se fr := { h with mode := hm }

theorem KeptOf.dram_to {k q n m d c v lc ku sv rv tc se fr d'} (h : KeptOf k q n m d c v lc ku sv rv tc se fr) (hd : d.wf = true → d'.wf = true) :
    KeptOf k q n m d' c v lc ku sv rv tc se fr := { h with dram := hd h.dram }

theorem KeptOf.cap_to {k q n m d c v lc ku sv rv tc se fr c'} (h : KeptOf k q n m d c v lc ku sv rv tc se fr) (hc : 400 ≤ c' ∧ c' ≤ 1000) :
    KeptOf k q n m d c' v lc ku sv rv tc se fr := { h with cap := hc }

theorem KeptOf.device_to {k q n m d c v lc ku sv rv tc se fr v'} (h : KeptOf k q n m d c v lc ku sv rv tc se fr) (hv : v' < 16384) :
    KeptOf k q n m d c v' lc ku sv rv tc se fr := { h with device := hv }

/-- What a command answers is a next state that satisfies `P`. -/
def Goes (P : State → Prop) : Host.Outcome State Fault Refusal → Prop
  | .next t => P t
  | _ => False

theorem goes_next {P : State → Prop} {t : State} : Goes P (.next t) = P t := rfl

theorem Goes.of_next {P : State → Prop} {t : State} (h : P t) : Goes P (.next t) := h

theorem Kept.mk {k : Mark} {s : State} (h : Kept k s) :
    KeptOf k s.pending s.now s.mode s.mem.dram s.pwr.cap s.fab.deviceId s.sec.lc s.sec.udsKill s.sec.secVersion s.sec.revoke s.sec.tamperCount s.sec.serial s.sec.fusedRows := h

theorem Goes.ex {P : State → Prop} {o : Host.Outcome State Fault Refusal} (h : Goes P o) : ∃ t, o = .next t ∧ P t := by
  cases o with
  | next t => exact ⟨t, rfl, h⟩
  | fault => exact h.elim
  | refused => exact h.elim

/-! The states that an answer carries all satisfy `P`. -/

def Ents.All (P : State → Prop) : Ents → Prop
  | .ok s _ => P s
  | .fail s _ _ _ => P s
  | .wait s => P s

theorem Ents.all_ok {P : State → Prop} {s : State} {a} : Ents.All P (Ents.ok s a) = P s := rfl
theorem Ents.of_ok {P : State → Prop} {s : State} {a} (h : P s) : Ents.All P (Ents.ok s a) := h
theorem Ents.from_ok {k : Mark} {s : State} {a} {o : Ents} (e : o = Ents.ok s a) (h : Ents.All (Kept k) o) : Kept k s := by rw [e] at h; exact h
theorem Ents.to_ok {k : Mark} {s : State} {a} (h : Ents.All (Kept k) (Ents.ok s a)) : Kept k s := h
theorem Ents.all_fail {P : State → Prop} {s : State} {a b c} : Ents.All P (Ents.fail s a b c) = P s := rfl
theorem Ents.of_fail {P : State → Prop} {s : State} {a b c} (h : P s) : Ents.All P (Ents.fail s a b c) := h
theorem Ents.from_fail {k : Mark} {s : State} {a b c} {o : Ents} (e : o = Ents.fail s a b c) (h : Ents.All (Kept k) o) : Kept k s := by rw [e] at h; exact h
theorem Ents.to_fail {k : Mark} {s : State} {a b c} (h : Ents.All (Kept k) (Ents.fail s a b c)) : Kept k s := h
theorem Ents.all_wait {P : State → Prop} {s : State} : Ents.All P (Ents.wait s) = P s := rfl
theorem Ents.of_wait {P : State → Prop} {s : State} (h : P s) : Ents.All P (Ents.wait s) := h
theorem Ents.from_wait {k : Mark} {s : State} {o : Ents} (e : o = Ents.wait s) (h : Ents.All (Kept k) o) : Kept k s := by rw [e] at h; exact h
theorem Ents.to_wait {k : Mark} {s : State} (h : Ents.All (Kept k) (Ents.wait s)) : Kept k s := h

def Admit.All (P : State → Prop) : Admit → Prop
  | .go s _ => P s
  | .fail s _ _ => P s
  | .wait s => P s

theorem Admit.all_go {P : State → Prop} {s : State} {a} : Admit.All P (Admit.go s a) = P s := rfl
theorem Admit.of_go {P : State → Prop} {s : State} {a} (h : P s) : Admit.All P (Admit.go s a) := h
theorem Admit.from_go {k : Mark} {s : State} {a} {o : Admit} (e : o = Admit.go s a) (h : Admit.All (Kept k) o) : Kept k s := by rw [e] at h; exact h
theorem Admit.to_go {k : Mark} {s : State} {a} (h : Admit.All (Kept k) (Admit.go s a)) : Kept k s := h
theorem Admit.all_fail {P : State → Prop} {s : State} {a b} : Admit.All P (Admit.fail s a b) = P s := rfl
theorem Admit.of_fail {P : State → Prop} {s : State} {a b} (h : P s) : Admit.All P (Admit.fail s a b) := h
theorem Admit.from_fail {k : Mark} {s : State} {a b} {o : Admit} (e : o = Admit.fail s a b) (h : Admit.All (Kept k) o) : Kept k s := by rw [e] at h; exact h
theorem Admit.to_fail {k : Mark} {s : State} {a b} (h : Admit.All (Kept k) (Admit.fail s a b)) : Kept k s := h
theorem Admit.all_wait {P : State → Prop} {s : State} : Admit.All P (Admit.wait s) = P s := rfl
theorem Admit.of_wait {P : State → Prop} {s : State} (h : P s) : Admit.All P (Admit.wait s) := h
theorem Admit.from_wait {k : Mark} {s : State} {o : Admit} (e : o = Admit.wait s) (h : Admit.All (Kept k) o) : Kept k s := by rw [e] at h; exact h
theorem Admit.to_wait {k : Mark} {s : State} (h : Admit.All (Kept k) (Admit.wait s)) : Kept k s := h

def Pub.All (P : State → Prop) : Pub → Prop
  | .none_ s => P s
  | .did s => P s
  | .differs s _ => P s
  | .lost s => P s
  | .wait s => P s

theorem Pub.all_none {P : State → Prop} {s : State} : Pub.All P (Pub.none_ s) = P s := rfl
theorem Pub.of_none {P : State → Prop} {s : State} (h : P s) : Pub.All P (Pub.none_ s) := h
theorem Pub.from_none {k : Mark} {s : State} {o : Pub} (e : o = Pub.none_ s) (h : Pub.All (Kept k) o) : Kept k s := by rw [e] at h; exact h
theorem Pub.to_none {k : Mark} {s : State} (h : Pub.All (Kept k) (Pub.none_ s)) : Kept k s := h
theorem Pub.all_did {P : State → Prop} {s : State} : Pub.All P (Pub.did s) = P s := rfl
theorem Pub.of_did {P : State → Prop} {s : State} (h : P s) : Pub.All P (Pub.did s) := h
theorem Pub.from_did {k : Mark} {s : State} {o : Pub} (e : o = Pub.did s) (h : Pub.All (Kept k) o) : Kept k s := by rw [e] at h; exact h
theorem Pub.to_did {k : Mark} {s : State} (h : Pub.All (Kept k) (Pub.did s)) : Kept k s := h
theorem Pub.all_differs {P : State → Prop} {s : State} {a} : Pub.All P (Pub.differs s a) = P s := rfl
theorem Pub.of_differs {P : State → Prop} {s : State} {a} (h : P s) : Pub.All P (Pub.differs s a) := h
theorem Pub.from_differs {k : Mark} {s : State} {a} {o : Pub} (e : o = Pub.differs s a) (h : Pub.All (Kept k) o) : Kept k s := by rw [e] at h; exact h
theorem Pub.to_differs {k : Mark} {s : State} {a} (h : Pub.All (Kept k) (Pub.differs s a)) : Kept k s := h
theorem Pub.all_lost {P : State → Prop} {s : State} : Pub.All P (Pub.lost s) = P s := rfl
theorem Pub.of_lost {P : State → Prop} {s : State} (h : P s) : Pub.All P (Pub.lost s) := h
theorem Pub.from_lost {k : Mark} {s : State} {o : Pub} (e : o = Pub.lost s) (h : Pub.All (Kept k) o) : Kept k s := by rw [e] at h; exact h
theorem Pub.to_lost {k : Mark} {s : State} (h : Pub.All (Kept k) (Pub.lost s)) : Kept k s := h
theorem Pub.all_wait {P : State → Prop} {s : State} : Pub.All P (Pub.wait s) = P s := rfl
theorem Pub.of_wait {P : State → Prop} {s : State} (h : P s) : Pub.All P (Pub.wait s) := h
theorem Pub.from_wait {k : Mark} {s : State} {o : Pub} (e : o = Pub.wait s) (h : Pub.All (Kept k) o) : Kept k s := by rw [e] at h; exact h
theorem Pub.to_wait {k : Mark} {s : State} (h : Pub.All (Kept k) (Pub.wait s)) : Kept k s := h

def CoreGot.All {α : Type} (P : State → Prop) : CoreGot α → Prop
  | .ok s _ => P s
  | .wait s => P s
  | .trap s _ _ _ => P s

theorem CoreGot.all_ok {α : Type} {P : State → Prop} {s : State} {a} : CoreGot.All P (CoreGot.ok s a : CoreGot α) = P s := rfl
theorem CoreGot.of_ok {α : Type} {P : State → Prop} {s : State} {a} (h : P s) : CoreGot.All P (CoreGot.ok s a : CoreGot α) := h
theorem CoreGot.from_ok {α : Type} {k : Mark} {s : State} {a} {o : CoreGot α} (e : o = CoreGot.ok s a) (h : CoreGot.All (Kept k) o) : Kept k s := by rw [e] at h; exact h
theorem CoreGot.to_ok {α : Type} {k : Mark} {s : State} {a} (h : CoreGot.All (Kept k) (CoreGot.ok s a : CoreGot α)) : Kept k s := h
theorem CoreGot.all_wait {α : Type} {P : State → Prop} {s : State} : CoreGot.All P (CoreGot.wait s : CoreGot α) = P s := rfl
theorem CoreGot.of_wait {α : Type} {P : State → Prop} {s : State} (h : P s) : CoreGot.All P (CoreGot.wait s : CoreGot α) := h
theorem CoreGot.from_wait {α : Type} {k : Mark} {s : State} {o : CoreGot α} (e : o = CoreGot.wait s) (h : CoreGot.All (Kept k) o) : Kept k s := by rw [e] at h; exact h
theorem CoreGot.to_wait {α : Type} {k : Mark} {s : State} (h : CoreGot.All (Kept k) (CoreGot.wait s : CoreGot α)) : Kept k s := h
theorem CoreGot.all_trap {α : Type} {P : State → Prop} {s : State} {a b c} : CoreGot.All P (CoreGot.trap s a b c : CoreGot α) = P s := rfl
theorem CoreGot.of_trap {α : Type} {P : State → Prop} {s : State} {a b c} (h : P s) : CoreGot.All P (CoreGot.trap s a b c : CoreGot α) := h
theorem CoreGot.from_trap {α : Type} {k : Mark} {s : State} {a b c} {o : CoreGot α} (e : o = CoreGot.trap s a b c) (h : CoreGot.All (Kept k) o) : Kept k s := by rw [e] at h; exact h
theorem CoreGot.to_trap {α : Type} {k : Mark} {s : State} {a b c} (h : CoreGot.All (Kept k) (CoreGot.trap s a b c : CoreGot α)) : Kept k s := h

def Got.All {α : Type} (P : State → Prop) : Got α → Prop
  | .ok s _ => P s
  | .wait s => P s
  | .bad s _ => P s

theorem Got.all_ok {α : Type} {P : State → Prop} {s : State} {a} : Got.All P (Got.ok s a : Got α) = P s := rfl
theorem Got.of_ok {α : Type} {P : State → Prop} {s : State} {a} (h : P s) : Got.All P (Got.ok s a : Got α) := h
theorem Got.from_ok {α : Type} {k : Mark} {s : State} {a} {o : Got α} (e : o = Got.ok s a) (h : Got.All (Kept k) o) : Kept k s := by rw [e] at h; exact h
theorem Got.to_ok {α : Type} {k : Mark} {s : State} {a} (h : Got.All (Kept k) (Got.ok s a : Got α)) : Kept k s := h
theorem Got.all_wait {α : Type} {P : State → Prop} {s : State} : Got.All P (Got.wait s : Got α) = P s := rfl
theorem Got.of_wait {α : Type} {P : State → Prop} {s : State} (h : P s) : Got.All P (Got.wait s : Got α) := h
theorem Got.from_wait {α : Type} {k : Mark} {s : State} {o : Got α} (e : o = Got.wait s) (h : Got.All (Kept k) o) : Kept k s := by rw [e] at h; exact h
theorem Got.to_wait {α : Type} {k : Mark} {s : State} (h : Got.All (Kept k) (Got.wait s : Got α)) : Kept k s := h
theorem Got.all_bad {α : Type} {P : State → Prop} {s : State} {a} : Got.All P (Got.bad s a : Got α) = P s := rfl
theorem Got.of_bad {α : Type} {P : State → Prop} {s : State} {a} (h : P s) : Got.All P (Got.bad s a : Got α) := h
theorem Got.from_bad {α : Type} {k : Mark} {s : State} {a} {o : Got α} (e : o = Got.bad s a) (h : Got.All (Kept k) o) : Kept k s := by rw [e] at h; exact h
theorem Got.to_bad {α : Type} {k : Mark} {s : State} {a} (h : Got.All (Kept k) (Got.bad s a : Got α)) : Kept k s := h

def TileGot.All {α : Type} (P : State → Prop) : TileGot α → Prop
  | .ok s _ => P s
  | .wait s => P s
  | .fail s => P s

theorem TileGot.all_ok {α : Type} {P : State → Prop} {s : State} {a} : TileGot.All P (TileGot.ok s a : TileGot α) = P s := rfl
theorem TileGot.of_ok {α : Type} {P : State → Prop} {s : State} {a} (h : P s) : TileGot.All P (TileGot.ok s a : TileGot α) := h
theorem TileGot.from_ok {α : Type} {k : Mark} {s : State} {a} {o : TileGot α} (e : o = TileGot.ok s a) (h : TileGot.All (Kept k) o) : Kept k s := by rw [e] at h; exact h
theorem TileGot.to_ok {α : Type} {k : Mark} {s : State} {a} (h : TileGot.All (Kept k) (TileGot.ok s a : TileGot α)) : Kept k s := h
theorem TileGot.all_wait {α : Type} {P : State → Prop} {s : State} : TileGot.All P (TileGot.wait s : TileGot α) = P s := rfl
theorem TileGot.of_wait {α : Type} {P : State → Prop} {s : State} (h : P s) : TileGot.All P (TileGot.wait s : TileGot α) := h
theorem TileGot.from_wait {α : Type} {k : Mark} {s : State} {o : TileGot α} (e : o = TileGot.wait s) (h : TileGot.All (Kept k) o) : Kept k s := by rw [e] at h; exact h
theorem TileGot.to_wait {α : Type} {k : Mark} {s : State} (h : TileGot.All (Kept k) (TileGot.wait s : TileGot α)) : Kept k s := h
theorem TileGot.all_fail {α : Type} {P : State → Prop} {s : State} : TileGot.All P (TileGot.fail s : TileGot α) = P s := rfl
theorem TileGot.of_fail {α : Type} {P : State → Prop} {s : State} (h : P s) : TileGot.All P (TileGot.fail s : TileGot α) := h
theorem TileGot.from_fail {α : Type} {k : Mark} {s : State} {o : TileGot α} (e : o = TileGot.fail s) (h : TileGot.All (Kept k) o) : Kept k s := by rw [e] at h; exact h
theorem TileGot.to_fail {α : Type} {k : Mark} {s : State} (h : TileGot.All (Kept k) (TileGot.fail s : TileGot α)) : Kept k s := h

def Stage.All (P : State → Prop) : Stage → Prop
  | .on s => P s
  | .wait s => P s

theorem Stage.all_on {P : State → Prop} {s : State} : Stage.All P (Stage.on s) = P s := rfl
theorem Stage.of_on {P : State → Prop} {s : State} (h : P s) : Stage.All P (Stage.on s) := h
theorem Stage.from_on {k : Mark} {s : State} {o : Stage} (e : o = Stage.on s) (h : Stage.All (Kept k) o) : Kept k s := by rw [e] at h; exact h
theorem Stage.to_on {k : Mark} {s : State} (h : Stage.All (Kept k) (Stage.on s)) : Kept k s := h
theorem Stage.all_wait {P : State → Prop} {s : State} : Stage.All P (Stage.wait s) = P s := rfl
theorem Stage.of_wait {P : State → Prop} {s : State} (h : P s) : Stage.All P (Stage.wait s) := h
theorem Stage.from_wait {k : Mark} {s : State} {o : Stage} (e : o = Stage.wait s) (h : Stage.All (Kept k) o) : Kept k s := by rw [e] at h; exact h
theorem Stage.to_wait {k : Mark} {s : State} (h : Stage.All (Kept k) (Stage.wait s)) : Kept k s := h

def SaveGot.All (P : State → Prop) : SaveGot → Prop
  | .ok s => P s
  | .wait s => P s
  | .bad s _ _ => P s

theorem SaveGot.all_ok {P : State → Prop} {s : State} : SaveGot.All P (SaveGot.ok s) = P s := rfl
theorem SaveGot.of_ok {P : State → Prop} {s : State} (h : P s) : SaveGot.All P (SaveGot.ok s) := h
theorem SaveGot.from_ok {k : Mark} {s : State} {o : SaveGot} (e : o = SaveGot.ok s) (h : SaveGot.All (Kept k) o) : Kept k s := by rw [e] at h; exact h
theorem SaveGot.to_ok {k : Mark} {s : State} (h : SaveGot.All (Kept k) (SaveGot.ok s)) : Kept k s := h
theorem SaveGot.all_wait {P : State → Prop} {s : State} : SaveGot.All P (SaveGot.wait s) = P s := rfl
theorem SaveGot.of_wait {P : State → Prop} {s : State} (h : P s) : SaveGot.All P (SaveGot.wait s) := h
theorem SaveGot.from_wait {k : Mark} {s : State} {o : SaveGot} (e : o = SaveGot.wait s) (h : SaveGot.All (Kept k) o) : Kept k s := by rw [e] at h; exact h
theorem SaveGot.to_wait {k : Mark} {s : State} (h : SaveGot.All (Kept k) (SaveGot.wait s)) : Kept k s := h
theorem SaveGot.all_bad {P : State → Prop} {s : State} {a b} : SaveGot.All P (SaveGot.bad s a b) = P s := rfl
theorem SaveGot.of_bad {P : State → Prop} {s : State} {a b} (h : P s) : SaveGot.All P (SaveGot.bad s a b) := h
theorem SaveGot.from_bad {k : Mark} {s : State} {a b} {o : SaveGot} (e : o = SaveGot.bad s a b) (h : SaveGot.All (Kept k) o) : Kept k s := by rw [e] at h; exact h
theorem SaveGot.to_bad {k : Mark} {s : State} {a b} (h : SaveGot.All (Kept k) (SaveGot.bad s a b)) : Kept k s := h

def ShRes.All (P : State → Prop) : ShRes → Prop
  | .did s _ => P s
  | .wait s => P s

theorem ShRes.all_did {P : State → Prop} {s : State} {a} : ShRes.All P (ShRes.did s a) = P s := rfl
theorem ShRes.of_did {P : State → Prop} {s : State} {a} (h : P s) : ShRes.All P (ShRes.did s a) := h
theorem ShRes.from_did {k : Mark} {s : State} {a} {o : ShRes} (e : o = ShRes.did s a) (h : ShRes.All (Kept k) o) : Kept k s := by rw [e] at h; exact h
theorem ShRes.to_did {k : Mark} {s : State} {a} (h : ShRes.All (Kept k) (ShRes.did s a)) : Kept k s := h
theorem ShRes.all_wait {P : State → Prop} {s : State} : ShRes.All P (ShRes.wait s) = P s := rfl
theorem ShRes.of_wait {P : State → Prop} {s : State} (h : P s) : ShRes.All P (ShRes.wait s) := h
theorem ShRes.from_wait {k : Mark} {s : State} {o : ShRes} (e : o = ShRes.wait s) (h : ShRes.All (Kept k) o) : Kept k s := by rw [e] at h; exact h
theorem ShRes.to_wait {k : Mark} {s : State} (h : ShRes.All (Kept k) (ShRes.wait s)) : Kept k s := h

def Walk.All (P : State → Prop) : Walk → Prop
  | .leaf s _ _ => P s
  | .fail s _ _ => P s
  | .wait s => P s

theorem Walk.all_leaf {P : State → Prop} {s : State} {a b} : Walk.All P (Walk.leaf s a b) = P s := rfl
theorem Walk.of_leaf {P : State → Prop} {s : State} {a b} (h : P s) : Walk.All P (Walk.leaf s a b) := h
theorem Walk.from_leaf {k : Mark} {s : State} {a b} {o : Walk} (e : o = Walk.leaf s a b) (h : Walk.All (Kept k) o) : Kept k s := by rw [e] at h; exact h
theorem Walk.to_leaf {k : Mark} {s : State} {a b} (h : Walk.All (Kept k) (Walk.leaf s a b)) : Kept k s := h
theorem Walk.all_fail {P : State → Prop} {s : State} {a b} : Walk.All P (Walk.fail s a b) = P s := rfl
theorem Walk.of_fail {P : State → Prop} {s : State} {a b} (h : P s) : Walk.All P (Walk.fail s a b) := h
theorem Walk.from_fail {k : Mark} {s : State} {a b} {o : Walk} (e : o = Walk.fail s a b) (h : Walk.All (Kept k) o) : Kept k s := by rw [e] at h; exact h
theorem Walk.to_fail {k : Mark} {s : State} {a b} (h : Walk.All (Kept k) (Walk.fail s a b)) : Kept k s := h
theorem Walk.all_wait {P : State → Prop} {s : State} : Walk.All P (Walk.wait s) = P s := rfl
theorem Walk.of_wait {P : State → Prop} {s : State} (h : P s) : Walk.All P (Walk.wait s) := h
theorem Walk.from_wait {k : Mark} {s : State} {o : Walk} (e : o = Walk.wait s) (h : Walk.All (Kept k) o) : Kept k s := by rw [e] at h; exact h
theorem Walk.to_wait {k : Mark} {s : State} (h : Walk.All (Kept k) (Walk.wait s)) : Kept k s := h

def MbRes.All (P : State → Prop) : MbRes → Prop
  | .done s _ _ _ => P s
  | .going s _ => P s

theorem MbRes.all_done {P : State → Prop} {s : State} {a b c} : MbRes.All P (MbRes.done s a b c) = P s := rfl
theorem MbRes.of_done {P : State → Prop} {s : State} {a b c} (h : P s) : MbRes.All P (MbRes.done s a b c) := h
theorem MbRes.from_done {k : Mark} {s : State} {a b c} {o : MbRes} (e : o = MbRes.done s a b c) (h : MbRes.All (Kept k) o) : Kept k s := by rw [e] at h; exact h
theorem MbRes.to_done {k : Mark} {s : State} {a b c} (h : MbRes.All (Kept k) (MbRes.done s a b c)) : Kept k s := h
theorem MbRes.all_going {P : State → Prop} {s : State} {a} : MbRes.All P (MbRes.going s a) = P s := rfl
theorem MbRes.of_going {P : State → Prop} {s : State} {a} (h : P s) : MbRes.All P (MbRes.going s a) := h
theorem MbRes.from_going {k : Mark} {s : State} {a} {o : MbRes} (e : o = MbRes.going s a) (h : MbRes.All (Kept k) o) : Kept k s := by rw [e] at h; exact h
theorem MbRes.to_going {k : Mark} {s : State} {a} (h : MbRes.All (Kept k) (MbRes.going s a)) : Kept k s := h

def OtMem.All (P : State → Prop) : OtMem → Prop
  | .bad s _ => P s
  | .ok _ _ => True

theorem OtMem.all_bad {P : State → Prop} {s : State} {a} : OtMem.All P (OtMem.bad s a) = P s := rfl
theorem OtMem.of_bad {P : State → Prop} {s : State} {a} (h : P s) : OtMem.All P (OtMem.bad s a) := h
theorem OtMem.from_bad {k : Mark} {s : State} {a} {o : OtMem} (e : o = OtMem.bad s a) (h : OtMem.All (Kept k) o) : Kept k s := by rw [e] at h; exact h
theorem OtMem.to_bad {k : Mark} {s : State} {a} (h : OtMem.All (Kept k) (OtMem.bad s a)) : Kept k s := h
theorem OtMem.all_ok {P : State → Prop} {a b} : OtMem.All P (OtMem.ok a b) = True := rfl

/-- What an optional answer carries satisfies `P`. -/
def OptAll {α : Type} (P : α → Prop) : Option α → Prop
  | none => True
  | some x => P x

theorem optAll_none {α : Type} {P : α → Prop} : OptAll P none = True := rfl
theorem optAll_some {α : Type} {P : α → Prop} {x : α} : OptAll P (some x) = P x := rfl

/-- What an answer or an error carries satisfies `P` or `Q`. -/
def ExAll {ε α : Type} (P : ε → Prop) (Q : α → Prop) : Except ε α → Prop
  | .error e => P e
  | .ok x => Q x

theorem exAll_error {ε α : Type} {P : ε → Prop} {Q : α → Prop} {e : ε} : ExAll P Q (.error e : Except ε α) = P e := rfl
theorem exAll_ok {ε α : Type} {P : ε → Prop} {Q : α → Prop} {x : α} : ExAll P Q (.ok x : Except ε α) = Q x := rfl

/-! Folds. -/

theorem foldl_keeps {α β : Type} {P : β → Prop} {f : β → α → β} {l : List α} {b : β} (hb : P b) (h : ∀ b a, P b → P (f b a)) : P (l.foldl f b) := by
  induction l generalizing b with
  | nil => exact hb
  | cons a l ih => exact ih (h b a hb)

theorem foldl_kept {k : Mark} {α : Type} {f : State → α → State} {l : List α} {s : State} (hs : Kept k s)
    (h : ∀ s a, Kept k s → Kept k (f s a)) : Kept k (l.foldl f s) := foldl_keeps (P := Kept k) hs h

theorem foldl_kept_fst {k : Mark} {α β : Type} {f : State × β → α → State × β} {l : List α} {p : State × β} (hs : Kept k p.1)
    (h : ∀ (p : State × β) (a : α), Kept k p.1 → Kept k (Prod.fst (f p a))) : Kept k (l.foldl f p).1 := foldl_keeps (P := fun p : State × β => Kept k p.1) hs h

theorem foldl_kept_snd {k : Mark} {α β : Type} {f : β × State → α → β × State} {l : List α} {p : β × State} (hs : Kept k p.2)
    (h : ∀ (p : β × State) (a : α), Kept k p.2 → Kept k (Prod.snd (f p a))) : Kept k (l.foldl f p).2 := foldl_keeps (P := fun p : β × State => Kept k p.2) hs h

theorem foldr_kept {k : Mark} {α : Type} {f : α → State → State} {l : List α} {s : State} (hs : Kept k s)
    (h : ∀ s a, Kept k s → Kept k (f a s)) : Kept k (l.foldr f s) := by
  induction l with
  | nil => exact hs
  | cons a l ih => exact h _ a ih

theorem Ents.foldl_all {k : Mark} {α : Type} {f : Ents → α → Ents} {l : List α} {o : Ents} (ho : Ents.All (Kept k) o)
    (h : ∀ o a, Ents.All (Kept k) o → Ents.All (Kept k) (f o a)) : Ents.All (Kept k) (l.foldl f o) := foldl_keeps (P := Ents.All (Kept k)) ho h

theorem Admit.foldl_all {k : Mark} {α : Type} {f : Admit → α → Admit} {l : List α} {o : Admit} (ho : Admit.All (Kept k) o)
    (h : ∀ o a, Admit.All (Kept k) o → Admit.All (Kept k) (f o a)) : Admit.All (Kept k) (l.foldl f o) := foldl_keeps (P := Admit.All (Kept k)) ho h

theorem Pub.foldl_all {k : Mark} {α : Type} {f : Pub → α → Pub} {l : List α} {o : Pub} (ho : Pub.All (Kept k) o)
    (h : ∀ o a, Pub.All (Kept k) o → Pub.All (Kept k) (f o a)) : Pub.All (Kept k) (l.foldl f o) := foldl_keeps (P := Pub.All (Kept k)) ho h

theorem CoreGot.foldl_all {k : Mark} {α β : Type} {f : CoreGot β → α → CoreGot β} {l : List α} {o : CoreGot β} (ho : CoreGot.All (Kept k) o)
    (h : ∀ o a, CoreGot.All (Kept k) o → CoreGot.All (Kept k) (f o a)) : CoreGot.All (Kept k) (l.foldl f o) := foldl_keeps (P := CoreGot.All (Kept k)) ho h

theorem Got.foldl_all {k : Mark} {α β : Type} {f : Got β → α → Got β} {l : List α} {o : Got β} (ho : Got.All (Kept k) o)
    (h : ∀ o a, Got.All (Kept k) o → Got.All (Kept k) (f o a)) : Got.All (Kept k) (l.foldl f o) := foldl_keeps (P := Got.All (Kept k)) ho h

theorem TileGot.foldl_all {k : Mark} {α β : Type} {f : TileGot β → α → TileGot β} {l : List α} {o : TileGot β} (ho : TileGot.All (Kept k) o)
    (h : ∀ o a, TileGot.All (Kept k) o → TileGot.All (Kept k) (f o a)) : TileGot.All (Kept k) (l.foldl f o) := foldl_keeps (P := TileGot.All (Kept k)) ho h

theorem Stage.foldl_all {k : Mark} {α : Type} {f : Stage → α → Stage} {l : List α} {o : Stage} (ho : Stage.All (Kept k) o)
    (h : ∀ o a, Stage.All (Kept k) o → Stage.All (Kept k) (f o a)) : Stage.All (Kept k) (l.foldl f o) := foldl_keeps (P := Stage.All (Kept k)) ho h

theorem SaveGot.foldl_all {k : Mark} {α : Type} {f : SaveGot → α → SaveGot} {l : List α} {o : SaveGot} (ho : SaveGot.All (Kept k) o)
    (h : ∀ o a, SaveGot.All (Kept k) o → SaveGot.All (Kept k) (f o a)) : SaveGot.All (Kept k) (l.foldl f o) := foldl_keeps (P := SaveGot.All (Kept k)) ho h

theorem ShRes.foldl_all {k : Mark} {α : Type} {f : ShRes → α → ShRes} {l : List α} {o : ShRes} (ho : ShRes.All (Kept k) o)
    (h : ∀ o a, ShRes.All (Kept k) o → ShRes.All (Kept k) (f o a)) : ShRes.All (Kept k) (l.foldl f o) := foldl_keeps (P := ShRes.All (Kept k)) ho h

theorem Walk.foldl_all {k : Mark} {α : Type} {f : Walk → α → Walk} {l : List α} {o : Walk} (ho : Walk.All (Kept k) o)
    (h : ∀ o a, Walk.All (Kept k) o → Walk.All (Kept k) (f o a)) : Walk.All (Kept k) (l.foldl f o) := foldl_keeps (P := Walk.All (Kept k)) ho h

theorem MbRes.foldl_all {k : Mark} {α : Type} {f : MbRes → α → MbRes} {l : List α} {o : MbRes} (ho : MbRes.All (Kept k) o)
    (h : ∀ o a, MbRes.All (Kept k) o → MbRes.All (Kept k) (f o a)) : MbRes.All (Kept k) (l.foldl f o) := foldl_keeps (P := MbRes.All (Kept k)) ho h

theorem from_fst {k : Mark} {α : Type} {s : State} {a : α} {p : State × α} (e : p = (s, a)) (h : Kept k p.1) : Kept k s := by rw [e] at h; exact h
theorem from_snd {k : Mark} {α : Type} {s : State} {a : α} {p : α × State} (e : p = (a, s)) (h : Kept k p.2) : Kept k s := by rw [e] at h; exact h

end Sys2Proof.Machine
end

