-- ==== Sys2Proof/Laws/KeptOps.lean ====
section
/-! SUPPORT. What the shared operations, the time base, memory at the home, the directory and the runtime keep: `Kept` after each operation. -/

namespace Sys2Proof.Machine

set_option Elab.async false
set_option linter.all false

theorem reach_kept {k s t} (h : Kept k s) : Kept k (reach s t) := KeptOf.now_up h (by simp only [reach]; omega)

theorem State.modPwr_kept {k s f} (h : Kept k s) (e : (f s.pwr).cap = s.pwr.cap) : Kept k (State.modPwr s f) := by
  unfold Kept State.modPwr; dsimp only; rw [e]; exact h

theorem State.modMem_kept {k s f} (h : Kept k s) (e : (f s.mem).dram = s.mem.dram) : Kept k (State.modMem s f) := by
  unfold Kept State.modMem; dsimp only; rw [e]; exact h

theorem State.modFab_kept {k s f} (h : Kept k s) (e : (f s.fab).deviceId = s.fab.deviceId) : Kept k (State.modFab s f) := by
  unfold Kept State.modFab; dsimp only; rw [e]; exact h

theorem modSec_kept {k s f} (h : Kept k s) (e1 : (f s.sec).lc = s.sec.lc) (e2 : (f s.sec).udsKill = s.sec.udsKill)
    (e3 : (f s.sec).secVersion = s.sec.secVersion) (e4 : (f s.sec).revoke = s.sec.revoke) (e5 : (f s.sec).tamperCount = s.sec.tamperCount)
    (e6 : (f s.sec).serial = s.sec.serial) (e7 : (f s.sec).fusedRows = s.sec.fusedRows) : Kept k (modSec s f) := by
  unfold Kept modSec; dsimp only; rw [e1, e2, e3, e4, e5, e6, e7]; exact h

theorem kept_mk {k : Mark} {pending' : List Instr} {free' : Nat} {now' : Nat} {mode' : Nat} {bays' : Tbl Bay} {nets' : Nets} {reports' : List Report} {hbm' : Tbl Stack} {mem' : Memory} {shelvers' : Tbl Shelver} {cat' : Cat} {fab' : Fab} {sites' : List Nat} {vols' : Vols} {sec' : Sec} {smb' : Smb} {work' : Work} {fns' : Tbl Fn} {parts' : Tbl Part} {colophon' : Colophon} {corr' : Tbl CorrSource} {ot' : Ot} {pwr' : Pwr} {regs' : Regs} {seq' : Seq} :
    Kept k (State.mk pending' free' now' mode' bays' nets' reports' hbm' mem' shelvers' cat' fab' sites' vols' sec' smb' work' fns' parts' colophon' corr' ot' pwr' regs' seq') = KeptOf k pending' now' mode' mem'.dram pwr'.cap fab'.deviceId sec'.lc sec'.udsKill sec'.secVersion sec'.revoke sec'.tamperCount sec'.serial sec'.fusedRows := rfl

theorem Kept.re {k s q n m d c v lc ku sv rv tc se fr} (h : Kept k s) (e1 : q = s.pending) (e2 : n = s.now) (e3 : m = s.mode) (e4 : d = s.mem.dram)
    (e5 : c = s.pwr.cap) (e6 : v = s.fab.deviceId) (e7 : lc = s.sec.lc) (e8 : ku = s.sec.udsKill) (e9 : sv = s.sec.secVersion) (e10 : rv = s.sec.revoke)
    (e11 : tc = s.sec.tamperCount) (e12 : se = s.sec.serial) (e13 : fr = s.sec.fusedRows) : KeptOf k q n m d c v lc ku sv rv tc se fr := by
  rw [e1, e2, e3, e4, e5, e6, e7, e8, e9, e10, e11, e12, e13]; exact h

theorem Pwr.setBay_cap {p b x} : (Pwr.setBay p b x).cap = p.cap := rfl

theorem Pwr.setVol_cap {p b x} : (Pwr.setVol p b x).cap = p.cap := rfl

theorem State.modMem_dram {k s f} (h : Kept k s) (e : s.mem.dram.wf = true → (f s.mem).dram.wf = true) : Kept k (State.modMem s f) := by
  unfold Kept State.modMem; dsimp only; exact KeptOf.dram_to h e

theorem State.modFab_device {k s f} (h : Kept k s) (e : (f s.fab).deviceId < 16384) : Kept k (State.modFab s f) := by
  unfold Kept State.modFab; dsimp only; exact KeptOf.device_to h e

theorem State.modPwr_cap {k s f} (h : Kept k s) (e : 400 ≤ (f s.pwr).cap ∧ (f s.pwr).cap ≤ 1000) : Kept k (State.modPwr s f) := by
  unfold Kept State.modPwr; dsimp only; exact KeptOf.cap_to h e

theorem modSec_fuses {k s f} (h : Kept k s) (e1 : s.sec.lc ≤ (f s.sec).lc ∧ (f s.sec).lc ≤ 3) (e2 : s.sec.udsKill = true → (f s.sec).udsKill = true)
    (e3 : s.sec.secVersion ≤ (f s.sec).secVersion) (e4 : (f s.sec).revoke = s.sec.revoke)
    (e5 : s.sec.tamperCount ≤ (f s.sec).tamperCount ∧ (f s.sec).tamperCount ≤ 64)
    (e6 : (f s.sec).serial = s.sec.serial) (e7 : s.sec.fusedRows ≤ (f s.sec).fusedRows) : Kept k (modSec s f) := by
  obtain ⟨a, b, c, d, e, g, i, j, l, m, n, o, p⟩ := h
  unfold Kept modSec
  exact ⟨a, b, c, d, e, g, ⟨Nat.le_trans i.1 e1.1, e1.2⟩, fun h => e2 (j h), Nat.le_trans l e3, e4.trans m, ⟨Nat.le_trans n.1 e5.1, e5.2⟩, e6.trans o, Nat.le_trans p e7⟩

theorem Kept.life {k s} (h : Kept k s) : s.sec.lc ≤ 3 := KeptOf.life h |>.2

theorem Kept.tamper {k s} (h : Kept k s) : s.sec.tamperCount ≤ 64 := KeptOf.tamper h |>.2

theorem Kept.device {k s} (h : Kept k s) : s.fab.deviceId < 16384 := KeptOf.device h

theorem Kept.dram {k s} (h : Kept k s) : s.mem.dram.wf = true := KeptOf.dram h

theorem State.setBay_kept {k a0 a1 a2} : Kept k a0 → Kept k (State.setBay a0 a1 a2) := by
  intros; unfold State.setBay; try dsimp only
  repeat' (with_reducible first | assumption | (simp only [kept_mk]; refine Kept.re ?_ rfl rfl rfl rfl rfl rfl rfl rfl rfl rfl rfl rfl rfl) | rfl | split | (intro))

theorem State.modBay_kept {k a0 a1 a2} : Kept k a0 → Kept k (State.modBay a0 a1 a2) := by
  intros; unfold State.modBay; try dsimp only
  repeat' (with_reducible first | assumption | apply State.setBay_kept | rfl | split | (intro))

theorem State.setStack_kept {k a0 a1 a2} : Kept k a0 → Kept k (State.setStack a0 a1 a2) := by
  intros; unfold State.setStack; try dsimp only
  repeat' (with_reducible first | assumption | (simp only [kept_mk]; refine Kept.re ?_ rfl rfl rfl rfl rfl rfl rfl rfl rfl rfl rfl rfl rfl) | rfl | split | (intro))

theorem State.modStack_kept {k a0 a1 a2} : Kept k a0 → Kept k (State.modStack a0 a1 a2) := by
  intros; unfold State.modStack; try dsimp only
  repeat' (with_reducible first | assumption | apply State.setStack_kept | rfl | split | (intro))

theorem State.setFn_kept {k a0 a1 a2} : Kept k a0 → Kept k (State.setFn a0 a1 a2) := by
  intros; unfold State.setFn; try dsimp only
  repeat' (with_reducible first | assumption | (simp only [kept_mk]; refine Kept.re ?_ rfl rfl rfl rfl rfl rfl rfl rfl rfl rfl rfl rfl rfl) | rfl | split | (intro))

theorem State.modFn_kept {k a0 a1 a2} : Kept k a0 → Kept k (State.modFn a0 a1 a2) := by
  intros; unfold State.modFn; try dsimp only
  repeat' (with_reducible first | assumption | apply State.setFn_kept | rfl | split | (intro))

theorem State.setPart_kept {k a0 a1 a2} : Kept k a0 → Kept k (State.setPart a0 a1 a2) := by
  intros; unfold State.setPart; try dsimp only
  repeat' (with_reducible first | assumption | (simp only [kept_mk]; refine Kept.re ?_ rfl rfl rfl rfl rfl rfl rfl rfl rfl rfl rfl rfl rfl) | rfl | split | (intro))

theorem State.modPart_kept {k a0 a1 a2} : Kept k a0 → Kept k (State.modPart a0 a1 a2) := by
  intros; unfold State.modPart; try dsimp only
  repeat' (with_reducible first | assumption | apply State.setPart_kept | rfl | split | (intro))

theorem State.modWork_kept {k a0 a1} : Kept k a0 → Kept k (State.modWork a0 a1) := by
  intros; unfold State.modWork; try dsimp only
  repeat' (with_reducible first | assumption | (simp only [kept_mk]; refine Kept.re ?_ rfl rfl rfl rfl rfl rfl rfl rfl rfl rfl rfl rfl rfl) | rfl | split | (intro))

theorem State.modSeq_kept {k a0 a1} : Kept k a0 → Kept k (State.modSeq a0 a1) := by
  intros; unfold State.modSeq; try dsimp only
  repeat' (with_reducible first | assumption | (simp only [kept_mk]; refine Kept.re ?_ rfl rfl rfl rfl rfl rfl rfl rfl rfl rfl rfl rfl rfl) | rfl | split | (intro))

theorem State.modOt_kept {k a0 a1} : Kept k a0 → Kept k (State.modOt a0 a1) := by
  intros; unfold State.modOt; try dsimp only
  repeat' (with_reducible first | assumption | (simp only [kept_mk]; refine Kept.re ?_ rfl rfl rfl rfl rfl rfl rfl rfl rfl rfl rfl rfl rfl) | rfl | split | (intro))

theorem State.modNets_kept {k a0 a1} : Kept k a0 → Kept k (State.modNets a0 a1) := by
  intros; unfold State.modNets; try dsimp only
  repeat' (with_reducible first | assumption | (simp only [kept_mk]; refine Kept.re ?_ rfl rfl rfl rfl rfl rfl rfl rfl rfl rfl rfl rfl rfl) | rfl | split | (intro))

theorem State.setCore_kept {k a0 a1 a2 a3} : Kept k a0 → Kept k (State.setCore a0 a1 a2 a3) := by
  intros; unfold State.setCore; try dsimp only
  repeat' (with_reducible first | assumption | apply State.modBay_kept | rfl | split | (intro))

theorem State.modCore_kept {k a0 a1 a2 a3} : Kept k a0 → Kept k (State.modCore a0 a1 a2 a3) := by
  intros; unfold State.modCore; try dsimp only
  repeat' (with_reducible first | assumption | apply State.setCore_kept | rfl | split | (intro))

theorem State.setMx_kept {k a0 a1 a2 a3} : Kept k a0 → Kept k (State.setMx a0 a1 a2 a3) := by
  intros; unfold State.setMx; try dsimp only
  repeat' (with_reducible first | assumption | apply State.modBay_kept | rfl | split | (intro))

theorem State.modMx_kept {k a0 a1 a2 a3} : Kept k a0 → Kept k (State.modMx a0 a1 a2 a3) := by
  intros; unfold State.modMx; try dsimp only
  repeat' (with_reducible first | assumption | apply State.setMx_kept | rfl | split | (intro))

theorem State.setMover_kept {k a0 a1 a2 a3} : Kept k a0 → Kept k (State.setMover a0 a1 a2 a3) := by
  intros; unfold State.setMover; try dsimp only
  repeat' (with_reducible first | assumption | apply State.modBay_kept | rfl | split | (intro))

theorem State.modMover_kept {k a0 a1 a2 a3} : Kept k a0 → Kept k (State.modMover a0 a1 a2 a3) := by
  intros; unfold State.modMover; try dsimp only
  repeat' (with_reducible first | assumption | apply State.setMover_kept | rfl | split | (intro))

theorem State.fresh_kept {k a0} : Kept k a0 → Kept k (State.fresh a0).2 := by
  intros; unfold State.fresh; try dsimp only
  repeat' (with_reducible first | assumption | (simp only [kept_mk]; refine Kept.re ?_ rfl rfl rfl rfl rfl rfl rfl rfl rfl rfl rfl rfl rfl) | rfl | split | (intro))
grind_pattern State.fresh_kept => (State.fresh a0), Kept k a0

theorem beginReset_kept {k a0 a1 a2} : Kept k a0 → Kept k (beginReset a0 a1 a2) := by
  intros; unfold beginReset; try dsimp only
  repeat' (with_reducible first | assumption | apply State.modSeq_kept | rfl | split | (intro))

theorem endReset_kept {k a0 a1 a2} : Kept k a0 → Kept k (endReset a0 a1 a2) := by
  intros; unfold endReset; try dsimp only
  repeat' (with_reducible first | assumption | apply State.modSeq_kept | rfl | split | (intro))

theorem cmIssue_kept {k a0 a1 a2 a3 a4 a5} : Kept k a0 → Kept k (cmIssue a0 a1 a2 a3 a4 a5) := by
  intros; unfold cmIssue; try dsimp only
  repeat' (with_reducible first | assumption | apply State.modOt_kept | rfl | split | (intro))

theorem cmWrite_kept {k a0 a1 a2 a3 a4} : Kept k a0 → Kept k (cmWrite a0 a1 a2 a3 a4) := by
  intros; unfold cmWrite; try dsimp only
  repeat' (with_reducible first | assumption | apply cmIssue_kept | apply foldl_kept | apply foldl_kept_fst | apply foldl_kept_snd | rfl | split | (intro))

theorem cmRecord_kept {k a0 a1 a2 a3 a4 a5} : Kept k a0 → Kept k (cmRecord a0 a1 a2 a3 a4 a5) := by
  intros; unfold cmRecord; try dsimp only
  repeat' (with_reducible first | assumption | apply cmWrite_kept | rfl | split | (intro))

theorem settleIntr_kept {k a0} : Kept k a0 → Kept k (settleIntr a0) := by
  intros; unfold settleIntr; try dsimp only
  repeat' (with_reducible first | assumption | apply State.modOt_kept | rfl | split | (intro))

theorem sendIntr_kept {k a0 a1 a2} : Kept k a0 → Kept k (sendIntr a0 a1 a2) := by
  intros; unfold sendIntr; try dsimp only
  repeat' (with_reducible first | assumption | apply settleIntr_kept | apply State.modOt_kept | rfl | split | (intro))

theorem raiseVector_kept {k a0 a1 a2} : Kept k a0 → Kept k (raiseVector a0 a1 a2) := by
  intros; unfold raiseVector; try dsimp only
  repeat' (with_reducible first | assumption | apply sendIntr_kept | apply State.setFn_kept | rfl | split | (intro))

theorem evWrite_kept {k a0 a1 a2 a3 a4 a5} : Kept k a0 → Kept k (evWrite a0 a1 a2 a3 a4 a5) := by
  intros; unfold evWrite; try dsimp only
  repeat' (with_reducible first | assumption | apply raiseVector_kept | apply cmRecord_kept | apply State.setFn_kept | rfl | split | (intro))

theorem postEvent_kept {k a0 a1 a2 a3 a4 a5} : Kept k a0 → Kept k (postEvent a0 a1 a2 a3 a4 a5) := by
  intros; unfold postEvent; try dsimp only
  repeat' (with_reducible first | assumption | apply State.modFn_kept | apply evWrite_kept | rfl | split | (intro))

theorem eventsReturn_kept {k a0 a1} : Kept k a0 → Kept k (eventsReturn a0 a1) := by
  intros; unfold eventsReturn; try dsimp only
  repeat' (with_reducible first | assumption | apply State.modFn_kept | apply evWrite_kept | rfl | split | (intro))

theorem postErrorNow_kept {k a0 a1} : Kept k a0 → Kept k (postErrorNow a0 a1) := by unfold postErrorNow; grind [kept_eq, goes_next, optAll_none, optAll_some, postEvent_kept, State.modSeq_kept, foldl_kept]

theorem postError_kept {k a0 a1} : Kept k a0 → Kept k (postError a0 a1) := by
  intros; unfold postError; try dsimp only
  repeat' (with_reducible first | assumption | (simp only [kept_mk]; refine Kept.re ?_ rfl rfl rfl rfl rfl rfl rfl rfl rfl rfl rfl rfl rfl) | apply postErrorNow_kept | rfl | split | (intro) | refine from_fst (by assumption) ?_ | refine from_snd (by assumption) ?_)

theorem postCorrectedTo_kept {k a0 a1 a2} : Kept k a0 → Kept k (postCorrectedTo a0 a1 a2) := by
  intros; unfold postCorrectedTo; try dsimp only
  repeat' (with_reducible first | assumption | (simp only [kept_mk]; refine Kept.re ?_ rfl rfl rfl rfl rfl rfl rfl rfl rfl rfl rfl rfl rfl) | apply postEvent_kept | rfl | split | (intro) | refine from_fst (by assumption) ?_ | refine from_snd (by assumption) ?_)

theorem setCtx_kept {k a0 a1 a2} : Kept k a0 → Kept k (setCtx a0 a1 a2) := by
  intros; unfold setCtx; try dsimp only
  repeat' (with_reducible first | assumption | apply State.modWork_kept | rfl | split | (intro))

theorem modCtx_kept {k a0 a1 a2} : Kept k a0 → Kept k (modCtx a0 a1 a2) := by
  intros; unfold modCtx; try dsimp only
  repeat' (with_reducible first | assumption | apply State.modWork_kept | rfl | split | (intro))

theorem setCmd_kept {k a0 a1 a2} : Kept k a0 → Kept k (setCmd a0 a1 a2) := by
  intros; unfold setCmd; try dsimp only
  repeat' (with_reducible first | assumption | apply State.modWork_kept | rfl | split | (intro))

theorem modCmd_kept {k a0 a1 a2} : Kept k a0 → Kept k (modCmd a0 a1 a2) := by
  intros; unfold modCmd; try dsimp only
  repeat' (with_reducible first | assumption | apply State.modWork_kept | rfl | split | (intro))

theorem modTile_kept {k a0 a1 a2} : Kept k a0 → Kept k (modTile a0 a1 a2) := by
  intros; unfold modTile; try dsimp only
  repeat' (with_reducible first | assumption | apply State.modWork_kept | rfl | split | (intro))

theorem modQueue_kept {k a0 a1 a2} : Kept k a0 → Kept k (modQueue a0 a1 a2) := by
  intros; unfold modQueue; try dsimp only
  repeat' (with_reducible first | assumption | apply State.modWork_kept | rfl | split | (intro))

theorem modObj_kept {k a0 a1 a2} : Kept k a0 → Kept k (modObj a0 a1 a2) := by
  intros; unfold modObj; try dsimp only
  repeat' (with_reducible first | assumption | apply State.modWork_kept | rfl | split | (intro))

theorem writeFault_kept {k a0 a1 a2} : Kept k a0 → Kept k (writeFault a0 a1 a2).1 := by
  intros; unfold writeFault; try dsimp only
  repeat' (with_reducible first | assumption | apply postEvent_kept | apply cmRecord_kept | apply setCtx_kept | apply foldl_kept | apply foldl_kept_fst | apply foldl_kept_snd | rfl | split | (intro) | refine from_fst (by assumption) ?_ | refine from_snd (by assumption) ?_)
grind_pattern writeFault_kept => (writeFault a0 a1 a2), Kept k a0

theorem faultCtx_kept {k a0 a1} : Kept k a0 → Kept k (faultCtx a0 a1) := by
  intros; unfold faultCtx; try dsimp only
  repeat' (with_reducible first | assumption | apply modCtx_kept | rfl | split | (intro))

theorem settleObj_kept {k a0 a1} : Kept k a0 → Kept k (settleObj a0 a1) := by
  intros; unfold settleObj; try dsimp only
  repeat' (with_reducible first | assumption | apply postEvent_kept | apply modObj_kept | rfl | split | (intro) | refine from_fst (by assumption) ?_ | refine from_snd (by assumption) ?_)

theorem settleObjs_kept {k a0 a1 a2} : Kept k a0 → Kept k (settleObjs a0 a1 a2) := by
  intros; unfold settleObjs; try dsimp only
  repeat' (with_reducible first | assumption | apply settleObj_kept | apply foldl_kept | rfl | split | (intro))

theorem writeFence_kept {k a0 a1 a2} : Kept k a0 → Kept k (writeFence a0 a1 a2) := by
  intros; unfold writeFence; try dsimp only
  repeat' (with_reducible first | assumption | apply cmWrite_kept | rfl | split | (intro) | refine from_fst (by assumption) ?_ | refine from_snd (by assumption) ?_)

theorem reachWait_kept {k a0 a1 a2 a3} : Kept k a0 → Kept k (reachWait a0 a1 a2 a3) := by
  intros; unfold reachWait; try dsimp only
  repeat' (with_reducible first | assumption | apply raiseVector_kept | apply postEvent_kept | rfl | split | (intro))

theorem serveWaits_kept {k a0 a1 a2} : Kept k a0 → Kept k (serveWaits a0 a1 a2) := by
  intros; unfold serveWaits; try dsimp only
  repeat' (with_reducible first | assumption | apply reachWait_kept | apply State.modWork_kept | apply foldl_kept | rfl | split | (intro))

theorem signalFenceKey_kept {k a0 a1 a2 a3} : Kept k a0 → Kept k (signalFenceKey a0 a1 a2 a3) := by
  intros; unfold signalFenceKey; try dsimp only
  repeat' (with_reducible first | assumption | apply State.modWork_kept | apply writeFence_kept | apply serveWaits_kept | rfl | split | (intro) | refine from_fst (by assumption) ?_ | refine from_snd (by assumption) ?_)

theorem endWaits_kept {k a0 a1 a2} : Kept k a0 → Kept k (endWaits a0 a1 a2) := by
  intros; unfold endWaits; try dsimp only
  repeat' (with_reducible first | assumption | apply reachWait_kept | apply State.modWork_kept | apply foldl_kept | rfl | split | (intro))

theorem settleFence_kept {k a0 a1} : Kept k a0 → Kept k (settleFence a0 a1) := by
  intros; unfold settleFence; try dsimp only
  repeat' (with_reducible first | assumption | apply State.modWork_kept | apply endWaits_kept | rfl | split | (intro) | refine from_fst (by assumption) ?_ | refine from_snd (by assumption) ?_)

theorem charge_kept {k a0 a1 a2 a3} : Kept k a0 → Kept k (charge a0 a1 a2 a3) := by
  intros; unfold charge; try dsimp only
  repeat' (with_reducible first | assumption | apply State.modWork_kept | rfl | split | (intro))

theorem tileEnergy_kept {k a0 a1} : Kept k a0 → Kept k (tileEnergy a0 a1) := by
  intros; unfold tileEnergy; try dsimp only
  repeat' (with_reducible first | assumption | (simp only [kept_mk]; refine Kept.re ?_ rfl rfl rfl rfl rfl rfl rfl rfl rfl rfl rfl rfl rfl) | apply State.fresh_kept | apply charge_kept | apply Pwr.setVol_cap | rfl | split | (intro) | refine from_fst (by assumption) ?_ | refine from_snd (by assumption) ?_)

theorem ledgerDrain_kept {k a0 a1 a2} : Kept k a0 → Kept k (ledgerDrain a0 a1 a2) := by fun_induction ledgerDrain <;> grind [kept_eq, goes_next, optAll_none, optAll_some, cmRecord_kept, State.modPart_kept]

theorem ledgerAppend_kept {k a0 a1 a2} : Kept k a0 → Kept k (ledgerAppend a0 a1 a2) := by
  intros; unfold ledgerAppend; try dsimp only
  repeat' (with_reducible first | assumption | apply ledgerDrain_kept | apply postEvent_kept | apply State.modPart_kept | rfl | split | (intro))

theorem jobRecord_kept {k a0 a1 a2} : Kept k a0 → Kept k (jobRecord a0 a1 a2) := by
  intros; unfold jobRecord; try dsimp only
  repeat' (with_reducible first | assumption | apply ledgerAppend_kept | apply State.modWork_kept | apply setCtx_kept | rfl | split | (intro) | refine from_fst (by assumption) ?_ | refine from_snd (by assumption) ?_)

theorem settleJob_kept {k a0 a1} : Kept k a0 → Kept k (settleJob a0 a1) := by
  intros; unfold settleJob; try dsimp only
  repeat' (with_reducible first | assumption | apply jobRecord_kept | rfl | split | (intro) | refine from_fst (by assumption) ?_ | refine from_snd (by assumption) ?_)

theorem writeCompletion_kept {k a0 a1 a2} : Kept k a0 → Kept k (writeCompletion a0 a1 a2) := by
  intros; unfold writeCompletion; try dsimp only
  repeat' (with_reducible first | assumption | apply raiseVector_kept | apply modQueue_kept | apply cmRecord_kept | rfl | split | (intro) | refine from_fst (by assumption) ?_ | refine from_snd (by assumption) ?_)

theorem signalOf_kept {k a0 a1 a2} : Kept k a0 → Kept k (signalOf a0 a1 a2) := by
  intros; unfold signalOf; try dsimp only
  repeat' (with_reducible first | assumption | apply signalFenceKey_kept | rfl | split | (intro))

theorem retireCmd_kept {k a0 a1 a2} : Kept k a0 → Kept k (retireCmd a0 a1 a2) := by
  intros; unfold retireCmd; try dsimp only
  repeat' (with_reducible first | assumption | apply settleFence_kept | apply settleJob_kept | apply State.modWork_kept | apply settleObjs_kept | apply foldl_kept | rfl | split | (intro))

theorem completeCmd_kept {k a0 a1 a2} : Kept k a0 → Kept k (completeCmd a0 a1 a2) := by
  intros; unfold completeCmd; try dsimp only
  repeat' (with_reducible first | assumption | apply signalOf_kept | apply writeCompletion_kept | apply State.modWork_kept | apply faultCtx_kept | apply retireCmd_kept | apply charge_kept | rfl | split | (intro) | refine from_fst (by assumption) ?_ | refine from_snd (by assumption) ?_)

theorem dropCmd_kept {k a0 a1} : Kept k a0 → Kept k (dropCmd a0 a1) := by
  intros; unfold dropCmd; try dsimp only
  repeat' (with_reducible first | assumption | apply signalOf_kept | apply retireCmd_kept | rfl | split | (intro) | refine from_fst (by assumption) ?_ | refine from_snd (by assumption) ?_)

theorem faultForCmd_kept {k a0 a1 a2} : Kept k a0 → Kept k (faultForCmd a0 a1 a2) := by
  intros; unfold faultForCmd; try dsimp only
  repeat' (with_reducible first | assumption | apply writeFault_kept | apply modCmd_kept | rfl | split | (intro) | refine from_fst (by assumption) ?_ | refine from_snd (by assumption) ?_)

theorem colophonChange_kept {k a0 a1} : Kept k a0 → Kept k (colophonChange a0 a1) := by
  intros; unfold colophonChange; try dsimp only
  repeat' (with_reducible first | assumption | (simp only [kept_mk]; refine Kept.re ?_ rfl rfl rfl rfl rfl rfl rfl rfl rfl rfl rfl rfl rfl) | apply postEvent_kept | apply foldl_kept | rfl | split | (intro))

theorem noteAlerts_kept {k a0} : Kept k a0 → Kept k (noteAlerts a0) := by
  intros; unfold noteAlerts; try dsimp only
  repeat' (with_reducible first | assumption | (simp only [kept_mk]; refine Kept.re ?_ rfl rfl rfl rfl rfl rfl rfl rfl rfl rfl rfl rfl rfl) | rfl | split | (intro))

theorem dsEvent_kept {k a0 a1 a2 a3} : Kept k a0 → Kept k (dsEvent a0 a1 a2 a3) := by
  intros; unfold dsEvent; try dsimp only
  repeat' (with_reducible first | assumption | (simp only [kept_mk]; refine Kept.re ?_ rfl rfl rfl rfl rfl rfl rfl rfl rfl rfl rfl rfl rfl) | apply postError_kept | rfl | split | (intro))

theorem dsFlag_kept {k a0 a1} : Kept k a0 → Kept k (dsFlag a0 a1) := by
  intros; unfold dsFlag; try dsimp only
  repeat' (with_reducible first | assumption | apply dsEvent_kept | rfl | split | (intro))

theorem setDsState_kept {k a0 a1} : Kept k a0 → Kept k (setDsState a0 a1) := by
  intros; unfold setDsState; try dsimp only
  repeat' (with_reducible first | assumption | (simp only [kept_mk]; refine Kept.re ?_ rfl rfl rfl rfl rfl rfl rfl rfl rfl rfl rfl rfl rfl) | apply dsEvent_kept | rfl | split | (intro))

theorem stepTo_kept {k a0 a1} : Kept k a0 → Kept k (stepTo a0 a1) := by
  intro h; unfold stepTo; apply dsFlag_kept; exact KeptOf.now_up h (Nat.le_max_left ..)

theorem correct_kept {k a0 a1} : Kept k a0 → Kept k (correct a0 a1) := by
  intros; unfold correct; try dsimp only
  repeat' (with_reducible first | assumption | (simp only [kept_mk]; refine Kept.re ?_ rfl rfl rfl rfl rfl rfl rfl rfl rfl rfl rfl rfl rfl) | apply stepTo_kept | rfl | split | (intro))

theorem setQuality_kept {k a0} : Kept k a0 → Kept k (setQuality a0) := by
  intros; unfold setQuality; try dsimp only
  repeat' (with_reducible first | assumption | (simp only [kept_mk]; refine Kept.re ?_ rfl rfl rfl rfl rfl rfl rfl rfl rfl rfl rfl rfl rfl) | rfl | split | (intro))

theorem countGood_kept {k a0 a1} : Kept k a0 → Kept k (countGood a0 a1) := by
  intros; unfold countGood; try dsimp only
  repeat' (with_reducible first | assumption | apply State.modPwr_kept | apply setDsState_kept | rfl | split | (intro))

theorem dsMeasure_kept {k a0 a1 a2} : Kept k a0 → Kept k (dsMeasure a0 a1 a2) := by
  intros; unfold dsMeasure; try dsimp only
  repeat' (with_reducible first | assumption | apply State.modPwr_kept | apply State.fresh_kept | apply countGood_kept | apply setQuality_kept | apply correct_kept | apply setDsState_kept | rfl | split | (intro))

theorem sourceLost_kept {k a0} : Kept k a0 → Kept k (sourceLost a0) := by
  intros; unfold sourceLost; try dsimp only
  repeat' (with_reducible first | assumption | (simp only [kept_mk]; refine Kept.re ?_ rfl rfl rfl rfl rfl rfl rfl rfl rfl rfl rfl rfl rfl) | apply setQuality_kept | apply setDsState_kept | rfl | split | (intro))

theorem chooseParent_kept {k a0} : Kept k a0 → Kept k (chooseParent a0) := by
  intros; unfold chooseParent; try dsimp only
  repeat' (with_reducible first | assumption | (simp only [kept_mk]; refine Kept.re ?_ rfl rfl rfl rfl rfl rfl rfl rfl rfl rfl rfl rfl rfl) | apply dsFlag_kept | apply sourceLost_kept | rfl | split | (intro) | refine from_fst (by assumption) ?_ | refine from_snd (by assumption) ?_)

theorem timeLinkLost_kept {k a0 a1} : Kept k a0 → Kept k (timeLinkLost a0 a1) := by
  intros; unfold timeLinkLost; try dsimp only
  repeat' (with_reducible first | assumption | (simp only [kept_mk]; refine Kept.re ?_ rfl rfl rfl rfl rfl rfl rfl rfl rfl rfl rfl rfl rfl) | apply chooseParent_kept | rfl | split | (intro))

theorem armedStep_kept {k a0 a1} : Kept k a0 → Kept k (armedStep a0 a1) := by
  intros; unfold armedStep; try dsimp only
  repeat' (with_reducible first | assumption | apply stepTo_kept | apply dsFlag_kept | rfl | split | (intro))

theorem syncPulse_kept {k a0 a1} : Kept k a0 → Kept k (syncPulse a0 a1) := by
  intros; unfold syncPulse; try dsimp only
  repeat' (with_reducible first | assumption | (simp only [kept_mk]; refine Kept.re ?_ rfl rfl rfl rfl rfl rfl rfl rfl rfl rfl rfl rfl rfl) | apply armedStep_kept | apply reach_kept | apply dsMeasure_kept | apply dsFlag_kept | rfl | split | (intro))

theorem takeTime_kept {k a0 a1 a2 a3} : Kept k a0 → Kept k (takeTime a0 a1 a2 a3) := by
  intros; unfold takeTime; try dsimp only
  repeat' (with_reducible first | assumption | (simp only [kept_mk]; refine Kept.re ?_ rfl rfl rfl rfl rfl rfl rfl rfl rfl rfl rfl rfl rfl) | apply armedStep_kept | apply dsMeasure_kept | apply chooseParent_kept | rfl | split | (intro))

theorem tick_kept {k a0} : Kept k a0 → Kept k (tick a0) := by
  intro h; unfold tick
  split
  · exact KeptOf.now_up h (Nat.le_succ _)
  split
  · exact KeptOf.now_up h (by dsimp only; omega)
  · exact h

theorem execSyncInLoss_kept {k a0} : Kept k a0 → Goes (Kept k) (execSyncInLoss a0) := by
  intros; unfold execSyncInLoss; try dsimp only
  repeat' (with_reducible first | assumption | (simp only [kept_mk]; refine Kept.re ?_ rfl rfl rfl rfl rfl rfl rfl rfl rfl rfl rfl rfl rfl) | apply Goes.of_next | apply reach_kept | apply sourceLost_kept | rfl | split | (intro) | refine from_fst (by assumption) ?_ | refine from_snd (by assumption) ?_)

theorem execSyncOutPulse_kept {k a0} : Kept k a0 → Goes (Kept k) (execSyncOutPulse a0) := by
  intros; unfold execSyncOutPulse; try dsimp only
  repeat' (with_reducible first | assumption | (simp only [kept_mk]; refine Kept.re ?_ rfl rfl rfl rfl rfl rfl rfl rfl rfl rfl rfl rfl rfl) | apply Goes.of_next | apply reach_kept | rfl | split | (intro) | refine from_fst (by assumption) ?_ | refine from_snd (by assumption) ?_)

theorem State.setShelver_kept {k a0 a1 a2} : Kept k a0 → Kept k (State.setShelver a0 a1 a2) := by
  intros; unfold State.setShelver; try dsimp only
  repeat' (with_reducible first | assumption | (simp only [kept_mk]; refine Kept.re ?_ rfl rfl rfl rfl rfl rfl rfl rfl rfl rfl rfl rfl rfl) | rfl | split | (intro))

theorem State.modShelver_kept {k a0 a1 a2} : Kept k a0 → Kept k (State.modShelver a0 a1 a2) := by
  intros; unfold State.modShelver; try dsimp only
  repeat' (with_reducible first | assumption | apply State.setShelver_kept | rfl | split | (intro))

theorem stackEvent_kept {k a0 a1 a2 a3 a4 a5} : Kept k a0 → Kept k (stackEvent a0 a1 a2 a3 a4 a5) := by
  intros; unfold stackEvent; try dsimp only
  repeat' (with_reducible first | assumption | apply postError_kept | apply State.modStack_kept | rfl | split | (intro))

theorem shEvent_kept {k a0 a1 a2 a3 a4 a5 a6} : Kept k a0 → Kept k (shEvent a0 a1 a2 a3 a4 a5 a6) := by
  intros; unfold shEvent; try dsimp only
  repeat' (with_reducible first | assumption | apply State.modShelver_kept | apply postError_kept | rfl | split | (intro))

theorem cardIsolated_kept {k a0 a1} : Kept k a0 → Kept k (cardIsolated a0 a1) := by
  intros; unfold cardIsolated; try dsimp only
  repeat' (with_reducible first | assumption | (simp only [kept_mk]; refine Kept.re ?_ rfl rfl rfl rfl rfl rfl rfl rfl rfl rfl rfl rfl rfl) | rfl | split | (intro) | refine from_fst (by assumption) ?_ | refine from_snd (by assumption) ?_)

theorem rawPut_kept {k a0 a1 a2} : Kept k a0 → Kept k (rawPut a0 a1 a2) := by
  intro h; unfold rawPut; exact State.modMem_dram h (fun w => Mem.wf_writeN w)

theorem poisonChunks_kept {k a0 a1} : Kept k a0 → Kept k (poisonChunks a0 a1) := by
  intros; unfold poisonChunks; try dsimp only
  repeat' (with_reducible first | assumption | apply State.modMem_kept | apply foldl_kept | rfl | split | (intro))

theorem logErr_kept {k a0 a1 a2} : Kept k a0 → Kept k (logErr a0 a1 a2) := by
  intros; unfold logErr; try dsimp only
  repeat' (with_reducible first | assumption | apply State.modStack_kept | rfl | split | (intro))

theorem readChunk_kept {k a0 a1 a2 a3} : Kept k a0 → Kept k (readChunk a0 a1 a2 a3).1 := by
  intros; unfold readChunk; try dsimp only
  repeat' (with_reducible first | assumption | apply logErr_kept | apply State.fresh_kept | apply stackEvent_kept | apply poisonChunks_kept | apply State.modStack_kept | rfl | split | (intro) | refine from_fst (by assumption) ?_ | refine from_snd (by assumption) ?_)
grind_pattern readChunk_kept => (readChunk a0 a1 a2 a3), Kept k a0

theorem readChunks_kept {k a0 a1 a2 a3} : Kept k a0 → Kept k (readChunks a0 a1 a2 a3).1 := by fun_induction readChunks <;> grind [kept_eq, goes_next, readChunk_kept]
grind_pattern readChunks_kept => (readChunks a0 a1 a2 a3), Kept k a0

theorem fetchBlock_kept {k a0 a1 a2 a3} : Kept k a0 → Kept k (fetchBlock a0 a1 a2 a3).1 := by
  intros; unfold fetchBlock; try dsimp only
  repeat' (with_reducible first | assumption | apply readChunks_kept | apply shEvent_kept | rfl | split | (intro) | refine from_fst (by assumption) ?_ | refine from_snd (by assumption) ?_)
grind_pattern fetchBlock_kept => (fetchBlock a0 a1 a2 a3), Kept k a0

theorem putBlock_kept {k a0 a1 a2 a3 a4} : Kept k a0 → Kept k (putBlock a0 a1 a2 a3 a4) := by
  intros; unfold putBlock; try dsimp only
  repeat' (with_reducible first | assumption | apply rawPut_kept | apply poisonChunks_kept | rfl | split | (intro) | refine from_fst (by assumption) ?_ | refine from_snd (by assumption) ?_)

theorem mirrorCopy_kept {k a0 a1 a2} : Kept k a0 → Kept k (mirrorCopy a0 a1 a2) := by
  intros; unfold mirrorCopy; try dsimp only
  repeat' (with_reducible first | assumption | apply rawPut_kept | apply fetchBlock_kept | apply putBlock_kept | apply poisonChunks_kept | rfl | split | (intro) | refine from_fst (by assumption) ?_ | refine from_snd (by assumption) ?_)

theorem mirrorBlock_kept {k a0 a1} : Kept k a0 → Kept k (mirrorBlock a0 a1) := by
  intros; unfold mirrorBlock; try dsimp only
  repeat' (with_reducible first | assumption | apply mirrorCopy_kept | apply foldl_kept | rfl | split | (intro) | refine from_fst (by assumption) ?_ | refine from_snd (by assumption) ?_)

theorem fetchLine_kept {k a0 a1 a2 a3} : Kept k a0 → Kept k (fetchLine a0 a1 a2 a3).1 := by
  intros; unfold fetchLine; try dsimp only
  repeat' (with_reducible first | assumption | apply readChunks_kept | apply fetchBlock_kept | rfl | split | (intro) | refine from_fst (by assumption) ?_ | refine from_snd (by assumption) ?_)
grind_pattern fetchLine_kept => (fetchLine a0 a1 a2 a3), Kept k a0

theorem putChunks_kept {k a0 a1 a2 a3 a4 a5} : Kept k a0 → Kept k (putChunks a0 a1 a2 a3 a4 a5) := by
  intro h; unfold putChunks
  apply foldl_kept h
  intro s i hs
  dsimp only
  have h2 : ∀ f : Memory → Memory, (s.mem.dram.wf = true → (f s.mem).dram.wf = true) → Kept k (s.modMem f) := fun f e => State.modMem_dram hs e
  repeat' (with_reducible first | assumption | apply poisonChunks_kept | apply rawPut_kept | split)
  all_goals exact h2 _ (fun w => Mem.wf_writeN w)

theorem storeLine_kept {k a0 a1 a2 a3 a4 a5} : Kept k a0 → Kept k (storeLine a0 a1 a2 a3 a4 a5) := by
  intros; unfold storeLine; try dsimp only
  repeat' (with_reducible first | assumption | apply rawPut_kept | apply putChunks_kept | apply mirrorBlock_kept | apply fetchBlock_kept | apply putBlock_kept | apply poisonChunks_kept | rfl | split | (intro) | refine from_fst (by assumption) ?_ | refine from_snd (by assumption) ?_)

theorem chargeGranules_kept {k a0 a1 a2 a3} : Kept k a0 → Kept k (chargeGranules a0 a1 a2 a3) := by
  intros; unfold chargeGranules; try dsimp only
  repeat' (with_reducible first | assumption | apply State.modStack_kept | rfl | split | (intro))

theorem mscUse_kept {k a0 a1 a2} : Kept k a0 → Kept k (mscUse a0 a1 a2) := by
  intros; unfold mscUse; try dsimp only
  repeat' (with_reducible first | assumption | apply State.modMem_kept | rfl | split | (intro))

theorem setMscLine_kept {k a0 a1 a2} : Kept k a0 → Kept k (setMscLine a0 a1 a2) := by
  intros; unfold setMscLine; try dsimp only
  repeat' (with_reducible first | assumption | apply State.modMem_kept | rfl | split | (intro))

theorem writeBackBlock_kept {k a0 a1 a2 a3} : Kept k a0 → Kept k (writeBackBlock a0 a1 a2 a3) := by
  intros; unfold writeBackBlock; try dsimp only
  repeat' (with_reducible first | assumption | apply chargeGranules_kept | apply mirrorBlock_kept | apply fetchBlock_kept | apply setMscLine_kept | apply putBlock_kept | apply foldl_kept | apply foldl_kept_fst | apply foldl_kept_snd | rfl | split | (intro) | refine from_fst (by assumption) ?_ | refine from_snd (by assumption) ?_)

theorem writeBackLine_kept {k a0 a1 a2} : Kept k a0 → Kept k (writeBackLine a0 a1 a2) := by
  intros; unfold writeBackLine; try dsimp only
  repeat' (with_reducible first | assumption | apply chargeGranules_kept | apply storeLine_kept | apply setMscLine_kept | apply writeBackBlock_kept | rfl | split | (intro) | refine from_fst (by assumption) ?_ | refine from_snd (by assumption) ?_)

theorem mscDrop_kept {k a0 a1} : Kept k a0 → Kept k (mscDrop a0 a1) := by
  intros; unfold mscDrop; try dsimp only
  repeat' (with_reducible first | assumption | apply State.modMem_kept | rfl | split | (intro))

theorem mscPlace_kept {k a0 a1 a2 a3} : Kept k a0 → Kept k (mscPlace a0 a1 a2 a3) := by
  intros; unfold mscPlace; try dsimp only
  repeat' (with_reducible first | assumption | apply setMscLine_kept | apply mscDrop_kept | apply mscUse_kept | apply writeBackLine_kept | rfl | split | (intro) | refine from_fst (by assumption) ?_ | refine from_snd (by assumption) ?_)

theorem fillLine_kept {k a0 a1 a2 a3 a4 a5} : Kept k a0 → Kept k (fillLine a0 a1 a2 a3 a4 a5) := by
  intros; unfold fillLine; try dsimp only
  repeat' (with_reducible first | assumption | apply mscPlace_kept | apply State.modMem_kept | rfl | split | (intro))

theorem mscRead_kept {k a0 a1 a2 a3 a4} : Kept k a0 → Kept k (mscRead a0 a1 a2 a3 a4).1 := by
  intros; unfold mscRead; try dsimp only
  repeat' (with_reducible first | assumption | apply chargeGranules_kept | apply fillLine_kept | apply fetchBlock_kept | apply mscUse_kept | apply fetchLine_kept | apply foldl_kept | apply foldl_kept_fst | apply foldl_kept_snd | rfl | split | (intro) | refine from_fst (by assumption) ?_ | refine from_snd (by assumption) ?_)
grind_pattern mscRead_kept => (mscRead a0 a1 a2 a3 a4), Kept k a0

theorem mscWrite_kept {k a0 a1 a2 a3 a4 a5 a6} : Kept k a0 → Kept k (mscWrite a0 a1 a2 a3 a4 a5 a6) := by
  intros; unfold mscWrite; try dsimp only
  repeat' (with_reducible first | assumption | apply chargeGranules_kept | apply storeLine_kept | apply mscPlace_kept | apply fillLine_kept | apply State.modMem_kept | apply fetchLine_kept | rfl | split | (intro) | refine from_fst (by assumption) ?_ | refine from_snd (by assumption) ?_)

theorem refuseRequest_kept {k a0 a1 a2 a3 a4} : Kept k a0 → Kept k (refuseRequest a0 a1 a2 a3 a4) := by
  intros; unfold refuseRequest; try dsimp only
  repeat' (with_reducible first | assumption | apply stackEvent_kept | rfl | split | (intro))

theorem requestCheck_kept {k a0 a1 a2} : Kept k a0 → ExAll (fun x => Kept k x) (fun _ => True) (requestCheck a0 a1 a2) := by
  intros; unfold requestCheck; try dsimp only
  repeat' (with_reducible first | assumption | apply refuseRequest_kept | rfl | split | (intro) | refine from_fst (by assumption) ?_ | refine from_snd (by assumption) ?_)
  all_goals grind [kept_eq, goes_next, optAll_none, optAll_some, exAll_ok, exAll_error, refuseRequest_kept]
grind_pattern requestCheck_kept => (requestCheck a0 a1 a2), Kept k a0

theorem l1Put_kept {k a0 a1 a2 a3} : Kept k a0 → Kept k (l1Put a0 a1 a2 a3) := by
  intros; unfold l1Put; try dsimp only
  repeat' (with_reducible first | assumption | apply State.modCore_kept | rfl | split | (intro))

theorem l1Drop_kept {k a0 a1 a2} : Kept k a0 → Kept k (l1Drop a0 a1 a2) := by
  intros; unfold l1Drop; try dsimp only
  repeat' (with_reducible first | assumption | apply State.modCore_kept | rfl | split | (intro))

theorem setDir_kept {k a0 a1 a2} : Kept k a0 → Kept k (setDir a0 a1 a2) := by
  intros; unfold setDir; try dsimp only
  repeat' (with_reducible first | assumption | apply State.modMem_kept | rfl | split | (intro))

theorem delDir_kept {k a0 a1} : Kept k a0 → Kept k (delDir a0 a1) := by
  intros; unfold delDir; try dsimp only
  repeat' (with_reducible first | assumption | apply State.modMem_kept | rfl | split | (intro))

theorem l1Answer_kept {k a0 a1 a2 a3} : Kept k a0 → Kept k (l1Answer a0 a1 a2 a3).1 := by
  intros; unfold l1Answer; try dsimp only
  repeat' (with_reducible first | assumption | apply l1Drop_kept | apply l1Put_kept | rfl | split | (intro) | refine from_fst (by assumption) ?_ | refine from_snd (by assumption) ?_)
grind_pattern l1Answer_kept => (l1Answer a0 a1 a2 a3), Kept k a0

theorem homeWrite_kept {k a0 a1 a2 a3 a4} : Kept k a0 → Kept k (homeWrite a0 a1 a2 a3 a4) := by
  intros; unfold homeWrite; try dsimp only
  repeat' (with_reducible first | assumption | apply mscWrite_kept | rfl | split | (intro))

theorem farPerform_kept {k a0 a1 a2 a3 a4 a5 a6 a7} : Kept k a0 → Kept k (farPerform a0 a1 a2 a3 a4 a5 a6 a7).1 := by
  intros; unfold farPerform; try dsimp only
  repeat' (with_reducible first | assumption | apply mscWrite_kept | apply State.modStack_kept | apply mscRead_kept | rfl | split | (intro) | refine from_fst (by assumption) ?_ | refine from_snd (by assumption) ?_)
grind_pattern farPerform_kept => (farPerform a0 a1 a2 a3 a4 a5 a6 a7), Kept k a0

theorem setTxn_kept {k a0 a1 a2} : Kept k a0 → Kept k (setTxn a0 a1 a2) := by
  intros; unfold setTxn; try dsimp only
  repeat' (with_reducible first | assumption | apply State.modMem_kept | rfl | split | (intro))

theorem delTxn_kept {k a0 a1} : Kept k a0 → Kept k (delTxn a0 a1) := by
  intros; unfold delTxn; try dsimp only
  repeat' (with_reducible first | assumption | apply State.modMem_kept | rfl | split | (intro))

theorem pushGrant_kept {k a0 a1} : Kept k a0 → Kept k (pushGrant a0 a1) := by
  intros; unfold pushGrant; try dsimp only
  repeat' (with_reducible first | assumption | apply State.modMem_kept | rfl | split | (intro))

theorem txnData_kept {k a0 a1 a2 a3} : Kept k a0 → Kept k (txnData a0 a1 a2 a3).1 := by
  intros; unfold txnData; try dsimp only
  repeat' (with_reducible first | assumption | apply mscRead_kept | rfl | split | (intro) | refine from_fst (by assumption) ?_ | refine from_snd (by assumption) ?_)
grind_pattern txnData_kept => (txnData a0 a1 a2 a3), Kept k a0

theorem finishTxn_kept {k a0 a1} : Kept k a0 → Kept k (finishTxn a0 a1) := by
  intros; unfold finishTxn; try dsimp only
  repeat' (with_reducible first | assumption | apply txnData_kept | apply farPerform_kept | apply delDir_kept | apply pushGrant_kept | apply delTxn_kept | apply setDir_kept | apply homeWrite_kept | apply State.modMem_kept | apply State.modOt_kept | apply State.modStack_kept | rfl | split | (intro) | refine from_fst (by assumption) ?_ | refine from_snd (by assumption) ?_)

theorem takeAnswer_kept {k a0 a1} : Kept k a0 → Kept k (takeAnswer a0 a1) := by
  intros; unfold takeAnswer; try dsimp only
  repeat' (with_reducible first | assumption | apply finishTxn_kept | apply setTxn_kept | rfl | split | (intro) | refine from_fst (by assumption) ?_ | refine from_snd (by assumption) ?_)

theorem serve_kept {k a0 a1 a2 a3 a4 a5} : Kept k a0 → Kept k (serve a0 a1 a2 a3 a4 a5) := by
  intros; unfold serve; try dsimp only
  repeat' (with_reducible first | assumption | apply reach_kept | apply finishTxn_kept | apply setTxn_kept | apply takeAnswer_kept | apply l1Answer_kept | apply State.modMem_kept | apply foldl_kept | apply foldl_kept_fst | apply foldl_kept_snd | rfl | split | (intro) | refine from_fst (by assumption) ?_ | refine from_snd (by assumption) ?_)

theorem recallEntry_kept {k a0 a1 a2 a3} : Kept k a0 → Kept k (recallEntry a0 a1 a2 a3) := by
  intros; unfold recallEntry; try dsimp only
  repeat' (with_reducible first | assumption | apply serve_kept | apply State.modStack_kept | rfl | split | (intro) | refine from_fst (by assumption) ?_ | refine from_snd (by assumption) ?_)

theorem homeRequest_kept {k a0 a1 a2 a3 a4 a5 a6} : Kept k a0 → Kept k (homeRequest a0 a1 a2 a3 a4 a5 a6) := by
  intros; unfold homeRequest; try dsimp only
  repeat' (with_reducible first | assumption | apply recallEntry_kept | apply setDir_kept | apply State.modMem_kept | apply serve_kept | rfl | split | (intro) | refine from_fst (by assumption) ?_ | refine from_snd (by assumption) ?_)

theorem homeWriteback_kept {k a0 a1 a2 a3 a4 a5} : Kept k a0 → Kept k (homeWriteback a0 a1 a2 a3 a4 a5) := by
  intros; unfold homeWriteback; try dsimp only
  repeat' (with_reducible first | assumption | apply delDir_kept | apply takeAnswer_kept | apply setDir_kept | apply homeWrite_kept | rfl | split | (intro) | refine from_fst (by assumption) ?_ | refine from_snd (by assumption) ?_)

theorem homeCleanEvict_kept {k a0 a1 a2} : Kept k a0 → Kept k (homeCleanEvict a0 a1 a2) := by
  intros; unfold homeCleanEvict; try dsimp only
  repeat' (with_reducible first | assumption | apply delDir_kept | apply setDir_kept | rfl | split | (intro) | refine from_fst (by assumption) ?_ | refine from_snd (by assumption) ?_)

theorem outsideRead_kept {k a0 a1 a2} : Kept k a0 → Kept k (outsideRead a0 a1 a2).1 := by
  intros; unfold outsideRead; try dsimp only
  repeat' (with_reducible first | assumption | apply serve_kept | rfl | split | (intro) | refine from_fst (by assumption) ?_ | refine from_snd (by assumption) ?_)
grind_pattern outsideRead_kept => (outsideRead a0 a1 a2), Kept k a0

theorem outsideWrite_kept {k a0 a1 a2} : Kept k a0 → Kept k (outsideWrite a0 a1 a2).1 := by
  intros; unfold outsideWrite; try dsimp only
  repeat' (with_reducible first | assumption | apply State.modMem_kept | apply serve_kept | rfl | split | (intro) | refine from_fst (by assumption) ?_ | refine from_snd (by assumption) ?_)
grind_pattern outsideWrite_kept => (outsideWrite a0 a1 a2), Kept k a0

theorem prepare_kept {k a0 a1 a2 a3} : Kept k a0 → Got.All (Kept k) (prepare a0 a1 a2 a3) := by fun_induction prepare <;> grind [kept_eq, goes_next, exAll_ok, exAll_error, requestCheck_kept, outsideWrite_kept, outsideRead_kept, Got.all_ok, Got.all_wait, Got.all_bad]
grind_pattern prepare_kept => (prepare a0 a1 a2 a3), Kept k a0

theorem takeBytes_kept {k a0 a1 a2 a3 a4} : Kept k a0 → Kept k (takeBytes a0 a1 a2 a3 a4).1 := by fun_induction takeBytes <;> grind [kept_eq, goes_next, optAll_none, optAll_some, State.modMem_kept, mscRead_kept]
grind_pattern takeBytes_kept => (takeBytes a0 a1 a2 a3 a4), Kept k a0

theorem putBytes_kept {k a0 a1 a2 a3 a4 a5} : Kept k a0 → Kept k (putBytes a0 a1 a2 a3 a4 a5) := by fun_induction putBytes <;> grind [kept_eq, goes_next, mscWrite_kept]

theorem engineRead_kept {k a0 a1 a2 a3 a4 a5} : Kept k a0 → Got.All (Kept k) (engineRead a0 a1 a2 a3 a4 a5) := by
  intros; unfold engineRead; try dsimp only
  repeat' (with_reducible first | assumption | apply Got.of_ok | apply Got.of_wait | apply Got.of_bad | apply takeBytes_kept | apply prepare_kept | rfl | split | (intro) | exact Got.to_ok (by assumption) | refine Got.from_ok (by assumption) ?_ | exact Got.to_wait (by assumption) | refine Got.from_wait (by assumption) ?_ | exact Got.to_bad (by assumption) | refine Got.from_bad (by assumption) ?_ | refine from_fst (by assumption) ?_ | refine from_snd (by assumption) ?_)
grind_pattern engineRead_kept => (engineRead a0 a1 a2 a3 a4 a5), Kept k a0

theorem engineWrite_kept {k a0 a1 a2 a3 a4 a5} : Kept k a0 → Got.All (Kept k) (engineWrite a0 a1 a2 a3 a4 a5) := by
  intros; unfold engineWrite; try dsimp only
  repeat' (with_reducible first | assumption | apply Got.of_ok | apply Got.of_wait | apply Got.of_bad | apply putBytes_kept | apply prepare_kept | rfl | split | (intro) | exact Got.to_ok (by assumption) | refine Got.from_ok (by assumption) ?_ | exact Got.to_wait (by assumption) | refine Got.from_wait (by assumption) ?_ | exact Got.to_bad (by assumption) | refine Got.from_bad (by assumption) ?_ | refine from_fst (by assumption) ?_ | refine from_snd (by assumption) ?_)
grind_pattern engineWrite_kept => (engineWrite a0 a1 a2 a3 a4 a5), Kept k a0

theorem regRead_kept {k a0 a1 a2} : Kept k a0 → Got.All (Kept k) (regRead a0 a1 a2) := by
  intros; unfold regRead; try dsimp only
  repeat' (with_reducible first | assumption | apply engineRead_kept | rfl | split | (intro))
grind_pattern regRead_kept => (regRead a0 a1 a2), Kept k a0

theorem cohEvent_kept {k a0 a1 a2 a3 a4 a5 a6} : Kept k a0 → Kept k (cohEvent a0 a1 a2 a3 a4 a5 a6) := by
  intros; unfold cohEvent; try dsimp only
  repeat' (with_reducible first | assumption | apply postError_kept | apply State.modStack_kept | rfl | split | (intro))

theorem poisonLine_kept {k a0 a1 a2} : Kept k a0 → Kept k (poisonLine a0 a1 a2) := by
  intros; unfold poisonLine; try dsimp only
  repeat' (with_reducible first | assumption | apply cohEvent_kept | apply homeWrite_kept | apply mscRead_kept | rfl | split | (intro) | refine from_fst (by assumption) ?_ | refine from_snd (by assumption) ?_)

theorem dropAgent_kept {k a0 a1 a2} : Kept k a0 → Kept k (dropAgent a0 a1 a2) := by
  intros; unfold dropAgent; try dsimp only
  repeat' (with_reducible first | assumption | apply poisonLine_kept | apply delDir_kept | apply takeAnswer_kept | apply setDir_kept | apply foldl_kept | apply foldl_kept_fst | apply foldl_kept_snd | rfl | split | (intro))

theorem fenceAgent_kept {k a0 a1} : Kept k a0 → Kept k (fenceAgent a0 a1) := by
  intros; unfold fenceAgent; try dsimp only
  repeat' (with_reducible first | assumption | apply cohEvent_kept | apply State.modCore_kept | apply dropAgent_kept | apply foldl_kept | apply foldl_kept_fst | apply foldl_kept_snd | rfl | split | (intro) | refine from_fst (by assumption) ?_ | refine from_snd (by assumption) ?_)

theorem flushL1_kept {k a0 a1} : Kept k a0 → Kept k (flushL1 a0 a1) := by
  intros; unfold flushL1; try dsimp only
  repeat' (with_reducible first | assumption | apply l1Drop_kept | apply homeCleanEvict_kept | apply homeWriteback_kept | apply foldl_kept | apply foldl_kept_fst | apply foldl_kept_snd | rfl | split | (intro))

theorem freeRange_kept {k a0 a1 a2 a3} : Kept k a0 → Kept k (freeRange a0 a1 a2 a3) := by
  intros; unfold freeRange; try dsimp only
  repeat' (with_reducible first | assumption | (simp only [kept_mk]; refine Kept.re ?_ rfl rfl rfl rfl rfl rfl rfl rfl rfl rfl rfl rfl rfl) | apply State.modBay_kept | apply State.modMx_kept | apply foldl_kept | rfl | split | (intro))

theorem freeCells_kept {k a0 a1 a2 a3 a4} : Kept k a0 → Kept k (freeCells a0 a1 a2 a3 a4) := by
  intros; unfold freeCells; try dsimp only
  repeat' (with_reducible first | assumption | (simp only [kept_mk]; refine Kept.re ?_ rfl rfl rfl rfl rfl rfl rfl rfl rfl rfl rfl rfl rfl) | apply State.modMx_kept | apply foldl_kept | rfl | split | (intro))

theorem endRunning_kept {k a0 a1 a2} : Kept k a0 → Kept k (endRunning a0 a1 a2) := by
  intros; unfold endRunning; try dsimp only
  repeat' (with_reducible first | assumption | apply freeRange_kept | apply freeCells_kept | apply foldl_kept | rfl | split | (intro))

theorem mxFlush_kept {k a0 a1 a2} : Kept k a0 → Kept k (mxFlush a0 a1 a2) := by
  intros; unfold mxFlush; try dsimp only
  repeat' (with_reducible first | assumption | apply endRunning_kept | apply State.modMx_kept | rfl | split | (intro))

theorem mxReset_kept {k a0 a1 a2} : Kept k a0 → Kept k (mxReset a0 a1 a2) := by
  intros; unfold mxReset; try dsimp only
  repeat' (with_reducible first | assumption | apply endRunning_kept | apply State.modMx_kept | rfl | split | (intro))

theorem bayEvent_kept {k a0 a1 a2 a3 a4 a5} : Kept k a0 → Kept k (bayEvent a0 a1 a2 a3 a4 a5) := by
  intros; unfold bayEvent; try dsimp only
  repeat' (with_reducible first | assumption | apply State.modBay_kept | apply postError_kept | rfl | split | (intro))

theorem stopBay_kept {k a0 a1} : Kept k a0 → Kept k (stopBay a0 a1) := by
  intros; unfold stopBay; try dsimp only
  repeat' (with_reducible first | assumption | apply mxFlush_kept | apply State.modCore_kept | apply foldl_kept | rfl | split | (intro))

theorem freeTtb_kept {k a0 a1 a2} : Kept k a0 → Kept k (freeTtb a0 a1 a2) := by
  intros; unfold freeTtb; try dsimp only
  repeat' (with_reducible first | assumption | apply State.modBay_kept | rfl | split | (intro))

theorem leaveBay_kept {k a0 a1 a2} : Kept k a0 → Kept k (leaveBay a0 a1 a2) := by
  intros; unfold leaveBay; try dsimp only
  repeat' (with_reducible first | assumption | apply freeTtb_kept | apply tileEnergy_kept | apply State.modBay_kept | apply State.modMover_kept | apply State.modWork_kept | apply foldl_kept | rfl | split | (intro) | refine from_fst (by assumption) ?_ | refine from_snd (by assumption) ?_)

theorem endTile_kept {k a0 a1 a2 a3 a4 a5} : Kept k a0 → Kept k (endTile a0 a1 a2 a3 a4 a5) := by
  intros; unfold endTile; try dsimp only
  repeat' (with_reducible first | assumption | apply leaveBay_kept | apply stopBay_kept | apply modTile_kept | rfl | split | (intro) | refine from_fst (by assumption) ?_ | refine from_snd (by assumption) ?_)

theorem failTile_kept {k a0 a1 a2 a3 a4 a5} : Kept k a0 → Kept k (failTile a0 a1 a2 a3 a4 a5) := by
  intros; unfold failTile; try dsimp only
  repeat' (with_reducible first | assumption | apply endTile_kept | apply modTile_kept | rfl | split | (intro) | refine from_fst (by assumption) ?_ | refine from_snd (by assumption) ?_)

theorem trapCore_kept {k a0 a1 a2 a3 a4 a5} : Kept k a0 → Kept k (trapCore a0 a1 a2 a3 a4 a5) := by
  intros; unfold trapCore; try dsimp only
  repeat' (with_reducible first | assumption | (simp only [kept_mk]; refine Kept.re ?_ rfl rfl rfl rfl rfl rfl rfl rfl rfl rfl rfl rfl rfl) | apply State.setCore_kept | rfl | split | (intro))

theorem haltMover_kept {k a0 a1 a2 a3 a4 a5 a6 a7} : Kept k a0 → Kept k (haltMover a0 a1 a2 a3 a4 a5 a6 a7) := by
  intros; unfold haltMover; try dsimp only
  repeat' (with_reducible first | assumption | apply State.modMover_kept | rfl | split | (intro))

theorem moverFail_kept {k a0 a1 a2 a3 a4 a5 a6 a7 a8} : Kept k a0 → Kept k (moverFail a0 a1 a2 a3 a4 a5 a6 a7 a8) := by
  intros; unfold moverFail; try dsimp only
  repeat' (with_reducible first | assumption | apply haltMover_kept | apply failTile_kept | apply endTile_kept | apply postError_kept | rfl | split | (intro) | refine from_fst (by assumption) ?_ | refine from_snd (by assumption) ?_)

theorem beginBayReset_kept {k a0 a1} : Kept k a0 → Kept k (beginBayReset a0 a1) := by
  intros; unfold beginBayReset; try dsimp only
  repeat' (with_reducible first | assumption | (simp only [kept_mk]; refine Kept.re ?_ rfl rfl rfl rfl rfl rfl rfl rfl rfl rfl rfl rfl rfl) | apply flushL1_kept | apply State.modBay_kept | apply beginReset_kept | apply stopBay_kept | apply foldl_kept | rfl | split | (intro) | refine from_fst (by assumption) ?_ | refine from_snd (by assumption) ?_)

theorem drainOne_kept {k a0 a1} : Kept k a0 → Kept k (drainOne a0 a1) := by
  intros; unfold drainOne; try dsimp only
  repeat' (with_reducible first | assumption | apply State.modBay_kept | rfl | split | (intro))

theorem replayTile_kept {k a0 a1 a2} : Kept k a0 → Kept k (replayTile a0 a1 a2) := by
  intros; unfold replayTile; try dsimp only
  repeat' (with_reducible first | assumption | apply endTile_kept | rfl | split | (intro))

theorem fenceCore_kept {k a0 a1 a2 a3} : Kept k a0 → Kept k (fenceCore a0 a1 a2 a3) := by
  intros; unfold fenceCore; try dsimp only
  repeat' (with_reducible first | assumption | apply flushL1_kept | apply State.modBay_kept | apply endReset_kept | apply beginReset_kept | apply replayTile_kept | apply fenceAgent_kept | apply beginBayReset_kept | rfl | split | (intro) | refine from_fst (by assumption) ?_ | refine from_snd (by assumption) ?_)

theorem markBayDown_kept {k a0 a1} : Kept k a0 → Kept k (markBayDown a0 a1) := by
  intros; unfold markBayDown; try dsimp only
  repeat' (with_reducible first | assumption | (simp only [kept_mk]; refine Kept.re ?_ rfl rfl rfl rfl rfl rfl rfl rfl rfl rfl rfl rfl rfl) | rfl | split | (intro))

theorem tileRecord_kept {k a0 a1 a2 a3 a4} : Kept k a0 → Kept k (tileRecord a0 a1 a2 a3 a4).1 := by
  intros; unfold tileRecord; try dsimp only
  repeat' (with_reducible first | assumption | apply writeFault_kept | rfl | split | (intro))
grind_pattern tileRecord_kept => (tileRecord a0 a1 a2 a3 a4), Kept k a0

theorem hangRecord_kept {k a0 a1 a2 a3 a4 a5} : Kept k a0 → Kept k (hangRecord a0 a1 a2 a3 a4 a5).1 := by
  intros; unfold hangRecord; try dsimp only
  repeat' (with_reducible first | assumption | apply writeFault_kept | rfl | split | (intro))
grind_pattern hangRecord_kept => (hangRecord a0 a1 a2 a3 a4 a5), Kept k a0

theorem tileError_kept {k a0 a1 a2 a3 a4} : Kept k a0 → Kept k (tileError a0 a1 a2 a3 a4) := by
  intros; unfold tileError; try dsimp only
  repeat' (with_reducible first | assumption | apply postError_kept | rfl | split | (intro))

theorem tileFailure_kept {k a0 a1 a2 a3} : Kept k a0 → Kept k (tileFailure a0 a1 a2 a3).1 := by
  intros; unfold tileFailure; try dsimp only
  repeat' (with_reducible first | assumption | apply tileError_kept | apply tileRecord_kept | rfl | split | (intro))
grind_pattern tileFailure_kept => (tileFailure a0 a1 a2 a3), Kept k a0

theorem finishTile_kept {k a0 a1 a2} : Kept k a0 → Kept k (finishTile a0 a1 a2) := by
  intros; unfold finishTile; try dsimp only
  repeat' (with_reducible first | assumption | apply hangRecord_kept | apply tileError_kept | apply tileFailure_kept | apply modCmd_kept | apply charge_kept | rfl | split | (intro) | refine from_fst (by assumption) ?_ | refine from_snd (by assumption) ?_)

theorem isolateCmd_kept {k a0 a1 a2} : Kept k a0 → Kept k (isolateCmd a0 a1 a2) := by
  intros; unfold isolateCmd; try dsimp only
  repeat' (with_reducible first | assumption | apply completeCmd_kept | apply finishTile_kept | apply foldl_kept | rfl | split | (intro) | refine from_fst (by assumption) ?_ | refine from_snd (by assumption) ?_)

theorem settleCmd_kept {k a0 a1} : Kept k a0 → Kept k (settleCmd a0 a1) := by
  intros; unfold settleCmd; try dsimp only
  repeat' (with_reducible first | assumption | apply isolateCmd_kept | apply completeCmd_kept | rfl | split | (intro) | refine from_fst (by assumption) ?_ | refine from_snd (by assumption) ?_)

theorem settleCmds_kept {k a0} : Kept k a0 → Kept k (settleCmds a0) := by
  intros; unfold settleCmds; try dsimp only
  repeat' (with_reducible first | assumption | apply settleCmd_kept | apply foldl_kept | apply foldl_kept_fst | apply foldl_kept_snd | rfl | split | (intro))

theorem fenceBay_kept {k a0 a1} : Kept k a0 → Kept k (fenceBay a0 a1) := by
  intros; unfold fenceBay; try dsimp only
  repeat' (with_reducible first | assumption | apply markBayDown_kept | apply flushL1_kept | apply State.modBay_kept | apply colophonChange_kept | apply postError_kept | apply replayTile_kept | apply settleCmds_kept | apply foldl_kept | rfl | split | (intro))

end Sys2Proof.Machine
end

