-- ==== Sys2Proof/Laws/KeptMail.lean ====
section
/-! SUPPORT. What coherence, links, the mailbox and the Catalogue keep: `Kept` after each operation. -/

namespace Sys2Proof.Machine

set_option Elab.async false
set_option linter.all false

theorem otEvent_kept {k a0 a1 a2 a3 a4} : Kept k a0 → Kept k (otEvent a0 a1 a2 a3 a4) := by
  intros; unfold otEvent; try dsimp only
  repeat' (with_reducible first | assumption | apply postError_kept | apply State.modOt_kept | rfl | split | (intro))

theorem otSend_kept {k a0 a1} : Kept k a0 → Kept k (otSend a0 a1) := by
  intros; unfold otSend; try dsimp only
  repeat' (with_reducible first | assumption | apply State.modOt_kept | rfl | split | (intro))

theorem otRefuse_kept {k a0 a1 a2} : Kept k a0 → Kept k (otRefuse a0 a1 a2) := by
  intros; unfold otRefuse; try dsimp only
  repeat' (with_reducible first | assumption | apply otSend_kept | rfl | split | (intro))

theorem coherentCheck_kept {k a0 a1 a2} : Kept k a0 → ExAll (fun x => Kept k x) (fun _ => True) (coherentCheck a0 a1 a2) := by
  intros; unfold coherentCheck; try dsimp only
  repeat' (with_reducible first | assumption | apply otRefuse_kept | apply requestCheck_kept | apply otEvent_kept | apply refuseRequest_kept | rfl | split | (intro) | refine from_fst (by assumption) ?_ | refine from_snd (by assumption) ?_)
  all_goals grind [kept_eq, goes_next, optAll_none, optAll_some, exAll_ok, exAll_error, otRefuse_kept, requestCheck_kept, otEvent_kept, refuseRequest_kept]
grind_pattern coherentCheck_kept => (coherentCheck a0 a1 a2), Kept k a0

theorem presentRequest_kept {k a0 a1 a2 a3} : Kept k a0 → Kept k (presentRequest a0 a1 a2 a3) := by
  intros; unfold presentRequest; try dsimp only
  repeat' (with_reducible first | assumption | apply coherentCheck_kept | apply homeRequest_kept | rfl | split | (intro) | refine from_fst (by assumption) ?_ | refine from_snd (by assumption) ?_)
  all_goals grind [kept_eq, goes_next, exAll_ok, exAll_error, coherentCheck_kept, homeRequest_kept]

theorem execRdShared_kept {k a0 a1 a2} : Kept k a2 → Goes (Kept k) (execRdShared a0 a1 a2) := by
  intros; unfold execRdShared; try dsimp only
  repeat' (with_reducible first | assumption | apply Goes.of_next | apply presentRequest_kept | rfl | split | (intro))

theorem execRdOwn_kept {k a0 a1 a2} : Kept k a2 → Goes (Kept k) (execRdOwn a0 a1 a2) := by
  intros; unfold execRdOwn; try dsimp only
  repeat' (with_reducible first | assumption | apply Goes.of_next | apply presentRequest_kept | rfl | split | (intro))

theorem execUpgrade_kept {k a0 a1 a2} : Kept k a2 → Goes (Kept k) (execUpgrade a0 a1 a2) := by
  intros; unfold execUpgrade; try dsimp only
  repeat' (with_reducible first | assumption | apply Goes.of_next | apply presentRequest_kept | rfl | split | (intro))

theorem execWriteback_kept {k a0 a1 a2 a3 a4} : Kept k a4 → Goes (Kept k) (execWriteback a0 a1 a2 a3 a4) := by
  intros; unfold execWriteback; try dsimp only
  repeat' (with_reducible first | assumption | apply Goes.of_next | apply coherentCheck_kept | apply l1Drop_kept | apply otSend_kept | apply homeWriteback_kept | rfl | split | (intro) | refine from_fst (by assumption) ?_ | refine from_snd (by assumption) ?_)
  all_goals grind [kept_eq, goes_next, optAll_none, optAll_some, exAll_ok, exAll_error, coherentCheck_kept, l1Drop_kept, otSend_kept, homeWriteback_kept]

theorem execCleanEvict_kept {k a0 a1 a2} : Kept k a2 → Goes (Kept k) (execCleanEvict a0 a1 a2) := by
  intros; unfold execCleanEvict; try dsimp only
  repeat' (with_reducible first | assumption | apply Goes.of_next | apply coherentCheck_kept | apply l1Drop_kept | apply homeCleanEvict_kept | rfl | split | (intro) | refine from_fst (by assumption) ?_ | refine from_snd (by assumption) ?_)
  all_goals grind [kept_eq, goes_next, optAll_none, optAll_some, exAll_ok, exAll_error, coherentCheck_kept, l1Drop_kept, homeCleanEvict_kept]

theorem snoopArrives_kept {k a0 a1 a2 a3} : Kept k a0 → Kept k (snoopArrives a0 a1 a2 a3) := by
  intros; unfold snoopArrives; try dsimp only
  repeat' (with_reducible first | assumption | apply otSend_kept | apply takeAnswer_kept | apply l1Answer_kept | apply State.modMem_kept | rfl | split | (intro) | refine from_fst (by assumption) ?_ | refine from_snd (by assumption) ?_)

theorem execSnpShare_kept {k a0 a1 a2} : Kept k a2 → Goes (Kept k) (execSnpShare a0 a1 a2) := by
  intros; unfold execSnpShare; try dsimp only
  repeat' (with_reducible first | assumption | apply Goes.of_next | apply snoopArrives_kept | rfl | split | (intro))

theorem execSnpInv_kept {k a0 a1 a2} : Kept k a2 → Goes (Kept k) (execSnpInv a0 a1 a2) := by
  intros; unfold execSnpInv; try dsimp only
  repeat' (with_reducible first | assumption | apply Goes.of_next | apply snoopArrives_kept | rfl | split | (intro))

theorem execSnpData_kept {k a0 a1 a2} : Kept k a2 → Goes (Kept k) (execSnpData a0 a1 a2) := by
  intros; unfold execSnpData; try dsimp only
  repeat' (with_reducible first | assumption | apply Goes.of_next | apply snoopArrives_kept | rfl | split | (intro))

theorem execSnoopHoldExpire_kept {k a0 a1 a2} : Kept k a2 → Goes (Kept k) (execSnoopHoldExpire a0 a1 a2) := by
  intros; unfold execSnoopHoldExpire; try dsimp only
  repeat' (with_reducible first | assumption | apply Goes.of_next | apply reach_kept | apply State.modMem_kept | apply snoopArrives_kept | rfl | split | (intro) | refine from_fst (by assumption) ?_ | refine from_snd (by assumption) ?_)

theorem execSnpRsp_kept {k a0 a1 a2 a3 a4 a5} : Kept k a5 → Goes (Kept k) (execSnpRsp a0 a1 a2 a3 a4 a5) := by
  intros; unfold execSnpRsp; try dsimp only
  repeat' (with_reducible first | assumption | apply Goes.of_next | apply takeAnswer_kept | apply State.modMem_kept | rfl | split | (intro) | refine from_fst (by assumption) ?_ | refine from_snd (by assumption) ?_)

theorem installGrant_kept {k a0 a1} : Kept k a0 → Kept k (installGrant a0 a1) := by
  intros; unfold installGrant; try dsimp only
  repeat' (with_reducible first | assumption | apply l1Put_kept | rfl | split | (intro) | refine from_fst (by assumption) ?_ | refine from_snd (by assumption) ?_)

theorem execGrant_kept {k a0 a1 a2} : Kept k a2 → Goes (Kept k) (execGrant a0 a1 a2) := by
  intros; unfold execGrant; try dsimp only
  repeat' (with_reducible first | assumption | apply Goes.of_next | apply installGrant_kept | apply otSend_kept | apply State.modMem_kept | rfl | split | (intro) | refine from_fst (by assumption) ?_ | refine from_snd (by assumption) ?_)

theorem execFarAmo_kept {k a0 a1 a2 a3 a4 a5 a6 a7} : Kept k a7 → Goes (Kept k) (execFarAmo a0 a1 a2 a3 a4 a5 a6 a7) := by
  intros; unfold execFarAmo; try dsimp only
  repeat' (with_reducible first | assumption | apply Goes.of_next | apply coherentCheck_kept | apply homeRequest_kept | rfl | split | (intro) | refine from_fst (by assumption) ?_ | refine from_snd (by assumption) ?_)
  all_goals grind [kept_eq, goes_next, exAll_ok, exAll_error, coherentCheck_kept, homeRequest_kept]

theorem agentDown_kept {k a0 a1} : Kept k a0 → Kept k (agentDown a0 a1) := by
  intros; unfold agentDown; try dsimp only
  repeat' (with_reducible first | assumption | apply cohEvent_kept | apply dropAgent_kept | apply otEvent_kept | apply State.modOt_kept | apply foldl_kept | apply foldl_kept_fst | apply foldl_kept_snd | rfl | split | (intro))

theorem execSnoopDeadline_kept {k a0 a1} : Kept k a1 → Goes (Kept k) (execSnoopDeadline a0 a1) := by
  intros; unfold execSnoopDeadline; try dsimp only
  repeat' (with_reducible first | assumption | apply Goes.of_next | apply poisonLine_kept | apply cohEvent_kept | apply agentDown_kept | apply reach_kept | apply takeAnswer_kept | apply fenceCore_kept | apply State.modMem_kept | apply foldl_kept | rfl | split | (intro) | refine from_fst (by assumption) ?_ | refine from_snd (by assumption) ?_)

theorem execL1dFlushTimeout_kept {k a0 a1 a2} : Kept k a2 → Goes (Kept k) (execL1dFlushTimeout a0 a1 a2) := by
  intros; unfold execL1dFlushTimeout; try dsimp only
  repeat' (with_reducible first | assumption | apply Goes.of_next | apply reach_kept | apply fenceCore_kept | rfl | split | (intro))

theorem State.modFport_kept {k a0 a1 a2} : Kept k a0 → Kept k (State.modFport a0 a1 a2) := by
  intros; unfold State.modFport; try dsimp only
  repeat' (with_reducible first | assumption | apply State.modFab_kept | rfl | split | (intro))

theorem setLink_kept {k a0 a1 a2} : Kept k a0 → Kept k (setLink a0 a1 a2) := by
  intros; unfold setLink; try dsimp only
  repeat' (with_reducible first | assumption | apply State.modOt_kept | apply State.modFport_kept | rfl | split | (intro))

theorem modLink_kept {k a0 a1 a2} : Kept k a0 → Kept k (modLink a0 a1 a2) := by
  intros; unfold modLink; try dsimp only
  repeat' (with_reducible first | assumption | apply setLink_kept | rfl | split | (intro))

theorem linkEvent_kept {k a0 a1 a2} : Kept k a0 → Kept k (linkEvent a0 a1 a2) := by
  intros; unfold linkEvent; try dsimp only
  repeat' (with_reducible first | assumption | apply postError_kept | apply otEvent_kept | apply State.modFport_kept | rfl | split | (intro))

theorem fabEvent_kept {k a0 a1 a2} : Kept k a0 → Kept k (fabEvent a0 a1 a2) := by
  intros; unfold fabEvent; try dsimp only
  repeat' (with_reducible first | assumption | apply State.modFab_kept | apply postError_kept | rfl | split | (intro))

theorem enterTrain_kept {k a0 a1} : Kept k a0 → Kept k (enterTrain a0 a1) := by
  intros; unfold enterTrain; try dsimp only
  repeat' (with_reducible first | assumption | apply modLink_kept | apply State.modFport_kept | rfl | split | (intro))

theorem goDown_kept {k a0 a1} : Kept k a0 → Kept k (goDown a0 a1) := by
  intros; unfold goDown; try dsimp only
  repeat' (with_reducible first | assumption | apply timeLinkLost_kept | apply modLink_kept | apply linkEvent_kept | apply setLink_kept | apply enterTrain_kept | apply State.modOt_kept | apply State.modFport_kept | rfl | split | (intro))

theorem linkFail_kept {k a0 a1} : Kept k a0 → Kept k (linkFail a0 a1) := by
  intros; unfold linkFail; try dsimp only
  repeat' (with_reducible first | assumption | (simp only [kept_mk]; refine Kept.re ?_ rfl rfl rfl rfl rfl rfl rfl rfl rfl rfl rfl rfl rfl) | apply linkEvent_kept | apply dropAgent_kept | apply goDown_kept | apply State.modOt_kept | apply foldl_kept | rfl | split | (intro))

theorem execTrainDone_kept {k a0 a1 a2} : Kept k a2 → Goes (Kept k) (execTrainDone a0 a1 a2) := by
  intros; unfold execTrainDone; try dsimp only
  repeat' (with_reducible first | assumption | apply Goes.of_next | apply modLink_kept | apply setLink_kept | rfl | split | (intro))

theorem execAlignDone_kept {k a0 a1} : Kept k a1 → Goes (Kept k) (execAlignDone a0 a1) := by
  intros; unfold execAlignDone; try dsimp only
  repeat' (with_reducible first | assumption | apply Goes.of_next | apply modLink_kept | rfl | split | (intro))

theorem linkUp_kept {k a0 a1 a2} : Kept k a0 → Kept k (linkUp a0 a1 a2) := by
  intros; unfold linkUp; try dsimp only
  repeat' (with_reducible first | assumption | (simp only [kept_mk]; refine Kept.re ?_ rfl rfl rfl rfl rfl rfl rfl rfl rfl rfl rfl rfl rfl) | apply modLink_kept | apply linkEvent_kept | rfl | split | (intro))

theorem reissueCm_kept {k a0} : Kept k a0 → Kept k (reissueCm a0) := by
  intros; unfold reissueCm; try dsimp only
  repeat' (with_reducible first | assumption | apply settleIntr_kept | apply State.modOt_kept | rfl | split | (intro) | refine from_fst (by assumption) ?_ | refine from_snd (by assumption) ?_)

theorem execHandshakeDone_kept {k a0 a1 a2} : Kept k a2 → Goes (Kept k) (execHandshakeDone a0 a1 a2) := by
  intros; unfold execHandshakeDone; try dsimp only
  repeat' (with_reducible first | assumption | apply Goes.of_next | apply reissueCm_kept | apply linkEvent_kept | apply goDown_kept | apply State.modOt_kept | apply linkUp_kept | apply State.modFport_kept | rfl | split | (intro) | refine from_fst (by assumption) ?_ | refine from_snd (by assumption) ?_)

theorem execLinkStepLimit_kept {k a0 a1} : Kept k a1 → Goes (Kept k) (execLinkStepLimit a0 a1) := by
  intros; unfold execLinkStepLimit; try dsimp only
  repeat' (with_reducible first | assumption | apply Goes.of_next | apply reach_kept | apply goDown_kept | rfl | split | (intro))

theorem execHeldTimeout_kept {k a0 a1} : Kept k a1 → Goes (Kept k) (execHeldTimeout a0 a1) := by
  intros; unfold execHeldTimeout; try dsimp only
  repeat' (with_reducible first | assumption | apply Goes.of_next | apply reach_kept | apply enterTrain_kept | rfl | split | (intro))

theorem execOtRetrain_kept {k a0 a1} : Kept k a1 → Goes (Kept k) (execOtRetrain a0 a1) := by
  intros; unfold execOtRetrain; try dsimp only
  repeat' (with_reducible first | assumption | apply Goes.of_next | apply enterTrain_kept | rfl | split | (intro))

theorem execOtLaneFail_kept {k a0 a1 a2} : Kept k a2 → Goes (Kept k) (execOtLaneFail a0 a1 a2) := by
  intros; unfold execOtLaneFail; try dsimp only
  repeat' (with_reducible first | assumption | apply Goes.of_next | apply linkFail_kept | apply modLink_kept | rfl | split | (intro))

theorem linkSend_kept {k a0 a1 a2 a3} : Kept k a0 → Kept k (linkSend a0 a1 a2 a3) := by
  intros; unfold linkSend; try dsimp only
  repeat' (with_reducible first | assumption | apply modLink_kept | rfl | split | (intro))

theorem applyAck_kept {k a0 a1 a2} : Kept k a0 → Kept k (applyAck a0 a1 a2) := by
  intros; unfold applyAck; try dsimp only
  repeat' (with_reducible first | assumption | apply linkFail_kept | apply linkEvent_kept | apply setLink_kept | rfl | split | (intro) | refine from_fst (by assumption) ?_ | refine from_snd (by assumption) ?_)

theorem flitError_kept {k a0 a1 a2} : Kept k a0 → Kept k (flitError a0 a1 a2) := by
  intros; unfold flitError; try dsimp only
  repeat' (with_reducible first | assumption | apply linkFail_kept | apply setLink_kept | rfl | split | (intro))

theorem authFailure_kept {k a0 a1} : Kept k a0 → Kept k (authFailure a0 a1) := by
  intros; unfold authFailure; try dsimp only
  repeat' (with_reducible first | assumption | apply linkFail_kept | apply linkEvent_kept | apply setLink_kept | rfl | split | (intro) | refine from_fst (by assumption) ?_ | refine from_snd (by assumption) ?_)

theorem takeFlit_kept {k a0 a1 a2 a3} : Kept k a0 → Kept k (takeFlit a0 a1 a2 a3).1 := by
  intros; unfold takeFlit; try dsimp only
  repeat' (with_reducible first | assumption | apply modLink_kept | apply setLink_kept | apply applyAck_kept | apply flitError_kept | apply authFailure_kept | rfl | split | (intro) | refine from_fst (by assumption) ?_ | refine from_snd (by assumption) ?_)
grind_pattern takeFlit_kept => (takeFlit a0 a1 a2 a3), Kept k a0

theorem execDataFlit_kept {k a0 a1 a2} : Kept k a2 → Goes (Kept k) (execDataFlit a0 a1 a2) := by
  intros; unfold execDataFlit; try dsimp only
  repeat' (with_reducible first | assumption | apply Goes.of_next | apply takeFlit_kept | rfl | split | (intro))

theorem execCtrlFlit_kept {k a0 a1 a2} : Kept k a2 → Goes (Kept k) (execCtrlFlit a0 a1 a2) := by
  intros; unfold execCtrlFlit; try dsimp only
  repeat' (with_reducible first | assumption | apply Goes.of_next | apply takeFlit_kept | rfl | split | (intro))

theorem execIdleFlit_kept {k a0 a1 a2} : Kept k a2 → Goes (Kept k) (execIdleFlit a0 a1 a2) := by
  intros; unfold execIdleFlit; try dsimp only
  repeat' (with_reducible first | assumption | apply Goes.of_next | apply modLink_kept | apply applyAck_kept | rfl | split | (intro))

theorem execFlitCrcError_kept {k a0 a1 a2} : Kept k a2 → Goes (Kept k) (execFlitCrcError a0 a1 a2) := by
  intros; unfold execFlitCrcError; try dsimp only
  repeat' (with_reducible first | assumption | apply Goes.of_next | apply flitError_kept | rfl | split | (intro))

theorem execFrameAuthFail_kept {k a0 a1} : Kept k a1 → Goes (Kept k) (execFrameAuthFail a0 a1) := by
  intros; unfold execFrameAuthFail; try dsimp only
  repeat' (with_reducible first | assumption | apply Goes.of_next | apply authFailure_kept | rfl | split | (intro))

theorem execFlitSilence_kept {k a0 a1} : Kept k a1 → Goes (Kept k) (execFlitSilence a0 a1) := by
  intros; unfold execFlitSilence; try dsimp only
  repeat' (with_reducible first | assumption | apply Goes.of_next | apply reach_kept | apply linkFail_kept | rfl | split | (intro))

theorem execFecLockLoss_kept {k a0 a1} : Kept k a1 → Goes (Kept k) (execFecLockLoss a0 a1) := by
  intros; unfold execFecLockLoss; try dsimp only
  repeat' (with_reducible first | assumption | apply Goes.of_next | apply linkFail_kept | rfl | split | (intro))

theorem execKeyRollover_kept {k a0 a1} : Kept k a1 → Goes (Kept k) (execKeyRollover a0 a1) := by
  intros; unfold execKeyRollover; try dsimp only
  repeat' (with_reducible first | assumption | apply Goes.of_next | apply modLink_kept | rfl | split | (intro))

theorem mbRespond_kept {k a0 a1 a2 a3 a4 a5} : Kept k a0 → Kept k (mbRespond a0 a1 a2 a3 a4 a5) := by
  intros; unfold mbRespond; try dsimp only
  repeat' (with_reducible first | assumption | apply raiseVector_kept | apply State.modFn_kept | apply cmWrite_kept | apply foldl_kept | apply foldl_kept_fst | apply foldl_kept_snd | rfl | split | (intro))

theorem mbAnswer_kept {k a0 a1 a2 a3 a4 a5} : Kept k a0 → Kept k (mbAnswer a0 a1 a2 a3 a4 a5) := by
  intros; unfold mbAnswer; try dsimp only
  repeat' (with_reducible first | assumption | apply State.modFn_kept | apply mbRespond_kept | rfl | split | (intro))

theorem mbOk_kept {k a0 a1} : Kept k a0 → MbRes.All (Kept k) (mbOk a0 a1) := by
  intros; unfold mbOk; try dsimp only
  repeat' (with_reducible first | assumption | apply MbRes.of_done | rfl | split | (intro) | exact MbRes.to_done (by assumption) | refine MbRes.from_done (by assumption) ?_)
grind_pattern mbOk_kept => (mbOk a0 a1), Kept k a0

theorem mbFail_kept {k a0 a1 a2} : Kept k a0 → MbRes.All (Kept k) (mbFail a0 a1 a2) := by
  intros; unfold mbFail; try dsimp only
  repeat' (with_reducible first | assumption | apply MbRes.of_done | rfl | split | (intro) | exact MbRes.to_done (by assumption) | refine MbRes.from_done (by assumption) ?_)
grind_pattern mbFail_kept => (mbFail a0 a1 a2), Kept k a0

theorem mbKeep_kept {k a0 a1 a2} : Kept k a0 → Kept k (mbKeep a0 a1 a2) := by
  intros; unfold mbKeep; try dsimp only
  repeat' (with_reducible first | assumption | apply State.modFn_kept | rfl | split | (intro))

theorem mbCommand_kept {k a0 a1 a2 a3 a4 a5 a6} : Kept k a0 → (∀ y0 y1, Kept k y0 → MbRes.All (Kept k) (a5 y0 y1)) → (∀ y0 y1, Kept k y0 → MbRes.All (Kept k) (a6 y0 y1)) → Kept k (mbCommand a0 a1 a2 a3 a4 a5 a6) := by
  intros; unfold mbCommand; try dsimp only
  repeat' (with_reducible first | assumption | apply MbRes.of_done | apply MbRes.of_going | apply mbKeep_kept | apply mbAnswer_kept | rfl | split | (intro) | exact MbRes.to_done (by assumption) | refine MbRes.from_done (by assumption) ?_ | exact MbRes.to_going (by assumption) | refine MbRes.from_going (by assumption) ?_ | refine from_fst (by assumption) ?_ | refine from_snd (by assumption) ?_)
  all_goals grind [kept_eq, goes_next, optAll_none, optAll_some, mbKeep_kept, mbAnswer_kept, MbRes.all_done, MbRes.all_going]

theorem mbCommand_checked {k a0 a1 a2 a3 a4 a5 a6} : Kept k a0 → (∀ s f c, Kept k s → mbCheck s f c (a4 s c) = none → MbRes.All (Kept k) (a5 s c)) →
    (∀ s c, Kept k s → MbRes.All (Kept k) (a6 s c)) → Kept k (mbCommand a0 a1 a2 a3 a4 a5 a6) := by
  intros; unfold mbCommand; grind [kept_eq, mbKeep_kept, mbAnswer_kept, MbRes.all_done, MbRes.all_going]

theorem mbCheck_range {s f c x} (h : mbCheck s f c x = none) : x.range = true := by
  unfold mbCheck at h; grind

theorem mbFinish_kept {k a0 a1 a2 a3 a4 a5} : Kept k a0 → Kept k (mbFinish a0 a1 a2 a3 a4 a5) := by
  intros; unfold mbFinish; try dsimp only
  repeat' (with_reducible first | assumption | apply mbAnswer_kept | rfl | split | (intro) | refine from_fst (by assumption) ?_ | refine from_snd (by assumption) ?_)

theorem execMbDb_kept {k a0 a1 a2} : Kept k a2 → Goes (Kept k) (execMbDb a0 a1 a2) := by
  intros; unfold execMbDb; try dsimp only
  repeat' (with_reducible first | assumption | apply Goes.of_next | apply State.setFn_kept | rfl | split | (intro))

theorem execMailboxRead_kept {k a0 a1 a2} : Kept k a2 → Goes (Kept k) (execMailboxRead a0 a1 a2) := by
  intros; unfold execMailboxRead; try dsimp only
  repeat' (with_reducible first | assumption | apply Goes.of_next | apply mbAnswer_kept | apply State.setFn_kept | rfl | split | (intro))

theorem execMailboxDeadline_kept {k a0 a1} : Kept k a1 → Goes (Kept k) (execMailboxDeadline a0 a1) := by
  intros; unfold execMailboxDeadline; try dsimp only
  repeat' (with_reducible first | assumption | apply Goes.of_next | apply reach_kept | apply mbAnswer_kept | rfl | split | (intro) | refine from_fst (by assumption) ?_ | refine from_snd (by assumption) ?_)

theorem execMailboxFixedAnswer_kept {k a0 a1} : Kept k a1 → Goes (Kept k) (execMailboxFixedAnswer a0 a1) := by
  intros; unfold execMailboxFixedAnswer; try dsimp only
  repeat' (with_reducible first | assumption | apply Goes.of_next | apply reach_kept | apply mbRespond_kept | rfl | split | (intro) | refine from_fst (by assumption) ?_ | refine from_snd (by assumption) ?_)

theorem execHeartbeat_kept {k a0} : Kept k a0 → Goes (Kept k) (execHeartbeat a0) := by
  intros; unfold execHeartbeat; try dsimp only
  repeat' (with_reducible first | assumption | apply Goes.of_next | apply reach_kept | apply State.modFn_kept | apply foldl_kept | rfl | split | (intro))

theorem setIrqMask_kept {k a0 a1 a2} : Kept k a0 → Kept k (setIrqMask a0 a1 a2) := by
  intros; unfold setIrqMask; try dsimp only
  repeat' (with_reducible first | assumption | apply sendIntr_kept | apply State.setFn_kept | apply foldl_kept | rfl | split | (intro))

theorem holdLo_kept {k a0 a1 a2 a3} : Kept k a0 → Kept k (holdLo a0 a1 a2 a3) := by
  intros; unfold holdLo; try dsimp only
  repeat' (with_reducible first | assumption | (simp only [kept_mk]; refine Kept.re ?_ rfl rfl rfl rfl rfl rfl rfl rfl rfl rfl rfl rfl rfl) | rfl | split | (intro))

theorem execIrqMaskWrite_kept {k a0 a1 a2 a3} : Kept k a3 → Goes (Kept k) (execIrqMaskWrite a0 a1 a2 a3) := by
  intros; unfold execIrqMaskWrite; try dsimp only
  repeat' (with_reducible first | assumption | apply Goes.of_next | apply holdLo_kept | apply setIrqMask_kept | rfl | split | (intro))

theorem queueDbError_kept {k a0 a1 a2 a3} : Kept k a0 → Kept k (queueDbError a0 a1 a2 a3) := by
  intros; unfold queueDbError; try dsimp only
  repeat' (with_reducible first | assumption | apply postEvent_kept | apply State.modFn_kept | rfl | split | (intro))

theorem execCmdDb_kept {k a0 a1 a2 a3} : Kept k a3 → Goes (Kept k) (execCmdDb a0 a1 a2 a3) := by
  intros; unfold execCmdDb; try dsimp only
  repeat' (with_reducible first | assumption | apply Goes.of_next | apply modQueue_kept | apply queueDbError_kept | rfl | split | (intro) | refine from_fst (by assumption) ?_ | refine from_snd (by assumption) ?_)

theorem execCplDb_kept {k a0 a1 a2 a3} : Kept k a3 → Goes (Kept k) (execCplDb a0 a1 a2 a3) := by
  intros; unfold execCplDb; try dsimp only
  repeat' (with_reducible first | assumption | apply Goes.of_next | apply modQueue_kept | apply queueDbError_kept | rfl | split | (intro) | refine from_fst (by assumption) ?_ | refine from_snd (by assumption) ?_)

theorem walkFrom_kept {k a0 a1 a2 a3 a4 a5} : Kept k a0 → Walk.All (Kept k) (walkFrom a0 a1 a2 a3 a4 a5) := by fun_induction walkFrom <;> grind [kept_eq, goes_next, regRead_kept, Got.all_ok, Got.all_wait, Got.all_bad, Walk.all_leaf, Walk.all_fail, Walk.all_wait]
grind_pattern walkFrom_kept => (walkFrom a0 a1 a2 a3 a4 a5), Kept k a0

theorem modCat_kept {k a0 a1} : Kept k a0 → Kept k (modCat a0 a1) := by
  intros; unfold modCat; try dsimp only
  repeat' (with_reducible first | assumption | (simp only [kept_mk]; refine Kept.re ?_ rfl rfl rfl rfl rfl rfl rfl rfl rfl rfl rfl rfl rfl) | rfl | split | (intro))

theorem purgeRange_kept {k a0 a1 a2} : Kept k a0 → Kept k (purgeRange a0 a1 a2).1 := by
  intro h; unfold purgeRange
  have h2 : Kept k ((Tbl.keep a0.mem.dir (fun l _ => decide (a1 ≤ 128 * l) && decide (128 * l < a1 + a2))).foldl (fun s e => (outsideWrite s e.1 (partOfAddr s a1)).1) a0) :=
    foldl_kept h (fun s a hs => by first | exact outsideWrite_kept hs | exact (outsideWrite_kept hs).1)
  dsimp only
  split
  · exact h2
  · exact State.modMem_dram h2 (fun w => Mem.wf_clear w)
grind_pattern purgeRange_kept => (purgeRange a0 a1 a2), Kept k a0

theorem sealPages_kept {k a0 a1} : Kept k a0 → Kept k (sealPages a0 a1).1 := by
  intros; unfold sealPages; try dsimp only
  repeat' (with_reducible first | assumption | apply purgeRange_kept | apply State.modOt_kept | apply foldl_kept | apply foldl_kept_fst | apply foldl_kept_snd | rfl | split | (intro) | refine from_fst (by assumption) ?_ | refine from_snd (by assumption) ?_)
grind_pattern sealPages_kept => (sealPages a0 a1), Kept k a0

theorem installEntry_kept {k a0 a1} : Kept k a0 → Kept k (installEntry a0 a1) := by
  intros; unfold installEntry; try dsimp only
  repeat' (with_reducible first | assumption | apply modCat_kept | rfl | split | (intro) | refine from_fst (by assumption) ?_ | refine from_snd (by assumption) ?_)

theorem catHit_kept {k a0 a1 a2} : Kept k a0 → OptAll (fun x => Kept k x.2) (catHit a0 a1 a2) := by
  intros; unfold catHit; try dsimp only
  repeat' (with_reducible first | assumption | apply modCat_kept | rfl | split | (intro) | refine from_fst (by assumption) ?_ | refine from_snd (by assumption) ?_)
  all_goals grind [kept_eq, goes_next, optAll_none, optAll_some, modCat_kept]
grind_pattern catHit_kept => (catHit a0 a1 a2), Kept k a0

theorem catEvent_kept {k a0 a1 a2 a3} : Kept k a0 → Kept k (catEvent a0 a1 a2 a3) := by
  intros; unfold catEvent; try dsimp only
  repeat' (with_reducible first | assumption | apply modCat_kept | apply postError_kept | rfl | split | (intro) | refine from_fst (by assumption) ?_ | refine from_snd (by assumption) ?_)

theorem takeMiss_kept {k a0 a1 a2} : Kept k a0 → Kept k (takeMiss a0 a1 a2) := by
  intros; unfold takeMiss; try dsimp only
  repeat' (with_reducible first | assumption | apply modCat_kept | rfl | split | (intro) | refine from_fst (by assumption) ?_ | refine from_snd (by assumption) ?_)

theorem localKeep_kept {k a0 a1 a2} : Kept k a0 → Kept k (localKeep a0 a1 a2) := by
  intros; unfold localKeep; try dsimp only
  repeat' (with_reducible first | assumption | apply modCat_kept | rfl | split | (intro))

theorem lookup_kept {k a0 a1 a2} : Kept k a0 → Kept k (lookup a0 a1 a2).1 := by
  intros; unfold lookup; try dsimp only
  repeat' (with_reducible first | assumption | apply takeMiss_kept | apply modCat_kept | apply catHit_kept | rfl | split | (intro) | refine from_fst (by assumption) ?_ | refine from_snd (by assumption) ?_)
  all_goals grind [kept_eq, goes_next, optAll_none, optAll_some, takeMiss_kept, modCat_kept, catHit_kept]
grind_pattern lookup_kept => (lookup a0 a1 a2), Kept k a0

theorem lookupAll_kept {k a0 a1 a2} : Kept k a0 → Kept k (lookupAll a0 a1 a2).1 := by fun_induction lookupAll <;> grind [kept_eq, goes_next, optAll_none, optAll_some, lookup_kept]
grind_pattern lookupAll_kept => (lookupAll a0 a1 a2), Kept k a0

theorem noteTileSeq_kept {k a0 a1 a2} : Kept k a0 → Kept k (noteTileSeq a0 a1 a2) := by
  intros; unfold noteTileSeq; try dsimp only
  repeat' (with_reducible first | assumption | apply modTile_kept | rfl | split | (intro))

theorem failColl_kept {k a0 a1 a2 a3 a4} : Kept k a0 → Kept k (failColl a0 a1 a2 a3 a4) := by
  intros; unfold failColl; try dsimp only
  repeat' (with_reducible first | assumption | (simp only [kept_mk]; refine Kept.re ?_ rfl rfl rfl rfl rfl rfl rfl rfl rfl rfl rfl rfl rfl) | apply modCmd_kept | rfl | split | (intro) | refine from_fst (by assumption) ?_ | refine from_snd (by assumption) ?_)

theorem failWaiter_kept {k a0 a1 a2 a3} : Kept k a0 → Kept k (failWaiter a0 a1 a2 a3) := by
  intros; unfold failWaiter; try dsimp only
  repeat' (with_reducible first | assumption | apply State.modShelver_kept | apply moverFail_kept | apply noteTileSeq_kept | apply failColl_kept | apply trapCore_kept | rfl | split | (intro) | refine from_fst (by assumption) ?_ | refine from_snd (by assumption) ?_)

theorem holdWaiter_kept {k a0 a1 a2 a3} : Kept k a0 → Kept k (holdWaiter a0 a1 a2 a3) := by
  intros; unfold holdWaiter; try dsimp only
  repeat' (with_reducible first | assumption | apply haltMover_kept | apply State.modShelver_kept | apply State.modMover_kept | apply modTile_kept | rfl | split | (intro))

theorem postTranslation_kept {k a0 a1 a2 a3 a4 a5} : Kept k a0 → Kept k (postTranslation a0 a1 a2 a3 a4 a5) := by
  intros; unfold postTranslation; try dsimp only
  repeat' (with_reducible first | assumption | apply catEvent_kept | apply modCat_kept | apply failWaiter_kept | apply State.modWork_kept | apply writeFault_kept | apply holdWaiter_kept | apply foldl_kept | apply foldl_kept_fst | apply foldl_kept_snd | rfl | split | (intro) | refine from_fst (by assumption) ?_ | refine from_snd (by assumption) ?_)

theorem abortWaiter_kept {k a0 a1} : Kept k a0 → Kept k (abortWaiter a0 a1) := by
  intros; unfold abortWaiter; try dsimp only
  repeat' (with_reducible first | assumption | apply haltMover_kept | apply State.modShelver_kept | apply failTile_kept | apply failColl_kept | apply trapCore_kept | rfl | split | (intro))

theorem leaveMisses_kept {k a0 a1} : Kept k a0 → Kept k (leaveMisses a0 a1) := by
  intros; unfold leaveMisses; try dsimp only
  repeat' (with_reducible first | assumption | apply modCat_kept | rfl | split | (intro))

theorem settlePoint1_kept {k a0} : Kept k a0 → Kept k (settlePoint1 a0) := by
  intros; unfold settlePoint1; try dsimp only
  repeat' (with_reducible first | assumption | apply modCat_kept | rfl | split | (intro))

theorem missWalk_kept {k a0 a1 a2} : Kept k a0 → Walk.All (Kept k) (missWalk a0 a1 a2) := by
  intros; unfold missWalk; try dsimp only
  repeat' (with_reducible first | assumption | apply Walk.of_leaf | apply walkFrom_kept | rfl | split | (intro) | exact Walk.to_leaf (by assumption) | refine Walk.from_leaf (by assumption) ?_ | refine from_fst (by assumption) ?_ | refine from_snd (by assumption) ?_)
grind_pattern missWalk_kept => (missWalk a0 a1 a2), Kept k a0

theorem walkMiss_kept {k a0 a1} : Kept k a0 → Kept k (walkMiss a0 a1) := by
  intros; unfold walkMiss; try dsimp only
  repeat' (with_reducible first | assumption | apply Walk.of_leaf | apply Walk.of_fail | apply Walk.of_wait | apply abortWaiter_kept | apply settlePoint1_kept | apply missWalk_kept | apply modCtx_kept | apply modCat_kept | apply installEntry_kept | apply postTranslation_kept | apply sealPages_kept | apply leaveMisses_kept | apply foldl_kept | apply foldl_kept_fst | apply foldl_kept_snd | apply Walk.foldl_all | rfl | split | (intro) | exact Walk.to_leaf (by assumption) | refine Walk.from_leaf (by assumption) ?_ | exact Walk.to_fail (by assumption) | refine Walk.from_fail (by assumption) ?_ | exact Walk.to_wait (by assumption) | refine Walk.from_wait (by assumption) ?_ | refine from_fst (by assumption) ?_ | refine from_snd (by assumption) ?_)

theorem execCatalogueLookup_kept {k a0 a1 a2 a3 a4 a5} : Kept k a5 → Goes (Kept k) (execCatalogueLookup a0 a1 a2 a3 a4 a5) := by
  intros; unfold execCatalogueLookup; try dsimp only
  repeat' (with_reducible first | assumption | apply Goes.of_next | apply localKeep_kept | apply lookupAll_kept | apply foldl_kept | apply foldl_kept_fst | apply foldl_kept_snd | rfl | split | (intro) | refine from_fst (by assumption) ?_ | refine from_snd (by assumption) ?_)

theorem markDirty_kept {k a0 a1 a2 a3} : Kept k a0 → Kept k (markDirty a0 a1 a2 a3) := by
  intros; unfold markDirty; try dsimp only
  repeat' (with_reducible first | assumption | apply modCat_kept | rfl | split | (intro))

theorem dirtyBlock_kept {k a0 a1 a2} : Kept k a0 → Kept k (dirtyBlock a0 a1 a2) := by
  intros; unfold dirtyBlock; try dsimp only
  repeat' (with_reducible first | assumption | apply catEvent_kept | apply modCat_kept | apply markDirty_kept | apply cmWrite_kept | rfl | split | (intro) | refine from_fst (by assumption) ?_ | refine from_snd (by assumption) ?_)

theorem execDirty_kept {k a0 a1 a2} : Kept k a2 → Goes (Kept k) (execDirty a0 a1 a2) := by
  intros; unfold execDirty; try dsimp only
  repeat' (with_reducible first | assumption | apply Goes.of_next | apply dirtyBlock_kept | rfl | split | (intro))

theorem invalNow_kept {k a0 a1} : Kept k a0 → Kept k (invalNow a0 a1) := by
  intros; unfold invalNow; try dsimp only
  repeat' (with_reducible first | assumption | apply State.modBay_kept | apply modCat_kept | apply State.modMover_kept | apply foldl_kept | rfl | split | (intro))

theorem settleInvals_kept {k a0} : Kept k a0 → Kept k (settleInvals a0) := by
  intros; unfold settleInvals; try dsimp only
  repeat' (with_reducible first | assumption | apply modCat_kept | apply mbFinish_kept | apply foldl_kept | apply foldl_kept_fst | apply foldl_kept_snd | rfl | split | (intro))

theorem execMissFixedResume_kept {k a0 a1} : Kept k a1 → Goes (Kept k) (execMissFixedResume a0 a1) := by
  intros; unfold execMissFixedResume; try dsimp only
  repeat' (with_reducible first | assumption | apply Goes.of_next | apply reach_kept | apply walkMiss_kept | apply settleInvals_kept | rfl | split | (intro) | refine from_fst (by assumption) ?_ | refine from_snd (by assumption) ?_)

theorem dropSlot_kept {k a0 a1} : Kept k a0 → Kept k (dropSlot a0 a1) := by
  intros; unfold dropSlot; try dsimp only
  repeat' (with_reducible first | assumption | apply abortWaiter_kept | apply modCtx_kept | apply modCat_kept | apply invalNow_kept | apply foldl_kept | rfl | split | (intro))

theorem dropPartCat_kept {k a0 a1} : Kept k a0 → Kept k (dropPartCat a0 a1) := by
  intros; unfold dropPartCat; try dsimp only
  repeat' (with_reducible first | assumption | apply abortWaiter_kept | apply modCat_kept | apply invalNow_kept | apply foldl_kept | rfl | split | (intro))

theorem vPrepare_kept {k a0 a1 a2 a3} : Kept k a0 → Got.All (Kept k) (vPrepare a0 a1 a2 a3) := by
  intro h
  induction a3 generalizing a0 with
  | nil => unfold vPrepare; exact h
  | cons p rest ih =>
    unfold vPrepare; dsimp only
    repeat' (with_reducible first | assumption | apply Got.of_ok | apply Got.of_wait | apply Got.of_bad | apply ih | apply prepare_kept | apply Got.foldl_all | split | (intro) | exact Got.to_ok (by assumption) | refine Got.from_ok (by assumption) ?_ | refine Got.from_wait (by assumption) ?_ | refine Got.from_bad (by assumption) ?_)
grind_pattern vPrepare_kept => (vPrepare a0 a1 a2 a3), Kept k a0

theorem vTake_kept {k a0 a1 a2} : Kept k a0 → Kept k (vTake a0 a1 a2).1 := by fun_induction vTake <;> grind [kept_eq, goes_next, optAll_none, optAll_some, State.modMem_kept, mscRead_kept]
grind_pattern vTake_kept => (vTake a0 a1 a2), Kept k a0

theorem vPut_kept {k a0 a1 a2 a3} : Kept k a0 → Kept k (vPut a0 a1 a2 a3) := by fun_induction vPut <;> grind [kept_eq, goes_next, mscWrite_kept, foldl_kept]

theorem vDirty_kept {k a0 a1 a2 a3} : Kept k a0 → Kept k (vDirty a0 a1 a2 a3) := by
  intros; unfold vDirty; try dsimp only
  repeat' (with_reducible first | assumption | apply dirtyBlock_kept | apply foldl_kept | rfl | split | (intro))

theorem vRead_kept {k a0 a1 a2} : Kept k a0 → Got.All (Kept k) (vRead a0 a1 a2) := by
  intros; unfold vRead; try dsimp only
  repeat' (with_reducible first | assumption | apply Got.of_ok | apply Got.of_wait | apply Got.of_bad | apply vPrepare_kept | apply vTake_kept | rfl | split | (intro) | exact Got.to_ok (by assumption) | refine Got.from_ok (by assumption) ?_ | exact Got.to_wait (by assumption) | refine Got.from_wait (by assumption) ?_ | exact Got.to_bad (by assumption) | refine Got.from_bad (by assumption) ?_ | refine from_fst (by assumption) ?_ | refine from_snd (by assumption) ?_)
grind_pattern vRead_kept => (vRead a0 a1 a2), Kept k a0

theorem vWrite_kept {k a0 a1 a2 a3} : Kept k a0 → Got.All (Kept k) (vWrite a0 a1 a2 a3) := by
  intros; unfold vWrite; try dsimp only
  repeat' (with_reducible first | assumption | apply Got.of_ok | apply Got.of_wait | apply Got.of_bad | apply vPut_kept | apply vPrepare_kept | apply vDirty_kept | apply foldl_kept | apply foldl_kept_fst | apply foldl_kept_snd | apply Got.foldl_all | rfl | split | (intro) | exact Got.to_ok (by assumption) | refine Got.from_ok (by assumption) ?_ | exact Got.to_wait (by assumption) | refine Got.from_wait (by assumption) ?_ | exact Got.to_bad (by assumption) | refine Got.from_bad (by assumption) ?_ | refine from_fst (by assumption) ?_ | refine from_snd (by assumption) ?_)
grind_pattern vWrite_kept => (vWrite a0 a1 a2 a3), Kept k a0

end Sys2Proof.Machine
end

