-- ==== Sys2Proof/Laws/KeptMove.lean ====
section
/-! SUPPORT. What the fabric walk, stacks, movers, Bays and objects keep: `Kept` after each operation. -/

namespace Sys2Proof.Machine

set_option Elab.async false
set_option linter.all false

theorem routePacket_kept {k a0 a1 a2 a3} : Kept k a0 → Kept k (routePacket a0 a1 a2 a3) := by
  intros; unfold routePacket; try dsimp only
  repeat' (with_reducible first | assumption | apply fabEvent_kept | apply State.modFab_kept | apply linkSend_kept | rfl | split | (intro) | refine from_fst (by assumption) ?_ | refine from_snd (by assumption) ?_)

theorem injectPacket_kept {k a0 a1 a2} : Kept k a0 → Kept k (injectPacket a0 a1 a2) := by
  intros; unfold injectPacket; try dsimp only
  repeat' (with_reducible first | assumption | apply routePacket_kept | rfl | split | (intro))

theorem forwardPacket_kept {k a0 a1 a2} : Kept k a0 → Kept k (forwardPacket a0 a1 a2) := by
  intros; unfold forwardPacket; try dsimp only
  repeat' (with_reducible first | assumption | apply fabEvent_kept | apply State.modFab_kept | apply routePacket_kept | rfl | split | (intro))

theorem chargeTile_kept {k a0 a1 a2} : Kept k a0 → Kept k (chargeTile a0 a1 a2) := by
  intros; unfold chargeTile; try dsimp only
  repeat' (with_reducible first | assumption | apply charge_kept | rfl | split | (intro) | refine from_fst (by assumption) ?_ | refine from_snd (by assumption) ?_)

theorem sendRequest_kept {k a0 a1} : Kept k a0 → Kept k (sendRequest a0 a1) := by
  intros; unfold sendRequest; try dsimp only
  repeat' (with_reducible first | assumption | apply State.modFab_kept | apply injectPacket_kept | apply chargeTile_kept | rfl | split | (intro) | refine from_fst (by assumption) ?_ | refine from_snd (by assumption) ?_)

theorem issueRequest_kept {k a0 a1} : Kept k a0 → Kept k (issueRequest a0 a1) := by
  intros; unfold issueRequest; try dsimp only
  repeat' (with_reducible first | assumption | apply State.modFab_kept | apply sendRequest_kept | rfl | split | (intro))

theorem endMoverRequest_kept {k a0 a1 a2 a3 a4 a5 a6 a7 a8} : Kept k a0 → Kept k (endMoverRequest a0 a1 a2 a3 a4 a5 a6 a7 a8) := by
  intros; unfold endMoverRequest; try dsimp only
  repeat' (with_reducible first | assumption | apply State.modBay_kept | apply State.modMover_kept | rfl | split | (intro))

theorem walkPages_kept {k a0 a1 a2 a3 a4} : Kept k a0 → Ents.All (Kept k) (walkPages a0 a1 a2 a3 a4) := by fun_induction walkPages <;> grind [kept_eq, goes_next, optAll_none, optAll_some, modCtx_kept, installEntry_kept, catHit_kept, sealPages_kept, walkFrom_kept, Ents.all_ok, Ents.all_fail, Ents.all_wait, Walk.all_leaf, Walk.all_fail, Walk.all_wait]
grind_pattern walkPages_kept => (walkPages a0 a1 a2 a3 a4), Kept k a0

theorem trayAppend_kept {k a0 a1 a2 a3 a4 a5 a6} : Kept k a0 → Kept k (trayAppend a0 a1 a2 a3 a4 a5 a6) := by
  intros; unfold trayAppend; try dsimp only
  repeat' (with_reducible first | assumption | apply Ents.of_ok | apply Ents.of_fail | apply Ents.of_wait | apply Got.of_ok | apply Got.of_wait | apply Got.of_bad | apply vWrite_kept | apply walkPages_kept | apply modCtx_kept | rfl | split | (intro) | exact Ents.to_ok (by assumption) | refine Ents.from_ok (by assumption) ?_ | exact Ents.to_fail (by assumption) | refine Ents.from_fail (by assumption) ?_ | exact Ents.to_wait (by assumption) | refine Ents.from_wait (by assumption) ?_ | exact Got.to_ok (by assumption) | refine Got.from_ok (by assumption) ?_ | exact Got.to_wait (by assumption) | refine Got.from_wait (by assumption) ?_ | exact Got.to_bad (by assumption) | refine Got.from_bad (by assumption) ?_ | refine from_fst (by assumption) ?_ | refine from_snd (by assumption) ?_)

theorem settleTray_kept {k a0 a1} : Kept k a0 → Kept k (settleTray a0 a1) := by
  intros; unfold settleTray; try dsimp only
  repeat' (with_reducible first | assumption | apply modCtx_kept | rfl | split | (intro))

theorem trayLoad_kept {k a0 a1 a2 a3} : Kept k a0 → OptAll (fun x => Kept k x.1) (trayLoad a0 a1 a2 a3) := by
  intros; unfold trayLoad; try dsimp only
  repeat' (with_reducible first | assumption | apply Ents.of_ok | apply Ents.of_fail | apply Ents.of_wait | apply Got.of_ok | apply Got.of_wait | apply Got.of_bad | apply walkPages_kept | apply vRead_kept | rfl | split | (intro) | exact Ents.to_ok (by assumption) | refine Ents.from_ok (by assumption) ?_ | exact Ents.to_fail (by assumption) | refine Ents.from_fail (by assumption) ?_ | exact Ents.to_wait (by assumption) | refine Ents.from_wait (by assumption) ?_ | exact Got.to_ok (by assumption) | refine Got.from_ok (by assumption) ?_ | exact Got.to_wait (by assumption) | refine Got.from_wait (by assumption) ?_ | exact Got.to_bad (by assumption) | refine Got.from_bad (by assumption) ?_ | refine from_fst (by assumption) ?_ | refine from_snd (by assumption) ?_)
  all_goals grind [kept_eq, goes_next, optAll_none, optAll_some, walkPages_kept, vRead_kept, Ents.all_ok, Ents.all_fail, Ents.all_wait, Got.all_ok, Got.all_wait, Got.all_bad]
grind_pattern trayLoad_kept => (trayLoad a0 a1 a2 a3), Kept k a0

theorem trayConsume_kept {k a0 a1} : Kept k a0 → Kept k (trayConsume a0 a1) := by
  intros; unfold trayConsume; try dsimp only
  repeat' (with_reducible first | assumption | apply modCtx_kept | apply settleTray_kept | rfl | split | (intro) | refine from_fst (by assumption) ?_ | refine from_snd (by assumption) ?_)

theorem endParked_kept {k a0 a1 a2 a3 a4 a5 a6} : Kept k a0 → Kept k (endParked a0 a1 a2 a3 a4 a5 a6) := by
  intros; unfold endParked; try dsimp only
  repeat' (with_reducible first | assumption | apply State.modWork_kept | apply trayAppend_kept | rfl | split | (intro))

theorem endRequest_kept {k a0 a1 a2 a3 a4 a5} : Kept k a0 → Kept k (endRequest a0 a1 a2 a3 a4 a5) := by
  intros; unfold endRequest; try dsimp only
  repeat' (with_reducible first | assumption | apply State.modCore_kept | apply State.modWork_kept | apply endMoverRequest_kept | apply endParked_kept | rfl | split | (intro) | refine from_fst (by assumption) ?_ | refine from_snd (by assumption) ?_)

theorem prefetchLine_kept {k a0 a1 a2} : Kept k a0 → Kept k (prefetchLine a0 a1 a2) := by
  intros; unfold prefetchLine; try dsimp only
  repeat' (with_reducible first | assumption | apply chargeGranules_kept | apply fillLine_kept | apply State.modStack_kept | apply fetchLine_kept | rfl | split | (intro) | refine from_fst (by assumption) ?_ | refine from_snd (by assumption) ?_)

theorem execPrefetchIssue_kept {k a0 a1} : Kept k a1 → Goes (Kept k) (execPrefetchIssue a0 a1) := by
  intros; unfold execPrefetchIssue; try dsimp only
  repeat' (with_reducible first | assumption | apply Goes.of_next | apply prefetchLine_kept | apply State.modStack_kept | rfl | split | (intro) | refine from_fst (by assumption) ?_ | refine from_snd (by assumption) ?_)

theorem execLookaheadRange_kept {k a0 a1 a2 a3 a4 a5} : Kept k a5 → Goes (Kept k) (execLookaheadRange a0 a1 a2 a3 a4 a5) := by
  intros; unfold execLookaheadRange; try dsimp only
  repeat' (with_reducible first | assumption | apply Goes.of_next | apply State.modStack_kept | rfl | split | (intro))

theorem setAnswer_kept {k a0 a1 a2} : Kept k a0 → Kept k (setAnswer a0 a1 a2) := by
  intros; unfold setAnswer; try dsimp only
  repeat' (with_reducible first | assumption | apply State.modStack_kept | rfl | split | (intro))

theorem performRequest_kept {k a0 a1} : Kept k a0 → Kept k (performRequest a0 a1) := by
  intros; unfold performRequest; try dsimp only
  repeat' (with_reducible first | assumption | apply Got.of_ok | apply Got.of_wait | apply Got.of_bad | apply engineRead_kept | apply engineWrite_kept | apply setAnswer_kept | apply State.modStack_kept | rfl | split | (intro) | exact Got.to_ok (by assumption) | refine Got.from_ok (by assumption) ?_ | exact Got.to_wait (by assumption) | refine Got.from_wait (by assumption) ?_ | exact Got.to_bad (by assumption) | refine Got.from_bad (by assumption) ?_ | refine from_fst (by assumption) ?_ | refine from_snd (by assumption) ?_)

theorem execStackRequest_kept {k a0 a1} : Kept k a1 → Goes (Kept k) (execStackRequest a0 a1) := by
  intros; unfold execStackRequest; try dsimp only
  repeat' (with_reducible first | assumption | apply Goes.of_next | apply performRequest_kept | apply State.modStack_kept | rfl | split | (intro))

theorem maintWalk_kept {k a0 a1 a2 a3 a4} : Kept k a0 → Kept k (maintWalk a0 a1 a2 a3 a4) := by
  intros; unfold maintWalk; try dsimp only
  repeat' (with_reducible first | assumption | apply mscDrop_kept | apply writeBackLine_kept | apply foldl_kept | apply foldl_kept_fst | apply foldl_kept_snd | rfl | split | (intro))

theorem maintRecall_kept {k a0 a1 a2 a3 a4} : Kept k a0 → Kept k (maintRecall a0 a1 a2 a3 a4) := by
  intros; unfold maintRecall; try dsimp only
  repeat' (with_reducible first | assumption | apply serve_kept | apply foldl_kept | apply foldl_kept_fst | apply foldl_kept_snd | rfl | split | (intro))

theorem startMaint_kept {k a0 a1 a2 a3 a4} : Kept k a0 → Kept k (startMaint a0 a1 a2 a3 a4) := by
  intros; unfold startMaint; try dsimp only
  repeat' (with_reducible first | assumption | apply maintRecall_kept | apply State.setStack_kept | rfl | split | (intro))

theorem execWritebackPart_kept {k a0 a1 a2} : Kept k a2 → Goes (Kept k) (execWritebackPart a0 a1 a2) := by
  intros; unfold execWritebackPart; try dsimp only
  repeat' (with_reducible first | assumption | apply Goes.of_next | apply startMaint_kept | rfl | split | (intro))

theorem execFlushPart_kept {k a0 a1 a2} : Kept k a2 → Goes (Kept k) (execFlushPart a0 a1 a2) := by
  intros; unfold execFlushPart; try dsimp only
  repeat' (with_reducible first | assumption | apply Goes.of_next | apply startMaint_kept | rfl | split | (intro))

theorem execFlushShelf_kept {k a0 a1 a2} : Kept k a2 → Goes (Kept k) (execFlushShelf a0 a1 a2) := by
  intros; unfold execFlushShelf; try dsimp only
  repeat' (with_reducible first | assumption | apply Goes.of_next | apply startMaint_kept | rfl | split | (intro))

theorem execFlushAll_kept {k a0 a1} : Kept k a1 → Goes (Kept k) (execFlushAll a0 a1) := by
  intros; unfold execFlushAll; try dsimp only
  repeat' (with_reducible first | assumption | apply Goes.of_next | apply startMaint_kept | rfl | split | (intro))

theorem execLaneFail_kept {k a0 a1 a2} : Kept k a2 → Goes (Kept k) (execLaneFail a0 a1 a2) := by
  intros; unfold execLaneFail; try dsimp only
  repeat' (with_reducible first | assumption | apply Goes.of_next | apply stackEvent_kept | apply State.setStack_kept | apply State.modSeq_kept | apply foldl_kept | rfl | split | (intro))

theorem memoryFault_kept {k a0 a1 a2} : Kept k a0 → Kept k (memoryFault a0 a1 a2) := by
  intros; unfold memoryFault; try dsimp only
  repeat' (with_reducible first | assumption | apply writeFault_kept | apply foldl_kept | apply foldl_kept_fst | apply foldl_kept_snd | rfl | split | (intro))

theorem execPatrolScrub_kept {k a0 a1 a2} : Kept k a2 → Goes (Kept k) (execPatrolScrub a0 a1 a2) := by
  intros; unfold execPatrolScrub; try dsimp only
  repeat' (with_reducible first | assumption | apply Goes.of_next | apply memoryFault_kept | apply State.setStack_kept | apply readChunk_kept | rfl | split | (intro) | refine from_fst (by assumption) ?_ | refine from_snd (by assumption) ?_)

theorem execDramTempSample_kept {k a0 a1 a2} : Kept k a2 → Goes (Kept k) (execDramTempSample a0 a1 a2) := by
  intros; unfold execDramTempSample; try dsimp only
  repeat' (with_reducible first | assumption | apply Goes.of_next | apply State.modStack_kept | rfl | split | (intro))

theorem setEff_kept {k a0 a1} : Kept k a0 → Kept k (setEff a0 a1) := by
  intros; unfold setEff; try dsimp only
  repeat' (with_reducible first | assumption | apply stackEvent_kept | apply postEvent_kept | apply State.setStack_kept | apply foldl_kept | rfl | split | (intro))

theorem issueQueue_kept {k a0 a1 a2} : Kept k a0 → Kept k (issueQueue a0 a1 a2) := by fun_induction issueQueue <;> grind [kept_eq, goes_next, optAll_none, optAll_some, State.setStack_kept, performRequest_kept, foldl_kept]

theorem execRegulationWindow_kept {k a0 a1} : Kept k a1 → Goes (Kept k) (execRegulationWindow a0 a1) := by
  intros; unfold execRegulationWindow; try dsimp only
  repeat' (with_reducible first | assumption | apply Goes.of_next | apply setEff_kept | apply reach_kept | apply stackEvent_kept | apply State.setStack_kept | apply noteAlerts_kept | apply issueQueue_kept | apply foldl_kept | apply foldl_kept_fst | apply foldl_kept_snd | rfl | split | (intro))

theorem execCompressedWriteback_kept {k a0 a1} : Kept k a1 → Goes (Kept k) (execCompressedWriteback a0 a1) := by
  intros; unfold execCompressedWriteback; try dsimp only
  repeat' (with_reducible first | assumption | apply Goes.of_next | apply writeBackLine_kept | apply foldl_kept | rfl | split | (intro) | refine from_fst (by assumption) ?_ | refine from_snd (by assumption) ?_)

theorem execMoverWrWrite_kept {k a0 a1 a2 a3} : Kept k a3 → Goes (Kept k) (execMoverWrWrite a0 a1 a2 a3) := by
  intros; unfold execMoverWrWrite; try dsimp only
  repeat' (with_reducible first | assumption | apply Goes.of_next | apply State.setBay_kept | rfl | split | (intro))

theorem pretranslate_kept {k a0 a1 a2} : Kept k a0 → Kept k (pretranslate a0 a1 a2) := by
  intros; unfold pretranslate; try dsimp only
  repeat' (with_reducible first | assumption | apply State.modBay_kept | apply State.modMover_kept | apply lookupAll_kept | apply moverFail_kept | rfl | split | (intro) | refine from_fst (by assumption) ?_ | refine from_snd (by assumption) ?_)

theorem execGroupPretranslate_kept {k a0 a1 a2} : Kept k a2 → Goes (Kept k) (execGroupPretranslate a0 a1 a2) := by
  intros; unfold execGroupPretranslate; try dsimp only
  repeat' (with_reducible first | assumption | apply Goes.of_next | apply pretranslate_kept | rfl | split | (intro))

theorem execTtbEntriesFree_kept {k a0 a1 a2} : Kept k a2 → Goes (Kept k) (execTtbEntriesFree a0 a1 a2) := by
  intros; unfold execTtbEntriesFree; try dsimp only
  repeat' (with_reducible first | assumption | apply Goes.of_next | apply pretranslate_kept | rfl | split | (intro))

theorem moverStart_kept {k a0 a1 a2 a3 a4 a5 a6} : Kept k a0 → Kept k (moverStart a0 a1 a2 a3 a4 a5 a6) := by
  intros; unfold moverStart; try dsimp only
  repeat' (with_reducible first | assumption | apply State.modMover_kept | rfl | split | (intro))

theorem moverFailNow_kept {k a0 a1 a2 a3 a4 a5 a6 a7 a8} : Kept k a0 → Kept k a1 → Kept k (moverFailNow a0 a1 a2 a3 a4 a5 a6 a7 a8) := by
  intros; unfold moverFailNow; try dsimp only
  repeat' (with_reducible first | assumption | apply moverFail_kept | rfl | split | (intro))

theorem noteWait_kept {k a0 a1 a2 a3 a4} : Kept k a0 → Kept k (noteWait a0 a1 a2 a3 a4) := by
  intros; unfold noteWait; try dsimp only
  repeat' (with_reducible first | assumption | apply State.modNets_kept | rfl | split | (intro))

theorem dropWait_kept {k a0 a1 a2 a3} : Kept k a0 → Kept k (dropWait a0 a1 a2 a3) := by
  intros; unfold dropWait; try dsimp only
  repeat' (with_reducible first | assumption | apply State.modNets_kept | rfl | split | (intro))

theorem chargeMover_kept {k a0 a1 a2 a3} : Kept k a0 → Kept k (chargeMover a0 a1 a2 a3) := by
  intros; unfold chargeMover; try dsimp only
  repeat' (with_reducible first | assumption | apply chargeTile_kept | rfl | split | (intro))

theorem moverLoad_kept {k a0 a1 a2} : Kept k a0 → Kept k (moverLoad a0 a1 a2) := by
  intros; unfold moverLoad; try dsimp only
  repeat' (with_reducible first | assumption | apply Got.of_ok | apply Got.of_wait | apply Got.of_bad | apply State.modBay_kept | apply moverStart_kept | apply issueRequest_kept | apply moverFailNow_kept | apply vRead_kept | apply trayLoad_kept | apply dropWait_kept | apply chargeMover_kept | apply noteWait_kept | apply foldl_kept | apply foldl_kept_fst | apply foldl_kept_snd | apply Got.foldl_all | rfl | split | (intro) | exact Got.to_ok (by assumption) | refine Got.from_ok (by assumption) ?_ | exact Got.to_wait (by assumption) | refine Got.from_wait (by assumption) ?_ | exact Got.to_bad (by assumption) | refine Got.from_bad (by assumption) ?_ | refine from_fst (by assumption) ?_ | refine from_snd (by assumption) ?_)
  all_goals grind [kept_eq, goes_next, optAll_none, optAll_some, State.modBay_kept, moverStart_kept, issueRequest_kept, moverFailNow_kept, vRead_kept, trayLoad_kept, dropWait_kept, chargeMover_kept, noteWait_kept, foldl_kept, Got.all_ok, Got.all_wait, Got.all_bad]

theorem moverStore_kept {k a0 a1 a2} : Kept k a0 → Kept k (moverStore a0 a1 a2) := by
  intros; unfold moverStore; try dsimp only
  repeat' (with_reducible first | assumption | apply Got.of_ok | apply Got.of_wait | apply Got.of_bad | apply vWrite_kept | apply moverStart_kept | apply issueRequest_kept | apply moverFailNow_kept | apply dropWait_kept | apply chargeMover_kept | apply noteWait_kept | apply foldl_kept | apply foldl_kept_fst | apply foldl_kept_snd | apply Got.foldl_all | rfl | split | (intro) | exact Got.to_ok (by assumption) | refine Got.from_ok (by assumption) ?_ | exact Got.to_wait (by assumption) | refine Got.from_wait (by assumption) ?_ | exact Got.to_bad (by assumption) | refine Got.from_bad (by assumption) ?_ | refine from_fst (by assumption) ?_ | refine from_snd (by assumption) ?_)

theorem moverCopyLocal_kept {k a0 a1 a2} : Kept k a0 → Kept k (moverCopyLocal a0 a1 a2) := by
  intros; unfold moverCopyLocal; try dsimp only
  repeat' (with_reducible first | assumption | apply State.modBay_kept | apply moverStart_kept | apply foldl_kept | apply foldl_kept_fst | apply foldl_kept_snd | rfl | split | (intro) | refine from_fst (by assumption) ?_ | refine from_snd (by assumption) ?_)

theorem moverFill_kept {k a0 a1 a2} : Kept k a0 → Kept k (moverFill a0 a1 a2) := by
  intros; unfold moverFill; try dsimp only
  repeat' (with_reducible first | assumption | apply State.modBay_kept | apply moverStart_kept | apply foldl_kept | apply foldl_kept_fst | apply foldl_kept_snd | rfl | split | (intro) | refine from_fst (by assumption) ?_ | refine from_snd (by assumption) ?_)

theorem moverPrefetch_kept {k a0 a1 a2} : Kept k a0 → Kept k (moverPrefetch a0 a1 a2) := by
  intros; unfold moverPrefetch; try dsimp only
  repeat' (with_reducible first | assumption | apply moverStart_kept | apply prefetchLine_kept | apply foldl_kept | apply foldl_kept_fst | apply foldl_kept_snd | rfl | split | (intro) | refine from_fst (by assumption) ?_ | refine from_snd (by assumption) ?_)

theorem execMoverTileBegin_kept {k a0 a1 a2} : Kept k a2 → Goes (Kept k) (execMoverTileBegin a0 a1 a2) := by
  intros; unfold execMoverTileBegin; try dsimp only
  repeat' (with_reducible first | assumption | apply Goes.of_next | apply moverStart_kept | rfl | split | (intro) | refine from_fst (by assumption) ?_ | refine from_snd (by assumption) ?_)

theorem execMoverLoad_kept {k a0 a1 a2} : Kept k a2 → Goes (Kept k) (execMoverLoad a0 a1 a2) := by
  intros; unfold execMoverLoad; try dsimp only
  repeat' (with_reducible first | assumption | apply Goes.of_next | apply moverLoad_kept | rfl | split | (intro))

theorem execMoverStore_kept {k a0 a1 a2} : Kept k a2 → Goes (Kept k) (execMoverStore a0 a1 a2) := by
  intros; unfold execMoverStore; try dsimp only
  repeat' (with_reducible first | assumption | apply Goes.of_next | apply moverStore_kept | rfl | split | (intro))

theorem execMoverCopyLocal_kept {k a0 a1 a2} : Kept k a2 → Goes (Kept k) (execMoverCopyLocal a0 a1 a2) := by
  intros; unfold execMoverCopyLocal; try dsimp only
  repeat' (with_reducible first | assumption | apply Goes.of_next | apply moverCopyLocal_kept | rfl | split | (intro))

theorem execMoverFill_kept {k a0 a1 a2} : Kept k a2 → Goes (Kept k) (execMoverFill a0 a1 a2) := by
  intros; unfold execMoverFill; try dsimp only
  repeat' (with_reducible first | assumption | apply Goes.of_next | apply moverFill_kept | rfl | split | (intro))

theorem execMoverPrefetch_kept {k a0 a1 a2} : Kept k a2 → Goes (Kept k) (execMoverPrefetch a0 a1 a2) := by
  intros; unfold execMoverPrefetch; try dsimp only
  repeat' (with_reducible first | assumption | apply Goes.of_next | apply moverPrefetch_kept | rfl | split | (intro))

theorem moverEndBad_kept {k a0 a1 a2 a3 a4 a5 a6} : Kept k a0 → Kept k (moverEndBad a0 a1 a2 a3 a4 a5 a6) := by
  intros; unfold moverEndBad; try dsimp only
  repeat' (with_reducible first | assumption | apply haltMover_kept | apply endTile_kept | apply moverFail_kept | rfl | split | (intro) | refine from_fst (by assumption) ?_ | refine from_snd (by assumption) ?_)

theorem execMoverResume_kept {k a0 a1 a2} : Kept k a2 → Goes (Kept k) (execMoverResume a0 a1 a2) := by
  intros; unfold execMoverResume; try dsimp only
  repeat' (with_reducible first | assumption | apply Goes.of_next | apply State.modMover_kept | rfl | split | (intro))

theorem execMoverFlush_kept {k a0 a1 a2} : Kept k a2 → Goes (Kept k) (execMoverFlush a0 a1 a2) := by
  intros; unfold execMoverFlush; try dsimp only
  repeat' (with_reducible first | assumption | apply Goes.of_next | apply State.modMover_kept | rfl | split | (intro))

theorem writeOwners_kept {k a0 a1 a2 a3} : Kept k a0 → Kept k (writeOwners a0 a1 a2 a3) := by
  intros; unfold writeOwners; try dsimp only
  repeat' (with_reducible first | assumption | apply State.modBay_kept | apply bayEvent_kept | apply foldl_kept | rfl | split | (intro) | refine from_fst (by assumption) ?_ | refine from_snd (by assumption) ?_)

theorem bayBlockAccess_kept {k a0 a1 a2 a3 a4} : Kept k a0 → Kept k (bayBlockAccess a0 a1 a2 a3 a4).1 := by
  intros; unfold bayBlockAccess; try dsimp only
  repeat' (with_reducible first | assumption | apply trapCore_kept | rfl | split | (intro) | refine from_fst (by assumption) ?_ | refine from_snd (by assumption) ?_)
grind_pattern bayBlockAccess_kept => (bayBlockAccess a0 a1 a2 a3 a4), Kept k a0

theorem execBankOwnerWrite_kept {k a0 a1 a2 a3 a4} : Kept k a4 → Goes (Kept k) (execBankOwnerWrite a0 a1 a2 a3 a4) := by
  intros; unfold execBankOwnerWrite; try dsimp only
  repeat' (with_reducible first | assumption | apply Goes.of_next | apply bayBlockAccess_kept | apply writeOwners_kept | rfl | split | (intro) | refine from_fst (by assumption) ?_ | refine from_snd (by assumption) ?_)

theorem execHandoverComplete_kept {k a0 a1 a2} : Kept k a2 → Goes (Kept k) (execHandoverComplete a0 a1 a2) := by
  intros; unfold execHandoverComplete; try dsimp only
  repeat' (with_reducible first | assumption | apply Goes.of_next | apply State.modBay_kept | rfl | split | (intro))

theorem execTestIntervalExpire_kept {k a0 a1} : Kept k a1 → Goes (Kept k) (execTestIntervalExpire a0 a1) := by
  intros; unfold execTestIntervalExpire; try dsimp only
  repeat' (with_reducible first | assumption | apply Goes.of_next | apply State.modBay_kept | apply reach_kept | rfl | split | (intro) | refine from_fst (by assumption) ?_ | refine from_snd (by assumption) ?_)

theorem execTestCopyDone_kept {k a0 a1} : Kept k a1 → Goes (Kept k) (execTestCopyDone a0 a1) := by
  intros; unfold execTestCopyDone; try dsimp only
  repeat' (with_reducible first | assumption | apply Goes.of_next | apply State.modBay_kept | rfl | split | (intro))

theorem repairRow_kept {k a0 a1 a2} : Kept k a0 → Kept k (repairRow a0 a1 a2).1 := by
  intros; unfold repairRow; try dsimp only
  repeat' (with_reducible first | assumption | apply State.modBay_kept | apply bayEvent_kept | rfl | split | (intro))
grind_pattern repairRow_kept => (repairRow a0 a1 a2), Kept k a0

theorem execMarchCDone_kept {k a0 a1 a2} : Kept k a2 → Goes (Kept k) (execMarchCDone a0 a1 a2) := by
  intros; unfold execMarchCDone; try dsimp only
  repeat' (with_reducible first | assumption | apply Goes.of_next | apply State.modBay_kept | apply fenceBay_kept | apply repairRow_kept | apply foldl_kept | apply foldl_kept_fst | apply foldl_kept_snd | rfl | split | (intro) | refine from_fst (by assumption) ?_ | refine from_snd (by assumption) ?_)

theorem execTestRestoreDone_kept {k a0 a1} : Kept k a1 → Goes (Kept k) (execTestRestoreDone a0 a1) := by
  intros; unfold execTestRestoreDone; try dsimp only
  repeat' (with_reducible first | assumption | apply Goes.of_next | apply State.modBay_kept | rfl | split | (intro) | refine from_fst (by assumption) ?_ | refine from_snd (by assumption) ?_)

theorem resetBay_kept {k a0 a1} : Kept k a0 → Kept k (resetBay a0 a1) := by
  intros; unfold resetBay; try dsimp only
  repeat' (with_reducible first | assumption | apply replayTile_kept | apply beginBayReset_kept | apply foldl_kept | rfl | split | (intro))

theorem execBayReset_kept {k a0 a1} : Kept k a1 → Goes (Kept k) (execBayReset a0 a1) := by
  intros; unfold execBayReset; try dsimp only
  repeat' (with_reducible first | assumption | apply Goes.of_next | apply resetBay_kept | rfl | split | (intro))

theorem execBayResetDrainLimit_kept {k a0 a1} : Kept k a1 → Goes (Kept k) (execBayResetDrainLimit a0 a1) := by
  intros; unfold execBayResetDrainLimit; try dsimp only
  repeat' (with_reducible first | assumption | apply Goes.of_next | apply State.modBay_kept | apply reach_kept | rfl | split | (intro) | refine from_fst (by assumption) ?_ | refine from_snd (by assumption) ?_)

theorem execCoreFenceWrite_kept {k a0 a1 a2} : Kept k a2 → Goes (Kept k) (execCoreFenceWrite a0 a1 a2) := by
  intros; unfold execCoreFenceWrite; try dsimp only
  repeat' (with_reducible first | assumption | apply Goes.of_next | apply fenceCore_kept | rfl | split | (intro))

theorem execCoreResetDone_kept {k a0 a1 a2} : Kept k a2 → Goes (Kept k) (execCoreResetDone a0 a1 a2) := by
  intros; unfold execCoreResetDone; try dsimp only
  repeat' (with_reducible first | assumption | apply Goes.of_next | apply mxReset_kept | apply endReset_kept | apply State.setBay_kept | apply State.setCore_kept | rfl | split | (intro) | refine from_fst (by assumption) ?_ | refine from_snd (by assumption) ?_)

theorem execCtxCreate_kept {k a0 a1} : Kept k a1 → Goes (Kept k) (execCtxCreate a0 a1) := by
  intros; unfold execCtxCreate; try dsimp only
  repeat' (with_reducible first | assumption | apply Goes.of_next | apply MbRes.of_going | apply mbOk_kept | apply setCtx_kept | apply mbFail_kept | apply mbCommand_kept | rfl | split | (intro) | exact MbRes.to_going (by assumption) | refine MbRes.from_going (by assumption) ?_ | refine from_fst (by assumption) ?_ | refine from_snd (by assumption) ?_)

theorem execCtxSet_kept {k a0 a1} : Kept k a1 → Goes (Kept k) (execCtxSet a0 a1) := by
  intros; unfold execCtxSet; try dsimp only
  repeat' (with_reducible first | assumption | apply Goes.of_next | apply MbRes.of_going | apply mbOk_kept | apply setCtx_kept | apply mbFail_kept | apply mbCommand_kept | rfl | split | (intro) | exact MbRes.to_going (by assumption) | refine MbRes.from_going (by assumption) ?_ | refine from_fst (by assumption) ?_ | refine from_snd (by assumption) ?_)

theorem execFaultAck_kept {k a0 a1} : Kept k a1 → Goes (Kept k) (execFaultAck a0 a1) := by
  intros; unfold execFaultAck; try dsimp only
  repeat' (with_reducible first | assumption | apply Goes.of_next | apply MbRes.of_going | apply mbOk_kept | apply setCtx_kept | apply mbFail_kept | apply mbCommand_kept | rfl | split | (intro) | exact MbRes.to_going (by assumption) | refine MbRes.from_going (by assumption) ?_ | refine from_fst (by assumption) ?_ | refine from_snd (by assumption) ?_)

theorem execQueueCreate_kept {k a0 a1} : Kept k a1 → Goes (Kept k) (execQueueCreate a0 a1) := by
  intros; unfold execQueueCreate; try dsimp only
  repeat' (with_reducible first | assumption | apply Goes.of_next | apply MbRes.of_going | apply mbOk_kept | apply State.modWork_kept | apply mbFail_kept | apply mbCommand_kept | rfl | split | (intro) | exact MbRes.to_going (by assumption) | refine MbRes.from_going (by assumption) ?_ | refine from_fst (by assumption) ?_ | refine from_snd (by assumption) ?_)

theorem execImageUnregister_kept {k a0 a1} : Kept k a1 → Goes (Kept k) (execImageUnregister a0 a1) := by
  intros; unfold execImageUnregister; try dsimp only
  repeat' (with_reducible first | assumption | apply Goes.of_next | apply MbRes.of_going | apply mbOk_kept | apply settleObj_kept | apply modObj_kept | apply mbFail_kept | apply mbCommand_kept | rfl | split | (intro) | exact MbRes.to_going (by assumption) | refine MbRes.from_going (by assumption) ?_ | refine from_fst (by assumption) ?_ | refine from_snd (by assumption) ?_)

theorem execMemImport_kept {k a0 a1} : Kept k a1 → Goes (Kept k) (execMemImport a0 a1) := by
  intros; unfold execMemImport; try dsimp only
  repeat' (with_reducible first | assumption | apply Goes.of_next | apply MbRes.of_going | apply mbOk_kept | apply modObj_kept | apply mbFail_kept | apply mbCommand_kept | rfl | split | (intro) | exact MbRes.to_going (by assumption) | refine MbRes.from_going (by assumption) ?_ | refine from_fst (by assumption) ?_ | refine from_snd (by assumption) ?_)

theorem execMemFree_kept {k a0 a1} : Kept k a1 → Goes (Kept k) (execMemFree a0 a1) := by
  intros; unfold execMemFree; try dsimp only
  repeat' (with_reducible first | assumption | apply Goes.of_next | apply MbRes.of_going | apply mbOk_kept | apply settleObj_kept | apply modObj_kept | apply mbFail_kept | apply mbCommand_kept | rfl | split | (intro) | exact MbRes.to_going (by assumption) | refine MbRes.from_going (by assumption) ?_ | refine from_fst (by assumption) ?_ | refine from_snd (by assumption) ?_)

theorem execMemReclaim_kept {k a0 a1} : Kept k a1 → Goes (Kept k) (execMemReclaim a0 a1) := by
  intros; unfold execMemReclaim; try dsimp only
  repeat' (with_reducible first | assumption | apply Goes.of_next | apply MbRes.of_going | apply mbOk_kept | apply State.modWork_kept | apply mbFail_kept | apply mbCommand_kept | rfl | split | (intro) | exact MbRes.to_going (by assumption) | refine MbRes.from_going (by assumption) ?_ | refine from_fst (by assumption) ?_ | refine from_snd (by assumption) ?_)

theorem execFenceTable_kept {k a0 a1} : Kept k a1 → Goes (Kept k) (execFenceTable a0 a1) := by
  intros; unfold execFenceTable; try dsimp only
  repeat' (with_reducible first | assumption | apply Goes.of_next | apply MbRes.of_going | apply mbOk_kept | apply State.modPart_kept | apply mbFail_kept | apply mbCommand_kept | rfl | split | (intro) | exact MbRes.to_going (by assumption) | refine MbRes.from_going (by assumption) ?_)

theorem execFenceAlloc_kept {k a0 a1} : Kept k a1 → Goes (Kept k) (execFenceAlloc a0 a1) := by
  intros; unfold execFenceAlloc; try dsimp only
  repeat' (with_reducible first | assumption | apply Goes.of_next | apply MbRes.of_going | apply mbOk_kept | apply State.modWork_kept | apply writeFence_kept | apply mbFail_kept | apply mbCommand_kept | rfl | split | (intro) | exact MbRes.to_going (by assumption) | refine MbRes.from_going (by assumption) ?_ | refine from_fst (by assumption) ?_ | refine from_snd (by assumption) ?_)

theorem execFenceSignal_kept {k a0 a1} : Kept k a1 → Goes (Kept k) (execFenceSignal a0 a1) := by
  intros; unfold execFenceSignal; try dsimp only
  repeat' (with_reducible first | assumption | apply Goes.of_next | apply MbRes.of_going | apply mbOk_kept | apply signalFenceKey_kept | apply mbFail_kept | apply mbCommand_kept | rfl | split | (intro) | exact MbRes.to_going (by assumption) | refine MbRes.from_going (by assumption) ?_ | refine from_fst (by assumption) ?_ | refine from_snd (by assumption) ?_)

theorem execFenceReset_kept {k a0 a1} : Kept k a1 → Goes (Kept k) (execFenceReset a0 a1) := by
  intros; unfold execFenceReset; try dsimp only
  repeat' (with_reducible first | assumption | apply Goes.of_next | apply MbRes.of_going | apply mbOk_kept | apply State.modWork_kept | apply writeFence_kept | apply mbFail_kept | apply mbCommand_kept | rfl | split | (intro) | exact MbRes.to_going (by assumption) | refine MbRes.from_going (by assumption) ?_ | refine from_fst (by assumption) ?_ | refine from_snd (by assumption) ?_)

theorem execFenceFree_kept {k a0 a1} : Kept k a1 → Goes (Kept k) (execFenceFree a0 a1) := by
  intros; unfold execFenceFree; try dsimp only
  repeat' (with_reducible first | assumption | apply Goes.of_next | apply MbRes.of_going | apply mbOk_kept | apply settleFence_kept | apply State.modWork_kept | apply mbFail_kept | apply mbCommand_kept | rfl | split | (intro) | exact MbRes.to_going (by assumption) | refine MbRes.from_going (by assumption) ?_ | refine from_fst (by assumption) ?_ | refine from_snd (by assumption) ?_)

theorem execFenceWait_kept {k a0 a1} : Kept k a1 → Goes (Kept k) (execFenceWait a0 a1) := by
  intros; unfold execFenceWait; try dsimp only
  repeat' (with_reducible first | assumption | apply Goes.of_next | apply MbRes.of_going | apply mbOk_kept | apply State.modWork_kept | apply serveWaits_kept | apply mbFail_kept | apply mbCommand_kept | rfl | split | (intro) | exact MbRes.to_going (by assumption) | refine MbRes.from_going (by assumption) ?_ | refine from_fst (by assumption) ?_ | refine from_snd (by assumption) ?_)

theorem execSchedSet_kept {k a0 a1} : Kept k a1 → Goes (Kept k) (execSchedSet a0 a1) := by
  intros; unfold execSchedSet; try dsimp only
  repeat' (with_reducible first | assumption | apply Goes.of_next | apply MbRes.of_going | apply mbOk_kept | apply State.modPart_kept | apply mbCommand_kept | rfl | split | (intro) | exact MbRes.to_going (by assumption) | refine MbRes.from_going (by assumption) ?_)

theorem execLedgerRing_kept {k a0 a1} : Kept k a1 → Goes (Kept k) (execLedgerRing a0 a1) := by
  intros; unfold execLedgerRing; try dsimp only
  repeat' (with_reducible first | assumption | apply Goes.of_next | apply MbRes.of_going | apply ledgerDrain_kept | apply mbOk_kept | apply State.modPart_kept | apply mbCommand_kept | rfl | split | (intro) | exact MbRes.to_going (by assumption) | refine MbRes.from_going (by assumption) ?_)

theorem execLedgerAck_kept {k a0 a1} : Kept k a1 → Goes (Kept k) (execLedgerAck a0 a1) := by
  intros; unfold execLedgerAck; try dsimp only
  repeat' (with_reducible first | assumption | apply Goes.of_next | apply MbRes.of_going | apply ledgerDrain_kept | apply mbOk_kept | apply State.modPart_kept | apply mbCommand_kept | rfl | split | (intro) | exact MbRes.to_going (by assumption) | refine MbRes.from_going (by assumption) ?_)

theorem execLedgerQuery_kept {k a0 a1} : Kept k a1 → Goes (Kept k) (execLedgerQuery a0 a1) := by
  intros; unfold execLedgerQuery; try dsimp only
  repeat' (with_reducible first | assumption | apply Goes.of_next | apply MbRes.of_going | apply mbOk_kept | apply cmRecord_kept | apply mbFail_kept | apply mbCommand_kept | rfl | split | (intro) | exact MbRes.to_going (by assumption) | refine MbRes.from_going (by assumption) ?_ | refine from_fst (by assumption) ?_ | refine from_snd (by assumption) ?_)

end Sys2Proof.Machine
end

