-- ==== Sys2Proof/Laws/KeptVols.lean ====
section
/-! SUPPORT. What Volumes and inbound requests keep: `Kept` after each operation. -/

namespace Sys2Proof.Machine

set_option Elab.async false
set_option linter.all false

theorem modVols_kept {k a0 a1} : Kept k a0 → Kept k (modVols a0 a1) := by
  intros; unfold modVols; try dsimp only
  repeat' (with_reducible first | assumption | (simp only [kept_mk]; refine Kept.re ?_ rfl rfl rfl rfl rfl rfl rfl rfl rfl rfl rfl rfl rfl) | rfl | split | (intro))

theorem setVol_kept {k a0 a1 a2} : Kept k a0 → Kept k (setVol a0 a1 a2) := by
  intros; unfold setVol; try dsimp only
  repeat' (with_reducible first | assumption | apply modVols_kept | rfl | split | (intro))

theorem setRound_kept {k a0 a1 a2} : Kept k a0 → Kept k (setRound a0 a1 a2) := by
  intros; unfold setRound; try dsimp only
  repeat' (with_reducible first | assumption | apply modVols_kept | rfl | split | (intro))

theorem delRound_kept {k a0 a1} : Kept k a0 → Kept k (delRound a0 a1) := by
  intros; unfold delRound; try dsimp only
  repeat' (with_reducible first | assumption | apply modVols_kept | rfl | split | (intro))

theorem sendConc_kept {k a0 a1 a2} : Kept k a0 → Kept k (sendConc a0 a1 a2) := by
  intros; unfold sendConc; try dsimp only
  repeat' (with_reducible first | assumption | apply State.modFab_kept | apply injectPacket_kept | rfl | split | (intro))

theorem takeConc_kept {k a0 a1} : Kept k a0 → OptAll (fun x => Kept k x.2.2) (takeConc a0 a1) := by
  intros; unfold takeConc; try dsimp only
  repeat' (with_reducible first | assumption | apply State.modFab_kept | rfl | split | (intro) | refine from_fst (by assumption) ?_ | refine from_snd (by assumption) ?_)
  all_goals grind [kept_eq, goes_next, optAll_none, optAll_some, State.modFab_kept]
grind_pattern takeConc_kept => (takeConc a0 a1), Kept k a0

theorem concDrop_kept {k a0} : Kept k a0 → Kept k (concDrop a0) := by
  intros; unfold concDrop; try dsimp only
  repeat' (with_reducible first | assumption | apply State.modFab_kept | rfl | split | (intro))

theorem relayConc_kept {k a0 a1 a2 a3} : Kept k a0 → Kept k (relayConc a0 a1 a2 a3) := by
  intros; unfold relayConc; try dsimp only
  repeat' (with_reducible first | assumption | apply sendConc_kept | apply foldl_kept | rfl | split | (intro))

theorem trySendDrain_kept {k a0 a1} : Kept k a0 → Kept k (trySendDrain a0 a1) := by
  intros; unfold trySendDrain; try dsimp only
  repeat' (with_reducible first | assumption | apply setVol_kept | apply sendConc_kept | apply foldl_kept | rfl | split | (intro) | refine from_fst (by assumption) ?_ | refine from_snd (by assumption) ?_)

theorem settleVol_kept {k a0 a1} : Kept k a0 → Kept k (settleVol a0 a1) := by
  intros; unfold settleVol; try dsimp only
  repeat' (with_reducible first | assumption | apply setVol_kept | apply modVols_kept | apply mbFinish_kept | rfl | split | (intro) | refine from_fst (by assumption) ?_ | refine from_snd (by assumption) ?_)

theorem endGrace_kept {k a0 a1} : Kept k a0 → Kept k (endGrace a0 a1) := by
  intros; unfold endGrace; try dsimp only
  repeat' (with_reducible first | assumption | apply setVol_kept | apply settleVol_kept | rfl | split | (intro) | refine from_fst (by assumption) ?_ | refine from_snd (by assumption) ?_)

theorem tryEndGrace_kept {k a0 a1} : Kept k a0 → Kept k (tryEndGrace a0 a1) := by
  intros; unfold tryEndGrace; try dsimp only
  repeat' (with_reducible first | assumption | apply endGrace_kept | rfl | split | (intro) | refine from_fst (by assumption) ?_ | refine from_snd (by assumption) ?_)

theorem switchVol_kept {k a0 a1} : Kept k a0 → Kept k (switchVol a0 a1) := by
  intros; unfold switchVol; try dsimp only
  repeat' (with_reducible first | assumption | apply fabEvent_kept | apply State.modFab_kept | apply tryEndGrace_kept | apply setVol_kept | apply trySendDrain_kept | apply settleVol_kept | rfl | split | (intro) | refine from_fst (by assumption) ?_ | refine from_snd (by assumption) ?_)

theorem epochMap_kept {k a0 a1 a2} : Kept k a0 → Kept k (epochMap a0 a1 a2).1 := by
  intros; unfold epochMap; try dsimp only
  repeat' (with_reducible first | assumption | apply switchVol_kept | rfl | split | (intro) | refine from_fst (by assumption) ?_ | refine from_snd (by assumption) ?_)
grind_pattern epochMap_kept => (epochMap a0 a1 a2), Kept k a0

theorem commitHere_kept {k a0 a1 a2 a3 a4} : Kept k a0 → Kept k (commitHere a0 a1 a2 a3 a4) := by
  intros; unfold commitHere; try dsimp only
  repeat' (with_reducible first | assumption | apply switchVol_kept | apply setVol_kept | rfl | split | (intro))

theorem abortHere_kept {k a0 a1} : Kept k a0 → Kept k (abortHere a0 a1) := by
  intros; unfold abortHere; try dsimp only
  repeat' (with_reducible first | assumption | apply setVol_kept | apply modVols_kept | rfl | split | (intro) | refine from_fst (by assumption) ?_ | refine from_snd (by assumption) ?_)

theorem abortRound_kept {k a0 a1 a2 a3 a4} : Kept k a0 → Kept k (abortRound a0 a1 a2 a3 a4) := by
  intros; unfold abortRound; try dsimp only
  repeat' (with_reducible first | assumption | apply relayConc_kept | apply abortHere_kept | apply delRound_kept | apply mbFinish_kept | rfl | split | (intro) | refine from_fst (by assumption) ?_ | refine from_snd (by assumption) ?_)

theorem commitRound_kept {k a0 a1} : Kept k a0 → Kept k (commitRound a0 a1) := by
  intros; unfold commitRound; try dsimp only
  repeat' (with_reducible first | assumption | apply relayConc_kept | apply commitHere_kept | apply delRound_kept | rfl | split | (intro) | refine from_fst (by assumption) ?_ | refine from_snd (by assumption) ?_)

theorem settleVotes_kept {k a0 a1} : Kept k a0 → Kept k (settleVotes a0 a1) := by
  intros; unfold settleVotes; try dsimp only
  repeat' (with_reducible first | assumption | apply commitRound_kept | apply setRound_kept | apply abortRound_kept | apply sendConc_kept | apply foldl_kept | apply foldl_kept_fst | apply foldl_kept_snd | rfl | split | (intro) | refine from_fst (by assumption) ?_ | refine from_snd (by assumption) ?_)

theorem castVote_kept {k a0 a1} : Kept k a0 → Kept k (castVote a0 a1) := by
  intros; unfold castVote; try dsimp only
  repeat' (with_reducible first | assumption | apply setRound_kept | apply setVol_kept | apply settleVotes_kept | rfl | split | (intro) | refine from_fst (by assumption) ?_ | refine from_snd (by assumption) ?_)

theorem relayRound_kept {k a0 a1} : Kept k a0 → Kept k (relayRound a0 a1) := by
  intros; unfold relayRound; try dsimp only
  repeat' (with_reducible first | assumption | apply relayConc_kept | apply setRound_kept | apply foldl_kept | apply foldl_kept_fst | apply foldl_kept_snd | rfl | split | (intro) | refine from_fst (by assumption) ?_ | refine from_snd (by assumption) ?_)

theorem openRound_kept {k a0 a1 a2 a3 a4} : Kept k a0 → Kept k (openRound a0 a1 a2 a3 a4) := by
  intros; unfold openRound; try dsimp only
  repeat' (with_reducible first | assumption | apply setRound_kept | apply castVote_kept | apply relayRound_kept | rfl | split | (intro))

theorem execMapChunk_kept {k a0} : Kept k a0 → Goes (Kept k) (execMapChunk a0) := by
  intros; unfold execMapChunk; try dsimp only
  repeat' (with_reducible first | assumption | apply Goes.of_next | apply takeConc_kept | apply setRound_kept | apply castVote_kept | apply relayRound_kept | apply concDrop_kept | rfl | split | (intro) | refine from_fst (by assumption) ?_ | refine from_snd (by assumption) ?_)
  all_goals grind [kept_eq, goes_next, optAll_none, optAll_some, takeConc_kept, setRound_kept, castVote_kept, relayRound_kept, concDrop_kept]

theorem execPrepare_kept {k a0} : Kept k a0 → Goes (Kept k) (execPrepare a0) := by
  intros; unfold execPrepare; try dsimp only
  repeat' (with_reducible first | assumption | apply Goes.of_next | apply takeConc_kept | apply setRound_kept | apply castVote_kept | apply relayRound_kept | apply concDrop_kept | rfl | split | (intro) | refine from_fst (by assumption) ?_ | refine from_snd (by assumption) ?_)
  all_goals grind [kept_eq, goes_next, optAll_none, optAll_some, takeConc_kept, setRound_kept, castVote_kept, relayRound_kept, concDrop_kept]

theorem execVote_kept {k a0} : Kept k a0 → Goes (Kept k) (execVote a0) := by
  intros; unfold execVote; try dsimp only
  repeat' (with_reducible first | assumption | apply Goes.of_next | apply takeConc_kept | apply setRound_kept | apply settleVotes_kept | apply concDrop_kept | rfl | split | (intro) | refine from_fst (by assumption) ?_ | refine from_snd (by assumption) ?_)
  all_goals grind [kept_eq, goes_next, optAll_none, optAll_some, takeConc_kept, setRound_kept, settleVotes_kept, concDrop_kept]

theorem execCommit_kept {k a0} : Kept k a0 → Goes (Kept k) (execCommit a0) := by
  intros; unfold execCommit; try dsimp only
  repeat' (with_reducible first | assumption | apply Goes.of_next | apply relayConc_kept | apply takeConc_kept | apply commitHere_kept | apply delRound_kept | apply concDrop_kept | rfl | split | (intro) | refine from_fst (by assumption) ?_ | refine from_snd (by assumption) ?_)
  all_goals grind [kept_eq, goes_next, optAll_none, optAll_some, relayConc_kept, takeConc_kept, commitHere_kept, delRound_kept, concDrop_kept]

theorem execConcAbort_kept {k a0} : Kept k a0 → Goes (Kept k) (execConcAbort a0) := by
  intros; unfold execConcAbort; try dsimp only
  repeat' (with_reducible first | assumption | apply Goes.of_next | apply relayConc_kept | apply takeConc_kept | apply abortHere_kept | apply delRound_kept | apply concDrop_kept | rfl | split | (intro) | refine from_fst (by assumption) ?_ | refine from_snd (by assumption) ?_)
  all_goals grind [kept_eq, goes_next, optAll_none, optAll_some, relayConc_kept, takeConc_kept, abortHere_kept, delRound_kept, concDrop_kept]

theorem execDrain_kept {k a0} : Kept k a0 → Goes (Kept k) (execDrain a0) := by
  intros; unfold execDrain; try dsimp only
  repeat' (with_reducible first | assumption | apply Goes.of_next | apply takeConc_kept | apply tryEndGrace_kept | apply setVol_kept | apply castVote_kept | apply trySendDrain_kept | apply concDrop_kept | rfl | split | (intro) | refine from_fst (by assumption) ?_ | refine from_snd (by assumption) ?_)
  all_goals grind [kept_eq, goes_next, optAll_none, optAll_some, takeConc_kept, tryEndGrace_kept, setVol_kept, castVote_kept, trySendDrain_kept, concDrop_kept]

theorem execQuery_kept {k a0} : Kept k a0 → Goes (Kept k) (execQuery a0) := by
  intros; unfold execQuery; try dsimp only
  repeat' (with_reducible first | assumption | apply Goes.of_next | apply takeConc_kept | apply concDrop_kept | apply sendConc_kept | rfl | split | (intro) | refine from_fst (by assumption) ?_ | refine from_snd (by assumption) ?_)
  all_goals grind [kept_eq, goes_next, optAll_none, optAll_some, takeConc_kept, concDrop_kept, sendConc_kept]

theorem execState_kept {k a0} : Kept k a0 → Goes (Kept k) (execState a0) := by
  intros; unfold execState; try dsimp only
  repeat' (with_reducible first | assumption | apply Goes.of_next | apply takeConc_kept | apply setRound_kept | apply concDrop_kept | rfl | split | (intro) | refine from_fst (by assumption) ?_ | refine from_snd (by assumption) ?_)
  all_goals grind [kept_eq, goes_next, optAll_none, optAll_some, takeConc_kept, setRound_kept, concDrop_kept]

theorem execPrepareDeadline_kept {k a0 a1} : Kept k a1 → Goes (Kept k) (execPrepareDeadline a0 a1) := by
  intros; unfold execPrepareDeadline; try dsimp only
  repeat' (with_reducible first | assumption | apply Goes.of_next | apply setRound_kept | apply reach_kept | apply abortRound_kept | apply settleVotes_kept | rfl | split | (intro) | refine from_fst (by assumption) ?_ | refine from_snd (by assumption) ?_)

theorem execSwitchAt_kept {k a0 a1} : Kept k a1 → Goes (Kept k) (execSwitchAt a0 a1) := by
  intros; unfold execSwitchAt; try dsimp only
  repeat' (with_reducible first | assumption | apply Goes.of_next | apply switchVol_kept | apply reach_kept | rfl | split | (intro) | refine from_fst (by assumption) ?_ | refine from_snd (by assumption) ?_)

theorem execGraceLimit_kept {k a0 a1} : Kept k a1 → Goes (Kept k) (execGraceLimit a0 a1) := by
  intros; unfold execGraceLimit; try dsimp only
  repeat' (with_reducible first | assumption | apply Goes.of_next | apply reach_kept | apply endGrace_kept | apply castVote_kept | rfl | split | (intro) | refine from_fst (by assumption) ?_ | refine from_snd (by assumption) ?_)

theorem execRecoverStateWait_kept {k a0 a1} : Kept k a1 → Goes (Kept k) (execRecoverStateWait a0 a1) := by
  intros; unfold execRecoverStateWait; try dsimp only
  repeat' (with_reducible first | assumption | apply Goes.of_next | apply reach_kept | apply abortHere_kept | apply commitHere_kept | apply delRound_kept | apply sendConc_kept | apply mbFinish_kept | apply foldl_kept | apply foldl_kept_fst | apply foldl_kept_snd | rfl | split | (intro) | refine from_fst (by assumption) ?_ | refine from_snd (by assumption) ?_)

theorem execVolCreate_kept {k a0 a1 a2} : Kept k a2 → Goes (Kept k) (execVolCreate a0 a1 a2) := by
  intros; unfold execVolCreate; try dsimp only
  repeat' (with_reducible first | assumption | apply Goes.of_next | apply MbRes.of_going | apply modVols_kept | apply openRound_kept | apply mbFail_kept | apply mbCommand_kept | rfl | split | (intro) | exact MbRes.to_going (by assumption) | refine MbRes.from_going (by assumption) ?_ | refine from_fst (by assumption) ?_ | refine from_snd (by assumption) ?_)

theorem roundCommand_kept {k a0 a1 a2 a3 a4} : Kept k a0 → (∀ y0 y1, Kept k y0 → MbRes.All (Kept k) (a4 y0 y1)) → Kept k (roundCommand a0 a1 a2 a3 a4) := by
  intros; unfold roundCommand; try dsimp only
  repeat' (with_reducible first | assumption | apply MbRes.of_going | apply mbCommand_kept | rfl | split | (intro) | exact MbRes.to_going (by assumption) | refine MbRes.from_going (by assumption) ?_)

theorem execVolModify_kept {k a0 a1 a2} : Kept k a2 → Goes (Kept k) (execVolModify a0 a1 a2) := by
  intros; unfold execVolModify; try dsimp only
  repeat' (with_reducible first | assumption | apply Goes.of_next | apply MbRes.of_going | apply openRound_kept | apply roundCommand_kept | apply mbFail_kept | rfl | split | (intro) | exact MbRes.to_going (by assumption) | refine MbRes.from_going (by assumption) ?_ | refine from_fst (by assumption) ?_ | refine from_snd (by assumption) ?_)

theorem execVolDestroy_kept {k a0 a1} : Kept k a1 → Goes (Kept k) (execVolDestroy a0 a1) := by
  intros; unfold execVolDestroy; try dsimp only
  repeat' (with_reducible first | assumption | apply Goes.of_next | apply MbRes.of_going | apply openRound_kept | apply roundCommand_kept | apply mbFail_kept | rfl | split | (intro) | exact MbRes.to_going (by assumption) | refine MbRes.from_going (by assumption) ?_ | refine from_fst (by assumption) ?_ | refine from_snd (by assumption) ?_)

theorem execVolRecover_kept {k a0 a1} : Kept k a1 → Goes (Kept k) (execVolRecover a0 a1) := by
  intros; unfold execVolRecover; try dsimp only
  repeat' (with_reducible first | assumption | apply Goes.of_next | apply MbRes.of_going | apply setRound_kept | apply roundCommand_kept | apply sendConc_kept | apply mbFail_kept | apply foldl_kept | apply MbRes.foldl_all | rfl | split | (intro) | exact MbRes.to_going (by assumption) | refine MbRes.from_going (by assumption) ?_ | refine from_fst (by assumption) ?_ | refine from_snd (by assumption) ?_)

theorem respond_kept {k a0 a1 a2 a3 a4} : Kept k a0 → Kept k (respond a0 a1 a2 a3 a4) := by
  intros; unfold respond; try dsimp only
  repeat' (with_reducible first | assumption | apply injectPacket_kept | rfl | split | (intro))

theorem windowFault_kept {k a0 a1} : Kept k a0 → Kept k (windowFault a0 a1) := by
  intros; unfold windowFault; try dsimp only
  repeat' (with_reducible first | assumption | apply catEvent_kept | rfl | split | (intro) | refine from_fst (by assumption) ?_ | refine from_snd (by assumption) ?_)

theorem inboundAccess_kept {k a0 a1 a2 a3 a4 a5 a6 a7} : Kept k a0 → Got.All (Kept k) (inboundAccess a0 a1 a2 a3 a4 a5 a6 a7) := by
  intros; unfold inboundAccess; try dsimp only
  repeat' (with_reducible first | assumption | apply Got.of_ok | apply Got.of_wait | apply Got.of_bad | apply vWrite_kept | apply chargeGranules_kept | apply vPrepare_kept | apply farPerform_kept | apply vRead_kept | apply vDirty_kept | rfl | split | (intro) | exact Got.to_ok (by assumption) | refine Got.from_ok (by assumption) ?_ | exact Got.to_wait (by assumption) | refine Got.from_wait (by assumption) ?_ | exact Got.to_bad (by assumption) | refine Got.from_bad (by assumption) ?_ | refine from_fst (by assumption) ?_ | refine from_snd (by assumption) ?_)
grind_pattern inboundAccess_kept => (inboundAccess a0 a1 a2 a3 a4 a5 a6 a7), Kept k a0

theorem windowRequest_kept {k a0 a1 a2 a3 a4} : Kept k a0 → Got.All (Kept k) (windowRequest a0 a1 a2 a3 a4) := by
  intros; unfold windowRequest; try dsimp only
  repeat' (with_reducible first | assumption | apply Ents.of_ok | apply Ents.of_fail | apply Ents.of_wait | apply Got.of_ok | apply Got.of_wait | apply walkPages_kept | apply inboundAccess_kept | apply postTranslation_kept | apply windowFault_kept | rfl | split | (intro) | exact Ents.to_ok (by assumption) | refine Ents.from_ok (by assumption) ?_ | exact Ents.to_fail (by assumption) | refine Ents.from_fail (by assumption) ?_ | exact Ents.to_wait (by assumption) | refine Ents.from_wait (by assumption) ?_ | exact Got.to_ok (by assumption) | refine Got.from_ok (by assumption) ?_ | exact Got.to_wait (by assumption) | refine Got.from_wait (by assumption) ?_ | refine from_fst (by assumption) ?_ | refine from_snd (by assumption) ?_)
grind_pattern windowRequest_kept => (windowRequest a0 a1 a2 a3 a4), Kept k a0

theorem inboundRequest_kept {k a0 a1 a2 a3} : Kept k a0 → Kept k (inboundRequest a0 a1 a2 a3) := by
  intros; unfold inboundRequest; try dsimp only
  repeat' (with_reducible first | assumption | apply Got.of_ok | apply Got.of_wait | apply Got.of_bad | apply fabEvent_kept | apply State.modFab_kept | apply windowRequest_kept | apply epochMap_kept | apply respond_kept | apply forwardPacket_kept | rfl | split | (intro) | exact Got.to_ok (by assumption) | refine Got.from_ok (by assumption) ?_ | exact Got.to_wait (by assumption) | refine Got.from_wait (by assumption) ?_ | exact Got.to_bad (by assumption) | refine Got.from_bad (by assumption) ?_ | refine from_fst (by assumption) ?_ | refine from_snd (by assumption) ?_)

theorem execRd_kept {k a0 a1 a2} : Kept k a2 → Goes (Kept k) (execRd a0 a1 a2) := by
  intros; unfold execRd; try dsimp only
  repeat' (with_reducible first | assumption | apply Goes.of_next | apply inboundRequest_kept | rfl | split | (intro))

theorem execWr_kept {k a0 a1 a2} : Kept k a2 → Goes (Kept k) (execWr a0 a1 a2) := by
  intros; unfold execWr; try dsimp only
  repeat' (with_reducible first | assumption | apply Goes.of_next | apply inboundRequest_kept | rfl | split | (intro))

theorem execAtomic_kept {k a0 a1 a2} : Kept k a2 → Goes (Kept k) (execAtomic a0 a1 a2) := by
  intros; unfold execAtomic; try dsimp only
  repeat' (with_reducible first | assumption | apply Goes.of_next | apply inboundRequest_kept | rfl | split | (intro))

theorem response_kept {k a0 a1 a2 a3} : Kept k a0 → Kept k (response a0 a1 a2 a3) := by
  intros; unfold response; try dsimp only
  repeat' (with_reducible first | assumption | apply endRequest_kept | apply State.modFab_kept | apply forwardPacket_kept | apply drainOne_kept | apply trySendDrain_kept | apply chargeTile_kept | rfl | split | (intro) | refine from_fst (by assumption) ?_ | refine from_snd (by assumption) ?_)

theorem forRegistrar_kept {k a0 a1 a2 a3} : Kept k a0 → ExAll (fun x => Kept k x) (fun _ => True) (forRegistrar a0 a1 a2 a3) := by
  intros; unfold forRegistrar; try dsimp only
  repeat' (with_reducible first | assumption | apply fabEvent_kept | apply State.modFab_kept | apply forwardPacket_kept | rfl | split | (intro))
  all_goals grind [kept_eq, goes_next, exAll_ok, exAll_error, fabEvent_kept, State.modFab_kept, forwardPacket_kept]
grind_pattern forRegistrar_kept => (forRegistrar a0 a1 a2 a3), Kept k a0

theorem execConc_kept {k a0 a1 a2} : Kept k a2 → Goes (Kept k) (execConc a0 a1 a2) := by
  intros; unfold execConc; try dsimp only
  repeat' (with_reducible first | assumption | apply Goes.of_next | apply State.modFab_kept | apply forRegistrar_kept | apply concDrop_kept | rfl | split | (intro) | refine from_fst (by assumption) ?_ | refine from_snd (by assumption) ?_)
  all_goals grind [kept_eq, goes_next, exAll_ok, exAll_error, State.modFab_kept, forRegistrar_kept, concDrop_kept]

end Sys2Proof.Machine
end

