-- ==== Sys2Proof/Laws/KeptShelvers.lean ====
section
/-! SUPPORT. What the Shelvers keep: `Kept` after each operation. -/

namespace Sys2Proof.Machine

set_option Elab.async false
set_option linter.all false

theorem execDoorbell_kept {k a0 a1 a2 a3} : Kept k a3 → Goes (Kept k) (execDoorbell a0 a1 a2 a3) := by
  intros; unfold execDoorbell; try dsimp only
  repeat' (with_reducible first | assumption | apply Goes.of_next | apply State.modShelver_kept | apply shEvent_kept | rfl | split | (intro))

theorem shPrepare_kept {k a0 a1 a2 a3} : Kept k a0 → Got.All (Kept k) (shPrepare a0 a1 a2 a3) := by
  intros; unfold shPrepare; try dsimp only
  repeat' (with_reducible first | assumption | apply vPrepare_kept | rfl | split | (intro))
grind_pattern shPrepare_kept => (shPrepare a0 a1 a2 a3), Kept k a0

theorem shTake_kept {k a0 a1 a2} : Kept k a0 → Kept k (shTake a0 a1 a2).1 := by
  intros; unfold shTake; try dsimp only
  repeat' (with_reducible first | assumption | apply vTake_kept | rfl | split | (intro))
grind_pattern shTake_kept => (shTake a0 a1 a2), Kept k a0

theorem shPut_kept {k a0 a1 a2 a3} : Kept k a0 → Kept k (shPut a0 a1 a2 a3) := by
  intros; unfold shPut; try dsimp only
  repeat' (with_reducible first | assumption | apply vPut_kept | rfl | split | (intro))

theorem shDirty_kept {k a0 a1 a2 a3} : Kept k a0 → Kept k (shDirty a0 a1 a2 a3) := by
  intros; unfold shDirty; try dsimp only
  repeat' (with_reducible first | assumption | apply vDirty_kept | rfl | split | (intro))

theorem shRead_kept {k a0 a1 a2} : Kept k a0 → Got.All (Kept k) (shRead a0 a1 a2) := by
  intros; unfold shRead; try dsimp only
  repeat' (with_reducible first | assumption | apply vRead_kept | rfl | split | (intro))
grind_pattern shRead_kept => (shRead a0 a1 a2), Kept k a0

theorem shWrite_kept {k a0 a1 a2 a3} : Kept k a0 → Got.All (Kept k) (shWrite a0 a1 a2 a3) := by
  intros; unfold shWrite; try dsimp only
  repeat' (with_reducible first | assumption | apply vWrite_kept | rfl | split | (intro))
grind_pattern shWrite_kept => (shWrite a0 a1 a2 a3), Kept k a0

theorem admission_kept {k a0 a1 a2 a3} : Kept k a0 → Admit.All (Kept k) (admission a0 a1 a2 a3) := by
  intros; unfold admission; try dsimp only
  repeat' (with_reducible first | assumption | apply Admit.of_go | apply Admit.of_fail | apply Admit.of_wait | apply lookupAll_kept | rfl | split | (intro) | exact Admit.to_go (by assumption) | refine Admit.from_go (by assumption) ?_ | exact Admit.to_fail (by assumption) | refine Admit.from_fail (by assumption) ?_ | exact Admit.to_wait (by assumption) | refine Admit.from_wait (by assumption) ?_ | refine from_fst (by assumption) ?_ | refine from_snd (by assumption) ?_)
grind_pattern admission_kept => (admission a0 a1 a2 a3), Kept k a0

theorem shBad_kept {k a0 a1 a2} : Kept k a0 → ShRes.All (Kept k) (shBad a0 a1 a2) := by
  intros; unfold shBad; try dsimp only
  repeat' (with_reducible first | assumption | apply ShRes.of_did | rfl | split | (intro) | exact ShRes.to_did (by assumption) | refine ShRes.from_did (by assumption) ?_)
grind_pattern shBad_kept => (shBad a0 a1 a2), Kept k a0

theorem shMove_kept {k a0 a1 a2 a3 a4} : Kept k a0 → ShRes.All (Kept k) (shMove a0 a1 a2 a3 a4) := by
  intros; unfold shMove; try dsimp only
  repeat' (with_reducible first | assumption | apply Got.of_ok | apply Got.of_wait | apply Got.of_bad | apply ShRes.of_did | apply ShRes.of_wait | apply shRead_kept | apply shBad_kept | apply shWrite_kept | rfl | split | (intro) | exact Got.to_ok (by assumption) | refine Got.from_ok (by assumption) ?_ | exact Got.to_wait (by assumption) | refine Got.from_wait (by assumption) ?_ | exact Got.to_bad (by assumption) | refine Got.from_bad (by assumption) ?_ | exact ShRes.to_did (by assumption) | refine ShRes.from_did (by assumption) ?_ | exact ShRes.to_wait (by assumption) | refine ShRes.from_wait (by assumption) ?_ | refine from_fst (by assumption) ?_ | refine from_snd (by assumption) ?_)
grind_pattern shMove_kept => (shMove a0 a1 a2 a3 a4), Kept k a0

theorem shCopy_kept {k a0 a1 a2 a3} : Kept k a0 → ShRes.All (Kept k) (shCopy a0 a1 a2 a3) := by
  intros; unfold shCopy; try dsimp only
  repeat' (with_reducible first | assumption | apply shMove_kept | rfl | split | (intro))
grind_pattern shCopy_kept => (shCopy a0 a1 a2 a3), Kept k a0

theorem zeroBlock_kept {k a0 a1} : Kept k a0 → Kept k (zeroBlock a0 a1) := by
  intros; unfold zeroBlock; try dsimp only
  repeat' (with_reducible first | assumption | apply rawPut_kept | apply mirrorBlock_kept | apply mscDrop_kept | apply foldl_kept | rfl | split | (intro))

theorem shFill_kept {k a0 a1 a2 a3} : Kept k a0 → ShRes.All (Kept k) (shFill a0 a1 a2 a3) := by
  intros; unfold shFill; try dsimp only
  repeat' (with_reducible first | assumption | apply Got.of_ok | apply Got.of_wait | apply Got.of_bad | apply ShRes.of_did | apply ShRes.of_wait | apply shDirty_kept | apply shBad_kept | apply zeroBlock_kept | apply shPut_kept | apply shPrepare_kept | apply foldl_kept | apply foldl_kept_fst | apply foldl_kept_snd | apply Got.foldl_all | apply ShRes.foldl_all | rfl | split | (intro) | exact Got.to_ok (by assumption) | refine Got.from_ok (by assumption) ?_ | exact Got.to_wait (by assumption) | refine Got.from_wait (by assumption) ?_ | exact Got.to_bad (by assumption) | refine Got.from_bad (by assumption) ?_ | exact ShRes.to_did (by assumption) | refine ShRes.from_did (by assumption) ?_ | exact ShRes.to_wait (by assumption) | refine ShRes.from_wait (by assumption) ?_ | refine from_fst (by assumption) ?_ | refine from_snd (by assumption) ?_)
grind_pattern shFill_kept => (shFill a0 a1 a2 a3), Kept k a0

theorem shIndices_kept {k a0 a1 a2} : Kept k a0 → Got.All (Kept k) (shIndices a0 a1 a2) := by
  intros; unfold shIndices; try dsimp only
  repeat' (with_reducible first | assumption | apply Got.of_ok | apply Got.of_wait | apply Got.of_bad | apply shRead_kept | rfl | split | (intro) | exact Got.to_ok (by assumption) | refine Got.from_ok (by assumption) ?_ | exact Got.to_wait (by assumption) | refine Got.from_wait (by assumption) ?_ | exact Got.to_bad (by assumption) | refine Got.from_bad (by assumption) ?_ | refine from_fst (by assumption) ?_ | refine from_snd (by assumption) ?_)
grind_pattern shIndices_kept => (shIndices a0 a1 a2), Kept k a0

theorem shGather_kept {k a0 a1 a2 a3 a4} : Kept k a1 → ShRes.All (Kept k) (shGather a0 a1 a2 a3 a4) := by
  intros; unfold shGather; try dsimp only
  repeat' (with_reducible first | assumption | apply Got.of_ok | apply Got.of_wait | apply Got.of_bad | apply ShRes.of_did | apply ShRes.of_wait | apply shMove_kept | apply shBad_kept | apply shIndices_kept | rfl | split | (intro) | exact Got.to_ok (by assumption) | refine Got.from_ok (by assumption) ?_ | exact Got.to_wait (by assumption) | refine Got.from_wait (by assumption) ?_ | exact Got.to_bad (by assumption) | refine Got.from_bad (by assumption) ?_ | exact ShRes.to_did (by assumption) | refine ShRes.from_did (by assumption) ?_ | exact ShRes.to_wait (by assumption) | refine ShRes.from_wait (by assumption) ?_ | refine from_fst (by assumption) ?_ | refine from_snd (by assumption) ?_)
grind_pattern shGather_kept => (shGather a0 a1 a2 a3 a4), Kept k a1

theorem shReduce_kept {k a0 a1 a2 a3} : Kept k a0 → ShRes.All (Kept k) (shReduce a0 a1 a2 a3) := by
  intros; unfold shReduce; try dsimp only
  repeat' (with_reducible first | assumption | apply Got.of_ok | apply Got.of_wait | apply Got.of_bad | apply ShRes.of_did | apply ShRes.of_wait | apply shRead_kept | apply shBad_kept | apply shWrite_kept | apply foldl_kept | apply foldl_kept_fst | apply foldl_kept_snd | apply Got.foldl_all | apply ShRes.foldl_all | rfl | split | (intro) | exact Got.to_ok (by assumption) | refine Got.from_ok (by assumption) ?_ | exact Got.to_wait (by assumption) | refine Got.from_wait (by assumption) ?_ | exact Got.to_bad (by assumption) | refine Got.from_bad (by assumption) ?_ | exact ShRes.to_did (by assumption) | refine ShRes.from_did (by assumption) ?_ | exact ShRes.to_wait (by assumption) | refine ShRes.from_wait (by assumption) ?_ | refine from_fst (by assumption) ?_ | refine from_snd (by assumption) ?_)
grind_pattern shReduce_kept => (shReduce a0 a1 a2 a3), Kept k a0

theorem shUpdates_kept {k a0 a1 a2 a3} : Kept k a0 → Kept k (shUpdates a0 a1 a2 a3).1 := by fun_induction shUpdates <;> grind [kept_eq, goes_next, shDirty_kept, shPut_kept, shPrepare_kept, shTake_kept, Got.all_ok, Got.all_wait, Got.all_bad]
grind_pattern shUpdates_kept => (shUpdates a0 a1 a2 a3), Kept k a0

theorem shAtomic_kept {k a0 a1 a2 a3} : Kept k a0 → ShRes.All (Kept k) (shAtomic a0 a1 a2 a3) := by
  intros; unfold shAtomic; try dsimp only
  repeat' (with_reducible first | assumption | apply Got.of_ok | apply Got.of_wait | apply Got.of_bad | apply ShRes.of_did | apply ShRes.of_wait | apply shRead_kept | apply shUpdates_kept | apply shBad_kept | apply shPrepare_kept | apply shIndices_kept | rfl | split | (intro) | exact Got.to_ok (by assumption) | refine Got.from_ok (by assumption) ?_ | exact Got.to_wait (by assumption) | refine Got.from_wait (by assumption) ?_ | exact Got.to_bad (by assumption) | refine Got.from_bad (by assumption) ?_ | exact ShRes.to_did (by assumption) | refine ShRes.from_did (by assumption) ?_ | exact ShRes.to_wait (by assumption) | refine ShRes.from_wait (by assumption) ?_ | refine from_fst (by assumption) ?_ | refine from_snd (by assumption) ?_)
grind_pattern shAtomic_kept => (shAtomic a0 a1 a2 a3), Kept k a0

theorem shScan_kept {k a0 a1 a2 a3} : Kept k a0 → ShRes.All (Kept k) (shScan a0 a1 a2 a3) := by
  intros; unfold shScan; try dsimp only
  repeat' (with_reducible first | assumption | apply Got.of_ok | apply Got.of_wait | apply Got.of_bad | apply ShRes.of_did | apply ShRes.of_wait | apply shRead_kept | apply shBad_kept | apply foldl_kept | apply foldl_kept_fst | apply foldl_kept_snd | apply Got.foldl_all | apply ShRes.foldl_all | rfl | split | (intro) | exact Got.to_ok (by assumption) | refine Got.from_ok (by assumption) ?_ | exact Got.to_wait (by assumption) | refine Got.from_wait (by assumption) ?_ | exact Got.to_bad (by assumption) | refine Got.from_bad (by assumption) ?_ | exact ShRes.to_did (by assumption) | refine ShRes.from_did (by assumption) ?_ | exact ShRes.to_wait (by assumption) | refine ShRes.from_wait (by assumption) ?_ | refine from_fst (by assumption) ?_ | refine from_snd (by assumption) ?_)
grind_pattern shScan_kept => (shScan a0 a1 a2 a3), Kept k a0

theorem shTranspose_kept {k a0 a1 a2 a3} : Kept k a0 → ShRes.All (Kept k) (shTranspose a0 a1 a2 a3) := by
  intros; unfold shTranspose; try dsimp only
  repeat' (with_reducible first | assumption | apply shMove_kept | rfl | split | (intro))
grind_pattern shTranspose_kept => (shTranspose a0 a1 a2 a3), Kept k a0

theorem shMeasure_kept {k a0 a1 a2 a3} : Kept k a0 → ShRes.All (Kept k) (shMeasure a0 a1 a2 a3) := by
  intros; unfold shMeasure; try dsimp only
  repeat' (with_reducible first | assumption | apply Got.of_ok | apply Got.of_wait | apply Got.of_bad | apply ShRes.of_did | apply ShRes.of_wait | apply shRead_kept | apply shBad_kept | apply shWrite_kept | rfl | split | (intro) | exact Got.to_ok (by assumption) | refine Got.from_ok (by assumption) ?_ | exact Got.to_wait (by assumption) | refine Got.from_wait (by assumption) ?_ | exact Got.to_bad (by assumption) | refine Got.from_bad (by assumption) ?_ | exact ShRes.to_did (by assumption) | refine ShRes.from_did (by assumption) ?_ | exact ShRes.to_wait (by assumption) | refine ShRes.from_wait (by assumption) ?_ | refine from_fst (by assumption) ?_ | refine from_snd (by assumption) ?_)
grind_pattern shMeasure_kept => (shMeasure a0 a1 a2 a3), Kept k a0

theorem shScrub_kept {k a0 a1 a2 a3} : Kept k a0 → ShRes.All (Kept k) (shScrub a0 a1 a2 a3) := by
  intros; unfold shScrub; try dsimp only
  repeat' (with_reducible first | assumption | apply ShRes.of_did | rfl | split | (intro) | exact ShRes.to_did (by assumption) | refine ShRes.from_did (by assumption) ?_)
grind_pattern shScrub_kept => (shScrub a0 a1 a2 a3), Kept k a0

theorem shPattern_kept {k a0 a1 a2 a3 a4} : Kept k a1 → ShRes.All (Kept k) (shPattern a0 a1 a2 a3 a4) := by
  intros; unfold shPattern; try dsimp only
  repeat' (with_reducible first | assumption | apply Got.of_ok | apply Got.of_wait | apply Got.of_bad | apply ShRes.of_did | apply ShRes.of_wait | apply shBad_kept | apply shWrite_kept | apply foldl_kept | apply Got.foldl_all | apply ShRes.foldl_all | rfl | split | (intro) | exact Got.to_ok (by assumption) | refine Got.from_ok (by assumption) ?_ | exact Got.to_wait (by assumption) | refine Got.from_wait (by assumption) ?_ | exact Got.to_bad (by assumption) | refine Got.from_bad (by assumption) ?_ | exact ShRes.to_did (by assumption) | refine ShRes.from_did (by assumption) ?_ | exact ShRes.to_wait (by assumption) | refine ShRes.from_wait (by assumption) ?_ | refine from_fst (by assumption) ?_ | refine from_snd (by assumption) ?_)
grind_pattern shPattern_kept => (shPattern a0 a1 a2 a3 a4), Kept k a1

theorem shPrefetch_kept {k a0 a1 a2 a3} : Kept k a0 → ShRes.All (Kept k) (shPrefetch a0 a1 a2 a3) := by
  intros; unfold shPrefetch; try dsimp only
  repeat' (with_reducible first | assumption | apply ShRes.of_did | apply fillLine_kept | apply fetchLine_kept | apply foldl_kept | apply foldl_kept_fst | apply foldl_kept_snd | apply ShRes.foldl_all | rfl | split | (intro) | exact ShRes.to_did (by assumption) | refine ShRes.from_did (by assumption) ?_ | refine from_fst (by assumption) ?_ | refine from_snd (by assumption) ?_)
grind_pattern shPrefetch_kept => (shPrefetch a0 a1 a2 a3), Kept k a0

theorem secEvent_kept {k a0 a1 a2 a3} : Kept k a0 → Kept k (secEvent a0 a1 a2 a3) := by
  intros; unfold secEvent; try dsimp only
  repeat' (with_reducible first | assumption | (simp only [kept_mk]; refine Kept.re ?_ rfl rfl rfl rfl rfl rfl rfl rfl rfl rfl rfl rfl rfl) | apply postError_kept | rfl | split | (intro))

theorem shIngest_kept {k a0 a1 a2 a3} : Kept k a0 → ShRes.All (Kept k) (shIngest a0 a1 a2 a3) := by
  intros; unfold shIngest; try dsimp only
  repeat' (with_reducible first | assumption | apply Got.of_ok | apply Got.of_wait | apply Got.of_bad | apply ShRes.of_did | apply ShRes.of_wait | apply shRead_kept | apply shBad_kept | apply shWrite_kept | apply secEvent_kept | rfl | split | (intro) | exact Got.to_ok (by assumption) | refine Got.from_ok (by assumption) ?_ | exact Got.to_wait (by assumption) | refine Got.from_wait (by assumption) ?_ | exact Got.to_bad (by assumption) | refine Got.from_bad (by assumption) ?_ | exact ShRes.to_did (by assumption) | refine ShRes.from_did (by assumption) ?_ | exact ShRes.to_wait (by assumption) | refine ShRes.from_wait (by assumption) ?_ | refine from_fst (by assumption) ?_ | refine from_snd (by assumption) ?_)
grind_pattern shIngest_kept => (shIngest a0 a1 a2 a3), Kept k a0

theorem shMigrate_kept {k a0 a1 a2 a3} : Kept k a0 → ShRes.All (Kept k) (shMigrate a0 a1 a2 a3) := by
  intros; unfold shMigrate; try dsimp only
  repeat' (with_reducible first | assumption | apply ShRes.of_did | apply State.modShelver_kept | apply mirrorCopy_kept | apply foldl_kept | apply ShRes.foldl_all | rfl | split | (intro) | exact ShRes.to_did (by assumption) | refine ShRes.from_did (by assumption) ?_)
grind_pattern shMigrate_kept => (shMigrate a0 a1 a2 a3), Kept k a0

theorem startRun_kept {k a0 a1 a2 a3} : Kept k a0 → Kept k (startRun a0 a1 a2 a3) := by
  intros; unfold startRun; try dsimp only
  repeat' (with_reducible first | assumption | apply State.modShelver_kept | rfl | split | (intro))

theorem shStart_kept {k a0 a1 a2 a3} : Kept k a0 → (∀ y0 y1 y2 y3, Kept k y0 → ShRes.All (Kept k) (a3 y0 y1 y2 y3)) → Kept k (shStart a0 a1 a2 a3) := by
  intros; unfold shStart; try dsimp only
  repeat' (with_reducible first | assumption | apply Admit.of_go | apply Admit.of_fail | apply Admit.of_wait | apply Got.of_ok | apply Got.of_wait | apply Got.of_bad | apply ShRes.of_did | apply ShRes.of_wait | apply admission_kept | apply regRead_kept | apply startRun_kept | rfl | split | (intro) | exact Admit.to_go (by assumption) | refine Admit.from_go (by assumption) ?_ | exact Admit.to_fail (by assumption) | refine Admit.from_fail (by assumption) ?_ | exact Admit.to_wait (by assumption) | refine Admit.from_wait (by assumption) ?_ | exact Got.to_ok (by assumption) | refine Got.from_ok (by assumption) ?_ | exact Got.to_wait (by assumption) | refine Got.from_wait (by assumption) ?_ | exact Got.to_bad (by assumption) | refine Got.from_bad (by assumption) ?_ | exact ShRes.to_did (by assumption) | refine ShRes.from_did (by assumption) ?_ | exact ShRes.to_wait (by assumption) | refine ShRes.from_wait (by assumption) ?_ | refine from_fst (by assumption) ?_ | refine from_snd (by assumption) ?_)
  all_goals grind [kept_eq, goes_next, optAll_none, optAll_some, admission_kept, regRead_kept, startRun_kept, Admit.all_go, Admit.all_fail, Admit.all_wait, Got.all_ok, Got.all_wait, Got.all_bad, ShRes.all_did, ShRes.all_wait]

theorem execShNop_kept {k a0 a1} : Kept k a1 → Goes (Kept k) (execShNop a0 a1) := by
  intros; unfold execShNop; try dsimp only
  repeat' (with_reducible first | assumption | apply Goes.of_next | apply ShRes.of_did | apply shStart_kept | rfl | split | (intro) | exact ShRes.to_did (by assumption) | refine ShRes.from_did (by assumption) ?_)

theorem execShCopy_kept {k a0 a1} : Kept k a1 → Goes (Kept k) (execShCopy a0 a1) := by
  intros; unfold execShCopy; try dsimp only
  repeat' (with_reducible first | assumption | apply Goes.of_next | apply shCopy_kept | apply shStart_kept | rfl | split | (intro))

theorem execShFill_kept {k a0 a1} : Kept k a1 → Goes (Kept k) (execShFill a0 a1) := by
  intros; unfold execShFill; try dsimp only
  repeat' (with_reducible first | assumption | apply Goes.of_next | apply shFill_kept | apply shStart_kept | rfl | split | (intro))

theorem execShGather_kept {k a0 a1} : Kept k a1 → Goes (Kept k) (execShGather a0 a1) := by
  intros; unfold execShGather; try dsimp only
  repeat' (with_reducible first | assumption | apply Goes.of_next | apply shStart_kept | apply shGather_kept | rfl | split | (intro))

theorem execShScatter_kept {k a0 a1} : Kept k a1 → Goes (Kept k) (execShScatter a0 a1) := by
  intros; unfold execShScatter; try dsimp only
  repeat' (with_reducible first | assumption | apply Goes.of_next | apply shStart_kept | apply shGather_kept | rfl | split | (intro))

theorem execShReduce_kept {k a0 a1} : Kept k a1 → Goes (Kept k) (execShReduce a0 a1) := by
  intros; unfold execShReduce; try dsimp only
  repeat' (with_reducible first | assumption | apply Goes.of_next | apply shReduce_kept | apply shStart_kept | rfl | split | (intro))

theorem execShAtomic_kept {k a0 a1} : Kept k a1 → Goes (Kept k) (execShAtomic a0 a1) := by
  intros; unfold execShAtomic; try dsimp only
  repeat' (with_reducible first | assumption | apply Goes.of_next | apply shStart_kept | apply shAtomic_kept | rfl | split | (intro))

theorem execShScan_kept {k a0 a1} : Kept k a1 → Goes (Kept k) (execShScan a0 a1) := by
  intros; unfold execShScan; try dsimp only
  repeat' (with_reducible first | assumption | apply Goes.of_next | apply shScan_kept | apply shStart_kept | rfl | split | (intro))

theorem execShTranspose_kept {k a0 a1} : Kept k a1 → Goes (Kept k) (execShTranspose a0 a1) := by
  intros; unfold execShTranspose; try dsimp only
  repeat' (with_reducible first | assumption | apply Goes.of_next | apply shStart_kept | apply shTranspose_kept | rfl | split | (intro))

theorem execShMeasure_kept {k a0 a1} : Kept k a1 → Goes (Kept k) (execShMeasure a0 a1) := by
  intros; unfold execShMeasure; try dsimp only
  repeat' (with_reducible first | assumption | apply Goes.of_next | apply shStart_kept | apply shMeasure_kept | rfl | split | (intro))

theorem execShScrub_kept {k a0 a1} : Kept k a1 → Goes (Kept k) (execShScrub a0 a1) := by
  intros; unfold execShScrub; try dsimp only
  repeat' (with_reducible first | assumption | apply Goes.of_next | apply shStart_kept | apply shScrub_kept | rfl | split | (intro))

theorem execShPrefetch_kept {k a0 a1} : Kept k a1 → Goes (Kept k) (execShPrefetch a0 a1) := by
  intros; unfold execShPrefetch; try dsimp only
  repeat' (with_reducible first | assumption | apply Goes.of_next | apply shStart_kept | apply shPrefetch_kept | rfl | split | (intro))

theorem execShMigrate_kept {k a0 a1} : Kept k a1 → Goes (Kept k) (execShMigrate a0 a1) := by
  intros; unfold execShMigrate; try dsimp only
  repeat' (with_reducible first | assumption | apply Goes.of_next | apply shStart_kept | apply shMigrate_kept | rfl | split | (intro))

theorem execShSealIngest_kept {k a0 a1} : Kept k a1 → Goes (Kept k) (execShSealIngest a0 a1) := by
  intros; unfold execShSealIngest; try dsimp only
  repeat' (with_reducible first | assumption | apply Goes.of_next | apply shIngest_kept | apply shStart_kept | rfl | split | (intro))

theorem execShPatternTest_kept {k a0 a1 a2} : Kept k a2 → Goes (Kept k) (execShPatternTest a0 a1 a2) := by
  intros; unfold execShPatternTest; try dsimp only
  repeat' (with_reducible first | assumption | apply Goes.of_next | apply shPattern_kept | apply shStart_kept | rfl | split | (intro))

theorem spoil_kept {k a0 a1} : Kept k a0 → Kept k (spoil a0 a1) := by
  intros; unfold spoil; try dsimp only
  repeat' (with_reducible first | assumption | (simp only [kept_mk]; refine Kept.re ?_ rfl rfl rfl rfl rfl rfl rfl rfl rfl rfl rfl rfl rfl) | apply mscWrite_kept | apply foldl_kept | apply foldl_kept_fst | apply foldl_kept_snd | rfl | split | (intro))

theorem cutRun_kept {k a0 a1 a2 a3} : Kept k a0 → Kept k (cutRun a0 a1 a2 a3) := by
  intros; unfold cutRun; try dsimp only
  repeat' (with_reducible first | assumption | apply State.modShelver_kept | apply spoil_kept | rfl | split | (intro) | refine from_fst (by assumption) ?_ | refine from_snd (by assumption) ?_)

theorem execShelverChunkDone_kept {k a0 a1} : Kept k a1 → Goes (Kept k) (execShelverChunkDone a0 a1) := by
  intros; unfold execShelverChunkDone; try dsimp only
  repeat' (with_reducible first | assumption | apply Goes.of_next | apply cutRun_kept | apply State.setShelver_kept | apply settleInvals_kept | rfl | split | (intro) | refine from_fst (by assumption) ?_ | refine from_snd (by assumption) ?_)

theorem publish_kept {k a0 a1 a2 a3} : Kept k a0 → Pub.All (Kept k) (publish a0 a1 a2 a3) := by
  intros; unfold publish; try dsimp only
  repeat' (with_reducible first | assumption | apply Pub.of_none | apply Pub.of_did | apply Pub.of_differs | apply Pub.of_lost | apply Pub.of_wait | apply Got.of_ok | apply Got.of_wait | apply Got.of_bad | apply shWrite_kept | apply shPrepare_kept | apply shTake_kept | rfl | split | (intro) | exact Pub.to_none (by assumption) | refine Pub.from_none (by assumption) ?_ | exact Pub.to_did (by assumption) | refine Pub.from_did (by assumption) ?_ | exact Pub.to_differs (by assumption) | refine Pub.from_differs (by assumption) ?_ | exact Pub.to_lost (by assumption) | refine Pub.from_lost (by assumption) ?_ | exact Pub.to_wait (by assumption) | refine Pub.from_wait (by assumption) ?_ | exact Got.to_ok (by assumption) | refine Got.from_ok (by assumption) ?_ | exact Got.to_wait (by assumption) | refine Got.from_wait (by assumption) ?_ | exact Got.to_bad (by assumption) | refine Got.from_bad (by assumption) ?_ | refine from_fst (by assumption) ?_ | refine from_snd (by assumption) ?_)
grind_pattern publish_kept => (publish a0 a1 a2 a3), Kept k a0

theorem shelveDone_kept {k a0 a1 a2 a3 a4 a5} : Kept k a0 → Kept k (shelveDone a0 a1 a2 a3 a4 a5) := by
  intros; unfold shelveDone; try dsimp only
  repeat' (with_reducible first | assumption | apply completeCmd_kept | apply charge_kept | apply faultForCmd_kept | rfl | split | (intro) | refine from_fst (by assumption) ?_ | refine from_snd (by assumption) ?_)

theorem migrateDone_kept {k a0 a1 a2} : Kept k a0 → Kept k (migrateDone a0 a1 a2) := by
  intros; unfold migrateDone; try dsimp only
  repeat' (with_reducible first | assumption | (simp only [kept_mk]; refine Kept.re ?_ rfl rfl rfl rfl rfl rfl rfl rfl rfl rfl rfl rfl rfl) | apply mbFinish_kept | rfl | split | (intro) | refine from_fst (by assumption) ?_ | refine from_snd (by assumption) ?_)

theorem shNotice_kept {k a0 a1 a2 a3} : Kept k a0 → Kept k (shNotice a0 a1 a2 a3) := by
  intros; unfold shNotice; try dsimp only
  repeat' (with_reducible first | assumption | apply cardIsolated_kept | apply shEvent_kept | apply State.modNets_kept | rfl | split | (intro) | refine from_fst (by assumption) ?_ | refine from_snd (by assumption) ?_)

theorem finishRun_kept {k a0 a1 a2 a3 a4} : Kept k a0 → Kept k (finishRun a0 a1 a2 a3 a4) := by
  intros; unfold finishRun; try dsimp only
  repeat' (with_reducible first | assumption | apply Got.of_ok | apply Got.of_wait | apply Got.of_bad | apply State.modShelver_kept | apply shNotice_kept | apply engineWrite_kept | apply shelveDone_kept | apply migrateDone_kept | rfl | split | (intro) | exact Got.to_ok (by assumption) | refine Got.from_ok (by assumption) ?_ | exact Got.to_wait (by assumption) | refine Got.from_wait (by assumption) ?_ | exact Got.to_bad (by assumption) | refine Got.from_bad (by assumption) ?_ | refine from_fst (by assumption) ?_ | refine from_snd (by assumption) ?_)

theorem execShelverComplete_kept {k a0 a1} : Kept k a1 → Goes (Kept k) (execShelverComplete a0 a1) := by
  intros; unfold execShelverComplete; try dsimp only
  repeat' (with_reducible first | assumption | apply Goes.of_next | apply Pub.of_none | apply Pub.of_did | apply Pub.of_differs | apply Pub.of_lost | apply Pub.of_wait | apply publish_kept | apply finishRun_kept | apply settleInvals_kept | rfl | split | (intro) | exact Pub.to_none (by assumption) | refine Pub.from_none (by assumption) ?_ | exact Pub.to_did (by assumption) | refine Pub.from_did (by assumption) ?_ | exact Pub.to_differs (by assumption) | refine Pub.from_differs (by assumption) ?_ | exact Pub.to_lost (by assumption) | refine Pub.from_lost (by assumption) ?_ | exact Pub.to_wait (by assumption) | refine Pub.from_wait (by assumption) ?_ | refine from_fst (by assumption) ?_ | refine from_snd (by assumption) ?_)

theorem cutAll_kept {k a0 a1 a2} : Kept k a0 → Kept k (cutAll a0 a1 a2) := by
  intros; unfold cutAll; try dsimp only
  repeat' (with_reducible first | assumption | (simp only [kept_mk]; refine Kept.re ?_ rfl rfl rfl rfl rfl rfl rfl rfl rfl rfl rfl rfl rfl) | apply cutRun_kept | apply State.modShelver_kept | apply foldl_kept | apply foldl_kept_fst | apply foldl_kept_snd | rfl | split | (intro))

theorem shelverReset_kept {k a0 a1 a2} : Kept k a0 → Kept k (shelverReset a0 a1 a2) := by
  intros; unfold shelverReset; try dsimp only
  repeat' (with_reducible first | assumption | apply State.modShelver_kept | apply cutAll_kept | apply beginReset_kept | apply shEvent_kept | rfl | split | (intro))

theorem execShWatchdogExpire_kept {k a0 a1} : Kept k a1 → Goes (Kept k) (execShWatchdogExpire a0 a1) := by
  intros; unfold execShWatchdogExpire; try dsimp only
  repeat' (with_reducible first | assumption | apply Goes.of_next | apply reach_kept | apply shelverReset_kept | rfl | split | (intro))

theorem execScratchParityError_kept {k a0 a1} : Kept k a1 → Goes (Kept k) (execScratchParityError a0 a1) := by
  intros; unfold execScratchParityError; try dsimp only
  repeat' (with_reducible first | assumption | apply Goes.of_next | apply State.modShelver_kept | apply shelverReset_kept | rfl | split | (intro))

theorem execShelverResetDone_kept {k a0 a1} : Kept k a1 → Goes (Kept k) (execShelverResetDone a0 a1) := by
  intros; unfold execShelverResetDone; try dsimp only
  repeat' (with_reducible first | assumption | apply Goes.of_next | apply State.modShelver_kept | apply endReset_kept | rfl | split | (intro))

theorem execHalt_kept {k a0 a1} : Kept k a1 → Goes (Kept k) (execHalt a0 a1) := by
  intros; unfold execHalt; try dsimp only
  repeat' (with_reducible first | assumption | apply Goes.of_next | apply State.modShelver_kept | rfl | split | (intro))

theorem execMirrorStop_kept {k a0 a1} : Kept k a1 → Goes (Kept k) (execMirrorStop a0 a1) := by
  intros; unfold execMirrorStop; try dsimp only
  repeat' (with_reducible first | assumption | apply Goes.of_next | apply State.modShelver_kept | rfl | split | (intro))

theorem abortQueue_kept {k a0 a1 a2 a3} : Kept k a0 → Kept k (abortQueue a0 a1 a2 a3) := by
  intros; unfold abortQueue; try dsimp only
  repeat' (with_reducible first | assumption | apply Got.of_ok | apply Got.of_wait | apply Got.of_bad | apply cutRun_kept | apply State.modShelver_kept | apply regRead_kept | apply finishRun_kept | apply foldl_kept | apply foldl_kept_fst | apply foldl_kept_snd | apply Got.foldl_all | rfl | split | (intro) | exact Got.to_ok (by assumption) | refine Got.from_ok (by assumption) ?_ | exact Got.to_wait (by assumption) | refine Got.from_wait (by assumption) ?_ | exact Got.to_bad (by assumption) | refine Got.from_bad (by assumption) ?_ | refine from_fst (by assumption) ?_ | refine from_snd (by assumption) ?_)

theorem openQueue_kept {k a0 a1 a2} : Kept k a0 → Kept k (openQueue a0 a1 a2) := by
  intros; unfold openQueue; try dsimp only
  repeat' (with_reducible first | assumption | apply State.modShelver_kept | rfl | split | (intro))

theorem submitShelver_kept {k a0 a1 a2 a3} : Kept k a0 → Kept k (submitShelver a0 a1 a2 a3).1 := by
  intros; unfold submitShelver; try dsimp only
  repeat' (with_reducible first | assumption | apply Got.of_ok | apply Got.of_wait | apply Got.of_bad | apply State.modShelver_kept | apply openQueue_kept | apply engineWrite_kept | rfl | split | (intro) | exact Got.to_ok (by assumption) | refine Got.from_ok (by assumption) ?_ | exact Got.to_wait (by assumption) | refine Got.from_wait (by assumption) ?_ | exact Got.to_bad (by assumption) | refine Got.from_bad (by assumption) ?_ | refine from_fst (by assumption) ?_ | refine from_snd (by assumption) ?_)
grind_pattern submitShelver_kept => (submitShelver a0 a1 a2 a3), Kept k a0

end Sys2Proof.Machine
end

