-- ==== Sys2Proof/Laws/KeptPower.lean ====
section
/-! SUPPORT. What collectives, management messages and power keep: `Kept` after each operation. -/

namespace Sys2Proof.Machine

set_option Elab.async false
set_option linter.all false

theorem setEngine_kept {k a0 a1 a2} : Kept k a0 → Kept k (setEngine a0 a1 a2) := by
  intros; unfold setEngine; try dsimp only
  repeat' (with_reducible first | assumption | apply State.modFab_kept | rfl | split | (intro))

theorem setColl_kept {k a0 a1 a2 a3} : Kept k a0 → Kept k (setColl a0 a1 a2 a3) := by
  intros; unfold setColl; try dsimp only
  repeat' (with_reducible first | assumption | apply setEngine_kept | rfl | split | (intro))

theorem chargeColl_kept {k a0 a1 a2} : Kept k a0 → Kept k (chargeColl a0 a1 a2) := by
  intros; unfold chargeColl; try dsimp only
  repeat' (with_reducible first | assumption | apply charge_kept | rfl | split | (intro) | refine from_fst (by assumption) ?_ | refine from_snd (by assumption) ?_)

theorem sendColl_kept {k a0 a1 a2 a3 a4 a5 a6} : Kept k a0 → Kept k (sendColl a0 a1 a2 a3 a4 a5 a6) := by
  intros; unfold sendColl; try dsimp only
  repeat' (with_reducible first | assumption | apply injectPacket_kept | apply chargeColl_kept | rfl | split | (intro))

theorem sendStep_kept {k a0 a1 a2 a3 a4 a5} : Kept k a0 → Kept k (sendStep a0 a1 a2 a3 a4 a5) := by
  intros; unfold sendStep; try dsimp only
  repeat' (with_reducible first | assumption | apply sendColl_kept | apply setColl_kept | apply foldl_kept | apply foldl_kept_fst | apply foldl_kept_snd | rfl | split | (intro))

theorem ceEvent_kept {k a0 a1 a2 a3 a4} : Kept k a0 → Kept k (ceEvent a0 a1 a2 a3 a4) := by
  intros; unfold ceEvent; try dsimp only
  repeat' (with_reducible first | assumption | apply postError_kept | apply setEngine_kept | rfl | split | (intro) | refine from_fst (by assumption) ?_ | refine from_snd (by assumption) ?_)

theorem endColl_kept {k a0 a1 a2 a3 a4} : Kept k a0 → Kept k (endColl a0 a1 a2 a3 a4) := by
  intros; unfold endColl; try dsimp only
  repeat' (with_reducible first | assumption | apply ceEvent_kept | apply setEngine_kept | apply completeCmd_kept | apply faultForCmd_kept | rfl | split | (intro) | refine from_fst (by assumption) ?_ | refine from_snd (by assumption) ?_)

theorem failCollAll_kept {k a0 a1 a2 a3} : Kept k a0 → Kept k (failCollAll a0 a1 a2 a3) := by
  intros; unfold failCollAll; try dsimp only
  repeat' (with_reducible first | assumption | apply endColl_kept | apply sendColl_kept | apply foldl_kept | rfl | split | (intro) | refine from_fst (by assumption) ?_ | refine from_snd (by assumption) ?_)

theorem collLookup_kept {k a0 a1 a2 a3 a4} : Kept k a0 → Kept k (collLookup a0 a1 a2 a3 a4).1 := by
  intros; unfold collLookup; try dsimp only
  repeat' (with_reducible first | assumption | apply localKeep_kept | apply lookupAll_kept | apply foldl_kept | apply foldl_kept_fst | apply foldl_kept_snd | rfl | split | (intro) | refine from_fst (by assumption) ?_ | refine from_snd (by assumption) ?_)
grind_pattern collLookup_kept => (collLookup a0 a1 a2 a3 a4), Kept k a0

theorem collSource_kept {k a0 a1 a2 a3 a4} : Kept k a0 → (∀ y0 y1, Kept k y0 → Stage.All (Kept k) (a4 y0 y1)) → Stage.All (Kept k) (collSource a0 a1 a2 a3 a4) := by
  intros; unfold collSource; try dsimp only
  repeat' (with_reducible first | assumption | apply Got.of_ok | apply Got.of_wait | apply Got.of_bad | apply Stage.of_wait | apply vRead_kept | apply failCollAll_kept | apply collLookup_kept | apply chargeColl_kept | rfl | split | (intro) | exact Got.to_ok (by assumption) | refine Got.from_ok (by assumption) ?_ | exact Got.to_wait (by assumption) | refine Got.from_wait (by assumption) ?_ | exact Got.to_bad (by assumption) | refine Got.from_bad (by assumption) ?_ | exact Stage.to_wait (by assumption) | refine Stage.from_wait (by assumption) ?_ | refine from_fst (by assumption) ?_ | refine from_snd (by assumption) ?_)
  all_goals grind [kept_eq, goes_next, optAll_none, optAll_some, vRead_kept, failCollAll_kept, collLookup_kept, chargeColl_kept, Got.all_ok, Got.all_wait, Got.all_bad, Stage.all_wait]
grind_pattern collSource_kept => (collSource a0 a1 a2 a3 a4), Kept k a0

theorem collFlags_kept {k a0 a1 a2 a3} : Kept k a0 → Kept k (collFlags a0 a1 a2 a3).1 := by
  intros; unfold collFlags; try dsimp only
  repeat' (with_reducible first | assumption | apply collLookup_kept | rfl | split | (intro) | refine from_fst (by assumption) ?_ | refine from_snd (by assumption) ?_)
grind_pattern collFlags_kept => (collFlags a0 a1 a2 a3), Kept k a0

theorem stageFlags_kept {k a0 a1 a2 a3} : Kept k a0 → Stage.All (Kept k) (stageFlags a0 a1 a2 a3) := by unfold stageFlags; grind [kept_eq, goes_next, optAll_none, optAll_some, failCollAll_kept, collFlags_kept, sendStep_kept, collLookup_kept, Stage.all_on, Stage.all_wait]
grind_pattern stageFlags_kept => (stageFlags a0 a1 a2 a3), Kept k a0

theorem stageData_kept {k a0 a1 a2 a3} : Kept k a0 → Stage.All (Kept k) (stageData a0 a1 a2 a3) := by
  intros; unfold stageData; try dsimp only
  repeat' (with_reducible first | assumption | apply Stage.of_on | apply collSource_kept | apply sendStep_kept | apply foldl_kept | apply foldl_kept_fst | apply foldl_kept_snd | apply Stage.foldl_all | rfl | split | (intro) | exact Stage.to_on (by assumption) | refine Stage.from_on (by assumption) ?_)
grind_pattern stageData_kept => (stageData a0 a1 a2 a3), Kept k a0

theorem stageExps_kept {k a0 a1 a2 a3} : Kept k a0 → Stage.All (Kept k) (stageExps a0 a1 a2 a3) := by
  intros; unfold stageExps; try dsimp only
  repeat' (with_reducible first | assumption | apply Stage.of_on | apply collSource_kept | apply sendStep_kept | rfl | split | (intro) | exact Stage.to_on (by assumption) | refine Stage.from_on (by assumption) ?_)
grind_pattern stageExps_kept => (stageExps a0 a1 a2 a3), Kept k a0

theorem stageResult_kept {k a0 a1 a2 a3} : Kept k a0 → Stage.All (Kept k) (stageResult a0 a1 a2 a3) := by
  intros; unfold stageResult; try dsimp only
  repeat' (with_reducible first | assumption | apply Got.of_ok | apply Got.of_wait | apply Got.of_bad | apply Stage.of_on | apply Stage.of_wait | apply vWrite_kept | apply failCollAll_kept | apply sendColl_kept | apply collLookup_kept | apply setColl_kept | apply chargeColl_kept | rfl | split | (intro) | exact Got.to_ok (by assumption) | refine Got.from_ok (by assumption) ?_ | exact Got.to_wait (by assumption) | refine Got.from_wait (by assumption) ?_ | exact Got.to_bad (by assumption) | refine Got.from_bad (by assumption) ?_ | exact Stage.to_on (by assumption) | refine Stage.from_on (by assumption) ?_ | exact Stage.to_wait (by assumption) | refine Stage.from_wait (by assumption) ?_ | refine from_fst (by assumption) ?_ | refine from_snd (by assumption) ?_)
grind_pattern stageResult_kept => (stageResult a0 a1 a2 a3), Kept k a0

theorem stagePublish_kept {k a0 a1 a2 a3} : Kept k a0 → Stage.All (Kept k) (stagePublish a0 a1 a2 a3) := by
  intros; unfold stagePublish; try dsimp only
  repeat' (with_reducible first | assumption | apply Got.of_ok | apply Got.of_wait | apply Got.of_bad | apply Stage.of_wait | apply vWrite_kept | apply vPrepare_kept | apply vTake_kept | apply failCollAll_kept | apply endColl_kept | apply sendColl_kept | apply collLookup_kept | apply foldl_kept | apply foldl_kept_fst | apply foldl_kept_snd | apply Got.foldl_all | apply Stage.foldl_all | rfl | split | (intro) | exact Got.to_ok (by assumption) | refine Got.from_ok (by assumption) ?_ | exact Got.to_wait (by assumption) | refine Got.from_wait (by assumption) ?_ | exact Got.to_bad (by assumption) | refine Got.from_bad (by assumption) ?_ | exact Stage.to_wait (by assumption) | refine Stage.from_wait (by assumption) ?_ | refine from_fst (by assumption) ?_ | refine from_snd (by assumption) ?_)
grind_pattern stagePublish_kept => (stagePublish a0 a1 a2 a3), Kept k a0

theorem collStage_kept {k a0 a1 a2 a3} : Kept k a0 → Stage.All (Kept k) (collStage a0 a1 a2 a3) := by
  intros; unfold collStage; try dsimp only
  repeat' (with_reducible first | assumption | apply Stage.of_wait | apply stageData_kept | apply stagePublish_kept | apply stageFlags_kept | apply failCollAll_kept | apply stageExps_kept | apply endColl_kept | apply stageResult_kept | rfl | split | (intro) | exact Stage.to_wait (by assumption) | refine Stage.from_wait (by assumption) ?_ | refine from_fst (by assumption) ?_ | refine from_snd (by assumption) ?_)
grind_pattern collStage_kept => (collStage a0 a1 a2 a3), Kept k a0

theorem collRun_kept {k a0 a1 a2 a3 a4} : Kept k a0 → Kept k (collRun a0 a1 a2 a3 a4) := by fun_induction collRun <;> grind [kept_eq, goes_next, collStage_kept, Stage.all_on, Stage.all_wait]

theorem collBegin_kept {k a0 a1 a2} : Kept k a0 → Kept k (collBegin a0 a1 a2) := by
  intros; unfold collBegin; try dsimp only
  repeat' (with_reducible first | assumption | apply collRun_kept | apply setColl_kept | rfl | split | (intro) | refine from_fst (by assumption) ?_ | refine from_snd (by assumption) ?_)

theorem collPacket_kept {k a0 a1 a2 a3 a4} : Kept k a0 → Kept k (collPacket a0 a1 a2 a3 a4) := by
  intros; unfold collPacket; try dsimp only
  repeat' (with_reducible first | assumption | apply failCollAll_kept | apply endColl_kept | apply ceEvent_kept | apply collRun_kept | apply setColl_kept | apply chargeColl_kept | rfl | split | (intro) | refine from_fst (by assumption) ?_ | refine from_snd (by assumption) ?_)

theorem collArrive_kept {k a0 a1 a2} : Kept k a0 → Kept k (collArrive a0 a1 a2) := by
  intros; unfold collArrive; try dsimp only
  repeat' (with_reducible first | assumption | apply injectPacket_kept | apply epochMap_kept | apply ceEvent_kept | apply setEngine_kept | apply collPacket_kept | rfl | split | (intro) | refine from_fst (by assumption) ?_ | refine from_snd (by assumption) ?_)

theorem execColl_kept {k a0 a1 a2} : Kept k a2 → Goes (Kept k) (execColl a0 a1 a2) := by
  intros; unfold execColl; try dsimp only
  repeat' (with_reducible first | assumption | apply Goes.of_next | apply fabEvent_kept | apply State.modFab_kept | apply forwardPacket_kept | apply collArrive_kept | rfl | split | (intro) | refine from_fst (by assumption) ?_ | refine from_snd (by assumption) ?_)

theorem collControl_kept {k a0 a1 a2 a3} : Kept k a0 → Kept k (collControl a0 a1 a2 a3) := by
  intros; unfold collControl; try dsimp only
  repeat' (with_reducible first | assumption | apply collArrive_kept | rfl | split | (intro))

theorem execCollDone_kept {k a0 a1 a2} : Kept k a2 → Goes (Kept k) (execCollDone a0 a1 a2) := by
  intros; unfold execCollDone; try dsimp only
  repeat' (with_reducible first | assumption | apply Goes.of_next | apply collControl_kept | rfl | split | (intro))

theorem execCollComplete_kept {k a0 a1 a2} : Kept k a2 → Goes (Kept k) (execCollComplete a0 a1 a2) := by
  intros; unfold execCollComplete; try dsimp only
  repeat' (with_reducible first | assumption | apply Goes.of_next | apply collControl_kept | rfl | split | (intro))

theorem execCollAbort_kept {k a0 a1 a2} : Kept k a2 → Goes (Kept k) (execCollAbort a0 a1 a2) := by
  intros; unfold execCollAbort; try dsimp only
  repeat' (with_reducible first | assumption | apply Goes.of_next | apply collControl_kept | rfl | split | (intro))

theorem collOp_kept {k a0 a1 a2 a3} : Kept k a0 → Kept k (collOp a0 a1 a2 a3) := by
  intros; unfold collOp; try dsimp only
  repeat' (with_reducible first | assumption | apply collRun_kept | rfl | split | (intro) | refine from_fst (by assumption) ?_ | refine from_snd (by assumption) ?_)

theorem execAllreduce_kept {k a0 a1 a2} : Kept k a2 → Goes (Kept k) (execAllreduce a0 a1 a2) := by
  intros; unfold execAllreduce; try dsimp only
  repeat' (with_reducible first | assumption | apply Goes.of_next | apply collOp_kept | rfl | split | (intro))

theorem execCollReduce_kept {k a0 a1 a2} : Kept k a2 → Goes (Kept k) (execCollReduce a0 a1 a2) := by
  intros; unfold execCollReduce; try dsimp only
  repeat' (with_reducible first | assumption | apply Goes.of_next | apply collOp_kept | rfl | split | (intro))

theorem execBroadcast_kept {k a0 a1 a2} : Kept k a2 → Goes (Kept k) (execBroadcast a0 a1 a2) := by
  intros; unfold execBroadcast; try dsimp only
  repeat' (with_reducible first | assumption | apply Goes.of_next | apply collOp_kept | rfl | split | (intro))

theorem execAllgather_kept {k a0 a1 a2} : Kept k a2 → Goes (Kept k) (execAllgather a0 a1 a2) := by
  intros; unfold execAllgather; try dsimp only
  repeat' (with_reducible first | assumption | apply Goes.of_next | apply collOp_kept | rfl | split | (intro))

theorem execReduceScatter_kept {k a0 a1 a2} : Kept k a2 → Goes (Kept k) (execReduceScatter a0 a1 a2) := by
  intros; unfold execReduceScatter; try dsimp only
  repeat' (with_reducible first | assumption | apply Goes.of_next | apply collOp_kept | rfl | split | (intro))

theorem execBarrier_kept {k a0 a1 a2} : Kept k a2 → Goes (Kept k) (execBarrier a0 a1 a2) := by
  intros; unfold execBarrier; try dsimp only
  repeat' (with_reducible first | assumption | apply Goes.of_next | apply collOp_kept | rfl | split | (intro))

theorem execExpMax_kept {k a0 a1 a2} : Kept k a2 → Goes (Kept k) (execExpMax a0 a1 a2) := by
  intros; unfold execExpMax; try dsimp only
  repeat' (with_reducible first | assumption | apply Goes.of_next | apply collOp_kept | rfl | split | (intro))

theorem execCollStartAt_kept {k a0 a1 a2} : Kept k a2 → Goes (Kept k) (execCollStartAt a0 a1 a2) := by
  intros; unfold execCollStartAt; try dsimp only
  repeat' (with_reducible first | assumption | apply Goes.of_next | apply collBegin_kept | apply reach_kept | rfl | split | (intro) | refine from_fst (by assumption) ?_ | refine from_snd (by assumption) ?_)

theorem execCollDeadline_kept {k a0 a1 a2} : Kept k a2 → Goes (Kept k) (execCollDeadline a0 a1 a2) := by
  intros; unfold execCollDeadline; try dsimp only
  repeat' (with_reducible first | assumption | apply Goes.of_next | apply reach_kept | apply failCollAll_kept | rfl | split | (intro) | refine from_fst (by assumption) ?_ | refine from_snd (by assumption) ?_)

theorem openColl_kept {k a0 a1 a2} : Kept k a0 → Kept k (openColl a0 a1 a2) := by
  intros; unfold openColl; try dsimp only
  repeat' (with_reducible first | assumption | apply collBegin_kept | apply setEngine_kept | apply collArrive_kept | apply foldl_kept | rfl | split | (intro))

theorem endColls_kept {k a0 a1 a2} : Kept k a0 → Kept k (endColls a0 a1 a2) := by
  intros; unfold endColls; try dsimp only
  repeat' (with_reducible first | assumption | apply failCollAll_kept | apply foldl_kept | apply foldl_kept_fst | apply foldl_kept_snd | rfl | split | (intro))

theorem collPeerFailed_kept {k a0 a1} : Kept k a0 → Kept k (collPeerFailed a0 a1) := by
  intros; unfold collPeerFailed; try dsimp only
  repeat' (with_reducible first | assumption | apply endColls_kept | rfl | split | (intro))

theorem sendMgmt_kept {k a0 a1 a2 a3} : Kept k a0 → Kept k (sendMgmt a0 a1 a2 a3).1 := by
  intros; unfold sendMgmt; try dsimp only
  repeat' (with_reducible first | assumption | apply State.modFab_kept | apply injectPacket_kept | rfl | split | (intro))
grind_pattern sendMgmt_kept => (sendMgmt a0 a1 a2 a3), Kept k a0

theorem takeMgmt_kept {k a0 a1} : Kept k a0 → OptAll (fun x => Kept k x.2.2) (takeMgmt a0 a1) := by
  intros; unfold takeMgmt; try dsimp only
  repeat' (with_reducible first | assumption | apply State.modFab_kept | rfl | split | (intro) | refine from_fst (by assumption) ?_ | refine from_snd (by assumption) ?_)
  all_goals grind [kept_eq, goes_next, optAll_none, optAll_some, State.modFab_kept]
grind_pattern takeMgmt_kept => (takeMgmt a0 a1), Kept k a0

theorem execMgmt_kept {k a0 a1 a2} : Kept k a2 → Goes (Kept k) (execMgmt a0 a1 a2) := by
  intros; unfold execMgmt; try dsimp only
  repeat' (with_reducible first | assumption | apply Goes.of_next | apply State.modFab_kept | apply forRegistrar_kept | rfl | split | (intro) | refine from_fst (by assumption) ?_ | refine from_snd (by assumption) ?_)
  all_goals grind [kept_eq, goes_next, exAll_ok, exAll_error, State.modFab_kept, forRegistrar_kept]

theorem pwrEvent_kept {k a0 a1} : Kept k a0 → Kept k (pwrEvent a0 a1) := by
  intros; unfold pwrEvent; try dsimp only
  repeat' (with_reducible first | assumption | apply State.modPwr_kept | apply postError_kept | apply postEvent_kept | apply foldl_kept | rfl | split | (intro))

theorem modBayPwr_kept {k a0 a1 a2} : Kept k a0 → Kept k (modBayPwr a0 a1 a2) := by
  intro h; unfold modBayPwr; exact State.modPwr_kept h rfl

theorem modPwrVol_kept {k a0 a1 a2} : Kept k a0 → Kept k (modPwrVol a0 a1 a2) := by
  intro h; unfold modPwrVol; exact State.modPwr_kept h rfl

theorem answerDsSet_kept {k a0 a1} : Kept k a0 → Kept k (answerDsSet a0 a1) := by
  intros; unfold answerDsSet; try dsimp only
  repeat' (with_reducible first | assumption | apply State.modPwr_kept | apply mbFinish_kept | rfl | split | (intro) | refine from_fst (by assumption) ?_ | refine from_snd (by assumption) ?_)

theorem execSyncIn_kept {k a0 a1} : Kept k a1 → Goes (Kept k) (execSyncIn a0 a1) := by
  intros; unfold execSyncIn; try dsimp only
  repeat' (with_reducible first | assumption | apply Goes.of_next | apply syncPulse_kept | apply answerDsSet_kept | rfl | split | (intro))

theorem execTimeFlit_kept {k a0 a1 a2} : Kept k a2 → Goes (Kept k) (execTimeFlit a0 a1 a2) := by
  intros; unfold execTimeFlit; try dsimp only
  repeat' (with_reducible first | assumption | apply Goes.of_next | apply takeFlit_kept | apply State.modOt_kept | apply takeTime_kept | rfl | split | (intro) | refine from_fst (by assumption) ?_ | refine from_snd (by assumption) ?_)

theorem execTimeFlitSend_kept {k a0 a1} : Kept k a1 → Goes (Kept k) (execTimeFlitSend a0 a1) := by
  intros; unfold execTimeFlitSend; try dsimp only
  repeat' (with_reducible first | assumption | apply Goes.of_next | apply State.modPwr_kept | apply reach_kept | apply linkSend_kept | rfl | split | (intro))

theorem execDsSet_kept {k a0 a1} : Kept k a1 → Goes (Kept k) (execDsSet a0 a1) := by
  intros; unfold execDsSet; try dsimp only
  repeat' (with_reducible first | assumption | apply Goes.of_next | apply MbRes.of_done | apply MbRes.of_going | apply State.modPwr_kept | apply mbCommand_kept | rfl | split | (intro) | exact MbRes.to_done (by assumption) | refine MbRes.from_done (by assumption) ?_ | exact MbRes.to_going (by assumption) | refine MbRes.from_going (by assumption) ?_)

theorem passVote_kept {k a0 a1 a2} : Kept k a0 → Kept k (passVote a0 a1 a2) := by
  intros; unfold passVote; try dsimp only
  repeat' (with_reducible first | assumption | apply modPwrVol_kept | apply sendMgmt_kept | apply foldl_kept | apply foldl_kept_fst | apply foldl_kept_snd | rfl | split | (intro) | refine from_fst (by assumption) ?_ | refine from_snd (by assumption) ?_)

theorem stage4_kept {k a0} : Kept k a0 → Kept k (stage4 a0) := by
  intros; unfold stage4; try dsimp only
  repeat' (with_reducible first | assumption | apply modPwrVol_kept | apply foldl_kept | apply foldl_kept_fst | apply foldl_kept_snd | rfl | split | (intro) | refine from_fst (by assumption) ?_ | refine from_snd (by assumption) ?_)

theorem execVoteInstant_kept {k a0} : Kept k a0 → Goes (Kept k) (execVoteInstant a0) := by
  intros; unfold execVoteInstant; try dsimp only
  repeat' (with_reducible first | assumption | apply Goes.of_next | apply State.modPwr_kept | apply passVote_kept | apply reach_kept | apply pwrEvent_kept | apply modPwrVol_kept | apply stage4_kept | apply noteAlerts_kept | apply foldl_kept | apply foldl_kept_fst | apply foldl_kept_snd | rfl | split | (intro))

theorem execPowerVote_kept {k a0} : Kept k a0 → Goes (Kept k) (execPowerVote a0) := by
  intros; unfold execPowerVote; try dsimp only
  repeat' (with_reducible first | assumption | apply Goes.of_next | apply passVote_kept | apply takeMgmt_kept | apply modPwrVol_kept | rfl | split | (intro) | refine from_fst (by assumption) ?_ | refine from_snd (by assumption) ?_)
  all_goals grind [kept_eq, goes_next, optAll_none, optAll_some, passVote_kept, takeMgmt_kept, modPwrVol_kept]

theorem execVoteDeadline_kept {k a0 a1} : Kept k a1 → Goes (Kept k) (execVoteDeadline a0 a1) := by
  intros; unfold execVoteDeadline; try dsimp only
  repeat' (with_reducible first | assumption | apply Goes.of_next | apply reach_kept | apply modPwrVol_kept | apply sendMgmt_kept | apply foldl_kept | apply foldl_kept_fst | apply foldl_kept_snd | rfl | split | (intro) | refine from_fst (by assumption) ?_ | refine from_snd (by assumption) ?_)

theorem execDecide_kept {k a0} : Kept k a0 → Goes (Kept k) (execDecide a0) := by
  intros; unfold execDecide; try dsimp only
  repeat' (with_reducible first | assumption | apply Goes.of_next | apply takeMgmt_kept | apply modPwrVol_kept | rfl | split | (intro) | refine from_fst (by assumption) ?_ | refine from_snd (by assumption) ?_)
  all_goals grind [kept_eq, goes_next, optAll_none, optAll_some, takeMgmt_kept, modPwrVol_kept]

theorem execVoltageOffset_kept {k a0} : Kept k a0 → Goes (Kept k) (execVoltageOffset a0) := by
  intros; unfold execVoltageOffset; try dsimp only
  repeat' (with_reducible first | assumption | apply Goes.of_next | apply State.modPwr_kept | apply modBayPwr_kept | apply reach_kept | apply modPwrVol_kept | apply foldl_kept | apply foldl_kept_fst | apply foldl_kept_snd | rfl | split | (intro))

theorem accrueBoost_kept {k a0} : Kept k a0 → Kept k (accrueBoost a0) := by
  intros; unfold accrueBoost; try dsimp only
  repeat' (with_reducible first | assumption | apply State.modPwr_kept | apply pwrEvent_kept | rfl | split | (intro))

theorem execBoostBucket_kept {k a0} : Kept k a0 → Goes (Kept k) (execBoostBucket a0) := by
  intros; unfold execBoostBucket; try dsimp only
  repeat' (with_reducible first | assumption | apply Goes.of_next | apply State.modPwr_kept | apply reach_kept | apply accrueBoost_kept | rfl | split | (intro))

theorem sharedEnergy_kept {k a0} : Kept k a0 → Kept k (sharedEnergy a0) := by
  intros; unfold sharedEnergy; try dsimp only
  repeat' (with_reducible first | assumption | apply State.modPwr_kept | apply State.fresh_kept | apply State.modWork_kept | apply charge_kept | apply foldl_kept | apply foldl_kept_fst | apply foldl_kept_snd | rfl | split | (intro) | refine from_fst (by assumption) ?_ | refine from_snd (by assumption) ?_)

theorem epochEnergy_kept {k a0} : Kept k a0 → Kept k (epochEnergy a0) := by
  intros; unfold epochEnergy; try dsimp only
  repeat' (with_reducible first | assumption | apply State.modPwr_kept | apply tileEnergy_kept | apply sharedEnergy_kept | apply foldl_kept | rfl | split | (intro))

theorem takeIsolation_kept {k a0} : Kept k a0 → Kept k (takeIsolation a0) := by
  intros; unfold takeIsolation; try dsimp only
  repeat' (with_reducible first | assumption | apply State.modPwr_kept | apply State.modStack_kept | apply foldl_kept | rfl | split | (intro) | refine from_fst (by assumption) ?_ | refine from_snd (by assumption) ?_)

theorem switchCodes_kept {k a0 a1} : Kept k a0 → Kept k (switchCodes a0 a1) := by
  intros; unfold switchCodes; try dsimp only
  repeat' (with_reducible first | assumption | apply modBayPwr_kept | apply modPwrVol_kept | apply foldl_kept | apply foldl_kept_fst | apply foldl_kept_snd | rfl | split | (intro) | refine from_fst (by assumption) ?_ | refine from_snd (by assumption) ?_)

theorem releaseCap_kept {k a0 a1} : Kept k a0 → Kept k (releaseCap a0 a1) := by
  intros; unfold releaseCap; try dsimp only
  repeat' (with_reducible first | assumption | apply State.modPwr_kept | apply foldl_kept | apply foldl_kept_fst | apply foldl_kept_snd | rfl | split | (intro))

theorem execPowerEpochBoundary_kept {k a0} : Kept k a0 → Goes (Kept k) (execPowerEpochBoundary a0) := by
  intros; unfold execPowerEpochBoundary; try dsimp only
  repeat' (with_reducible first | assumption | apply Goes.of_next | apply State.modPwr_kept | apply epochEnergy_kept | apply reach_kept | apply State.modWork_kept | apply switchCodes_kept | apply takeIsolation_kept | apply releaseCap_kept | apply accrueBoost_kept | rfl | split | (intro))

theorem stretchClip_kept {k a0 a1} : Kept k a0 → Kept k (stretchClip a0 a1) := by
  intros; unfold stretchClip; try dsimp only
  repeat' (with_reducible first | assumption | apply modBayPwr_kept | apply foldl_kept | rfl | split | (intro))

theorem settleClips_kept {k a0 a1} : Kept k a0 → Kept k (settleClips a0 a1) := by
  intros; unfold settleClips; try dsimp only
  repeat' (with_reducible first | assumption | apply State.modPwr_kept | apply pwrEvent_kept | rfl | split | (intro))
  all_goals grind [kept_eq, goes_next, State.modPwr_kept, pwrEvent_kept]

theorem execPowerSample_kept {k a0 a1} : Kept k a1 → Goes (Kept k) (execPowerSample a0 a1) := by
  intros; unfold execPowerSample; try dsimp only
  repeat' (with_reducible first | assumption | apply Goes.of_next | apply State.modPwr_kept | apply stretchClip_kept | apply reach_kept | apply settleClips_kept | apply noteAlerts_kept | rfl | split | (intro))

theorem setCap_kept {k a0 a1} : Kept k a0 → 400 ≤ a1 ∧ a1 ≤ 1000 → Kept k (setCap a0 a1) := by
  intro h hc; unfold setCap
  have h1 := noteAlerts_kept (State.modPwr_cap (f := fun p => { p with cap := a1 }) h hc)
  dsimp only
  repeat' (with_reducible first | exact h1 | apply pwrEvent_kept | apply stretchClip_kept | apply State.modPwr_kept | rfl | split)

theorem execPwrCap_kept {k a0 a1} : Kept k a1 → Goes (Kept k) (execPwrCap a0 a1) := by
  intro h; unfold execPwrCap
  apply Goes.of_next
  apply mbCommand_checked h
  · intro s f c hs hc
    have hr := mbCheck_range hc
    exact mbOk_kept (setCap_kept hs (by simpa using hr))
  · intro s c hs; exact hs

theorem execFreqTarget_kept {k a0 a1} : Kept k a1 → Goes (Kept k) (execFreqTarget a0 a1) := by
  intros; unfold execFreqTarget; try dsimp only
  repeat' (with_reducible first | assumption | apply Goes.of_next | apply MbRes.of_going | apply mbOk_kept | apply modPwrVol_kept | apply mbCommand_kept | rfl | split | (intro) | exact MbRes.to_going (by assumption) | refine MbRes.from_going (by assumption) ?_)

theorem execDroopDetect_kept {k a0 a1} : Kept k a1 → Goes (Kept k) (execDroopDetect a0 a1) := by
  intros; unfold execDroopDetect; try dsimp only
  repeat' (with_reducible first | assumption | apply Goes.of_next | apply State.modPwr_kept | apply modBayPwr_kept | apply pwrEvent_kept | rfl | split | (intro))

theorem execDroopRelease_kept {k a0 a1} : Kept k a1 → Goes (Kept k) (execDroopRelease a0 a1) := by
  intros; unfold execDroopRelease; try dsimp only
  repeat' (with_reducible first | assumption | apply Goes.of_next | apply modBayPwr_kept | rfl | split | (intro))

theorem execStretchDecay_kept {k a0 a1} : Kept k a1 → Goes (Kept k) (execStretchDecay a0 a1) := by
  intros; unfold execStretchDecay; try dsimp only
  repeat' (with_reducible first | assumption | apply Goes.of_next | apply modBayPwr_kept | rfl | split | (intro))

theorem thermalTrip_kept {k a0} : Kept k a0 → Kept k (thermalTrip a0) := by
  intros; unfold thermalTrip; try dsimp only
  repeat' (with_reducible first | assumption | apply State.modSeq_kept | rfl | split | (intro))

theorem execThermalSensorSample_kept {k a0 a1 a2} : Kept k a2 → Goes (Kept k) (execThermalSensorSample a0 a1 a2) := by
  intros; unfold execThermalSensorSample; try dsimp only
  repeat' (with_reducible first | assumption | apply Goes.of_next | apply State.modPwr_kept | apply modBayPwr_kept | apply thermalTrip_kept | apply noteAlerts_kept | apply foldl_kept | apply foldl_kept_fst | apply foldl_kept_snd | rfl | split | (intro))

theorem execThermalTrip_kept {k a0} : Kept k a0 → Goes (Kept k) (execThermalTrip a0) := by
  intros; unfold execThermalTrip; try dsimp only
  repeat' (with_reducible first | assumption | apply Goes.of_next | apply thermalTrip_kept | apply noteAlerts_kept | rfl | split | (intro))

end Sys2Proof.Machine
end

