-- ==== Sys2Proof/Laws/KeptCores.lean ====
section
/-! SUPPORT. What matrix cores, networks, and the cores’ memory and base instructions keep: `Kept` after each operation. -/

namespace Sys2Proof.Machine

set_option Elab.async false
set_option linter.all false

theorem mxHalt_kept {k a0 a1 a2 a3} : Kept k a0 → Kept k (mxHalt a0 a1 a2 a3) := by
  intros; unfold mxHalt; try dsimp only
  repeat' (with_reducible first | assumption | (simp only [kept_mk]; refine Kept.re ?_ rfl rfl rfl rfl rfl rfl rfl rfl rfl rfl rfl rfl rfl) | apply bayEvent_kept | apply State.setMx_kept | rfl | split | (intro) | refine from_fst (by assumption) ?_ | refine from_snd (by assumption) ?_)

theorem mxSettle_kept {k a0 a1 a2} : Kept k a0 → Kept k (mxSettle a0 a1 a2) := by
  intros; unfold mxSettle; try dsimp only
  repeat' (with_reducible first | assumption | apply mxHalt_kept | rfl | split | (intro) | refine from_fst (by assumption) ?_ | refine from_snd (by assumption) ?_)

theorem mxPush_kept {k a0 a1 a2 a3} : Kept k a0 → Kept k (mxPush a0 a1 a2 a3) := by
  intros; unfold mxPush; try dsimp only
  repeat' (with_reducible first | assumption | apply mxSettle_kept | apply State.setMx_kept | rfl | split | (intro))

theorem execMxPushS_kept {k a0 a1 a2 a3} : Kept k a3 → Goes (Kept k) (execMxPushS a0 a1 a2 a3) := by
  intros; unfold execMxPushS; try dsimp only
  repeat' (with_reducible first | assumption | apply Goes.of_next | apply mxPush_kept | apply trapCore_kept | rfl | split | (intro))

theorem execMxPushV_kept {k a0 a1 a2 a3} : Kept k a3 → Goes (Kept k) (execMxPushV a0 a1 a2 a3) := by
  intros; unfold execMxPushV; try dsimp only
  repeat' (with_reducible first | assumption | apply Goes.of_next | apply mxPush_kept | apply trapCore_kept | rfl | split | (intro))

theorem mxRun_kept {k a0 a1 a2 a3 a4} : Kept k a0 → Kept k (mxRun a0 a1 a2 a3 a4) := by
  intros; unfold mxRun; try dsimp only
  repeat' (with_reducible first | assumption | apply mxHalt_kept | apply State.setBay_kept | apply mxSettle_kept | rfl | split | (intro) | refine from_fst (by assumption) ?_ | refine from_snd (by assumption) ?_)

theorem execMxNop_kept {k a0 a1 a2} : Kept k a2 → Goes (Kept k) (execMxNop a0 a1 a2) := by
  intros; unfold execMxNop; try dsimp only
  repeat' (with_reducible first | assumption | apply Goes.of_next | apply mxRun_kept | rfl | split | (intro))

theorem execLoadTile_kept {k a0 a1 a2} : Kept k a2 → Goes (Kept k) (execLoadTile a0 a1 a2) := by
  intros; unfold execLoadTile; try dsimp only
  repeat' (with_reducible first | assumption | apply Goes.of_next | apply mxRun_kept | rfl | split | (intro))

theorem execStoreTile_kept {k a0 a1 a2} : Kept k a2 → Goes (Kept k) (execStoreTile a0 a1 a2) := by
  intros; unfold execStoreTile; try dsimp only
  repeat' (with_reducible first | assumption | apply Goes.of_next | apply mxRun_kept | rfl | split | (intro))

theorem execAnchorSet_kept {k a0 a1 a2} : Kept k a2 → Goes (Kept k) (execAnchorSet a0 a1 a2) := by
  intros; unfold execAnchorSet; try dsimp only
  repeat' (with_reducible first | assumption | apply Goes.of_next | apply mxRun_kept | rfl | split | (intro))

theorem execExpScan_kept {k a0 a1 a2} : Kept k a2 → Goes (Kept k) (execExpScan a0 a1 a2) := by
  intros; unfold execExpScan; try dsimp only
  repeat' (with_reducible first | assumption | apply Goes.of_next | apply mxRun_kept | rfl | split | (intro))

theorem execMma_kept {k a0 a1 a2} : Kept k a2 → Goes (Kept k) (execMma a0 a1 a2) := by
  intros; unfold execMma; try dsimp only
  repeat' (with_reducible first | assumption | apply Goes.of_next | apply mxRun_kept | rfl | split | (intro))

theorem execMmaFp64_kept {k a0 a1 a2} : Kept k a2 → Goes (Kept k) (execMmaFp64 a0 a1 a2) := by
  intros; unfold execMmaFp64; try dsimp only
  repeat' (with_reducible first | assumption | apply Goes.of_next | apply mxRun_kept | rfl | split | (intro))

theorem execConv_kept {k a0 a1 a2} : Kept k a2 → Goes (Kept k) (execConv a0 a1 a2) := by
  intros; unfold execConv; try dsimp only
  repeat' (with_reducible first | assumption | apply Goes.of_next | apply mxRun_kept | rfl | split | (intro))

theorem execAccRead_kept {k a0 a1 a2} : Kept k a2 → Goes (Kept k) (execAccRead a0 a1 a2) := by
  intros; unfold execAccRead; try dsimp only
  repeat' (with_reducible first | assumption | apply Goes.of_next | apply mxRun_kept | rfl | split | (intro))

theorem execAccSave_kept {k a0 a1 a2} : Kept k a2 → Goes (Kept k) (execAccSave a0 a1 a2) := by
  intros; unfold execAccSave; try dsimp only
  repeat' (with_reducible first | assumption | apply Goes.of_next | apply mxRun_kept | rfl | split | (intro))

theorem execAccLoad_kept {k a0 a1 a2} : Kept k a2 → Goes (Kept k) (execAccLoad a0 a1 a2) := by
  intros; unfold execAccLoad; try dsimp only
  repeat' (with_reducible first | assumption | apply Goes.of_next | apply mxRun_kept | rfl | split | (intro))

theorem execQuantMx_kept {k a0 a1 a2} : Kept k a2 → Goes (Kept k) (execQuantMx a0 a1 a2) := by
  intros; unfold execQuantMx; try dsimp only
  repeat' (with_reducible first | assumption | apply Goes.of_next | apply mxRun_kept | rfl | split | (intro))

theorem execRampStep_kept {k a0 a1 a2 a3} : Kept k a3 → Goes (Kept k) (execRampStep a0 a1 a2 a3) := by
  intros; unfold execRampStep; try dsimp only
  repeat' (with_reducible first | assumption | apply Goes.of_next | apply State.setMx_kept | rfl | split | (intro))

theorem execMxResume_kept {k a0 a1 a2} : Kept k a2 → Goes (Kept k) (execMxResume a0 a1 a2) := by
  intros; unfold execMxResume; try dsimp only
  repeat' (with_reducible first | assumption | apply Goes.of_next | apply State.modMx_kept | apply mxSettle_kept | rfl | split | (intro))

theorem execMxFlush_kept {k a0 a1 a2} : Kept k a2 → Goes (Kept k) (execMxFlush a0 a1 a2) := by
  intros; unfold execMxFlush; try dsimp only
  repeat' (with_reducible first | assumption | apply Goes.of_next | apply mxFlush_kept | rfl | split | (intro))

theorem execMatrixCoreReset_kept {k a0 a1 a2} : Kept k a2 → Goes (Kept k) (execMatrixCoreReset a0 a1 a2) := by
  intros; unfold execMatrixCoreReset; try dsimp only
  repeat' (with_reducible first | assumption | apply Goes.of_next | apply mxReset_kept | rfl | split | (intro))

theorem netError_kept {k a0 a1 a2 a3 a4} : Kept k a0 → Kept k (netError a0 a1 a2 a3 a4) := by
  intros; unfold netError; try dsimp only
  repeat' (with_reducible first | assumption | apply colophonChange_kept | apply postError_kept | rfl | split | (intro))

theorem routerFail_kept {k a0 a1} : Kept k a0 → Kept k (routerFail a0 a1) := by
  intros; unfold routerFail; try dsimp only
  repeat' (with_reducible first | assumption | apply linkFail_kept | apply fenceBay_kept | apply State.modNets_kept | apply State.modSeq_kept | apply netError_kept | apply foldl_kept | rfl | split | (intro) | refine from_fst (by assumption) ?_ | refine from_snd (by assumption) ?_)

theorem linkDeclare_kept {k a0 a1} : Kept k a0 → Kept k (linkDeclare a0 a1) := by
  intros; unfold linkDeclare; try dsimp only
  repeat' (with_reducible first | assumption | apply routerFail_kept | apply State.modNets_kept | apply State.modSeq_kept | apply netError_kept | apply foldl_kept | rfl | split | (intro) | refine from_fst (by assumption) ?_ | refine from_snd (by assumption) ?_)

theorem execLinkSilence_kept {k a0 a1 a2 a3} : Kept k a3 → Goes (Kept k) (execLinkSilence a0 a1 a2 a3) := by
  intros; unfold execLinkSilence; try dsimp only
  repeat' (with_reducible first | assumption | apply Goes.of_next | apply linkDeclare_kept | rfl | split | (intro))

theorem execRouterSelfCheckFault_kept {k a0 a1} : Kept k a1 → Goes (Kept k) (execRouterSelfCheckFault a0 a1) := by
  intros; unfold execRouterSelfCheckFault; try dsimp only
  repeat' (with_reducible first | assumption | apply Goes.of_next | apply routerFail_kept | rfl | split | (intro))

theorem execRouteTablesInstall_kept {k a0} : Kept k a0 → Goes (Kept k) (execRouteTablesInstall a0) := by
  intros; unfold execRouteTablesInstall; try dsimp only
  repeat' (with_reducible first | assumption | apply Goes.of_next | apply State.modNets_kept | rfl | split | (intro))

theorem bankParity_kept {k a0 a1 a2 a3 a4} : Kept k a0 → Kept k (bankParity a0 a1 a2 a3 a4) := by
  intros; unfold bankParity; try dsimp only
  repeat' (with_reducible first | assumption | apply State.modBay_kept | apply failTile_kept | apply bayEvent_kept | apply replayTile_kept | rfl | split | (intro))

theorem crossbarFail_kept {k a0 a1 a2} : Kept k a0 → Kept k (crossbarFail a0 a1 a2) := by
  intros; unfold crossbarFail; try dsimp only
  repeat' (with_reducible first | assumption | apply failTile_kept | apply moverFail_kept | rfl | split | (intro) | refine from_fst (by assumption) ?_ | refine from_snd (by assumption) ?_)

theorem replayFailed_kept {k a0 a1} : Kept k a0 → Kept k (replayFailed a0 a1).1 := by
  intros; unfold replayFailed; try dsimp only
  repeat' (with_reducible first | assumption | apply State.modNets_kept | rfl | split | (intro))
grind_pattern replayFailed_kept => (replayFailed a0 a1), Kept k a0

theorem replayDone_kept {k a0 a1} : Kept k a0 → Kept k (replayDone a0 a1) := by
  intros; unfold replayDone; try dsimp only
  repeat' (with_reducible first | assumption | apply State.modNets_kept | rfl | split | (intro))

theorem sectorParity_kept {k a0 a1 a2} : Kept k a0 → Kept k (sectorParity a0 a1 a2) := by
  intros; unfold sectorParity; try dsimp only
  repeat' (with_reducible first | assumption | apply logErr_kept | apply storeLine_kept | apply stackEvent_kept | apply setMscLine_kept | rfl | split | (intro) | refine from_fst (by assumption) ?_ | refine from_snd (by assumption) ?_)

theorem entryParity_kept {k a0 a1} : Kept k a0 → Kept k (entryParity a0 a1) := by
  intros; unfold entryParity; try dsimp only
  repeat' (with_reducible first | assumption | apply catEvent_kept | apply modCat_kept | apply postCorrectedTo_kept | rfl | split | (intro) | refine from_fst (by assumption) ?_ | refine from_snd (by assumption) ?_)

theorem execFlitParityError_kept {k a0 a1 a2} : Kept k a2 → Goes (Kept k) (execFlitParityError a0 a1 a2) := by
  intros; unfold execFlitParityError; try dsimp only
  repeat' (with_reducible first | assumption | apply Goes.of_next | apply linkDeclare_kept | apply replayFailed_kept | apply replayDone_kept | apply stackEvent_kept | apply bankParity_kept | apply sectorParity_kept | apply crossbarFail_kept | apply entryParity_kept | apply State.modSeq_kept | rfl | split | (intro) | refine from_fst (by assumption) ?_ | refine from_snd (by assumption) ?_)

theorem execRequestDeadline_kept {k a0 a1} : Kept k a1 → Goes (Kept k) (execRequestDeadline a0 a1) := by
  intros; unfold execRequestDeadline; try dsimp only
  repeat' (with_reducible first | assumption | apply Goes.of_next | apply reach_kept | apply moverFail_kept | apply State.modNets_kept | apply trapCore_kept | rfl | split | (intro) | refine from_fst (by assumption) ?_ | refine from_snd (by assumption) ?_)

theorem outState_kept {k a0 a1} : Kept k a0 → Goes (Kept k) a1 → Kept k (outState a0 a1) := by
  intros; unfold outState; try dsimp only
  repeat' (with_reducible first | assumption | apply Goes.of_next | rfl | split | (intro) | refine from_fst (by assumption) ?_ | refine from_snd (by assumption) ?_)
  all_goals grind [kept_eq, goes_next]

theorem latchHi_kept {k a0 a1 a2 a3} : Kept k a0 → Kept k (latchHi a0 a1 a2 a3) := by
  intros; unfold latchHi; try dsimp only
  repeat' (with_reducible first | assumption | (simp only [kept_mk]; refine Kept.re ?_ rfl rfl rfl rfl rfl rfl rfl rfl rfl rfl rfl rfl rfl) | rfl | split | (intro))

theorem bayRegGet_kept {k a0 a1 a2} : Kept k a0 → Kept k (bayRegGet a0 a1 a2).1 := by
  intros; unfold bayRegGet; try dsimp only
  repeat' (with_reducible first | assumption | apply latchHi_kept | rfl | split | (intro) | refine from_fst (by assumption) ?_ | refine from_snd (by assumption) ?_)
grind_pattern bayRegGet_kept => (bayRegGet a0 a1 a2), Kept k a0

theorem bayRegPut_kept {k a0 a1 a2 a3 a4} : Kept k a0 → Kept k (bayRegPut a0 a1 a2 a3 a4) := by
  intros; unfold bayRegPut; try dsimp only
  repeat' (with_reducible first | assumption | apply execMoverResume_kept | apply State.modBay_kept | apply State.modMover_kept | apply fenceCore_kept | apply outState_kept | apply writeOwners_kept | apply execMoverWrWrite_kept | apply foldl_kept | rfl | split | (intro) | refine from_fst (by assumption) ?_ | refine from_snd (by assumption) ?_)

theorem mxRegPut_kept {k a0 a1 a2 a3 a4} : Kept k a0 → Kept k (mxRegPut a0 a1 a2 a3 a4) := by
  intros; unfold mxRegPut; try dsimp only
  repeat' (with_reducible first | assumption | apply mxPush_kept | apply mxFlush_kept | apply State.modMx_kept | apply mxSettle_kept | rfl | split | (intro) | refine from_fst (by assumption) ?_ | refine from_snd (by assumption) ?_)

theorem coreEntry_kept {k a0 a1 a2 a3 a4} : Kept k a0 → CoreGot.All (Kept k) (coreEntry a0 a1 a2 a3 a4) := by
  intros; unfold coreEntry; try dsimp only
  repeat' (with_reducible first | assumption | apply CoreGot.of_ok | apply CoreGot.of_wait | apply CoreGot.of_trap | apply lookup_kept | apply localKeep_kept | rfl | split | (intro) | exact CoreGot.to_ok (by assumption) | refine CoreGot.from_ok (by assumption) ?_ | exact CoreGot.to_wait (by assumption) | refine CoreGot.from_wait (by assumption) ?_ | exact CoreGot.to_trap (by assumption) | refine CoreGot.from_trap (by assumption) ?_ | refine from_fst (by assumption) ?_ | refine from_snd (by assumption) ?_)
grind_pattern coreEntry_kept => (coreEntry a0 a1 a2 a3 a4), Kept k a0

theorem coreEntries_kept {k a0 a1 a2 a3 a4} : Kept k a0 → CoreGot.All (Kept k) (coreEntries a0 a1 a2 a3 a4) := by fun_induction coreEntries <;> grind [kept_eq, goes_next, coreEntry_kept, CoreGot.all_ok, CoreGot.all_wait, CoreGot.all_trap]
grind_pattern coreEntries_kept => (coreEntries a0 a1 a2 a3 a4), Kept k a0

theorem takeGrant_kept {k a0 a1 a2} : Kept k a0 → Kept k (takeGrant a0 a1 a2).1 := by
  intros; unfold takeGrant; try dsimp only
  repeat' (with_reducible first | assumption | apply installGrant_kept | apply State.modMem_kept | rfl | split | (intro) | refine from_fst (by assumption) ?_ | refine from_snd (by assumption) ?_)
grind_pattern takeGrant_kept => (takeGrant a0 a1 a2), Kept k a0

theorem gainLine_kept {k a0 a1 a2 a3 a4 a5} : Kept k a0 → Kept k (gainLine a0 a1 a2 a3 a4 a5).1 := by
  intros; unfold gainLine; try dsimp only
  repeat' (with_reducible first | assumption | apply takeGrant_kept | apply homeRequest_kept | rfl | split | (intro) | refine from_fst (by assumption) ?_ | refine from_snd (by assumption) ?_)
grind_pattern gainLine_kept => (gainLine a0 a1 a2 a3 a4 a5), Kept k a0

theorem corePieces_kept {k a0 a1 a2 a3 a4 a5} : Kept k a0 → CoreGot.All (Kept k) (corePieces a0 a1 a2 a3 a4 a5) := by
  intros; unfold corePieces; try dsimp only
  repeat' (with_reducible first | assumption | apply CoreGot.of_ok | apply CoreGot.of_wait | apply CoreGot.of_trap | apply requestCheck_kept | apply foldl_kept | apply foldl_kept_fst | apply foldl_kept_snd | apply CoreGot.foldl_all | rfl | split | (intro) | exact CoreGot.to_ok (by assumption) | refine CoreGot.from_ok (by assumption) ?_ | exact CoreGot.to_wait (by assumption) | refine CoreGot.from_wait (by assumption) ?_ | exact CoreGot.to_trap (by assumption) | refine CoreGot.from_trap (by assumption) ?_ | refine from_fst (by assumption) ?_ | refine from_snd (by assumption) ?_)
  all_goals grind [kept_eq, goes_next, exAll_ok, exAll_error, requestCheck_kept, foldl_kept, CoreGot.all_ok, CoreGot.all_wait, CoreGot.all_trap]
grind_pattern corePieces_kept => (corePieces a0 a1 a2 a3 a4 a5), Kept k a0

theorem readLines_kept {k a0 a1 a2 a3 a4 a5} : Kept k a0 → CoreGot.All (Kept k) (readLines a0 a1 a2 a3 a4 a5) := by fun_induction readLines <;> grind [kept_eq, goes_next, optAll_none, optAll_some, gainLine_kept, CoreGot.all_ok, CoreGot.all_wait, CoreGot.all_trap]
grind_pattern readLines_kept => (readLines a0 a1 a2 a3 a4 a5), Kept k a0

theorem putLine_kept {k a0 a1 a2 a3 a4} : Kept k a0 → Kept k (putLine a0 a1 a2 a3 a4) := by
  intros; unfold putLine; try dsimp only
  repeat' (with_reducible first | assumption | apply l1Put_kept | apply foldl_kept | rfl | split | (intro) | refine from_fst (by assumption) ?_ | refine from_snd (by assumption) ?_)

theorem ownLines_kept {k a0 a1 a2 a3 a4} : Kept k a0 → Kept k (ownLines a0 a1 a2 a3 a4).1 := by fun_induction ownLines <;> grind [kept_eq, goes_next, gainLine_kept]
grind_pattern ownLines_kept => (ownLines a0 a1 a2 a3 a4), Kept k a0

theorem remoteAccess_kept {k a0 a1 a2 a3 a4 a5} : Kept k a0 → CoreGot.All (Kept k) (remoteAccess a0 a1 a2 a3 a4 a5) := by
  intros; unfold remoteAccess; try dsimp only
  repeat' (with_reducible first | assumption | apply CoreGot.of_ok | apply CoreGot.of_wait | apply CoreGot.of_trap | apply issueRequest_kept | apply State.modCore_kept | rfl | split | (intro) | exact CoreGot.to_ok (by assumption) | refine CoreGot.from_ok (by assumption) ?_ | exact CoreGot.to_wait (by assumption) | refine CoreGot.from_wait (by assumption) ?_ | exact CoreGot.to_trap (by assumption) | refine CoreGot.from_trap (by assumption) ?_ | refine from_fst (by assumption) ?_ | refine from_snd (by assumption) ?_)
grind_pattern remoteAccess_kept => (remoteAccess a0 a1 a2 a3 a4 a5), Kept k a0

theorem pageDirect_kept {k a0 a1 a2 a3} : Kept k a0 → CoreGot.All (Kept k) (pageDirect a0 a1 a2 a3) := by
  intros; unfold pageDirect; try dsimp only
  repeat' (with_reducible first | assumption | apply corePieces_kept | rfl | split | (intro))
grind_pattern pageDirect_kept => (pageDirect a0 a1 a2 a3), Kept k a0

theorem ctxLoad_kept {k a0 a1 a2 a3 a4} : Kept k a0 → CoreGot.All (Kept k) (ctxLoad a0 a1 a2 a3 a4) := by
  intros; unfold ctxLoad; try dsimp only
  repeat' (with_reducible first | assumption | apply CoreGot.of_ok | apply CoreGot.of_wait | apply CoreGot.of_trap | apply remoteAccess_kept | apply pageDirect_kept | apply coreEntries_kept | apply readLines_kept | apply foldl_kept | apply CoreGot.foldl_all | rfl | split | (intro) | exact CoreGot.to_ok (by assumption) | refine CoreGot.from_ok (by assumption) ?_ | exact CoreGot.to_wait (by assumption) | refine CoreGot.from_wait (by assumption) ?_ | exact CoreGot.to_trap (by assumption) | refine CoreGot.from_trap (by assumption) ?_ | refine from_fst (by assumption) ?_ | refine from_snd (by assumption) ?_)
grind_pattern ctxLoad_kept => (ctxLoad a0 a1 a2 a3 a4), Kept k a0

theorem coreDirty_kept {k a0 a1 a2 a3} : Kept k a0 → Kept k (coreDirty a0 a1 a2 a3) := by
  intros; unfold coreDirty; try dsimp only
  repeat' (with_reducible first | assumption | apply dirtyBlock_kept | apply foldl_kept | rfl | split | (intro))

theorem ctxStore_kept {k a0 a1 a2 a3 a4} : Kept k a0 → CoreGot.All (Kept k) (ctxStore a0 a1 a2 a3 a4) := by
  intros; unfold ctxStore; try dsimp only
  repeat' (with_reducible first | assumption | apply CoreGot.of_ok | apply CoreGot.of_wait | apply CoreGot.of_trap | apply coreDirty_kept | apply remoteAccess_kept | apply pageDirect_kept | apply ownLines_kept | apply putLine_kept | apply coreEntries_kept | apply foldl_kept | apply foldl_kept_fst | apply foldl_kept_snd | apply CoreGot.foldl_all | rfl | split | (intro) | exact CoreGot.to_ok (by assumption) | refine CoreGot.from_ok (by assumption) ?_ | exact CoreGot.to_wait (by assumption) | refine CoreGot.from_wait (by assumption) ?_ | exact CoreGot.to_trap (by assumption) | refine CoreGot.from_trap (by assumption) ?_ | refine from_fst (by assumption) ?_ | refine from_snd (by assumption) ?_)
grind_pattern ctxStore_kept => (ctxStore a0 a1 a2 a3 a4), Kept k a0

theorem predAdd_kept {k a0 a1 a2 a3 a4} : Kept k a0 → Kept k (predAdd a0 a1 a2 a3 a4) := by
  intros; unfold predAdd; try dsimp only
  repeat' (with_reducible first | assumption | apply State.modCore_kept | rfl | split | (intro))

theorem nearAmo_kept {k a0 a1 a2 a3 a4 a5 a6 a7 a8 a9} : Kept k a0 → CoreGot.All (Kept k) (nearAmo a0 a1 a2 a3 a4 a5 a6 a7 a8 a9) := by
  intros; unfold nearAmo; try dsimp only
  repeat' (with_reducible first | assumption | apply CoreGot.of_ok | apply CoreGot.of_wait | apply CoreGot.of_trap | apply State.modCore_kept | apply putLine_kept | apply predAdd_kept | apply gainLine_kept | rfl | split | (intro) | exact CoreGot.to_ok (by assumption) | refine CoreGot.from_ok (by assumption) ?_ | exact CoreGot.to_wait (by assumption) | refine CoreGot.from_wait (by assumption) ?_ | exact CoreGot.to_trap (by assumption) | refine CoreGot.from_trap (by assumption) ?_ | refine from_fst (by assumption) ?_ | refine from_snd (by assumption) ?_)
grind_pattern nearAmo_kept => (nearAmo a0 a1 a2 a3 a4 a5 a6 a7 a8 a9), Kept k a0

theorem farAmoCore_kept {k a0 a1 a2 a3 a4 a5 a6 a7 a8 a9} : Kept k a0 → CoreGot.All (Kept k) (farAmoCore a0 a1 a2 a3 a4 a5 a6 a7 a8 a9) := by
  intros; unfold farAmoCore; try dsimp only
  repeat' (with_reducible first | assumption | apply CoreGot.of_ok | apply CoreGot.of_wait | apply CoreGot.of_trap | apply farPerform_kept | apply State.modCore_kept | apply predAdd_kept | apply outsideWrite_kept | rfl | split | (intro) | exact CoreGot.to_ok (by assumption) | refine CoreGot.from_ok (by assumption) ?_ | exact CoreGot.to_wait (by assumption) | refine CoreGot.from_wait (by assumption) ?_ | exact CoreGot.to_trap (by assumption) | refine CoreGot.from_trap (by assumption) ?_ | refine from_fst (by assumption) ?_ | refine from_snd (by assumption) ?_)
grind_pattern farAmoCore_kept => (farAmoCore a0 a1 a2 a3 a4 a5 a6 a7 a8 a9), Kept k a0

theorem coreAmo_kept {k a0 a1 a2 a3 a4 a5 a6 a7} : Kept k a0 → CoreGot.All (Kept k) (coreAmo a0 a1 a2 a3 a4 a5 a6 a7) := by
  intros; unfold coreAmo; try dsimp only
  repeat' (with_reducible first | assumption | apply CoreGot.of_ok | apply CoreGot.of_wait | apply CoreGot.of_trap | apply coreDirty_kept | apply nearAmo_kept | apply farAmoCore_kept | apply remoteAccess_kept | apply coreEntry_kept | apply corePieces_kept | rfl | split | (intro) | exact CoreGot.to_ok (by assumption) | refine CoreGot.from_ok (by assumption) ?_ | exact CoreGot.to_wait (by assumption) | refine CoreGot.from_wait (by assumption) ?_ | exact CoreGot.to_trap (by assumption) | refine CoreGot.from_trap (by assumption) ?_ | refine from_fst (by assumption) ?_ | refine from_snd (by assumption) ?_)
grind_pattern coreAmo_kept => (coreAmo a0 a1 a2 a3 a4 a5 a6 a7), Kept k a0

theorem coreLr_kept {k a0 a1 a2 a3 a4} : Kept k a0 → CoreGot.All (Kept k) (coreLr a0 a1 a2 a3 a4) := by
  intros; unfold coreLr; try dsimp only
  repeat' (with_reducible first | assumption | apply CoreGot.of_ok | apply CoreGot.of_wait | apply CoreGot.of_trap | apply State.modCore_kept | apply coreEntry_kept | apply gainLine_kept | apply readLines_kept | apply corePieces_kept | rfl | split | (intro) | exact CoreGot.to_ok (by assumption) | refine CoreGot.from_ok (by assumption) ?_ | exact CoreGot.to_wait (by assumption) | refine CoreGot.from_wait (by assumption) ?_ | exact CoreGot.to_trap (by assumption) | refine CoreGot.from_trap (by assumption) ?_ | refine from_fst (by assumption) ?_ | refine from_snd (by assumption) ?_)
grind_pattern coreLr_kept => (coreLr a0 a1 a2 a3 a4), Kept k a0

theorem coreSc_kept {k a0 a1 a2 a3 a4 a5} : Kept k a0 → CoreGot.All (Kept k) (coreSc a0 a1 a2 a3 a4 a5) := by
  intros; unfold coreSc; try dsimp only
  repeat' (with_reducible first | assumption | apply CoreGot.of_ok | apply CoreGot.of_wait | apply CoreGot.of_trap | apply coreDirty_kept | apply State.modCore_kept | apply putLine_kept | apply coreEntry_kept | apply corePieces_kept | rfl | split | (intro) | exact CoreGot.to_ok (by assumption) | refine CoreGot.from_ok (by assumption) ?_ | exact CoreGot.to_wait (by assumption) | refine CoreGot.from_wait (by assumption) ?_ | exact CoreGot.to_trap (by assumption) | refine CoreGot.from_trap (by assumption) ?_ | refine from_fst (by assumption) ?_ | refine from_snd (by assumption) ?_)
grind_pattern coreSc_kept => (coreSc a0 a1 a2 a3 a4 a5), Kept k a0

theorem bayOwned_kept {k a0 a1 a2 a3 a4 a5 a6} : Kept k a0 → CoreGot.All (Kept k) (bayOwned a0 a1 a2 a3 a4 a5 a6) := by
  intros; unfold bayOwned; try dsimp only
  repeat' (with_reducible first | assumption | apply CoreGot.of_ok | apply CoreGot.of_wait | apply CoreGot.of_trap | apply bayEvent_kept | rfl | split | (intro) | exact CoreGot.to_ok (by assumption) | refine CoreGot.from_ok (by assumption) ?_ | exact CoreGot.to_wait (by assumption) | refine CoreGot.from_wait (by assumption) ?_ | exact CoreGot.to_trap (by assumption) | refine CoreGot.from_trap (by assumption) ?_ | refine from_fst (by assumption) ?_ | refine from_snd (by assumption) ?_)
grind_pattern bayOwned_kept => (bayOwned a0 a1 a2 a3 a4 a5 a6), Kept k a0

theorem coreLoad_kept {k a0 a1 a2 a3 a4 a5} : Kept k a0 → CoreGot.All (Kept k) (coreLoad a0 a1 a2 a3 a4 a5) := by
  intros; unfold coreLoad; try dsimp only
  repeat' (with_reducible first | assumption | apply CoreGot.of_ok | apply CoreGot.of_wait | apply CoreGot.of_trap | apply bayOwned_kept | apply bayRegGet_kept | apply ctxLoad_kept | apply foldl_kept | apply foldl_kept_fst | apply foldl_kept_snd | apply CoreGot.foldl_all | rfl | split | (intro) | exact CoreGot.to_ok (by assumption) | refine CoreGot.from_ok (by assumption) ?_ | exact CoreGot.to_wait (by assumption) | refine CoreGot.from_wait (by assumption) ?_ | exact CoreGot.to_trap (by assumption) | refine CoreGot.from_trap (by assumption) ?_ | refine from_fst (by assumption) ?_ | refine from_snd (by assumption) ?_)
grind_pattern coreLoad_kept => (coreLoad a0 a1 a2 a3 a4 a5), Kept k a0

theorem coreStore_kept {k a0 a1 a2 a3 a4 a5} : Kept k a0 → CoreGot.All (Kept k) (coreStore a0 a1 a2 a3 a4 a5) := by
  intros; unfold coreStore; try dsimp only
  repeat' (with_reducible first | assumption | apply CoreGot.of_ok | apply CoreGot.of_wait | apply CoreGot.of_trap | apply State.modBay_kept | apply bayOwned_kept | apply State.modCore_kept | apply ctxStore_kept | apply bayRegPut_kept | apply mxRegPut_kept | apply foldl_kept | apply CoreGot.foldl_all | rfl | split | (intro) | exact CoreGot.to_ok (by assumption) | refine CoreGot.from_ok (by assumption) ?_ | exact CoreGot.to_wait (by assumption) | refine CoreGot.from_wait (by assumption) ?_ | exact CoreGot.to_trap (by assumption) | refine CoreGot.from_trap (by assumption) ?_ | refine from_fst (by assumption) ?_ | refine from_snd (by assumption) ?_)
grind_pattern coreStore_kept => (coreStore a0 a1 a2 a3 a4 a5), Kept k a0

theorem coreCharge_kept {k a0 a1 a2 a3 a4 a5 a6} : Kept k a0 → Kept k (coreCharge a0 a1 a2 a3 a4 a5 a6) := by
  intros; unfold coreCharge; try dsimp only
  repeat' (with_reducible first | assumption | apply chargeTile_kept | rfl | split | (intro) | refine from_fst (by assumption) ?_ | refine from_snd (by assumption) ?_)

theorem csrWrite_kept {k a0 a1 a2 a3 a4} : Kept k a0 → OptAll (fun x => Kept k x) (csrWrite a0 a1 a2 a3 a4) := by
  intros; unfold csrWrite; try dsimp only
  repeat' (with_reducible first | assumption | apply State.modCore_kept | rfl | split | (intro) | refine from_fst (by assumption) ?_ | refine from_snd (by assumption) ?_)
  all_goals grind [kept_eq, goes_next, optAll_none, optAll_some, State.modCore_kept]
grind_pattern csrWrite_kept => (csrWrite a0 a1 a2 a3 a4), Kept k a0

theorem illegal_kept {k a0 a1} : Kept k a0 → CoreGot.All (Kept k) (illegal a0 a1) := by
  intros; unfold illegal; try dsimp only
  repeat' (with_reducible first | assumption | apply CoreGot.of_trap | rfl | split | (intro) | exact CoreGot.to_trap (by assumption) | refine CoreGot.from_trap (by assumption) ?_)
grind_pattern illegal_kept => (illegal a0 a1), Kept k a0

theorem rvLoad_kept {k a0 a1 a2 a3 a4 a5 a6} : Kept k a0 → CoreGot.All (Kept k) (rvLoad a0 a1 a2 a3 a4 a5 a6) := by
  intros; unfold rvLoad; try dsimp only
  repeat' (with_reducible first | assumption | apply CoreGot.of_ok | apply CoreGot.of_wait | apply CoreGot.of_trap | apply coreCharge_kept | apply coreLoad_kept | apply State.modCore_kept | rfl | split | (intro) | exact CoreGot.to_ok (by assumption) | refine CoreGot.from_ok (by assumption) ?_ | exact CoreGot.to_wait (by assumption) | refine CoreGot.from_wait (by assumption) ?_ | exact CoreGot.to_trap (by assumption) | refine CoreGot.from_trap (by assumption) ?_ | refine from_fst (by assumption) ?_ | refine from_snd (by assumption) ?_)
grind_pattern rvLoad_kept => (rvLoad a0 a1 a2 a3 a4 a5 a6), Kept k a0

theorem rvStore_kept {k a0 a1 a2 a3 a4 a5 a6} : Kept k a0 → CoreGot.All (Kept k) (rvStore a0 a1 a2 a3 a4 a5 a6) := by
  intros; unfold rvStore; try dsimp only
  repeat' (with_reducible first | assumption | apply CoreGot.of_ok | apply CoreGot.of_wait | apply CoreGot.of_trap | apply coreCharge_kept | apply coreStore_kept | rfl | split | (intro) | exact CoreGot.to_ok (by assumption) | refine CoreGot.from_ok (by assumption) ?_ | exact CoreGot.to_wait (by assumption) | refine CoreGot.from_wait (by assumption) ?_ | exact CoreGot.to_trap (by assumption) | refine CoreGot.from_trap (by assumption) ?_ | refine from_fst (by assumption) ?_ | refine from_snd (by assumption) ?_)
grind_pattern rvStore_kept => (rvStore a0 a1 a2 a3 a4 a5 a6), Kept k a0

theorem rvAmo_kept {k a0 a1 a2 a3 a4} : Kept k a0 → CoreGot.All (Kept k) (rvAmo a0 a1 a2 a3 a4) := by
  intros; unfold rvAmo; try dsimp only
  repeat' (with_reducible first | assumption | apply CoreGot.of_ok | apply CoreGot.of_wait | apply CoreGot.of_trap | apply coreAmo_kept | apply illegal_kept | apply coreCharge_kept | apply State.modCore_kept | apply coreSc_kept | apply coreLr_kept | rfl | split | (intro) | exact CoreGot.to_ok (by assumption) | refine CoreGot.from_ok (by assumption) ?_ | exact CoreGot.to_wait (by assumption) | refine CoreGot.from_wait (by assumption) ?_ | exact CoreGot.to_trap (by assumption) | refine CoreGot.from_trap (by assumption) ?_ | refine from_fst (by assumption) ?_ | refine from_snd (by assumption) ?_)
grind_pattern rvAmo_kept => (rvAmo a0 a1 a2 a3 a4), Kept k a0

theorem rvCsr_kept {k a0 a1 a2 a3 a4} : Kept k a0 → CoreGot.All (Kept k) (rvCsr a0 a1 a2 a3 a4) := by
  intros; unfold rvCsr; try dsimp only
  repeat' (with_reducible first | assumption | apply CoreGot.of_ok | apply illegal_kept | apply State.modCore_kept | apply csrWrite_kept | rfl | split | (intro) | exact CoreGot.to_ok (by assumption) | refine CoreGot.from_ok (by assumption) ?_ | refine from_fst (by assumption) ?_ | refine from_snd (by assumption) ?_)
  all_goals grind [kept_eq, goes_next, optAll_none, optAll_some, illegal_kept, State.modCore_kept, csrWrite_kept, CoreGot.all_ok]
grind_pattern rvCsr_kept => (rvCsr a0 a1 a2 a3 a4), Kept k a0

theorem rvMret_kept {k a0 a1 a2} : Kept k a0 → CoreGot.All (Kept k) (rvMret a0 a1 a2) := by
  intros; unfold rvMret; try dsimp only
  repeat' (with_reducible first | assumption | apply CoreGot.of_ok | apply State.modCore_kept | rfl | split | (intro) | exact CoreGot.to_ok (by assumption) | refine CoreGot.from_ok (by assumption) ?_)
grind_pattern rvMret_kept => (rvMret a0 a1 a2), Kept k a0

theorem rvSystem_kept {k a0 a1 a2 a3 a4} : Kept k a0 → CoreGot.All (Kept k) (rvSystem a0 a1 a2 a3 a4) := by
  intros; unfold rvSystem; try dsimp only
  repeat' (with_reducible first | assumption | apply CoreGot.of_ok | apply CoreGot.of_trap | apply illegal_kept | apply rvMret_kept | rfl | split | (intro) | exact CoreGot.to_ok (by assumption) | refine CoreGot.from_ok (by assumption) ?_ | exact CoreGot.to_trap (by assumption) | refine CoreGot.from_trap (by assumption) ?_ | refine from_fst (by assumption) ?_ | refine from_snd (by assumption) ?_)
grind_pattern rvSystem_kept => (rvSystem a0 a1 a2 a3 a4), Kept k a0

theorem rvScalar_kept {k a0 a1 a2 a3 a4} : Kept k a0 → CoreGot.All (Kept k) (rvScalar a0 a1 a2 a3 a4) := by
  intros; unfold rvScalar; try dsimp only
  repeat' (with_reducible first | assumption | apply CoreGot.of_ok | apply illegal_kept | apply rvCsr_kept | apply rvStore_kept | apply State.modCore_kept | apply rvAmo_kept | apply State.setCore_kept | apply rvSystem_kept | apply rvLoad_kept | rfl | split | (intro) | exact CoreGot.to_ok (by assumption) | refine CoreGot.from_ok (by assumption) ?_ | refine from_fst (by assumption) ?_ | refine from_snd (by assumption) ?_)
grind_pattern rvScalar_kept => (rvScalar a0 a1 a2 a3 a4), Kept k a0

theorem vMemGo_kept {k a0 a1 a2 a3 a4} : Kept k a0 → (∀ y0 y1, Kept k y0 → CoreGot.All (Kept k) (a3 y0 y1)) → CoreGot.All (Kept k) (vMemGo a0 a1 a2 a3 a4) := by fun_induction vMemGo <;> grind [kept_eq, goes_next, State.modCore_kept, CoreGot.all_ok, CoreGot.all_wait, CoreGot.all_trap]
grind_pattern vMemGo_kept => (vMemGo a0 a1 a2 a3 a4), Kept k a0

theorem vMemElem_kept {k a0 a1 a2 a3 a4 a5 a6 a7 a8 a9} : Kept k a0 → CoreGot.All (Kept k) (vMemElem a0 a1 a2 a3 a4 a5 a6 a7 a8 a9) := by fun_induction vMemElem <;> grind [kept_eq, goes_next, coreLoad_kept, State.modCore_kept, coreStore_kept, CoreGot.all_ok, CoreGot.all_wait, CoreGot.all_trap]
grind_pattern vMemElem_kept => (vMemElem a0 a1 a2 a3 a4 a5 a6 a7 a8 a9), Kept k a0

theorem vMemDone_kept {k a0 a1 a2 a3 a4 a5 a6 a7} : CoreGot.All (Kept k) a6 → CoreGot.All (Kept k) (vMemDone a0 a1 a2 a3 a4 a5 a6 a7) := by
  intros; unfold vMemDone; try dsimp only
  repeat' (with_reducible first | assumption | (simp only [kept_mk]; refine Kept.re ?_ rfl rfl rfl rfl rfl rfl rfl rfl rfl rfl rfl rfl rfl) | apply CoreGot.of_ok | apply CoreGot.of_wait | apply CoreGot.of_trap | apply coreCharge_kept | apply State.modCore_kept | rfl | split | (intro) | exact CoreGot.to_ok (by assumption) | refine CoreGot.from_ok (by assumption) ?_ | exact CoreGot.to_wait (by assumption) | refine CoreGot.from_wait (by assumption) ?_ | exact CoreGot.to_trap (by assumption) | refine CoreGot.from_trap (by assumption) ?_ | refine from_fst (by assumption) ?_ | refine from_snd (by assumption) ?_)
grind_pattern vMemDone_kept => (vMemDone a0 a1 a2 a3 a4 a5 a6 a7), CoreGot.All (Kept k) a6

theorem vMemRun_kept {k a0 a1 a2 a3 a4 a5 a6 a7 a8} : Kept k a0 → CoreGot.All (Kept k) (vMemRun a0 a1 a2 a3 a4 a5 a6 a7 a8) := by
  intros; unfold vMemRun; try dsimp only
  repeat' (with_reducible first | assumption | apply vMemElem_kept | apply vMemGo_kept | rfl | split | (intro))
grind_pattern vMemRun_kept => (vMemRun a0 a1 a2 a3 a4 a5 a6 a7 a8), Kept k a0

theorem vMemFlat_kept {k a0 a1 a2 a3 a4 a5 a6} : Kept k a0 → CoreGot.All (Kept k) (vMemFlat a0 a1 a2 a3 a4 a5 a6) := by
  intros; unfold vMemFlat; try dsimp only
  repeat' (with_reducible first | assumption | apply vMemElem_kept | apply vMemGo_kept | rfl | split | (intro))
grind_pattern vMemFlat_kept => (vMemFlat a0 a1 a2 a3 a4 a5 a6), Kept k a0

theorem vMemElems_kept {k a0 a1 a2 a3 a4 a5} : Kept k a0 → CoreGot.All (Kept k) (vMemElems a0 a1 a2 a3 a4 a5) := by
  intros; unfold vMemElems; try dsimp only
  repeat' (with_reducible first | assumption | (simp only [kept_mk]; refine Kept.re ?_ rfl rfl rfl rfl rfl rfl rfl rfl rfl rfl rfl rfl rfl) | apply CoreGot.of_ok | apply CoreGot.of_wait | apply CoreGot.of_trap | apply illegal_kept | apply State.modCore_kept | apply vMemDone_kept | apply vMemRun_kept | rfl | split | (intro) | exact CoreGot.to_ok (by assumption) | refine CoreGot.from_ok (by assumption) ?_ | exact CoreGot.to_wait (by assumption) | refine CoreGot.from_wait (by assumption) ?_ | exact CoreGot.to_trap (by assumption) | refine CoreGot.from_trap (by assumption) ?_ | refine from_fst (by assumption) ?_ | refine from_snd (by assumption) ?_)
grind_pattern vMemElems_kept => (vMemElems a0 a1 a2 a3 a4 a5), Kept k a0

theorem vMem_kept {k a0 a1 a2 a3 a4 a5} : Kept k a0 → CoreGot.All (Kept k) (vMem a0 a1 a2 a3 a4 a5) := by
  intros; unfold vMem; try dsimp only
  repeat' (with_reducible first | assumption | apply illegal_kept | apply vMemFlat_kept | apply vMemElems_kept | apply vMemDone_kept | rfl | split | (intro))
grind_pattern vMem_kept => (vMem a0 a1 a2 a3 a4 a5), Kept k a0

theorem vOp_kept {k a0 a1 a2 a3 a4} : Kept k a0 → CoreGot.All (Kept k) (vOp a0 a1 a2 a3 a4) := by
  intros; unfold vOp; try dsimp only
  repeat' (with_reducible first | assumption | (simp only [kept_mk]; refine Kept.re ?_ rfl rfl rfl rfl rfl rfl rfl rfl rfl rfl rfl rfl rfl) | apply CoreGot.of_ok | apply illegal_kept | apply State.setCore_kept | rfl | split | (intro) | exact CoreGot.to_ok (by assumption) | refine CoreGot.from_ok (by assumption) ?_ | refine from_fst (by assumption) ?_ | refine from_snd (by assumption) ?_)
grind_pattern vOp_kept => (vOp a0 a1 a2 a3 a4), Kept k a0

theorem failPage_kept {k a0 a1 a2 a3 a4 a5} : Kept k a0 → Kept k (failPage a0 a1 a2 a3 a4 a5) := by
  intros; unfold failPage; try dsimp only
  repeat' (with_reducible first | assumption | apply failTile_kept | apply postTranslation_kept | apply noteTileSeq_kept | rfl | split | (intro) | refine from_fst (by assumption) ?_ | refine from_snd (by assumption) ?_)

theorem tileView_kept {k a0 a1 a2 a3 a4 a5} : Kept k a0 → TileGot.All (Kept k) (tileView a0 a1 a2 a3 a4 a5) := by
  intros; unfold tileView; try dsimp only
  repeat' (with_reducible first | assumption | apply Ents.of_ok | apply Ents.of_fail | apply Ents.of_wait | apply TileGot.of_ok | apply TileGot.of_wait | apply TileGot.of_fail | apply failPage_kept | apply walkPages_kept | apply failTile_kept | rfl | split | (intro) | exact Ents.to_ok (by assumption) | refine Ents.from_ok (by assumption) ?_ | exact Ents.to_fail (by assumption) | refine Ents.from_fail (by assumption) ?_ | exact Ents.to_wait (by assumption) | refine Ents.from_wait (by assumption) ?_ | exact TileGot.to_ok (by assumption) | refine TileGot.from_ok (by assumption) ?_ | exact TileGot.to_wait (by assumption) | refine TileGot.from_wait (by assumption) ?_ | exact TileGot.to_fail (by assumption) | refine TileGot.from_fail (by assumption) ?_ | refine from_fst (by assumption) ?_ | refine from_snd (by assumption) ?_)
grind_pattern tileView_kept => (tileView a0 a1 a2 a3 a4 a5), Kept k a0

theorem tileRead_kept {k a0 a1 a2 a3 a4} : Kept k a0 → TileGot.All (Kept k) (tileRead a0 a1 a2 a3 a4) := by
  intros; unfold tileRead; try dsimp only
  repeat' (with_reducible first | assumption | apply Got.of_ok | apply Got.of_wait | apply Got.of_bad | apply TileGot.of_ok | apply TileGot.of_wait | apply TileGot.of_fail | apply failTile_kept | apply vRead_kept | apply tileView_kept | apply chargeTile_kept | rfl | split | (intro) | exact Got.to_ok (by assumption) | refine Got.from_ok (by assumption) ?_ | exact Got.to_wait (by assumption) | refine Got.from_wait (by assumption) ?_ | exact Got.to_bad (by assumption) | refine Got.from_bad (by assumption) ?_ | exact TileGot.to_ok (by assumption) | refine TileGot.from_ok (by assumption) ?_ | exact TileGot.to_wait (by assumption) | refine TileGot.from_wait (by assumption) ?_ | exact TileGot.to_fail (by assumption) | refine TileGot.from_fail (by assumption) ?_ | refine from_fst (by assumption) ?_ | refine from_snd (by assumption) ?_)
grind_pattern tileRead_kept => (tileRead a0 a1 a2 a3 a4), Kept k a0

theorem tileWrite_kept {k a0 a1 a2 a3 a4 a5} : Kept k a0 → TileGot.All (Kept k) (tileWrite a0 a1 a2 a3 a4 a5) := by
  intros; unfold tileWrite; try dsimp only
  repeat' (with_reducible first | assumption | apply Got.of_ok | apply Got.of_wait | apply Got.of_bad | apply TileGot.of_ok | apply TileGot.of_wait | apply TileGot.of_fail | apply vWrite_kept | apply failTile_kept | apply tileView_kept | apply chargeTile_kept | rfl | split | (intro) | exact Got.to_ok (by assumption) | refine Got.from_ok (by assumption) ?_ | exact Got.to_wait (by assumption) | refine Got.from_wait (by assumption) ?_ | exact Got.to_bad (by assumption) | refine Got.from_bad (by assumption) ?_ | exact TileGot.to_ok (by assumption) | refine TileGot.from_ok (by assumption) ?_ | exact TileGot.to_wait (by assumption) | refine TileGot.from_wait (by assumption) ?_ | exact TileGot.to_fail (by assumption) | refine TileGot.from_fail (by assumption) ?_ | refine from_fst (by assumption) ?_ | refine from_snd (by assumption) ?_)
grind_pattern tileWrite_kept => (tileWrite a0 a1 a2 a3 a4 a5), Kept k a0

theorem enterStores_kept {k a0 a1 a2} : Kept k a0 → Kept k (enterStores a0 a1 a2) := by
  intros; unfold enterStores; try dsimp only
  repeat' (with_reducible first | assumption | (simp only [kept_mk]; refine Kept.re ?_ rfl rfl rfl rfl rfl rfl rfl rfl rfl rfl rfl rfl rfl) | apply State.modBay_kept | apply State.modCore_kept | apply State.modMx_kept | apply foldl_kept | rfl | split | (intro))

theorem writeArgs_kept {k a0 a1 a2 a3} : Kept k a0 → Kept k (writeArgs a0 a1 a2 a3) := by
  intros; unfold writeArgs; try dsimp only
  repeat' (with_reducible first | assumption | apply State.modBay_kept | apply State.modCore_kept | apply foldl_kept | rfl | split | (intro))

theorem imageSections_kept {k a0 a1 a2 a3 a4 a5} : Kept k a0 → TileGot.All (Kept k) (imageSections a0 a1 a2 a3 a4 a5) := by
  intros; unfold imageSections; try dsimp only
  repeat' (with_reducible first | assumption | apply TileGot.of_ok | apply TileGot.of_wait | apply TileGot.of_fail | apply tileRead_kept | rfl | split | (intro) | exact TileGot.to_ok (by assumption) | refine TileGot.from_ok (by assumption) ?_ | exact TileGot.to_wait (by assumption) | refine TileGot.from_wait (by assumption) ?_ | exact TileGot.to_fail (by assumption) | refine TileGot.from_fail (by assumption) ?_ | refine from_fst (by assumption) ?_ | refine from_snd (by assumption) ?_)
grind_pattern imageSections_kept => (imageSections a0 a1 a2 a3 a4 a5), Kept k a0

theorem loadSections_kept {k a0 a1 a2 a3 a4 a5} : Kept k a0 → TileGot.All (Kept k) (loadSections a0 a1 a2 a3 a4 a5) := by fun_induction loadSections <;> grind [kept_eq, goes_next, State.modBay_kept, tileRead_kept, TileGot.all_ok, TileGot.all_wait, TileGot.all_fail]
grind_pattern loadSections_kept => (loadSections a0 a1 a2 a3 a4 a5), Kept k a0

theorem saveCores_kept {k a0 a1 a2 a3 a4 a5} : Kept k a0 → TileGot.All (Kept k) (saveCores a0 a1 a2 a3 a4 a5) := by fun_induction saveCores <;> grind [kept_eq, goes_next, tileWrite_kept, TileGot.all_ok, TileGot.all_wait, TileGot.all_fail]
grind_pattern saveCores_kept => (saveCores a0 a1 a2 a3 a4 a5), Kept k a0

theorem restoreCores_kept {k a0 a1 a2 a3 a4 a5} : Kept k a0 → TileGot.All (Kept k) (restoreCores a0 a1 a2 a3 a4 a5) := by
  intro h
  induction a5 generalizing a0 with
  | nil => rw [restoreCores]; exact TileGot.of_ok h
  | cons p rest ih =>
    rw [restoreCores]
    split
    · exact TileGot.from_wait (by assumption) (tileRead_kept h)
    · exact TileGot.from_fail (by assumption) (tileRead_kept h)
    · rename_i e
      have h2 := TileGot.from_ok e (tileRead_kept h)
      split
      · exact ih (State.setMx_kept h2)
      · exact failTile_kept h2
grind_pattern restoreCores_kept => (restoreCores a0 a1 a2 a3 a4 a5), Kept k a0

theorem startKernel_kept {k a0 a1 a2 a3 a4 a5 a6} : Kept k a0 → Kept k (startKernel a0 a1 a2 a3 a4 a5 a6) := by
  intros; unfold startKernel; try dsimp only
  repeat' (with_reducible first | assumption | apply State.modBay_kept | apply State.modCore_kept | apply modTile_kept | apply foldl_kept | rfl | split | (intro))

theorem doneTile_kept {k a0 a1 a2} : Kept k a0 → Kept k (doneTile a0 a1 a2) := by
  intros; unfold doneTile; try dsimp only
  repeat' (with_reducible first | assumption | apply leaveBay_kept | apply modTile_kept | rfl | split | (intro) | refine from_fst (by assumption) ?_ | refine from_snd (by assumption) ?_)

theorem parkTags_kept {k a0 a1 a2} : Kept k a0 → Kept k (parkTags a0 a1 a2) := by
  intros; unfold parkTags; try dsimp only
  repeat' (with_reducible first | assumption | apply State.modFab_kept | apply State.modWork_kept | apply foldl_kept | apply foldl_kept_fst | apply foldl_kept_snd | rfl | split | (intro) | refine from_fst (by assumption) ?_ | refine from_snd (by assumption) ?_)

theorem settleTile_kept {k a0 a1 a2} : Kept k a0 → Kept k (settleTile a0 a1 a2) := by
  intros; unfold settleTile; try dsimp only
  repeat' (with_reducible first | assumption | apply leaveBay_kept | apply doneTile_kept | apply modTile_kept | apply parkTags_kept | rfl | split | (intro) | refine from_fst (by assumption) ?_ | refine from_snd (by assumption) ?_)

theorem settleCompute_kept {k a0 a1} : Kept k a0 → Kept k (settleCompute a0 a1) := by
  intros; unfold settleCompute; try dsimp only
  repeat' (with_reducible first | assumption | apply TileGot.of_ok | apply TileGot.of_wait | apply TileGot.of_fail | apply State.modBay_kept | apply settleTile_kept | apply saveCores_kept | apply modTile_kept | apply foldl_kept | apply foldl_kept_fst | apply foldl_kept_snd | apply TileGot.foldl_all | rfl | split | (intro) | exact TileGot.to_ok (by assumption) | refine TileGot.from_ok (by assumption) ?_ | exact TileGot.to_wait (by assumption) | refine TileGot.from_wait (by assumption) ?_ | exact TileGot.to_fail (by assumption) | refine TileGot.from_fail (by assumption) ?_ | refine from_fst (by assumption) ?_ | refine from_snd (by assumption) ?_)

theorem advanceTile_kept {k a0 a1} : Kept k a0 → Kept k (advanceTile a0 a1) := by
  intros; unfold advanceTile; try dsimp only
  repeat' (with_reducible first | assumption | apply TileGot.of_ok | apply TileGot.of_wait | apply TileGot.of_fail | apply trayConsume_kept | apply startKernel_kept | apply restoreCores_kept | apply modTile_kept | rfl | split | (intro) | exact TileGot.to_ok (by assumption) | refine TileGot.from_ok (by assumption) ?_ | exact TileGot.to_wait (by assumption) | refine TileGot.from_wait (by assumption) ?_ | exact TileGot.to_fail (by assumption) | refine TileGot.from_fail (by assumption) ?_ | refine from_fst (by assumption) ?_ | refine from_snd (by assumption) ?_)

theorem enterTile_kept {k a0 a1 a2} : Kept k a0 → TileGot.All (Kept k) (enterTile a0 a1 a2) := by
  intros; unfold enterTile; try dsimp only
  repeat' (with_reducible first | assumption | apply TileGot.of_ok | apply TileGot.of_wait | apply TileGot.of_fail | apply writeArgs_kept | apply State.modBay_kept | apply loadSections_kept | apply imageSections_kept | apply modTile_kept | apply enterStores_kept | rfl | split | (intro) | exact TileGot.to_ok (by assumption) | refine TileGot.from_ok (by assumption) ?_ | exact TileGot.to_wait (by assumption) | refine TileGot.from_wait (by assumption) ?_ | exact TileGot.to_fail (by assumption) | refine TileGot.from_fail (by assumption) ?_ | refine from_fst (by assumption) ?_ | refine from_snd (by assumption) ?_)
grind_pattern enterTile_kept => (enterTile a0 a1 a2), Kept k a0

theorem execMxDescriptorComplete_kept {k a0 a1 a2} : Kept k a2 → Goes (Kept k) (execMxDescriptorComplete a0 a1 a2) := by
  intros; unfold execMxDescriptorComplete; try dsimp only
  repeat' (with_reducible first | assumption | apply Goes.of_next | apply settleCompute_kept | apply mxSettle_kept | apply State.setMx_kept | rfl | split | (intro) | refine from_fst (by assumption) ?_ | refine from_snd (by assumption) ?_)

theorem execMoverDescriptorComplete_kept {k a0 a1 a2} : Kept k a2 → Goes (Kept k) (execMoverDescriptorComplete a0 a1 a2) := by
  intros; unfold execMoverDescriptorComplete; try dsimp only
  repeat' (with_reducible first | assumption | apply Goes.of_next | apply State.modBay_kept | apply settleTile_kept | apply advanceTile_kept | apply State.setMover_kept | apply moverEndBad_kept | rfl | split | (intro) | refine from_fst (by assumption) ?_ | refine from_snd (by assumption) ?_)

theorem execGangStart_kept {k a0 a1} : Kept k a1 → Goes (Kept k) (execGangStart a0 a1) := by
  intros; unfold execGangStart; try dsimp only
  repeat' (with_reducible first | assumption | apply Goes.of_next | apply reach_kept | apply advanceTile_kept | rfl | split | (intro) | refine from_fst (by assumption) ?_ | refine from_snd (by assumption) ?_)

end Sys2Proof.Machine
end

