-- ==== Sys2Proof/Laws/KeptCoreOps.lean ====
section
/-! SUPPORT. What the cores’ own instructions and card messages keep: `Kept` after each operation. -/

namespace Sys2Proof.Machine

set_option Elab.async false
set_option linter.all false

theorem coreRd_kept {k a0 a1 a2 a3 a4 a5} : Kept k a0 → CoreGot.All (Kept k) (coreRd a0 a1 a2 a3 a4 a5) := by
  intros; unfold coreRd; try dsimp only
  repeat' (with_reducible first | assumption | apply CoreGot.of_ok | apply State.modCore_kept | rfl | split | (intro) | exact CoreGot.to_ok (by assumption) | refine CoreGot.from_ok (by assumption) ?_)
grind_pattern coreRd_kept => (coreRd a0 a1 a2 a3 a4 a5), Kept k a0

theorem cardSend_kept {k a0 a1} : Kept k a0 → Kept k (cardSend a0 a1) := by
  intros; unfold cardSend; try dsimp only
  repeat' (with_reducible first | assumption | apply State.modNets_kept | rfl | split | (intro))

theorem cnSend_kept {k a0 a1 a2 a3 a4 a5 a6 a7} : Kept k a0 → CoreGot.All (Kept k) (cnSend a0 a1 a2 a3 a4 a5 a6 a7) := by
  intros; unfold cnSend; try dsimp only
  repeat' (with_reducible first | assumption | apply CoreGot.of_wait | apply CoreGot.of_trap | apply cardIsolated_kept | apply coreRd_kept | apply State.modCore_kept | apply cardSend_kept | apply State.modNets_kept | rfl | split | (intro) | exact CoreGot.to_wait (by assumption) | refine CoreGot.from_wait (by assumption) ?_ | exact CoreGot.to_trap (by assumption) | refine CoreGot.from_trap (by assumption) ?_ | refine from_fst (by assumption) ?_ | refine from_snd (by assumption) ?_)
grind_pattern cnSend_kept => (cnSend a0 a1 a2 a3 a4 a5 a6 a7), Kept k a0

theorem cnRecv_kept {k a0 a1 a2 a3 a4 a5} : Kept k a0 → CoreGot.All (Kept k) (cnRecv a0 a1 a2 a3 a4 a5) := by
  intros; unfold cnRecv; try dsimp only
  repeat' (with_reducible first | assumption | apply CoreGot.of_ok | apply CoreGot.of_wait | apply coreRd_kept | apply State.setCore_kept | rfl | split | (intro) | exact CoreGot.to_ok (by assumption) | refine CoreGot.from_ok (by assumption) ?_ | exact CoreGot.to_wait (by assumption) | refine CoreGot.from_wait (by assumption) ?_ | refine from_fst (by assumption) ?_ | refine from_snd (by assumption) ?_)
grind_pattern cnRecv_kept => (cnRecv a0 a1 a2 a3 a4 a5), Kept k a0

theorem dsWait_kept {k a0 a1 a2 a3 a4 a5} : Kept k a0 → CoreGot.All (Kept k) (dsWait a0 a1 a2 a3 a4 a5) := by
  intros; unfold dsWait; try dsimp only
  repeat' (with_reducible first | assumption | apply CoreGot.of_wait | apply coreRd_kept | apply State.modCore_kept | rfl | split | (intro) | exact CoreGot.to_wait (by assumption) | refine CoreGot.from_wait (by assumption) ?_)
grind_pattern dsWait_kept => (dsWait a0 a1 a2 a3 a4 a5), Kept k a0

theorem tileYield_kept {k a0 a1 a2 a3 a4} : Kept k a0 → CoreGot.All (Kept k) (tileYield a0 a1 a2 a3 a4) := by
  intros; unfold tileYield; try dsimp only
  repeat' (with_reducible first | assumption | apply CoreGot.of_ok | apply failTile_kept | apply State.modCore_kept | apply modTile_kept | apply settleCompute_kept | rfl | split | (intro) | exact CoreGot.to_ok (by assumption) | refine CoreGot.from_ok (by assumption) ?_)
grind_pattern tileYield_kept => (tileYield a0 a1 a2 a3 a4), Kept k a0

theorem bayGive_kept {k a0 a1 a2 a3 a4 a5 a6} : Kept k a0 → CoreGot.All (Kept k) (bayGive a0 a1 a2 a3 a4 a5 a6) := by
  intros; unfold bayGive; try dsimp only
  repeat' (with_reducible first | assumption | apply coreRd_kept | apply State.modBay_kept | apply foldl_kept | rfl | split | (intro))
grind_pattern bayGive_kept => (bayGive a0 a1 a2 a3 a4 a5 a6), Kept k a0

theorem anchorOp_kept {k a0 a1 a2 a3 a4 a5 a6 a7} : Kept k a0 → CoreGot.All (Kept k) (anchorOp a0 a1 a2 a3 a4 a5 a6 a7) := by
  intros; unfold anchorOp; try dsimp only
  repeat' (with_reducible first | assumption | apply CoreGot.of_ok | apply illegal_kept | apply State.setCore_kept | rfl | split | (intro) | exact CoreGot.to_ok (by assumption) | refine CoreGot.from_ok (by assumption) ?_ | refine from_fst (by assumption) ?_ | refine from_snd (by assumption) ?_)
grind_pattern anchorOp_kept => (anchorOp a0 a1 a2 a3 a4 a5 a6 a7), Kept k a0

theorem vaSeta_kept {k a0 a1 a2 a3 a4 a5} : Kept k a0 → CoreGot.All (Kept k) (vaSeta a0 a1 a2 a3 a4 a5) := by
  intros; unfold vaSeta; try dsimp only
  repeat' (with_reducible first | assumption | apply anchorOp_kept | apply foldl_kept | rfl | split | (intro))
grind_pattern vaSeta_kept => (vaSeta a0 a1 a2 a3 a4 a5), Kept k a0

theorem vaAddV_kept {k a0 a1 a2 a3 a4 a5} : Kept k a0 → CoreGot.All (Kept k) (vaAddV a0 a1 a2 a3 a4 a5) := by
  intros; unfold vaAddV; try dsimp only
  repeat' (with_reducible first | assumption | apply anchorOp_kept | apply foldl_kept | rfl | split | (intro))
grind_pattern vaAddV_kept => (vaAddV a0 a1 a2 a3 a4 a5), Kept k a0

theorem vaMacVv_kept {k a0 a1 a2 a3 a4 a5 a6} : Kept k a0 → CoreGot.All (Kept k) (vaMacVv a0 a1 a2 a3 a4 a5 a6) := by
  intros; unfold vaMacVv; try dsimp only
  repeat' (with_reducible first | assumption | apply anchorOp_kept | apply foldl_kept | rfl | split | (intro))
grind_pattern vaMacVv_kept => (vaMacVv a0 a1 a2 a3 a4 a5 a6), Kept k a0

theorem vaRedV_kept {k a0 a1 a2 a3 a4 a5} : Kept k a0 → CoreGot.All (Kept k) (vaRedV a0 a1 a2 a3 a4 a5) := by
  intros; unfold vaRedV; try dsimp only
  repeat' (with_reducible first | assumption | apply anchorOp_kept | apply foldl_kept | rfl | split | (intro))
grind_pattern vaRedV_kept => (vaRedV a0 a1 a2 a3 a4 a5), Kept k a0

theorem vaRedmacVv_kept {k a0 a1 a2 a3 a4 a5 a6} : Kept k a0 → CoreGot.All (Kept k) (vaRedmacVv a0 a1 a2 a3 a4 a5 a6) := by
  intros; unfold vaRedmacVv; try dsimp only
  repeat' (with_reducible first | assumption | apply anchorOp_kept | apply foldl_kept | rfl | split | (intro))
grind_pattern vaRedmacVv_kept => (vaRedmacVv a0 a1 a2 a3 a4 a5 a6), Kept k a0

theorem useFree_kept {k a0 a1} : CoreGot.All (Kept k) a0 → CoreGot.All (Kept k) (useFree a0 a1) := by
  intros; unfold useFree; try dsimp only
  repeat' (with_reducible first | assumption | (simp only [kept_mk]; refine Kept.re ?_ rfl rfl rfl rfl rfl rfl rfl rfl rfl rfl rfl rfl rfl) | apply CoreGot.of_ok | apply CoreGot.of_wait | apply CoreGot.of_trap | rfl | split | (intro) | exact CoreGot.to_ok (by assumption) | refine CoreGot.from_ok (by assumption) ?_ | exact CoreGot.to_wait (by assumption) | refine CoreGot.from_wait (by assumption) ?_ | exact CoreGot.to_trap (by assumption) | refine CoreGot.from_trap (by assumption) ?_ | refine from_fst (by assumption) ?_ | refine from_snd (by assumption) ?_)
grind_pattern useFree_kept => (useFree a0 a1), CoreGot.All (Kept k) a0

theorem vaRdV_kept {k a0 a1 a2 a3 a4 a5} : Kept k a0 → CoreGot.All (Kept k) (vaRdV a0 a1 a2 a3 a4 a5) := by
  intros; unfold vaRdV; try dsimp only
  repeat' (with_reducible first | assumption | apply illegal_kept | apply useFree_kept | apply anchorOp_kept | apply foldl_kept | apply foldl_kept_fst | apply foldl_kept_snd | rfl | split | (intro))
grind_pattern vaRdV_kept => (vaRdV a0 a1 a2 a3 a4 a5), Kept k a0

theorem vaRdx_kept {k a0 a1 a2 a3 a4 a5} : Kept k a0 → CoreGot.All (Kept k) (vaRdx a0 a1 a2 a3 a4 a5) := by
  intros; unfold vaRdx; try dsimp only
  repeat' (with_reducible first | assumption | apply useFree_kept | apply anchorOp_kept | rfl | split | (intro))
grind_pattern vaRdx_kept => (vaRdx a0 a1 a2 a3 a4 a5), Kept k a0

theorem saveRecs_kept {k a0 a1 a2 a3 a4} : Kept k a0 → CoreGot.All (Kept k) (saveRecs a0 a1 a2 a3 a4) := by fun_induction saveRecs <;> grind [kept_eq, goes_next, State.modCore_kept, coreStore_kept, CoreGot.all_ok, CoreGot.all_wait, CoreGot.all_trap]
grind_pattern saveRecs_kept => (saveRecs a0 a1 a2 a3 a4), Kept k a0

theorem loadRecs_kept {k a0 a1 a2 a3 a4} : Kept k a0 → CoreGot.All (Kept k) (loadRecs a0 a1 a2 a3 a4) := by fun_induction loadRecs <;> grind [kept_eq, goes_next, coreLoad_kept, State.modCore_kept, CoreGot.all_ok, CoreGot.all_wait, CoreGot.all_trap]
grind_pattern loadRecs_kept => (loadRecs a0 a1 a2 a3 a4), Kept k a0

theorem recsDone_kept {k a0 a1 a2 a3 a4 a5} : CoreGot.All (Kept k) a5 → CoreGot.All (Kept k) (recsDone a0 a1 a2 a3 a4 a5) := by
  intros; unfold recsDone; try dsimp only
  repeat' (with_reducible first | assumption | apply CoreGot.of_ok | apply CoreGot.of_wait | apply CoreGot.of_trap | apply coreCharge_kept | apply State.modCore_kept | rfl | split | (intro) | exact CoreGot.to_ok (by assumption) | refine CoreGot.from_ok (by assumption) ?_ | exact CoreGot.to_wait (by assumption) | refine CoreGot.from_wait (by assumption) ?_ | exact CoreGot.to_trap (by assumption) | refine CoreGot.from_trap (by assumption) ?_ | refine from_fst (by assumption) ?_ | refine from_snd (by assumption) ?_)
grind_pattern recsDone_kept => (recsDone a0 a1 a2 a3 a4 a5), CoreGot.All (Kept k) a5

theorem vaSave_kept {k a0 a1 a2 a3 a4} : Kept k a0 → CoreGot.All (Kept k) (vaSave a0 a1 a2 a3 a4) := by
  intros; unfold vaSave; try dsimp only
  repeat' (with_reducible first | assumption | apply CoreGot.of_trap | apply illegal_kept | apply saveRecs_kept | apply recsDone_kept | rfl | split | (intro) | exact CoreGot.to_trap (by assumption) | refine CoreGot.from_trap (by assumption) ?_)
grind_pattern vaSave_kept => (vaSave a0 a1 a2 a3 a4), Kept k a0

theorem vaLoad_kept {k a0 a1 a2 a3 a4} : Kept k a0 → CoreGot.All (Kept k) (vaLoad a0 a1 a2 a3 a4) := by
  intros; unfold vaLoad; try dsimp only
  repeat' (with_reducible first | assumption | apply CoreGot.of_trap | apply illegal_kept | apply recsDone_kept | apply loadRecs_kept | rfl | split | (intro) | exact CoreGot.to_trap (by assumption) | refine CoreGot.from_trap (by assumption) ?_)
grind_pattern vaLoad_kept => (vaLoad a0 a1 a2 a3 a4), Kept k a0

theorem vaAddrec_kept {k a0 a1 a2 a3 a4} : Kept k a0 → CoreGot.All (Kept k) (vaAddrec a0 a1 a2 a3 a4) := by
  intros; unfold vaAddrec; try dsimp only
  repeat' (with_reducible first | assumption | apply CoreGot.of_ok | apply CoreGot.of_wait | apply CoreGot.of_trap | apply illegal_kept | apply coreCharge_kept | apply coreLoad_kept | apply State.modCore_kept | rfl | split | (intro) | exact CoreGot.to_ok (by assumption) | refine CoreGot.from_ok (by assumption) ?_ | exact CoreGot.to_wait (by assumption) | refine CoreGot.from_wait (by assumption) ?_ | exact CoreGot.to_trap (by assumption) | refine CoreGot.from_trap (by assumption) ?_ | refine from_fst (by assumption) ?_ | refine from_snd (by assumption) ?_)
grind_pattern vaAddrec_kept => (vaAddrec a0 a1 a2 a3 a4), Kept k a0

theorem vfexpmax_kept {k a0 a1 a2 a3 a4 a5 a6 a7} : Kept k a0 → CoreGot.All (Kept k) (vfexpmax a0 a1 a2 a3 a4 a5 a6 a7) := by
  intros; unfold vfexpmax; try dsimp only
  repeat' (with_reducible first | assumption | apply useFree_kept | apply anchorOp_kept | apply foldl_kept | rfl | split | (intro))
grind_pattern vfexpmax_kept => (vfexpmax a0 a1 a2 a3 a4 a5 a6 a7), Kept k a0

theorem fnOp_kept {k a0 a1 a2 a3 a4 a5 a6 a7 a8} : Kept k a0 → CoreGot.All (Kept k) (fnOp a0 a1 a2 a3 a4 a5 a6 a7 a8) := by
  intros; unfold fnOp; try dsimp only
  repeat' (with_reducible first | assumption | (simp only [kept_mk]; refine Kept.re ?_ rfl rfl rfl rfl rfl rfl rfl rfl rfl rfl rfl rfl rfl) | apply CoreGot.of_ok | apply illegal_kept | apply State.setCore_kept | rfl | split | (intro) | exact CoreGot.to_ok (by assumption) | refine CoreGot.from_ok (by assumption) ?_ | refine from_fst (by assumption) ?_ | refine from_snd (by assumption) ?_)
grind_pattern fnOp_kept => (fnOp a0 a1 a2 a3 a4 a5 a6 a7 a8), Kept k a0

theorem vBlock_kept {k a0 a1 a2 a3 a4 a5 a6 a7 a8 a9} : Kept k a0 → CoreGot.All (Kept k) (vBlock a0 a1 a2 a3 a4 a5 a6 a7 a8 a9) := by
  intros; unfold vBlock; try dsimp only
  repeat' (with_reducible first | assumption | apply CoreGot.of_ok | apply CoreGot.of_wait | apply CoreGot.of_trap | apply illegal_kept | apply State.modBay_kept | apply bayEvent_kept | apply State.setCore_kept | apply foldl_kept | apply foldl_kept_fst | apply foldl_kept_snd | apply CoreGot.foldl_all | rfl | split | (intro) | exact CoreGot.to_ok (by assumption) | refine CoreGot.from_ok (by assumption) ?_ | exact CoreGot.to_wait (by assumption) | refine CoreGot.from_wait (by assumption) ?_ | exact CoreGot.to_trap (by assumption) | refine CoreGot.from_trap (by assumption) ?_ | refine from_fst (by assumption) ?_ | refine from_snd (by assumption) ?_)
grind_pattern vBlock_kept => (vBlock a0 a1 a2 a3 a4 a5 a6 a7 a8 a9), Kept k a0

theorem custom0_kept {k a0 a1 a2 a3 a4} : Kept k a0 → CoreGot.All (Kept k) (custom0 a0 a1 a2 a3 a4) := by
  intros; unfold custom0; try dsimp only
  repeat' (with_reducible first | assumption | apply illegal_kept | apply tileYield_kept | apply coreRd_kept | apply cnRecv_kept | apply dsWait_kept | apply bayGive_kept | apply cnSend_kept | rfl | split | (intro) | refine from_fst (by assumption) ?_ | refine from_snd (by assumption) ?_)
grind_pattern custom0_kept => (custom0 a0 a1 a2 a3 a4), Kept k a0

theorem custom1_kept {k a0 a1 a2 a3 a4} : Kept k a0 → CoreGot.All (Kept k) (custom1 a0 a1 a2 a3 a4) := by
  intros; unfold custom1; try dsimp only
  repeat' (with_reducible first | assumption | apply illegal_kept | apply vaSave_kept | apply vaRdx_kept | apply fnOp_kept | apply vBlock_kept | apply vaRedV_kept | apply vaRdV_kept | apply vfexpmax_kept | apply vaLoad_kept | apply vaAddrec_kept | apply vaMacVv_kept | apply vaAddV_kept | apply vaRedmacVv_kept | apply vaSeta_kept | rfl | split | (intro) | refine from_fst (by assumption) ?_ | refine from_snd (by assumption) ?_)
grind_pattern custom1_kept => (custom1 a0 a1 a2 a3 a4), Kept k a0

theorem word32_kept {k a0 a1 a2 a3 a4} : Kept k a0 → CoreGot.All (Kept k) (word32 a0 a1 a2 a3 a4) := by
  intros; unfold word32; try dsimp only
  repeat' (with_reducible first | assumption | apply rvScalar_kept | apply illegal_kept | apply custom1_kept | apply vOp_kept | apply vMem_kept | apply custom0_kept | rfl | split | (intro) | refine from_fst (by assumption) ?_ | refine from_snd (by assumption) ?_)
grind_pattern word32_kept => (word32 a0 a1 a2 a3 a4), Kept k a0

theorem anyWord_kept {k a0 a1 a2 a3} : Kept k a0 → CoreGot.All (Kept k) (anyWord a0 a1 a2 a3) := by
  intros; unfold anyWord; try dsimp only
  repeat' (with_reducible first | assumption | apply rvScalar_kept | apply illegal_kept | apply word32_kept | rfl | split | (intro) | refine from_fst (by assumption) ?_ | refine from_snd (by assumption) ?_)
grind_pattern anyWord_kept => (anyWord a0 a1 a2 a3), Kept k a0

theorem coreFetch_kept {k a0 a1 a2 a3} : Kept k a0 → CoreGot.All (Kept k) (coreFetch a0 a1 a2 a3) := by
  intros; unfold coreFetch; try dsimp only
  repeat' (with_reducible first | assumption | apply CoreGot.of_ok | apply CoreGot.of_wait | apply CoreGot.of_trap | apply State.modCore_kept | apply coreEntry_kept | rfl | split | (intro) | exact CoreGot.to_ok (by assumption) | refine CoreGot.from_ok (by assumption) ?_ | exact CoreGot.to_wait (by assumption) | refine CoreGot.from_wait (by assumption) ?_ | exact CoreGot.to_trap (by assumption) | refine CoreGot.from_trap (by assumption) ?_ | refine from_fst (by assumption) ?_ | refine from_snd (by assumption) ?_)
grind_pattern coreFetch_kept => (coreFetch a0 a1 a2 a3), Kept k a0

theorem machineTrap_kept {k a0 a1 a2 a3 a4} : Kept k a0 → Kept k (machineTrap a0 a1 a2 a3 a4) := by
  intros; unfold machineTrap; try dsimp only
  repeat' (with_reducible first | assumption | apply State.modCore_kept | rfl | split | (intro))

theorem coreEnd_kept {k a0 a1 a2} : CoreGot.All (Kept k) a2 → Kept k (coreEnd a0 a1 a2) := by
  intros; unfold coreEnd; try dsimp only
  repeat' (with_reducible first | assumption | (simp only [kept_mk]; refine Kept.re ?_ rfl rfl rfl rfl rfl rfl rfl rfl rfl rfl rfl rfl rfl) | apply CoreGot.of_ok | apply CoreGot.of_wait | apply CoreGot.of_trap | apply State.modCore_kept | apply machineTrap_kept | apply trapCore_kept | rfl | split | (intro) | exact CoreGot.to_ok (by assumption) | refine CoreGot.from_ok (by assumption) ?_ | exact CoreGot.to_wait (by assumption) | refine CoreGot.from_wait (by assumption) ?_ | exact CoreGot.to_trap (by assumption) | refine CoreGot.from_trap (by assumption) ?_ | refine from_fst (by assumption) ?_ | refine from_snd (by assumption) ?_)

theorem coreStep_kept {k a0 a1 a2 a3 a4} : Kept k a0 → (∀ y0, Kept k y0 → CoreGot.All (Kept k) (a4 y0)) → Kept k (coreStep a0 a1 a2 a3 a4) := by
  intros; unfold coreStep; try dsimp only
  repeat' (with_reducible first | assumption | apply CoreGot.of_ok | apply CoreGot.of_wait | apply CoreGot.of_trap | apply coreEnd_kept | apply coreFetch_kept | rfl | split | (intro) | exact CoreGot.to_ok (by assumption) | refine CoreGot.from_ok (by assumption) ?_ | exact CoreGot.to_wait (by assumption) | refine CoreGot.from_wait (by assumption) ?_ | exact CoreGot.to_trap (by assumption) | refine CoreGot.from_trap (by assumption) ?_ | refine from_fst (by assumption) ?_ | refine from_snd (by assumption) ?_)
  all_goals grind [kept_eq, goes_next, coreEnd_kept, coreFetch_kept, CoreGot.all_ok, CoreGot.all_wait, CoreGot.all_trap]

theorem ownStep_kept {k a0 a1 a2 a3 a4 a5} : Kept k a0 → (∀ y0 y1, Kept k y0 → CoreGot.All (Kept k) (a5 y0 y1)) → Kept k (ownStep a0 a1 a2 a3 a4 a5) := by
  intros; unfold ownStep; try dsimp only
  repeat' (with_reducible first | assumption | apply illegal_kept | apply coreStep_kept | rfl | split | (intro))
  all_goals grind [kept_eq, goes_next, illegal_kept, coreStep_kept]

theorem execRiscvInstruction_kept {k a0 a1 a2 a3} : Kept k a3 → Goes (Kept k) (execRiscvInstruction a0 a1 a2 a3) := by
  intros; unfold execRiscvInstruction; try dsimp only
  repeat' (with_reducible first | assumption | apply Goes.of_next | apply anyWord_kept | apply coreStep_kept | rfl | split | (intro))

theorem execCnSend_kept {k a0 a1 a2 a3 a4 a5} : Kept k a5 → Goes (Kept k) (execCnSend a0 a1 a2 a3 a4 a5) := by
  intros; unfold execCnSend; try dsimp only
  repeat' (with_reducible first | assumption | apply Goes.of_next | apply ownStep_kept | apply cnSend_kept | rfl | split | (intro))

theorem execCnTrysend_kept {k a0 a1 a2 a3 a4 a5} : Kept k a5 → Goes (Kept k) (execCnTrysend a0 a1 a2 a3 a4 a5) := by
  intros; unfold execCnTrysend; try dsimp only
  repeat' (with_reducible first | assumption | apply Goes.of_next | apply ownStep_kept | apply cnSend_kept | rfl | split | (intro))

theorem execCnRecv_kept {k a0 a1 a2 a3 a4} : Kept k a4 → Goes (Kept k) (execCnRecv a0 a1 a2 a3 a4) := by
  intros; unfold execCnRecv; try dsimp only
  repeat' (with_reducible first | assumption | apply Goes.of_next | apply ownStep_kept | apply cnRecv_kept | rfl | split | (intro))

theorem endWait_kept {k a0 a1 a2 a3 a4} : Kept k a0 → Kept k (endWait a0 a1 a2 a3 a4) := by
  intros; unfold endWait; try dsimp only
  repeat' (with_reducible first | assumption | apply coreEnd_kept | apply coreRd_kept | apply State.modCore_kept | rfl | split | (intro))

theorem execCnRecvDeadline_kept {k a0 a1 a2} : Kept k a2 → Goes (Kept k) (execCnRecvDeadline a0 a1 a2) := by
  intros; unfold execCnRecvDeadline; try dsimp only
  repeat' (with_reducible first | assumption | apply Goes.of_next | apply endWait_kept | apply reach_kept | rfl | split | (intro) | refine from_fst (by assumption) ?_ | refine from_snd (by assumption) ?_)

theorem execDsRead_kept {k a0 a1 a2 a3} : Kept k a3 → Goes (Kept k) (execDsRead a0 a1 a2 a3) := by
  intros; unfold execDsRead; try dsimp only
  repeat' (with_reducible first | assumption | apply Goes.of_next | apply coreRd_kept | apply ownStep_kept | rfl | split | (intro))

theorem execDsWait_kept {k a0 a1 a2 a3 a4} : Kept k a4 → Goes (Kept k) (execDsWait a0 a1 a2 a3 a4) := by
  intros; unfold execDsWait; try dsimp only
  repeat' (with_reducible first | assumption | apply Goes.of_next | apply ownStep_kept | apply dsWait_kept | rfl | split | (intro))

theorem execDsWaitReturn_kept {k a0 a1 a2} : Kept k a2 → Goes (Kept k) (execDsWaitReturn a0 a1 a2) := by
  intros; unfold execDsWaitReturn; try dsimp only
  repeat' (with_reducible first | assumption | apply Goes.of_next | apply endWait_kept | apply reach_kept | rfl | split | (intro) | refine from_fst (by assumption) ?_ | refine from_snd (by assumption) ?_)

theorem execTileYield_kept {k a0 a1 a2 a3} : Kept k a3 → Goes (Kept k) (execTileYield a0 a1 a2 a3) := by
  intros; unfold execTileYield; try dsimp only
  repeat' (with_reducible first | assumption | apply Goes.of_next | apply tileYield_kept | apply ownStep_kept | rfl | split | (intro))

theorem execBayGive_kept {k a0 a1 a2 a3 a4 a5} : Kept k a5 → Goes (Kept k) (execBayGive a0 a1 a2 a3 a4 a5) := by
  intros; unfold execBayGive; try dsimp only
  repeat' (with_reducible first | assumption | apply Goes.of_next | apply ownStep_kept | apply bayGive_kept | rfl | split | (intro))

theorem execBayOwn_kept {k a0 a1 a2 a3} : Kept k a3 → Goes (Kept k) (execBayOwn a0 a1 a2 a3) := by
  intros; unfold execBayOwn; try dsimp only
  repeat' (with_reducible first | assumption | apply Goes.of_next | apply coreRd_kept | apply ownStep_kept | rfl | split | (intro))

theorem execVaSeta_kept {k a0 a1 a2 a3 a4} : Kept k a4 → Goes (Kept k) (execVaSeta a0 a1 a2 a3 a4) := by
  intros; unfold execVaSeta; try dsimp only
  repeat' (with_reducible first | assumption | apply Goes.of_next | apply ownStep_kept | apply vaSeta_kept | rfl | split | (intro))

theorem execVaAddV_kept {k a0 a1 a2 a3 a4} : Kept k a4 → Goes (Kept k) (execVaAddV a0 a1 a2 a3 a4) := by
  intros; unfold execVaAddV; try dsimp only
  repeat' (with_reducible first | assumption | apply Goes.of_next | apply ownStep_kept | apply vaAddV_kept | rfl | split | (intro))

theorem execVaMacVv_kept {k a0 a1 a2 a3 a4 a5} : Kept k a5 → Goes (Kept k) (execVaMacVv a0 a1 a2 a3 a4 a5) := by
  intros; unfold execVaMacVv; try dsimp only
  repeat' (with_reducible first | assumption | apply Goes.of_next | apply ownStep_kept | apply vaMacVv_kept | rfl | split | (intro))

theorem execVaRedV_kept {k a0 a1 a2 a3 a4} : Kept k a4 → Goes (Kept k) (execVaRedV a0 a1 a2 a3 a4) := by
  intros; unfold execVaRedV; try dsimp only
  repeat' (with_reducible first | assumption | apply Goes.of_next | apply vaRedV_kept | apply ownStep_kept | rfl | split | (intro))

theorem execVaRedmacVv_kept {k a0 a1 a2 a3 a4 a5} : Kept k a5 → Goes (Kept k) (execVaRedmacVv a0 a1 a2 a3 a4 a5) := by
  intros; unfold execVaRedmacVv; try dsimp only
  repeat' (with_reducible first | assumption | apply Goes.of_next | apply ownStep_kept | apply vaRedmacVv_kept | rfl | split | (intro))

theorem execVaRdV_kept {k a0 a1 a2 a3 a4} : Kept k a4 → Goes (Kept k) (execVaRdV a0 a1 a2 a3 a4) := by
  intros; unfold execVaRdV; try dsimp only
  repeat' (with_reducible first | assumption | apply Goes.of_next | apply vaRdV_kept | apply ownStep_kept | rfl | split | (intro))

theorem execVaRdx_kept {k a0 a1 a2 a3 a4} : Kept k a4 → Goes (Kept k) (execVaRdx a0 a1 a2 a3 a4) := by
  intros; unfold execVaRdx; try dsimp only
  repeat' (with_reducible first | assumption | apply Goes.of_next | apply vaRdx_kept | apply ownStep_kept | rfl | split | (intro))

theorem execVaSave_kept {k a0 a1 a2 a3} : Kept k a3 → Goes (Kept k) (execVaSave a0 a1 a2 a3) := by
  intros; unfold execVaSave; try dsimp only
  repeat' (with_reducible first | assumption | apply Goes.of_next | apply vaSave_kept | apply ownStep_kept | rfl | split | (intro))

theorem execVaLoad_kept {k a0 a1 a2 a3} : Kept k a3 → Goes (Kept k) (execVaLoad a0 a1 a2 a3) := by
  intros; unfold execVaLoad; try dsimp only
  repeat' (with_reducible first | assumption | apply Goes.of_next | apply vaLoad_kept | apply ownStep_kept | rfl | split | (intro))

theorem execVaAddrec_kept {k a0 a1 a2 a3} : Kept k a3 → Goes (Kept k) (execVaAddrec a0 a1 a2 a3) := by
  intros; unfold execVaAddrec; try dsimp only
  repeat' (with_reducible first | assumption | apply Goes.of_next | apply ownStep_kept | apply vaAddrec_kept | rfl | split | (intro))

theorem execVfexpmaxVs_kept {k a0 a1 a2 a3 a4 a5 a6} : Kept k a6 → Goes (Kept k) (execVfexpmaxVs a0 a1 a2 a3 a4 a5 a6) := by
  intros; unfold execVfexpmaxVs; try dsimp only
  repeat' (with_reducible first | assumption | apply Goes.of_next | apply vfexpmax_kept | apply ownStep_kept | rfl | split | (intro))

theorem fnStep_kept {k a0 a1 a2 a3 a4 a5 a6 a7} : Kept k a0 → Goes (Kept k) (fnStep a0 a1 a2 a3 a4 a5 a6 a7) := by
  intros; unfold fnStep; try dsimp only
  repeat' (with_reducible first | assumption | apply Goes.of_next | apply fnOp_kept | apply ownStep_kept | rfl | split | (intro))

theorem execVfexp2_kept {k a0 a1 a2 a3 a4 a5 a6} : Kept k a6 → Goes (Kept k) (execVfexp2 a0 a1 a2 a3 a4 a5 a6) := by
  intros; unfold execVfexp2; try dsimp only
  repeat' (with_reducible first | assumption | apply Goes.of_next | apply fnStep_kept | rfl | split | (intro))

theorem execVflog2_kept {k a0 a1 a2 a3 a4 a5 a6} : Kept k a6 → Goes (Kept k) (execVflog2 a0 a1 a2 a3 a4 a5 a6) := by
  intros; unfold execVflog2; try dsimp only
  repeat' (with_reducible first | assumption | apply Goes.of_next | apply fnStep_kept | rfl | split | (intro))

theorem execVfsinpi_kept {k a0 a1 a2 a3 a4 a5 a6} : Kept k a6 → Goes (Kept k) (execVfsinpi a0 a1 a2 a3 a4 a5 a6) := by
  intros; unfold execVfsinpi; try dsimp only
  repeat' (with_reducible first | assumption | apply Goes.of_next | apply fnStep_kept | rfl | split | (intro))

theorem execVfcospi_kept {k a0 a1 a2 a3 a4 a5 a6} : Kept k a6 → Goes (Kept k) (execVfcospi a0 a1 a2 a3 a4 a5 a6) := by
  intros; unfold execVfcospi; try dsimp only
  repeat' (with_reducible first | assumption | apply Goes.of_next | apply fnStep_kept | rfl | split | (intro))

theorem execVftanh_kept {k a0 a1 a2 a3 a4 a5 a6} : Kept k a6 → Goes (Kept k) (execVftanh a0 a1 a2 a3 a4 a5 a6) := by
  intros; unfold execVftanh; try dsimp only
  repeat' (with_reducible first | assumption | apply Goes.of_next | apply fnStep_kept | rfl | split | (intro))

theorem execVferf_kept {k a0 a1 a2 a3 a4 a5 a6} : Kept k a6 → Goes (Kept k) (execVferf a0 a1 a2 a3 a4 a5 a6) := by
  intros; unfold execVferf; try dsimp only
  repeat' (with_reducible first | assumption | apply Goes.of_next | apply fnStep_kept | rfl | split | (intro))

theorem execVfrsqrt_kept {k a0 a1 a2 a3 a4 a5 a6} : Kept k a6 → Goes (Kept k) (execVfrsqrt a0 a1 a2 a3 a4 a5 a6) := by
  intros; unfold execVfrsqrt; try dsimp only
  repeat' (with_reducible first | assumption | apply Goes.of_next | apply fnStep_kept | rfl | split | (intro))

theorem execVfrecip_kept {k a0 a1 a2 a3 a4 a5 a6} : Kept k a6 → Goes (Kept k) (execVfrecip a0 a1 a2 a3 a4 a5 a6) := by
  intros; unfold execVfrecip; try dsimp only
  repeat' (with_reducible first | assumption | apply Goes.of_next | apply fnStep_kept | rfl | split | (intro))

theorem execVbl2d_kept {k a0 a1 a2 a3 a4 a5 a6 a7} : Kept k a7 → Goes (Kept k) (execVbl2d a0 a1 a2 a3 a4 a5 a6 a7) := by
  intros; unfold execVbl2d; try dsimp only
  repeat' (with_reducible first | assumption | apply Goes.of_next | apply vBlock_kept | apply ownStep_kept | rfl | split | (intro))

theorem execVbs2d_kept {k a0 a1 a2 a3 a4 a5 a6 a7} : Kept k a7 → Goes (Kept k) (execVbs2d a0 a1 a2 a3 a4 a5 a6 a7) := by
  intros; unfold execVbs2d; try dsimp only
  repeat' (with_reducible first | assumption | apply Goes.of_next | apply vBlock_kept | apply ownStep_kept | rfl | split | (intro))

theorem cardArrive_kept {k a0 a1 a2 a3 a4 a5} : Kept k a0 → Kept k (cardArrive a0 a1 a2 a3 a4 a5) := by
  intros; unfold cardArrive; try dsimp only
  repeat' (with_reducible first | assumption | apply cardIsolated_kept | apply State.modNets_kept | apply trapCore_kept | rfl | split | (intro) | refine from_fst (by assumption) ?_ | refine from_snd (by assumption) ?_)

theorem execFenceSignalMsg_kept {k a0 a1 a2 a3} : Kept k a3 → Goes (Kept k) (execFenceSignalMsg a0 a1 a2 a3) := by
  intros; unfold execFenceSignalMsg; try dsimp only
  repeat' (with_reducible first | assumption | apply Goes.of_next | apply cardArrive_kept | rfl | split | (intro))

theorem execInterrupt_kept {k a0 a1 a2 a3} : Kept k a3 → Goes (Kept k) (execInterrupt a0 a1 a2 a3) := by
  intros; unfold execInterrupt; try dsimp only
  repeat' (with_reducible first | assumption | apply Goes.of_next | apply cardArrive_kept | rfl | split | (intro))

theorem execPowerCmd_kept {k a0 a1 a2 a3} : Kept k a3 → Goes (Kept k) (execPowerCmd a0 a1 a2 a3) := by
  intros; unfold execPowerCmd; try dsimp only
  repeat' (with_reducible first | assumption | apply Goes.of_next | apply cardArrive_kept | rfl | split | (intro))

theorem execRouterCtrl_kept {k a0 a1 a2 a3} : Kept k a3 → Goes (Kept k) (execRouterCtrl a0 a1 a2 a3) := by
  intros; unfold execRouterCtrl; try dsimp only
  repeat' (with_reducible first | assumption | apply Goes.of_next | apply cardArrive_kept | rfl | split | (intro))

theorem execMoverNotify_kept {k a0 a1} : Kept k a1 → Goes (Kept k) (execMoverNotify a0 a1) := by
  intros; unfold execMoverNotify; try dsimp only
  repeat' (with_reducible first | assumption | apply Goes.of_next | apply State.modBay_kept | rfl | split | (intro))

theorem bayReport_kept {k a0 a1} : Kept k a0 → Kept k (bayReport a0 a1) := by
  intros; unfold bayReport; try dsimp only
  repeat' (with_reducible first | assumption | apply failTile_kept | apply endTile_kept | rfl | split | (intro) | refine from_fst (by assumption) ?_ | refine from_snd (by assumption) ?_)

theorem execFaultReport_kept {k a0} : Kept k a0 → Goes (Kept k) (execFaultReport a0) := by
  intros; unfold execFaultReport; try dsimp only
  repeat' (with_reducible first | assumption | (simp only [kept_mk]; refine Kept.re ?_ rfl rfl rfl rfl rfl rfl rfl rfl rfl rfl rfl rfl rfl) | apply Goes.of_next | apply bayReport_kept | rfl | split | (intro) | refine from_fst (by assumption) ?_ | refine from_snd (by assumption) ?_)

theorem userArrive_kept {k a0 a1 a2 a3} : Kept k a0 → Kept k (userArrive a0 a1 a2 a3) := by
  intros; unfold userArrive; try dsimp only
  repeat' (with_reducible first | assumption | apply CoreGot.of_ok | apply coreEnd_kept | apply State.modCore_kept | rfl | split | (intro) | exact CoreGot.to_ok (by assumption) | refine CoreGot.from_ok (by assumption) ?_ | refine from_fst (by assumption) ?_ | refine from_snd (by assumption) ?_)

theorem execUser_kept {k a0 a1} : Kept k a1 → Goes (Kept k) (execUser a0 a1) := by
  intros; unfold execUser; try dsimp only
  repeat' (with_reducible first | assumption | apply Goes.of_next | apply cardIsolated_kept | apply userArrive_kept | apply State.modNets_kept | rfl | split | (intro) | refine from_fst (by assumption) ?_ | refine from_snd (by assumption) ?_)

theorem execCardInject_kept {k a0 a1} : Kept k a1 → Goes (Kept k) (execCardInject a0 a1) := by
  intros; unfold execCardInject; try dsimp only
  repeat' (with_reducible first | assumption | apply Goes.of_next | apply cardIsolated_kept | apply endWait_kept | apply cardSend_kept | apply State.modNets_kept | rfl | split | (intro) | refine from_fst (by assumption) ?_ | refine from_snd (by assumption) ?_)

end Sys2Proof.Machine
end

