-- ==== Sys2Proof/Laws/KeptWork.lean ====
section
/-! SUPPORT. What placement, tiles, queue commands, contexts and management keep: `Kept` after each operation. -/

namespace Sys2Proof.Machine

set_option Elab.async false
set_option linter.all false

theorem makeResident_kept {k a0 a1} : Kept k a0 → Kept k (makeResident a0 a1).1 := by
  intros; unfold makeResident; try dsimp only
  repeat' (with_reducible first | assumption | (simp only [kept_mk]; refine Kept.re ?_ rfl rfl rfl rfl rfl rfl rfl rfl rfl rfl rfl rfl rfl) | apply modCtx_kept | apply dropSlot_kept | rfl | split | (intro) | refine from_fst (by assumption) ?_ | refine from_snd (by assumption) ?_)
grind_pattern makeResident_kept => (makeResident a0 a1), Kept k a0

theorem savePages_kept {k a0 a1 a2 a3 a4} : Kept k a0 → SaveGot.All (Kept k) (savePages a0 a1 a2 a3 a4) := by fun_induction savePages <;> grind [kept_eq, goes_next, walkPages_kept, Ents.all_ok, Ents.all_fail, Ents.all_wait, SaveGot.all_ok, SaveGot.all_wait, SaveGot.all_bad]
grind_pattern savePages_kept => (savePages a0 a1 a2 a3 a4), Kept k a0

theorem checkSave_kept {k a0 a1} : Kept k a0 → Kept k (checkSave a0 a1).1 := by
  intros; unfold checkSave; try dsimp only
  repeat' (with_reducible first | assumption | apply SaveGot.of_ok | apply SaveGot.of_wait | apply SaveGot.of_bad | apply modCtx_kept | apply faultCtx_kept | apply writeFault_kept | apply savePages_kept | rfl | split | (intro) | exact SaveGot.to_ok (by assumption) | refine SaveGot.from_ok (by assumption) ?_ | exact SaveGot.to_wait (by assumption) | refine SaveGot.from_wait (by assumption) ?_ | exact SaveGot.to_bad (by assumption) | refine SaveGot.from_bad (by assumption) ?_ | refine from_fst (by assumption) ?_ | refine from_snd (by assumption) ?_)
grind_pattern checkSave_kept => (checkSave a0 a1), Kept k a0

theorem readyCtx_kept {k a0 a1} : Kept k a0 → Kept k (readyCtx a0 a1).1 := by
  intros; unfold readyCtx; try dsimp only
  repeat' (with_reducible first | assumption | apply makeResident_kept | apply checkSave_kept | rfl | split | (intro) | refine from_fst (by assumption) ?_ | refine from_snd (by assumption) ?_)
grind_pattern readyCtx_kept => (readyCtx a0 a1), Kept k a0

theorem sendRun_kept {k a0 a1 a2 a3 a4 a5 a6 a7 a8} : Kept k a0 → Kept k (sendRun a0 a1 a2 a3 a4 a5 a6 a7 a8) := by
  intros; unfold sendRun; try dsimp only
  repeat' (with_reducible first | assumption | apply State.modBay_kept | apply State.modWork_kept | apply modCmd_kept | apply State.modSeq_kept | rfl | split | (intro))

theorem reserveBay_kept {k a0 a1 a2 a3} : Kept k a0 → Kept k (reserveBay a0 a1 a2 a3) := by
  intros; unfold reserveBay; try dsimp only
  repeat' (with_reducible first | assumption | apply State.modWork_kept | apply modCmd_kept | rfl | split | (intro))

theorem launchGang_kept {k a0 a1 a2 a3 a4} : Kept k a0 → Kept k (launchGang a0 a1 a2 a3 a4) := by
  intros; unfold launchGang; try dsimp only
  repeat' (with_reducible first | assumption | apply sendRun_kept | apply modCmd_kept | apply charge_kept | apply foldl_kept | apply foldl_kept_fst | apply foldl_kept_snd | rfl | split | (intro) | refine from_fst (by assumption) ?_ | refine from_snd (by assumption) ?_)

theorem placeNext_kept {k a0 a1} : Kept k a0 → Kept k (placeNext a0 a1) := by
  intros; unfold placeNext; try dsimp only
  repeat' (with_reducible first | assumption | apply sendRun_kept | apply readyCtx_kept | apply reserveBay_kept | apply launchGang_kept | rfl | split | (intro) | refine from_fst (by assumption) ?_ | refine from_snd (by assumption) ?_)

theorem execTilePlace_kept {k a0 a1 a2} : Kept k a2 → Goes (Kept k) (execTilePlace a0 a1 a2) := by
  intros; unfold execTilePlace; try dsimp only
  repeat' (with_reducible first | assumption | apply Goes.of_next | apply placeNext_kept | rfl | split | (intro))

theorem sendTile_kept {k a0 a1 a2} : Kept k a0 → Kept k (sendTile a0 a1 a2) := by
  intros; unfold sendTile; try dsimp only
  repeat' (with_reducible first | assumption | apply State.modBay_kept | apply modTile_kept | rfl | split | (intro) | refine from_fst (by assumption) ?_ | refine from_snd (by assumption) ?_)

theorem sendPreempt_kept {k a0 a1} : Kept k a0 → Kept k (sendPreempt a0 a1) := by
  intros; unfold sendPreempt; try dsimp only
  repeat' (with_reducible first | assumption | apply sendTile_kept | rfl | split | (intro) | refine from_fst (by assumption) ?_ | refine from_snd (by assumption) ?_)

theorem pushTile_kept {k a0 a1} : Kept k a0 → Kept k (pushTile a0 a1) := by
  intros; unfold pushTile; try dsimp only
  repeat' (with_reducible first | assumption | apply settleTile_kept | apply advanceTile_kept | apply settleCompute_kept | rfl | split | (intro))

theorem receiveRun_kept {k a0 a1 a2} : Kept k a0 → Kept k (receiveRun a0 a1 a2) := by
  intros; unfold receiveRun; try dsimp only
  repeat' (with_reducible first | assumption | apply State.modBay_kept | apply modTile_kept | rfl | split | (intro))

theorem execTileRun_kept {k a0 a1} : Kept k a1 → Goes (Kept k) (execTileRun a0 a1) := by
  intros; unfold execTileRun; try dsimp only
  repeat' (with_reducible first | assumption | (simp only [kept_mk]; refine Kept.re ?_ rfl rfl rfl rfl rfl rfl rfl rfl rfl rfl rfl rfl rfl) | apply Goes.of_next | apply TileGot.of_ok | apply TileGot.of_wait | apply TileGot.of_fail | apply enterTile_kept | apply receiveRun_kept | apply State.modBay_kept | apply pushTile_kept | rfl | split | (intro) | exact TileGot.to_ok (by assumption) | refine TileGot.from_ok (by assumption) ?_ | exact TileGot.to_wait (by assumption) | refine TileGot.from_wait (by assumption) ?_ | exact TileGot.to_fail (by assumption) | refine TileGot.from_fail (by assumption) ?_ | refine from_fst (by assumption) ?_ | refine from_snd (by assumption) ?_)

theorem leaveRecord_kept {k a0 a1 a2} : Kept k a0 → Kept k (leaveRecord a0 a1 a2) := by
  intros; unfold leaveRecord; try dsimp only
  repeat' (with_reducible first | assumption | apply State.modWork_kept | rfl | split | (intro))

theorem abandonTile_kept {k a0 a1 a2} : Kept k a0 → Kept k (abandonTile a0 a1 a2) := by
  intros; unfold abandonTile; try dsimp only
  repeat' (with_reducible first | assumption | apply State.modBay_kept | apply leaveBay_kept | apply leaveRecord_kept | apply parkTags_kept | apply foldl_kept | apply foldl_kept_fst | apply foldl_kept_snd | rfl | split | (intro) | refine from_fst (by assumption) ?_ | refine from_snd (by assumption) ?_)

theorem execTilePreempt_kept {k a0 a1} : Kept k a1 → Goes (Kept k) (execTilePreempt a0 a1) := by
  intros; unfold execTilePreempt; try dsimp only
  repeat' (with_reducible first | assumption | apply Goes.of_next | apply State.modBay_kept | apply settleTile_kept | apply abandonTile_kept | apply modTile_kept | rfl | split | (intro) | refine from_fst (by assumption) ?_ | refine from_snd (by assumption) ?_)

theorem killTile_kept {k a0 a1} : Kept k a0 → Kept k (killTile a0 a1) := by
  intros; unfold killTile; try dsimp only
  repeat' (with_reducible first | assumption | apply endTile_kept | apply modTile_kept | apply beginBayReset_kept | rfl | split | (intro) | refine from_fst (by assumption) ?_ | refine from_snd (by assumption) ?_)

theorem killGang_kept {k a0 a1} : Kept k a0 → Kept k (killGang a0 a1) := by
  intros; unfold killGang; try dsimp only
  repeat' (with_reducible first | assumption | apply killTile_kept | apply foldl_kept | apply foldl_kept_fst | apply foldl_kept_snd | rfl | split | (intro))

theorem execTileKill_kept {k a0 a1} : Kept k a1 → Goes (Kept k) (execTileKill a0 a1) := by
  intros; unfold execTileKill; try dsimp only
  repeat' (with_reducible first | assumption | apply Goes.of_next | apply killGang_kept | apply killTile_kept | apply State.modBay_kept | rfl | split | (intro) | refine from_fst (by assumption) ?_ | refine from_snd (by assumption) ?_)

theorem execPreemptGraceExpire_kept {k a0 a1} : Kept k a1 → Goes (Kept k) (execPreemptGraceExpire a0 a1) := by
  intros; unfold execPreemptGraceExpire; try dsimp only
  repeat' (with_reducible first | assumption | apply Goes.of_next | apply reach_kept | apply sendTile_kept | apply modTile_kept | rfl | split | (intro) | refine from_fst (by assumption) ?_ | refine from_snd (by assumption) ?_)

theorem hangTile_kept {k a0 a1 a2 a3} : Kept k a0 → Kept k (hangTile a0 a1 a2 a3) := by
  intros; unfold hangTile; try dsimp only
  repeat' (with_reducible first | assumption | apply killGang_kept | apply endTile_kept | apply State.modSeq_kept | rfl | split | (intro) | refine from_fst (by assumption) ?_ | refine from_snd (by assumption) ?_)

theorem hangBay_kept {k a0 a1} : Kept k a0 → Kept k (hangBay a0 a1) := by
  intros; unfold hangBay; try dsimp only
  repeat' (with_reducible first | assumption | apply hangTile_kept | apply fenceBay_kept | apply beginBayReset_kept | apply foldl_kept | apply foldl_kept_fst | apply foldl_kept_snd | rfl | split | (intro))

theorem execTileWatchdog_kept {k a0 a1} : Kept k a1 → Goes (Kept k) (execTileWatchdog a0 a1) := by
  intros; unfold execTileWatchdog; try dsimp only
  repeat' (with_reducible first | assumption | apply Goes.of_next | apply reach_kept | apply hangBay_kept | rfl | split | (intro) | refine from_fst (by assumption) ?_ | refine from_snd (by assumption) ?_)

theorem execRuntimeResponseTimeout_kept {k a0 a1} : Kept k a1 → Goes (Kept k) (execRuntimeResponseTimeout a0 a1) := by
  intros; unfold execRuntimeResponseTimeout; try dsimp only
  repeat' (with_reducible first | assumption | apply Goes.of_next | apply reach_kept | apply hangBay_kept | rfl | split | (intro) | refine from_fst (by assumption) ?_ | refine from_snd (by assumption) ?_)

theorem replayCmd_kept {k a0 a1 a2} : Kept k a0 → Kept k (replayCmd a0 a1 a2) := by
  intros; unfold replayCmd; try dsimp only
  repeat' (with_reducible first | assumption | apply tileError_kept | apply modCmd_kept | apply tileRecord_kept | apply charge_kept | rfl | split | (intro) | refine from_fst (by assumption) ?_ | refine from_snd (by assumption) ?_)

theorem replayOrFinish_kept {k a0 a1 a2} : Kept k a0 → Kept k (replayOrFinish a0 a1 a2) := by
  intros; unfold replayOrFinish; try dsimp only
  repeat' (with_reducible first | assumption | apply replayCmd_kept | apply finishTile_kept | rfl | split | (intro) | refine from_fst (by assumption) ?_ | refine from_snd (by assumption) ?_)

theorem settleParked_kept {k a0 a1} : Kept k a0 → Kept k (settleParked a0 a1) := by
  intros; unfold settleParked; try dsimp only
  repeat' (with_reducible first | assumption | apply settleTray_kept | apply State.modWork_kept | apply finishTile_kept | apply settleCmd_kept | apply replayOrFinish_kept | rfl | split | (intro) | refine from_fst (by assumption) ?_ | refine from_snd (by assumption) ?_)

theorem settleParkedAll_kept {k a0} : Kept k a0 → Kept k (settleParkedAll a0) := by
  intros; unfold settleParkedAll; try dsimp only
  repeat' (with_reducible first | assumption | apply settleParked_kept | apply foldl_kept | apply foldl_kept_fst | apply foldl_kept_snd | rfl | split | (intro))

theorem preemptReported_kept {k a0 a1 a2} : Kept k a0 → Kept k (preemptReported a0 a1 a2) := by
  intros; unfold preemptReported; try dsimp only
  repeat' (with_reducible first | assumption | apply modVols_kept | apply mbFinish_kept | rfl | split | (intro) | refine from_fst (by assumption) ?_ | refine from_snd (by assumption) ?_)

theorem sendReport_kept {k a0 a1 a2} : Kept k a0 → Kept k (sendReport a0 a1 a2) := by
  intros; unfold sendReport; try dsimp only
  repeat' (with_reducible first | assumption | apply sendMgmt_kept | apply preemptReported_kept | rfl | split | (intro) | refine from_fst (by assumption) ?_ | refine from_snd (by assumption) ?_)

theorem settlePreempt_kept {k a0 a1} : Kept k a0 → Kept k (settlePreempt a0 a1) := by
  intros; unfold settlePreempt; try dsimp only
  repeat' (with_reducible first | assumption | apply modVols_kept | apply sendReport_kept | rfl | split | (intro) | refine from_fst (by assumption) ?_ | refine from_snd (by assumption) ?_)

theorem settlePreempts_kept {k a0} : Kept k a0 → Kept k (settlePreempts a0) := by
  intros; unfold settlePreempts; try dsimp only
  repeat' (with_reducible first | assumption | apply settlePreempt_kept | apply foldl_kept | apply foldl_kept_fst | apply foldl_kept_snd | rfl | split | (intro))

theorem beginPreempt_kept {k a0 a1} : Kept k a0 → Kept k (beginPreempt a0 a1) := by
  intros; unfold beginPreempt; try dsimp only
  repeat' (with_reducible first | assumption | apply settlePreempt_kept | apply sendPreempt_kept | apply modVols_kept | apply foldl_kept | rfl | split | (intro) | refine from_fst (by assumption) ?_ | refine from_snd (by assumption) ?_)

theorem takePreempt_kept {k a0 a1 a2 a3 a4 a5} : Kept k a0 → Kept k (takePreempt a0 a1 a2 a3 a4 a5) := by
  intros; unfold takePreempt; try dsimp only
  repeat' (with_reducible first | assumption | apply beginPreempt_kept | apply sendMgmt_kept | apply modVols_kept | apply foldl_kept | apply foldl_kept_fst | apply foldl_kept_snd | rfl | split | (intro) | refine from_fst (by assumption) ?_ | refine from_snd (by assumption) ?_)

theorem execPreemptAt_kept {k a0 a1} : Kept k a1 → Goes (Kept k) (execPreemptAt a0 a1) := by
  intros; unfold execPreemptAt; try dsimp only
  repeat' (with_reducible first | assumption | apply Goes.of_next | apply reach_kept | apply beginPreempt_kept | rfl | split | (intro) | refine from_fst (by assumption) ?_ | refine from_snd (by assumption) ?_)

theorem execResumeAt_kept {k a0 a1} : Kept k a1 → Goes (Kept k) (execResumeAt a0 a1) := by
  intros; unfold execResumeAt; try dsimp only
  repeat' (with_reducible first | assumption | apply Goes.of_next | apply reach_kept | apply modVols_kept | rfl | split | (intro) | refine from_fst (by assumption) ?_ | refine from_snd (by assumption) ?_)

theorem execVolPreemptRelay_kept {k a0} : Kept k a0 → Goes (Kept k) (execVolPreemptRelay a0) := by
  intros; unfold execVolPreemptRelay; try dsimp only
  repeat' (with_reducible first | assumption | apply Goes.of_next | apply takePreempt_kept | apply takeMgmt_kept | rfl | split | (intro) | refine from_fst (by assumption) ?_ | refine from_snd (by assumption) ?_)
  all_goals grind [kept_eq, goes_next, optAll_none, optAll_some, takePreempt_kept, takeMgmt_kept]

theorem execVolPreemptReport_kept {k a0} : Kept k a0 → Goes (Kept k) (execVolPreemptReport a0) := by
  intros; unfold execVolPreemptReport; try dsimp only
  repeat' (with_reducible first | assumption | apply Goes.of_next | apply takeMgmt_kept | apply sendReport_kept | rfl | split | (intro) | refine from_fst (by assumption) ?_ | refine from_snd (by assumption) ?_)
  all_goals grind [kept_eq, goes_next, optAll_none, optAll_some, takeMgmt_kept, sendReport_kept]

theorem execVolPreemptTimeout_kept {k a0 a1} : Kept k a1 → Goes (Kept k) (execVolPreemptTimeout a0 a1) := by
  intros; unfold execVolPreemptTimeout; try dsimp only
  repeat' (with_reducible first | assumption | apply Goes.of_next | apply reach_kept | apply modVols_kept | apply mbFinish_kept | apply foldl_kept | apply foldl_kept_fst | apply foldl_kept_snd | rfl | split | (intro) | refine from_fst (by assumption) ?_ | refine from_snd (by assumption) ?_)

theorem execVolPreempt_kept {k a0 a1} : Kept k a1 → Goes (Kept k) (execVolPreempt a0 a1) := by
  intros; unfold execVolPreempt; try dsimp only
  repeat' (with_reducible first | assumption | apply Goes.of_next | apply MbRes.of_going | apply takePreempt_kept | apply mbCommand_kept | rfl | split | (intro) | exact MbRes.to_going (by assumption) | refine MbRes.from_going (by assumption) ?_)

theorem execVolResume_kept {k a0 a1} : Kept k a1 → Goes (Kept k) (execVolResume a0 a1) := by
  intros; unfold execVolResume; try dsimp only
  repeat' (with_reducible first | assumption | apply Goes.of_next | apply MbRes.of_going | apply takePreempt_kept | apply mbOk_kept | apply mbCommand_kept | rfl | split | (intro) | exact MbRes.to_going (by assumption) | refine MbRes.from_going (by assumption) ?_)

theorem markSlices_kept {k a0 a1} : Kept k a0 → Kept k (markSlices a0 a1) := by
  intros; unfold markSlices; try dsimp only
  repeat' (with_reducible first | assumption | apply State.modWork_kept | apply foldl_kept | apply foldl_kept_fst | apply foldl_kept_snd | rfl | split | (intro) | refine from_fst (by assumption) ?_ | refine from_snd (by assumption) ?_)

theorem markAllSlices_kept {k a0} : Kept k a0 → Kept k (markAllSlices a0) := by
  intros; unfold markAllSlices; try dsimp only
  repeat' (with_reducible first | assumption | apply markSlices_kept | apply foldl_kept | apply foldl_kept_fst | apply foldl_kept_snd | rfl | split | (intro))

theorem execTimesliceExpire_kept {k a0 a1 a2} : Kept k a2 → Goes (Kept k) (execTimesliceExpire a0 a1 a2) := by
  intros; unfold execTimesliceExpire; try dsimp only
  repeat' (with_reducible first | assumption | apply Goes.of_next | apply markSlices_kept | apply reach_kept | apply State.modWork_kept | apply sendPreempt_kept | apply foldl_kept | apply foldl_kept_fst | apply foldl_kept_snd | rfl | split | (intro) | refine from_fst (by assumption) ?_ | refine from_snd (by assumption) ?_)

theorem tileOutcome_kept {k a0 a1 a2} : Kept k a0 → Kept k (tileOutcome a0 a1 a2) := by
  intros; unfold tileOutcome; try dsimp only
  repeat' (with_reducible first | assumption | apply finishTile_kept | apply modCmd_kept | apply replayOrFinish_kept | apply charge_kept | rfl | split | (intro) | refine from_fst (by assumption) ?_ | refine from_snd (by assumption) ?_)

theorem execTileDone_kept {k a0} : Kept k a0 → Goes (Kept k) (execTileDone a0) := by
  intros; unfold execTileDone; try dsimp only
  repeat' (with_reducible first | assumption | apply Goes.of_next | apply markSlices_kept | apply settlePreempts_kept | apply fenceBay_kept | apply tileOutcome_kept | apply State.modWork_kept | apply trySendDrain_kept | apply settleCmd_kept | apply settleParked_kept | apply settleInvals_kept | rfl | split | (intro) | refine from_fst (by assumption) ?_ | refine from_snd (by assumption) ?_)

theorem execDestroyTileKill_kept {k a0 a1} : Kept k a1 → Goes (Kept k) (execDestroyTileKill a0 a1) := by
  intros; unfold execDestroyTileKill; try dsimp only
  repeat' (with_reducible first | assumption | apply Goes.of_next | apply killTile_kept | apply reach_kept | apply foldl_kept | apply foldl_kept_fst | apply foldl_kept_snd | rfl | split | (intro) | refine from_fst (by assumption) ?_ | refine from_snd (by assumption) ?_)

theorem execQueueSwapIn_kept {k a0 a1} : Kept k a1 → Goes (Kept k) (execQueueSwapIn a0 a1) := by
  intros; unfold execQueueSwapIn; try dsimp only
  repeat' (with_reducible first | assumption | apply Goes.of_next | apply modQueue_kept | rfl | split | (intro) | refine from_fst (by assumption) ?_ | refine from_snd (by assumption) ?_)

theorem joinJob_kept {k a0 a1 a2} : Kept k a0 → Kept k (joinJob a0 a1 a2).1 := by
  intros; unfold joinJob; try dsimp only
  repeat' (with_reducible first | assumption | apply State.modWork_kept | rfl | split | (intro) | refine from_fst (by assumption) ?_ | refine from_snd (by assumption) ?_)
grind_pattern joinJob_kept => (joinJob a0 a1 a2), Kept k a0

theorem acceptCmd_kept {k a0 a1 a2 a3} : Kept k a0 → Kept k (acceptCmd a0 a1 a2 a3) := by
  intros; unfold acceptCmd; try dsimp only
  repeat' (with_reducible first | assumption | apply joinJob_kept | apply modQueue_kept | apply State.modWork_kept | apply completeCmd_kept | apply modCmd_kept | rfl | split | (intro) | refine from_fst (by assumption) ?_ | refine from_snd (by assumption) ?_)

theorem execQueueRead_kept {k a0 a1 a2} : Kept k a2 → Goes (Kept k) (execQueueRead a0 a1 a2) := by
  intros; unfold execQueueRead; try dsimp only
  repeat' (with_reducible first | assumption | apply Goes.of_next | apply acceptCmd_kept | rfl | split | (intro) | refine from_fst (by assumption) ?_ | refine from_snd (by assumption) ?_)

theorem execCommandRelease_kept {k a0 a1} : Kept k a1 → Goes (Kept k) (execCommandRelease a0 a1) := by
  intros; unfold execCommandRelease; try dsimp only
  repeat' (with_reducible first | assumption | apply Goes.of_next | apply State.modWork_kept | apply completeCmd_kept | apply modCmd_kept | rfl | split | (intro) | refine from_fst (by assumption) ?_ | refine from_snd (by assumption) ?_)

theorem execSync_kept {k a0 a1} : Kept k a1 → Goes (Kept k) (execSync a0 a1) := by
  intros; unfold execSync; try dsimp only
  repeat' (with_reducible first | assumption | apply Goes.of_next | apply completeCmd_kept | rfl | split | (intro) | refine from_fst (by assumption) ?_ | refine from_snd (by assumption) ?_)

theorem execHint_kept {k a0 a1} : Kept k a1 → Goes (Kept k) (execHint a0 a1) := by
  intros; unfold execHint; try dsimp only
  repeat' (with_reducible first | assumption | apply Goes.of_next | apply State.modPwr_kept | apply completeCmd_kept | rfl | split | (intro) | refine from_fst (by assumption) ?_ | refine from_snd (by assumption) ?_)

theorem execDispatch_kept {k a0 a1} : Kept k a1 → Goes (Kept k) (execDispatch a0 a1) := by
  intros; unfold execDispatch; try dsimp only
  repeat' (with_reducible first | assumption | apply Goes.of_next | apply markSlices_kept | apply completeCmd_kept | apply modCmd_kept | rfl | split | (intro) | refine from_fst (by assumption) ?_ | refine from_snd (by assumption) ?_)

theorem submitShelve_kept {k a0 a1 a2 a3 a4} : Kept k a0 → Kept k (submitShelve a0 a1 a2 a3 a4) := by
  intros; unfold submitShelve; try dsimp only
  repeat' (with_reducible first | assumption | apply submitShelver_kept | apply modCmd_kept | rfl | split | (intro) | refine from_fst (by assumption) ?_ | refine from_snd (by assumption) ?_)

theorem execShelve_kept {k a0 a1} : Kept k a1 → Goes (Kept k) (execShelve a0 a1) := by
  intros; unfold execShelve; try dsimp only
  repeat' (with_reducible first | assumption | apply Goes.of_next | apply Ents.of_ok | apply Ents.of_fail | apply Ents.of_wait | apply walkPages_kept | apply makeResident_kept | apply completeCmd_kept | apply modCmd_kept | apply submitShelve_kept | apply faultForCmd_kept | rfl | split | (intro) | exact Ents.to_ok (by assumption) | refine Ents.from_ok (by assumption) ?_ | exact Ents.to_fail (by assumption) | refine Ents.from_fail (by assumption) ?_ | exact Ents.to_wait (by assumption) | refine Ents.from_wait (by assumption) ?_ | refine from_fst (by assumption) ?_ | refine from_snd (by assumption) ?_)

theorem execShelveSubmit_kept {k a0 a1} : Kept k a1 → Goes (Kept k) (execShelveSubmit a0 a1) := by
  intros; unfold execShelveSubmit; try dsimp only
  repeat' (with_reducible first | assumption | apply Goes.of_next | apply submitShelve_kept | rfl | split | (intro) | refine from_fst (by assumption) ?_ | refine from_snd (by assumption) ?_)

theorem execCollective_kept {k a0 a1} : Kept k a1 → Goes (Kept k) (execCollective a0 a1) := by
  intros; unfold execCollective; try dsimp only
  repeat' (with_reducible first | assumption | apply Goes.of_next | apply openColl_kept | apply makeResident_kept | apply completeCmd_kept | apply modCmd_kept | rfl | split | (intro) | refine from_fst (by assumption) ?_ | refine from_snd (by assumption) ?_)

theorem execCtxResume_kept {k a0 a1} : Kept k a1 → Goes (Kept k) (execCtxResume a0 a1) := by
  intros; unfold execCtxResume; try dsimp only
  repeat' (with_reducible first | assumption | apply Goes.of_next | apply MbRes.of_done | apply MbRes.of_going | apply mbOk_kept | apply modCtx_kept | apply makeResident_kept | apply checkSave_kept | apply markAllSlices_kept | apply mbFail_kept | apply mbCommand_kept | rfl | split | (intro) | exact MbRes.to_done (by assumption) | refine MbRes.from_done (by assumption) ?_ | exact MbRes.to_going (by assumption) | refine MbRes.from_going (by assumption) ?_ | refine from_fst (by assumption) ?_ | refine from_snd (by assumption) ?_)

theorem endHold_kept {k a0 a1} : Kept k a0 → Kept k (endHold a0 a1) := by
  intros; unfold endHold; try dsimp only
  repeat' (with_reducible first | assumption | apply modTile_kept | rfl | split | (intro) | refine from_fst (by assumption) ?_ | refine from_snd (by assumption) ?_)

theorem endHolds_kept {k a0 a1} : Kept k a0 → Kept k (endHolds a0 a1) := by
  intros; unfold endHolds; try dsimp only
  repeat' (with_reducible first | assumption | apply endHold_kept | apply foldl_kept | rfl | split | (intro))

theorem resumeHolder_kept {k a0 a1} : Kept k a0 → Kept k (resumeHolder a0 a1) := by
  intros; unfold resumeHolder; try dsimp only
  repeat' (with_reducible first | assumption | apply State.modShelver_kept | apply State.modMover_kept | rfl | split | (intro))

theorem failHolders_kept {k a0 a1 a2 a3 a4} : Kept k a0 → Kept k (failHolders a0 a1 a2 a3 a4) := by
  intros; unfold failHolders; try dsimp only
  repeat' (with_reducible first | assumption | apply failWaiter_kept | apply State.modWork_kept | apply foldl_kept | rfl | split | (intro))

theorem retryRecord_kept {k a0 a1 a2} : Kept k a0 → MbRes.All (Kept k) (retryRecord a0 a1 a2) := by
  intros; unfold retryRecord; try dsimp only
  repeat' (with_reducible first | assumption | apply Walk.of_leaf | apply Walk.of_fail | apply Walk.of_wait | apply MbRes.of_going | apply failHolders_kept | apply mbOk_kept | apply installEntry_kept | apply resumeHolder_kept | apply State.modWork_kept | apply writeFault_kept | apply sealPages_kept | apply walkFrom_kept | apply mbFail_kept | apply foldl_kept | apply foldl_kept_fst | apply foldl_kept_snd | apply Walk.foldl_all | apply MbRes.foldl_all | rfl | split | (intro) | exact Walk.to_leaf (by assumption) | refine Walk.from_leaf (by assumption) ?_ | exact Walk.to_fail (by assumption) | refine Walk.from_fail (by assumption) ?_ | exact Walk.to_wait (by assumption) | refine Walk.from_wait (by assumption) ?_ | exact MbRes.to_going (by assumption) | refine MbRes.from_going (by assumption) ?_ | refine from_fst (by assumption) ?_ | refine from_snd (by assumption) ?_)
grind_pattern retryRecord_kept => (retryRecord a0 a1 a2), Kept k a0

theorem faultAnswer_kept {k a0 a1 a2 a3} : Kept k a0 → (∀ y0 y1 y2, Kept k y0 → MbRes.All (Kept k) (a3 y0 y1 y2)) → Kept k (faultAnswer a0 a1 a2 a3) := by
  intros; unfold faultAnswer; try dsimp only
  repeat' (with_reducible first | assumption | apply endHolds_kept | apply mbFail_kept | apply mbCommand_kept | rfl | split | (intro) | refine from_fst (by assumption) ?_ | refine from_snd (by assumption) ?_)
  all_goals grind [kept_eq, goes_next, optAll_none, optAll_some, endHolds_kept, mbFail_kept, mbCommand_kept]

theorem execFaultRetry_kept {k a0 a1} : Kept k a1 → Goes (Kept k) (execFaultRetry a0 a1) := by
  intros; unfold execFaultRetry; try dsimp only
  repeat' (with_reducible first | assumption | apply Goes.of_next | apply retryRecord_kept | apply faultAnswer_kept | rfl | split | (intro))

theorem execFaultAbort_kept {k a0 a1} : Kept k a1 → Goes (Kept k) (execFaultAbort a0 a1) := by
  intros; unfold execFaultAbort; try dsimp only
  repeat' (with_reducible first | assumption | apply Goes.of_next | apply failHolders_kept | apply mbOk_kept | apply faultAnswer_kept | rfl | split | (intro))

theorem stopTile_kept {k a0 a1} : Kept k a0 → Kept k (stopTile a0 a1) := by
  intros; unfold stopTile; try dsimp only
  repeat' (with_reducible first | assumption | apply killTile_kept | apply sendTile_kept | rfl | split | (intro) | refine from_fst (by assumption) ?_ | refine from_snd (by assumption) ?_)

theorem stopCmds_kept {k a0 a1} : Kept k a0 → Kept k (stopCmds a0 a1) := by
  intros; unfold stopCmds; try dsimp only
  repeat' (with_reducible first | assumption | apply abortQueue_kept | apply dropCmd_kept | apply stopTile_kept | apply endColls_kept | apply foldl_kept | apply foldl_kept_fst | apply foldl_kept_snd | rfl | split | (intro) | refine from_fst (by assumption) ?_ | refine from_snd (by assumption) ?_)

theorem deleteQueue_kept {k a0 a1} : Kept k a0 → Kept k (deleteQueue a0 a1) := by
  intros; unfold deleteQueue; try dsimp only
  repeat' (with_reducible first | assumption | apply State.modWork_kept | rfl | split | (intro) | refine from_fst (by assumption) ?_ | refine from_snd (by assumption) ?_)

theorem beginDestroy_kept {k a0 a1 a2 a3} : Kept k a0 → Kept k (beginDestroy a0 a1 a2 a3) := by
  intros; unfold beginDestroy; try dsimp only
  repeat' (with_reducible first | assumption | apply State.modPwr_kept | apply abortWaiter_kept | apply stopCmds_kept | apply State.modWork_kept | apply mbFinish_kept | apply setCtx_kept | apply foldl_kept | apply foldl_kept_fst | apply foldl_kept_snd | rfl | split | (intro) | refine from_fst (by assumption) ?_ | refine from_snd (by assumption) ?_)

theorem finishDestroy_kept {k a0 a1} : Kept k a0 → Kept k (finishDestroy a0 a1).1 := by
  intros; unfold finishDestroy; try dsimp only
  repeat' (with_reducible first | assumption | apply settleObj_kept | apply deleteQueue_kept | apply ledgerAppend_kept | apply State.modWork_kept | apply dropSlot_kept | apply jobRecord_kept | apply modObj_kept | apply dropCmd_kept | apply foldl_kept | apply foldl_kept_fst | apply foldl_kept_snd | rfl | split | (intro) | refine from_fst (by assumption) ?_ | refine from_snd (by assumption) ?_)
grind_pattern finishDestroy_kept => (finishDestroy a0 a1), Kept k a0

theorem execCtxDestroy_kept {k a0 a1} : Kept k a1 → Goes (Kept k) (execCtxDestroy a0 a1) := by
  intros; unfold execCtxDestroy; try dsimp only
  repeat' (with_reducible first | assumption | apply Goes.of_next | apply MbRes.of_going | apply mbOk_kept | apply beginDestroy_kept | apply finishDestroy_kept | apply mbFail_kept | apply mbCommand_kept | rfl | split | (intro) | exact MbRes.to_going (by assumption) | refine MbRes.from_going (by assumption) ?_ | refine from_fst (by assumption) ?_ | refine from_snd (by assumption) ?_)

theorem endQueue_kept {k a0 a1} : Kept k a0 → MbRes.All (Kept k) (endQueue a0 a1) := by
  intros; unfold endQueue; try dsimp only
  repeat' (with_reducible first | assumption | apply MbRes.of_going | apply mbOk_kept | apply deleteQueue_kept | apply dropCmd_kept | apply foldl_kept | apply foldl_kept_fst | apply foldl_kept_snd | apply MbRes.foldl_all | rfl | split | (intro) | exact MbRes.to_going (by assumption) | refine MbRes.from_going (by assumption) ?_)
grind_pattern endQueue_kept => (endQueue a0 a1), Kept k a0

theorem execQueueDestroy_kept {k a0 a1} : Kept k a1 → Goes (Kept k) (execQueueDestroy a0 a1) := by unfold execQueueDestroy; grind [kept_eq, goes_next, optAll_none, optAll_some, endQueue_kept, stopCmds_kept, modQueue_kept, mbFail_kept, mbCommand_kept]

theorem ctxRead_kept {k a0 a1 a2 a3 a4} : Kept k a0 → Got.All (Kept k) (ctxRead a0 a1 a2 a3 a4) := by
  intros; unfold ctxRead; try dsimp only
  repeat' (with_reducible first | assumption | apply Ents.of_ok | apply Ents.of_fail | apply Ents.of_wait | apply Got.of_ok | apply Got.of_wait | apply Got.of_bad | apply walkPages_kept | apply vRead_kept | rfl | split | (intro) | exact Ents.to_ok (by assumption) | refine Ents.from_ok (by assumption) ?_ | exact Ents.to_fail (by assumption) | refine Ents.from_fail (by assumption) ?_ | exact Ents.to_wait (by assumption) | refine Ents.from_wait (by assumption) ?_ | exact Got.to_ok (by assumption) | refine Got.from_ok (by assumption) ?_ | exact Got.to_wait (by assumption) | refine Got.from_wait (by assumption) ?_ | exact Got.to_bad (by assumption) | refine Got.from_bad (by assumption) ?_ | refine from_fst (by assumption) ?_ | refine from_snd (by assumption) ?_)
grind_pattern ctxRead_kept => (ctxRead a0 a1 a2 a3 a4), Kept k a0

theorem checkImage_kept {k a0 a1 a2 a3 a4} : Kept k a0 → Got.All (Kept k) (checkImage a0 a1 a2 a3 a4) := by
  intros; unfold checkImage; try dsimp only
  repeat' (with_reducible first | assumption | apply Got.of_ok | apply Got.of_wait | apply Got.of_bad | apply ctxRead_kept | rfl | split | (intro) | exact Got.to_ok (by assumption) | refine Got.from_ok (by assumption) ?_ | exact Got.to_wait (by assumption) | refine Got.from_wait (by assumption) ?_ | exact Got.to_bad (by assumption) | refine Got.from_bad (by assumption) ?_ | refine from_fst (by assumption) ?_ | refine from_snd (by assumption) ?_)
grind_pattern checkImage_kept => (checkImage a0 a1 a2 a3 a4), Kept k a0

theorem execImageRegister_kept {k a0 a1} : Kept k a1 → Goes (Kept k) (execImageRegister a0 a1) := by
  intros; unfold execImageRegister; try dsimp only
  repeat' (with_reducible first | assumption | apply Goes.of_next | apply Got.of_ok | apply Got.of_wait | apply Got.of_bad | apply MbRes.of_going | apply mbOk_kept | apply checkImage_kept | apply modObj_kept | apply mbFail_kept | apply mbCommand_kept | rfl | split | (intro) | exact Got.to_ok (by assumption) | refine Got.from_ok (by assumption) ?_ | exact Got.to_wait (by assumption) | refine Got.from_wait (by assumption) ?_ | exact Got.to_bad (by assumption) | refine Got.from_bad (by assumption) ?_ | exact MbRes.to_going (by assumption) | refine MbRes.from_going (by assumption) ?_ | refine from_fst (by assumption) ?_ | refine from_snd (by assumption) ?_)

theorem zeroObj_kept {k a0 a1} : Kept k a0 → Kept k (zeroObj a0 a1).1 := by
  intros; unfold zeroObj; try dsimp only
  repeat' (with_reducible first | assumption | apply purgeRange_kept | apply foldl_kept | apply foldl_kept_fst | apply foldl_kept_snd | rfl | split | (intro) | refine from_fst (by assumption) ?_ | refine from_snd (by assumption) ?_)
grind_pattern zeroObj_kept => (zeroObj a0 a1), Kept k a0

theorem execMemAlloc_kept {k a0 a1} : Kept k a1 → Goes (Kept k) (execMemAlloc a0 a1) := by
  intros; unfold execMemAlloc; try dsimp only
  repeat' (with_reducible first | assumption | apply Goes.of_next | apply MbRes.of_going | apply mbOk_kept | apply State.modWork_kept | apply zeroObj_kept | apply mbFail_kept | apply mbCommand_kept | rfl | split | (intro) | exact MbRes.to_going (by assumption) | refine MbRes.from_going (by assumption) ?_ | refine from_fst (by assumption) ?_ | refine from_snd (by assumption) ?_)

theorem execColophonRead_kept {k a0 a1} : Kept k a1 → Goes (Kept k) (execColophonRead a0 a1) := by
  intros; unfold execColophonRead; try dsimp only
  repeat' (with_reducible first | assumption | apply Goes.of_next | apply MbRes.of_going | apply mbOk_kept | apply cmWrite_kept | apply mbCommand_kept | rfl | split | (intro) | exact MbRes.to_going (by assumption) | refine MbRes.from_going (by assumption) ?_)

theorem configSet_kept {k a0 a1 a2 a3 a4 a5} : Kept k a0 → (∀ y0 y1, Kept k y0 → Kept k (a5 y0 y1)) → Goes (Kept k) (configSet a0 a1 a2 a3 a4 a5) := by
  intros; unfold configSet; try dsimp only
  repeat' (with_reducible first | assumption | apply Goes.of_next | apply MbRes.of_going | apply mbOk_kept | apply mbFail_kept | apply mbCommand_kept | rfl | split | (intro) | exact MbRes.to_going (by assumption) | refine MbRes.from_going (by assumption) ?_)
  all_goals grind [kept_eq, goes_next, mbOk_kept, mbFail_kept, mbCommand_kept, MbRes.all_going]

theorem execRsvdPolicy_kept {k a0 a1} : Kept k a1 → Goes (Kept k) (execRsvdPolicy a0 a1) := by
  intros; unfold execRsvdPolicy; try dsimp only
  repeat' (with_reducible first | assumption | (simp only [kept_mk]; refine Kept.re ?_ rfl rfl rfl rfl rfl rfl rfl rfl rfl rfl rfl rfl rfl) | apply Goes.of_next | apply configSet_kept | rfl | split | (intro))

theorem execIsolation_kept {k a0 a1} : Kept k a1 → Goes (Kept k) (execIsolation a0 a1) := by
  intros; unfold execIsolation; try dsimp only
  repeat' (with_reducible first | assumption | apply Goes.of_next | apply State.modPwr_kept | apply configSet_kept | rfl | split | (intro))

theorem execBoostEn_kept {k a0 a1} : Kept k a1 → Goes (Kept k) (execBoostEn a0 a1) := by
  intros; unfold execBoostEn; try dsimp only
  repeat' (with_reducible first | assumption | apply Goes.of_next | apply State.modPwr_kept | apply configSet_kept | rfl | split | (intro))

theorem execHintsEn_kept {k a0 a1} : Kept k a1 → Goes (Kept k) (execHintsEn a0 a1) := by
  intros; unfold execHintsEn; try dsimp only
  repeat' (with_reducible first | assumption | apply Goes.of_next | apply State.modPwr_kept | apply configSet_kept | rfl | split | (intro))

theorem execDeviceId_kept {k a0 a1} : Kept k a1 → Goes (Kept k) (execDeviceId a0 a1) := by
  intro h; unfold execDeviceId configSet
  apply Goes.of_next
  apply mbCommand_checked h
  · intro s f c hs hc
    have hr := mbCheck_range hc
    split
    · exact mbOk_kept (State.modFab_device hs (by simpa using hr))
    · exact mbFail_kept hs
  · intro s c hs; exact hs

theorem execScrubPeriod_kept {k a0 a1} : Kept k a1 → Goes (Kept k) (execScrubPeriod a0 a1) := by
  intros; unfold execScrubPeriod; try dsimp only
  repeat' (with_reducible first | assumption | apply Goes.of_next | apply configSet_kept | apply State.modStack_kept | apply foldl_kept | rfl | split | (intro))

theorem execBwGuarantee_kept {k a0 a1} : Kept k a1 → Goes (Kept k) (execBwGuarantee a0 a1) := by
  intros; unfold execBwGuarantee; try dsimp only
  repeat' (with_reducible first | assumption | apply Goes.of_next | apply MbRes.of_going | apply mbOk_kept | apply State.modStack_kept | apply mbFail_kept | apply mbCommand_kept | apply foldl_kept | apply MbRes.foldl_all | rfl | split | (intro) | exact MbRes.to_going (by assumption) | refine MbRes.from_going (by assumption) ?_ | refine from_fst (by assumption) ?_ | refine from_snd (by assumption) ?_)

theorem execRouteLoad_kept {k a0 a1 a2} : Kept k a2 → Goes (Kept k) (execRouteLoad a0 a1 a2) := by
  intros; unfold execRouteLoad; try dsimp only
  repeat' (with_reducible first | assumption | apply Goes.of_next | apply MbRes.of_going | apply mbOk_kept | apply State.modFab_kept | apply mbFail_kept | apply mbCommand_kept | rfl | split | (intro) | exact MbRes.to_going (by assumption) | refine MbRes.from_going (by assumption) ?_)

theorem writePortCtrl_kept {k a0 a1 a2} : Kept k a0 → Kept k (writePortCtrl a0 a1 a2) := by
  intros; unfold writePortCtrl; try dsimp only
  repeat' (with_reducible first | assumption | (simp only [kept_mk]; refine Kept.re ?_ rfl rfl rfl rfl rfl rfl rfl rfl rfl rfl rfl rfl rfl) | apply goDown_kept | apply enterTrain_kept | apply State.modFport_kept | rfl | split | (intro))

theorem execPortConfig_kept {k a0 a1} : Kept k a1 → Goes (Kept k) (execPortConfig a0 a1) := by
  intros; unfold execPortConfig; try dsimp only
  repeat' (with_reducible first | assumption | apply Goes.of_next | apply MbRes.of_going | apply mbOk_kept | apply writePortCtrl_kept | apply mbCommand_kept | rfl | split | (intro) | exact MbRes.to_going (by assumption) | refine MbRes.from_going (by assumption) ?_)

theorem execFmSend_kept {k a0 a1} : Kept k a1 → Goes (Kept k) (execFmSend a0 a1) := by
  intros; unfold execFmSend; try dsimp only
  repeat' (with_reducible first | assumption | apply Goes.of_next | apply MbRes.of_going | apply State.modFab_kept | apply sendMgmt_kept | apply mbCommand_kept | rfl | split | (intro) | exact MbRes.to_going (by assumption) | refine MbRes.from_going (by assumption) ?_ | refine from_fst (by assumption) ?_ | refine from_snd (by assumption) ?_)

theorem execFmMessage_kept {k a0} : Kept k a0 → Goes (Kept k) (execFmMessage a0) := by
  intros; unfold execFmMessage; try dsimp only
  repeat' (with_reducible first | assumption | apply Goes.of_next | apply takeMgmt_kept | apply postEvent_kept | apply sendMgmt_kept | rfl | split | (intro) | refine from_fst (by assumption) ?_ | refine from_snd (by assumption) ?_)
  all_goals grind [kept_eq, goes_next, optAll_none, optAll_some, takeMgmt_kept, postEvent_kept, sendMgmt_kept]

theorem execFmAck_kept {k a0} : Kept k a0 → Goes (Kept k) (execFmAck a0) := by
  intros; unfold execFmAck; try dsimp only
  repeat' (with_reducible first | assumption | apply Goes.of_next | apply State.modFab_kept | apply takeMgmt_kept | apply mbFinish_kept | rfl | split | (intro) | refine from_fst (by assumption) ?_ | refine from_snd (by assumption) ?_)
  all_goals grind [kept_eq, goes_next, optAll_none, optAll_some, State.modFab_kept, takeMgmt_kept, mbFinish_kept]

theorem execFmSendTimeout_kept {k a0 a1} : Kept k a1 → Goes (Kept k) (execFmSendTimeout a0 a1) := by
  intros; unfold execFmSendTimeout; try dsimp only
  repeat' (with_reducible first | assumption | apply Goes.of_next | apply reach_kept | apply State.modFab_kept | apply mbFinish_kept | rfl | split | (intro) | refine from_fst (by assumption) ?_ | refine from_snd (by assumption) ?_)

end Sys2Proof.Machine
end

