-- ==== Sys2Proof/Laws/KeptResets.lean ====
section
/-! SUPPORT. What resets, partitions, security and recovery keep: `Kept` after each operation. -/

namespace Sys2Proof.Machine

set_option Elab.async false
set_option linter.all false

theorem startPartReset_kept {k a0 a1} : Kept k a0 → Kept k (startPartReset a0 a1) := by
  intros; unfold startPartReset; try dsimp only
  repeat' (with_reducible first | assumption | apply abortQueue_kept | apply beginReset_kept | apply resetBay_kept | apply completeCmd_kept | apply State.modPart_kept | apply foldl_kept | apply foldl_kept_fst | apply foldl_kept_snd | rfl | split | (intro))

theorem answerAll_kept {k a0 a1 a2 a3 a4} : Kept k a0 → Kept k (answerAll a0 a1 a2 a3 a4) := by
  intros; unfold answerAll; try dsimp only
  repeat' (with_reducible first | assumption | apply mbFinish_kept | apply foldl_kept | rfl | split | (intro))

theorem endPartReset_kept {k a0 a1} : Kept k a0 → Kept k (endPartReset a0 a1) := by
  intros; unfold endPartReset; try dsimp only
  repeat' (with_reducible first | assumption | apply State.modBay_kept | apply postError_kept | apply endReset_kept | apply dropPartCat_kept | apply answerAll_kept | apply State.modPart_kept | apply State.modSeq_kept | apply foldl_kept | rfl | split | (intro))

theorem settlePartReset_kept {k a0 a1} : Kept k a0 → Kept k (settlePartReset a0 a1) := by
  intros; unfold settlePartReset; try dsimp only
  repeat' (with_reducible first | assumption | apply endPartReset_kept | apply startMaint_kept | apply State.modPart_kept | apply endColls_kept | apply foldl_kept | apply foldl_kept_fst | apply foldl_kept_snd | rfl | split | (intro))

theorem settlePartResets_kept {k a0} : Kept k a0 → Kept k (settlePartResets a0) := by
  intros; unfold settlePartResets; try dsimp only
  repeat' (with_reducible first | assumption | apply settlePartReset_kept | apply foldl_kept | rfl | split | (intro))

theorem execPartReset_kept {k a0 a1} : Kept k a1 → Goes (Kept k) (execPartReset a0 a1) := by
  intros; unfold execPartReset; try dsimp only
  repeat' (with_reducible first | assumption | apply Goes.of_next | apply MbRes.of_going | apply startPartReset_kept | apply settlePartResets_kept | apply mbCommand_kept | rfl | split | (intro) | exact MbRes.to_going (by assumption) | refine MbRes.from_going (by assumption) ?_)

theorem freshClock_kept {k a0 a1} : Kept k a0 → Kept k (freshClock a0 a1) := by
  intro h; unfold freshClock; exact State.modPwr_kept h rfl

theorem execBayResetDone_kept {k a0 a1} : Kept k a1 → Goes (Kept k) (execBayResetDone a0 a1) := by
  intros; unfold execBayResetDone; try dsimp only
  repeat' (with_reducible first | assumption | apply Goes.of_next | apply State.modBay_kept | apply freshClock_kept | apply endReset_kept | apply settlePartResets_kept | apply foldl_kept | rfl | split | (intro))

theorem answered_kept {k a0} : Kept k a0 → Kept k (answered a0) := by
  intros; unfold answered; try dsimp only
  repeat' (with_reducible first | assumption | apply settleParkedAll_kept | apply settlePartResets_kept | rfl | split | (intro))

theorem execWrAck_kept {k a0 a1 a2} : Kept k a2 → Goes (Kept k) (execWrAck a0 a1 a2) := by
  intros; unfold execWrAck; try dsimp only
  repeat' (with_reducible first | assumption | apply Goes.of_next | apply answered_kept | apply response_kept | rfl | split | (intro))

theorem execRdResp_kept {k a0 a1 a2} : Kept k a2 → Goes (Kept k) (execRdResp a0 a1 a2) := by
  intros; unfold execRdResp; try dsimp only
  repeat' (with_reducible first | assumption | apply Goes.of_next | apply answered_kept | apply response_kept | rfl | split | (intro))

theorem execAtomicResp_kept {k a0 a1 a2} : Kept k a2 → Goes (Kept k) (execAtomicResp a0 a1 a2) := by
  intros; unfold execAtomicResp; try dsimp only
  repeat' (with_reducible first | assumption | apply Goes.of_next | apply answered_kept | apply response_kept | rfl | split | (intro))

theorem execFabricDeadline_kept {k a0 a1} : Kept k a1 → Goes (Kept k) (execFabricDeadline a0 a1) := by
  intros; unfold execFabricDeadline; try dsimp only
  repeat' (with_reducible first | assumption | apply Goes.of_next | apply endRequest_kept | apply reach_kept | apply State.modFab_kept | apply answered_kept | rfl | split | (intro) | refine from_fst (by assumption) ?_ | refine from_snd (by assumption) ?_)

theorem execTagFree_kept {k a0} : Kept k a0 → Goes (Kept k) (execTagFree a0) := by
  intros; unfold execTagFree; try dsimp only
  repeat' (with_reducible first | assumption | apply Goes.of_next | apply endRequest_kept | apply State.modFab_kept | apply answered_kept | apply sendRequest_kept | rfl | split | (intro) | refine from_fst (by assumption) ?_ | refine from_snd (by assumption) ?_)

theorem ownShelves_kept {k a0 a1} : Kept k a0 → Kept k (ownShelves a0 a1) := by
  intros; unfold ownShelves; try dsimp only
  repeat' (with_reducible first | assumption | apply State.modStack_kept | apply foldl_kept | rfl | split | (intro))

theorem applyMode_kept {k a0 a1 a2} : Kept k a0 → legalMode a1 = true → Kept k (applyMode a0 a1 a2) := by
  intro h hm; unfold applyMode; dsimp only
  have h1 : Kept k (modCat (ownShelves a0 a1) (fun c => { c with entries := [], locals := [], windows := [], misses := [], dlog := c.dlog.filter (fun d => decide (d.1 < a1)) })) :=
    modCat_kept (ownShelves_kept h)
  have h2 := State.modMem_kept (f := fun m => { m with plru := [] }) h1 rfl
  have h3 := State.modFab_kept (f := fun f => { f with holder := a2 }) h2 rfl
  apply colophonChange_kept
  exact KeptOf.mode_to h3 hm

theorem execPartMode_kept {k a0 a1} : Kept k a1 → Goes (Kept k) (execPartMode a0 a1) := by
  intro h; unfold execPartMode
  dsimp only
  apply Goes.of_next
  apply mbCommand_kept h <;> intro s c hs
  all_goals repeat' (with_reducible first | assumption | apply mbFail_kept | apply mbOk_kept | apply MbRes.of_going | apply foldl_kept | apply startMaint_kept | apply applyMode_kept | split | (intro))
  all_goals (simp_all [legalMode] <;> omega)

theorem modRelease_kept {k a0 a1 a2} : Kept k a0 → Kept k (modRelease a0 a1 a2) := by
  intros; unfold modRelease; try dsimp only
  repeat' (with_reducible first | assumption | (simp only [kept_mk]; refine Kept.re ?_ rfl rfl rfl rfl rfl rfl rfl rfl rfl rfl rfl rfl rfl) | rfl | split | (intro))

theorem squashPart_kept {k a0 a1} : Kept k a0 → Kept k (squashPart a0 a1) := by
  intros; unfold squashPart; try dsimp only
  repeat' (with_reducible first | assumption | apply beginDestroy_kept | apply modCat_kept | apply abortQueue_kept | apply modRelease_kept | apply foldl_kept | apply foldl_kept_fst | apply foldl_kept_snd | rfl | split | (intro))

theorem dropPartVols_kept {k a0 a1} : Kept k a0 → Kept k (dropPartVols a0 a1) := by
  intros; unfold dropPartVols; try dsimp only
  repeat' (with_reducible first | assumption | (simp only [kept_mk]; refine Kept.re ?_ rfl rfl rfl rfl rfl rfl rfl rfl rfl rfl rfl rfl rfl) | rfl | split | (intro) | refine from_fst (by assumption) ?_ | refine from_snd (by assumption) ?_)

theorem scrubKeys_kept {k a0 a1} : Kept k a0 → Kept k (scrubKeys a0 a1) := by
  intros; unfold scrubKeys; try dsimp only
  repeat' (with_reducible first | assumption | (simp only [kept_mk]; refine Kept.re ?_ rfl rfl rfl rfl rfl rfl rfl rfl rfl rfl rfl rfl rfl) | rfl | split | (intro))

theorem scrubBays_kept {k a0 a1} : Kept k a0 → Kept k (scrubBays a0 a1) := by
  intros; unfold scrubBays; try dsimp only
  repeat' (with_reducible first | assumption | apply State.modBay_kept | apply State.modMem_kept | apply foldl_kept | apply foldl_kept_fst | apply foldl_kept_snd | rfl | split | (intro) | refine from_fst (by assumption) ?_ | refine from_snd (by assumption) ?_)

theorem advanceRelease_kept {k a0 a1} : Kept k a0 → Kept k (advanceRelease a0 a1) := by
  intros; unfold advanceRelease; try dsimp only
  repeat' (with_reducible first | assumption | apply scrubKeys_kept | apply startPartReset_kept | apply dropPartVols_kept | apply scrubBays_kept | apply finishDestroy_kept | apply modRelease_kept | apply foldl_kept | apply foldl_kept_fst | apply foldl_kept_snd | rfl | split | (intro) | refine from_fst (by assumption) ?_ | refine from_snd (by assumption) ?_)

theorem partRelease_kept {k a0 a1 a2} : Kept k a2 → Kept k (partRelease a0 a1 a2) := by
  intros; unfold partRelease; try dsimp only
  repeat' (with_reducible first | assumption | (simp only [kept_mk]; refine Kept.re ?_ rfl rfl rfl rfl rfl rfl rfl rfl rfl rfl rfl rfl rfl) | apply MbRes.of_going | apply advanceRelease_kept | apply squashPart_kept | apply settlePartResets_kept | apply State.modPart_kept | apply mbFail_kept | apply mbCommand_kept | rfl | split | (intro) | exact MbRes.to_going (by assumption) | refine MbRes.from_going (by assumption) ?_)

theorem execPartReleaseDrain_kept {k a0 a1} : Kept k a1 → Goes (Kept k) (execPartReleaseDrain a0 a1) := by
  intros; unfold execPartReleaseDrain; try dsimp only
  repeat' (with_reducible first | assumption | apply Goes.of_next | apply partRelease_kept | rfl | split | (intro))

theorem execPartReleaseSquash_kept {k a0 a1} : Kept k a1 → Goes (Kept k) (execPartReleaseSquash a0 a1) := by
  intros; unfold execPartReleaseSquash; try dsimp only
  repeat' (with_reducible first | assumption | apply Goes.of_next | apply partRelease_kept | rfl | split | (intro))

theorem execDrainLimit_kept {k a0 a1} : Kept k a1 → Goes (Kept k) (execDrainLimit a0 a1) := by
  intros; unfold execDrainLimit; try dsimp only
  repeat' (with_reducible first | assumption | apply Goes.of_next | apply reach_kept | apply advanceRelease_kept | apply squashPart_kept | apply settlePartResets_kept | rfl | split | (intro) | refine from_fst (by assumption) ?_ | refine from_snd (by assumption) ?_)

theorem zeroShelf_kept {k a0 a1} : Kept k a0 → Kept k (zeroShelf a0 a1) := by
  intro h; unfold zeroShelf; exact State.modMem_dram h (fun w => Mem.wf_clear (Mem.wf_clear w))

theorem eraseRecords_kept {k a0 a1} : Kept k a0 → Kept k (eraseRecords a0 a1) := by
  intros; unfold eraseRecords; try dsimp only
  repeat' (with_reducible first | assumption | (simp only [kept_mk]; refine Kept.re ?_ rfl rfl rfl rfl rfl rfl rfl rfl rfl rfl rfl rfl rfl) | apply State.modWork_kept | rfl | split | (intro))

theorem finishRelease_kept {k a0 a1 a2} : Kept k a0 → Kept k (finishRelease a0 a1 a2) := by
  intros; unfold finishRelease; try dsimp only
  repeat' (with_reducible first | assumption | (simp only [kept_mk]; refine Kept.re ?_ rfl rfl rfl rfl rfl rfl rfl rfl rfl rfl rfl rfl rfl) | apply reach_kept | apply secEvent_kept | apply zeroShelf_kept | apply eraseRecords_kept | apply State.modOt_kept | apply State.modStack_kept | apply mbFinish_kept | apply foldl_kept | rfl | split | (intro) | refine from_fst (by assumption) ?_ | refine from_snd (by assumption) ?_)

theorem execPartitionScrub_kept {k a0 a1} : Kept k a1 → Goes (Kept k) (execPartitionScrub a0 a1) := by
  intros; unfold execPartitionScrub; try dsimp only
  repeat' (with_reducible first | assumption | apply Goes.of_next | apply finishRelease_kept | apply advanceRelease_kept | apply settlePartResets_kept | rfl | split | (intro) | refine from_fst (by assumption) ?_ | refine from_snd (by assumption) ?_)

theorem execPartQuiesce_kept {k a0 a1} : Kept k a1 → Goes (Kept k) (execPartQuiesce a0 a1) := by
  intros; unfold execPartQuiesce; try dsimp only
  repeat' (with_reducible first | assumption | apply Goes.of_next | apply MbRes.of_going | apply mbOk_kept | apply sendPreempt_kept | apply State.modPart_kept | apply mbFail_kept | apply mbCommand_kept | apply foldl_kept | apply MbRes.foldl_all | rfl | split | (intro) | exact MbRes.to_going (by assumption) | refine MbRes.from_going (by assumption) ?_)

theorem execPartQuiesceCancel_kept {k a0 a1} : Kept k a1 → Goes (Kept k) (execPartQuiesceCancel a0 a1) := by
  intros; unfold execPartQuiesceCancel; try dsimp only
  repeat' (with_reducible first | assumption | apply Goes.of_next | apply MbRes.of_going | apply mbOk_kept | apply State.modPart_kept | apply markAllSlices_kept | apply mbCommand_kept | rfl | split | (intro) | exact MbRes.to_going (by assumption) | refine MbRes.from_going (by assumption) ?_)

theorem execPartExport_kept {k a0 a1} : Kept k a1 → Goes (Kept k) (execPartExport a0 a1) := by
  intros; unfold execPartExport; try dsimp only
  repeat' (with_reducible first | assumption | apply Goes.of_next | apply Got.of_ok | apply Got.of_wait | apply Got.of_bad | apply MbRes.of_going | apply mbOk_kept | apply engineWrite_kept | apply cmWrite_kept | apply mbFail_kept | apply mbCommand_kept | rfl | split | (intro) | exact Got.to_ok (by assumption) | refine Got.from_ok (by assumption) ?_ | exact Got.to_wait (by assumption) | refine Got.from_wait (by assumption) ?_ | exact Got.to_bad (by assumption) | refine Got.from_bad (by assumption) ?_ | exact MbRes.to_going (by assumption) | refine MbRes.from_going (by assumption) ?_ | refine from_fst (by assumption) ?_ | refine from_snd (by assumption) ?_)

theorem installImage_kept {k a0 a1 a2} : Kept k a0 → Kept k (installImage a0 a1 a2) := by
  intros; unfold installImage; try dsimp only
  repeat' (with_reducible first | assumption | (simp only [kept_mk]; refine Kept.re ?_ rfl rfl rfl rfl rfl rfl rfl rfl rfl rfl rfl rfl rfl) | apply State.setPart_kept | apply State.modWork_kept | apply eraseRecords_kept | apply foldl_kept | apply foldl_kept_fst | apply foldl_kept_snd | rfl | split | (intro))

theorem execPartImport_kept {k a0 a1} : Kept k a1 → Goes (Kept k) (execPartImport a0 a1) := by
  intros; unfold execPartImport; try dsimp only
  repeat' (with_reducible first | assumption | apply Goes.of_next | apply Got.of_ok | apply Got.of_wait | apply Got.of_bad | apply MbRes.of_going | apply engineRead_kept | apply mbOk_kept | apply installImage_kept | apply mbFail_kept | apply mbCommand_kept | rfl | split | (intro) | exact Got.to_ok (by assumption) | refine Got.from_ok (by assumption) ?_ | exact Got.to_wait (by assumption) | refine Got.from_wait (by assumption) ?_ | exact Got.to_bad (by assumption) | refine Got.from_bad (by assumption) ?_ | exact MbRes.to_going (by assumption) | refine MbRes.from_going (by assumption) ?_ | refine from_fst (by assumption) ?_ | refine from_snd (by assumption) ?_)

theorem takeImage_kept {k a0 a1} : Kept k a0 → Kept k (takeImage a0 a1) := by
  intros; unfold takeImage; try dsimp only
  repeat' (with_reducible first | assumption | apply modSec_kept | rfl | split | (intro))

theorem wipeCarrel_kept {k a0} : Kept k a0 → Kept k (wipeCarrel a0) := by
  intros; unfold wipeCarrel; try dsimp only
  repeat' (with_reducible first | assumption | apply modSec_kept | apply linkFail_kept | apply modLink_kept | apply secEvent_kept | apply foldl_kept | rfl | split | (intro))

theorem execTamper_kept {k a0} : Kept k a0 → Goes (Kept k) (execTamper a0) := by
  intro h; unfold execTamper
  apply Goes.of_next
  simp only [kept_mk]; refine Kept.re ?_ rfl rfl rfl rfl rfl rfl rfl rfl rfl rfl rfl rfl rfl
  apply secEvent_kept
  have hw := wipeCarrel_kept h
  generalize wipeCarrel a0 = s at hw ⊢
  refine modSec_fuses hw ⟨Nat.le_refl _, hw.life⟩ id (Nat.le_refl _) rfl ?_ rfl (Nat.le_refl _)
  have := hw.tamper; dsimp only; omega

theorem execAttest_kept {k a0 a1} : Kept k a1 → Goes (Kept k) (execAttest a0 a1) := by
  intros; unfold execAttest; try dsimp only
  repeat' (with_reducible first | assumption | apply Goes.of_next | apply MbRes.of_going | apply mbOk_kept | apply modSec_kept | apply State.fresh_kept | apply cmWrite_kept | apply mbFail_kept | apply mbCommand_kept | rfl | split | (intro) | exact MbRes.to_going (by assumption) | refine MbRes.from_going (by assumption) ?_ | refine from_fst (by assumption) ?_ | refine from_snd (by assumption) ?_)

theorem execKemKeyExpiry_kept {k a0 a1} : Kept k a1 → Goes (Kept k) (execKemKeyExpiry a0 a1) := by
  intros; unfold execKemKeyExpiry; try dsimp only
  repeat' (with_reducible first | assumption | apply Goes.of_next | apply modSec_kept | apply reach_kept | rfl | split | (intro) | refine from_fst (by assumption) ?_ | refine from_snd (by assumption) ?_)

theorem smbReply_kept {k a0 a1 a2} : Kept k a0 → Kept k (smbReply a0 a1 a2) := by
  intros; unfold smbReply; try dsimp only
  repeat' (with_reducible first | assumption | (simp only [kept_mk]; refine Kept.re ?_ rfl rfl rfl rfl rfl rfl rfl rfl rfl rfl rfl rfl rfl) | rfl | split | (intro))

theorem smbServed_kept {k a0 a1 a2} : Kept k a0 → (∀ y0, Kept k y0 → Kept k (a2 y0)) → Kept k (smbServed a0 a1 a2) := by
  intros; unfold smbServed; try dsimp only
  repeat' (with_reducible first | assumption | apply smbReply_kept | rfl | split | (intro))
  all_goals grind [kept_eq, goes_next, smbReply_kept]

theorem execGetProvenance_kept {k a0 a1} : Kept k a1 → Goes (Kept k) (execGetProvenance a0 a1) := by
  intros; unfold execGetProvenance; try dsimp only
  repeat' (with_reducible first | assumption | (simp only [kept_mk]; refine Kept.re ?_ rfl rfl rfl rfl rfl rfl rfl rfl rfl rfl rfl rfl rfl) | apply Goes.of_next | apply State.fresh_kept | apply smbServed_kept | apply smbReply_kept | rfl | split | (intro) | refine from_fst (by assumption) ?_ | refine from_snd (by assumption) ?_)

theorem execSealPolicy_kept {k a0 a1 a2} : Kept k a2 → Goes (Kept k) (execSealPolicy a0 a1 a2) := by
  intros; unfold execSealPolicy; try dsimp only
  repeat' (with_reducible first | assumption | apply Goes.of_next | apply MbRes.of_going | apply mbOk_kept | apply modSec_kept | apply mbFail_kept | apply mbCommand_kept | rfl | split | (intro) | exact MbRes.to_going (by assumption) | refine MbRes.from_going (by assumption) ?_)

theorem importFail_kept {k a0 a1 a2 a3} : Kept k a0 → MbRes.All (Kept k) (importFail a0 a1 a2 a3) := by
  intros; unfold importFail; try dsimp only
  repeat' (with_reducible first | assumption | apply secEvent_kept | apply mbFail_kept | rfl | split | (intro))
grind_pattern importFail_kept => (importFail a0 a1 a2 a3), Kept k a0

theorem placeKey_kept {k a0 a1 a2 a3} : Kept k a0 → Kept k (placeKey a0 a1 a2 a3) := by
  intros; unfold placeKey; try dsimp only
  repeat' (with_reducible first | assumption | apply modSec_kept | apply State.fresh_kept | rfl | split | (intro) | refine from_fst (by assumption) ?_ | refine from_snd (by assumption) ?_)

theorem execKeyImport_kept {k a0 a1 a2} : Kept k a2 → Goes (Kept k) (execKeyImport a0 a1 a2) := by
  intros; unfold execKeyImport; try dsimp only
  repeat' (with_reducible first | assumption | apply Goes.of_next | apply MbRes.of_going | apply mbOk_kept | apply modSec_kept | apply importFail_kept | apply placeKey_kept | apply mbFail_kept | apply mbCommand_kept | rfl | split | (intro) | exact MbRes.to_going (by assumption) | refine MbRes.from_going (by assumption) ?_ | refine from_fst (by assumption) ?_ | refine from_snd (by assumption) ?_)

theorem execKeyDestroy_kept {k a0 a1} : Kept k a1 → Goes (Kept k) (execKeyDestroy a0 a1) := by
  intros; unfold execKeyDestroy; try dsimp only
  repeat' (with_reducible first | assumption | apply Goes.of_next | apply MbRes.of_going | apply mbOk_kept | apply modSec_kept | apply mbCommand_kept | rfl | split | (intro) | exact MbRes.to_going (by assumption) | refine MbRes.from_going (by assumption) ?_)

theorem execPeerRead_kept {k a0 a1} : Kept k a1 → Goes (Kept k) (execPeerRead a0 a1) := by
  intros; unfold execPeerRead; try dsimp only
  repeat' (with_reducible first | assumption | apply Goes.of_next | apply MbRes.of_going | apply mbOk_kept | apply mbFail_kept | apply mbCommand_kept | rfl | split | (intro) | exact MbRes.to_going (by assumption) | refine MbRes.from_going (by assumption) ?_)

theorem beginPulse_kept {k a0} : Kept k a0 → Kept k (beginPulse a0) := by
  intros; unfold beginPulse; try dsimp only
  repeat' (with_reducible first | assumption | apply State.modSeq_kept | rfl | split | (intro))

theorem execMaintFuse_kept {k a0 a1} : Kept k a1 → Goes (Kept k) (execMaintFuse a0 a1) := by
  intro h; unfold execMaintFuse
  dsimp only
  apply Goes.of_next
  apply mbCommand_kept h
  · intro s c hs
    have hf : Kept k ((List.range 32).foldl (fun s b => if softRows (s.bay b) == 0 then s else s.modBay b (fun x => { x with spareFused := x.spareUsed, spareUnfused := 0#16 })) s) := by
      apply foldl_kept hs
      intro s a hs
      split
      · exact hs
      · exact State.modBay_kept hs
    split
    · exact mbFail_kept hs
    · refine ?_
      have h2 : ∀ n, Kept k (modSec ((List.range 32).foldl (fun s b => if softRows (s.bay b) == 0 then s else s.modBay b (fun x => { x with spareFused := x.spareUsed, spareUnfused := 0#16 })) s)
          (fun x => { x with fusedRows := x.fusedRows + n, secVersion := max x.secVersion (min 256 x.imageSecVersion) })) := fun n =>
        modSec_fuses hf ⟨Nat.le_refl _, hf.life⟩ id (Nat.le_max_left ..) rfl ⟨Nat.le_refl _, hf.tamper⟩ rfl (Nat.le_add_right ..)
      repeat' (with_reducible first | exact h2 _ | apply mbOk_kept | apply MbRes.of_going | apply beginPulse_kept | apply secEvent_kept | split)
  · intro s c hs
    split
    · exact hs
    · exact mbOk_kept hs

theorem setRst_kept {k a0 a1} : Kept k a0 → Kept k (setRst a0 a1) := by
  intros; unfold setRst; try dsimp only
  repeat' (with_reducible first | assumption | apply State.modSeq_kept | rfl | split | (intro))

theorem seqError_kept {k a0 a1 a2 a3 a4} : Kept k a0 → Kept k (seqError a0 a1 a2 a3 a4) := by
  intros; unfold seqError; try dsimp only
  repeat' (with_reducible first | assumption | apply postError_kept | apply setRst_kept | rfl | split | (intro))

theorem powerLost_kept {k : Mark} {a0} : Kept { k with now := 0 } a0 → Kept { k with now := 0 } (powerLost a0) := by
  intro h
  obtain ⟨a, b, c, d, e, g, i, j, l, m, n, o, p⟩ := h
  unfold Kept powerLost
  exact ⟨a, Nat.zero_le _, rfl, rfl, (show 400 ≤ 1000 ∧ 1000 ≤ 1000 by decide), (show 0x3FF8 < 16384 by decide), i, j, l, m, n, o, p⟩

theorem execPowerOnReset_kept {k : Mark} {a0} : Kept { k with now := 0 } a0 → Goes (Kept { k with now := 0 }) (execPowerOnReset a0) := by
  intro h; unfold execPowerOnReset
  split
  · exact h
  · exact State.modSeq_kept (powerLost_kept h)

theorem execRailBelowThreshold_kept {k : Mark} {a0} : Kept { k with now := 0 } a0 → Goes (Kept { k with now := 0 }) (execRailBelowThreshold a0) := by
  exact fun h => powerLost_kept h

theorem closeBays_kept {k a0} : Kept k a0 → Kept k (closeBays a0) := by
  intros; unfold closeBays; try dsimp only
  repeat' (with_reducible first | assumption | apply flushL1_kept | apply State.modBay_kept | apply foldl_kept | rfl | split | (intro))

theorem closeShelvers_kept {k a0} : Kept k a0 → Kept k (closeShelvers a0) := by
  intros; unfold closeShelvers; try dsimp only
  repeat' (with_reducible first | assumption | apply State.modShelver_kept | apply cutAll_kept | apply foldl_kept | rfl | split | (intro))

theorem flushStacks_kept {k a0} : Kept k a0 → Kept k (flushStacks a0) := by
  intros; unfold flushStacks; try dsimp only
  repeat' (with_reducible first | assumption | apply startMaint_kept | apply State.modSeq_kept | apply State.modStack_kept | apply foldl_kept | rfl | split | (intro))

theorem dropLinks_kept {k a0} : Kept k a0 → Kept k (dropLinks a0) := by
  intros; unfold dropLinks; try dsimp only
  repeat' (with_reducible first | assumption | (simp only [kept_mk]; refine Kept.re ?_ rfl rfl rfl rfl rfl rfl rfl rfl rfl rfl rfl rfl rfl) | apply timeLinkLost_kept | apply modLink_kept | apply State.modFport_kept | apply foldl_kept | rfl | split | (intro))

theorem beginRestart_kept {k a0 a1 a2 a3} : Kept k a0 → Kept k (beginRestart a0 a1 a2 a3) := by
  intros; unfold beginRestart; try dsimp only
  repeat' (with_reducible first | assumption | apply State.modFab_kept | apply flushStacks_kept | apply closeShelvers_kept | apply closeBays_kept | apply dropLinks_kept | apply State.modSeq_kept | rfl | split | (intro))

theorem warmReset_kept {k a0 a1 a2} : Kept k a0 → Kept k (warmReset a0 a1 a2) := by
  intros; unfold warmReset; try dsimp only
  repeat' (with_reducible first | assumption | apply beginRestart_kept | apply State.modSeq_kept | rfl | split | (intro))

theorem restoreMemory_kept {k a0} : Kept k a0 → Kept k (restoreMemory a0) := by
  intros; unfold restoreMemory; try dsimp only
  repeat' (with_reducible first | assumption | apply modCat_kept | apply State.modMem_kept | apply State.modStack_kept | apply foldl_kept | rfl | split | (intro))

theorem tileBack_kept {k a0 a1} : Kept k a0 → Kept k (tileBack a0 a1) := by
  intros; unfold tileBack; try dsimp only
  repeat' (with_reducible first | assumption | apply modCmd_kept | apply charge_kept | rfl | split | (intro) | refine from_fst (by assumption) ?_ | refine from_snd (by assumption) ?_)

theorem finishDestroys_kept {k a0} : Kept k a0 → Kept k (finishDestroys a0) := by
  intros; unfold finishDestroys; try dsimp only
  repeat' (with_reducible first | assumption | apply deleteQueue_kept | apply finishDestroy_kept | apply dropCmd_kept | apply foldl_kept | apply foldl_kept_fst | apply foldl_kept_snd | rfl | split | (intro))

theorem restoreWork_kept {k a0} : Kept k a0 → Kept k (restoreWork a0) := by
  intros; unfold restoreWork; try dsimp only
  repeat' (with_reducible first | assumption | (simp only [kept_mk]; refine Kept.re ?_ rfl rfl rfl rfl rfl rfl rfl rfl rfl rfl rfl rfl rfl) | apply State.modWork_kept | apply finishDestroys_kept | apply completeCmd_kept | apply tileBack_kept | apply endColls_kept | apply foldl_kept | apply foldl_kept_fst | apply foldl_kept_snd | rfl | split | (intro))

theorem restoreReleases_kept {k a0} : Kept k a0 → Kept k (restoreReleases a0) := by
  intros; unfold restoreReleases; try dsimp only
  repeat' (with_reducible first | assumption | apply squashPart_kept | apply modRelease_kept | apply foldl_kept | apply foldl_kept_fst | apply foldl_kept_snd | rfl | split | (intro))

theorem restoreMailboxes_kept {k a0} : Kept k a0 → Kept k (restoreMailboxes a0) := by
  intros; unfold restoreMailboxes; try dsimp only
  repeat' (with_reducible first | assumption | apply mbFinish_kept | apply foldl_kept | rfl | split | (intro))

theorem tellAll_kept {k a0 a1 a2 a3} : Kept k a0 → Kept k (tellAll a0 a1 a2 a3) := by
  intros; unfold tellAll; try dsimp only
  repeat' (with_reducible first | assumption | apply postEvent_kept | apply State.modFn_kept | apply foldl_kept | rfl | split | (intro))

theorem pairError_kept {k a0 a1 a2 a3 a4} : Kept k a0 → Kept k (pairError a0 a1 a2 a3 a4) := by
  intros; unfold pairError; try dsimp only
  repeat' (with_reducible first | assumption | apply postError_kept | rfl | split | (intro))

theorem openBays_kept {k a0 a1} : Kept k a0 → Kept k (openBays a0 a1) := by
  intros; unfold openBays; try dsimp only
  repeat' (with_reducible first | assumption | apply State.fresh_kept | apply State.modBay_kept | apply foldl_kept | apply foldl_kept_fst | apply foldl_kept_snd | rfl | split | (intro) | refine from_fst (by assumption) ?_ | refine from_snd (by assumption) ?_)

theorem powerBack_kept {k a0} : Kept k a0 → Kept k (powerBack a0) := by
  intro h; unfold powerBack; exact State.modPwr_cap h (by dsimp only; decide)

theorem warmBack_kept {k a0} : Kept k a0 → Kept k (warmBack a0) := by
  intros; unfold warmBack; try dsimp only
  repeat' (with_reducible first | assumption | (simp only [kept_mk]; refine Kept.re ?_ rfl rfl rfl rfl rfl rfl rfl rfl rfl rfl rfl rfl rfl) | apply enterTrain_kept | apply powerBack_kept | apply foldl_kept | rfl | split | (intro))

theorem destroyAll_kept {k a0} : Kept k a0 → Kept k (destroyAll a0) := by
  intros; unfold destroyAll; try dsimp only
  repeat' (with_reducible first | assumption | apply beginDestroy_kept | apply finishDestroy_kept | apply foldl_kept | apply foldl_kept_fst | apply foldl_kept_snd | rfl | split | (intro))

theorem serving_kept {k a0} : Kept k a0 → Kept k (serving a0) := by
  intros; unfold serving; try dsimp only
  repeat' (with_reducible first | assumption | (simp only [kept_mk]; refine Kept.re ?_ rfl rfl rfl rfl rfl rfl rfl rfl rfl rfl rfl rfl rfl) | apply openBays_kept | apply pairError_kept | apply tellAll_kept | apply restoreReleases_kept | apply destroyAll_kept | apply warmBack_kept | apply restoreMailboxes_kept | apply restoreMemory_kept | apply restoreWork_kept | apply issueQueue_kept | apply State.modSeq_kept | apply foldl_kept | rfl | split | (intro))

theorem startHeld_kept {k a0} : Kept k a0 → Kept k (startHeld a0) := by
  intros; unfold startHeld; try dsimp only
  repeat' (with_reducible first | assumption | apply modSec_kept | apply serving_kept | rfl | split | (intro))

theorem flushed_kept {k a0 a1} : Kept k a0 → Kept k (flushed a0 a1) := by
  intros; unfold flushed; try dsimp only
  repeat' (with_reducible first | assumption | apply startHeld_kept | apply State.modSeq_kept | apply State.modStack_kept | rfl | split | (intro))

theorem execMscMaintDone_kept {k a0 a1} : Kept k a1 → Goes (Kept k) (execMscMaintDone a0 a1) := by
  intros; unfold execMscMaintDone; try dsimp only
  repeat' (with_reducible first | assumption | apply Goes.of_next | apply maintWalk_kept | apply flushed_kept | apply settlePartResets_kept | apply State.modStack_kept | rfl | split | (intro) | refine from_fst (by assumption) ?_ | refine from_snd (by assumption) ?_)

theorem execMscFlushLimit_kept {k a0 a1} : Kept k a1 → Goes (Kept k) (execMscFlushLimit a0 a1) := by
  intros; unfold execMscFlushLimit; try dsimp only
  repeat' (with_reducible first | assumption | apply Goes.of_next | apply State.fresh_kept | apply reach_kept | apply postError_kept | apply mscDrop_kept | apply flushed_kept | apply writeBackLine_kept | apply State.modSeq_kept | apply State.modStack_kept | apply foldl_kept | apply foldl_kept_fst | apply foldl_kept_snd | rfl | split | (intro) | refine from_fst (by assumption) ?_ | refine from_snd (by assumption) ?_)

theorem beginBoot_kept {k a0} : Kept k a0 → Kept k (beginBoot a0) := by
  intro h; unfold beginBoot
  have h1 : Kept k (if a0.sec.udsKill && a0.sec.lc == 2 then secEvent (modSec a0 (fun x => { x with lc := 3 })) 22 0 0 else a0) := by
    split
    · exact secEvent_kept (modSec_fuses h ⟨h.life, Nat.le_refl _⟩ id (Nat.le_refl _) rfl ⟨Nat.le_refl _, h.tamper⟩ rfl (Nat.le_refl _))
    · exact h
  generalize (if a0.sec.udsKill && a0.sec.lc == 2 then secEvent (modSec a0 (fun x => { x with lc := 3 })) 22 0 0 else a0) = s at h1
  dsimp only
  repeat' (with_reducible first | assumption | apply foldl_kept | apply enterTrain_kept | apply State.modSeq_kept | split | (intro))

theorem execResetNFall_kept {k a0} : Kept k a0 → Goes (Kept k) (execResetNFall a0) := by
  intros; unfold execResetNFall; try dsimp only
  repeat' (with_reducible first | assumption | apply Goes.of_next | apply State.modSeq_kept | rfl | split | (intro))

theorem execShortPulse_kept {k a0} : Kept k a0 → Goes (Kept k) (execShortPulse a0) := by
  intros; unfold execShortPulse; try dsimp only
  repeat' (with_reducible first | assumption | apply Goes.of_next | apply setRst_kept | apply State.modSeq_kept | rfl | split | (intro))

theorem execResetNAssert_kept {k a0} : Kept k a0 → Goes (Kept k) (execResetNAssert a0) := by
  intros; unfold execResetNAssert; try dsimp only
  repeat' (with_reducible first | assumption | apply Goes.of_next | apply reach_kept | apply warmReset_kept | apply State.modSeq_kept | rfl | split | (intro) | refine from_fst (by assumption) ?_ | refine from_snd (by assumption) ?_)

theorem execResetNRise_kept {k a0 a1 a2 a3 a4} : Kept k a4 → Goes (Kept k) (execResetNRise a0 a1 a2 a3 a4) := by
  intro h; unfold execResetNRise
  dsimp only
  repeat' (with_reducible first | exact h | apply Goes.of_next | apply beginBoot_kept | apply setRst_kept | apply startHeld_kept | apply State.modSeq_kept | refine State.modFab_device ?_ ?_ | split)
  all_goals (have := h.device; have := a1.isLt; dsimp only; omega)

theorem execRefclkPresent_kept {k a0} : Kept k a0 → Goes (Kept k) (execRefclkPresent a0) := by
  intros; unfold execRefclkPresent; try dsimp only
  repeat' (with_reducible first | assumption | apply Goes.of_next | apply beginBoot_kept | rfl | split | (intro))

theorem bootFail_kept {k a0} : Kept k a0 → Kept k (bootFail a0) := by
  intros; unfold bootFail; try dsimp only
  repeat' (with_reducible first | assumption | apply setRst_kept | apply State.modSeq_kept | rfl | split | (intro))

theorem checkBoot_kept {k a0 a1} : Kept k a0 → Kept k (checkBoot a0 a1).1 := by
  intros; unfold checkBoot; try dsimp only
  repeat' (with_reducible first | assumption | apply bootFail_kept | apply serving_kept | apply takeImage_kept | apply State.modSeq_kept | rfl | split | (intro))
grind_pattern checkBoot_kept => (checkBoot a0 a1), Kept k a0

theorem execImageReadDone_kept {k a0 a1 a2} : Kept k a2 → Goes (Kept k) (execImageReadDone a0 a1 a2) := by
  intros; unfold execImageReadDone; try dsimp only
  repeat' (with_reducible first | assumption | apply Goes.of_next | apply bootFail_kept | apply checkBoot_kept | apply State.modSeq_kept | rfl | split | (intro))

theorem bootResult_kept {k a0 a1} : Kept k a0 → Kept k (bootResult a0 a1) := by
  intros; unfold bootResult; try dsimp only
  repeat' (with_reducible first | assumption | apply State.modSeq_kept | rfl | split | (intro))

theorem bootRead_kept {k a0} : Kept k a0 → Kept k (bootRead a0) := by
  intros; unfold bootRead; try dsimp only
  repeat' (with_reducible first | assumption | apply cmIssue_kept | rfl | split | (intro))

theorem execBootLoad_kept {k a0} : Kept k a0 → Goes (Kept k) (execBootLoad a0) := by
  intros; unfold execBootLoad; try dsimp only
  repeat' (with_reducible first | assumption | apply Goes.of_next | apply bootRead_kept | apply bootResult_kept | apply State.modSeq_kept | rfl | split | (intro))

theorem execRetrySource_kept {k a0} : Kept k a0 → Goes (Kept k) (execRetrySource a0) := by
  intros; unfold execRetrySource; try dsimp only
  repeat' (with_reducible first | assumption | apply Goes.of_next | apply bootResult_kept | apply State.modSeq_kept | rfl | split | (intro))

theorem bootPiece_kept {k a0 a1 a2} : Kept k a0 → Kept k (bootPiece a0 a1 a2) := by
  intros; unfold bootPiece; try dsimp only
  repeat' (with_reducible first | assumption | apply bootRead_kept | apply checkBoot_kept | apply bootResult_kept | apply State.modSeq_kept | rfl | split | (intro) | refine from_fst (by assumption) ?_ | refine from_snd (by assumption) ?_)

theorem bootTimeout_kept {k a0} : Kept k a0 → Kept k (bootTimeout a0) := by
  intros; unfold bootTimeout; try dsimp only
  repeat' (with_reducible first | assumption | apply bootResult_kept | apply State.modSeq_kept | rfl | split | (intro))

theorem failover_kept {k a0} : Kept k a0 → Kept k (failover a0) := by
  intros; unfold failover; try dsimp only
  repeat' (with_reducible first | assumption | apply pairError_kept | apply tellAll_kept | apply beginReset_kept | apply setRst_kept | apply State.modSeq_kept | rfl | split | (intro))

theorem execRegistrarWatchdog_kept {k a0} : Kept k a0 → Goes (Kept k) (execRegistrarWatchdog a0) := by
  intros; unfold execRegistrarWatchdog; try dsimp only
  repeat' (with_reducible first | assumption | apply Goes.of_next | apply failover_kept | rfl | split | (intro))

theorem execLockstepMismatch_kept {k a0 a1} : Kept k a1 → Goes (Kept k) (execLockstepMismatch a0 a1) := by
  intros; unfold execLockstepMismatch; try dsimp only
  repeat' (with_reducible first | assumption | apply Goes.of_next | apply failover_kept | apply beginReset_kept | apply State.modSeq_kept | rfl | split | (intro))

theorem execPairResetDone_kept {k a0 a1} : Kept k a1 → Goes (Kept k) (execPairResetDone a0 a1) := by
  intros; unfold execPairResetDone; try dsimp only
  repeat' (with_reducible first | assumption | apply Goes.of_next | apply endReset_kept | apply State.modSeq_kept | rfl | split | (intro))

theorem execRegistrarRestart_kept {k a0} : Kept k a0 → Goes (Kept k) (execRegistrarRestart a0) := by
  intros; unfold execRegistrarRestart; try dsimp only
  repeat' (with_reducible first | assumption | apply Goes.of_next | apply beginRestart_kept | rfl | split | (intro))

theorem execDeviceWarmReset_kept {k a0 a1} : Kept k a1 → Goes (Kept k) (execDeviceWarmReset a0 a1) := by
  intros; unfold execDeviceWarmReset; try dsimp only
  repeat' (with_reducible first | assumption | apply Goes.of_next | apply warmReset_kept | rfl | split | (intro))

theorem execDeviceFatal_kept {k a0 a1} : Kept k a1 → Goes (Kept k) (execDeviceFatal a0 a1) := by
  intros; unfold execDeviceFatal; try dsimp only
  repeat' (with_reducible first | assumption | apply Goes.of_next | apply postError_kept | apply warmReset_kept | rfl | split | (intro))

theorem execDeviceReset_kept {k a0 a1} : Kept k a1 → Goes (Kept k) (execDeviceReset a0 a1) := by
  intros; unfold execDeviceReset; try dsimp only
  repeat' (with_reducible first | assumption | apply Goes.of_next | apply MbRes.of_going | apply warmReset_kept | apply State.modSeq_kept | apply mbCommand_kept | rfl | split | (intro) | exact MbRes.to_going (by assumption) | refine MbRes.from_going (by assumption) ?_ | refine from_fst (by assumption) ?_ | refine from_snd (by assumption) ?_)

theorem fenceShelver_kept {k a0 a1} : Kept k a0 → Kept k (fenceShelver a0 a1) := by
  intros; unfold fenceShelver; try dsimp only
  repeat' (with_reducible first | assumption | (simp only [kept_mk]; refine Kept.re ?_ rfl rfl rfl rfl rfl rfl rfl rfl rfl rfl rfl rfl rfl) | apply State.modShelver_kept | apply cutAll_kept | apply completeCmd_kept | apply mbFinish_kept | apply foldl_kept | apply foldl_kept_fst | apply foldl_kept_snd | rfl | split | (intro) | refine from_fst (by assumption) ?_ | refine from_snd (by assumption) ?_)

theorem raiseHangs_kept {k a0 a1 a2} : Kept k a0 → Kept k (raiseHangs a0 a1 a2) := by
  intros; unfold raiseHangs; try dsimp only
  repeat' (with_reducible first | assumption | apply State.modWork_kept | rfl | split | (intro))

theorem execStepTimerOverrun_kept {k a0 a1 a2} : Kept k a2 → Goes (Kept k) (execStepTimerOverrun a0 a1 a2) := by
  intros; unfold execStepTimerOverrun; try dsimp only
  repeat' (with_reducible first | assumption | apply Goes.of_next | apply seqError_kept | apply raiseHangs_kept | apply startPartReset_kept | apply reach_kept | apply fenceBay_kept | apply endReset_kept | apply resetBay_kept | apply setRst_kept | apply warmReset_kept | apply settlePartResets_kept | apply fenceShelver_kept | apply noteAlerts_kept | apply State.modSeq_kept | apply foldl_kept | apply foldl_kept_fst | apply foldl_kept_snd | rfl | split | (intro) | refine from_fst (by assumption) ?_ | refine from_snd (by assumption) ?_)

theorem execFusePulseEnd_kept {k a0} : Kept k a0 → Goes (Kept k) (execFusePulseEnd a0) := by
  intros; unfold execFusePulseEnd; try dsimp only
  repeat' (with_reducible first | assumption | apply Goes.of_next | apply reach_kept | apply setRst_kept | apply warmReset_kept | apply State.modSeq_kept | rfl | split | (intro) | refine from_fst (by assumption) ?_ | refine from_snd (by assumption) ?_)

theorem execCorrectedReportInterval_kept {k a0 a1} : Kept k a1 → Goes (Kept k) (execCorrectedReportInterval a0 a1) := by
  intros; unfold execCorrectedReportInterval; try dsimp only
  repeat' (with_reducible first | assumption | (simp only [kept_mk]; refine Kept.re ?_ rfl rfl rfl rfl rfl rfl rfl rfl rfl rfl rfl rfl rfl) | apply Goes.of_next | apply reach_kept | apply postEvent_kept | rfl | split | (intro) | refine from_fst (by assumption) ?_ | refine from_snd (by assumption) ?_)

theorem execPeerStateFailed_kept {k a0 a1} : Kept k a1 → Goes (Kept k) (execPeerStateFailed a0 a1) := by
  intros; unfold execPeerStateFailed; try dsimp only
  repeat' (with_reducible first | assumption | apply Goes.of_next | apply MbRes.of_going | apply mbOk_kept | apply collPeerFailed_kept | apply State.modSeq_kept | apply mbCommand_kept | rfl | split | (intro) | exact MbRes.to_going (by assumption) | refine MbRes.from_going (by assumption) ?_)

theorem execPeerStateRestored_kept {k a0 a1} : Kept k a1 → Goes (Kept k) (execPeerStateRestored a0 a1) := by
  intros; unfold execPeerStateRestored; try dsimp only
  repeat' (with_reducible first | assumption | apply Goes.of_next | apply MbRes.of_going | apply mbOk_kept | apply State.modSeq_kept | apply mbCommand_kept | rfl | split | (intro) | exact MbRes.to_going (by assumption) | refine MbRes.from_going (by assumption) ?_)

theorem execLcReturnChallenge_kept {k a0 a1} : Kept k a1 → Goes (Kept k) (execLcReturnChallenge a0 a1) := by
  intros; unfold execLcReturnChallenge; try dsimp only
  repeat' (with_reducible first | assumption | apply Goes.of_next | apply MbRes.of_going | apply mbOk_kept | apply modSec_kept | apply State.fresh_kept | apply mbFail_kept | apply mbCommand_kept | rfl | split | (intro) | exact MbRes.to_going (by assumption) | refine MbRes.from_going (by assumption) ?_ | refine from_fst (by assumption) ?_ | refine from_snd (by assumption) ?_)

theorem execLcReturnToken_kept {k a0 a1 a2} : Kept k a2 → Goes (Kept k) (execLcReturnToken a0 a1 a2) := by
  intro h; unfold execLcReturnToken
  dsimp only
  apply Goes.of_next
  have h2 : Kept k (mbCommand a2 a0 0x65 (fun c => c.f 0x10 0 1 == 1) (fun _ _ => { fields := lcFields, permitted := isFn0 a0 })
      (fun s _ => if !tokenOk s a1 then mbFail s .denied
        else mbOk (secEvent (modSec (wipeCarrel s) (fun x => { x with udsKill := true, lc := 3 })) 22 0 0))) := by
    apply mbCommand_kept h
    · intro s c hs
      split
      · exact mbFail_kept hs
      · apply mbOk_kept
        apply secEvent_kept
        have hw := wipeCarrel_kept hs
        generalize wipeCarrel s = s at hw ⊢
        exact modSec_fuses hw ⟨hw.life, Nat.le_refl _⟩ (fun _ => rfl) (Nat.le_refl _) rfl ⟨Nat.le_refl _, hw.tamper⟩ rfl (Nat.le_refl _)
    · intro s c hs; exact hs
  split
  · exact warmReset_kept h2
  · exact h2

end Sys2Proof.Machine
end

