-- ==== Sys2Proof/Laws/KeptRegs.lean ====
section
/-! SUPPORT. What the board, Catalogue commands, registers and Otfold keep: `Kept` after each operation. -/

namespace Sys2Proof.Machine

set_option Elab.async false
set_option linter.all false

theorem execTelemetryRefresh_kept {k a0} : Kept k a0 → Goes (Kept k) (execTelemetryRefresh a0) := by
  intros; unfold execTelemetryRefresh; try dsimp only
  repeat' (with_reducible first | assumption | (simp only [kept_mk]; refine Kept.re ?_ rfl rfl rfl rfl rfl rfl rfl rfl rfl rfl rfl rfl rfl) | apply Goes.of_next | apply reach_kept | apply noteAlerts_kept | rfl | split | (intro))

theorem execGetTelemetry_kept {k a0} : Kept k a0 → Goes (Kept k) (execGetTelemetry a0) := by
  intros; unfold execGetTelemetry; try dsimp only
  repeat' (with_reducible first | assumption | apply Goes.of_next | apply smbServed_kept | apply smbReply_kept | rfl | split | (intro))

theorem execSetPwrCap_kept {k a0 a1} : Kept k a1 → Goes (Kept k) (execSetPwrCap a0 a1) := by
  intro h; unfold execSetPwrCap
  apply Goes.of_next
  apply smbServed_kept h
  intro s hs
  split
  · exact smbReply_kept (setCap_kept hs (by simp_all))
  · exact smbReply_kept hs

theorem execGetResetStatus_kept {k a0} : Kept k a0 → Goes (Kept k) (execGetResetStatus a0) := by
  intros; unfold execGetResetStatus; try dsimp only
  repeat' (with_reducible first | assumption | apply Goes.of_next | apply smbServed_kept | apply smbReply_kept | rfl | split | (intro))

theorem execClearAlert_kept {k a0 a1} : Kept k a1 → Goes (Kept k) (execClearAlert a0 a1) := by
  intros; unfold execClearAlert; try dsimp only
  repeat' (with_reducible first | assumption | (simp only [kept_mk]; refine Kept.re ?_ rfl rfl rfl rfl rfl rfl rfl rfl rfl rfl rfl rfl rfl) | apply Goes.of_next | apply smbServed_kept | apply smbReply_kept | apply noteAlerts_kept | apply foldl_kept | rfl | split | (intro))

theorem execSmbusClockLowTimeout_kept {k a0} : Kept k a0 → Goes (Kept k) (execSmbusClockLowTimeout a0) := by
  intros; unfold execSmbusClockLowTimeout; try dsimp only
  repeat' (with_reducible first | assumption | (simp only [kept_mk]; refine Kept.re ?_ rfl rfl rfl rfl rfl rfl rfl rfl rfl rfl rfl rfl rfl) | apply Goes.of_next | rfl | split | (intro))

theorem jtagTake_kept {k a0 a1 a2} : Kept k a0 → Kept k (jtagTake a0 a1 a2) := by
  intros; unfold jtagTake; try dsimp only
  repeat' (with_reducible first | assumption | apply State.modSeq_kept | rfl | split | (intro))

theorem jtagLow_kept {k a0 a1} : Kept k a0 → (∀ y0, Kept k y0 → Kept k (a1 y0)) → Kept k (jtagLow a0 a1) := by
  intros; unfold jtagLow; try dsimp only
  repeat' (with_reducible first | assumption | apply jtagTake_kept | rfl | split | (intro))
  all_goals grind [kept_eq, goes_next, jtagTake_kept]

theorem jtagCells_kept {k a0 a1 a2} : Kept k a2 → Kept k (jtagCells a0 a1 a2) := by
  intros; unfold jtagCells; try dsimp only
  repeat' (with_reducible first | assumption | apply State.fresh_kept | apply jtagTake_kept | apply State.modSeq_kept | rfl | split | (intro) | refine from_fst (by assumption) ?_ | refine from_snd (by assumption) ?_)

theorem execBypass_kept {k a0} : Kept k a0 → Goes (Kept k) (execBypass a0) := by
  intros; unfold execBypass; try dsimp only
  repeat' (with_reducible first | assumption | apply Goes.of_next | apply jtagTake_kept | rfl | split | (intro))

theorem execIdcode_kept {k a0} : Kept k a0 → Goes (Kept k) (execIdcode a0) := by
  intros; unfold execIdcode; try dsimp only
  repeat' (with_reducible first | assumption | apply Goes.of_next | apply jtagTake_kept | rfl | split | (intro))

theorem execSamplePreload_kept {k a0 a1} : Kept k a1 → Goes (Kept k) (execSamplePreload a0 a1) := by
  intros; unfold execSamplePreload; try dsimp only
  repeat' (with_reducible first | assumption | apply Goes.of_next | apply jtagCells_kept | rfl | split | (intro))

theorem execClamp_kept {k a0} : Kept k a0 → Goes (Kept k) (execClamp a0) := by
  intros; unfold execClamp; try dsimp only
  repeat' (with_reducible first | assumption | apply Goes.of_next | apply jtagTake_kept | apply jtagLow_kept | rfl | split | (intro))

theorem execHighz_kept {k a0} : Kept k a0 → Goes (Kept k) (execHighz a0) := by
  intros; unfold execHighz; try dsimp only
  repeat' (with_reducible first | assumption | apply Goes.of_next | apply jtagTake_kept | apply jtagLow_kept | rfl | split | (intro))

theorem execExtest_kept {k a0 a1} : Kept k a1 → Goes (Kept k) (execExtest a0 a1) := by
  intros; unfold execExtest; try dsimp only
  repeat' (with_reducible first | assumption | apply Goes.of_next | apply jtagCells_kept | apply jtagLow_kept | rfl | split | (intro))

theorem execExtestPulse_kept {k a0 a1} : Kept k a1 → Goes (Kept k) (execExtestPulse a0 a1) := by
  intros; unfold execExtestPulse; try dsimp only
  repeat' (with_reducible first | assumption | apply Goes.of_next | apply jtagCells_kept | apply jtagLow_kept | rfl | split | (intro))

theorem execExtestTrain_kept {k a0 a1} : Kept k a1 → Goes (Kept k) (execExtestTrain a0 a1) := by
  intros; unfold execExtestTrain; try dsimp only
  repeat' (with_reducible first | assumption | apply Goes.of_next | apply jtagCells_kept | apply jtagLow_kept | rfl | split | (intro))

theorem startInval_kept {k a0 a1 a2 a3} : Kept k a0 → Kept k (startInval a0 a1 a2 a3) := by
  intros; unfold startInval; try dsimp only
  repeat' (with_reducible first | assumption | apply modCat_kept | apply invalNow_kept | rfl | split | (intro))

theorem finishInval_kept {k a0 a1 a2} : Kept k a0 → MbRes.All (Kept k) (finishInval a0 a1 a2) := by
  intros; unfold finishInval; try dsimp only
  repeat' (with_reducible first | assumption | apply MbRes.of_going | apply mbOk_kept | apply modCat_kept | rfl | split | (intro) | exact MbRes.to_going (by assumption) | refine MbRes.from_going (by assumption) ?_ | refine from_fst (by assumption) ?_ | refine from_snd (by assumption) ?_)
grind_pattern finishInval_kept => (finishInval a0 a1 a2), Kept k a0

theorem execCatInvalidate_kept {k a0 a1} : Kept k a1 → Goes (Kept k) (execCatInvalidate a0 a1) := by unfold execCatInvalidate; grind [kept_eq, goes_next, mbOk_kept, startInval_kept, finishInval_kept, mbCommand_kept]

theorem execDlogSet_kept {k a0 a1} : Kept k a1 → Goes (Kept k) (execDlogSet a0 a1) := by
  intros; unfold execDlogSet; try dsimp only
  repeat' (with_reducible first | assumption | apply Goes.of_next | apply MbRes.of_going | apply mbOk_kept | apply modCat_kept | apply mbCommand_kept | rfl | split | (intro) | exact MbRes.to_going (by assumption) | refine MbRes.from_going (by assumption) ?_)

theorem execDlogReturn_kept {k a0 a1} : Kept k a1 → Goes (Kept k) (execDlogReturn a0 a1) := by
  intros; unfold execDlogReturn; try dsimp only
  repeat' (with_reducible first | assumption | apply Goes.of_next | apply MbRes.of_going | apply mbOk_kept | apply modCat_kept | apply mbCommand_kept | rfl | split | (intro) | exact MbRes.to_going (by assumption) | refine MbRes.from_going (by assumption) ?_)

theorem execWinSet_kept {k a0 a1} : Kept k a1 → Goes (Kept k) (execWinSet a0 a1) := by
  intros; unfold execWinSet; try dsimp only
  repeat' (with_reducible first | assumption | apply Goes.of_next | apply MbRes.of_going | apply mbOk_kept | apply modCat_kept | apply mbFail_kept | apply mbCommand_kept | rfl | split | (intro) | exact MbRes.to_going (by assumption) | refine MbRes.from_going (by assumption) ?_)

theorem execWinClear_kept {k a0 a1} : Kept k a1 → Goes (Kept k) (execWinClear a0 a1) := by
  intros; unfold execWinClear; try dsimp only
  repeat' (with_reducible first | assumption | apply Goes.of_next | apply MbRes.of_going | apply mbOk_kept | apply modCat_kept | apply mbCommand_kept | rfl | split | (intro) | exact MbRes.to_going (by assumption) | refine MbRes.from_going (by assumption) ?_)

theorem execShelfMigrateCopy_kept {k a0 a1} : Kept k a1 → Goes (Kept k) (execShelfMigrateCopy a0 a1) := by
  intros; unfold execShelfMigrateCopy; try dsimp only
  repeat' (with_reducible first | assumption | (simp only [kept_mk]; refine Kept.re ?_ rfl rfl rfl rfl rfl rfl rfl rfl rfl rfl rfl rfl rfl) | apply Goes.of_next | apply MbRes.of_going | apply submitShelver_kept | apply mbFail_kept | apply mbCommand_kept | rfl | split | (intro) | exact MbRes.to_going (by assumption) | refine MbRes.from_going (by assumption) ?_ | refine from_fst (by assumption) ?_ | refine from_snd (by assumption) ?_)

theorem dropMigration_kept {k a0 a1} : Kept k a0 → Kept k (dropMigration a0 a1) := by
  intros; unfold dropMigration; try dsimp only
  repeat' (with_reducible first | assumption | (simp only [kept_mk]; refine Kept.re ?_ rfl rfl rfl rfl rfl rfl rfl rfl rfl rfl rfl rfl rfl) | rfl | split | (intro))

theorem migrateEnd_kept {k a0 a1 a2} : Kept k a0 → MbRes.All (Kept k) (migrateEnd a0 a1 a2) := by
  intros; unfold migrateEnd; try dsimp only
  repeat' (with_reducible first | assumption | apply MbRes.of_going | apply settlePoint1_kept | apply mbOk_kept | apply State.modShelver_kept | apply maintRecall_kept | apply modCat_kept | apply maintWalk_kept | apply purgeRange_kept | apply dropMigration_kept | apply mbFail_kept | rfl | split | (intro) | exact MbRes.to_going (by assumption) | refine MbRes.from_going (by assumption) ?_ | refine from_fst (by assumption) ?_ | refine from_snd (by assumption) ?_)
grind_pattern migrateEnd_kept => (migrateEnd a0 a1 a2), Kept k a0

theorem execShelfMigrateFinish_kept {k a0 a1} : Kept k a1 → Goes (Kept k) (execShelfMigrateFinish a0 a1) := by unfold execShelfMigrateFinish; grind [kept_eq, goes_next, optAll_none, optAll_some, startInval_kept, migrateEnd_kept, dropMigration_kept, mbFail_kept, mbCommand_kept]

theorem readReg_kept {k a0 a1 a2} : Kept k a0 → Kept k (readReg a0 a1 a2).1 := by
  intros; unfold readReg; try dsimp only
  repeat' (with_reducible first | assumption | apply latchHi_kept | rfl | split | (intro) | refine from_fst (by assumption) ?_ | refine from_snd (by assumption) ?_)
grind_pattern readReg_kept => (readReg a0 a1 a2), Kept k a0

theorem setRoot_kept {k a0 a1 a2} : Kept k a0 → Kept k (setRoot a0 a1 a2) := by
  intros; unfold setRoot; try dsimp only
  repeat' (with_reducible first | assumption | (simp only [kept_mk]; refine Kept.re ?_ rfl rfl rfl rfl rfl rfl rfl rfl rfl rfl rfl rfl rfl) | apply modCtx_kept | rfl | split | (intro) | refine from_fst (by assumption) ?_ | refine from_snd (by assumption) ?_)

theorem setPair_kept {k a0 a1 a2 a3} : Kept k a0 → Kept k (setPair a0 a1 a2 a3) := by
  intros; unfold setPair; try dsimp only
  repeat' (with_reducible first | assumption | (simp only [kept_mk]; refine Kept.re ?_ rfl rfl rfl rfl rfl rfl rfl rfl rfl rfl rfl rfl rfl) | apply setRoot_kept | apply State.modPwr_kept | apply State.modShelver_kept | apply setIrqMask_kept | apply State.modFn_kept | apply State.modSeq_kept | rfl | split | (intro) | refine from_fst (by assumption) ?_ | refine from_snd (by assumption) ?_)

theorem clearStatus_kept {k a0 a1 a2 a3} : Kept k a0 → Kept k (clearStatus a0 a1 a2 a3) := by
  intros; unfold clearStatus; try dsimp only
  repeat' (with_reducible first | assumption | (simp only [kept_mk]; refine Kept.re ?_ rfl rfl rfl rfl rfl rfl rfl rfl rfl rfl rfl rfl rfl) | apply State.modPwr_kept | apply State.modShelver_kept | apply State.modBay_kept | apply State.modFab_kept | apply State.modMover_kept | apply State.modFn_kept | apply State.modMx_kept | apply State.modOt_kept | apply State.modSeq_kept | apply State.modStack_kept | apply State.modFport_kept | rfl | split | (intro) | refine from_fst (by assumption) ?_ | refine from_snd (by assumption) ?_)

theorem stackPut_kept {k a0 a1 a2 a3} : Kept k a0 → Kept k (stackPut a0 a1 a2 a3) := by
  intros; unfold stackPut; try dsimp only
  repeat' (with_reducible first | assumption | apply startMaint_kept | apply State.modStack_kept | apply foldl_kept | rfl | split | (intro) | refine from_fst (by assumption) ?_ | refine from_snd (by assumption) ?_)

theorem shelverPut_kept {k a0 a1 a2 a3} : Kept k a0 → Kept k (shelverPut a0 a1 a2 a3) := by
  intros; unfold shelverPut; try dsimp only
  repeat' (with_reducible first | assumption | apply State.modShelver_kept | apply outState_kept | apply execMirrorStop_kept | rfl | split | (intro) | refine from_fst (by assumption) ?_ | refine from_snd (by assumption) ?_)

theorem setWindow_kept {k a0 a1 a2} : Kept k a0 → Kept k (setWindow a0 a1 a2) := by
  intros; unfold setWindow; try dsimp only
  repeat' (with_reducible first | assumption | (simp only [kept_mk]; refine Kept.re ?_ rfl rfl rfl rfl rfl rfl rfl rfl rfl rfl rfl rfl rfl) | rfl | split | (intro))

theorem catPut_kept {k a0 a1 a2} : Kept k a0 → Kept k (catPut a0 a1 a2) := by
  intros; unfold catPut; try dsimp only
  repeat' (with_reducible first | assumption | (simp only [kept_mk]; refine Kept.re ?_ rfl rfl rfl rfl rfl rfl rfl rfl rfl rfl rfl rfl rfl) | apply setWindow_kept | rfl | split | (intro) | refine from_fst (by assumption) ?_ | refine from_snd (by assumption) ?_)

theorem fabPut_kept {k a0 a1 a2} : Kept k a0 → Kept k (fabPut a0 a1 a2) := by
  intro h; unfold fabPut
  split
  · split
    · exact h
    · exact State.modFab_device h (Nat.mod_lt _ (by decide))
  · exact State.modFab_kept h rfl
  · split
    · exact writePortCtrl_kept h
    · exact h

theorem powerPut_kept {k a0 a1 a2} : Kept k a0 → Kept k (powerPut a0 a1 a2) := by
  intro h; unfold powerPut
  dsimp only
  split
  · exact State.modPwr_kept h rfl
  · exact State.modPwr_kept h rfl
  · split
    · exact setCap_kept h (by simp_all)
    · exact h
  · exact h

theorem fnPut_kept {k a0 a1 a2 a3} : Kept k a0 → Kept k (fnPut a0 a1 a2 a3) := by
  intros; unfold fnPut; try dsimp only
  repeat' (with_reducible first | assumption | apply eventsReturn_kept | apply State.modFn_kept | apply execMbDb_kept | apply outState_kept | apply execBootLoad_kept | apply State.modSeq_kept | apply execRetrySource_kept | rfl | split | (intro) | refine from_fst (by assumption) ?_ | refine from_snd (by assumption) ?_)

theorem otPut_kept {k a0 a1 a2 a3} : Kept k a0 → Kept k (otPut a0 a1 a2 a3) := by
  intros; unfold otPut; try dsimp only
  repeat' (with_reducible first | assumption | apply goDown_kept | apply enterTrain_kept | apply State.modOt_kept | rfl | split | (intro) | refine from_fst (by assumption) ?_ | refine from_snd (by assumption) ?_)

theorem plainPut_kept {k a0 a1 a2 a3 a4} : Kept k a0 → Kept k (plainPut a0 a1 a2 a3 a4) := by
  intros; unfold plainPut; try dsimp only
  repeat' (with_reducible first | assumption | apply stackPut_kept | apply catPut_kept | apply powerPut_kept | apply fabPut_kept | apply shelverPut_kept | apply fnPut_kept | apply bayRegPut_kept | apply otPut_kept | apply mxRegPut_kept | rfl | split | (intro) | refine from_fst (by assumption) ?_ | refine from_snd (by assumption) ?_)

theorem writeReg_kept {k a0 a1 a2 a3 a4} : Kept k a0 → Kept k (writeReg a0 a1 a2 a3 a4) := by
  intros; unfold writeReg; try dsimp only
  repeat' (with_reducible first | assumption | apply holdLo_kept | apply plainPut_kept | apply clearStatus_kept | apply setPair_kept | rfl | split | (intro) | refine from_fst (by assumption) ?_ | refine from_snd (by assumption) ?_)

theorem testPut_kept {k a0 a1 a2 a3} : Kept k a0 → Kept k (testPut a0 a1 a2 a3) := by
  intros; unfold testPut; try dsimp only
  repeat' (with_reducible first | assumption | (simp only [kept_mk]; refine Kept.re ?_ rfl rfl rfl rfl rfl rfl rfl rfl rfl rfl rfl rfl rfl) | rfl | split | (intro))

theorem reservedPut_kept {k a0 a1 a2 a3} : Kept k a0 → Kept k (reservedPut a0 a1 a2 a3) := by
  intros; unfold reservedPut; try dsimp only
  repeat' (with_reducible first | assumption | (simp only [kept_mk]; refine Kept.re ?_ rfl rfl rfl rfl rfl rfl rfl rfl rfl rfl rfl rfl rfl) | apply testPut_kept | rfl | split | (intro))

theorem driverRead_kept {k a0 a1 a2} : Kept k a0 → Kept k (driverRead a0 a1 a2).1 := by
  intros; unfold driverRead; try dsimp only
  repeat' (with_reducible first | assumption | apply readReg_kept | rfl | split | (intro) | refine from_fst (by assumption) ?_ | refine from_snd (by assumption) ?_)
grind_pattern driverRead_kept => (driverRead a0 a1 a2), Kept k a0

theorem driverWrite_kept {k a0 a1 a2 a3} : Kept k a0 → Kept k (driverWrite a0 a1 a2 a3) := by
  intros; unfold driverWrite; try dsimp only
  repeat' (with_reducible first | assumption | apply execCmdDb_kept | apply writeReg_kept | apply execCplDb_kept | apply outState_kept | apply reservedPut_kept | apply queueDbError_kept | rfl | split | (intro) | refine from_fst (by assumption) ?_ | refine from_snd (by assumption) ?_)

theorem execLoReadLatch_kept {k a0 a1} : Kept k a1 → Goes (Kept k) (execLoReadLatch a0 a1) := by
  intros; unfold execLoReadLatch; try dsimp only
  repeat' (with_reducible first | assumption | apply Goes.of_next | apply latchHi_kept | rfl | split | (intro) | refine from_fst (by assumption) ?_ | refine from_snd (by assumption) ?_)

theorem execLoWriteHold_kept {k a0 a1 a2 a3} : Kept k a3 → Goes (Kept k) (execLoWriteHold a0 a1 a2 a3) := by
  intros; unfold execLoWriteHold; try dsimp only
  repeat' (with_reducible first | assumption | apply Goes.of_next | apply holdLo_kept | rfl | split | (intro))

theorem execHiWriteCommit_kept {k a0 a1 a2 a3} : Kept k a3 → Goes (Kept k) (execHiWriteCommit a0 a1 a2 a3) := by
  intros; unfold execHiWriteCommit; try dsimp only
  repeat' (with_reducible first | assumption | apply Goes.of_next | apply setPair_kept | rfl | split | (intro))

theorem execStatusSeqClear_kept {k a0 a1 a2 a3} : Kept k a3 → Goes (Kept k) (execStatusSeqClear a0 a1 a2 a3) := by
  intros; unfold execStatusSeqClear; try dsimp only
  repeat' (with_reducible first | assumption | apply Goes.of_next | apply writeReg_kept | rfl | split | (intro))

theorem execRegisterWrite_kept {k a0 a1 a2 a3 a4} : Kept k a4 → Goes (Kept k) (execRegisterWrite a0 a1 a2 a3 a4) := by
  intros; unfold execRegisterWrite; try dsimp only
  repeat' (with_reducible first | assumption | apply Goes.of_next | apply writeReg_kept | apply reservedPut_kept | rfl | split | (intro) | refine from_fst (by assumption) ?_ | refine from_snd (by assumption) ?_)

theorem execSlowWriteEffect_kept {k a0} : Kept k a0 → Goes (Kept k) (execSlowWriteEffect a0) := by
  intros; unfold execSlowWriteEffect; try dsimp only
  repeat' (with_reducible first | assumption | (simp only [kept_mk]; refine Kept.re ?_ rfl rfl rfl rfl rfl rfl rfl rfl rfl rfl rfl rfl rfl) | apply Goes.of_next | apply testPut_kept | rfl | split | (intro) | refine from_fst (by assumption) ?_ | refine from_snd (by assumption) ?_)

theorem badMessage_kept {k a0 a1} : Kept k a0 → Kept k (badMessage a0 a1) := by
  intros; unfold badMessage; try dsimp only
  repeat' (with_reducible first | assumption | apply otEvent_kept | apply State.modOt_kept | rfl | split | (intro))

theorem otAnswer_kept {k a0 a1 a2 a3} : Kept k a0 → Kept k (otAnswer a0 a1 a2 a3) := by
  intros; unfold otAnswer; try dsimp only
  repeat' (with_reducible first | assumption | apply otSend_kept | apply State.modOt_kept | rfl | split | (intro))

theorem otWait_kept {k a0 a1 a2} : Kept k a0 → Kept k (otWait a0 a1 a2) := by
  intros; unfold otWait; try dsimp only
  repeat' (with_reducible first | assumption | apply State.modOt_kept | rfl | split | (intro))

theorem otRequest_kept {k a0 a1 a2 a3 a4 a5 a6} : Kept k a0 → (∀ y0, Kept k y0 → Kept k (a6 y0)) → Kept k (otRequest a0 a1 a2 a3 a4 a5 a6) := by
  intros; unfold otRequest; try dsimp only
  repeat' (with_reducible first | assumption | apply otAnswer_kept | apply badMessage_kept | rfl | split | (intro) | refine from_fst (by assumption) ?_ | refine from_snd (by assumption) ?_)
  all_goals grind [kept_eq, goes_next, otAnswer_kept, badMessage_kept]

theorem otMemCheck_kept {k a0 a1 a2} : Kept k a0 → OtMem.All (Kept k) (otMemCheck a0 a1 a2) := by
  intros; unfold otMemCheck; try dsimp only
  repeat' (with_reducible first | assumption | apply OtMem.of_bad | apply OtMem.of_ok | apply otEvent_kept | apply refuseRequest_kept | rfl | split | (intro) | exact OtMem.to_bad (by assumption) | refine OtMem.from_bad (by assumption) ?_ | exact OtMem.to_ok (by assumption) | refine OtMem.from_ok (by assumption) ?_ | refine from_fst (by assumption) ?_ | refine from_snd (by assumption) ?_)
  all_goals grind [kept_eq, goes_next, optAll_none, optAll_some, otEvent_kept, refuseRequest_kept, OtMem.all_bad, OtMem.all_ok]
grind_pattern otMemCheck_kept => (otMemCheck a0 a1 a2), Kept k a0

theorem otMemory_kept {k a0 a1 a2 a3 a4} : Kept k a0 → (∀ y0 y1 y2, Kept k y0 → Got.All (Kept k) (a4 y0 y1 y2)) → Kept k (otMemory a0 a1 a2 a3 a4) := by
  intros; unfold otMemory; try dsimp only
  repeat' (with_reducible first | assumption | apply OtMem.of_bad | apply OtMem.of_ok | apply Got.of_ok | apply Got.of_wait | apply Got.of_bad | apply otMemCheck_kept | apply otAnswer_kept | apply otWait_kept | rfl | split | (intro) | exact OtMem.to_bad (by assumption) | refine OtMem.from_bad (by assumption) ?_ | exact OtMem.to_ok (by assumption) | refine OtMem.from_ok (by assumption) ?_ | exact Got.to_ok (by assumption) | refine Got.from_ok (by assumption) ?_ | exact Got.to_wait (by assumption) | refine Got.from_wait (by assumption) ?_ | exact Got.to_bad (by assumption) | refine Got.from_bad (by assumption) ?_ | refine from_fst (by assumption) ?_ | refine from_snd (by assumption) ?_)
  all_goals grind [kept_eq, goes_next, otMemCheck_kept, otAnswer_kept, otWait_kept, OtMem.all_bad, OtMem.all_ok, Got.all_ok, Got.all_wait, Got.all_bad]

theorem execRdNc_kept {k a0 a1 a2} : Kept k a2 → Goes (Kept k) (execRdNc a0 a1 a2) := by
  intros; unfold execRdNc; try dsimp only
  repeat' (with_reducible first | assumption | apply Goes.of_next | apply Got.of_ok | apply Got.of_wait | apply Got.of_bad | apply engineRead_kept | apply otMemory_kept | apply otRequest_kept | rfl | split | (intro) | exact Got.to_ok (by assumption) | refine Got.from_ok (by assumption) ?_ | exact Got.to_wait (by assumption) | refine Got.from_wait (by assumption) ?_ | exact Got.to_bad (by assumption) | refine Got.from_bad (by assumption) ?_ | refine from_fst (by assumption) ?_ | refine from_snd (by assumption) ?_)

theorem execWrNc_kept {k a0 a1 a2} : Kept k a2 → Goes (Kept k) (execWrNc a0 a1 a2) := by
  intros; unfold execWrNc; try dsimp only
  repeat' (with_reducible first | assumption | apply Goes.of_next | apply Got.of_ok | apply Got.of_wait | apply Got.of_bad | apply engineWrite_kept | apply otMemory_kept | apply otRequest_kept | rfl | split | (intro) | exact Got.to_ok (by assumption) | refine Got.from_ok (by assumption) ?_ | exact Got.to_wait (by assumption) | refine Got.from_wait (by assumption) ?_ | exact Got.to_bad (by assumption) | refine Got.from_bad (by assumption) ?_ | refine from_fst (by assumption) ?_ | refine from_snd (by assumption) ?_)

theorem execOtAtomic_kept {k a0 a1 a2} : Kept k a2 → Goes (Kept k) (execOtAtomic a0 a1 a2) := by
  intros; unfold execOtAtomic; try dsimp only
  repeat' (with_reducible first | assumption | apply Goes.of_next | apply Got.of_ok | apply Got.of_wait | apply Got.of_bad | apply chargeGranules_kept | apply farPerform_kept | apply otMemory_kept | apply otRequest_kept | apply prepare_kept | rfl | split | (intro) | exact Got.to_ok (by assumption) | refine Got.from_ok (by assumption) ?_ | exact Got.to_wait (by assumption) | refine Got.from_wait (by assumption) ?_ | exact Got.to_bad (by assumption) | refine Got.from_bad (by assumption) ?_ | refine from_fst (by assumption) ?_ | refine from_snd (by assumption) ?_)

theorem execRegRd_kept {k a0 a1 a2} : Kept k a2 → Goes (Kept k) (execRegRd a0 a1 a2) := by
  intros; unfold execRegRd; try dsimp only
  repeat' (with_reducible first | assumption | apply Goes.of_next | apply driverRead_kept | apply otAnswer_kept | apply otRequest_kept | rfl | split | (intro) | refine from_fst (by assumption) ?_ | refine from_snd (by assumption) ?_)

theorem execRegWr_kept {k a0 a1 a2} : Kept k a2 → Goes (Kept k) (execRegWr a0 a1 a2) := by
  intros; unfold execRegWr; try dsimp only
  repeat' (with_reducible first | assumption | apply Goes.of_next | apply driverWrite_kept | apply badMessage_kept | rfl | split | (intro) | refine from_fst (by assumption) ?_ | refine from_snd (by assumption) ?_)

theorem execTimeReq_kept {k a0 a1 a2} : Kept k a2 → Goes (Kept k) (execTimeReq a0 a1 a2) := by
  intros; unfold execTimeReq; try dsimp only
  repeat' (with_reducible first | assumption | apply Goes.of_next | apply otAnswer_kept | apply otRequest_kept | rfl | split | (intro))

theorem cmEnd_kept {k a0 a1} : Kept k a0 → Kept k (cmEnd a0 a1) := by
  intros; unfold cmEnd; try dsimp only
  repeat' (with_reducible first | assumption | apply settleIntr_kept | apply State.modOt_kept | rfl | split | (intro))

theorem cmFailed_kept {k a0 a1} : Kept k a0 → Kept k (cmFailed a0 a1) := by
  intros; unfold cmFailed; try dsimp only
  repeat' (with_reducible first | assumption | apply postEvent_kept | apply State.modFn_kept | rfl | split | (intro))

theorem cmTimeout_kept {k a0 a1} : Kept k a0 → Kept k (cmTimeout a0 a1) := by
  intros; unfold cmTimeout; try dsimp only
  repeat' (with_reducible first | assumption | apply reissueCm_kept | apply bootTimeout_kept | apply otEvent_kept | apply cmEnd_kept | apply State.modOt_kept | rfl | split | (intro) | refine from_fst (by assumption) ?_ | refine from_snd (by assumption) ?_)

theorem cmAnswer_kept {k a0 a1 a2 a3} : Kept k a0 → Kept k (cmAnswer a0 a1 a2 a3) := by
  intros; unfold cmAnswer; try dsimp only
  repeat' (with_reducible first | assumption | apply cmTimeout_kept | apply cmFailed_kept | apply cmEnd_kept | apply bootPiece_kept | rfl | split | (intro) | refine from_fst (by assumption) ?_ | refine from_snd (by assumption) ?_)

theorem execData_kept {k a0 a1 a2} : Kept k a2 → Goes (Kept k) (execData a0 a1 a2) := by
  intros; unfold execData; try dsimp only
  repeat' (with_reducible first | assumption | apply Goes.of_next | apply cmAnswer_kept | rfl | split | (intro))

theorem execAck_kept {k a0 a1 a2} : Kept k a2 → Goes (Kept k) (execAck a0 a1 a2) := by
  intros; unfold execAck; try dsimp only
  repeat' (with_reducible first | assumption | apply Goes.of_next | apply cmAnswer_kept | rfl | split | (intro))

theorem execCmDeadline_kept {k a0 a1} : Kept k a1 → Goes (Kept k) (execCmDeadline a0 a1) := by
  intros; unfold execCmDeadline; try dsimp only
  repeat' (with_reducible first | assumption | apply Goes.of_next | apply reach_kept | apply cmTimeout_kept | rfl | split | (intro) | refine from_fst (by assumption) ?_ | refine from_snd (by assumption) ?_)

end Sys2Proof.Machine
end

