-- ==== Sys2Proof/Laws/PerInstr.lean ====
section
/-! SUPPORT. Laws of the commands as syntax: a well-formed command carries at most an image's 6 MiB. -/

namespace Sys2Proof.Laws.WF

set_option Elab.async false
set_option linter.all false

/-- A well-formed command carries at most 6 MiB (18 R500). -/
def Statement (i : Sys2Proof.Instr) : Prop := wellFormed i = true → carried i ≤ 0x600000

theorem loReadLatch {a0} : Statement (.loReadLatch a0) := fun _ => Nat.zero_le _
theorem loWriteHold {a0 a1 a2} : Statement (.loWriteHold a0 a1 a2) := fun _ => Nat.zero_le _
theorem hiWriteCommit {a0 a1 a2} : Statement (.hiWriteCommit a0 a1 a2) := fun _ => Nat.zero_le _
theorem statusSeqClear {a0 a1 a2} : Statement (.statusSeqClear a0 a1 a2) := fun _ => Nat.zero_le _
theorem registerWrite {a0 a1 a2 a3} : Statement (.registerWrite a0 a1 a2 a3) := fun _ => Nat.zero_le _
theorem slowWriteEffect : Statement (.slowWriteEffect) := fun _ => Nat.zero_le _
theorem bankOwnerWrite {a0 a1 a2 a3} : Statement (.bankOwnerWrite a0 a1 a2 a3) := fun _ => Nat.zero_le _
theorem handoverComplete {a0 a1} : Statement (.handoverComplete a0 a1) := fun _ => Nat.zero_le _
theorem moverWrWrite {a0 a1 a2} : Statement (.moverWrWrite a0 a1 a2) := fun _ => Nat.zero_le _
theorem groupPretranslate {a0 a1} : Statement (.groupPretranslate a0 a1) := fun _ => Nat.zero_le _
theorem ttbEntriesFree {a0 a1} : Statement (.ttbEntriesFree a0 a1) := fun _ => Nat.zero_le _
theorem moverTileBegin {a0 a1} : Statement (.moverTileBegin a0 a1) := fun _ => Nat.zero_le _
theorem moverLoad {a0 a1} : Statement (.moverLoad a0 a1) := fun _ => Nat.zero_le _
theorem moverStore {a0 a1} : Statement (.moverStore a0 a1) := fun _ => Nat.zero_le _
theorem moverCopyLocal {a0 a1} : Statement (.moverCopyLocal a0 a1) := fun _ => Nat.zero_le _
theorem moverFill {a0 a1} : Statement (.moverFill a0 a1) := fun _ => Nat.zero_le _
theorem moverPrefetch {a0 a1} : Statement (.moverPrefetch a0 a1) := fun _ => Nat.zero_le _
theorem moverDescriptorComplete {a0 a1} : Statement (.moverDescriptorComplete a0 a1) := fun _ => Nat.zero_le _
theorem moverResume {a0 a1} : Statement (.moverResume a0 a1) := fun _ => Nat.zero_le _
theorem moverFlush {a0 a1} : Statement (.moverFlush a0 a1) := fun _ => Nat.zero_le _
theorem testIntervalExpire {a0} : Statement (.testIntervalExpire a0) := fun _ => Nat.zero_le _
theorem testCopyDone {a0} : Statement (.testCopyDone a0) := fun _ => Nat.zero_le _
theorem marchCDone {a0 a1} : Statement (.marchCDone a0 a1) := fun _ => Nat.zero_le _
theorem testRestoreDone {a0} : Statement (.testRestoreDone a0) := fun _ => Nat.zero_le _
theorem bayReset {a0} : Statement (.bayReset a0) := fun _ => Nat.zero_le _
theorem bayResetDrainLimit {a0} : Statement (.bayResetDrainLimit a0) := fun _ => Nat.zero_le _
theorem coreFenceWrite {a0 a1} : Statement (.coreFenceWrite a0 a1) := fun _ => Nat.zero_le _
theorem flitParityError {a0 a1} : Statement (.flitParityError a0 a1) := fun _ => Nat.zero_le _
theorem linkSilence {a0 a1 a2} : Statement (.linkSilence a0 a1 a2) := fun _ => Nat.zero_le _
theorem routerSelfCheckFault {a0} : Statement (.routerSelfCheckFault a0) := fun _ => Nat.zero_le _
theorem routeTablesInstall : Statement (.routeTablesInstall) := fun _ => Nat.zero_le _
theorem requestDeadline {a0} : Statement (.requestDeadline a0) := fun _ => Nat.zero_le _
theorem cardInject {a0} : Statement (.cardInject a0) := fun _ => Nat.zero_le _
theorem doorbell {a0 a1 a2} : Statement (.doorbell a0 a1 a2) := fun _ => Nat.zero_le _
theorem fenceSignalMsg {a0 a1 a2} : Statement (.fenceSignalMsg a0 a1 a2) := fun _ => Nat.zero_le _
theorem tileRun {a0} : Statement (.tileRun a0) := fun _ => Nat.zero_le _
theorem tilePreempt {a0} : Statement (.tilePreempt a0) := fun _ => Nat.zero_le _
theorem tileKill {a0} : Statement (.tileKill a0) := fun _ => Nat.zero_le _
theorem tileDone : Statement (.tileDone) := fun _ => Nat.zero_le _
theorem interrupt {a0 a1 a2} : Statement (.interrupt a0 a1 a2) := fun _ => Nat.zero_le _
theorem powerCmd {a0 a1 a2} : Statement (.powerCmd a0 a1 a2) := fun _ => Nat.zero_le _
theorem moverNotify {a0} : Statement (.moverNotify a0) := fun _ => Nat.zero_le _
theorem faultReport : Statement (.faultReport) := fun _ => Nat.zero_le _
theorem user {a0} : Statement (.user a0) := fun _ => Nat.zero_le _
theorem routerCtrl {a0 a1 a2} : Statement (.routerCtrl a0 a1 a2) := fun _ => Nat.zero_le _
theorem mxPushS {a0 a1 a2} : Statement (.mxPushS a0 a1 a2) := fun _ => Nat.zero_le _
theorem mxPushV {a0 a1 a2} : Statement (.mxPushV a0 a1 a2) := fun _ => Nat.zero_le _
theorem mxNop {a0 a1} : Statement (.mxNop a0 a1) := fun _ => Nat.zero_le _
theorem loadTile {a0 a1} : Statement (.loadTile a0 a1) := fun _ => Nat.zero_le _
theorem storeTile {a0 a1} : Statement (.storeTile a0 a1) := fun _ => Nat.zero_le _
theorem anchorSet {a0 a1} : Statement (.anchorSet a0 a1) := fun _ => Nat.zero_le _
theorem expScan {a0 a1} : Statement (.expScan a0 a1) := fun _ => Nat.zero_le _
theorem mma {a0 a1} : Statement (.mma a0 a1) := fun _ => Nat.zero_le _
theorem mmaFp64 {a0 a1} : Statement (.mmaFp64 a0 a1) := fun _ => Nat.zero_le _
theorem conv {a0 a1} : Statement (.conv a0 a1) := fun _ => Nat.zero_le _
theorem accRead {a0 a1} : Statement (.accRead a0 a1) := fun _ => Nat.zero_le _
theorem accSave {a0 a1} : Statement (.accSave a0 a1) := fun _ => Nat.zero_le _
theorem accLoad {a0 a1} : Statement (.accLoad a0 a1) := fun _ => Nat.zero_le _
theorem quantMx {a0 a1} : Statement (.quantMx a0 a1) := fun _ => Nat.zero_le _
theorem mxDescriptorComplete {a0 a1} : Statement (.mxDescriptorComplete a0 a1) := fun _ => Nat.zero_le _
theorem rampStep {a0 a1 a2} : Statement (.rampStep a0 a1 a2) := fun _ => Nat.zero_le _
theorem mxResume {a0 a1} : Statement (.mxResume a0 a1) := fun _ => Nat.zero_le _
theorem mxFlush {a0 a1} : Statement (.mxFlush a0 a1) := fun _ => Nat.zero_le _
theorem matrixCoreReset {a0 a1} : Statement (.matrixCoreReset a0 a1) := fun _ => Nat.zero_le _
theorem riscvInstruction {a0 a1 a2} : Statement (.riscvInstruction a0 a1 a2) := fun _ => Nat.zero_le _
theorem cnSend {a0 a1 a2 a3 a4} : Statement (.cnSend a0 a1 a2 a3 a4) := fun _ => Nat.zero_le _
theorem cnTrysend {a0 a1 a2 a3 a4} : Statement (.cnTrysend a0 a1 a2 a3 a4) := fun _ => Nat.zero_le _
theorem cnRecv {a0 a1 a2 a3} : Statement (.cnRecv a0 a1 a2 a3) := fun _ => Nat.zero_le _
theorem cnRecvDeadline {a0 a1} : Statement (.cnRecvDeadline a0 a1) := fun _ => Nat.zero_le _
theorem dsRead {a0 a1 a2} : Statement (.dsRead a0 a1 a2) := fun _ => Nat.zero_le _
theorem dsWait {a0 a1 a2 a3} : Statement (.dsWait a0 a1 a2 a3) := fun _ => Nat.zero_le _
theorem dsWaitReturn {a0 a1} : Statement (.dsWaitReturn a0 a1) := fun _ => Nat.zero_le _
theorem tileYield {a0 a1 a2} : Statement (.tileYield a0 a1 a2) := fun _ => Nat.zero_le _
theorem bayGive {a0 a1 a2 a3 a4} : Statement (.bayGive a0 a1 a2 a3 a4) := fun _ => Nat.zero_le _
theorem bayOwn {a0 a1 a2} : Statement (.bayOwn a0 a1 a2) := fun _ => Nat.zero_le _
theorem vaSeta {a0 a1 a2 a3} : Statement (.vaSeta a0 a1 a2 a3) := fun _ => Nat.zero_le _
theorem vaAddV {a0 a1 a2 a3} : Statement (.vaAddV a0 a1 a2 a3) := fun _ => Nat.zero_le _
theorem vaMacVv {a0 a1 a2 a3 a4} : Statement (.vaMacVv a0 a1 a2 a3 a4) := fun _ => Nat.zero_le _
theorem vaRedV {a0 a1 a2 a3} : Statement (.vaRedV a0 a1 a2 a3) := fun _ => Nat.zero_le _
theorem vaRedmacVv {a0 a1 a2 a3 a4} : Statement (.vaRedmacVv a0 a1 a2 a3 a4) := fun _ => Nat.zero_le _
theorem vaRdV {a0 a1 a2 a3} : Statement (.vaRdV a0 a1 a2 a3) := fun _ => Nat.zero_le _
theorem vaRdx {a0 a1 a2 a3} : Statement (.vaRdx a0 a1 a2 a3) := fun _ => Nat.zero_le _
theorem vaSave {a0 a1 a2} : Statement (.vaSave a0 a1 a2) := fun _ => Nat.zero_le _
theorem vaLoad {a0 a1 a2} : Statement (.vaLoad a0 a1 a2) := fun _ => Nat.zero_le _
theorem vaAddrec {a0 a1 a2} : Statement (.vaAddrec a0 a1 a2) := fun _ => Nat.zero_le _
theorem vfexpmaxVs {a0 a1 a2 a3 a4 a5} : Statement (.vfexpmaxVs a0 a1 a2 a3 a4 a5) := fun _ => Nat.zero_le _
theorem vfexp2 {a0 a1 a2 a3 a4 a5} : Statement (.vfexp2 a0 a1 a2 a3 a4 a5) := fun _ => Nat.zero_le _
theorem vflog2 {a0 a1 a2 a3 a4 a5} : Statement (.vflog2 a0 a1 a2 a3 a4 a5) := fun _ => Nat.zero_le _
theorem vfsinpi {a0 a1 a2 a3 a4 a5} : Statement (.vfsinpi a0 a1 a2 a3 a4 a5) := fun _ => Nat.zero_le _
theorem vfcospi {a0 a1 a2 a3 a4 a5} : Statement (.vfcospi a0 a1 a2 a3 a4 a5) := fun _ => Nat.zero_le _
theorem vftanh {a0 a1 a2 a3 a4 a5} : Statement (.vftanh a0 a1 a2 a3 a4 a5) := fun _ => Nat.zero_le _
theorem vferf {a0 a1 a2 a3 a4 a5} : Statement (.vferf a0 a1 a2 a3 a4 a5) := fun _ => Nat.zero_le _
theorem vfrsqrt {a0 a1 a2 a3 a4 a5} : Statement (.vfrsqrt a0 a1 a2 a3 a4 a5) := fun _ => Nat.zero_le _
theorem vfrecip {a0 a1 a2 a3 a4 a5} : Statement (.vfrecip a0 a1 a2 a3 a4 a5) := fun _ => Nat.zero_le _
theorem vbl2d {a0 a1 a2 a3 a4 a5 a6} : Statement (.vbl2d a0 a1 a2 a3 a4 a5 a6) := fun _ => Nat.zero_le _
theorem vbs2d {a0 a1 a2 a3 a4 a5 a6} : Statement (.vbs2d a0 a1 a2 a3 a4 a5 a6) := fun _ => Nat.zero_le _
theorem gangStart {a0} : Statement (.gangStart a0) := fun _ => Nat.zero_le _
theorem stackRequest {r} : Statement (.stackRequest r) := by
  intro h
  obtain ⟨src, addr, op, na, errs⟩ := r
  cases op with
  | read n => exact Nat.zero_le _
  | write d => simp [wellFormed, memReqFits] at h; simp [carried]; omega
theorem writebackPart {a0 a1} : Statement (.writebackPart a0 a1) := fun _ => Nat.zero_le _
theorem flushPart {a0 a1} : Statement (.flushPart a0 a1) := fun _ => Nat.zero_le _
theorem flushShelf {a0 a1} : Statement (.flushShelf a0 a1) := fun _ => Nat.zero_le _
theorem flushAll {a0} : Statement (.flushAll a0) := fun _ => Nat.zero_le _
theorem mscMaintDone {a0} : Statement (.mscMaintDone a0) := fun _ => Nat.zero_le _
theorem lookaheadRange {a0 a1 a2 a3 a4} : Statement (.lookaheadRange a0 a1 a2 a3 a4) := fun _ => Nat.zero_le _
theorem prefetchIssue {a0} : Statement (.prefetchIssue a0) := fun _ => Nat.zero_le _
theorem laneFail {a0 a1} : Statement (.laneFail a0 a1) := fun _ => Nat.zero_le _
theorem patrolScrub {a0 a1} : Statement (.patrolScrub a0 a1) := fun _ => Nat.zero_le _
theorem dramTempSample {a0 a1} : Statement (.dramTempSample a0 a1) := fun _ => Nat.zero_le _
theorem regulationWindow {a0} : Statement (.regulationWindow a0) := fun _ => Nat.zero_le _
theorem shNop {a0} : Statement (.shNop a0) := fun _ => Nat.zero_le _
theorem shCopy {a0} : Statement (.shCopy a0) := fun _ => Nat.zero_le _
theorem shFill {a0} : Statement (.shFill a0) := fun _ => Nat.zero_le _
theorem shGather {a0} : Statement (.shGather a0) := fun _ => Nat.zero_le _
theorem shScatter {a0} : Statement (.shScatter a0) := fun _ => Nat.zero_le _
theorem shReduce {a0} : Statement (.shReduce a0) := fun _ => Nat.zero_le _
theorem shAtomic {a0} : Statement (.shAtomic a0) := fun _ => Nat.zero_le _
theorem shScan {a0} : Statement (.shScan a0) := fun _ => Nat.zero_le _
theorem shTranspose {a0} : Statement (.shTranspose a0) := fun _ => Nat.zero_le _
theorem shMeasure {a0} : Statement (.shMeasure a0) := fun _ => Nat.zero_le _
theorem shScrub {a0} : Statement (.shScrub a0) := fun _ => Nat.zero_le _
theorem shPatternTest {a0 a1} : Statement (.shPatternTest a0 a1) := fun _ => Nat.zero_le _
theorem shPrefetch {a0} : Statement (.shPrefetch a0) := fun _ => Nat.zero_le _
theorem shSealIngest {a0} : Statement (.shSealIngest a0) := fun _ => Nat.zero_le _
theorem shMigrate {a0} : Statement (.shMigrate a0) := fun _ => Nat.zero_le _
theorem shelverChunkDone {a0} : Statement (.shelverChunkDone a0) := fun _ => Nat.zero_le _
theorem shelverComplete {a0} : Statement (.shelverComplete a0) := fun _ => Nat.zero_le _
theorem shWatchdogExpire {a0} : Statement (.shWatchdogExpire a0) := fun _ => Nat.zero_le _
theorem scratchParityError {a0} : Statement (.scratchParityError a0) := fun _ => Nat.zero_le _
theorem halt {a0} : Statement (.halt a0) := fun _ => Nat.zero_le _
theorem mirrorStop {a0} : Statement (.mirrorStop a0) := fun _ => Nat.zero_le _
theorem compressedWriteback {a0} : Statement (.compressedWriteback a0) := fun _ => Nat.zero_le _
theorem rdShared {a0 a1} : Statement (.rdShared a0 a1) := fun _ => Nat.zero_le _
theorem rdOwn {a0 a1} : Statement (.rdOwn a0 a1) := fun _ => Nat.zero_le _
theorem upgrade {a0 a1} : Statement (.upgrade a0 a1) := fun _ => Nat.zero_le _
theorem writeback {a0 a1 a2 a3} : Statement (.writeback a0 a1 a2 a3) := fun _ => Nat.zero_le _
theorem cleanEvict {a0 a1} : Statement (.cleanEvict a0 a1) := fun _ => Nat.zero_le _
theorem snpShare {a0 a1} : Statement (.snpShare a0 a1) := fun _ => Nat.zero_le _
theorem snpInv {a0 a1} : Statement (.snpInv a0 a1) := fun _ => Nat.zero_le _
theorem snpData {a0 a1} : Statement (.snpData a0 a1) := fun _ => Nat.zero_le _
theorem snpRsp {a0 a1 a2 a3 a4} : Statement (.snpRsp a0 a1 a2 a3 a4) := fun _ => Nat.zero_le _
theorem grant {a0 a1} : Statement (.grant a0 a1) := fun _ => Nat.zero_le _
theorem snoopHoldExpire {a0 a1} : Statement (.snoopHoldExpire a0 a1) := fun _ => Nat.zero_le _
theorem farAmo {a0 a1 a2 a3 a4 a5 a6} : Statement (.farAmo a0 a1 a2 a3 a4 a5 a6) := fun _ => Nat.zero_le _
theorem snoopDeadline {a0} : Statement (.snoopDeadline a0) := fun _ => Nat.zero_le _
theorem l1dFlushTimeout {a0 a1} : Statement (.l1dFlushTimeout a0 a1) := fun _ => Nat.zero_le _
theorem catalogueLookup {a0 a1 a2 a3 a4} : Statement (.catalogueLookup a0 a1 a2 a3 a4) := fun _ => Nat.zero_le _
theorem tableWalk {a0} : Statement (.tableWalk a0) := fun _ => Nat.zero_le _
theorem dirty {a0 a1} : Statement (.dirty a0 a1) := fun _ => Nat.zero_le _
theorem mapChunk : Statement (.mapChunk) := fun _ => Nat.zero_le _
theorem prepare : Statement (.prepare) := fun _ => Nat.zero_le _
theorem vote : Statement (.vote) := fun _ => Nat.zero_le _
theorem commit : Statement (.commit) := fun _ => Nat.zero_le _
theorem concAbort : Statement (.concAbort) := fun _ => Nat.zero_le _
theorem drain : Statement (.drain) := fun _ => Nat.zero_le _
theorem query : Statement (.query) := fun _ => Nat.zero_le _
theorem state : Statement (.state) := fun _ => Nat.zero_le _
theorem prepareDeadline {a0} : Statement (.prepareDeadline a0) := fun _ => Nat.zero_le _
theorem switchAt {a0} : Statement (.switchAt a0) := fun _ => Nat.zero_le _
theorem graceLimit {a0} : Statement (.graceLimit a0) := fun _ => Nat.zero_le _
theorem recoverStateWait {a0} : Statement (.recoverStateWait a0) := fun _ => Nat.zero_le _
theorem trainDone {a0 a1} : Statement (.trainDone a0 a1) := fun _ => Nat.zero_le _
theorem alignDone {a0} : Statement (.alignDone a0) := fun _ => Nat.zero_le _
theorem handshakeDone {a0 a1} : Statement (.handshakeDone a0 a1) := fun _ => Nat.zero_le _
theorem linkStepLimit {a0} : Statement (.linkStepLimit a0) := fun _ => Nat.zero_le _
theorem heldTimeout {a0} : Statement (.heldTimeout a0) := fun _ => Nat.zero_le _
theorem dataFlit {a0 a1} : Statement (.dataFlit a0 a1) := fun _ => Nat.zero_le _
theorem ctrlFlit {a0 a1} : Statement (.ctrlFlit a0 a1) := fun _ => Nat.zero_le _
theorem idleFlit {a0 a1} : Statement (.idleFlit a0 a1) := fun _ => Nat.zero_le _
theorem timeFlit {a0 a1} : Statement (.timeFlit a0 a1) := fun _ => Nat.zero_le _
theorem timeFlitSend {a0} : Statement (.timeFlitSend a0) := fun _ => Nat.zero_le _
theorem flitCrcError {a0 a1} : Statement (.flitCrcError a0 a1) := fun _ => Nat.zero_le _
theorem frameAuthFail {a0} : Statement (.frameAuthFail a0) := fun _ => Nat.zero_le _
theorem flitSilence {a0} : Statement (.flitSilence a0) := fun _ => Nat.zero_le _
theorem fecLockLoss {a0} : Statement (.fecLockLoss a0) := fun _ => Nat.zero_le _
theorem keyRollover {a0} : Statement (.keyRollover a0) := fun _ => Nat.zero_le _
theorem rd {a0 a1} : Statement (.rd a0 a1) := by
  intro h; simp [wellFormed, packetFits] at h; simp [carried]; omega
theorem wr {a0 a1} : Statement (.wr a0 a1) := by
  intro h; simp [wellFormed, packetFits] at h; simp [carried]; omega
theorem atomic {a0 a1} : Statement (.atomic a0 a1) := by
  intro h; simp [wellFormed, packetFits] at h; simp [carried]; omega
theorem rdResp {a0 a1} : Statement (.rdResp a0 a1) := by
  intro h; simp [wellFormed, packetFits] at h; simp [carried]; omega
theorem wrAck {a0 a1} : Statement (.wrAck a0 a1) := by
  intro h; simp [wellFormed, packetFits] at h; simp [carried]; omega
theorem atomicResp {a0 a1} : Statement (.atomicResp a0 a1) := by
  intro h; simp [wellFormed, packetFits] at h; simp [carried]; omega
theorem coll {a0 a1} : Statement (.coll a0 a1) := by
  intro h; simp [wellFormed, packetFits] at h; simp [carried]; omega
theorem conc {a0 a1} : Statement (.conc a0 a1) := by
  intro h; simp [wellFormed, packetFits] at h; simp [carried]; omega
theorem mgmt {a0 a1} : Statement (.mgmt a0 a1) := by
  intro h; simp [wellFormed, packetFits] at h; simp [carried]; omega
theorem fabricDeadline {a0} : Statement (.fabricDeadline a0) := fun _ => Nat.zero_le _
theorem tagFree : Statement (.tagFree) := fun _ => Nat.zero_le _
theorem allreduce {a0 a1} : Statement (.allreduce a0 a1) := fun _ => Nat.zero_le _
theorem collReduce {a0 a1} : Statement (.collReduce a0 a1) := fun _ => Nat.zero_le _
theorem broadcast {a0 a1} : Statement (.broadcast a0 a1) := fun _ => Nat.zero_le _
theorem allgather {a0 a1} : Statement (.allgather a0 a1) := fun _ => Nat.zero_le _
theorem reduceScatter {a0 a1} : Statement (.reduceScatter a0 a1) := fun _ => Nat.zero_le _
theorem barrier {a0 a1} : Statement (.barrier a0 a1) := fun _ => Nat.zero_le _
theorem expMax {a0 a1} : Statement (.expMax a0 a1) := fun _ => Nat.zero_le _
theorem collStartAt {a0 a1} : Statement (.collStartAt a0 a1) := fun _ => Nat.zero_le _
theorem collDone {a0 a1} : Statement (.collDone a0 a1) := by
  intro h; simp [wellFormed, packetFits] at h; simp [carried]; omega
theorem collComplete {a0 a1} : Statement (.collComplete a0 a1) := by
  intro h; simp [wellFormed, packetFits] at h; simp [carried]; omega
theorem collDeadline {a0 a1} : Statement (.collDeadline a0 a1) := fun _ => Nat.zero_le _
theorem syncIn {a0} : Statement (.syncIn a0) := fun _ => Nat.zero_le _
theorem syncInLoss : Statement (.syncInLoss) := fun _ => Nat.zero_le _
theorem syncOutPulse : Statement (.syncOutPulse) := fun _ => Nat.zero_le _
theorem powerEpochBoundary : Statement (.powerEpochBoundary) := fun _ => Nat.zero_le _
theorem voteInstant : Statement (.voteInstant) := fun _ => Nat.zero_le _
theorem voteDeadline {a0} : Statement (.voteDeadline a0) := fun _ => Nat.zero_le _
theorem voltageOffset : Statement (.voltageOffset) := fun _ => Nat.zero_le _
theorem powerVote : Statement (.powerVote) := fun _ => Nat.zero_le _
theorem decide : Statement (.decide) := fun _ => Nat.zero_le _
theorem powerSample {a0} : Statement (.powerSample a0) := fun _ => Nat.zero_le _
theorem droopDetect {a0} : Statement (.droopDetect a0) := fun _ => Nat.zero_le _
theorem droopRelease {a0} : Statement (.droopRelease a0) := fun _ => Nat.zero_le _
theorem stretchDecay {a0} : Statement (.stretchDecay a0) := fun _ => Nat.zero_le _
theorem thermalSensorSample {a0 a1} : Statement (.thermalSensorSample a0 a1) := fun _ => Nat.zero_le _
theorem thermalTrip : Statement (.thermalTrip) := fun _ => Nat.zero_le _
theorem boostBucket : Statement (.boostBucket) := fun _ => Nat.zero_le _
theorem dispatch {a0} : Statement (.dispatch a0) := fun _ => Nat.zero_le _
theorem shelve {a0} : Statement (.shelve a0) := fun _ => Nat.zero_le _
theorem shelveSubmit {a0} : Statement (.shelveSubmit a0) := fun _ => Nat.zero_le _
theorem collective {a0} : Statement (.collective a0) := fun _ => Nat.zero_le _
theorem hint {a0} : Statement (.hint a0) := fun _ => Nat.zero_le _
theorem sync {a0} : Statement (.sync a0) := fun _ => Nat.zero_le _
theorem queueRead {a0 a1} : Statement (.queueRead a0 a1) := fun _ => Nat.zero_le _
theorem queueSwapIn {a0} : Statement (.queueSwapIn a0) := fun _ => Nat.zero_le _
theorem commandRelease {a0} : Statement (.commandRelease a0) := fun _ => Nat.zero_le _
theorem tilePlace {a0 a1} : Statement (.tilePlace a0 a1) := fun _ => Nat.zero_le _
theorem timesliceExpire {a0 a1} : Statement (.timesliceExpire a0 a1) := fun _ => Nat.zero_le _
theorem tileWatchdog {a0} : Statement (.tileWatchdog a0) := fun _ => Nat.zero_le _
theorem preemptGraceExpire {a0} : Statement (.preemptGraceExpire a0) := fun _ => Nat.zero_le _
theorem runtimeResponseTimeout {a0} : Statement (.runtimeResponseTimeout a0) := fun _ => Nat.zero_le _
theorem preemptAt {a0} : Statement (.preemptAt a0) := fun _ => Nat.zero_le _
theorem resumeAt {a0} : Statement (.resumeAt a0) := fun _ => Nat.zero_le _
theorem volPreemptRelay : Statement (.volPreemptRelay) := fun _ => Nat.zero_le _
theorem volPreemptReport : Statement (.volPreemptReport) := fun _ => Nat.zero_le _
theorem fmMessage : Statement (.fmMessage) := fun _ => Nat.zero_le _
theorem fmAck : Statement (.fmAck) := fun _ => Nat.zero_le _
theorem fmSendTimeout {a0} : Statement (.fmSendTimeout a0) := fun _ => Nat.zero_le _
theorem mbDb {a0 a1} : Statement (.mbDb a0 a1) := fun _ => Nat.zero_le _
theorem mailboxRead {a0 a1} : Statement (.mailboxRead a0 a1) := fun _ => Nat.zero_le _
theorem cmdDb {a0 a1 a2} : Statement (.cmdDb a0 a1 a2) := fun _ => Nat.zero_le _
theorem cplDb {a0 a1 a2} : Statement (.cplDb a0 a1 a2) := fun _ => Nat.zero_le _
theorem irqMaskWrite {a0 a1 a2} : Statement (.irqMaskWrite a0 a1 a2) := fun _ => Nat.zero_le _
theorem heartbeat : Statement (.heartbeat) := fun _ => Nat.zero_le _
theorem rsvdPolicy {a0} : Statement (.rsvdPolicy a0) := fun _ => Nat.zero_le _
theorem isolation {a0} : Statement (.isolation a0) := fun _ => Nat.zero_le _
theorem boostEn {a0} : Statement (.boostEn a0) := fun _ => Nat.zero_le _
theorem hintsEn {a0} : Statement (.hintsEn a0) := fun _ => Nat.zero_le _
theorem deviceId {a0} : Statement (.deviceId a0) := fun _ => Nat.zero_le _
theorem scrubPeriod {a0} : Statement (.scrubPeriod a0) := fun _ => Nat.zero_le _
theorem colophonRead {a0} : Statement (.colophonRead a0) := fun _ => Nat.zero_le _
theorem partMode {a0} : Statement (.partMode a0) := fun _ => Nat.zero_le _
theorem partReleaseDrain {a0} : Statement (.partReleaseDrain a0) := fun _ => Nat.zero_le _
theorem partReleaseSquash {a0} : Statement (.partReleaseSquash a0) := fun _ => Nat.zero_le _
theorem drainLimit {a0} : Statement (.drainLimit a0) := fun _ => Nat.zero_le _
theorem partitionScrub {a0} : Statement (.partitionScrub a0) := fun _ => Nat.zero_le _
theorem partQuiesce {a0} : Statement (.partQuiesce a0) := fun _ => Nat.zero_le _
theorem partQuiesceCancel {a0} : Statement (.partQuiesceCancel a0) := fun _ => Nat.zero_le _
theorem partExport {a0} : Statement (.partExport a0) := fun _ => Nat.zero_le _
theorem partImport {a0} : Statement (.partImport a0) := fun _ => Nat.zero_le _
theorem dsSet {a0} : Statement (.dsSet a0) := fun _ => Nat.zero_le _
theorem pwrCap {a0} : Statement (.pwrCap a0) := fun _ => Nat.zero_le _
theorem freqTarget {a0} : Statement (.freqTarget a0) := fun _ => Nat.zero_le _
theorem schedSet {a0} : Statement (.schedSet a0) := fun _ => Nat.zero_le _
theorem bwGuarantee {a0} : Statement (.bwGuarantee a0) := fun _ => Nat.zero_le _
theorem routeLoad {a0 a1} : Statement (.routeLoad a0 a1) := by
  intro h; simp [wellFormed] at h; simp [carried]; omega
theorem portConfig {a0} : Statement (.portConfig a0) := fun _ => Nat.zero_le _
theorem maintFuse {a0} : Statement (.maintFuse a0) := fun _ => Nat.zero_le _
theorem fmSend {a0} : Statement (.fmSend a0) := fun _ => Nat.zero_le _
theorem ctxCreate {a0} : Statement (.ctxCreate a0) := fun _ => Nat.zero_le _
theorem ctxSet {a0} : Statement (.ctxSet a0) := fun _ => Nat.zero_le _
theorem ctxResume {a0} : Statement (.ctxResume a0) := fun _ => Nat.zero_le _
theorem ctxDestroy {a0} : Statement (.ctxDestroy a0) := fun _ => Nat.zero_le _
theorem destroyTileKill {a0} : Statement (.destroyTileKill a0) := fun _ => Nat.zero_le _
theorem faultAck {a0} : Statement (.faultAck a0) := fun _ => Nat.zero_le _
theorem faultRetry {a0} : Statement (.faultRetry a0) := fun _ => Nat.zero_le _
theorem faultAbort {a0} : Statement (.faultAbort a0) := fun _ => Nat.zero_le _
theorem queueCreate {a0} : Statement (.queueCreate a0) := fun _ => Nat.zero_le _
theorem queueDestroy {a0} : Statement (.queueDestroy a0) := fun _ => Nat.zero_le _
theorem imageRegister {a0} : Statement (.imageRegister a0) := fun _ => Nat.zero_le _
theorem imageUnregister {a0} : Statement (.imageUnregister a0) := fun _ => Nat.zero_le _
theorem memAlloc {a0} : Statement (.memAlloc a0) := fun _ => Nat.zero_le _
theorem memImport {a0} : Statement (.memImport a0) := fun _ => Nat.zero_le _
theorem memFree {a0} : Statement (.memFree a0) := fun _ => Nat.zero_le _
theorem memReclaim {a0} : Statement (.memReclaim a0) := fun _ => Nat.zero_le _
theorem fenceTable {a0} : Statement (.fenceTable a0) := fun _ => Nat.zero_le _
theorem fenceAlloc {a0} : Statement (.fenceAlloc a0) := fun _ => Nat.zero_le _
theorem fenceSignal {a0} : Statement (.fenceSignal a0) := fun _ => Nat.zero_le _
theorem fenceReset {a0} : Statement (.fenceReset a0) := fun _ => Nat.zero_le _
theorem fenceFree {a0} : Statement (.fenceFree a0) := fun _ => Nat.zero_le _
theorem fenceWait {a0} : Statement (.fenceWait a0) := fun _ => Nat.zero_le _
theorem catInvalidate {a0} : Statement (.catInvalidate a0) := fun _ => Nat.zero_le _
theorem dlogSet {a0} : Statement (.dlogSet a0) := fun _ => Nat.zero_le _
theorem dlogReturn {a0} : Statement (.dlogReturn a0) := fun _ => Nat.zero_le _
theorem winSet {a0} : Statement (.winSet a0) := fun _ => Nat.zero_le _
theorem winClear {a0} : Statement (.winClear a0) := fun _ => Nat.zero_le _
theorem ledgerRing {a0} : Statement (.ledgerRing a0) := fun _ => Nat.zero_le _
theorem ledgerAck {a0} : Statement (.ledgerAck a0) := fun _ => Nat.zero_le _
theorem ledgerQuery {a0} : Statement (.ledgerQuery a0) := fun _ => Nat.zero_le _
theorem volCreate {a0 a1} : Statement (.volCreate a0 a1) := by
  intro h; simp [wellFormed, mapFits] at h; simp [carried]; omega
theorem volModify {a0 a1} : Statement (.volModify a0 a1) := by
  intro h; simp [wellFormed, mapFits] at h; simp [carried]; omega
theorem volDestroy {a0} : Statement (.volDestroy a0) := fun _ => Nat.zero_le _
theorem volRecover {a0} : Statement (.volRecover a0) := fun _ => Nat.zero_le _
theorem volPreempt {a0} : Statement (.volPreempt a0) := fun _ => Nat.zero_le _
theorem volResume {a0} : Statement (.volResume a0) := fun _ => Nat.zero_le _
theorem shelfMigrateCopy {a0} : Statement (.shelfMigrateCopy a0) := fun _ => Nat.zero_le _
theorem shelfMigrateFinish {a0} : Statement (.shelfMigrateFinish a0) := fun _ => Nat.zero_le _
theorem sealPolicy {a0 a1} : Statement (.sealPolicy a0 a1) := by
  intro h; simp [wellFormed, policyFits] at h; simp [carried]; omega
theorem attest {a0} : Statement (.attest a0) := fun _ => Nat.zero_le _
theorem keyImport {a0 a1} : Statement (.keyImport a0 a1) := by
  intro h; simp [wellFormed] at h; simp [carried]; omega
theorem keyDestroy {a0} : Statement (.keyDestroy a0) := fun _ => Nat.zero_le _
theorem peerRead {a0} : Statement (.peerRead a0) := fun _ => Nat.zero_le _
theorem lcReturnChallenge {a0} : Statement (.lcReturnChallenge a0) := fun _ => Nat.zero_le _
theorem lcReturnToken {a0 a1} : Statement (.lcReturnToken a0 a1) := by
  intro h; simp [wellFormed] at h; simp [carried]; omega
theorem peerStateFailed {a0} : Statement (.peerStateFailed a0) := fun _ => Nat.zero_le _
theorem peerStateRestored {a0} : Statement (.peerStateRestored a0) := fun _ => Nat.zero_le _
theorem partReset {a0} : Statement (.partReset a0) := fun _ => Nat.zero_le _
theorem deviceReset {a0} : Statement (.deviceReset a0) := fun _ => Nat.zero_le _
theorem rdNc {a0 a1} : Statement (.rdNc a0 a1) := by
  intro h; simp [wellFormed, messageFits] at h; simp [carried]; omega
theorem wrNc {a0 a1} : Statement (.wrNc a0 a1) := by
  intro h; simp [wellFormed, messageFits] at h; simp [carried]; omega
theorem otAtomic {a0 a1} : Statement (.otAtomic a0 a1) := by
  intro h; simp [wellFormed, messageFits] at h; simp [carried]; omega
theorem regRd {a0 a1} : Statement (.regRd a0 a1) := by
  intro h; simp [wellFormed, messageFits] at h; simp [carried]; omega
theorem regWr {a0 a1} : Statement (.regWr a0 a1) := by
  intro h; simp [wellFormed, messageFits] at h; simp [carried]; omega
theorem timeReq {a0 a1} : Statement (.timeReq a0 a1) := by
  intro h; simp [wellFormed, messageFits] at h; simp [carried]; omega
theorem data {a0 a1} : Statement (.data a0 a1) := by
  intro h; simp [wellFormed, messageFits] at h; simp [carried]; omega
theorem ack {a0 a1} : Statement (.ack a0 a1) := by
  intro h; simp [wellFormed, messageFits] at h; simp [carried]; omega
theorem cmDeadline {a0} : Statement (.cmDeadline a0) := fun _ => Nat.zero_le _
theorem otLaneFail {a0 a1} : Statement (.otLaneFail a0 a1) := fun _ => Nat.zero_le _
theorem otRetrain {a0} : Statement (.otRetrain a0) := fun _ => Nat.zero_le _
theorem tamper : Statement (.tamper) := fun _ => Nat.zero_le _
theorem getProvenance {a0} : Statement (.getProvenance a0) := fun _ => Nat.zero_le _
theorem getTelemetry : Statement (.getTelemetry) := fun _ => Nat.zero_le _
theorem setPwrCap {a0} : Statement (.setPwrCap a0) := fun _ => Nat.zero_le _
theorem getResetStatus : Statement (.getResetStatus) := fun _ => Nat.zero_le _
theorem clearAlert {a0} : Statement (.clearAlert a0) := fun _ => Nat.zero_le _
theorem telemetryRefresh : Statement (.telemetryRefresh) := fun _ => Nat.zero_le _
theorem powerOnReset : Statement (.powerOnReset) := fun _ => Nat.zero_le _
theorem railBelowThreshold : Statement (.railBelowThreshold) := fun _ => Nat.zero_le _
theorem resetNFall : Statement (.resetNFall) := fun _ => Nat.zero_le _
theorem shortPulse : Statement (.shortPulse) := fun _ => Nat.zero_le _
theorem resetNAssert : Statement (.resetNAssert) := fun _ => Nat.zero_le _
theorem resetNRise {a0 a1 a2 a3} : Statement (.resetNRise a0 a1 a2 a3) := fun _ => Nat.zero_le _
theorem imageReadDone {a0 a1} : Statement (.imageReadDone a0 a1) := by
  intro h; simp [wellFormed, imageFits] at h; simp [carried]; omega
theorem bootLoad : Statement (.bootLoad) := fun _ => Nat.zero_le _
theorem retrySource : Statement (.retrySource) := fun _ => Nat.zero_le _
theorem registrarWatchdog : Statement (.registrarWatchdog) := fun _ => Nat.zero_le _
theorem lockstepMismatch {a0} : Statement (.lockstepMismatch a0) := fun _ => Nat.zero_le _
theorem pairResetDone {a0} : Statement (.pairResetDone a0) := fun _ => Nat.zero_le _
theorem registrarRestart : Statement (.registrarRestart) := fun _ => Nat.zero_le _
theorem stepTimerOverrun {a0 a1} : Statement (.stepTimerOverrun a0 a1) := fun _ => Nat.zero_le _
theorem deviceFatal {a0} : Statement (.deviceFatal a0) := fun _ => Nat.zero_le _
theorem deviceWarmReset {a0} : Statement (.deviceWarmReset a0) := fun _ => Nat.zero_le _
theorem bypass : Statement (.bypass) := fun _ => Nat.zero_le _
theorem idcode : Statement (.idcode) := fun _ => Nat.zero_le _
theorem samplePreload {a0} : Statement (.samplePreload a0) := fun _ => Nat.zero_le _
theorem clamp : Statement (.clamp) := fun _ => Nat.zero_le _
theorem highz : Statement (.highz) := fun _ => Nat.zero_le _
theorem extest {a0} : Statement (.extest a0) := fun _ => Nat.zero_le _
theorem extestPulse {a0} : Statement (.extestPulse a0) := fun _ => Nat.zero_le _
theorem extestTrain {a0} : Statement (.extestTrain a0) := fun _ => Nat.zero_le _
theorem refclkPresent : Statement (.refclkPresent) := fun _ => Nat.zero_le _
theorem coreResetDone {a0 a1} : Statement (.coreResetDone a0 a1) := fun _ => Nat.zero_le _
theorem bayResetDone {a0} : Statement (.bayResetDone a0) := fun _ => Nat.zero_le _
theorem shelverResetDone {a0} : Statement (.shelverResetDone a0) := fun _ => Nat.zero_le _
theorem mscFlushLimit {a0} : Statement (.mscFlushLimit a0) := fun _ => Nat.zero_le _
theorem volPreemptTimeout {a0} : Statement (.volPreemptTimeout a0) := fun _ => Nat.zero_le _
theorem mailboxDeadline {a0} : Statement (.mailboxDeadline a0) := fun _ => Nat.zero_le _
theorem kemKeyExpiry {a0} : Statement (.kemKeyExpiry a0) := fun _ => Nat.zero_le _
theorem fusePulseEnd : Statement (.fusePulseEnd) := fun _ => Nat.zero_le _
theorem smbusClockLowTimeout : Statement (.smbusClockLowTimeout) := fun _ => Nat.zero_le _
theorem missFixedResume {a0} : Statement (.missFixedResume a0) := fun _ => Nat.zero_le _
theorem mailboxFixedAnswer {a0} : Statement (.mailboxFixedAnswer a0) := fun _ => Nat.zero_le _
theorem correctedReportInterval {a0} : Statement (.correctedReportInterval a0) := fun _ => Nat.zero_le _
theorem collAbort {a0 a1} : Statement (.collAbort a0 a1) := fun _ => Nat.zero_le _

end Sys2Proof.Laws.WF
end

