-- ==== Sys2Proof/Laws/State.lean ====
section
/-! SUPPORT. The fields of State after each update, by definition, and what the accessors read back. -/

namespace Sys2Proof.Machine

set_option Elab.async false

@[simp] theorem State.setBay_pending {s : State} {b : Nat} {x : Bay} : (s.setBay b x).pending = s.pending := rfl
@[simp] theorem State.setBay_free {s : State} {b : Nat} {x : Bay} : (s.setBay b x).free = s.free := rfl
@[simp] theorem State.setBay_now {s : State} {b : Nat} {x : Bay} : (s.setBay b x).now = s.now := rfl
@[simp] theorem State.setBay_mode {s : State} {b : Nat} {x : Bay} : (s.setBay b x).mode = s.mode := rfl
@[simp] theorem State.setBay_bays {s : State} {b : Nat} {x : Bay} : (s.setBay b x).bays = Tbl.put s.bays b x := rfl
@[simp] theorem State.setBay_nets {s : State} {b : Nat} {x : Bay} : (s.setBay b x).nets = s.nets := rfl
@[simp] theorem State.setBay_reports {s : State} {b : Nat} {x : Bay} : (s.setBay b x).reports = s.reports := rfl
@[simp] theorem State.setBay_hbm {s : State} {b : Nat} {x : Bay} : (s.setBay b x).hbm = s.hbm := rfl
@[simp] theorem State.setBay_mem {s : State} {b : Nat} {x : Bay} : (s.setBay b x).mem = s.mem := rfl
@[simp] theorem State.setBay_shelvers {s : State} {b : Nat} {x : Bay} : (s.setBay b x).shelvers = s.shelvers := rfl
@[simp] theorem State.setBay_cat {s : State} {b : Nat} {x : Bay} : (s.setBay b x).cat = s.cat := rfl
@[simp] theorem State.setBay_fab {s : State} {b : Nat} {x : Bay} : (s.setBay b x).fab = s.fab := rfl
@[simp] theorem State.setBay_sites {s : State} {b : Nat} {x : Bay} : (s.setBay b x).sites = s.sites := rfl
@[simp] theorem State.setBay_vols {s : State} {b : Nat} {x : Bay} : (s.setBay b x).vols = s.vols := rfl
@[simp] theorem State.setBay_sec {s : State} {b : Nat} {x : Bay} : (s.setBay b x).sec = s.sec := rfl
@[simp] theorem State.setBay_smb {s : State} {b : Nat} {x : Bay} : (s.setBay b x).smb = s.smb := rfl
@[simp] theorem State.setBay_work {s : State} {b : Nat} {x : Bay} : (s.setBay b x).work = s.work := rfl
@[simp] theorem State.setBay_fns {s : State} {b : Nat} {x : Bay} : (s.setBay b x).fns = s.fns := rfl
@[simp] theorem State.setBay_parts {s : State} {b : Nat} {x : Bay} : (s.setBay b x).parts = s.parts := rfl
@[simp] theorem State.setBay_colophon {s : State} {b : Nat} {x : Bay} : (s.setBay b x).colophon = s.colophon := rfl
@[simp] theorem State.setBay_corr {s : State} {b : Nat} {x : Bay} : (s.setBay b x).corr = s.corr := rfl
@[simp] theorem State.setBay_ot {s : State} {b : Nat} {x : Bay} : (s.setBay b x).ot = s.ot := rfl
@[simp] theorem State.setBay_pwr {s : State} {b : Nat} {x : Bay} : (s.setBay b x).pwr = s.pwr := rfl
@[simp] theorem State.setBay_regs {s : State} {b : Nat} {x : Bay} : (s.setBay b x).regs = s.regs := rfl
@[simp] theorem State.setBay_seq {s : State} {b : Nat} {x : Bay} : (s.setBay b x).seq = s.seq := rfl

@[simp] theorem State.modBay_pending {s : State} {b : Nat} {f : Bay → Bay} : (s.modBay b f).pending = s.pending := rfl
@[simp] theorem State.modBay_free {s : State} {b : Nat} {f : Bay → Bay} : (s.modBay b f).free = s.free := rfl
@[simp] theorem State.modBay_now {s : State} {b : Nat} {f : Bay → Bay} : (s.modBay b f).now = s.now := rfl
@[simp] theorem State.modBay_mode {s : State} {b : Nat} {f : Bay → Bay} : (s.modBay b f).mode = s.mode := rfl
@[simp] theorem State.modBay_bays {s : State} {b : Nat} {f : Bay → Bay} : (s.modBay b f).bays = Tbl.put s.bays b (f (s.bay b)) := rfl
@[simp] theorem State.modBay_nets {s : State} {b : Nat} {f : Bay → Bay} : (s.modBay b f).nets = s.nets := rfl
@[simp] theorem State.modBay_reports {s : State} {b : Nat} {f : Bay → Bay} : (s.modBay b f).reports = s.reports := rfl
@[simp] theorem State.modBay_hbm {s : State} {b : Nat} {f : Bay → Bay} : (s.modBay b f).hbm = s.hbm := rfl
@[simp] theorem State.modBay_mem {s : State} {b : Nat} {f : Bay → Bay} : (s.modBay b f).mem = s.mem := rfl
@[simp] theorem State.modBay_shelvers {s : State} {b : Nat} {f : Bay → Bay} : (s.modBay b f).shelvers = s.shelvers := rfl
@[simp] theorem State.modBay_cat {s : State} {b : Nat} {f : Bay → Bay} : (s.modBay b f).cat = s.cat := rfl
@[simp] theorem State.modBay_fab {s : State} {b : Nat} {f : Bay → Bay} : (s.modBay b f).fab = s.fab := rfl
@[simp] theorem State.modBay_sites {s : State} {b : Nat} {f : Bay → Bay} : (s.modBay b f).sites = s.sites := rfl
@[simp] theorem State.modBay_vols {s : State} {b : Nat} {f : Bay → Bay} : (s.modBay b f).vols = s.vols := rfl
@[simp] theorem State.modBay_sec {s : State} {b : Nat} {f : Bay → Bay} : (s.modBay b f).sec = s.sec := rfl
@[simp] theorem State.modBay_smb {s : State} {b : Nat} {f : Bay → Bay} : (s.modBay b f).smb = s.smb := rfl
@[simp] theorem State.modBay_work {s : State} {b : Nat} {f : Bay → Bay} : (s.modBay b f).work = s.work := rfl
@[simp] theorem State.modBay_fns {s : State} {b : Nat} {f : Bay → Bay} : (s.modBay b f).fns = s.fns := rfl
@[simp] theorem State.modBay_parts {s : State} {b : Nat} {f : Bay → Bay} : (s.modBay b f).parts = s.parts := rfl
@[simp] theorem State.modBay_colophon {s : State} {b : Nat} {f : Bay → Bay} : (s.modBay b f).colophon = s.colophon := rfl
@[simp] theorem State.modBay_corr {s : State} {b : Nat} {f : Bay → Bay} : (s.modBay b f).corr = s.corr := rfl
@[simp] theorem State.modBay_ot {s : State} {b : Nat} {f : Bay → Bay} : (s.modBay b f).ot = s.ot := rfl
@[simp] theorem State.modBay_pwr {s : State} {b : Nat} {f : Bay → Bay} : (s.modBay b f).pwr = s.pwr := rfl
@[simp] theorem State.modBay_regs {s : State} {b : Nat} {f : Bay → Bay} : (s.modBay b f).regs = s.regs := rfl
@[simp] theorem State.modBay_seq {s : State} {b : Nat} {f : Bay → Bay} : (s.modBay b f).seq = s.seq := rfl

@[simp] theorem State.setStack_pending {s : State} {b : Nat} {x : Stack} : (s.setStack b x).pending = s.pending := rfl
@[simp] theorem State.setStack_free {s : State} {b : Nat} {x : Stack} : (s.setStack b x).free = s.free := rfl
@[simp] theorem State.setStack_now {s : State} {b : Nat} {x : Stack} : (s.setStack b x).now = s.now := rfl
@[simp] theorem State.setStack_mode {s : State} {b : Nat} {x : Stack} : (s.setStack b x).mode = s.mode := rfl
@[simp] theorem State.setStack_bays {s : State} {b : Nat} {x : Stack} : (s.setStack b x).bays = s.bays := rfl
@[simp] theorem State.setStack_nets {s : State} {b : Nat} {x : Stack} : (s.setStack b x).nets = s.nets := rfl
@[simp] theorem State.setStack_reports {s : State} {b : Nat} {x : Stack} : (s.setStack b x).reports = s.reports := rfl
@[simp] theorem State.setStack_hbm {s : State} {b : Nat} {x : Stack} : (s.setStack b x).hbm = Tbl.put s.hbm b x := rfl
@[simp] theorem State.setStack_mem {s : State} {b : Nat} {x : Stack} : (s.setStack b x).mem = s.mem := rfl
@[simp] theorem State.setStack_shelvers {s : State} {b : Nat} {x : Stack} : (s.setStack b x).shelvers = s.shelvers := rfl
@[simp] theorem State.setStack_cat {s : State} {b : Nat} {x : Stack} : (s.setStack b x).cat = s.cat := rfl
@[simp] theorem State.setStack_fab {s : State} {b : Nat} {x : Stack} : (s.setStack b x).fab = s.fab := rfl
@[simp] theorem State.setStack_sites {s : State} {b : Nat} {x : Stack} : (s.setStack b x).sites = s.sites := rfl
@[simp] theorem State.setStack_vols {s : State} {b : Nat} {x : Stack} : (s.setStack b x).vols = s.vols := rfl
@[simp] theorem State.setStack_sec {s : State} {b : Nat} {x : Stack} : (s.setStack b x).sec = s.sec := rfl
@[simp] theorem State.setStack_smb {s : State} {b : Nat} {x : Stack} : (s.setStack b x).smb = s.smb := rfl
@[simp] theorem State.setStack_work {s : State} {b : Nat} {x : Stack} : (s.setStack b x).work = s.work := rfl
@[simp] theorem State.setStack_fns {s : State} {b : Nat} {x : Stack} : (s.setStack b x).fns = s.fns := rfl
@[simp] theorem State.setStack_parts {s : State} {b : Nat} {x : Stack} : (s.setStack b x).parts = s.parts := rfl
@[simp] theorem State.setStack_colophon {s : State} {b : Nat} {x : Stack} : (s.setStack b x).colophon = s.colophon := rfl
@[simp] theorem State.setStack_corr {s : State} {b : Nat} {x : Stack} : (s.setStack b x).corr = s.corr := rfl
@[simp] theorem State.setStack_ot {s : State} {b : Nat} {x : Stack} : (s.setStack b x).ot = s.ot := rfl
@[simp] theorem State.setStack_pwr {s : State} {b : Nat} {x : Stack} : (s.setStack b x).pwr = s.pwr := rfl
@[simp] theorem State.setStack_regs {s : State} {b : Nat} {x : Stack} : (s.setStack b x).regs = s.regs := rfl
@[simp] theorem State.setStack_seq {s : State} {b : Nat} {x : Stack} : (s.setStack b x).seq = s.seq := rfl

@[simp] theorem State.modStack_pending {s : State} {b : Nat} {f : Stack → Stack} : (s.modStack b f).pending = s.pending := rfl
@[simp] theorem State.modStack_free {s : State} {b : Nat} {f : Stack → Stack} : (s.modStack b f).free = s.free := rfl
@[simp] theorem State.modStack_now {s : State} {b : Nat} {f : Stack → Stack} : (s.modStack b f).now = s.now := rfl
@[simp] theorem State.modStack_mode {s : State} {b : Nat} {f : Stack → Stack} : (s.modStack b f).mode = s.mode := rfl
@[simp] theorem State.modStack_bays {s : State} {b : Nat} {f : Stack → Stack} : (s.modStack b f).bays = s.bays := rfl
@[simp] theorem State.modStack_nets {s : State} {b : Nat} {f : Stack → Stack} : (s.modStack b f).nets = s.nets := rfl
@[simp] theorem State.modStack_reports {s : State} {b : Nat} {f : Stack → Stack} : (s.modStack b f).reports = s.reports := rfl
@[simp] theorem State.modStack_hbm {s : State} {b : Nat} {f : Stack → Stack} : (s.modStack b f).hbm = Tbl.put s.hbm b (f (s.stack b)) := rfl
@[simp] theorem State.modStack_mem {s : State} {b : Nat} {f : Stack → Stack} : (s.modStack b f).mem = s.mem := rfl
@[simp] theorem State.modStack_shelvers {s : State} {b : Nat} {f : Stack → Stack} : (s.modStack b f).shelvers = s.shelvers := rfl
@[simp] theorem State.modStack_cat {s : State} {b : Nat} {f : Stack → Stack} : (s.modStack b f).cat = s.cat := rfl
@[simp] theorem State.modStack_fab {s : State} {b : Nat} {f : Stack → Stack} : (s.modStack b f).fab = s.fab := rfl
@[simp] theorem State.modStack_sites {s : State} {b : Nat} {f : Stack → Stack} : (s.modStack b f).sites = s.sites := rfl
@[simp] theorem State.modStack_vols {s : State} {b : Nat} {f : Stack → Stack} : (s.modStack b f).vols = s.vols := rfl
@[simp] theorem State.modStack_sec {s : State} {b : Nat} {f : Stack → Stack} : (s.modStack b f).sec = s.sec := rfl
@[simp] theorem State.modStack_smb {s : State} {b : Nat} {f : Stack → Stack} : (s.modStack b f).smb = s.smb := rfl
@[simp] theorem State.modStack_work {s : State} {b : Nat} {f : Stack → Stack} : (s.modStack b f).work = s.work := rfl
@[simp] theorem State.modStack_fns {s : State} {b : Nat} {f : Stack → Stack} : (s.modStack b f).fns = s.fns := rfl
@[simp] theorem State.modStack_parts {s : State} {b : Nat} {f : Stack → Stack} : (s.modStack b f).parts = s.parts := rfl
@[simp] theorem State.modStack_colophon {s : State} {b : Nat} {f : Stack → Stack} : (s.modStack b f).colophon = s.colophon := rfl
@[simp] theorem State.modStack_corr {s : State} {b : Nat} {f : Stack → Stack} : (s.modStack b f).corr = s.corr := rfl
@[simp] theorem State.modStack_ot {s : State} {b : Nat} {f : Stack → Stack} : (s.modStack b f).ot = s.ot := rfl
@[simp] theorem State.modStack_pwr {s : State} {b : Nat} {f : Stack → Stack} : (s.modStack b f).pwr = s.pwr := rfl
@[simp] theorem State.modStack_regs {s : State} {b : Nat} {f : Stack → Stack} : (s.modStack b f).regs = s.regs := rfl
@[simp] theorem State.modStack_seq {s : State} {b : Nat} {f : Stack → Stack} : (s.modStack b f).seq = s.seq := rfl

@[simp] theorem State.setFn_pending {s : State} {b : Nat} {x : Fn} : (s.setFn b x).pending = s.pending := rfl
@[simp] theorem State.setFn_free {s : State} {b : Nat} {x : Fn} : (s.setFn b x).free = s.free := rfl
@[simp] theorem State.setFn_now {s : State} {b : Nat} {x : Fn} : (s.setFn b x).now = s.now := rfl
@[simp] theorem State.setFn_mode {s : State} {b : Nat} {x : Fn} : (s.setFn b x).mode = s.mode := rfl
@[simp] theorem State.setFn_bays {s : State} {b : Nat} {x : Fn} : (s.setFn b x).bays = s.bays := rfl
@[simp] theorem State.setFn_nets {s : State} {b : Nat} {x : Fn} : (s.setFn b x).nets = s.nets := rfl
@[simp] theorem State.setFn_reports {s : State} {b : Nat} {x : Fn} : (s.setFn b x).reports = s.reports := rfl
@[simp] theorem State.setFn_hbm {s : State} {b : Nat} {x : Fn} : (s.setFn b x).hbm = s.hbm := rfl
@[simp] theorem State.setFn_mem {s : State} {b : Nat} {x : Fn} : (s.setFn b x).mem = s.mem := rfl
@[simp] theorem State.setFn_shelvers {s : State} {b : Nat} {x : Fn} : (s.setFn b x).shelvers = s.shelvers := rfl
@[simp] theorem State.setFn_cat {s : State} {b : Nat} {x : Fn} : (s.setFn b x).cat = s.cat := rfl
@[simp] theorem State.setFn_fab {s : State} {b : Nat} {x : Fn} : (s.setFn b x).fab = s.fab := rfl
@[simp] theorem State.setFn_sites {s : State} {b : Nat} {x : Fn} : (s.setFn b x).sites = s.sites := rfl
@[simp] theorem State.setFn_vols {s : State} {b : Nat} {x : Fn} : (s.setFn b x).vols = s.vols := rfl
@[simp] theorem State.setFn_sec {s : State} {b : Nat} {x : Fn} : (s.setFn b x).sec = s.sec := rfl
@[simp] theorem State.setFn_smb {s : State} {b : Nat} {x : Fn} : (s.setFn b x).smb = s.smb := rfl
@[simp] theorem State.setFn_work {s : State} {b : Nat} {x : Fn} : (s.setFn b x).work = s.work := rfl
@[simp] theorem State.setFn_fns {s : State} {b : Nat} {x : Fn} : (s.setFn b x).fns = Tbl.put s.fns b x := rfl
@[simp] theorem State.setFn_parts {s : State} {b : Nat} {x : Fn} : (s.setFn b x).parts = s.parts := rfl
@[simp] theorem State.setFn_colophon {s : State} {b : Nat} {x : Fn} : (s.setFn b x).colophon = s.colophon := rfl
@[simp] theorem State.setFn_corr {s : State} {b : Nat} {x : Fn} : (s.setFn b x).corr = s.corr := rfl
@[simp] theorem State.setFn_ot {s : State} {b : Nat} {x : Fn} : (s.setFn b x).ot = s.ot := rfl
@[simp] theorem State.setFn_pwr {s : State} {b : Nat} {x : Fn} : (s.setFn b x).pwr = s.pwr := rfl
@[simp] theorem State.setFn_regs {s : State} {b : Nat} {x : Fn} : (s.setFn b x).regs = s.regs := rfl
@[simp] theorem State.setFn_seq {s : State} {b : Nat} {x : Fn} : (s.setFn b x).seq = s.seq := rfl

@[simp] theorem State.modFn_pending {s : State} {b : Nat} {f : Fn → Fn} : (s.modFn b f).pending = s.pending := rfl
@[simp] theorem State.modFn_free {s : State} {b : Nat} {f : Fn → Fn} : (s.modFn b f).free = s.free := rfl
@[simp] theorem State.modFn_now {s : State} {b : Nat} {f : Fn → Fn} : (s.modFn b f).now = s.now := rfl
@[simp] theorem State.modFn_mode {s : State} {b : Nat} {f : Fn → Fn} : (s.modFn b f).mode = s.mode := rfl
@[simp] theorem State.modFn_bays {s : State} {b : Nat} {f : Fn → Fn} : (s.modFn b f).bays = s.bays := rfl
@[simp] theorem State.modFn_nets {s : State} {b : Nat} {f : Fn → Fn} : (s.modFn b f).nets = s.nets := rfl
@[simp] theorem State.modFn_reports {s : State} {b : Nat} {f : Fn → Fn} : (s.modFn b f).reports = s.reports := rfl
@[simp] theorem State.modFn_hbm {s : State} {b : Nat} {f : Fn → Fn} : (s.modFn b f).hbm = s.hbm := rfl
@[simp] theorem State.modFn_mem {s : State} {b : Nat} {f : Fn → Fn} : (s.modFn b f).mem = s.mem := rfl
@[simp] theorem State.modFn_shelvers {s : State} {b : Nat} {f : Fn → Fn} : (s.modFn b f).shelvers = s.shelvers := rfl
@[simp] theorem State.modFn_cat {s : State} {b : Nat} {f : Fn → Fn} : (s.modFn b f).cat = s.cat := rfl
@[simp] theorem State.modFn_fab {s : State} {b : Nat} {f : Fn → Fn} : (s.modFn b f).fab = s.fab := rfl
@[simp] theorem State.modFn_sites {s : State} {b : Nat} {f : Fn → Fn} : (s.modFn b f).sites = s.sites := rfl
@[simp] theorem State.modFn_vols {s : State} {b : Nat} {f : Fn → Fn} : (s.modFn b f).vols = s.vols := rfl
@[simp] theorem State.modFn_sec {s : State} {b : Nat} {f : Fn → Fn} : (s.modFn b f).sec = s.sec := rfl
@[simp] theorem State.modFn_smb {s : State} {b : Nat} {f : Fn → Fn} : (s.modFn b f).smb = s.smb := rfl
@[simp] theorem State.modFn_work {s : State} {b : Nat} {f : Fn → Fn} : (s.modFn b f).work = s.work := rfl
@[simp] theorem State.modFn_fns {s : State} {b : Nat} {f : Fn → Fn} : (s.modFn b f).fns = Tbl.put s.fns b (f (s.fn b)) := rfl
@[simp] theorem State.modFn_parts {s : State} {b : Nat} {f : Fn → Fn} : (s.modFn b f).parts = s.parts := rfl
@[simp] theorem State.modFn_colophon {s : State} {b : Nat} {f : Fn → Fn} : (s.modFn b f).colophon = s.colophon := rfl
@[simp] theorem State.modFn_corr {s : State} {b : Nat} {f : Fn → Fn} : (s.modFn b f).corr = s.corr := rfl
@[simp] theorem State.modFn_ot {s : State} {b : Nat} {f : Fn → Fn} : (s.modFn b f).ot = s.ot := rfl
@[simp] theorem State.modFn_pwr {s : State} {b : Nat} {f : Fn → Fn} : (s.modFn b f).pwr = s.pwr := rfl
@[simp] theorem State.modFn_regs {s : State} {b : Nat} {f : Fn → Fn} : (s.modFn b f).regs = s.regs := rfl
@[simp] theorem State.modFn_seq {s : State} {b : Nat} {f : Fn → Fn} : (s.modFn b f).seq = s.seq := rfl

@[simp] theorem State.setPart_pending {s : State} {b : Nat} {x : Part} : (s.setPart b x).pending = s.pending := rfl
@[simp] theorem State.setPart_free {s : State} {b : Nat} {x : Part} : (s.setPart b x).free = s.free := rfl
@[simp] theorem State.setPart_now {s : State} {b : Nat} {x : Part} : (s.setPart b x).now = s.now := rfl
@[simp] theorem State.setPart_mode {s : State} {b : Nat} {x : Part} : (s.setPart b x).mode = s.mode := rfl
@[simp] theorem State.setPart_bays {s : State} {b : Nat} {x : Part} : (s.setPart b x).bays = s.bays := rfl
@[simp] theorem State.setPart_nets {s : State} {b : Nat} {x : Part} : (s.setPart b x).nets = s.nets := rfl
@[simp] theorem State.setPart_reports {s : State} {b : Nat} {x : Part} : (s.setPart b x).reports = s.reports := rfl
@[simp] theorem State.setPart_hbm {s : State} {b : Nat} {x : Part} : (s.setPart b x).hbm = s.hbm := rfl
@[simp] theorem State.setPart_mem {s : State} {b : Nat} {x : Part} : (s.setPart b x).mem = s.mem := rfl
@[simp] theorem State.setPart_shelvers {s : State} {b : Nat} {x : Part} : (s.setPart b x).shelvers = s.shelvers := rfl
@[simp] theorem State.setPart_cat {s : State} {b : Nat} {x : Part} : (s.setPart b x).cat = s.cat := rfl
@[simp] theorem State.setPart_fab {s : State} {b : Nat} {x : Part} : (s.setPart b x).fab = s.fab := rfl
@[simp] theorem State.setPart_sites {s : State} {b : Nat} {x : Part} : (s.setPart b x).sites = s.sites := rfl
@[simp] theorem State.setPart_vols {s : State} {b : Nat} {x : Part} : (s.setPart b x).vols = s.vols := rfl
@[simp] theorem State.setPart_sec {s : State} {b : Nat} {x : Part} : (s.setPart b x).sec = s.sec := rfl
@[simp] theorem State.setPart_smb {s : State} {b : Nat} {x : Part} : (s.setPart b x).smb = s.smb := rfl
@[simp] theorem State.setPart_work {s : State} {b : Nat} {x : Part} : (s.setPart b x).work = s.work := rfl
@[simp] theorem State.setPart_fns {s : State} {b : Nat} {x : Part} : (s.setPart b x).fns = s.fns := rfl
@[simp] theorem State.setPart_parts {s : State} {b : Nat} {x : Part} : (s.setPart b x).parts = Tbl.put s.parts b x := rfl
@[simp] theorem State.setPart_colophon {s : State} {b : Nat} {x : Part} : (s.setPart b x).colophon = s.colophon := rfl
@[simp] theorem State.setPart_corr {s : State} {b : Nat} {x : Part} : (s.setPart b x).corr = s.corr := rfl
@[simp] theorem State.setPart_ot {s : State} {b : Nat} {x : Part} : (s.setPart b x).ot = s.ot := rfl
@[simp] theorem State.setPart_pwr {s : State} {b : Nat} {x : Part} : (s.setPart b x).pwr = s.pwr := rfl
@[simp] theorem State.setPart_regs {s : State} {b : Nat} {x : Part} : (s.setPart b x).regs = s.regs := rfl
@[simp] theorem State.setPart_seq {s : State} {b : Nat} {x : Part} : (s.setPart b x).seq = s.seq := rfl

@[simp] theorem State.modPart_pending {s : State} {b : Nat} {f : Part → Part} : (s.modPart b f).pending = s.pending := rfl
@[simp] theorem State.modPart_free {s : State} {b : Nat} {f : Part → Part} : (s.modPart b f).free = s.free := rfl
@[simp] theorem State.modPart_now {s : State} {b : Nat} {f : Part → Part} : (s.modPart b f).now = s.now := rfl
@[simp] theorem State.modPart_mode {s : State} {b : Nat} {f : Part → Part} : (s.modPart b f).mode = s.mode := rfl
@[simp] theorem State.modPart_bays {s : State} {b : Nat} {f : Part → Part} : (s.modPart b f).bays = s.bays := rfl
@[simp] theorem State.modPart_nets {s : State} {b : Nat} {f : Part → Part} : (s.modPart b f).nets = s.nets := rfl
@[simp] theorem State.modPart_reports {s : State} {b : Nat} {f : Part → Part} : (s.modPart b f).reports = s.reports := rfl
@[simp] theorem State.modPart_hbm {s : State} {b : Nat} {f : Part → Part} : (s.modPart b f).hbm = s.hbm := rfl
@[simp] theorem State.modPart_mem {s : State} {b : Nat} {f : Part → Part} : (s.modPart b f).mem = s.mem := rfl
@[simp] theorem State.modPart_shelvers {s : State} {b : Nat} {f : Part → Part} : (s.modPart b f).shelvers = s.shelvers := rfl
@[simp] theorem State.modPart_cat {s : State} {b : Nat} {f : Part → Part} : (s.modPart b f).cat = s.cat := rfl
@[simp] theorem State.modPart_fab {s : State} {b : Nat} {f : Part → Part} : (s.modPart b f).fab = s.fab := rfl
@[simp] theorem State.modPart_sites {s : State} {b : Nat} {f : Part → Part} : (s.modPart b f).sites = s.sites := rfl
@[simp] theorem State.modPart_vols {s : State} {b : Nat} {f : Part → Part} : (s.modPart b f).vols = s.vols := rfl
@[simp] theorem State.modPart_sec {s : State} {b : Nat} {f : Part → Part} : (s.modPart b f).sec = s.sec := rfl
@[simp] theorem State.modPart_smb {s : State} {b : Nat} {f : Part → Part} : (s.modPart b f).smb = s.smb := rfl
@[simp] theorem State.modPart_work {s : State} {b : Nat} {f : Part → Part} : (s.modPart b f).work = s.work := rfl
@[simp] theorem State.modPart_fns {s : State} {b : Nat} {f : Part → Part} : (s.modPart b f).fns = s.fns := rfl
@[simp] theorem State.modPart_parts {s : State} {b : Nat} {f : Part → Part} : (s.modPart b f).parts = Tbl.put s.parts b (f (s.part b)) := rfl
@[simp] theorem State.modPart_colophon {s : State} {b : Nat} {f : Part → Part} : (s.modPart b f).colophon = s.colophon := rfl
@[simp] theorem State.modPart_corr {s : State} {b : Nat} {f : Part → Part} : (s.modPart b f).corr = s.corr := rfl
@[simp] theorem State.modPart_ot {s : State} {b : Nat} {f : Part → Part} : (s.modPart b f).ot = s.ot := rfl
@[simp] theorem State.modPart_pwr {s : State} {b : Nat} {f : Part → Part} : (s.modPart b f).pwr = s.pwr := rfl
@[simp] theorem State.modPart_regs {s : State} {b : Nat} {f : Part → Part} : (s.modPart b f).regs = s.regs := rfl
@[simp] theorem State.modPart_seq {s : State} {b : Nat} {f : Part → Part} : (s.modPart b f).seq = s.seq := rfl

@[simp] theorem State.setShelver_pending {s : State} {b : Nat} {x : Shelver} : (s.setShelver b x).pending = s.pending := rfl
@[simp] theorem State.setShelver_free {s : State} {b : Nat} {x : Shelver} : (s.setShelver b x).free = s.free := rfl
@[simp] theorem State.setShelver_now {s : State} {b : Nat} {x : Shelver} : (s.setShelver b x).now = s.now := rfl
@[simp] theorem State.setShelver_mode {s : State} {b : Nat} {x : Shelver} : (s.setShelver b x).mode = s.mode := rfl
@[simp] theorem State.setShelver_bays {s : State} {b : Nat} {x : Shelver} : (s.setShelver b x).bays = s.bays := rfl
@[simp] theorem State.setShelver_nets {s : State} {b : Nat} {x : Shelver} : (s.setShelver b x).nets = s.nets := rfl
@[simp] theorem State.setShelver_reports {s : State} {b : Nat} {x : Shelver} : (s.setShelver b x).reports = s.reports := rfl
@[simp] theorem State.setShelver_hbm {s : State} {b : Nat} {x : Shelver} : (s.setShelver b x).hbm = s.hbm := rfl
@[simp] theorem State.setShelver_mem {s : State} {b : Nat} {x : Shelver} : (s.setShelver b x).mem = s.mem := rfl
@[simp] theorem State.setShelver_shelvers {s : State} {b : Nat} {x : Shelver} : (s.setShelver b x).shelvers = Tbl.put s.shelvers b x := rfl
@[simp] theorem State.setShelver_cat {s : State} {b : Nat} {x : Shelver} : (s.setShelver b x).cat = s.cat := rfl
@[simp] theorem State.setShelver_fab {s : State} {b : Nat} {x : Shelver} : (s.setShelver b x).fab = s.fab := rfl
@[simp] theorem State.setShelver_sites {s : State} {b : Nat} {x : Shelver} : (s.setShelver b x).sites = s.sites := rfl
@[simp] theorem State.setShelver_vols {s : State} {b : Nat} {x : Shelver} : (s.setShelver b x).vols = s.vols := rfl
@[simp] theorem State.setShelver_sec {s : State} {b : Nat} {x : Shelver} : (s.setShelver b x).sec = s.sec := rfl
@[simp] theorem State.setShelver_smb {s : State} {b : Nat} {x : Shelver} : (s.setShelver b x).smb = s.smb := rfl
@[simp] theorem State.setShelver_work {s : State} {b : Nat} {x : Shelver} : (s.setShelver b x).work = s.work := rfl
@[simp] theorem State.setShelver_fns {s : State} {b : Nat} {x : Shelver} : (s.setShelver b x).fns = s.fns := rfl
@[simp] theorem State.setShelver_parts {s : State} {b : Nat} {x : Shelver} : (s.setShelver b x).parts = s.parts := rfl
@[simp] theorem State.setShelver_colophon {s : State} {b : Nat} {x : Shelver} : (s.setShelver b x).colophon = s.colophon := rfl
@[simp] theorem State.setShelver_corr {s : State} {b : Nat} {x : Shelver} : (s.setShelver b x).corr = s.corr := rfl
@[simp] theorem State.setShelver_ot {s : State} {b : Nat} {x : Shelver} : (s.setShelver b x).ot = s.ot := rfl
@[simp] theorem State.setShelver_pwr {s : State} {b : Nat} {x : Shelver} : (s.setShelver b x).pwr = s.pwr := rfl
@[simp] theorem State.setShelver_regs {s : State} {b : Nat} {x : Shelver} : (s.setShelver b x).regs = s.regs := rfl
@[simp] theorem State.setShelver_seq {s : State} {b : Nat} {x : Shelver} : (s.setShelver b x).seq = s.seq := rfl

@[simp] theorem State.modShelver_pending {s : State} {b : Nat} {f : Shelver → Shelver} : (s.modShelver b f).pending = s.pending := rfl
@[simp] theorem State.modShelver_free {s : State} {b : Nat} {f : Shelver → Shelver} : (s.modShelver b f).free = s.free := rfl
@[simp] theorem State.modShelver_now {s : State} {b : Nat} {f : Shelver → Shelver} : (s.modShelver b f).now = s.now := rfl
@[simp] theorem State.modShelver_mode {s : State} {b : Nat} {f : Shelver → Shelver} : (s.modShelver b f).mode = s.mode := rfl
@[simp] theorem State.modShelver_bays {s : State} {b : Nat} {f : Shelver → Shelver} : (s.modShelver b f).bays = s.bays := rfl
@[simp] theorem State.modShelver_nets {s : State} {b : Nat} {f : Shelver → Shelver} : (s.modShelver b f).nets = s.nets := rfl
@[simp] theorem State.modShelver_reports {s : State} {b : Nat} {f : Shelver → Shelver} : (s.modShelver b f).reports = s.reports := rfl
@[simp] theorem State.modShelver_hbm {s : State} {b : Nat} {f : Shelver → Shelver} : (s.modShelver b f).hbm = s.hbm := rfl
@[simp] theorem State.modShelver_mem {s : State} {b : Nat} {f : Shelver → Shelver} : (s.modShelver b f).mem = s.mem := rfl
@[simp] theorem State.modShelver_shelvers {s : State} {b : Nat} {f : Shelver → Shelver} : (s.modShelver b f).shelvers = Tbl.put s.shelvers b (f (s.shelver b)) := rfl
@[simp] theorem State.modShelver_cat {s : State} {b : Nat} {f : Shelver → Shelver} : (s.modShelver b f).cat = s.cat := rfl
@[simp] theorem State.modShelver_fab {s : State} {b : Nat} {f : Shelver → Shelver} : (s.modShelver b f).fab = s.fab := rfl
@[simp] theorem State.modShelver_sites {s : State} {b : Nat} {f : Shelver → Shelver} : (s.modShelver b f).sites = s.sites := rfl
@[simp] theorem State.modShelver_vols {s : State} {b : Nat} {f : Shelver → Shelver} : (s.modShelver b f).vols = s.vols := rfl
@[simp] theorem State.modShelver_sec {s : State} {b : Nat} {f : Shelver → Shelver} : (s.modShelver b f).sec = s.sec := rfl
@[simp] theorem State.modShelver_smb {s : State} {b : Nat} {f : Shelver → Shelver} : (s.modShelver b f).smb = s.smb := rfl
@[simp] theorem State.modShelver_work {s : State} {b : Nat} {f : Shelver → Shelver} : (s.modShelver b f).work = s.work := rfl
@[simp] theorem State.modShelver_fns {s : State} {b : Nat} {f : Shelver → Shelver} : (s.modShelver b f).fns = s.fns := rfl
@[simp] theorem State.modShelver_parts {s : State} {b : Nat} {f : Shelver → Shelver} : (s.modShelver b f).parts = s.parts := rfl
@[simp] theorem State.modShelver_colophon {s : State} {b : Nat} {f : Shelver → Shelver} : (s.modShelver b f).colophon = s.colophon := rfl
@[simp] theorem State.modShelver_corr {s : State} {b : Nat} {f : Shelver → Shelver} : (s.modShelver b f).corr = s.corr := rfl
@[simp] theorem State.modShelver_ot {s : State} {b : Nat} {f : Shelver → Shelver} : (s.modShelver b f).ot = s.ot := rfl
@[simp] theorem State.modShelver_pwr {s : State} {b : Nat} {f : Shelver → Shelver} : (s.modShelver b f).pwr = s.pwr := rfl
@[simp] theorem State.modShelver_regs {s : State} {b : Nat} {f : Shelver → Shelver} : (s.modShelver b f).regs = s.regs := rfl
@[simp] theorem State.modShelver_seq {s : State} {b : Nat} {f : Shelver → Shelver} : (s.modShelver b f).seq = s.seq := rfl

@[simp] theorem State.modWork_pending {s : State} {f : Work → Work} : (s.modWork f).pending = s.pending := rfl
@[simp] theorem State.modWork_free {s : State} {f : Work → Work} : (s.modWork f).free = s.free := rfl
@[simp] theorem State.modWork_now {s : State} {f : Work → Work} : (s.modWork f).now = s.now := rfl
@[simp] theorem State.modWork_mode {s : State} {f : Work → Work} : (s.modWork f).mode = s.mode := rfl
@[simp] theorem State.modWork_bays {s : State} {f : Work → Work} : (s.modWork f).bays = s.bays := rfl
@[simp] theorem State.modWork_nets {s : State} {f : Work → Work} : (s.modWork f).nets = s.nets := rfl
@[simp] theorem State.modWork_reports {s : State} {f : Work → Work} : (s.modWork f).reports = s.reports := rfl
@[simp] theorem State.modWork_hbm {s : State} {f : Work → Work} : (s.modWork f).hbm = s.hbm := rfl
@[simp] theorem State.modWork_mem {s : State} {f : Work → Work} : (s.modWork f).mem = s.mem := rfl
@[simp] theorem State.modWork_shelvers {s : State} {f : Work → Work} : (s.modWork f).shelvers = s.shelvers := rfl
@[simp] theorem State.modWork_cat {s : State} {f : Work → Work} : (s.modWork f).cat = s.cat := rfl
@[simp] theorem State.modWork_fab {s : State} {f : Work → Work} : (s.modWork f).fab = s.fab := rfl
@[simp] theorem State.modWork_sites {s : State} {f : Work → Work} : (s.modWork f).sites = s.sites := rfl
@[simp] theorem State.modWork_vols {s : State} {f : Work → Work} : (s.modWork f).vols = s.vols := rfl
@[simp] theorem State.modWork_sec {s : State} {f : Work → Work} : (s.modWork f).sec = s.sec := rfl
@[simp] theorem State.modWork_smb {s : State} {f : Work → Work} : (s.modWork f).smb = s.smb := rfl
@[simp] theorem State.modWork_work {s : State} {f : Work → Work} : (s.modWork f).work = f s.work := rfl
@[simp] theorem State.modWork_fns {s : State} {f : Work → Work} : (s.modWork f).fns = s.fns := rfl
@[simp] theorem State.modWork_parts {s : State} {f : Work → Work} : (s.modWork f).parts = s.parts := rfl
@[simp] theorem State.modWork_colophon {s : State} {f : Work → Work} : (s.modWork f).colophon = s.colophon := rfl
@[simp] theorem State.modWork_corr {s : State} {f : Work → Work} : (s.modWork f).corr = s.corr := rfl
@[simp] theorem State.modWork_ot {s : State} {f : Work → Work} : (s.modWork f).ot = s.ot := rfl
@[simp] theorem State.modWork_pwr {s : State} {f : Work → Work} : (s.modWork f).pwr = s.pwr := rfl
@[simp] theorem State.modWork_regs {s : State} {f : Work → Work} : (s.modWork f).regs = s.regs := rfl
@[simp] theorem State.modWork_seq {s : State} {f : Work → Work} : (s.modWork f).seq = s.seq := rfl

@[simp] theorem State.modMem_pending {s : State} {f : Memory → Memory} : (s.modMem f).pending = s.pending := rfl
@[simp] theorem State.modMem_free {s : State} {f : Memory → Memory} : (s.modMem f).free = s.free := rfl
@[simp] theorem State.modMem_now {s : State} {f : Memory → Memory} : (s.modMem f).now = s.now := rfl
@[simp] theorem State.modMem_mode {s : State} {f : Memory → Memory} : (s.modMem f).mode = s.mode := rfl
@[simp] theorem State.modMem_bays {s : State} {f : Memory → Memory} : (s.modMem f).bays = s.bays := rfl
@[simp] theorem State.modMem_nets {s : State} {f : Memory → Memory} : (s.modMem f).nets = s.nets := rfl
@[simp] theorem State.modMem_reports {s : State} {f : Memory → Memory} : (s.modMem f).reports = s.reports := rfl
@[simp] theorem State.modMem_hbm {s : State} {f : Memory → Memory} : (s.modMem f).hbm = s.hbm := rfl
@[simp] theorem State.modMem_mem {s : State} {f : Memory → Memory} : (s.modMem f).mem = f s.mem := rfl
@[simp] theorem State.modMem_shelvers {s : State} {f : Memory → Memory} : (s.modMem f).shelvers = s.shelvers := rfl
@[simp] theorem State.modMem_cat {s : State} {f : Memory → Memory} : (s.modMem f).cat = s.cat := rfl
@[simp] theorem State.modMem_fab {s : State} {f : Memory → Memory} : (s.modMem f).fab = s.fab := rfl
@[simp] theorem State.modMem_sites {s : State} {f : Memory → Memory} : (s.modMem f).sites = s.sites := rfl
@[simp] theorem State.modMem_vols {s : State} {f : Memory → Memory} : (s.modMem f).vols = s.vols := rfl
@[simp] theorem State.modMem_sec {s : State} {f : Memory → Memory} : (s.modMem f).sec = s.sec := rfl
@[simp] theorem State.modMem_smb {s : State} {f : Memory → Memory} : (s.modMem f).smb = s.smb := rfl
@[simp] theorem State.modMem_work {s : State} {f : Memory → Memory} : (s.modMem f).work = s.work := rfl
@[simp] theorem State.modMem_fns {s : State} {f : Memory → Memory} : (s.modMem f).fns = s.fns := rfl
@[simp] theorem State.modMem_parts {s : State} {f : Memory → Memory} : (s.modMem f).parts = s.parts := rfl
@[simp] theorem State.modMem_colophon {s : State} {f : Memory → Memory} : (s.modMem f).colophon = s.colophon := rfl
@[simp] theorem State.modMem_corr {s : State} {f : Memory → Memory} : (s.modMem f).corr = s.corr := rfl
@[simp] theorem State.modMem_ot {s : State} {f : Memory → Memory} : (s.modMem f).ot = s.ot := rfl
@[simp] theorem State.modMem_pwr {s : State} {f : Memory → Memory} : (s.modMem f).pwr = s.pwr := rfl
@[simp] theorem State.modMem_regs {s : State} {f : Memory → Memory} : (s.modMem f).regs = s.regs := rfl
@[simp] theorem State.modMem_seq {s : State} {f : Memory → Memory} : (s.modMem f).seq = s.seq := rfl

@[simp] theorem State.modSeq_pending {s : State} {f : Seq → Seq} : (s.modSeq f).pending = s.pending := rfl
@[simp] theorem State.modSeq_free {s : State} {f : Seq → Seq} : (s.modSeq f).free = s.free := rfl
@[simp] theorem State.modSeq_now {s : State} {f : Seq → Seq} : (s.modSeq f).now = s.now := rfl
@[simp] theorem State.modSeq_mode {s : State} {f : Seq → Seq} : (s.modSeq f).mode = s.mode := rfl
@[simp] theorem State.modSeq_bays {s : State} {f : Seq → Seq} : (s.modSeq f).bays = s.bays := rfl
@[simp] theorem State.modSeq_nets {s : State} {f : Seq → Seq} : (s.modSeq f).nets = s.nets := rfl
@[simp] theorem State.modSeq_reports {s : State} {f : Seq → Seq} : (s.modSeq f).reports = s.reports := rfl
@[simp] theorem State.modSeq_hbm {s : State} {f : Seq → Seq} : (s.modSeq f).hbm = s.hbm := rfl
@[simp] theorem State.modSeq_mem {s : State} {f : Seq → Seq} : (s.modSeq f).mem = s.mem := rfl
@[simp] theorem State.modSeq_shelvers {s : State} {f : Seq → Seq} : (s.modSeq f).shelvers = s.shelvers := rfl
@[simp] theorem State.modSeq_cat {s : State} {f : Seq → Seq} : (s.modSeq f).cat = s.cat := rfl
@[simp] theorem State.modSeq_fab {s : State} {f : Seq → Seq} : (s.modSeq f).fab = s.fab := rfl
@[simp] theorem State.modSeq_sites {s : State} {f : Seq → Seq} : (s.modSeq f).sites = s.sites := rfl
@[simp] theorem State.modSeq_vols {s : State} {f : Seq → Seq} : (s.modSeq f).vols = s.vols := rfl
@[simp] theorem State.modSeq_sec {s : State} {f : Seq → Seq} : (s.modSeq f).sec = s.sec := rfl
@[simp] theorem State.modSeq_smb {s : State} {f : Seq → Seq} : (s.modSeq f).smb = s.smb := rfl
@[simp] theorem State.modSeq_work {s : State} {f : Seq → Seq} : (s.modSeq f).work = s.work := rfl
@[simp] theorem State.modSeq_fns {s : State} {f : Seq → Seq} : (s.modSeq f).fns = s.fns := rfl
@[simp] theorem State.modSeq_parts {s : State} {f : Seq → Seq} : (s.modSeq f).parts = s.parts := rfl
@[simp] theorem State.modSeq_colophon {s : State} {f : Seq → Seq} : (s.modSeq f).colophon = s.colophon := rfl
@[simp] theorem State.modSeq_corr {s : State} {f : Seq → Seq} : (s.modSeq f).corr = s.corr := rfl
@[simp] theorem State.modSeq_ot {s : State} {f : Seq → Seq} : (s.modSeq f).ot = s.ot := rfl
@[simp] theorem State.modSeq_pwr {s : State} {f : Seq → Seq} : (s.modSeq f).pwr = s.pwr := rfl
@[simp] theorem State.modSeq_regs {s : State} {f : Seq → Seq} : (s.modSeq f).regs = s.regs := rfl
@[simp] theorem State.modSeq_seq {s : State} {f : Seq → Seq} : (s.modSeq f).seq = f s.seq := rfl

@[simp] theorem State.modOt_pending {s : State} {f : Ot → Ot} : (s.modOt f).pending = s.pending := rfl
@[simp] theorem State.modOt_free {s : State} {f : Ot → Ot} : (s.modOt f).free = s.free := rfl
@[simp] theorem State.modOt_now {s : State} {f : Ot → Ot} : (s.modOt f).now = s.now := rfl
@[simp] theorem State.modOt_mode {s : State} {f : Ot → Ot} : (s.modOt f).mode = s.mode := rfl
@[simp] theorem State.modOt_bays {s : State} {f : Ot → Ot} : (s.modOt f).bays = s.bays := rfl
@[simp] theorem State.modOt_nets {s : State} {f : Ot → Ot} : (s.modOt f).nets = s.nets := rfl
@[simp] theorem State.modOt_reports {s : State} {f : Ot → Ot} : (s.modOt f).reports = s.reports := rfl
@[simp] theorem State.modOt_hbm {s : State} {f : Ot → Ot} : (s.modOt f).hbm = s.hbm := rfl
@[simp] theorem State.modOt_mem {s : State} {f : Ot → Ot} : (s.modOt f).mem = s.mem := rfl
@[simp] theorem State.modOt_shelvers {s : State} {f : Ot → Ot} : (s.modOt f).shelvers = s.shelvers := rfl
@[simp] theorem State.modOt_cat {s : State} {f : Ot → Ot} : (s.modOt f).cat = s.cat := rfl
@[simp] theorem State.modOt_fab {s : State} {f : Ot → Ot} : (s.modOt f).fab = s.fab := rfl
@[simp] theorem State.modOt_sites {s : State} {f : Ot → Ot} : (s.modOt f).sites = s.sites := rfl
@[simp] theorem State.modOt_vols {s : State} {f : Ot → Ot} : (s.modOt f).vols = s.vols := rfl
@[simp] theorem State.modOt_sec {s : State} {f : Ot → Ot} : (s.modOt f).sec = s.sec := rfl
@[simp] theorem State.modOt_smb {s : State} {f : Ot → Ot} : (s.modOt f).smb = s.smb := rfl
@[simp] theorem State.modOt_work {s : State} {f : Ot → Ot} : (s.modOt f).work = s.work := rfl
@[simp] theorem State.modOt_fns {s : State} {f : Ot → Ot} : (s.modOt f).fns = s.fns := rfl
@[simp] theorem State.modOt_parts {s : State} {f : Ot → Ot} : (s.modOt f).parts = s.parts := rfl
@[simp] theorem State.modOt_colophon {s : State} {f : Ot → Ot} : (s.modOt f).colophon = s.colophon := rfl
@[simp] theorem State.modOt_corr {s : State} {f : Ot → Ot} : (s.modOt f).corr = s.corr := rfl
@[simp] theorem State.modOt_ot {s : State} {f : Ot → Ot} : (s.modOt f).ot = f s.ot := rfl
@[simp] theorem State.modOt_pwr {s : State} {f : Ot → Ot} : (s.modOt f).pwr = s.pwr := rfl
@[simp] theorem State.modOt_regs {s : State} {f : Ot → Ot} : (s.modOt f).regs = s.regs := rfl
@[simp] theorem State.modOt_seq {s : State} {f : Ot → Ot} : (s.modOt f).seq = s.seq := rfl

@[simp] theorem State.modNets_pending {s : State} {f : Nets → Nets} : (s.modNets f).pending = s.pending := rfl
@[simp] theorem State.modNets_free {s : State} {f : Nets → Nets} : (s.modNets f).free = s.free := rfl
@[simp] theorem State.modNets_now {s : State} {f : Nets → Nets} : (s.modNets f).now = s.now := rfl
@[simp] theorem State.modNets_mode {s : State} {f : Nets → Nets} : (s.modNets f).mode = s.mode := rfl
@[simp] theorem State.modNets_bays {s : State} {f : Nets → Nets} : (s.modNets f).bays = s.bays := rfl
@[simp] theorem State.modNets_nets {s : State} {f : Nets → Nets} : (s.modNets f).nets = f s.nets := rfl
@[simp] theorem State.modNets_reports {s : State} {f : Nets → Nets} : (s.modNets f).reports = s.reports := rfl
@[simp] theorem State.modNets_hbm {s : State} {f : Nets → Nets} : (s.modNets f).hbm = s.hbm := rfl
@[simp] theorem State.modNets_mem {s : State} {f : Nets → Nets} : (s.modNets f).mem = s.mem := rfl
@[simp] theorem State.modNets_shelvers {s : State} {f : Nets → Nets} : (s.modNets f).shelvers = s.shelvers := rfl
@[simp] theorem State.modNets_cat {s : State} {f : Nets → Nets} : (s.modNets f).cat = s.cat := rfl
@[simp] theorem State.modNets_fab {s : State} {f : Nets → Nets} : (s.modNets f).fab = s.fab := rfl
@[simp] theorem State.modNets_sites {s : State} {f : Nets → Nets} : (s.modNets f).sites = s.sites := rfl
@[simp] theorem State.modNets_vols {s : State} {f : Nets → Nets} : (s.modNets f).vols = s.vols := rfl
@[simp] theorem State.modNets_sec {s : State} {f : Nets → Nets} : (s.modNets f).sec = s.sec := rfl
@[simp] theorem State.modNets_smb {s : State} {f : Nets → Nets} : (s.modNets f).smb = s.smb := rfl
@[simp] theorem State.modNets_work {s : State} {f : Nets → Nets} : (s.modNets f).work = s.work := rfl
@[simp] theorem State.modNets_fns {s : State} {f : Nets → Nets} : (s.modNets f).fns = s.fns := rfl
@[simp] theorem State.modNets_parts {s : State} {f : Nets → Nets} : (s.modNets f).parts = s.parts := rfl
@[simp] theorem State.modNets_colophon {s : State} {f : Nets → Nets} : (s.modNets f).colophon = s.colophon := rfl
@[simp] theorem State.modNets_corr {s : State} {f : Nets → Nets} : (s.modNets f).corr = s.corr := rfl
@[simp] theorem State.modNets_ot {s : State} {f : Nets → Nets} : (s.modNets f).ot = s.ot := rfl
@[simp] theorem State.modNets_pwr {s : State} {f : Nets → Nets} : (s.modNets f).pwr = s.pwr := rfl
@[simp] theorem State.modNets_regs {s : State} {f : Nets → Nets} : (s.modNets f).regs = s.regs := rfl
@[simp] theorem State.modNets_seq {s : State} {f : Nets → Nets} : (s.modNets f).seq = s.seq := rfl

@[simp] theorem State.modPwr_pending {s : State} {f : Pwr → Pwr} : (s.modPwr f).pending = s.pending := rfl
@[simp] theorem State.modPwr_free {s : State} {f : Pwr → Pwr} : (s.modPwr f).free = s.free := rfl
@[simp] theorem State.modPwr_now {s : State} {f : Pwr → Pwr} : (s.modPwr f).now = s.now := rfl
@[simp] theorem State.modPwr_mode {s : State} {f : Pwr → Pwr} : (s.modPwr f).mode = s.mode := rfl
@[simp] theorem State.modPwr_bays {s : State} {f : Pwr → Pwr} : (s.modPwr f).bays = s.bays := rfl
@[simp] theorem State.modPwr_nets {s : State} {f : Pwr → Pwr} : (s.modPwr f).nets = s.nets := rfl
@[simp] theorem State.modPwr_reports {s : State} {f : Pwr → Pwr} : (s.modPwr f).reports = s.reports := rfl
@[simp] theorem State.modPwr_hbm {s : State} {f : Pwr → Pwr} : (s.modPwr f).hbm = s.hbm := rfl
@[simp] theorem State.modPwr_mem {s : State} {f : Pwr → Pwr} : (s.modPwr f).mem = s.mem := rfl
@[simp] theorem State.modPwr_shelvers {s : State} {f : Pwr → Pwr} : (s.modPwr f).shelvers = s.shelvers := rfl
@[simp] theorem State.modPwr_cat {s : State} {f : Pwr → Pwr} : (s.modPwr f).cat = s.cat := rfl
@[simp] theorem State.modPwr_fab {s : State} {f : Pwr → Pwr} : (s.modPwr f).fab = s.fab := rfl
@[simp] theorem State.modPwr_sites {s : State} {f : Pwr → Pwr} : (s.modPwr f).sites = s.sites := rfl
@[simp] theorem State.modPwr_vols {s : State} {f : Pwr → Pwr} : (s.modPwr f).vols = s.vols := rfl
@[simp] theorem State.modPwr_sec {s : State} {f : Pwr → Pwr} : (s.modPwr f).sec = s.sec := rfl
@[simp] theorem State.modPwr_smb {s : State} {f : Pwr → Pwr} : (s.modPwr f).smb = s.smb := rfl
@[simp] theorem State.modPwr_work {s : State} {f : Pwr → Pwr} : (s.modPwr f).work = s.work := rfl
@[simp] theorem State.modPwr_fns {s : State} {f : Pwr → Pwr} : (s.modPwr f).fns = s.fns := rfl
@[simp] theorem State.modPwr_parts {s : State} {f : Pwr → Pwr} : (s.modPwr f).parts = s.parts := rfl
@[simp] theorem State.modPwr_colophon {s : State} {f : Pwr → Pwr} : (s.modPwr f).colophon = s.colophon := rfl
@[simp] theorem State.modPwr_corr {s : State} {f : Pwr → Pwr} : (s.modPwr f).corr = s.corr := rfl
@[simp] theorem State.modPwr_ot {s : State} {f : Pwr → Pwr} : (s.modPwr f).ot = s.ot := rfl
@[simp] theorem State.modPwr_pwr {s : State} {f : Pwr → Pwr} : (s.modPwr f).pwr = f s.pwr := rfl
@[simp] theorem State.modPwr_regs {s : State} {f : Pwr → Pwr} : (s.modPwr f).regs = s.regs := rfl
@[simp] theorem State.modPwr_seq {s : State} {f : Pwr → Pwr} : (s.modPwr f).seq = s.seq := rfl

@[simp] theorem State.modFab_pending {s : State} {f : Fab → Fab} : (s.modFab f).pending = s.pending := rfl
@[simp] theorem State.modFab_free {s : State} {f : Fab → Fab} : (s.modFab f).free = s.free := rfl
@[simp] theorem State.modFab_now {s : State} {f : Fab → Fab} : (s.modFab f).now = s.now := rfl
@[simp] theorem State.modFab_mode {s : State} {f : Fab → Fab} : (s.modFab f).mode = s.mode := rfl
@[simp] theorem State.modFab_bays {s : State} {f : Fab → Fab} : (s.modFab f).bays = s.bays := rfl
@[simp] theorem State.modFab_nets {s : State} {f : Fab → Fab} : (s.modFab f).nets = s.nets := rfl
@[simp] theorem State.modFab_reports {s : State} {f : Fab → Fab} : (s.modFab f).reports = s.reports := rfl
@[simp] theorem State.modFab_hbm {s : State} {f : Fab → Fab} : (s.modFab f).hbm = s.hbm := rfl
@[simp] theorem State.modFab_mem {s : State} {f : Fab → Fab} : (s.modFab f).mem = s.mem := rfl
@[simp] theorem State.modFab_shelvers {s : State} {f : Fab → Fab} : (s.modFab f).shelvers = s.shelvers := rfl
@[simp] theorem State.modFab_cat {s : State} {f : Fab → Fab} : (s.modFab f).cat = s.cat := rfl
@[simp] theorem State.modFab_fab {s : State} {f : Fab → Fab} : (s.modFab f).fab = f s.fab := rfl
@[simp] theorem State.modFab_sites {s : State} {f : Fab → Fab} : (s.modFab f).sites = s.sites := rfl
@[simp] theorem State.modFab_vols {s : State} {f : Fab → Fab} : (s.modFab f).vols = s.vols := rfl
@[simp] theorem State.modFab_sec {s : State} {f : Fab → Fab} : (s.modFab f).sec = s.sec := rfl
@[simp] theorem State.modFab_smb {s : State} {f : Fab → Fab} : (s.modFab f).smb = s.smb := rfl
@[simp] theorem State.modFab_work {s : State} {f : Fab → Fab} : (s.modFab f).work = s.work := rfl
@[simp] theorem State.modFab_fns {s : State} {f : Fab → Fab} : (s.modFab f).fns = s.fns := rfl
@[simp] theorem State.modFab_parts {s : State} {f : Fab → Fab} : (s.modFab f).parts = s.parts := rfl
@[simp] theorem State.modFab_colophon {s : State} {f : Fab → Fab} : (s.modFab f).colophon = s.colophon := rfl
@[simp] theorem State.modFab_corr {s : State} {f : Fab → Fab} : (s.modFab f).corr = s.corr := rfl
@[simp] theorem State.modFab_ot {s : State} {f : Fab → Fab} : (s.modFab f).ot = s.ot := rfl
@[simp] theorem State.modFab_pwr {s : State} {f : Fab → Fab} : (s.modFab f).pwr = s.pwr := rfl
@[simp] theorem State.modFab_regs {s : State} {f : Fab → Fab} : (s.modFab f).regs = s.regs := rfl
@[simp] theorem State.modFab_seq {s : State} {f : Fab → Fab} : (s.modFab f).seq = s.seq := rfl

@[simp] theorem modCat_pending {s : State} {f : Cat → Cat} : (modCat s f).pending = s.pending := rfl
@[simp] theorem modCat_free {s : State} {f : Cat → Cat} : (modCat s f).free = s.free := rfl
@[simp] theorem modCat_now {s : State} {f : Cat → Cat} : (modCat s f).now = s.now := rfl
@[simp] theorem modCat_mode {s : State} {f : Cat → Cat} : (modCat s f).mode = s.mode := rfl
@[simp] theorem modCat_bays {s : State} {f : Cat → Cat} : (modCat s f).bays = s.bays := rfl
@[simp] theorem modCat_nets {s : State} {f : Cat → Cat} : (modCat s f).nets = s.nets := rfl
@[simp] theorem modCat_reports {s : State} {f : Cat → Cat} : (modCat s f).reports = s.reports := rfl
@[simp] theorem modCat_hbm {s : State} {f : Cat → Cat} : (modCat s f).hbm = s.hbm := rfl
@[simp] theorem modCat_mem {s : State} {f : Cat → Cat} : (modCat s f).mem = s.mem := rfl
@[simp] theorem modCat_shelvers {s : State} {f : Cat → Cat} : (modCat s f).shelvers = s.shelvers := rfl
@[simp] theorem modCat_cat {s : State} {f : Cat → Cat} : (modCat s f).cat = f s.cat := rfl
@[simp] theorem modCat_fab {s : State} {f : Cat → Cat} : (modCat s f).fab = s.fab := rfl
@[simp] theorem modCat_sites {s : State} {f : Cat → Cat} : (modCat s f).sites = s.sites := rfl
@[simp] theorem modCat_vols {s : State} {f : Cat → Cat} : (modCat s f).vols = s.vols := rfl
@[simp] theorem modCat_sec {s : State} {f : Cat → Cat} : (modCat s f).sec = s.sec := rfl
@[simp] theorem modCat_smb {s : State} {f : Cat → Cat} : (modCat s f).smb = s.smb := rfl
@[simp] theorem modCat_work {s : State} {f : Cat → Cat} : (modCat s f).work = s.work := rfl
@[simp] theorem modCat_fns {s : State} {f : Cat → Cat} : (modCat s f).fns = s.fns := rfl
@[simp] theorem modCat_parts {s : State} {f : Cat → Cat} : (modCat s f).parts = s.parts := rfl
@[simp] theorem modCat_colophon {s : State} {f : Cat → Cat} : (modCat s f).colophon = s.colophon := rfl
@[simp] theorem modCat_corr {s : State} {f : Cat → Cat} : (modCat s f).corr = s.corr := rfl
@[simp] theorem modCat_ot {s : State} {f : Cat → Cat} : (modCat s f).ot = s.ot := rfl
@[simp] theorem modCat_pwr {s : State} {f : Cat → Cat} : (modCat s f).pwr = s.pwr := rfl
@[simp] theorem modCat_regs {s : State} {f : Cat → Cat} : (modCat s f).regs = s.regs := rfl
@[simp] theorem modCat_seq {s : State} {f : Cat → Cat} : (modCat s f).seq = s.seq := rfl

@[simp] theorem modSec_pending {s : State} {f : Sec → Sec} : (modSec s f).pending = s.pending := rfl
@[simp] theorem modSec_free {s : State} {f : Sec → Sec} : (modSec s f).free = s.free := rfl
@[simp] theorem modSec_now {s : State} {f : Sec → Sec} : (modSec s f).now = s.now := rfl
@[simp] theorem modSec_mode {s : State} {f : Sec → Sec} : (modSec s f).mode = s.mode := rfl
@[simp] theorem modSec_bays {s : State} {f : Sec → Sec} : (modSec s f).bays = s.bays := rfl
@[simp] theorem modSec_nets {s : State} {f : Sec → Sec} : (modSec s f).nets = s.nets := rfl
@[simp] theorem modSec_reports {s : State} {f : Sec → Sec} : (modSec s f).reports = s.reports := rfl
@[simp] theorem modSec_hbm {s : State} {f : Sec → Sec} : (modSec s f).hbm = s.hbm := rfl
@[simp] theorem modSec_mem {s : State} {f : Sec → Sec} : (modSec s f).mem = s.mem := rfl
@[simp] theorem modSec_shelvers {s : State} {f : Sec → Sec} : (modSec s f).shelvers = s.shelvers := rfl
@[simp] theorem modSec_cat {s : State} {f : Sec → Sec} : (modSec s f).cat = s.cat := rfl
@[simp] theorem modSec_fab {s : State} {f : Sec → Sec} : (modSec s f).fab = s.fab := rfl
@[simp] theorem modSec_sites {s : State} {f : Sec → Sec} : (modSec s f).sites = s.sites := rfl
@[simp] theorem modSec_vols {s : State} {f : Sec → Sec} : (modSec s f).vols = s.vols := rfl
@[simp] theorem modSec_sec {s : State} {f : Sec → Sec} : (modSec s f).sec = f s.sec := rfl
@[simp] theorem modSec_smb {s : State} {f : Sec → Sec} : (modSec s f).smb = s.smb := rfl
@[simp] theorem modSec_work {s : State} {f : Sec → Sec} : (modSec s f).work = s.work := rfl
@[simp] theorem modSec_fns {s : State} {f : Sec → Sec} : (modSec s f).fns = s.fns := rfl
@[simp] theorem modSec_parts {s : State} {f : Sec → Sec} : (modSec s f).parts = s.parts := rfl
@[simp] theorem modSec_colophon {s : State} {f : Sec → Sec} : (modSec s f).colophon = s.colophon := rfl
@[simp] theorem modSec_corr {s : State} {f : Sec → Sec} : (modSec s f).corr = s.corr := rfl
@[simp] theorem modSec_ot {s : State} {f : Sec → Sec} : (modSec s f).ot = s.ot := rfl
@[simp] theorem modSec_pwr {s : State} {f : Sec → Sec} : (modSec s f).pwr = s.pwr := rfl
@[simp] theorem modSec_regs {s : State} {f : Sec → Sec} : (modSec s f).regs = s.regs := rfl
@[simp] theorem modSec_seq {s : State} {f : Sec → Sec} : (modSec s f).seq = s.seq := rfl

@[simp] theorem modVols_pending {s : State} {f : Vols → Vols} : (modVols s f).pending = s.pending := rfl
@[simp] theorem modVols_free {s : State} {f : Vols → Vols} : (modVols s f).free = s.free := rfl
@[simp] theorem modVols_now {s : State} {f : Vols → Vols} : (modVols s f).now = s.now := rfl
@[simp] theorem modVols_mode {s : State} {f : Vols → Vols} : (modVols s f).mode = s.mode := rfl
@[simp] theorem modVols_bays {s : State} {f : Vols → Vols} : (modVols s f).bays = s.bays := rfl
@[simp] theorem modVols_nets {s : State} {f : Vols → Vols} : (modVols s f).nets = s.nets := rfl
@[simp] theorem modVols_reports {s : State} {f : Vols → Vols} : (modVols s f).reports = s.reports := rfl
@[simp] theorem modVols_hbm {s : State} {f : Vols → Vols} : (modVols s f).hbm = s.hbm := rfl
@[simp] theorem modVols_mem {s : State} {f : Vols → Vols} : (modVols s f).mem = s.mem := rfl
@[simp] theorem modVols_shelvers {s : State} {f : Vols → Vols} : (modVols s f).shelvers = s.shelvers := rfl
@[simp] theorem modVols_cat {s : State} {f : Vols → Vols} : (modVols s f).cat = s.cat := rfl
@[simp] theorem modVols_fab {s : State} {f : Vols → Vols} : (modVols s f).fab = s.fab := rfl
@[simp] theorem modVols_sites {s : State} {f : Vols → Vols} : (modVols s f).sites = s.sites := rfl
@[simp] theorem modVols_vols {s : State} {f : Vols → Vols} : (modVols s f).vols = f s.vols := rfl
@[simp] theorem modVols_sec {s : State} {f : Vols → Vols} : (modVols s f).sec = s.sec := rfl
@[simp] theorem modVols_smb {s : State} {f : Vols → Vols} : (modVols s f).smb = s.smb := rfl
@[simp] theorem modVols_work {s : State} {f : Vols → Vols} : (modVols s f).work = s.work := rfl
@[simp] theorem modVols_fns {s : State} {f : Vols → Vols} : (modVols s f).fns = s.fns := rfl
@[simp] theorem modVols_parts {s : State} {f : Vols → Vols} : (modVols s f).parts = s.parts := rfl
@[simp] theorem modVols_colophon {s : State} {f : Vols → Vols} : (modVols s f).colophon = s.colophon := rfl
@[simp] theorem modVols_corr {s : State} {f : Vols → Vols} : (modVols s f).corr = s.corr := rfl
@[simp] theorem modVols_ot {s : State} {f : Vols → Vols} : (modVols s f).ot = s.ot := rfl
@[simp] theorem modVols_pwr {s : State} {f : Vols → Vols} : (modVols s f).pwr = s.pwr := rfl
@[simp] theorem modVols_regs {s : State} {f : Vols → Vols} : (modVols s f).regs = s.regs := rfl
@[simp] theorem modVols_seq {s : State} {f : Vols → Vols} : (modVols s f).seq = s.seq := rfl

@[simp] theorem setVol_pending {s : State} {b : Nat} {x : Volume} : (setVol s b x).pending = s.pending := rfl
@[simp] theorem setVol_free {s : State} {b : Nat} {x : Volume} : (setVol s b x).free = s.free := rfl
@[simp] theorem setVol_now {s : State} {b : Nat} {x : Volume} : (setVol s b x).now = s.now := rfl
@[simp] theorem setVol_mode {s : State} {b : Nat} {x : Volume} : (setVol s b x).mode = s.mode := rfl
@[simp] theorem setVol_bays {s : State} {b : Nat} {x : Volume} : (setVol s b x).bays = s.bays := rfl
@[simp] theorem setVol_nets {s : State} {b : Nat} {x : Volume} : (setVol s b x).nets = s.nets := rfl
@[simp] theorem setVol_reports {s : State} {b : Nat} {x : Volume} : (setVol s b x).reports = s.reports := rfl
@[simp] theorem setVol_hbm {s : State} {b : Nat} {x : Volume} : (setVol s b x).hbm = s.hbm := rfl
@[simp] theorem setVol_mem {s : State} {b : Nat} {x : Volume} : (setVol s b x).mem = s.mem := rfl
@[simp] theorem setVol_shelvers {s : State} {b : Nat} {x : Volume} : (setVol s b x).shelvers = s.shelvers := rfl
@[simp] theorem setVol_cat {s : State} {b : Nat} {x : Volume} : (setVol s b x).cat = s.cat := rfl
@[simp] theorem setVol_fab {s : State} {b : Nat} {x : Volume} : (setVol s b x).fab = s.fab := rfl
@[simp] theorem setVol_sites {s : State} {b : Nat} {x : Volume} : (setVol s b x).sites = s.sites := rfl
@[simp] theorem setVol_sec {s : State} {b : Nat} {x : Volume} : (setVol s b x).sec = s.sec := rfl
@[simp] theorem setVol_smb {s : State} {b : Nat} {x : Volume} : (setVol s b x).smb = s.smb := rfl
@[simp] theorem setVol_work {s : State} {b : Nat} {x : Volume} : (setVol s b x).work = s.work := rfl
@[simp] theorem setVol_fns {s : State} {b : Nat} {x : Volume} : (setVol s b x).fns = s.fns := rfl
@[simp] theorem setVol_parts {s : State} {b : Nat} {x : Volume} : (setVol s b x).parts = s.parts := rfl
@[simp] theorem setVol_colophon {s : State} {b : Nat} {x : Volume} : (setVol s b x).colophon = s.colophon := rfl
@[simp] theorem setVol_corr {s : State} {b : Nat} {x : Volume} : (setVol s b x).corr = s.corr := rfl
@[simp] theorem setVol_ot {s : State} {b : Nat} {x : Volume} : (setVol s b x).ot = s.ot := rfl
@[simp] theorem setVol_pwr {s : State} {b : Nat} {x : Volume} : (setVol s b x).pwr = s.pwr := rfl
@[simp] theorem setVol_regs {s : State} {b : Nat} {x : Volume} : (setVol s b x).regs = s.regs := rfl
@[simp] theorem setVol_seq {s : State} {b : Nat} {x : Volume} : (setVol s b x).seq = s.seq := rfl

@[simp] theorem modCtx_pending {s : State} {b : Nat} {f : Ctx → Ctx} : (modCtx s b f).pending = s.pending := rfl
@[simp] theorem modCtx_free {s : State} {b : Nat} {f : Ctx → Ctx} : (modCtx s b f).free = s.free := rfl
@[simp] theorem modCtx_now {s : State} {b : Nat} {f : Ctx → Ctx} : (modCtx s b f).now = s.now := rfl
@[simp] theorem modCtx_mode {s : State} {b : Nat} {f : Ctx → Ctx} : (modCtx s b f).mode = s.mode := rfl
@[simp] theorem modCtx_bays {s : State} {b : Nat} {f : Ctx → Ctx} : (modCtx s b f).bays = s.bays := rfl
@[simp] theorem modCtx_nets {s : State} {b : Nat} {f : Ctx → Ctx} : (modCtx s b f).nets = s.nets := rfl
@[simp] theorem modCtx_reports {s : State} {b : Nat} {f : Ctx → Ctx} : (modCtx s b f).reports = s.reports := rfl
@[simp] theorem modCtx_hbm {s : State} {b : Nat} {f : Ctx → Ctx} : (modCtx s b f).hbm = s.hbm := rfl
@[simp] theorem modCtx_mem {s : State} {b : Nat} {f : Ctx → Ctx} : (modCtx s b f).mem = s.mem := rfl
@[simp] theorem modCtx_shelvers {s : State} {b : Nat} {f : Ctx → Ctx} : (modCtx s b f).shelvers = s.shelvers := rfl
@[simp] theorem modCtx_cat {s : State} {b : Nat} {f : Ctx → Ctx} : (modCtx s b f).cat = s.cat := rfl
@[simp] theorem modCtx_fab {s : State} {b : Nat} {f : Ctx → Ctx} : (modCtx s b f).fab = s.fab := rfl
@[simp] theorem modCtx_sites {s : State} {b : Nat} {f : Ctx → Ctx} : (modCtx s b f).sites = s.sites := rfl
@[simp] theorem modCtx_vols {s : State} {b : Nat} {f : Ctx → Ctx} : (modCtx s b f).vols = s.vols := rfl
@[simp] theorem modCtx_sec {s : State} {b : Nat} {f : Ctx → Ctx} : (modCtx s b f).sec = s.sec := rfl
@[simp] theorem modCtx_smb {s : State} {b : Nat} {f : Ctx → Ctx} : (modCtx s b f).smb = s.smb := rfl
@[simp] theorem modCtx_fns {s : State} {b : Nat} {f : Ctx → Ctx} : (modCtx s b f).fns = s.fns := rfl
@[simp] theorem modCtx_parts {s : State} {b : Nat} {f : Ctx → Ctx} : (modCtx s b f).parts = s.parts := rfl
@[simp] theorem modCtx_colophon {s : State} {b : Nat} {f : Ctx → Ctx} : (modCtx s b f).colophon = s.colophon := rfl
@[simp] theorem modCtx_corr {s : State} {b : Nat} {f : Ctx → Ctx} : (modCtx s b f).corr = s.corr := rfl
@[simp] theorem modCtx_ot {s : State} {b : Nat} {f : Ctx → Ctx} : (modCtx s b f).ot = s.ot := rfl
@[simp] theorem modCtx_pwr {s : State} {b : Nat} {f : Ctx → Ctx} : (modCtx s b f).pwr = s.pwr := rfl
@[simp] theorem modCtx_regs {s : State} {b : Nat} {f : Ctx → Ctx} : (modCtx s b f).regs = s.regs := rfl
@[simp] theorem modCtx_seq {s : State} {b : Nat} {f : Ctx → Ctx} : (modCtx s b f).seq = s.seq := rfl

@[simp] theorem modCmd_pending {s : State} {b : Nat} {f : Cmd → Cmd} : (modCmd s b f).pending = s.pending := rfl
@[simp] theorem modCmd_free {s : State} {b : Nat} {f : Cmd → Cmd} : (modCmd s b f).free = s.free := rfl
@[simp] theorem modCmd_now {s : State} {b : Nat} {f : Cmd → Cmd} : (modCmd s b f).now = s.now := rfl
@[simp] theorem modCmd_mode {s : State} {b : Nat} {f : Cmd → Cmd} : (modCmd s b f).mode = s.mode := rfl
@[simp] theorem modCmd_bays {s : State} {b : Nat} {f : Cmd → Cmd} : (modCmd s b f).bays = s.bays := rfl
@[simp] theorem modCmd_nets {s : State} {b : Nat} {f : Cmd → Cmd} : (modCmd s b f).nets = s.nets := rfl
@[simp] theorem modCmd_reports {s : State} {b : Nat} {f : Cmd → Cmd} : (modCmd s b f).reports = s.reports := rfl
@[simp] theorem modCmd_hbm {s : State} {b : Nat} {f : Cmd → Cmd} : (modCmd s b f).hbm = s.hbm := rfl
@[simp] theorem modCmd_mem {s : State} {b : Nat} {f : Cmd → Cmd} : (modCmd s b f).mem = s.mem := rfl
@[simp] theorem modCmd_shelvers {s : State} {b : Nat} {f : Cmd → Cmd} : (modCmd s b f).shelvers = s.shelvers := rfl
@[simp] theorem modCmd_cat {s : State} {b : Nat} {f : Cmd → Cmd} : (modCmd s b f).cat = s.cat := rfl
@[simp] theorem modCmd_fab {s : State} {b : Nat} {f : Cmd → Cmd} : (modCmd s b f).fab = s.fab := rfl
@[simp] theorem modCmd_sites {s : State} {b : Nat} {f : Cmd → Cmd} : (modCmd s b f).sites = s.sites := rfl
@[simp] theorem modCmd_vols {s : State} {b : Nat} {f : Cmd → Cmd} : (modCmd s b f).vols = s.vols := rfl
@[simp] theorem modCmd_sec {s : State} {b : Nat} {f : Cmd → Cmd} : (modCmd s b f).sec = s.sec := rfl
@[simp] theorem modCmd_smb {s : State} {b : Nat} {f : Cmd → Cmd} : (modCmd s b f).smb = s.smb := rfl
@[simp] theorem modCmd_fns {s : State} {b : Nat} {f : Cmd → Cmd} : (modCmd s b f).fns = s.fns := rfl
@[simp] theorem modCmd_parts {s : State} {b : Nat} {f : Cmd → Cmd} : (modCmd s b f).parts = s.parts := rfl
@[simp] theorem modCmd_colophon {s : State} {b : Nat} {f : Cmd → Cmd} : (modCmd s b f).colophon = s.colophon := rfl
@[simp] theorem modCmd_corr {s : State} {b : Nat} {f : Cmd → Cmd} : (modCmd s b f).corr = s.corr := rfl
@[simp] theorem modCmd_ot {s : State} {b : Nat} {f : Cmd → Cmd} : (modCmd s b f).ot = s.ot := rfl
@[simp] theorem modCmd_pwr {s : State} {b : Nat} {f : Cmd → Cmd} : (modCmd s b f).pwr = s.pwr := rfl
@[simp] theorem modCmd_regs {s : State} {b : Nat} {f : Cmd → Cmd} : (modCmd s b f).regs = s.regs := rfl
@[simp] theorem modCmd_seq {s : State} {b : Nat} {f : Cmd → Cmd} : (modCmd s b f).seq = s.seq := rfl

@[simp] theorem modTile_pending {s : State} {b : Nat} {f : Tile → Tile} : (modTile s b f).pending = s.pending := rfl
@[simp] theorem modTile_free {s : State} {b : Nat} {f : Tile → Tile} : (modTile s b f).free = s.free := rfl
@[simp] theorem modTile_now {s : State} {b : Nat} {f : Tile → Tile} : (modTile s b f).now = s.now := rfl
@[simp] theorem modTile_mode {s : State} {b : Nat} {f : Tile → Tile} : (modTile s b f).mode = s.mode := rfl
@[simp] theorem modTile_bays {s : State} {b : Nat} {f : Tile → Tile} : (modTile s b f).bays = s.bays := rfl
@[simp] theorem modTile_nets {s : State} {b : Nat} {f : Tile → Tile} : (modTile s b f).nets = s.nets := rfl
@[simp] theorem modTile_reports {s : State} {b : Nat} {f : Tile → Tile} : (modTile s b f).reports = s.reports := rfl
@[simp] theorem modTile_hbm {s : State} {b : Nat} {f : Tile → Tile} : (modTile s b f).hbm = s.hbm := rfl
@[simp] theorem modTile_mem {s : State} {b : Nat} {f : Tile → Tile} : (modTile s b f).mem = s.mem := rfl
@[simp] theorem modTile_shelvers {s : State} {b : Nat} {f : Tile → Tile} : (modTile s b f).shelvers = s.shelvers := rfl
@[simp] theorem modTile_cat {s : State} {b : Nat} {f : Tile → Tile} : (modTile s b f).cat = s.cat := rfl
@[simp] theorem modTile_fab {s : State} {b : Nat} {f : Tile → Tile} : (modTile s b f).fab = s.fab := rfl
@[simp] theorem modTile_sites {s : State} {b : Nat} {f : Tile → Tile} : (modTile s b f).sites = s.sites := rfl
@[simp] theorem modTile_vols {s : State} {b : Nat} {f : Tile → Tile} : (modTile s b f).vols = s.vols := rfl
@[simp] theorem modTile_sec {s : State} {b : Nat} {f : Tile → Tile} : (modTile s b f).sec = s.sec := rfl
@[simp] theorem modTile_smb {s : State} {b : Nat} {f : Tile → Tile} : (modTile s b f).smb = s.smb := rfl
@[simp] theorem modTile_fns {s : State} {b : Nat} {f : Tile → Tile} : (modTile s b f).fns = s.fns := rfl
@[simp] theorem modTile_parts {s : State} {b : Nat} {f : Tile → Tile} : (modTile s b f).parts = s.parts := rfl
@[simp] theorem modTile_colophon {s : State} {b : Nat} {f : Tile → Tile} : (modTile s b f).colophon = s.colophon := rfl
@[simp] theorem modTile_corr {s : State} {b : Nat} {f : Tile → Tile} : (modTile s b f).corr = s.corr := rfl
@[simp] theorem modTile_ot {s : State} {b : Nat} {f : Tile → Tile} : (modTile s b f).ot = s.ot := rfl
@[simp] theorem modTile_pwr {s : State} {b : Nat} {f : Tile → Tile} : (modTile s b f).pwr = s.pwr := rfl
@[simp] theorem modTile_regs {s : State} {b : Nat} {f : Tile → Tile} : (modTile s b f).regs = s.regs := rfl
@[simp] theorem modTile_seq {s : State} {b : Nat} {f : Tile → Tile} : (modTile s b f).seq = s.seq := rfl

@[simp] theorem modQueue_pending {s : State} {b : Nat} {f : Queue → Queue} : (modQueue s b f).pending = s.pending := rfl
@[simp] theorem modQueue_free {s : State} {b : Nat} {f : Queue → Queue} : (modQueue s b f).free = s.free := rfl
@[simp] theorem modQueue_now {s : State} {b : Nat} {f : Queue → Queue} : (modQueue s b f).now = s.now := rfl
@[simp] theorem modQueue_mode {s : State} {b : Nat} {f : Queue → Queue} : (modQueue s b f).mode = s.mode := rfl
@[simp] theorem modQueue_bays {s : State} {b : Nat} {f : Queue → Queue} : (modQueue s b f).bays = s.bays := rfl
@[simp] theorem modQueue_nets {s : State} {b : Nat} {f : Queue → Queue} : (modQueue s b f).nets = s.nets := rfl
@[simp] theorem modQueue_reports {s : State} {b : Nat} {f : Queue → Queue} : (modQueue s b f).reports = s.reports := rfl
@[simp] theorem modQueue_hbm {s : State} {b : Nat} {f : Queue → Queue} : (modQueue s b f).hbm = s.hbm := rfl
@[simp] theorem modQueue_mem {s : State} {b : Nat} {f : Queue → Queue} : (modQueue s b f).mem = s.mem := rfl
@[simp] theorem modQueue_shelvers {s : State} {b : Nat} {f : Queue → Queue} : (modQueue s b f).shelvers = s.shelvers := rfl
@[simp] theorem modQueue_cat {s : State} {b : Nat} {f : Queue → Queue} : (modQueue s b f).cat = s.cat := rfl
@[simp] theorem modQueue_fab {s : State} {b : Nat} {f : Queue → Queue} : (modQueue s b f).fab = s.fab := rfl
@[simp] theorem modQueue_sites {s : State} {b : Nat} {f : Queue → Queue} : (modQueue s b f).sites = s.sites := rfl
@[simp] theorem modQueue_vols {s : State} {b : Nat} {f : Queue → Queue} : (modQueue s b f).vols = s.vols := rfl
@[simp] theorem modQueue_sec {s : State} {b : Nat} {f : Queue → Queue} : (modQueue s b f).sec = s.sec := rfl
@[simp] theorem modQueue_smb {s : State} {b : Nat} {f : Queue → Queue} : (modQueue s b f).smb = s.smb := rfl
@[simp] theorem modQueue_fns {s : State} {b : Nat} {f : Queue → Queue} : (modQueue s b f).fns = s.fns := rfl
@[simp] theorem modQueue_parts {s : State} {b : Nat} {f : Queue → Queue} : (modQueue s b f).parts = s.parts := rfl
@[simp] theorem modQueue_colophon {s : State} {b : Nat} {f : Queue → Queue} : (modQueue s b f).colophon = s.colophon := rfl
@[simp] theorem modQueue_corr {s : State} {b : Nat} {f : Queue → Queue} : (modQueue s b f).corr = s.corr := rfl
@[simp] theorem modQueue_ot {s : State} {b : Nat} {f : Queue → Queue} : (modQueue s b f).ot = s.ot := rfl
@[simp] theorem modQueue_pwr {s : State} {b : Nat} {f : Queue → Queue} : (modQueue s b f).pwr = s.pwr := rfl
@[simp] theorem modQueue_regs {s : State} {b : Nat} {f : Queue → Queue} : (modQueue s b f).regs = s.regs := rfl
@[simp] theorem modQueue_seq {s : State} {b : Nat} {f : Queue → Queue} : (modQueue s b f).seq = s.seq := rfl

@[simp] theorem modObj_pending {s : State} {b : Nat} {f : MemObj → MemObj} : (modObj s b f).pending = s.pending := rfl
@[simp] theorem modObj_free {s : State} {b : Nat} {f : MemObj → MemObj} : (modObj s b f).free = s.free := rfl
@[simp] theorem modObj_now {s : State} {b : Nat} {f : MemObj → MemObj} : (modObj s b f).now = s.now := rfl
@[simp] theorem modObj_mode {s : State} {b : Nat} {f : MemObj → MemObj} : (modObj s b f).mode = s.mode := rfl
@[simp] theorem modObj_bays {s : State} {b : Nat} {f : MemObj → MemObj} : (modObj s b f).bays = s.bays := rfl
@[simp] theorem modObj_nets {s : State} {b : Nat} {f : MemObj → MemObj} : (modObj s b f).nets = s.nets := rfl
@[simp] theorem modObj_reports {s : State} {b : Nat} {f : MemObj → MemObj} : (modObj s b f).reports = s.reports := rfl
@[simp] theorem modObj_hbm {s : State} {b : Nat} {f : MemObj → MemObj} : (modObj s b f).hbm = s.hbm := rfl
@[simp] theorem modObj_mem {s : State} {b : Nat} {f : MemObj → MemObj} : (modObj s b f).mem = s.mem := rfl
@[simp] theorem modObj_shelvers {s : State} {b : Nat} {f : MemObj → MemObj} : (modObj s b f).shelvers = s.shelvers := rfl
@[simp] theorem modObj_cat {s : State} {b : Nat} {f : MemObj → MemObj} : (modObj s b f).cat = s.cat := rfl
@[simp] theorem modObj_fab {s : State} {b : Nat} {f : MemObj → MemObj} : (modObj s b f).fab = s.fab := rfl
@[simp] theorem modObj_sites {s : State} {b : Nat} {f : MemObj → MemObj} : (modObj s b f).sites = s.sites := rfl
@[simp] theorem modObj_vols {s : State} {b : Nat} {f : MemObj → MemObj} : (modObj s b f).vols = s.vols := rfl
@[simp] theorem modObj_sec {s : State} {b : Nat} {f : MemObj → MemObj} : (modObj s b f).sec = s.sec := rfl
@[simp] theorem modObj_smb {s : State} {b : Nat} {f : MemObj → MemObj} : (modObj s b f).smb = s.smb := rfl
@[simp] theorem modObj_fns {s : State} {b : Nat} {f : MemObj → MemObj} : (modObj s b f).fns = s.fns := rfl
@[simp] theorem modObj_parts {s : State} {b : Nat} {f : MemObj → MemObj} : (modObj s b f).parts = s.parts := rfl
@[simp] theorem modObj_colophon {s : State} {b : Nat} {f : MemObj → MemObj} : (modObj s b f).colophon = s.colophon := rfl
@[simp] theorem modObj_corr {s : State} {b : Nat} {f : MemObj → MemObj} : (modObj s b f).corr = s.corr := rfl
@[simp] theorem modObj_ot {s : State} {b : Nat} {f : MemObj → MemObj} : (modObj s b f).ot = s.ot := rfl
@[simp] theorem modObj_pwr {s : State} {b : Nat} {f : MemObj → MemObj} : (modObj s b f).pwr = s.pwr := rfl
@[simp] theorem modObj_regs {s : State} {b : Nat} {f : MemObj → MemObj} : (modObj s b f).regs = s.regs := rfl
@[simp] theorem modObj_seq {s : State} {b : Nat} {f : MemObj → MemObj} : (modObj s b f).seq = s.seq := rfl

@[simp] theorem reach_pending {s : State} {t : Nat} : (reach s t).pending = s.pending := rfl
@[simp] theorem reach_free {s : State} {t : Nat} : (reach s t).free = s.free := rfl
@[simp] theorem reach_now {s : State} {t : Nat} : (reach s t).now = max s.now t := rfl
@[simp] theorem reach_mode {s : State} {t : Nat} : (reach s t).mode = s.mode := rfl
@[simp] theorem reach_bays {s : State} {t : Nat} : (reach s t).bays = s.bays := rfl
@[simp] theorem reach_nets {s : State} {t : Nat} : (reach s t).nets = s.nets := rfl
@[simp] theorem reach_reports {s : State} {t : Nat} : (reach s t).reports = s.reports := rfl
@[simp] theorem reach_hbm {s : State} {t : Nat} : (reach s t).hbm = s.hbm := rfl
@[simp] theorem reach_mem {s : State} {t : Nat} : (reach s t).mem = s.mem := rfl
@[simp] theorem reach_shelvers {s : State} {t : Nat} : (reach s t).shelvers = s.shelvers := rfl
@[simp] theorem reach_cat {s : State} {t : Nat} : (reach s t).cat = s.cat := rfl
@[simp] theorem reach_fab {s : State} {t : Nat} : (reach s t).fab = s.fab := rfl
@[simp] theorem reach_sites {s : State} {t : Nat} : (reach s t).sites = s.sites := rfl
@[simp] theorem reach_vols {s : State} {t : Nat} : (reach s t).vols = s.vols := rfl
@[simp] theorem reach_sec {s : State} {t : Nat} : (reach s t).sec = s.sec := rfl
@[simp] theorem reach_smb {s : State} {t : Nat} : (reach s t).smb = s.smb := rfl
@[simp] theorem reach_work {s : State} {t : Nat} : (reach s t).work = s.work := rfl
@[simp] theorem reach_fns {s : State} {t : Nat} : (reach s t).fns = s.fns := rfl
@[simp] theorem reach_parts {s : State} {t : Nat} : (reach s t).parts = s.parts := rfl
@[simp] theorem reach_colophon {s : State} {t : Nat} : (reach s t).colophon = s.colophon := rfl
@[simp] theorem reach_corr {s : State} {t : Nat} : (reach s t).corr = s.corr := rfl
@[simp] theorem reach_ot {s : State} {t : Nat} : (reach s t).ot = s.ot := rfl
@[simp] theorem reach_pwr {s : State} {t : Nat} : (reach s t).pwr = s.pwr := rfl
@[simp] theorem reach_regs {s : State} {t : Nat} : (reach s t).regs = s.regs := rfl
@[simp] theorem reach_seq {s : State} {t : Nat} : (reach s t).seq = s.seq := rfl

@[simp] theorem State.fresh_pending {s : State} : (s.fresh.2).pending = s.pending := rfl
@[simp] theorem State.fresh_free {s : State} : (s.fresh.2).free = s.free + 1 := rfl
@[simp] theorem State.fresh_now {s : State} : (s.fresh.2).now = s.now := rfl
@[simp] theorem State.fresh_mode {s : State} : (s.fresh.2).mode = s.mode := rfl
@[simp] theorem State.fresh_bays {s : State} : (s.fresh.2).bays = s.bays := rfl
@[simp] theorem State.fresh_nets {s : State} : (s.fresh.2).nets = s.nets := rfl
@[simp] theorem State.fresh_reports {s : State} : (s.fresh.2).reports = s.reports := rfl
@[simp] theorem State.fresh_hbm {s : State} : (s.fresh.2).hbm = s.hbm := rfl
@[simp] theorem State.fresh_mem {s : State} : (s.fresh.2).mem = s.mem := rfl
@[simp] theorem State.fresh_shelvers {s : State} : (s.fresh.2).shelvers = s.shelvers := rfl
@[simp] theorem State.fresh_cat {s : State} : (s.fresh.2).cat = s.cat := rfl
@[simp] theorem State.fresh_fab {s : State} : (s.fresh.2).fab = s.fab := rfl
@[simp] theorem State.fresh_sites {s : State} : (s.fresh.2).sites = s.sites := rfl
@[simp] theorem State.fresh_vols {s : State} : (s.fresh.2).vols = s.vols := rfl
@[simp] theorem State.fresh_sec {s : State} : (s.fresh.2).sec = s.sec := rfl
@[simp] theorem State.fresh_smb {s : State} : (s.fresh.2).smb = s.smb := rfl
@[simp] theorem State.fresh_work {s : State} : (s.fresh.2).work = s.work := rfl
@[simp] theorem State.fresh_fns {s : State} : (s.fresh.2).fns = s.fns := rfl
@[simp] theorem State.fresh_parts {s : State} : (s.fresh.2).parts = s.parts := rfl
@[simp] theorem State.fresh_colophon {s : State} : (s.fresh.2).colophon = s.colophon := rfl
@[simp] theorem State.fresh_corr {s : State} : (s.fresh.2).corr = s.corr := rfl
@[simp] theorem State.fresh_ot {s : State} : (s.fresh.2).ot = s.ot := rfl
@[simp] theorem State.fresh_pwr {s : State} : (s.fresh.2).pwr = s.pwr := rfl
@[simp] theorem State.fresh_regs {s : State} : (s.fresh.2).regs = s.regs := rfl
@[simp] theorem State.fresh_seq {s : State} : (s.fresh.2).seq = s.seq := rfl

/-! Tables: an entry put is found, and every other entry is as before. -/

theorem Tbl.find_put {α : Type} {t : Tbl α} {i j : Nat} {v : α} : Tbl.find (Tbl.put t i v) j = if i = j then some v else Tbl.find t j := by
  induction t with
  | nil => simp only [Tbl.put, Tbl.find]; grind
  | cons e t ih => obtain ⟨k, w⟩ := e; simp only [Tbl.put]; grind [Tbl.find]

theorem Tbl.getD_put {α : Type} {t : Tbl α} {i j : Nat} {v d : α} : Tbl.getD (Tbl.put t i v) j d = if i = j then v else Tbl.getD t j d := by
  unfold Tbl.getD; rw [Tbl.find_put]; split <;> rfl

theorem Tbl.has_put {α : Type} {t : Tbl α} {i j : Nat} {v : α} : Tbl.has (Tbl.put t i v) j = (decide (i = j) || Tbl.has t j) := by
  unfold Tbl.has; rw [Tbl.find_put]; split <;> simp_all

/-! What the accessors read back. -/

@[simp] theorem State.bay_setBay {s : State} {i j : Nat} {x : Bay} : (s.setBay i x).bay j = if i = j then x else s.bay j := Tbl.getD_put
@[simp] theorem State.bay_modBay {s : State} {i j : Nat} {f : Bay → Bay} : (s.modBay i f).bay j = if i = j then f (s.bay i) else s.bay j := Tbl.getD_put

@[simp] theorem State.stack_setStack {s : State} {i j : Nat} {x : Stack} : (s.setStack i x).stack j = if i = j then x else s.stack j := Tbl.getD_put
@[simp] theorem State.stack_modStack {s : State} {i j : Nat} {f : Stack → Stack} : (s.modStack i f).stack j = if i = j then f (s.stack i) else s.stack j := Tbl.getD_put

@[simp] theorem State.fn_setFn {s : State} {i j : Nat} {x : Fn} : (s.setFn i x).fn j = if i = j then x else s.fn j := Tbl.getD_put
@[simp] theorem State.fn_modFn {s : State} {i j : Nat} {f : Fn → Fn} : (s.modFn i f).fn j = if i = j then f (s.fn i) else s.fn j := Tbl.getD_put

@[simp] theorem State.part_setPart {s : State} {i j : Nat} {x : Part} : (s.setPart i x).part j = if i = j then x else s.part j := Tbl.getD_put
@[simp] theorem State.part_modPart {s : State} {i j : Nat} {f : Part → Part} : (s.modPart i f).part j = if i = j then f (s.part i) else s.part j := Tbl.getD_put

@[simp] theorem State.shelver_setShelver {s : State} {i j : Nat} {x : Shelver} : (s.setShelver i x).shelver j = if i = j then x else s.shelver j := Tbl.getD_put
@[simp] theorem State.shelver_modShelver {s : State} {i j : Nat} {f : Shelver → Shelver} : (s.modShelver i f).shelver j = if i = j then f (s.shelver i) else s.shelver j := Tbl.getD_put

end Sys2Proof.Machine
end

