-- ==== Sys2Proof/Laws/Steps.lean ====
section
/-! SUPPORT. What the shared runners of commands do when their conditions hold: one lemma for each, cited where a command's own
effect is proved. -/

namespace Sys2Proof.Machine
set_option Elab.async false
set_option linter.all false

/-- A core that may run executes `f` on the fetched state. -/
theorem coreStep_ready {s t : State} {b : BayNo} {c : CoreNo} {len : Nat} {f : State → CoreGot Nat} (h : CoreReady s b c len t) :
    coreStep s b c len f = coreEnd b c (f t) := by
  simp [coreStep, h.1, h.2]

/-- One of the part's own scalar instructions, on a core that has it. -/
theorem ownStep_scalar {s t : State} {b : BayNo} {c : CoreNo} {w : Nat} {f : State → Nat → CoreGot Nat} (h : CoreReady s b c 4 t)
    (hc : c.val ≠ 4) : ownStep s b c false w f = coreEnd b c (f t (pc4 t b c)) := by
  simp [ownStep, coreStep_ready h, hc, pc4]

/-- One of the part's own vector instructions, on a vector core. -/
theorem ownStep_vector {s t : State} {b : BayNo} {c : CoreNo} {w : Nat} {f : State → Nat → CoreGot Nat} (h : CoreReady s b c 4 t)
    (hc : c.val < 4) : ownStep s b c true w f = coreEnd b c (f t (pc4 t b c)) := by
  simp [ownStep, coreStep_ready h, pc4, Nat.not_le.mpr hc]

/-- A Shelver's command that is ready and admitted comes to what its operation does. -/
theorem shStart_ready {s u v : State} {sh op q : Nat} {w : BitVec 1024} {c : ShCx} {r : ShRun} {isOp : Nat → Bool}
    {f : State → ShCx → BitVec 1024 → ShRun → ShRes} (h : ShReady s sh op q w u c) (ho : isOp op = true)
    (hd : shDoes f u c w (shAdmitted s sh q w c) = .did v r) : shStart s sh isOp f = startRun v sh q r := by
  obtain ⟨h1, h2, h3, h4, t, bs, h6, h7, h8⟩ := h
  subst h7
  simp only [shDoes, shAdmitted] at hd
  simp only [shStart, h1, h2, h6, h4, ho, h3, h8]
  split at hd
  · simp_all
  · simp_all

/-- Charging a tile takes no time. -/
@[simp] theorem chargeTile_now (s : State) (id : Nat) (d : Counters) : (chargeTile s id d).now = s.now := by
  unfold chargeTile; split
  · split <;> rfl
  · rfl

/-- Replacing a link takes no time. -/
@[simp] theorem setLink_now (s : State) (n : Nat) (l : Link) : (setLink s n l).now = s.now := by
  unfold setLink; split <;> rfl

/-- A mailbox command that may run and passes its checks does its body. -/
theorem mbCommand_takes {s : State} {m : MbSlot} {op : Nat} {mine : MbCmd → Bool} {checks : State → MbCmd → MbChecks}
    {body later : State → MbCmd → MbRes} {c : MbCmd} (h : MbTakes s m op c (checks s c)) (hm : mine c = true) :
    mbCommand s m op mine checks body later = (match body s c with
      | .done s st d res => mbAnswer s m.fn c st d res
      | .going t a => mbGoes t m c t.now a) := by
  obtain ⟨h1, h2, h3, h4, h5, h6, h7, h8⟩ := h
  have h9 : (s.seq.fnZeroOnly && m.fn.val != 0) = false := by
    cases h7 with
    | inl h => simp [h]
    | inr h => simp [h]
  simp only [mbCommand, h1]
  simp [h2, h3, h4, h5, h6, h8, h9, hm, mbGoes] <;> (cases body s c <;> rfl)

end Sys2Proof.Machine
end

