-- ==== Sys2Proof/Tests/Slice0.lean ====
section
/-! SUPPORT. Small tests, an ill-formed command for each check of WellFormed, and for each obligation states that meet its hypotheses. -/

set_option Elab.async false
set_option linter.all false

namespace Sys2Proof.Machine

/-! Answers as options: what a witness takes from a call that answers it. -/

def CoreGot.opt {α : Type} : CoreGot α → Option (State × α) | .ok s a => some (s, a) | _ => none
theorem CoreGot.of_opt {α : Type} {x : CoreGot α} {p : State × α} (h : x.opt = some p) : x = .ok p.1 p.2 := by cases x <;> simp_all [CoreGot.opt]; rw [← h]; exact ⟨rfl, rfl⟩
def Got.opt {α : Type} : Got α → Option (State × α) | .ok s a => some (s, a) | _ => none
theorem Got.of_opt {α : Type} {x : Got α} {p : State × α} (h : x.opt = some p) : x = .ok p.1 p.2 := by cases x <;> simp_all [Got.opt]; rw [← h]; exact ⟨rfl, rfl⟩
def TileGot.opt {α : Type} : TileGot α → Option (State × α) | .ok s a => some (s, a) | _ => none
theorem TileGot.of_opt {α : Type} {x : TileGot α} {p : State × α} (h : x.opt = some p) : x = .ok p.1 p.2 := by cases x <;> simp_all [TileGot.opt]; rw [← h]; exact ⟨rfl, rfl⟩
def OtMem.opt : OtMem → Option (Rq × Nat) | .ok s a => some (s, a) | _ => none
theorem OtMem.of_opt {x : OtMem} {p : Rq × Nat} (h : x.opt = some p) : x = .ok p.1 p.2 := by cases x <;> simp_all [OtMem.opt]; rw [← h]; exact ⟨rfl, rfl⟩
def Admit.opt : Admit → Option (State × ShCx) | .go s a => some (s, a) | _ => none
theorem Admit.of_opt {x : Admit} {p : State × ShCx} (h : x.opt = some p) : x = .go p.1 p.2 := by cases x <;> simp_all [Admit.opt]; rw [← h]; exact ⟨rfl, rfl⟩
def ShRes.opt : ShRes → Option (State × ShRun) | .did s a => some (s, a) | _ => none
theorem ShRes.of_opt {x : ShRes} {p : State × ShRun} (h : x.opt = some p) : x = .did p.1 p.2 := by cases x <;> simp_all [ShRes.opt]; rw [← h]; exact ⟨rfl, rfl⟩
def MbRes.opt : MbRes → Option (State × Nat × List Nat) | .done s 0 d r => some (s, d, r) | _ => none
theorem MbRes.of_opt {x : MbRes} {p : State × Nat × List Nat} (h : x.opt = some p) : x = .done p.1 0 p.2.1 p.2.2 := by
  cases x with
  | done s n d r => cases n <;> simp_all [MbRes.opt]; rw [← h]; exact ⟨rfl, rfl, rfl⟩
  | going => simp_all [MbRes.opt]
def Except.opt' {α : Type} : Except State α → Option α | .ok a => some a | _ => none
theorem Except.of_opt' {α : Type} {x : Except State α} {p : α} (h : Except.opt' x = some p) : x = .ok p := by cases x <;> simp_all [Except.opt']
theorem of_get {α : Type} {x : Option α} (h : x.isSome = true) : x = some (x.get h) := (Option.some_get h).symm
theorem one_of {α : Type} {l : List α} (h : l.length = 1) (g : l.head?.isSome = true) : l = [l.head?.get g] := by
  match l, h with
  | [a], _ => rfl
def nextOf (o : Host.Outcome State Fault Refusal) : State := match o with | .next s => s | _ => {}
theorem CoreGot.of_opt1 {x : CoreGot Unit} {p : State × Unit} (h : x.opt = some p) : x = .ok p.1 () := CoreGot.of_opt h
theorem Got.of_opt1 {x : Got Unit} {p : State × Unit} (h : x.opt = some p) : x = .ok p.1 () := Got.of_opt h
theorem TileGot.of_opt1 {x : TileGot Unit} {p : State × Unit} (h : x.opt = some p) : x = .ok p.1 () := TileGot.of_opt h
theorem Except.ok1 {x : Except State Unit} (h : (Except.opt' x).isSome = true) : x = .ok () := by cases x <;> simp_all [Except.opt']
theorem Got.of_opt2 {α β : Type} {x : Got (α × β)} (h : x.opt.isSome = true) : ∃ t a b, x = .ok t (a, b) := by
  cases x with
  | ok s p => exact ⟨s, p.1, p.2, rfl⟩
  | wait s => simp [Got.opt] at h
  | bad s a => simp [Got.opt] at h
theorem prod_of {α : Type} {x : α × Bool} (h : x.2 = true) : x = (x.1, true) := by rw [← h]
def OtGate.num : OtGate → Nat | .serve => 0 | .drop => 1 | _ => 2
theorem OtGate.serves {x : OtGate} (h : x.num = 0) : x = .serve := by cases x <;> first | rfl | (revert h; simp [OtGate.num])
theorem OtGate.drops {x : OtGate} (h : x.num = 1) : x = .drop := by cases x <;> first | rfl | (revert h; simp [OtGate.num])
theorem OtMem.of_some {x : OtMem} {r : Rq} {d : Nat} (h : x.opt = some (r, d)) : x = .ok r d := OtMem.of_opt h

/-! An ill-formed command for each check of WellFormed, which refuses it. -/

theorem test_wf_offset : wellFormed (.loReadLatch { blk := .timePower, off := 2 }) = false := by decide
theorem test_wf_hold : wellFormed (.loWriteHold .registrar { blk := .timePower, off := 3 } 0) = false := by decide
theorem test_wf_commit : wellFormed (.hiWriteCommit .registrar { blk := .timePower, off := 1 } 0) = false := by decide
theorem test_wf_clear : wellFormed (.statusSeqClear .registrar { blk := .security, off := 6 } 0) = false := by decide
theorem test_wf_write : wellFormed (.registerWrite .registrar (.bay 0) 5 0) = false := by decide
theorem test_wf_row : wellFormed (.flitParityError (.bank 0 0 6152) false) = false := by decide
theorem test_wf_link : wellFormed (.linkSilence 0 7 7) = false := by decide
theorem test_wf_line : wellFormed (.stackRequest { src := .registrar, addr := 124, op := .read 8, noAllocate := false, errors := [] }) = false := by decide
theorem test_wf_pages : wellFormed (.catalogueLookup 0 (.ctx 0 0) 0 .read 513) = false := by decide
theorem test_wf_peer : peerFits { verified := true, device := 0, port := 0, bondSize := 0, members := [], secret := 0, devId := 0, agents := 0, cachesClean := true, lanes := 8 } = false := by decide
theorem test_wf_packet : packetFits { hdr := 0, payload := List.replicate 513 0#8 } = false := by decide +kernel
theorem test_wf_routes : wellFormed (.routeLoad { fn := 0, index := 0 } [0#8]) = false := by decide
theorem test_wf_map : mapFits (List.replicate 64 0#8) = false := by decide
theorem test_wf_policy : policyFits (List.replicate 8 0#8) = false := by decide
theorem test_wf_key : wellFormed (.keyImport { fn := 1, index := 0 } []) = false := by decide
theorem test_wf_token : wellFormed (.lcReturnToken { fn := 0, index := 0 } []) = false := by decide
theorem test_wf_timer : wellFormed (.stepTimerOverrun 0 0) = false := by decide
theorem test_wf_message : messageFits { hdr := 0, data := [0#8] } = false := by decide
theorem test_wf_cmd_doorbell : wellFormed (.cmdDb 0 0 0) = false := by decide
theorem test_wf_cpl_doorbell : wellFormed (.cplDb 0 0 0) = false := by decide

/-! The functions that a rule takes from a standard, on that standard's own examples, and the example of 00 R5. -/

/-- The check value of CRC-32 (11 R305). -/
theorem test_crc32 : crc32 ("123456789".toUTF8.toList.map (fun b => BitVec.ofNat 8 b.toNat)) = 0xCBF43926 := by decide +kernel
/-- FIPS 197, appendix C.3 (17 R474). -/
theorem test_aes : aesEnc (aesKey ((List.range 32).map (BitVec.ofNat 8))) ((List.range 16).map (fun i => 17 * i)) =
    [0x8e, 0xa2, 0xb7, 0xca, 0x51, 0x67, 0x45, 0xbf, 0xea, 0xfc, 0x49, 0x90, 0x4b, 0x49, 0x60, 0x89] := by decide +kernel
/-- The GCM specification's test case 13 (17 R474). -/
theorem test_gcm : gcmTag (aesKey (List.replicate 32 0#8)) (List.replicate 12 0#8) [] [] = bytesBE 16 0x530f8afbc74536b9a963b4f1c4cb738b := by decide +kernel
/-- The event of the example was counted after the first read: 0x0012 is ignored and 0x0013 clears (00 R5). -/
theorem test_status_kept : (readReg (nextOf (exec (.statusSeqClear .registrar { blk := .sequencer, off := 4 } 0x12)
    { ({} : State) with seq := { rstStatus := 0x10013#32 } })) .sequencer 4).2 = 0x10013 := by decide +kernel
theorem test_status_cleared : (readReg (nextOf (exec (.statusSeqClear .registrar { blk := .sequencer, off := 4 } 0x13)
    { ({} : State) with seq := { rstStatus := 0x10013#32 } })) .sequencer 4).2 = 0x13 := by decide +kernel


/-! A small machine: one partition, whose context 0 has one page of stack memory at virtual 0 and runs tile 1 on Bay 0. -/

/-- A leaf that maps a page of Shelf 0 with every right (09 R246). -/
def wLeaf (pa : Nat) : DWord := BitVec.ofNat 64 (59 + pa)

/-- Three levels of tables from 0x8000: virtual pages 0 and 1 at 0x200000 and 0x400000 (09 R244 to R246). -/
def wDram : Mem :=
  Mem.writeLE (Mem.writeLE (Mem.writeLE (Mem.writeLE [] 0x8000 8 0x10001) 0x10000 8 0x18001) 0x18000 8 (59 + 0x200000)) 0x18008 8 (59 + 0x400000)

def wStack : Stack := { shelfOwner := (List.range 16).map (fun i => (i, 1)) }
def wCtx : Ctx := { root := 0x8000, slot := some 0, saveOk := true, maxBays := 4 }
def wSt : State :=
  { mode := 1, hbm := (List.range 8).map (fun k => (k, wStack)), mem := { dram := wDram }
    seq := { fwState := 1, restart := 0, railsGood := true, resetN := true, latched := true, step := 12, healthy0 := true, healthy1 := true, standby := true }
    work := { ctxs := [(0, wCtx)], cmds := [(1, { ctx := 0, word := 1#2048 })], tiles := [(1, { cmd := 1, step := 7 })] } }
def wBay (f : Bay → Bay) : State := wSt.modBay 0 f

/-- A mover descriptor of one run (03 R69). -/
def wDesc (op va bay n : Nat) : BitVec 512 := BitVec.ofNat 512 (op + va * 2 ^ 64 + bay * 2 ^ 128 + n * 2 ^ 160 + 2 ^ 192 + 2 ^ 208)
def wTtb : TtbEntry := { ctx := 0, va := 0, bytes := 0x200000, leaf := wLeaf 0x200000, tiles := [1] }
def wMover (d : BitVec 512) : State := wBay (fun b => { b with
  mem := Mem.writeLE [] 0 64 d.toNat, mover0 := { ready := 1, groupSize := 1, tile := 1, wr := 1, orders := [1] }, ttb := [wTtb], tile := 1 })

/-- Matrix core 0 of Bay 0, which owns every bank, with one descriptor (04 R96, R97). -/
def wMxD (n : Nat) : BitVec 1024 := BitVec.ofNat 1024 n
def wMx (n : Nat) (a : AnchorState := {}) (cells : Tbl Cell := []) (mem : Mem := []) : State :=
  wBay (fun b => { b with owners := 0, mem, mx0 := { fifo := [{ desc := wMxD n }], anchor := a, cells } })
/-- A move of one row of 32 bytes, a multiplication of 16 by 16 by `k` of the format `f`, and a region of 16 by 16 with 512-byte rows (04 R98, R99). -/
def wMove (op : Nat) : Nat := op + 32 * 2 ^ 148 + 32 * 2 ^ 212 + 32 * 2 ^ 352 + 2 ^ 384 + 32 * 2 ^ 400
def wMma (op f k pitch : Nat) : Nat := op + f * 2 ^ 16 + f * 2 ^ 21 + 16 * 2 ^ 64 + 16 * 2 ^ 72 + k * 2 ^ 80 + pitch * 2 ^ 148 + pitch * 2 ^ 212
def wConv : Nat := wMma 7 2 16 32 + 16 * 2 ^ 640 + 16 * 2 ^ 656 + 16 * 2 ^ 672 + 16 * 2 ^ 688 + 0x111111 * 2 ^ 704
def wAcc (op : Nat) : Nat := op + 16 * 2 ^ 64 + 16 * 2 ^ 72 + 512 * 2 ^ 352 + 0x10000 * 2 ^ 480
def wQuant : Nat := 11 + 2 * 2 ^ 16 + 0x10 * 2 ^ 26 + 16 * 2 ^ 64 + 32 * 2 ^ 80 + 64 * 2 ^ 148 + 32 * 2 ^ 212 + 0x8000 * 2 ^ 232 + 32 * 2 ^ 256

/-! Kernel cores of Bay 0 in machine mode, running (05 R125, R146). -/

def wK (k : Core) : Core := { k with running := true }
def wCore (k : Core) : State := wBay (fun b => { b with core0 := wK k, core4 := wK k, owners := 0xFFFFFFFFFFFFFF44#64 })
def wX (xs : Tbl DWord) : State := wCore { x := xs }
def wEnd (router ep : Nat) : CardEnd := { router := BitVec.ofNat 6 router, ep := BitVec.ofNat 4 ep }
def wCard : Card := { srcRouter := 48, srcEp := 0, dstRouter := 1, dstEp := 5, type := 9, arg := 7 }
/-- An image of no sections at virtual address 0 (05 R143, R144), and the command that names it. -/
def wImage : MemObj := { base := 0x200000, bytes := 0x200000, holds := [0], image := some (0, 0, 0) }
/-- A command of which some fields, by bit position, are not 0. -/
def wWord (fs : List (Nat × Nat)) : BitVec 2048 := fs.foldl (fun w f => w ||| (BitVec.ofNat 2048 f.2 <<< f.1)) 0
def wTiles (step : Nat) (f : State → State) : State :=
  f { wSt with work := { wSt.work with objs := [(0, wImage)], cmds := [(1, { ctx := 0, word := wWord [(416, 0x10000)] })], tiles := [(1, { cmd := 1, step })] } }
def wUser : UserMsg := { stamp := 3, vbay := 0, ep := 5, len := 0, arg := 7, payload := [] }
/-- Vector core 0 set for 8 elements of FP64 and anchored operations on FP64 (05 R133). -/
def wAnch : Core := { vtype := 0x18, vl := 8 }
/-- And set for 16 elements of FP32 (05 R136). -/
def wVec : Core := { vtype := 0x10, vl := 16 }
def wStk (k : Nat) (f : Stack → Stack) : State := wSt.modStack k f
def wReq : MemReq := { src := .bay 0, addr := 0x200000, op := .read 64, noAllocate := false, errors := [] }
def wRange : LaRange := { bay := 0, order := 1, addr := 0x200000, bytes := 256 }

/-- Shelver 0 with one command in queue 8, at 0x600000 (07 R185, R187). -/
def wShW (w : BitVec 1024) (d : Mem) (f : State → State) : State :=
  f { wSt with mem := { dram := Mem.writeLE d 0x600000 128 w.toNat }, shelvers := [(0, { ctrl := 0x100, queues := [(8, { cmdBase := 0x600000, wr := 1 })] })] }
def wSh (w : BitVec 1024) (d : Mem := []) : State := wShW w d id
/-- A command with PHYS, of 64-bit words: opcode and flags, SRC, DST, COUNT and size, AUX, IMM, strides, ROWS and COLS, anchor. -/
def wShC (xs : List Nat) : BitVec 1024 := BitVec.ofNat 1024 (natLE (xs.flatMap (bytesLE 8)))
/-- SEAL_INGEST of one record, poisoned, from virtual page 0 into the sealed page 1 (07 R204). -/
def wIngest : BitVec 1024 := wShC [0x0D, 0, 0x200000, 4128]
def wShI : State := wShW wIngest (Mem.writeLE wDram 0x18008 8 (59 + 64 + 0x400000)) (fun s => { s with
  mem := { s.mem with poison := [0x10000] }, cat := { entries := [{ key := 0, part := 0, va := 0, bytes := 0x200000, leaf := wLeaf 0x200000 }, { key := 0, part := 0, va := 0x200000, bytes := 0x200000, leaf := wLeaf 0x400040 }] }, sec := { s.sec with keys := [(0, { key := 1, salt := 2, id := 3 })] } })
/-- A run of COPY with one chunk left that holds a translation, in queue 0. -/
def wRun : ShRun := { word := wShC [0x101, 0x200000, 0x400000, 64], chunks := 1, ttb := [(0, 0, 0x200000, wLeaf 0x200000)] }
def wRunning (r : ShRun) (active : Nat) : State :=
  { wSt with shelvers := [(0, { ctrl := 0x1, active, queues := [(0, { cmdBase := 0x600000, cplBase := 0x700000, wr := 1 })], runs := [(0, r)] })] }
/-- A companion agent on port 0 (16 R442); an L1D line, snoops, grants and answers for line 0x4000. -/
def wOt : State := { wSt with ot := { port0 := { agents := 1, lanes := 8, link := { state := 4 } } } }
def wL1 (st : Moesi) (hold : Nat) : Core := { l1d := [(0x4000, { st, data := 5, holdUntil := hold })] }
def wSnp (kind : Nat) (deferred : Bool) (agent : Nat) : Snoop := { agent, line := 0x4000, kind, deferred }
def wSn (kind : Nat) (st : Moesi) (hold : Nat) (deferred : Bool := false) : State :=
  { wCore (wL1 st hold) with now := 100, mem := { wSt.mem with snoops := [wSnp kind deferred 0] } }
def wTxn : HomeTxn := { req := .outside false, part := 0, await := [1] }
/-- The Catalogue holds page 0 of context 0. -/
def wHit : State := { wSt with cat := { entries := [{ key := 0, part := 0, va := 0, bytes := 0x200000, leaf := wLeaf 0x200000 }] } }

/-! A flit built from its header, its 248 bytes and its CRC-32 (11 R305), and what a port reads back from it. -/

theorem natLE_lt (bs : List Byte) : natLE bs < 256 ^ bs.length := by
  induction bs with
  | nil => simp [natLE]
  | cons b t ih =>
    simp only [natLE, List.length_cons, Nat.pow_succ]
    have := b.isLt
    omega

theorem bytesLE_natLE (bs : List Byte) : bytesLE bs.length (natLE bs) = bs := by
  induction bs with
  | nil => rfl
  | cons b t ih =>
    have hb := b.isLt
    have h1 : (b.toNat + 256 * natLE t) / 256 = natLE t := by omega
    simp only [natLE, List.length_cons, bytesLE, h1, ih]
    congr 1
    apply BitVec.eq_of_toNat_eq
    simp
    omega

theorem natLE_append (a b : List Byte) : natLE (a ++ b) = natLE a + 256 ^ a.length * natLE b := by
  induction a with
  | nil => simp [natLE]
  | cons x t ih => simp only [List.cons_append, natLE, ih, List.length_cons, Nat.pow_succ, Nat.mul_add, Nat.add_assoc, Nat.mul_comm (256 ^ t.length) 256, Nat.mul_assoc]

theorem natLE_bytesLE (n v : Nat) : natLE (bytesLE n v) = v % 256 ^ n := by
  induction n generalizing v with
  | zero => simp [bytesLE, natLE, Nat.mod_one]
  | succ n ih =>
    simp only [bytesLE, natLE, ih, Nat.pow_succ]
    rw [Nat.mul_comm (256 ^ n) 256, Nat.mod_mul]
    simp

@[simp] theorem bytesLE_length (n v : Nat) : (bytesLE n v).length = n := by
  induction n generalizing v with
  | zero => rfl
  | succ n ih => simp [bytesLE, ih]

theorem crc32_lt (bs : List Byte) : crc32 bs < 2 ^ 32 := by
  have step : ∀ c : Nat, c < 2 ^ 32 → (if c % 2 == 1 then (c / 2) ^^^ 0xEDB88320 else c / 2) < 2 ^ 32 := by
    intro c h
    split
    · exact Nat.xor_lt_two_pow (by omega) (by decide +kernel)
    · omega
  have inner : ∀ (l : List Nat) (c : Nat), c < 2 ^ 32 → l.foldl (fun c _ => if c % 2 == 1 then (c / 2) ^^^ 0xEDB88320 else c / 2) c < 2 ^ 32 := by
    intro l
    induction l with
    | nil => intro c h; exact h
    | cons x t ih =>
      intro c h
      exact ih _ (step c h)
  have outer : ∀ (l : List Byte) (c : Nat), c < 2 ^ 32 →
      l.foldl (fun c b => (List.range 8).foldl (fun c _ => if c % 2 == 1 then (c / 2) ^^^ 0xEDB88320 else c / 2) (c ^^^ b.toNat)) c < 2 ^ 32 := by
    intro l
    induction l with
    | nil => intro c h; exact h
    | cons x t ih =>
      intro c h
      refine ih _ (inner _ _ (Nat.xor_lt_two_pow h ?_))
      have := x.isLt
      omega
  exact Nat.xor_lt_two_pow (outer _ _ (by decide +kernel)) (by decide +kernel)

@[irreducible] def mkFlit (hdr : Nat) (body : List Byte) (e : Nat := 0) : BitVec 2048 :=
  BitVec.ofNat 2048 (natLE (bytesLE 4 hdr ++ body ++ bytesLE 4 (crc32 (bytesLE 4 hdr ++ body) + e)))

theorem mkFlit_bytes {body : List Byte} (h : body.length = 248) (hdr e : Nat) :
    flitBytes (mkFlit hdr body e) = bytesLE 4 hdr ++ body ++ bytesLE 4 (crc32 (bytesLE 4 hdr ++ body) + e) := by
  have hl : (bytesLE 4 hdr ++ body ++ bytesLE 4 (crc32 (bytesLE 4 hdr ++ body) + e)).length = 256 := by simp [h]
  have hb := natLE_lt (bytesLE 4 hdr ++ body ++ bytesLE 4 (crc32 (bytesLE 4 hdr ++ body) + e))
  rw [hl] at hb
  have hp : (256 : Nat) ^ 256 = 2 ^ 2048 := by decide +kernel
  rw [hp] at hb
  unfold mkFlit
  simp only [flitBytes, BitVec.toNat_ofNat, Nat.mod_eq_of_lt hb]
  have := bytesLE_natLE (bytesLE 4 hdr ++ body ++ bytesLE 4 (crc32 (bytesLE 4 hdr ++ body) + e))
  rw [hl] at this
  exact this

theorem mkFlit_toNat {body : List Byte} (h : body.length = 248) (hdr e : Nat) :
    (mkFlit hdr body e).toNat = hdr % 2 ^ 32 + 2 ^ 32 * natLE body + 2 ^ 2016 * ((crc32 (bytesLE 4 hdr ++ body) + e) % 2 ^ 32) := by
  have hl : (bytesLE 4 hdr ++ body ++ bytesLE 4 (crc32 (bytesLE 4 hdr ++ body) + e)).length = 256 := by simp [h]
  have hb := natLE_lt (bytesLE 4 hdr ++ body ++ bytesLE 4 (crc32 (bytesLE 4 hdr ++ body) + e))
  rw [hl] at hb
  have hp : (256 : Nat) ^ 256 = 2 ^ 2048 := by decide +kernel
  rw [hp] at hb
  unfold mkFlit
  simp only [BitVec.toNat_ofNat, Nat.mod_eq_of_lt hb]
  rw [natLE_append, natLE_append, natLE_bytesLE, natLE_bytesLE]
  have h1 : (bytesLE 4 hdr ++ body).length = 252 := by simp [h]
  rw [h1, bytesLE_length]
  have e1 : (256 : Nat) ^ 4 = 2 ^ 32 := by decide +kernel
  have e2 : (256 : Nat) ^ 252 = 2 ^ 2016 := by decide +kernel
  rw [e1, e2]

theorem mkFlit_low {body : List Byte} (h : body.length = 248) (hdr e : Nat) : (mkFlit hdr body e).toNat % 2 ^ 32 = hdr % 2 ^ 32 := by
  have h2 : (2 : Nat) ^ 2016 = 2 ^ 32 * 2 ^ 1984 := by decide +kernel
  rw [mkFlit_toNat h, h2, Nat.mul_assoc, Nat.add_assoc, ← Nat.mul_add, Nat.add_mul_mod_self_left, Nat.mod_mod]

theorem mkFlit_fld {body : List Byte} (h : body.length = 248) (hdr e lo w : Nat) (hw : lo + w ≤ 32) :
    fld (mkFlit hdr body e) 0 lo w = bitsAt (hdr % 2 ^ 32) lo w := by
  have key : ∀ x : Nat, (x >>> lo) % 2 ^ w = ((x % 2 ^ 32) >>> lo) % 2 ^ w := by
    intro x
    apply Nat.eq_of_testBit_eq
    intro i
    simp only [Nat.testBit_mod_two_pow, Nat.testBit_shiftRight]
    by_cases hi : i < w
    · have : lo + i < 32 := by omega
      simp [hi, this]
    · simp [hi]
  simp only [fld, bitsAt, Nat.mul_zero, Nat.zero_add]
  rw [key, mkFlit_low h]

theorem mkFlit_crc {body : List Byte} (h : body.length = 248) (hdr e : Nat) :
    flitCrcOk (mkFlit hdr body e) = (crc32 (bytesLE 4 hdr ++ body) == (crc32 (bytesLE 4 hdr ++ body) + e) % 2 ^ 32) := by
  have h1 : (flitBytes (mkFlit hdr body e)).take 252 = bytesLE 4 hdr ++ body := by
    rw [mkFlit_bytes h]
    exact List.take_left' (by simp [h])
  have hlow : hdr % 2 ^ 32 + 2 ^ 32 * natLE body < 2 ^ 2016 := by
    have := natLE_lt body
    rw [h] at this
    have e3 : (256 : Nat) ^ 248 = 2 ^ 1984 := by decide +kernel
    rw [e3] at this
    have h2 : (2 : Nat) ^ 2016 = 2 ^ 32 * 2 ^ 1984 := by decide +kernel
    rw [h2]
    have := Nat.mod_lt hdr (show 0 < 2 ^ 32 by decide +kernel)
    have h5 : 2 ^ 32 * natLE body + 2 ^ 32 ≤ 2 ^ 32 * 2 ^ 1984 := by rw [← Nat.mul_succ]; exact Nat.mul_le_mul_left _ (by omega)
    omega
  have h3 : fld (mkFlit hdr body e) 252 0 32 = (crc32 (bytesLE 4 hdr ++ body) + e) % 2 ^ 32 := by
    simp only [fld, mkFlit_toNat h]
    have h4 : 8 * 252 + 0 = 2016 := by decide +kernel
    rw [h4, Nat.shiftRight_eq_div_pow, Nat.add_mul_div_left _ _ (by decide +kernel), Nat.div_eq_of_lt hlow, Nat.zero_add, Nat.mod_mod]
  simp only [flitCrcOk, h1, h3]

theorem mkFlit_crcOk {body : List Byte} (h : body.length = 248) (hdr : Nat) : flitCrcOk (mkFlit hdr body) = true := by
  rw [mkFlit_crc h, Nat.add_zero, Nat.mod_eq_of_lt (crc32_lt _)]
  simp

theorem mkFlit_crcBad {body : List Byte} (h : body.length = 248) (hdr : Nat) : flitCrcOk (mkFlit hdr body 1) = false := by
  rw [mkFlit_crc h]
  have := crc32_lt (bytesLE 4 hdr ++ body)
  simp
  omega

/-- The one flit of a TIME frame whose tag is true, with its header and 232 bytes (11 R309). -/
@[irreducible] def mkTime (key salt : List Byte) (c hdr : Nat) (ct : List Byte) : BitVec 2048 :=
  mkFlit hdr (ct ++ gcmTag (aesKey key) (salt ++ bytesBE 8 c) (bytesLE 4 (hdr % 2 ^ 12 + put (hdr >>> 24) 24 5 + put (hdr >>> 30) 30 2) ++ ct) [])

theorem gcmTag_length (k : AesKey) (iv aad ct : List Byte) : (gcmTag k iv aad ct).length = 16 := by simp [gcmTag, bytesBE]

theorem mkTime_opens (key salt : List Byte) (c hdr : Nat) (ct : List Byte) (hc : ct.length = 232) (hh : hdr < 2 ^ 32) (ht : bitsAt hdr 24 3 ≠ 1) :
    openFrame key salt c [mkTime key salt c hdr ct] = some ct := by
  generalize hg : gcmTag (aesKey key) (salt ++ bytesBE 8 c) (bytesLE 4 (hdr % 2 ^ 12 + put (hdr >>> 24) 24 5 + put (hdr >>> 30) 30 2) ++ ct) [] = g
  have hgl : g.length = 16 := by rw [← hg]; exact gcmTag_length _ _ _ _
  have hl : (ct ++ g).length = 248 := by simp [hc, hgl]
  have hm : mkTime key salt c hdr ct = mkFlit hdr (ct ++ g) := by unfold mkTime; rw [hg]
  have hlow := mkFlit_low hl hdr 0
  rw [Nat.mod_eq_of_lt hh] at hlow
  have ha : aadOf (mkFlit hdr (ct ++ g)) = bytesLE 4 (hdr % 2 ^ 12 + put (hdr >>> 24) 24 5 + put (hdr >>> 30) 30 2) := by
    have k1 : (mkFlit hdr (ct ++ g)).toNat % 2 ^ 12 = hdr % 2 ^ 12 := by omega
    have k2 : ∀ lo w, lo + w ≤ 32 → (mkFlit hdr (ct ++ g)).toNat >>> lo % 2 ^ w = (hdr >>> lo) % 2 ^ w := by
      intro lo w hw
      have := mkFlit_fld hl hdr 0 lo w hw
      rw [Nat.mod_eq_of_lt hh] at this
      simpa [fld, bitsAt] using this
    simp only [aadOf, k1, put, k2 24 5 (by decide +kernel), k2 30 2 (by decide +kernel)]
  have hty : flitType (mkFlit hdr (ct ++ g)) = bitsAt hdr 24 3 := by
    have := mkFlit_fld hl hdr 0 24 3 (by decide +kernel)
    rw [Nat.mod_eq_of_lt hh] at this
    exact this
  have hp : frameParts [mkFlit hdr (ct ++ g)] = (ct, g) := by
    have h1 : ((flitBytes (mkFlit hdr (ct ++ g))).drop 4).take 248 = ct ++ g := by
      rw [mkFlit_bytes hl, List.append_assoc, List.drop_left' (by simp), List.take_left' hl]
    simp only [frameParts, List.map_cons, List.map_nil, List.flatten_cons, List.flatten_nil, List.append_nil, h1]
    have h2 : (ct ++ g).length - 16 = ct.length := by rw [hl, hc]
    rw [h2]
    simp
  rw [hm]
  simp only [openFrame, hp, List.head?_cons, Option.map_some, hty, List.flatMap_cons, List.flatMap_nil, List.append_nil, ha]
  rw [if_neg (by simpa using ht), hg]
  simp

/-- Volume 1 at epoch 2 on this device, its next map, a round for it, and a Concordance message of a code (10 R279, R282). -/
def wMap (epoch : Nat) : VolMap := { handle := 1, epoch, coord := 0x3FF8, grace := 1, lead := 1, members := [{ device := 0x3FF8, parts := 1, bays := 1, shelves := 1 }] }
def wVol (st : VolState) : Volume := { cur := some (wMap 2), st, next := some (wMap 3) }
def wRound : Round := { epoch := 3, map := some (wMap 3), root := 0x3FF8 }
def wMsg (code : Nat) : Packet := { hdr := 0, payload := Conc.body code 3 1 (List.replicate 120 0#8) }
def wVols (v : Volume) (r : Round) : State := { wSt with vols := { vols := [(1, v)], rounds := [(1, r)] } }
def wConc (code t : Nat) (v : Volume) (r : Round) : State := { wVols v r with fab := { concIn := [(t, wMsg code)] } }
/-- A link in a state, and a flit of a type with a true CRC and SEQ 0 (11 R303, R305). -/
def wLink (st port : Nat) (f : Link → Link := id) : State :=
  if port < 24 then { wSt with fab := { ports := [(port, { link := f { state := st } })] } } else { wSt with ot := wSt.ot.setPort (port - 24) { link := f { state := st } } }
@[irreducible] def wFlit (ftype : Nat) : BitVec 2048 := mkFlit (ftype * 2 ^ 24) (List.replicate 248 0#8)
theorem wFlit_fld (n lo w : Nat) (hw : lo + w ≤ 32) : fld (wFlit n) 0 lo w = bitsAt (n * 2 ^ 24 % 2 ^ 32) lo w := by
  unfold wFlit; exact mkFlit_fld List.length_replicate _ 0 lo w hw
theorem wFlit_type (n : Fin 8) : flitType (wFlit n) = n := by
  rw [flitType, wFlit_fld n 24 3 (by decide)]; revert n; decide
theorem wFlit_seq (n : Fin 8) : flitSeq (wFlit n) = 0 := by
  rw [flitSeq, wFlit_fld n 0 12 (by decide)]; revert n; decide
theorem wFlit_last (n : Fin 8) : flitLast (wFlit n) = false := by
  rw [flitLast, flag, wFlit_fld n 27 1 (by decide)]; revert n; decide
theorem wFlit_crc (n : Nat) : flitCrcOk (wFlit n) = true := by unfold wFlit; exact mkFlit_crcOk List.length_replicate _
/-- ACK and NACK of a flit are all of it that `applyAck` reads. -/
theorem applyAck_congr (s : State) (n : Nat) {f g : BitVec 2048} (ha : flitAck f = flitAck g) (hn : flitNack f = flitNack g) :
    applyAck s n f = applyAck s n g := by simp only [applyAck, ha, hn]
theorem wFlit_ack (s : State) (q : Nat) (n : Fin 8) : applyAck s q (wFlit n) = applyAck s q 0 := by
  refine applyAck_congr s q ?_ ?_
  · rw [show flitAck 0 = 0 by decide +kernel, flitAck, wFlit_fld n 12 12 (by decide)]; revert n; decide
  · rw [show flitNack 0 = false by decide +kernel, flitNack, flag, wFlit_fld n 29 1 (by decide)]; revert n; decide
/-- A flit of one frame whose tag is true under the secret 0 in direction 1, at SEQ 0 and counter 0, is taken (11 R305 to R311). -/
theorem time_taken {f : BitVec 2048} {ct : List Byte} (s : State) (n : Nat) (hf : ∀ lo w, lo + w ≤ 32 → fld f 0 lo w = bitsAt 0x0B000000 lo w)
    (hc : flitCrcOk f = true) (ho : openFrame (linkKey 0#512 1 0).1 (linkKey 0#512 1 0).2 0 [f] = some ct)
    (hl : (linkOf s n).state = 4) (hd : txDir (applyAck (modLink s n (fun l => { l with lastFlit := s.now })) n 0) n = 0)
    (hr : linkOf (applyAck (modLink s n (fun l => { l with lastFlit := s.now })) n 0) n = { state := 4, lastFlit := s.now }) :
    ∃ u bs, takeFlit s n 3 f = (u, some bs) := by
  have h1 : flitType f = 3 := (hf 24 3 (by decide)).trans (by decide)
  have h3 : flitSeq f = 0 := (hf 0 12 (by decide)).trans (by decide)
  have h4 : flitLast f = true := by rw [flitLast, flag, hf 27 1 (by decide)]; decide
  have h5 : flitKey f = 0 := (hf 28 1 (by decide)).trans (by decide)
  have h6 : applyAck (modLink s n (fun l => { l with lastFlit := s.now })) n f = applyAck (modLink s n (fun l => { l with lastFlit := s.now })) n 0 :=
    applyAck_congr _ n ((hf 12 12 (by decide)).trans (by decide +kernel)) (by rw [show flitNack 0 = false by decide +kernel, flitNack, flag, hf 29 1 (by decide)]; decide)
  generalize hk : linkKey 0#512 1 0 = k at ho
  obtain ⟨k1, k2⟩ := k
  simp only [takeFlit, hl, h1, hc, h3, h4, h5, h6, hr, hd]
  have ho' : openFrame (linkKey 0#512 1 0).1 (linkKey 0#512 1 0).2 0 [f] = some ct := by rw [hk]; exact ho
  simp [ho']
/-- A TIME flit as a peer whose direction is 1 sends it under the secret 0 (11 R308, R309). -/
@[irreducible] def wTime : BitVec 2048 := mkTime (linkKey 0#512 1 0).1 (linkKey 0#512 1 0).2 0 0x0B000000 (List.replicate 232 0#8)
theorem wTime_taken (s : State) (n : Nat) (hl : (linkOf s n).state = 4) (hd : txDir (applyAck (modLink s n (fun l => { l with lastFlit := s.now })) n 0) n = 0)
    (hr : linkOf (applyAck (modLink s n (fun l => { l with lastFlit := s.now })) n 0) n = { state := 4, lastFlit := s.now }) :
    ∃ u bs, takeFlit s n 3 wTime = (u, some bs) := by
  unfold wTime
  refine time_taken s n (fun lo w hw => ?_) ?_ (mkTime_opens _ _ 0 0x0B000000 _ List.length_replicate (by decide) (by decide)) hl hd hr
  · unfold mkTime; exact mkFlit_fld (by rw [List.length_append, List.length_replicate, gcmTag_length]) 0x0B000000 0 lo w hw
  · unfold mkTime; exact mkFlit_crcOk (by rw [List.length_append, List.length_replicate, gcmTag_length]) _
def wPeer (verified : Bool) : PeerInfo :=
  { verified, device := 5, port := 0, bondSize := 1, members := [0], secret := 7, devId := 9, agents := 0, cachesClean := true, lanes := 8 }
/-- Port 0 is UP; Volume 1 binds this device and device 5; window 0 gives it page 0; a request for this part, and a request of this part (11 R314). -/
def wMap2 : VolMap := { wMap 2 with members := [{ device := 5, parts := 1 }, { device := 0x3FF8, parts := 1, bays := 1, shelves := 1 }] }
def wFab (f : Fab → Fab) : State :=
  { wSt with fab := f { ports := [(0, { link := { state := 4 } })] }, vols := { vols := [(1, { cur := some wMap2 })] }
             cat := { windows := [(0, { part := 0, r := true, w := true, atomic := true, sealPeer := false, volume := 1, root := 0x8000, limit := 0x200000 })] } }
def wPkt (dst src ptype len status : Nat) (bs : List Byte) : Packet :=
  { hdr := Pk.make dst src ptype 1 2 0 len status (Pk.globalAddr 0x3FF8 0 0) 1000000, payload := bs }
def wFabReq : FabReq := { port := 0, pkt := wPkt 5 0x3FF8 0 8 0 [], deadline := 1000000, who := .core 0 0, skip := 0, want := 8 }
def wTagged (ptype len : Nat) (bs : List Byte) (now : Nat) : State :=
  { wFab (fun f => { f with tags := [(0, { wFabReq with pkt := wPkt 5 0x3FF8 ptype len 0 bs })] }) with now }
/-- A collective of an operation open on engine 0, and a packet of a step of it (11 R326, R329). -/
def wCollD (op : Nat) : BitVec 1024 := BitVec.ofNat 1024 (op ||| (1 <<< 64) ||| (7 <<< 128) ||| (1000 <<< 256))
def wColl (op : Nat) : Coll := { desc := wCollD op, members := [0x3FF8] }
def wCe (op : Nat) : State := wFab (fun f => { f with engines := [(0, { open_ := [(2 ^ 32 + 7, wColl op)] })] })
def wCollP (step : Nat) : Packet := wPkt 0x3FF8 5 6 16 0 (bytesLE 8 0 ++ bytesLE 4 7 ++ [BitVec.ofNat 8 step, 0#8, 0#8, 0#8])
/-- A message about power to this part from device 5 (12 R351). -/
def wMg (kind epoch : Nat) : Packet := wPkt 0x3FF8 5 8 32 0 ([1#8, 0#8] ++ bytesLE 2 16 ++ bytesLE 4 0 ++ bytesLE 8 0 ++ bytesLE 4 1 ++ bytesLE 4 epoch ++ bytesLE 4 (kind + 50 * 256) ++ bytesLE 4 5)
def wPw (f : Pwr → Pwr) : State := { wSt with pwr := f wSt.pwr }

/-- Queue 0 of context 0 and one command of it, with fields by bit position (13 R376, R377); Volume 1 binds Bay 0 and port 0 here. -/
def wQue : Queue := { resident := some 0, wr := 1, dbStamp := 0 }
def wCmd (fs : List (Nat × Nat)) (phase : CmdPhase := .released) : Cmd := { word := wWord fs, phase }
def wVolP : Volume := { cur := some { wMap 2 with members := [{ device := 0x3FF8, parts := 1, bays := 1, shelves := 1, ports := 1 }] } }
def wWork (c : Cmd) : State :=
  { wSt with work := { wSt.work with queues := [(0, wQue)], cmds := [(1, c)], tiles := [] }, vols := { vols := [(1, wVolP)] } }
/-- A tile of context 0 on Bay 0, by its fields. -/
def wTile (t : Tile) : State := { wBay (fun b => { b with tile := 1 }) with work := { wSt.work with tiles := [(1, t)] } }
def wPre (p : Preempt) : State := { wSt with vols := { vols := [(1, wVolP)], preempts := [(1, p)] } }
def wMgT (mtype : Nat) (rest : List Byte) : Packet := wPkt 0x3FF8 5 8 48 0 ([BitVec.ofNat 8 mtype, 0#8] ++ bytesLE 2 32 ++ bytesLE 4 9 ++ bytesLE 8 0 ++ rest)
def wMgIn (t mtype : Nat) (rest : List Byte) : State := { wWork (wCmd []) with fab := { mgmtIn := [(t, wMgT mtype rest)] } }
/-- Function `f` holds a mailbox command of fields by bit position in slot 0 (15 R428, R430). -/
def wMb (fs : List (Nat × Nat)) : MbCmd := { slot := wWord fs }
def wFn (f : Nat) (c : MbCmd) (s : State := wSt) : State := { s with fns := [(f, { active := [c], mbRd := 1, mbWr := 1, mbCtrl := 0x41 })] }
/-- A machine with no work, and one whose context 0 has what a command names. -/
def wIdle : State := { wSt with work := {} }
/-- PART_IMPORT of an image of no bytes at 0x600000 with its digest (15 R435). -/
def wImportC : List (Nat × Nat) := [(0, 7), (128, 0xf6f86a292fed9e10b923bcab6709b4c46bd96c0079facdd6398e775c5e57e7020f7aec77f7165a734a56248cd0671319bd5e832d64a59759ed5285ccb91dde0a), (640, 0x600000)]
def wImport : State := wFn 1 (wMb wImportC)
def wKem : KemKey := { part := 0, gen := 1, stamp := 0, rd := 5, seed := 9 }
def wRead (s : State) : State := match (engineRead s { master := 42, part := 0, bypass := true } 0 0x600000 8).opt with | some p => p.1 | none => {}
/-- A machine whose context 0 has the handle 0x10000 and the fields of `c`, with a record of a fault, an object and a fence (13 R369). -/
def wCx (c : Ctx) (w : Work → Work := id) : State := { wSt with work := w { ctxs := [(0, c)] } }
def wObj : MemObj := { base := 0x200000, bytes := 0x200000, holds := [0] }
def wRet (f : Fence) : State := { wCx wCtx (fun w => { w with fences := [(0, f)] }) with parts := [(0, { fenceTable := some (64, 4) })] }
def wQd : MbCmd := wMb [(0, 0x29), (128, 65536)]
def wQs : State := wFn 1 wQd (wCx wCtx (fun w => { w with queues := [(0, wQue)] }))
def wRc : MbCmd := wMb [(0, 0x25), (128, 65536), (192, 3)]
def wRs : State := wFn 1 wRc (wCx { wCtx with retry := true } (fun w => { w with faultRecs := [(3, { seq := 3, va := 0 })] }))
def wOc : MbCmd := wMb [(0, 0x30), (128, 65536), (192, 0x200000), (264, 255)]
def wOs : State := wFn 1 wOc (wCx wCtx)
def wOo : MemObj := { gen := Tbl.getD wOs.work.objGens 0 1, base := 0, bytes := wOc.f 0x18 0 64, interleaved := wOc.f 0x20 0 1 == 1, holds := [0] }
/-- The least kernel image that is well formed, of one section of one word of code, at virtual 0 in context 0 (05 R141 to R144). -/
@[irreducible] def wImg : Nat := 43987629270976192995486889637056622922329195786194984875080974739841603613881131533329890691292126051390407019642300442904882102167052979049286647585425915475638381213587340464387781147300035155179373561413849187922874065984981317945787001768919750895791796916967034385647645842003128809661409214625999788805489455995638578166206049633903677383218407941303943870010386864355702821499201750923323823007577156831247624799094295112351143225713411133533960388774054393049787517255852942677436834131492817711991120873730828964606358529789844140450624798043841791930821975355229430126452804581740067243718137385978592746757226583303858360470123324167314196875848
def wGc : MbCmd := wMb [(0, 0x2A), (128, 65536), (192, 65536)]
def wGs : State := wFn 1 wGc { wCx wCtx (fun w => { w with objs := [(0, wObj)] }) with mem := { dram := Mem.writeLE wDram 0x200000 324 wImg } }
/-- A new map for a Volume of this device, which binds Bay 0 and Shelf 0 for partition 0 (10 R277, R278). -/
def wNew (h epoch : Nat) : VolMap := { handle := h, epoch, coord := 0x3FF8, grace := 1, lead := 50, members := [{ device := 0x3FF8, parts := 1, bays := 1, shelves := 1 }] }
def wMig : MbCmd := wMb [(0, 0x58), (128, 1), (256, 8589934592), (320, 0x200000), (448, 3)]
def wMigS : State := wFn 1 wMig { wSt with vols := { migrations := [(0, { sh := 0, src := 0, dst := 8589934592, bytes := 0x200000, index := 0, copied := true })] }, shelvers := [(0, { mirror := some { src := 0, dst := 8589934592, bytes := 0x200000, cmpSrc := 0, cmpNew := 0 } })] }
/-- A message of the companion's agent 0 for function 1 with tag 5 (16 R446). -/
def wOm (mtype words addr : Nat) (data : List Byte := []) : OtHead := { hdr := BitVec.ofNat 128 (mtype + 2 ^ 8 + 5 * 2 ^ 20 + words * 2 ^ 40 + addr * 2 ^ 64), data }
def wSeq (f : Seq → Seq) : State := { wSt with seq := f wSt.seq }
def wResets (x : Nat × Nat × Nat) : State := wSeq (fun q => { q with running := [x] })

/-! For each obligation with hypotheses, states and operands that meet all of them, clause by clause. -/

theorem witness_StepRunsTheFrontCommand :
    ∃ c : Instr, ∃ rest : List Instr, ∃ s : Machine.State, s.pending = c :: rest :=
  ⟨(.tamper), ([]), ({ wSt with pending := [.tamper] }), by decide +kernel⟩

theorem witness_EmptyQueueTicks :
    (∃ s : Machine.State, s.pending = []) ∧
    (∃ s : Machine.State, s.pwr.slew = 0) := by
  refine ⟨?_, ?_⟩
  · exact ⟨(wSt), by decide +kernel⟩
  · exact ⟨(wSt), by decide +kernel⟩

theorem witness_StepKeepsInv :
    ∃ s : Machine.State, ∃ t : Machine.State, Inv s ∧ step s = .next t :=
  ⟨({ wSt with mem := {} }), (nextOf (step (({ wSt with mem := {} }) : Machine.State))), ⟨by decide +kernel, by decide +kernel, by decide +kernel, by decide +kernel,
    by decide +kernel, by decide +kernel⟩, rfl⟩

theorem witness_RegisterAccessesComplete :
    (∃ pair : RegPair, ∃ v : Nat, ∃ s : Machine.State, pairGet s pair.blk pair.off.toNat = some v) ∧
    (∃ who : Writer, ∃ pair : RegPair, ∃ v : Word, ∃ s : Machine.State, mayWrite s who pair.blk = true ∧ writablePair s pair.blk pair.off.toNat = true) ∧
    (∃ who : Writer, ∃ pair : RegPair, ∃ v : Word, ∃ s : Machine.State, mayWrite s who pair.blk = true ∧ writablePair s pair.blk pair.off.toNat = true) ∧
    (∃ who : Writer, ∃ reg : StatusReg, ∃ v : Word, ∃ s : Machine.State, (clearable reg.blk reg.off.toNat).isSome = true) ∧
    (∃ s : Machine.State, ∃ w : SlowWrite, ∃ rest : List SlowWrite, s.regs.slow = w :: rest) := by
  refine ⟨?_, ?_, ?_, ?_, ?_⟩
  · exact ⟨({ blk := .timePower, off := 0 }), (((pairGet (({ wSt with now := 5 }) : Machine.State) (({ blk := .timePower, off := 0 }) : RegPair).blk
      (({ blk := .timePower, off := 0 }) : RegPair).off.toNat).get (by decide +kernel))), ({ wSt with now := 5 }), (of_get (by decide +kernel))⟩
  · exact ⟨(.registrar), ({ blk := .fn 0, off := 8 }), (5), (wSt), by decide +kernel, by decide +kernel⟩
  · exact ⟨(.driver 1), ({ blk := .fn 1, off := 0x20 }), (5), (wSt), by decide +kernel, by decide +kernel⟩
  · exact ⟨(.registrar), ({ blk := .fabric 0, off := 8 }), (0), (wSt), by decide +kernel⟩
  · exact ⟨({ wSt with regs := { slow := [{ who := .driver 0, blk := .timePower, off := 0x18, v := 1 }] } }), ({ who := .driver 0, blk := .timePower, off := 0x18, v := 1 }),
      ([]), by decide +kernel⟩

theorem witness_BanksAndRingsComplete :
    (∃ bay : BayNo, ∃ port : Fin 2, ∃ wr : BitVec 16, ∃ s : Machine.State, (s.bay bay).wrapper = .open_) ∧
    (∃ bay : BayNo, ∃ port : Fin 2, ∃ s : Machine.State, (s.mover bay port).ttbWait = false) ∧
    (∃ bay : BayNo, ∃ port : Fin 2, ∃ s : Machine.State, (s.mover bay port).ttbWait = true) ∧
    (∃ bay : BayNo, ∃ port : Fin 2, ∃ s : Machine.State, (s.mover bay port).halted = true) := by
  refine ⟨?_, ?_, ?_, ?_⟩
  · exact ⟨(0), (1), (3), (wSt), by decide +kernel⟩
  · exact ⟨(31), (0), (wSt), by decide +kernel⟩
  · exact ⟨(0), (0), (wBay (fun b => { b with mover0 := { ttbWait := true } })), by decide +kernel⟩
  · exact ⟨(0), (1), (wBay (fun b => { b with mover1 := { halted := true } })), by decide +kernel⟩

theorem witness_MoverDescriptorsComplete :
    (∃ bay : BayNo, ∃ port : Fin 2, ∃ s : Machine.State, ∃ d : BitVec 512, ∃ order : Nat, ∃ group : Nat, moverNext s bay port 0 = some (d, order, group)) ∧
    (∃ bay : BayNo, ∃ port : Fin 2, ∃ s : Machine.State, ∃ d : BitVec 512, ∃ order : Nat, ∃ group : Nat, ∃ t : Machine.State, ∃ bs : Tainted, moverNext s bay port 1 =
      some (d, order, group) ∧ remotePieces (moverPieces (moverView s bay port d) d) = [] ∧ vRead s (moverView s bay port d) (((moverPieces (moverView s bay port d)
      d).filter (fun q => !leafRemote q.ent.leaf)).map (fun q => (q.va, q.n))) = .ok t bs ∧ bs.all (fun c => !c.2) = true) ∧
    (∃ bay : BayNo, ∃ port : Fin 2, ∃ s : Machine.State, ∃ d : BitVec 512, ∃ order : Nat, ∃ group : Nat, ∃ t : Machine.State, ∃ ds : List (Nat × Nat × Nat), moverNext s
      bay port 2 = some (d, order, group) ∧ storesEarly s bay port = false ∧ remotePieces (moverPieces (moverView s bay port d) d) = [] ∧ vWrite s (moverView s bay port
      d) (((moverPieces (moverView s bay port d) d).filter (fun q => !leafRemote q.ent.leaf)).map (fun q => (q.va, q.n))) (clean (((moverPieces (moverView s bay port d)
      d).filter (fun q => !leafRemote q.ent.leaf)).flatMap (fun q => (s.bay bay).read q.bay q.n))) = .ok t ds) ∧
    (∃ bay : BayNo, ∃ port : Fin 2, ∃ s : Machine.State, ∃ d : BitVec 512, ∃ order : Nat, ∃ group : Nat, moverNext s bay port 3 = some (d, order, group)) ∧
    (∃ bay : BayNo, ∃ port : Fin 2, ∃ s : Machine.State, ∃ d : BitVec 512, ∃ order : Nat, ∃ group : Nat, moverNext s bay port 4 = some (d, order, group)) ∧
    (∃ bay : BayNo, ∃ port : Fin 2, ∃ s : Machine.State, ∃ d : BitVec 512, ∃ order : Nat, ∃ group : Nat, moverNext s bay port 5 = some (d, order, group) ∧ moverPieces
      (moverView s bay port d) d = []) ∧
    (∃ bay : BayNo, ∃ port : Fin 2, ∃ s : Machine.State, ∃ d : BitVec 512, ∃ order : Nat, ∃ group : Nat, ∃ q : MoverPiece, moverNext s bay port 5 = some (d, order,
      group) ∧ moverPieces (moverView s bay port d) d = [q] ∧ leafRemote q.ent.leaf = false) ∧
    (∃ bay : BayNo, ∃ port : Fin 2, ∃ s : Machine.State, ∃ o : MoverOp, ∃ rest : List MoverOp, (s.mover bay port).started = o :: rest ∧ (s.mover bay port).halted =
      false ∧ o.waits = 0 ∧ o.bad = none ∧ Mv.notify o.desc = false) := by
  refine ⟨?_, ?_, ?_, ?_, ?_, ?_, ?_, ?_⟩
  · exact ⟨(0), (0), (wMover 0), (0), (1), (0), by decide +kernel⟩
  · exact ⟨(0), (0), (wMover (wDesc 1 0x1000 0x2000 64)), (wDesc 1 0x1000 0x2000 64), (1), (0), (((vRead ((wMover (wDesc 1 0x1000 0x2000 64)) : Machine.State) (moverView
      ((wMover (wDesc 1 0x1000 0x2000 64)) : Machine.State) ((0) : BayNo) ((0) : Fin 2) ((wDesc 1 0x1000 0x2000 64) : BitVec 512)) (((moverPieces (moverView ((wMover
      (wDesc 1 0x1000 0x2000 64)) : Machine.State) ((0) : BayNo) ((0) : Fin 2) ((wDesc 1 0x1000 0x2000 64) : BitVec 512)) ((wDesc 1 0x1000 0x2000 64) : BitVec
      512)).filter (fun q => !leafRemote q.ent.leaf)).map (fun q => (q.va, q.n)))).opt.get (by decide +kernel)).1), (((vRead ((wMover (wDesc 1 0x1000 0x2000 64)) :
      Machine.State) (moverView ((wMover (wDesc 1 0x1000 0x2000 64)) : Machine.State) ((0) : BayNo) ((0) : Fin 2) ((wDesc 1 0x1000 0x2000 64) : BitVec 512))
      (((moverPieces (moverView ((wMover (wDesc 1 0x1000 0x2000 64)) : Machine.State) ((0) : BayNo) ((0) : Fin 2) ((wDesc 1 0x1000 0x2000 64) : BitVec 512)) ((wDesc 1
      0x1000 0x2000 64) : BitVec 512)).filter (fun q => !leafRemote q.ent.leaf)).map (fun q => (q.va, q.n)))).opt.get (by decide +kernel)).2), by decide +kernel,
      by decide +kernel,
      (by first | exact Got.of_opt (of_get (by decide +kernel)) | exact CoreGot.of_opt (of_get (by decide +kernel)) | exact TileGot.of_opt (of_get (by decide +kernel)) | exact OtMem.of_opt (of_get (by decide +kernel)) | exact Admit.of_opt (of_get (by decide +kernel)) | exact ShRes.of_opt (of_get (by decide +kernel))),
      by decide +kernel⟩
  · exact ⟨(0), (0), (wMover (wDesc 2 0x1000 0x2000 64)), (wDesc 2 0x1000 0x2000 64), (1), (0), (((vWrite ((wMover (wDesc 2 0x1000 0x2000 64)) : Machine.State) (moverView
      ((wMover (wDesc 2 0x1000 0x2000 64)) : Machine.State) ((0) : BayNo) ((0) : Fin 2) ((wDesc 2 0x1000 0x2000 64) : BitVec 512)) (((moverPieces (moverView ((wMover
      (wDesc 2 0x1000 0x2000 64)) : Machine.State) ((0) : BayNo) ((0) : Fin 2) ((wDesc 2 0x1000 0x2000 64) : BitVec 512)) ((wDesc 2 0x1000 0x2000 64) : BitVec
      512)).filter (fun q => !leafRemote q.ent.leaf)).map (fun q => (q.va, q.n))) (clean (((moverPieces (moverView ((wMover (wDesc 2 0x1000 0x2000 64)) : Machine.State)
      ((0) : BayNo) ((0) : Fin 2) ((wDesc 2 0x1000 0x2000 64) : BitVec 512)) ((wDesc 2 0x1000 0x2000 64) : BitVec 512)).filter (fun q => !leafRemote q.ent.leaf)).flatMap
      (fun q => (((wMover (wDesc 2 0x1000 0x2000 64)) : Machine.State).bay ((0) : BayNo)).read q.bay q.n)))).opt.get (by decide +kernel)).1), (((vWrite ((wMover (wDesc 2
      0x1000 0x2000 64)) : Machine.State) (moverView ((wMover (wDesc 2 0x1000 0x2000 64)) : Machine.State) ((0) : BayNo) ((0) : Fin 2) ((wDesc 2 0x1000 0x2000 64) :
      BitVec 512)) (((moverPieces (moverView ((wMover (wDesc 2 0x1000 0x2000 64)) : Machine.State) ((0) : BayNo) ((0) : Fin 2) ((wDesc 2 0x1000 0x2000 64) : BitVec 512))
      ((wDesc 2 0x1000 0x2000 64) : BitVec 512)).filter (fun q => !leafRemote q.ent.leaf)).map (fun q => (q.va, q.n))) (clean (((moverPieces (moverView ((wMover (wDesc 2
      0x1000 0x2000 64)) : Machine.State) ((0) : BayNo) ((0) : Fin 2) ((wDesc 2 0x1000 0x2000 64) : BitVec 512)) ((wDesc 2 0x1000 0x2000 64) : BitVec 512)).filter (fun q
      => !leafRemote q.ent.leaf)).flatMap (fun q => (((wMover (wDesc 2 0x1000 0x2000 64)) : Machine.State).bay ((0) : BayNo)).read q.bay q.n)))).opt.get
      (by decide +kernel)).2), by decide +kernel, by decide +kernel, by decide +kernel,
      (by first | exact Got.of_opt (of_get (by decide +kernel)) | exact CoreGot.of_opt (of_get (by decide +kernel)) | exact TileGot.of_opt (of_get (by decide +kernel)) | exact OtMem.of_opt (of_get (by decide +kernel)) | exact Admit.of_opt (of_get (by decide +kernel)) | exact ShRes.of_opt (of_get (by decide +kernel)))⟩
  · exact ⟨(0), (0), (wMover (wDesc 3 0x1000 0x2000 64)), (wDesc 3 0x1000 0x2000 64), (1), (0), by decide +kernel⟩
  · exact ⟨(0), (0), (wMover (wDesc 4 0 0x2000 64)), (wDesc 4 0 0x2000 64), (1), (0), by decide +kernel⟩
  · exact ⟨(0), (0), (wMover (wDesc 5 0x40000000 0 64)), (wDesc 5 0x40000000 0 64), (1), (0), by decide +kernel, by decide +kernel⟩
  · exact ⟨(0), (0), (wMover (wDesc 5 0x1000 0 64)), (wDesc 5 0x1000 0 64), (1), (0), ((moverPieces (moverView (wMover (wDesc 5 0x1000 0 64)) 0 0 (wDesc 5 0x1000 0 64))
      (wDesc 5 0x1000 0 64)).head?.get (by decide +kernel)), by decide +kernel, one_of (by decide +kernel) (by decide +kernel), by decide +kernel⟩
  · exact ⟨(0), (0), (wBay (fun b => { b with mover0 := { started := [{ desc := 0, order := 1, group := 0 }] } })), ({ desc := 0, order := 1, group := 0 }), ([]),
      by decide +kernel, by decide +kernel, by decide +kernel, by decide +kernel, by decide +kernel⟩

theorem witness_BayTestAndResetComplete :
    (∃ bay : BayNo, ∃ s : Machine.State, (s.bay bay).test.state = 0 ∧ bitsAt (s.bay bay).test.ctrl.toNat 0 1 = 1 ∧ (s.bay bay).resetAt = none) ∧
    (∃ bay : BayNo, ∃ s : Machine.State, (s.bay bay).test.state = 1) ∧
    (∃ bay : BayNo, ∃ s : Machine.State, (s.bay bay).test.state = 2) ∧
    (∃ bay : BayNo, ∃ s : Machine.State, (s.bay bay).test.state = 3) ∧
    (∃ bay : BayNo, ∃ s : Machine.State, (s.bay bay).resetAt = none ∧ (s.bay bay).tile = 0 ∧ (s.bay bay).nextTile = 0 ∧ Tbl.has s.work.tiles 0 = false) ∧
    (∃ bay : BayNo, ∃ s : Machine.State, ∃ since : Nat, (s.bay bay).resetAt = some since ∧ (s.bay bay).draining ≠ 0) ∧
    (∃ bay : BayNo, ∃ core : Fin 10, ∃ s : Machine.State, bitsAt (s.bay bay).coreFence.toNat core.val 1 ≠ 1) := by
  refine ⟨?_, ?_, ?_, ?_, ?_, ?_, ?_⟩
  · exact ⟨(3), (wSt), by decide +kernel, by decide +kernel, by decide +kernel⟩
  · exact ⟨(0), (wBay (fun b => { b with test := { state := 1 } })), by decide +kernel⟩
  · exact ⟨(0), (wBay (fun b => { b with test := { state := 2 } })), by decide +kernel⟩
  · exact ⟨(0), (wBay (fun b => { b with test := { state := 3 } })), by decide +kernel⟩
  · exact ⟨(0), (wSt), by decide +kernel, by decide +kernel, by decide +kernel, by decide +kernel⟩
  · exact ⟨(0), (wBay (fun b => { b with resetAt := some 5, draining := 1 })), (5), by decide +kernel, by decide +kernel⟩
  · exact ⟨(0), (9), (wSt), by decide +kernel⟩

theorem witness_NetworksComplete :
    (∃ plane : Fin 3, ∃ a : Fin 49, ∃ b : Fin 49, ∃ s : Machine.State, Tbl.getD s.nets.replayFails (linkNo (netLink plane a b)) 0 = 0) ∧
    (∃ index : Nat, ∃ s : Machine.State, ∃ r : BulkReq, s.nets.requests[index]? = some r ∧ r.mover = false) := by
  refine ⟨?_, ?_⟩
  · exact ⟨(0), (0), (1), (wSt), by decide +kernel⟩
  · exact ⟨(0), ({ wSt with nets := { requests := [{ mover := false, who := 5, port := 0, deadline := 9, va := 0 }] } }),
      ({ mover := false, who := 5, port := 0, deadline := 9, va := 0 }), by decide +kernel, by decide +kernel⟩

theorem witness_MatrixPushAndRampComplete :
    (∃ bay : BayNo, ∃ mx : Fin 4, ∃ s : Machine.State, (s.bay bay).resetAt = none ∧ (s.bay bay).coreResets = [] ∧ (s.mx bay mx).fifo.length < 32) ∧
    (∃ bay : BayNo, ∃ mx : Fin 4, ∃ w : Fin 6, ∃ s : Machine.State, (s.bay bay).resetAt = none ∧ (s.bay bay).coreResets = [] ∧ (s.mx bay mx).fifo.length < 32 ∧ w.val =
      mx.val) ∧
    (∃ bay : BayNo, ∃ mx : Fin 4, ∃ w : Fin 6, ∃ s : Machine.State, w.val ≠ mx.val) ∧
    (∃ bay : BayNo, ∃ mx : Fin 4, ∃ s : Machine.State, ∃ e : MxDesc, ∃ rest : List MxDesc, (s.mx bay mx).fifo = e :: rest ∧ e.ran = true) ∧
    (∃ bay : BayNo, ∃ mx : Fin 4, ∃ s : Machine.State, ∃ d : MxDesc, (s.mx bay mx).halted = false ∧ (s.mx bay mx).fifo = [d] ∧ d.ran = false ∧ 5 ≤ Mx.op d.desc ∧ Mx.op
      d.desc ≤ 7 ∧ (s.mx bay mx).ramp < 8) ∧
    (∃ bay : BayNo, ∃ mx : Fin 4, ∃ s : Machine.State, (s.mx bay mx).fifo = [] ∧ 0 < (s.mx bay mx).ramp) := by
  refine ⟨?_, ?_, ?_, ?_, ?_, ?_⟩
  · exact ⟨(0), (0), (wSt), by decide +kernel, by decide +kernel, by decide +kernel⟩
  · exact ⟨(0), (3), (3), (wSt), by decide +kernel, by decide +kernel, by decide +kernel, by decide +kernel⟩
  · exact ⟨(0), (3), (4), (wSt), by decide +kernel⟩
  · exact ⟨(0), (0), (wBay (fun b => { b with mx0 := { fifo := [{ desc := 0, ran := true }] } })), ({ desc := 0, ran := true }), ([]), by decide +kernel, by decide +kernel⟩
  · exact ⟨(0), (0), (wBay (fun b => { b with mx0 := { fifo := [{ desc := 7 }], ramp := 7 } })), ({ desc := 7 }), by decide +kernel, by decide +kernel, by decide +kernel,
      by decide +kernel, by decide +kernel, by decide +kernel⟩
  · exact ⟨(0), (0), (wBay (fun b => { b with mx0 := { ramp := 1 } })), by decide +kernel, by decide +kernel⟩

theorem witness_MatrixMovesComplete :
    (∃ bay : BayNo, ∃ mx : Fin 4, ∃ s : Machine.State, ∃ d : BitVec 1024, MxReady s bay mx 0 d) ∧
    (∃ bay : BayNo, ∃ mx : Fin 4, ∃ s : Machine.State, ∃ d : BitVec 1024, MxReady s bay mx 1 d) ∧
    (∃ bay : BayNo, ∃ mx : Fin 4, ∃ s : Machine.State, ∃ d : BitVec 1024, MxReady s bay mx 2 d) ∧
    (∃ bay : BayNo, ∃ mx : Fin 4, ∃ s : Machine.State, ∃ d : BitVec 1024, MxReady s bay mx 3 d) ∧
    (∃ bay : BayNo, ∃ mx : Fin 4, ∃ s : Machine.State, ∃ d : BitVec 1024, MxReady s bay mx 4 d) ∧
    (∃ bay : BayNo, ∃ mx : Fin 4, ∃ s : Machine.State, ∃ d : BitVec 1024, MxReady s bay mx 9 d) ∧
    (∃ bay : BayNo, ∃ mx : Fin 4, ∃ s : Machine.State, ∃ d : BitVec 1024, MxReady s bay mx 10 d ∧ (mxAccLoad (s.bay bay) (s.mx bay mx) d).2 = true) ∧
    (∃ bay : BayNo, ∃ mx : Fin 4, ∃ s : Machine.State, ∃ d : BitVec 1024, MxReady s bay mx 10 d ∧ (mxAccLoad (s.bay bay) (s.mx bay mx) d).2 = false) := by
  refine ⟨?_, ?_, ?_, ?_, ?_, ?_, ?_, ?_⟩
  · exact ⟨(0), (0), (wMx 0), (0), (by unfold MxReady; decide +kernel)⟩
  · exact ⟨(0), (0), (wMx (wMove 1)), (wMxD (wMove 1)), (by unfold MxReady; decide +kernel)⟩
  · exact ⟨(0), (0), (wMx (wMove 2)), (wMxD (wMove 2)), (by unfold MxReady; decide +kernel)⟩
  · exact ⟨(0), (0), (wMx 3), (wMxD 3), (by unfold MxReady; decide +kernel)⟩
  · exact ⟨(0), (0), (wMx (wMma 4 2 16 32) { mode := 1 }), (wMxD (wMma 4 2 16 32)), (by unfold MxReady; decide +kernel)⟩
  · exact ⟨(0), (0), (wMx (wAcc 9)), (wMxD (wAcc 9)), (by unfold MxReady; decide +kernel)⟩
  · exact ⟨(0), (0), (wMx (wAcc 10)), (wMxD (wAcc 10)), (by unfold MxReady; decide +kernel), by decide +kernel⟩
  · exact ⟨(0), (0), (wMx (wAcc 10) {} [] [(0, 1), (4, 1), (28, 1), (30, 1), (31, 1)]), (wMxD (wAcc 10)), (by unfold MxReady; decide +kernel), by decide +kernel⟩

theorem witness_MatrixArithmeticCompletes :
    (∃ bay : BayNo, ∃ mx : Fin 4, ∃ s : Machine.State, ∃ d : BitVec 1024, MxReady s bay mx 5 d) ∧
    (∃ bay : BayNo, ∃ mx : Fin 4, ∃ s : Machine.State, ∃ d : BitVec 1024, MxReady s bay mx 6 d) ∧
    (∃ bay : BayNo, ∃ mx : Fin 4, ∃ s : Machine.State, ∃ d : BitVec 1024, MxReady s bay mx 7 d) ∧
    (∃ bay : BayNo, ∃ mx : Fin 4, ∃ s : Machine.State, ∃ d : BitVec 1024, MxReady s bay mx 8 d ∧ Mx.trapAo d = false) ∧
    (∃ bay : BayNo, ∃ mx : Fin 4, ∃ s : Machine.State, ∃ d : BitVec 1024, MxReady s bay mx 8 d ∧ Mx.trapAo d = true ∧ ((mxAccRead (s.bay bay) (s.mx bay mx) (baySeed s
      bay) d).exc &&& Exc.ao) ≠ 0) ∧
    (∃ bay : BayNo, ∃ mx : Fin 4, ∃ s : Machine.State, ∃ d : BitVec 1024, MxReady s bay mx 11 d) := by
  refine ⟨?_, ?_, ?_, ?_, ?_, ?_⟩
  · exact ⟨(0), (0), (wMx (wMma 5 2 16 32)), (wMxD (wMma 5 2 16 32)), (by unfold MxReady; decide +kernel)⟩
  · exact ⟨(0), (0), (wMx (wMma 6 0 8 64) { slice := true }), (wMxD (wMma 6 0 8 64)), (by unfold MxReady; decide +kernel)⟩
  · exact ⟨(0), (0), (wMx wConv), (wMxD wConv), (by unfold MxReady; decide +kernel)⟩
  · exact ⟨(0), (0), (wMx (wAcc 8)), (wMxD (wAcc 8)), (by unfold MxReady; decide +kernel), by decide +kernel⟩
  · exact ⟨(0), (0), (wMx (wAcc 8 + 2 ^ 9) {} [(0, { flags := 8 })]), (wMxD (wAcc 8 + 2 ^ 9)), (by unfold MxReady; decide +kernel), by decide +kernel, by decide +kernel⟩
  · exact ⟨(0), (0), (wMx wQuant), (wMxD wQuant), (by unfold MxReady; decide +kernel)⟩

theorem witness_TileMessagesComplete :
    (∃ bay : BayNo, ∃ s : Machine.State, ∃ id : Nat, ∃ rest : List (Nat × Nat), ∃ t : Machine.State, id ≠ 0 ∧ (s.bay bay).inbox = (0, id) :: rest ∧ (s.bay bay).wrapper
      = .open_ ∧ Tbl.has s.work.tiles id = true ∧ (s.bay bay).tile = 0 ∧ enterTile (receiveRun s bay id) bay id = .ok t ()) ∧
    (∃ bay : BayNo, ∃ s : Machine.State, (s.bay bay).inbox = []) ∧
    (∃ bay : BayNo, ∃ s : Machine.State, ∃ id : Nat, ∃ t : Tile, (s.bay bay).inbox = [(1, id)] ∧ Tbl.find s.work.tiles id = some t ∧ t.bay = bay.val ∧ t.killed = false
      ∧ t.preemptAt = none ∧ t.status = none ∧ s.work.done = [] ∧ 4 < t.step) ∧
    (∃ bay : BayNo, ∃ s : Machine.State, ∃ id : Nat, ∃ t : Tile, ∃ c : Cmd, inboxTile (s.bay bay) 2 = some id ∧ tileCmd s id = some (t, c) ∧ t.bay = bay.val ∧ c.gang =
      false) ∧
    (∃ bay : BayNo, ∃ s : Machine.State, ∃ id : Nat, ∃ t : Tile, ∃ c : Cmd, inboxTile (s.bay bay) 2 = some id ∧ tileCmd s id = some (t, c) ∧ t.bay = bay.val ∧ c.gang =
      true) ∧
    (∃ s : Machine.State, ∃ d : DoneMsg, ∃ rest : List DoneMsg, ∃ t : Tile, s.work.done = d :: rest ∧ Tbl.find s.work.tiles d.tile = some t) := by
  refine ⟨?_, ?_, ?_, ?_, ?_, ?_⟩
  · exact ⟨(0), (wTiles 0 (fun s => s.modBay 0 (fun b => { b with inbox := [(0, 1)] }))), (1), ([]), (((enterTile (receiveRun ((wTiles 0 (fun s => s.modBay 0 (fun b =>
      { b with inbox := [(0, 1)] }))) : Machine.State) ((0) : BayNo) ((1) : Nat)) ((0) : BayNo) ((1) : Nat)).opt.get (by decide +kernel)).1), by decide +kernel,
      by decide +kernel, by decide +kernel, by decide +kernel, by decide +kernel, (TileGot.of_opt1 (of_get (by decide +kernel)))⟩
  · exact ⟨(0), (wSt), by decide +kernel⟩
  · exact ⟨(0), (wBay (fun b => { b with inbox := [(1, 1)] })), (1), (((Tbl.find ((wBay (fun b => { b with inbox := [(1, 1)] })) : Machine.State).work.tiles ((1) : Nat)).get
      (by decide +kernel))), by decide +kernel, (of_get (by decide +kernel)), by decide +kernel, by decide +kernel, by decide +kernel, by decide +kernel,
      by decide +kernel, by decide +kernel⟩
  · exact ⟨(0), (wBay (fun b => { b with inbox := [(2, 1)] })), (1), (((tileCmd ((wBay (fun b => { b with inbox := [(2, 1)] })) : Machine.State) ((1) : Nat)).get
      (by decide +kernel)).1), (((tileCmd ((wBay (fun b => { b with inbox := [(2, 1)] })) : Machine.State) ((1) : Nat)).get (by decide +kernel)).2), by decide +kernel,
      (of_get (by decide +kernel)), by decide +kernel, by decide +kernel⟩
  · exact ⟨(0), ({ wBay (fun b => { b with inbox := [(2, 1)] }) with work := { wSt.work with cmds := [(1, { ctx := 0, word := wWord [(480, 1)] })] } }), (1), (((tileCmd
      (({ wBay (fun b => { b with inbox := [(2, 1)] }) with work := { wSt.work with cmds := [(1, { ctx := 0, word := wWord [(480, 1)] })] } }) : Machine.State) ((1) :
      Nat)).get (by decide +kernel)).1), (((tileCmd
      (({ wBay (fun b => { b with inbox := [(2, 1)] }) with work := { wSt.work with cmds := [(1, { ctx := 0, word := wWord [(480, 1)] })] } }) : Machine.State) ((1) :
      Nat)).get (by decide +kernel)).2), by decide +kernel, (of_get (by decide +kernel)), by decide +kernel, by decide +kernel⟩
  · exact ⟨({ wSt with work := { wSt.work with done := [{ tile := 1, status := 0, parked := false, abandoned := false, saved := false, tags := 0, bayNs := 5 }] } }),
      ({ tile := 1, status := 0, parked := false, abandoned := false, saved := false, tags := 0, bayNs := 5 }), ([]), (((Tbl.find
      (({ wSt with work := { wSt.work with done := [{ tile := 1, status := 0, parked := false, abandoned := false, saved := false, tags := 0, bayNs := 5 }] } }) :
      Machine.State).work.tiles (({ tile := 1, status := 0, parked := false, abandoned := false, saved := false, tags := 0, bayNs := 5 }) : DoneMsg).tile).get
      (by decide +kernel))), by decide +kernel, (of_get (by decide +kernel))⟩

theorem witness_CardMessagesComplete :
    (∃ s : Machine.State, ∃ index : Nat, ∃ m : Card, s.nets.held[index]? = some m ∧ creditsHeld s m.dstRouter m.dstEp < 16 ∧ heldEarlier (s.nets.held.take index) m =
      false ∧ epFenced s m.dstRouter m.dstEp = false ∧ bayAt s m.srcRouter = none) ∧
    (∃ sh : ShelverNo, ∃ queue : Fin 16, ∃ index : BitVec 16, ∃ s : Machine.State, queue.val ≤ 8 ∧ (s.shelver sh).enabled queue = true ∧ (index.toNat + 65536 -
      ((s.shelver sh).queue queue).rd) % 65536 ≤ ((s.shelver sh).queue queue).size ∧ (((s.shelver sh).queue queue).wr + 65536 - ((s.shelver sh).queue queue).rd) % 65536 ≤
      (index.toNat + 65536 - ((s.shelver sh).queue queue).rd) % 65536) ∧
    (∃ sh : ShelverNo, ∃ queue : Fin 16, ∃ index : BitVec 16, ∃ s : Machine.State, (s.shelver sh).enabled queue = false) ∧
    (∃ src : CardEnd, ∃ dst : CardEnd, ∃ arg : Word, ∃ s : Machine.State, dst.ep = 4 ∧ (bayAt s dst.router.toNat).isSome = true) ∧
    (∃ src : CardEnd, ∃ dst : CardEnd, ∃ arg : Word, ∃ s : Machine.State, src.router.toNat = registrarRouter ∧ dst.ep = 0 ∧ dst.router.toNat < 48) ∧
    (∃ s : Machine.State, ∃ type : Nat, ∃ src : CardEnd, ∃ dst : CardEnd, ∃ arg : Word, kernelAt s src = none ∧ dst.ep ≠ 0 ∧ crosses s src dst = false ∧ epFenced s
      dst.router.toNat dst.ep.toNat = false) ∧
    (∃ s : Machine.State, ∃ r : Report, ∃ rest : List Report, s.reports = r :: rest ∧ r.bay < 32) ∧
    (∃ s : Machine.State, ∃ dst : CardEnd, ∃ m : Card, ∃ b : Nat, ∃ c : Nat, Tbl.getD s.nets.queues (cardKey dst.router.toNat dst.ep.toNat) [] = [m] ∧ kernelAt s dst =
      some (b, c) ∧ epFenced s m.dstRouter m.dstEp = false ∧ (s.core b c).running = true) := by
  refine ⟨?_, ?_, ?_, ?_, ?_, ?_, ?_, ?_⟩
  · exact ⟨({ wSt with nets := { held := [wCard] } }), (0), ((((({ wSt with nets := { held := [wCard] } }) : Machine.State).nets.held[((0) : Nat)]?).get
      (by decide +kernel))), (of_get (by decide +kernel)), by decide +kernel, by decide +kernel, by decide +kernel, by decide +kernel⟩
  · exact ⟨(15), (8), (3), ({ wSt with shelvers := [(15, { ctrl := 0x100, queues := [(8, { wr := 2, rd := 65534 })] })] }), by decide +kernel, by decide +kernel,
      by decide +kernel, by decide +kernel⟩
  · exact ⟨(0), (0), (0), (wSt), by decide +kernel⟩
  · exact ⟨(wEnd 48 0), (wEnd 1 4), (0), (wSt), by decide +kernel, by decide +kernel⟩
  · exact ⟨(wEnd 48 0), (wEnd 47 0), (0), (wSt), by decide +kernel, by decide +kernel, by decide +kernel⟩
  · exact ⟨(wSt), (2), (wEnd 48 0), (wEnd 1 4), (0), by decide +kernel, by decide +kernel, by decide +kernel, by decide +kernel⟩
  · exact ⟨({ wSt with reports := [{ bay := 31, core := 4, status := 6 }] }), ({ bay := 31, core := 4, status := 6 }), ([]), by decide +kernel, by decide +kernel⟩
  · exact ⟨({ wX [] with nets := { queues := [(21, [wCard])] } }), (wEnd 1 5), (wCard), (0), (0), by decide +kernel, by decide +kernel, by decide +kernel, by decide +kernel⟩

theorem witness_CoreMessagesAndTimeComplete :
    (∃ bay : BayNo, ∃ core : CoreNo, ∃ rd : RegNo, ∃ rs1 : RegNo, ∃ rs2 : RegNo, ∃ s : Machine.State, ∃ t : Machine.State, ∃ m : Card, CoreReady s bay core 4 t ∧
      core.val ≠ 4 ∧ cardOf t bay core ((t.core bay core).xGet rs1) ((t.core bay core).xGet rs2 % 2 ^ 32) = some m ∧ epFenced t m.dstRouter m.dstEp = false ∧ creditsHeld
      t m.dstRouter m.dstEp < 16 ∧ t.nets.held = []) ∧
    (∃ bay : BayNo, ∃ core : CoreNo, ∃ rd : RegNo, ∃ rs1 : RegNo, ∃ rs2 : RegNo, ∃ s : Machine.State, ∃ t : Machine.State, ∃ m : Card, CoreReady s bay core 4 t ∧
      core.val ≠ 4 ∧ cardOf t bay core ((t.core bay core).xGet rs1) ((t.core bay core).xGet rs2 % 2 ^ 32) = some m ∧ epFenced t m.dstRouter m.dstEp = false ∧ 16 ≤
      creditsHeld t m.dstRouter m.dstEp) ∧
    (∃ bay : BayNo, ∃ core : CoreNo, ∃ rd : RegNo, ∃ rs1 : RegNo, ∃ rs2 : RegNo, ∃ s : Machine.State, ∃ t : Machine.State, ∃ m : Card, CoreReady s bay core 4 t ∧
      core.val ≠ 4 ∧ cardOf t bay core ((t.core bay core).xGet rs1) ((t.core bay core).xGet rs2 % 2 ^ 32) = some m ∧ epFenced t m.dstRouter m.dstEp = false ∧ creditsHeld
      t m.dstRouter m.dstEp < 16 ∧ t.nets.held = []) ∧
    (∃ bay : BayNo, ∃ core : CoreNo, ∃ rd : RegNo, ∃ rs1 : RegNo, ∃ s : Machine.State, ∃ t : Machine.State, ∃ m : UserMsg, ∃ rest : List UserMsg, CoreReady s bay core 4
      t ∧ core.val ≠ 4 ∧ (t.core bay core).recv = m :: rest ∧ (t.core bay core).xGet rs1 = 0) ∧
    (∃ bay : BayNo, ∃ core : CoreNo, ∃ s : Machine.State, ∃ d : Nat, ∃ rd : Nat, (s.core bay core).wait = some (.recv d rd)) ∧
    (∃ bay : BayNo, ∃ core : CoreNo, ∃ rd : RegNo, ∃ s : Machine.State, ∃ t : Machine.State, CoreReady s bay core 4 t ∧ core.val ≠ 4) ∧
    (∃ bay : BayNo, ∃ core : CoreNo, ∃ rd : RegNo, ∃ rs1 : RegNo, ∃ s : Machine.State, ∃ t : Machine.State, CoreReady s bay core 4 t ∧ core.val ≠ 4 ∧ (t.core bay
      core).xGet rs1 ≤ t.now) ∧
    (∃ bay : BayNo, ∃ core : CoreNo, ∃ rd : RegNo, ∃ rs1 : RegNo, ∃ s : Machine.State, ∃ t : Machine.State, CoreReady s bay core 4 t ∧ core.val ≠ 4 ∧ t.now < (t.core
      bay core).xGet rs1) ∧
    (∃ bay : BayNo, ∃ core : CoreNo, ∃ s : Machine.State, ∃ d : Nat, ∃ rd : Nat, (s.core bay core).wait = some (.until d rd)) ∧
    (∃ bay : BayNo, ∃ core : CoreNo, ∃ rs1 : RegNo, ∃ s : Machine.State, ∃ t : Machine.State, CoreReady s bay core 4 t ∧ core.val ≠ 4 ∧ (t.core bay core).xGet rs1 = 0) := by
  refine ⟨?_, ?_, ?_, ?_, ?_, ?_, ?_, ?_, ?_, ?_⟩
  · exact ⟨(0), (0), (3), (1), (2), (wX [(1, 0xA0)]), ((coreFetch ((wX [(1, 0xA0)]) : Machine.State) ((0) : BayNo) ((0) : CoreNo) 4).opt.get (by decide +kernel)).1, (((cardOf
      (((coreFetch ((wX [(1, 0xA0)]) : Machine.State) ((0) : BayNo) ((0) : CoreNo) 4).opt.get (by decide +kernel)).1 : Machine.State) ((0) : BayNo) ((0) : CoreNo)
      (((((coreFetch ((wX [(1, 0xA0)]) : Machine.State) ((0) : BayNo) ((0) : CoreNo) 4).opt.get (by decide +kernel)).1 : Machine.State).core ((0) : BayNo) ((0) :
      CoreNo)).xGet ((1) : RegNo)) (((((coreFetch ((wX [(1, 0xA0)]) : Machine.State) ((0) : BayNo) ((0) : CoreNo) 4).opt.get (by decide +kernel)).1 : Machine.State).core
      ((0) : BayNo) ((0) : CoreNo)).xGet ((2) : RegNo) % 2 ^ 32)).get (by decide +kernel))), (by unfold CoreReady; exact ⟨by decide +kernel, CoreGot.of_opt (of_get _)⟩),
      by decide +kernel, (of_get (by decide +kernel)), by decide +kernel, by decide +kernel, by decide +kernel⟩
  · exact ⟨(0), (0), (3), (1), (2), ({ wX [(1, 0xA0)] with nets := { queues := [(21, List.replicate 16 wCard)] } }), ((coreFetch
      (({ wX [(1, 0xA0)] with nets := { queues := [(21, List.replicate 16 wCard)] } }) : Machine.State) ((0) : BayNo) ((0) : CoreNo) 4).opt.get (by decide +kernel)).1,
      (((cardOf (((coreFetch (({ wX [(1, 0xA0)] with nets := { queues := [(21, List.replicate 16 wCard)] } }) : Machine.State) ((0) : BayNo) ((0) : CoreNo) 4).opt.get
      (by decide +kernel)).1 : Machine.State) ((0) : BayNo) ((0) : CoreNo) (((((coreFetch (({ wX [(1, 0xA0)] with nets := { queues := [(21, List.replicate 16 wCard)] } })
      : Machine.State) ((0) : BayNo) ((0) : CoreNo) 4).opt.get (by decide +kernel)).1 : Machine.State).core ((0) : BayNo) ((0) : CoreNo)).xGet ((1) : RegNo))
      (((((coreFetch (({ wX [(1, 0xA0)] with nets := { queues := [(21, List.replicate 16 wCard)] } }) : Machine.State) ((0) : BayNo) ((0) : CoreNo) 4).opt.get
      (by decide +kernel)).1 : Machine.State).core ((0) : BayNo) ((0) : CoreNo)).xGet ((2) : RegNo) % 2 ^ 32)).get (by decide +kernel))),
      (by unfold CoreReady; exact ⟨by decide +kernel, CoreGot.of_opt (of_get _)⟩), by decide +kernel, (of_get (by decide +kernel)), by decide +kernel, by decide +kernel⟩
  · exact ⟨(0), (0), (3), (1), (2), ({ wX [(1, 0xA0)] with nets := { queues := [(21, List.replicate 15 wCard)] } }), ((coreFetch
      (({ wX [(1, 0xA0)] with nets := { queues := [(21, List.replicate 15 wCard)] } }) : Machine.State) ((0) : BayNo) ((0) : CoreNo) 4).opt.get (by decide +kernel)).1,
      (((cardOf (((coreFetch (({ wX [(1, 0xA0)] with nets := { queues := [(21, List.replicate 15 wCard)] } }) : Machine.State) ((0) : BayNo) ((0) : CoreNo) 4).opt.get
      (by decide +kernel)).1 : Machine.State) ((0) : BayNo) ((0) : CoreNo) (((((coreFetch (({ wX [(1, 0xA0)] with nets := { queues := [(21, List.replicate 15 wCard)] } })
      : Machine.State) ((0) : BayNo) ((0) : CoreNo) 4).opt.get (by decide +kernel)).1 : Machine.State).core ((0) : BayNo) ((0) : CoreNo)).xGet ((1) : RegNo))
      (((((coreFetch (({ wX [(1, 0xA0)] with nets := { queues := [(21, List.replicate 15 wCard)] } }) : Machine.State) ((0) : BayNo) ((0) : CoreNo) 4).opt.get
      (by decide +kernel)).1 : Machine.State).core ((0) : BayNo) ((0) : CoreNo)).xGet ((2) : RegNo) % 2 ^ 32)).get (by decide +kernel))),
      (by unfold CoreReady; exact ⟨by decide +kernel, CoreGot.of_opt (of_get _)⟩), by decide +kernel, (of_get (by decide +kernel)), by decide +kernel, by decide +kernel,
      by decide +kernel⟩
  · exact ⟨(0), (0), (3), (1), (wCore { recv := [wUser] }), ((coreFetch ((wCore { recv := [wUser] }) : Machine.State) ((0) : BayNo) ((0) : CoreNo) 4).opt.get
      (by decide +kernel)).1, (wUser), ([]), (by unfold CoreReady; exact ⟨by decide +kernel, CoreGot.of_opt (of_get _)⟩), by decide +kernel, by decide +kernel,
      by decide +kernel⟩
  · exact ⟨(0), (0), (wCore { wait := some (.recv 9 3) }), (9), (3), by decide +kernel⟩
  · exact ⟨(0), (5), (3), (wBay (fun b => { b with core5 := wK {} })), ((coreFetch ((wBay (fun b => { b with core5 := wK {} })) : Machine.State) ((0) : BayNo) ((5) : CoreNo)
      4).opt.get (by decide +kernel)).1, (by unfold CoreReady; exact ⟨by decide +kernel, CoreGot.of_opt (of_get _)⟩), by decide +kernel⟩
  · exact ⟨(0), (0), (3), (1), ({ wX [(1, 5)] with now := 5 }), ((coreFetch (({ wX [(1, 5)] with now := 5 }) : Machine.State) ((0) : BayNo) ((0) : CoreNo) 4).opt.get
      (by decide +kernel)).1, (by unfold CoreReady; exact ⟨by decide +kernel, CoreGot.of_opt (of_get _)⟩), by decide +kernel, by decide +kernel⟩
  · exact ⟨(0), (0), (3), (1), ({ wX [(1, 6)] with now := 5 }), ((coreFetch (({ wX [(1, 6)] with now := 5 }) : Machine.State) ((0) : BayNo) ((0) : CoreNo) 4).opt.get
      (by decide +kernel)).1, (by unfold CoreReady; exact ⟨by decide +kernel, CoreGot.of_opt (of_get _)⟩), by decide +kernel, by decide +kernel⟩
  · exact ⟨(0), (0), (wCore { wait := some (.until 9 3) }), (9), (3), by decide +kernel⟩
  · exact ⟨(0), (0), (1), (wX []), ((coreFetch ((wX []) : Machine.State) ((0) : BayNo) ((0) : CoreNo) 4).opt.get (by decide +kernel)).1,
      (by unfold CoreReady; exact ⟨by decide +kernel, CoreGot.of_opt (of_get _)⟩), by decide +kernel, by decide +kernel⟩

theorem witness_CoreOwnershipAndBlocksComplete :
    (∃ bay : BayNo, ∃ core : CoreNo, ∃ rd : RegNo, ∃ s : Machine.State, ∃ t : Machine.State, CoreReady s bay core 4 t ∧ core.val ≠ 4) ∧
    (∃ bay : BayNo, ∃ core : CoreNo, ∃ rd : RegNo, ∃ rs1 : RegNo, ∃ rs2 : RegNo, ∃ s : Machine.State, ∃ t : Machine.State, ∃ i : Nat, CoreReady s bay core 4 t ∧
      core.val < 4 ∧ i < 16 ∧ (t.core bay core).xGet rs1 = 2 ^ i ∧ (t.core bay core).xGet rs2 = 5 ∧ bankOwner (t.bay bay) i = portOfCore core) ∧
    (∃ bay : BayNo, ∃ core : CoreNo, ∃ rd : RegNo, ∃ rs1 : RegNo, ∃ rs2 : RegNo, ∃ s : Machine.State, ∃ t : Machine.State, CoreReady s bay core 4 t ∧ core.val ≠ 4 ∧
      (t.core bay core).xGet rs2 = 8) ∧
    (∃ bay : BayNo, ∃ core : CoreNo, ∃ word : Word, ∃ s : Machine.State, ∃ t : Machine.State, ∃ u : Machine.State, ∃ npc : Nat, CoreReady s bay core (if word.toNat % 4
      = 3 then 4 else 2) t ∧ anyWord t bay core word.toNat = .ok u npc) ∧
    (∃ bay : BayNo, ∃ core : CoreNo, ∃ s : Machine.State, ∃ t : Machine.State, CoreReady s bay core 4 t) ∧
    (∃ bay : BayNo, ∃ core : CoreNo, ∃ vd : RegNo, ∃ rs1 : RegNo, ∃ rs2 : RegNo, ∃ row : Fin 8, ∃ reg : Fin 4, ∃ s : Machine.State, ∃ t : Machine.State, CoreReady s bay
      core 4 t ∧ core.val < 4 ∧ row.val < 5 ∧ vd.val % 2 ^ reg.val = 0 ∧ (t.core bay core).xGet rs1 % 32 = 0 ∧ (t.core bay core).xGet rs2 % 32 = 0 ∧ (t.bay bay).pending =
      0 ∧ blockBad (t.bay bay) core ((List.range (2 ^ reg.val * 512 / (32 * 2 ^ row.val))).map (fun r => ((t.core bay core).xGet rs1 + r * (t.core bay core).xGet rs2) % 2
      ^ 64)) (32 * 2 ^ row.val) = none) ∧
    (∃ bay : BayNo, ∃ core : CoreNo, ∃ vs3 : RegNo, ∃ rs1 : RegNo, ∃ rs2 : RegNo, ∃ row : Fin 8, ∃ reg : Fin 4, ∃ s : Machine.State, ∃ t : Machine.State, CoreReady s
      bay core 4 t ∧ core.val < 4 ∧ row.val < 5 ∧ vs3.val % 2 ^ reg.val = 0 ∧ (t.core bay core).xGet rs1 % 32 = 0 ∧ (t.core bay core).xGet rs2 % 32 = 0 ∧ (t.bay
      bay).pending = 0 ∧ blockBad (t.bay bay) core ((List.range (2 ^ reg.val * 512 / (32 * 2 ^ row.val))).map (fun r => ((t.core bay core).xGet rs1 + r * (t.core bay
      core).xGet rs2) % 2 ^ 64)) (32 * 2 ^ row.val) = none) := by
  refine ⟨?_, ?_, ?_, ?_, ?_, ?_, ?_⟩
  · exact ⟨(0), (0), (1), (wX []), ((coreFetch ((wX []) : Machine.State) ((0) : BayNo) ((0) : CoreNo) 4).opt.get (by decide +kernel)).1,
      (by unfold CoreReady; exact ⟨by decide +kernel, CoreGot.of_opt (of_get _)⟩), by decide +kernel⟩
  · exact ⟨(0), (0), (3), (1), (2), (wX [(1, 1), (2, 5)]), ((coreFetch ((wX [(1, 1), (2, 5)]) : Machine.State) ((0) : BayNo) ((0) : CoreNo) 4).opt.get (by decide +kernel)).1,
      (0), (by unfold CoreReady; exact ⟨by decide +kernel, CoreGot.of_opt (of_get _)⟩), by decide +kernel, by decide +kernel, by decide +kernel, by decide +kernel,
      by decide +kernel⟩
  · exact ⟨(0), (0), (3), (1), (2), (wX [(1, 1), (2, 8)]), ((coreFetch ((wX [(1, 1), (2, 8)]) : Machine.State) ((0) : BayNo) ((0) : CoreNo) 4).opt.get (by decide +kernel)).1,
      (by unfold CoreReady; exact ⟨by decide +kernel, CoreGot.of_opt (of_get _)⟩), by decide +kernel, by decide +kernel⟩
  · exact ⟨(0), (4), (0x00100093), (wX []), ((coreFetch ((wX []) : Machine.State) ((0) : BayNo) ((4) : CoreNo) (if ((0x00100093) : Word).toNat % 4 = 3 then 4 else 2)).opt.get
      (by decide +kernel)).1, (((anyWord (((coreFetch ((wX []) : Machine.State) ((0) : BayNo) ((4) : CoreNo) (if ((0x00100093) : Word).toNat % 4 = 3 then 4 else
      2)).opt.get (by decide +kernel)).1 : Machine.State) ((0) : BayNo) ((4) : CoreNo) ((0x00100093) : Word).toNat).opt.get (by decide +kernel)).1), (((anyWord
      (((coreFetch ((wX []) : Machine.State) ((0) : BayNo) ((4) : CoreNo) (if ((0x00100093) : Word).toNat % 4 = 3 then 4 else 2)).opt.get (by decide +kernel)).1 :
      Machine.State) ((0) : BayNo) ((4) : CoreNo) ((0x00100093) : Word).toNat).opt.get (by decide +kernel)).2),
      (by unfold CoreReady; exact ⟨by decide +kernel, CoreGot.of_opt (of_get _)⟩),
      (by first | exact Got.of_opt (of_get (by decide +kernel)) | exact CoreGot.of_opt (of_get (by decide +kernel)) | exact TileGot.of_opt (of_get (by decide +kernel)) | exact OtMem.of_opt (of_get (by decide +kernel)) | exact Admit.of_opt (of_get (by decide +kernel)) | exact ShRes.of_opt (of_get (by decide +kernel)))⟩
  · exact ⟨(0), (5), (wBay (fun b => { b with core5 := wK {} })), ((coreFetch ((wBay (fun b => { b with core5 := wK {} })) : Machine.State) ((0) : BayNo) ((5) : CoreNo)
      4).opt.get (by decide +kernel)).1, (by unfold CoreReady; exact ⟨by decide +kernel, CoreGot.of_opt (of_get _)⟩)⟩
  · exact ⟨(0), (0), (8), (1), (2), (4), (3), (wX [(1, 0xFFFFFFFFF0000000), (2, 512)]), ((coreFetch ((wX [(1, 0xFFFFFFFFF0000000), (2, 512)]) : Machine.State) ((0) : BayNo)
      ((0) : CoreNo) 4).opt.get (by decide +kernel)).1, (by unfold CoreReady; exact ⟨by decide +kernel, CoreGot.of_opt (of_get _)⟩), by decide +kernel, by decide +kernel,
      by decide +kernel, by decide +kernel, by decide +kernel, by decide +kernel, by decide +kernel⟩
  · exact ⟨(0), (0), (1), (1), (2), (0), (0), (wX [(1, 0xFFFFFFFFF0000000), (2, 32)]), ((coreFetch ((wX [(1, 0xFFFFFFFFF0000000), (2, 32)]) : Machine.State) ((0) : BayNo)
      ((0) : CoreNo) 4).opt.get (by decide +kernel)).1, (by unfold CoreReady; exact ⟨by decide +kernel, CoreGot.of_opt (of_get _)⟩), by decide +kernel, by decide +kernel,
      by decide +kernel, by decide +kernel, by decide +kernel, by decide +kernel, by decide +kernel⟩

theorem witness_AnchoredVectorsComplete :
    (∃ bay : BayNo, ∃ core : CoreNo, ∃ rs1 : RegNo, ∃ vm : Bool, ∃ s : Machine.State, ∃ t : Machine.State, ∃ fm : Fmt, CoreReady s bay core 4 t ∧ core.val < 4 ∧
      anchorFmt (t.core bay core) = some fm ∧ (t.core bay core).vl ≤ 64) ∧
    (∃ bay : BayNo, ∃ core : CoreNo, ∃ vs2 : RegNo, ∃ vm : Bool, ∃ s : Machine.State, ∃ t : Machine.State, ∃ fm : Fmt, CoreReady s bay core 4 t ∧ core.val < 4 ∧
      anchorFmt (t.core bay core) = some fm ∧ (t.core bay core).vl ≤ 64 ∧ vAligned vs2 (t.core bay core).vlg = true) ∧
    (∃ bay : BayNo, ∃ core : CoreNo, ∃ vs2 : RegNo, ∃ vs1 : RegNo, ∃ vm : Bool, ∃ s : Machine.State, ∃ t : Machine.State, ∃ fm : Fmt, CoreReady s bay core 4 t ∧
      core.val < 4 ∧ anchorFmt (t.core bay core) = some fm ∧ (t.core bay core).vl ≤ 64 ∧ vAligned vs2 (t.core bay core).vlg = true ∧ vAligned vs1 (t.core bay core).vlg =
      true) ∧
    (∃ bay : BayNo, ∃ core : CoreNo, ∃ vs2 : RegNo, ∃ vm : Bool, ∃ s : Machine.State, ∃ t : Machine.State, ∃ fm : Fmt, CoreReady s bay core 4 t ∧ core.val < 4 ∧
      anchorFmt (t.core bay core) = some fm ∧ vAligned vs2 (t.core bay core).vlg = true) ∧
    (∃ bay : BayNo, ∃ core : CoreNo, ∃ vs2 : RegNo, ∃ vs1 : RegNo, ∃ vm : Bool, ∃ s : Machine.State, ∃ t : Machine.State, ∃ fm : Fmt, CoreReady s bay core 4 t ∧
      core.val < 4 ∧ anchorFmt (t.core bay core) = some fm ∧ vAligned vs2 (t.core bay core).vlg = true ∧ vAligned vs1 (t.core bay core).vlg = true) ∧
    (∃ bay : BayNo, ∃ core : CoreNo, ∃ vd : RegNo, ∃ s : Machine.State, ∃ t : Machine.State, ∃ fm : Fmt, CoreReady s bay core 4 t ∧ core.val < 4 ∧ anchorFmt (t.core bay
      core) = some fm ∧ (t.core bay core).vl ≤ 64 ∧ vAligned vd (t.core bay core).vlg = true) ∧
    (∃ bay : BayNo, ∃ core : CoreNo, ∃ vd : RegNo, ∃ rs1 : RegNo, ∃ s : Machine.State, ∃ t : Machine.State, ∃ fm : Fmt, CoreReady s bay core 4 t ∧ core.val < 4 ∧
      anchorFmt (t.core bay core) = some fm) ∧
    (∃ bay : BayNo, ∃ core : CoreNo, ∃ rs1 : RegNo, ∃ s : Machine.State, ∃ t : Machine.State, ∃ u : Machine.State, ∃ fm : Fmt, CoreReady s bay core 4 t ∧ core.val < 4 ∧
      anchorFmt (t.core bay core) = some fm ∧ (t.core bay core).xGet rs1 % 32 = 0 ∧ saveRecs t bay core ((t.core bay core).xGet rs1) ((List.range 64).filter (fun i =>
      decide ((t.core bay core).vstart ≤ i))) = .ok u ()) ∧
    (∃ bay : BayNo, ∃ core : CoreNo, ∃ rs1 : RegNo, ∃ s : Machine.State, ∃ t : Machine.State, ∃ u : Machine.State, ∃ fm : Fmt, CoreReady s bay core 4 t ∧ core.val < 4 ∧
      anchorFmt (t.core bay core) = some fm ∧ (t.core bay core).xGet rs1 % 32 = 0 ∧ loadRecs t bay core ((t.core bay core).xGet rs1) ((List.range 64).filter (fun i =>
      decide ((t.core bay core).vstart ≤ i))) = .ok u ()) ∧
    (∃ bay : BayNo, ∃ core : CoreNo, ∃ rs1 : RegNo, ∃ s : Machine.State, ∃ t : Machine.State, ∃ u : Machine.State, ∃ bs : List Byte, ∃ fm : Fmt, CoreReady s bay core 4
      t ∧ core.val < 4 ∧ anchorFmt (t.core bay core) = some fm ∧ (t.core bay core).xGet rs1 % 32 = 0 ∧ coreLoad t bay core ((t.core bay core).xGet rs1) 32 = .ok u bs ∧
      (A192.ofRec (BitVec.ofNat 256 (natLE bs))).anchor = ((t.core bay core).accGet (t.core bay core).accIndex).anchor) ∧
    (∃ bay : BayNo, ∃ core : CoreNo, ∃ vd : RegNo, ∃ vs2 : RegNo, ∃ vs1 : RegNo, ∃ vm : Bool, ∃ s : Machine.State, ∃ t : Machine.State, ∃ fm : Fmt, CoreReady s bay core
      4 t ∧ core.val < 4 ∧ anchorFmt (t.core bay core) = some fm ∧ vAligned vs2 (t.core bay core).vlg = true) := by
  refine ⟨?_, ?_, ?_, ?_, ?_, ?_, ?_, ?_, ?_, ?_, ?_⟩
  · exact ⟨(0), (0), (1), (true), (wCore { wAnch with vl := 64, x := [(1, 0xFFFFFFFFF0000000)] }), ((coreFetch ((wCore
      { wAnch with vl := 64, x := [(1, 0xFFFFFFFFF0000000)] }) : Machine.State) ((0) : BayNo) ((0) : CoreNo) 4).opt.get (by decide +kernel)).1, (((anchorFmt ((((coreFetch
      ((wCore { wAnch with vl := 64, x := [(1, 0xFFFFFFFFF0000000)] }) : Machine.State) ((0) : BayNo) ((0) : CoreNo) 4).opt.get (by decide +kernel)).1 :
      Machine.State).core ((0) : BayNo) ((0) : CoreNo))).get (by decide +kernel))), (by unfold CoreReady; exact ⟨by decide +kernel, CoreGot.of_opt (of_get _)⟩),
      by decide +kernel, (of_get (by decide +kernel)), by decide +kernel⟩
  · exact ⟨(0), (0), (8), (true), (wCore { vtype := 0x1B, vl := 64 }), ((coreFetch ((wCore { vtype := 0x1B, vl := 64 }) : Machine.State) ((0) : BayNo) ((0) : CoreNo)
      4).opt.get (by decide +kernel)).1, (((anchorFmt ((((coreFetch ((wCore { vtype := 0x1B, vl := 64 }) : Machine.State) ((0) : BayNo) ((0) : CoreNo) 4).opt.get
      (by decide +kernel)).1 : Machine.State).core ((0) : BayNo) ((0) : CoreNo))).get (by decide +kernel))),
      (by unfold CoreReady; exact ⟨by decide +kernel, CoreGot.of_opt (of_get _)⟩), by decide +kernel, (of_get (by decide +kernel)), by decide +kernel, by decide +kernel⟩
  · exact ⟨(0), (0), (2), (3), (false), (wCore { wAnch with x := [(1, 0xFFFFFFFFF0000000)] }), ((coreFetch ((wCore { wAnch with x := [(1, 0xFFFFFFFFF0000000)] }) :
      Machine.State) ((0) : BayNo) ((0) : CoreNo) 4).opt.get (by decide +kernel)).1, (((anchorFmt ((((coreFetch ((wCore { wAnch with x := [(1, 0xFFFFFFFFF0000000)] }) :
      Machine.State) ((0) : BayNo) ((0) : CoreNo) 4).opt.get (by decide +kernel)).1 : Machine.State).core ((0) : BayNo) ((0) : CoreNo))).get (by decide +kernel))),
      (by unfold CoreReady; exact ⟨by decide +kernel, CoreGot.of_opt (of_get _)⟩), by decide +kernel, (of_get (by decide +kernel)), by decide +kernel, by decide +kernel,
      by decide +kernel⟩
  · exact ⟨(0), (0), (2), (true), (wCore { wAnch with x := [(1, 0xFFFFFFFFF0000000)] }), ((coreFetch ((wCore { wAnch with x := [(1, 0xFFFFFFFFF0000000)] }) : Machine.State)
      ((0) : BayNo) ((0) : CoreNo) 4).opt.get (by decide +kernel)).1, (((anchorFmt ((((coreFetch ((wCore { wAnch with x := [(1, 0xFFFFFFFFF0000000)] }) : Machine.State)
      ((0) : BayNo) ((0) : CoreNo) 4).opt.get (by decide +kernel)).1 : Machine.State).core ((0) : BayNo) ((0) : CoreNo))).get (by decide +kernel))),
      (by unfold CoreReady; exact ⟨by decide +kernel, CoreGot.of_opt (of_get _)⟩), by decide +kernel, (of_get (by decide +kernel)), by decide +kernel⟩
  · exact ⟨(0), (0), (2), (3), (true), (wCore { wAnch with x := [(1, 0xFFFFFFFFF0000000)] }), ((coreFetch ((wCore { wAnch with x := [(1, 0xFFFFFFFFF0000000)] }) :
      Machine.State) ((0) : BayNo) ((0) : CoreNo) 4).opt.get (by decide +kernel)).1, (((anchorFmt ((((coreFetch ((wCore { wAnch with x := [(1, 0xFFFFFFFFF0000000)] }) :
      Machine.State) ((0) : BayNo) ((0) : CoreNo) 4).opt.get (by decide +kernel)).1 : Machine.State).core ((0) : BayNo) ((0) : CoreNo))).get (by decide +kernel))),
      (by unfold CoreReady; exact ⟨by decide +kernel, CoreGot.of_opt (of_get _)⟩), by decide +kernel, (of_get (by decide +kernel)), by decide +kernel, by decide +kernel⟩
  · exact ⟨(0), (0), (4), (wCore { wAnch with x := [(1, 0xFFFFFFFFF0000000)] }), ((coreFetch ((wCore { wAnch with x := [(1, 0xFFFFFFFFF0000000)] }) : Machine.State) ((0) :
      BayNo) ((0) : CoreNo) 4).opt.get (by decide +kernel)).1, (((anchorFmt ((((coreFetch ((wCore { wAnch with x := [(1, 0xFFFFFFFFF0000000)] }) : Machine.State) ((0) :
      BayNo) ((0) : CoreNo) 4).opt.get (by decide +kernel)).1 : Machine.State).core ((0) : BayNo) ((0) : CoreNo))).get (by decide +kernel))),
      (by unfold CoreReady; exact ⟨by decide +kernel, CoreGot.of_opt (of_get _)⟩), by decide +kernel, (of_get (by decide +kernel)), by decide +kernel, by decide +kernel⟩
  · exact ⟨(0), (0), (4), (1), (wCore { wAnch with x := [(1, 0xFFFFFFFFF0000000)] }), ((coreFetch ((wCore { wAnch with x := [(1, 0xFFFFFFFFF0000000)] }) : Machine.State) ((0)
      : BayNo) ((0) : CoreNo) 4).opt.get (by decide +kernel)).1, (((anchorFmt ((((coreFetch ((wCore { wAnch with x := [(1, 0xFFFFFFFFF0000000)] }) : Machine.State) ((0) :
      BayNo) ((0) : CoreNo) 4).opt.get (by decide +kernel)).1 : Machine.State).core ((0) : BayNo) ((0) : CoreNo))).get (by decide +kernel))),
      (by unfold CoreReady; exact ⟨by decide +kernel, CoreGot.of_opt (of_get _)⟩), by decide +kernel, (of_get (by decide +kernel))⟩
  · exact ⟨(0), (0), (1), (wCore { wAnch with x := [(1, 0xFFFFFFFFF0000000)] }), ((coreFetch ((wCore { wAnch with x := [(1, 0xFFFFFFFFF0000000)] }) : Machine.State) ((0) :
      BayNo) ((0) : CoreNo) 4).opt.get (by decide +kernel)).1, (((saveRecs (((coreFetch ((wCore { wAnch with x := [(1, 0xFFFFFFFFF0000000)] }) : Machine.State) ((0) :
      BayNo) ((0) : CoreNo) 4).opt.get (by decide +kernel)).1 : Machine.State) ((0) : BayNo) ((0) : CoreNo) (((((coreFetch ((wCore
      { wAnch with x := [(1, 0xFFFFFFFFF0000000)] }) : Machine.State) ((0) : BayNo) ((0) : CoreNo) 4).opt.get (by decide +kernel)).1 : Machine.State).core ((0) : BayNo)
      ((0) : CoreNo)).xGet ((1) : RegNo)) ((List.range 64).filter (fun i => decide (((((coreFetch ((wCore { wAnch with x := [(1, 0xFFFFFFFFF0000000)] }) : Machine.State)
      ((0) : BayNo) ((0) : CoreNo) 4).opt.get (by decide +kernel)).1 : Machine.State).core ((0) : BayNo) ((0) : CoreNo)).vstart ≤ i)))).opt.get (by decide +kernel)).1),
      (((anchorFmt ((((coreFetch ((wCore { wAnch with x := [(1, 0xFFFFFFFFF0000000)] }) : Machine.State) ((0) : BayNo) ((0) : CoreNo) 4).opt.get (by decide +kernel)).1 :
      Machine.State).core ((0) : BayNo) ((0) : CoreNo))).get (by decide +kernel))), (by unfold CoreReady; exact ⟨by decide +kernel, CoreGot.of_opt (of_get _)⟩),
      by decide +kernel, (of_get (by decide +kernel)), by decide +kernel,
      (by first | exact CoreGot.of_opt1 (of_get (by decide +kernel)) | exact TileGot.of_opt1 (of_get (by decide +kernel)) | exact Got.of_opt1 (of_get (by decide +kernel)))⟩
  · exact ⟨(0), (0), (1), (wCore { wAnch with x := [(1, 0xFFFFFFFFF0000000)] }), ((coreFetch ((wCore { wAnch with x := [(1, 0xFFFFFFFFF0000000)] }) : Machine.State) ((0) :
      BayNo) ((0) : CoreNo) 4).opt.get (by decide +kernel)).1, (((loadRecs (((coreFetch ((wCore { wAnch with x := [(1, 0xFFFFFFFFF0000000)] }) : Machine.State) ((0) :
      BayNo) ((0) : CoreNo) 4).opt.get (by decide +kernel)).1 : Machine.State) ((0) : BayNo) ((0) : CoreNo) (((((coreFetch ((wCore
      { wAnch with x := [(1, 0xFFFFFFFFF0000000)] }) : Machine.State) ((0) : BayNo) ((0) : CoreNo) 4).opt.get (by decide +kernel)).1 : Machine.State).core ((0) : BayNo)
      ((0) : CoreNo)).xGet ((1) : RegNo)) ((List.range 64).filter (fun i => decide (((((coreFetch ((wCore { wAnch with x := [(1, 0xFFFFFFFFF0000000)] }) : Machine.State)
      ((0) : BayNo) ((0) : CoreNo) 4).opt.get (by decide +kernel)).1 : Machine.State).core ((0) : BayNo) ((0) : CoreNo)).vstart ≤ i)))).opt.get (by decide +kernel)).1),
      (((anchorFmt ((((coreFetch ((wCore { wAnch with x := [(1, 0xFFFFFFFFF0000000)] }) : Machine.State) ((0) : BayNo) ((0) : CoreNo) 4).opt.get (by decide +kernel)).1 :
      Machine.State).core ((0) : BayNo) ((0) : CoreNo))).get (by decide +kernel))), (by unfold CoreReady; exact ⟨by decide +kernel, CoreGot.of_opt (of_get _)⟩),
      by decide +kernel, (of_get (by decide +kernel)), by decide +kernel,
      (by first | exact CoreGot.of_opt1 (of_get (by decide +kernel)) | exact TileGot.of_opt1 (of_get (by decide +kernel)) | exact Got.of_opt1 (of_get (by decide +kernel)))⟩
  · exact ⟨(0), (0), (1), (wCore { wAnch with x := [(1, 0xFFFFFFFFF0000000)], acc := [(0, A192.ofRec 0)] }), ((coreFetch ((wCore
      { wAnch with x := [(1, 0xFFFFFFFFF0000000)], acc := [(0, A192.ofRec 0)] }) : Machine.State) ((0) : BayNo) ((0) : CoreNo) 4).opt.get (by decide +kernel)).1,
      (((coreLoad (((coreFetch ((wCore { wAnch with x := [(1, 0xFFFFFFFFF0000000)], acc := [(0, A192.ofRec 0)] }) : Machine.State) ((0) : BayNo) ((0) : CoreNo) 4).opt.get
      (by decide +kernel)).1 : Machine.State) ((0) : BayNo) ((0) : CoreNo) (((((coreFetch ((wCore
      { wAnch with x := [(1, 0xFFFFFFFFF0000000)], acc := [(0, A192.ofRec 0)] }) : Machine.State) ((0) : BayNo) ((0) : CoreNo) 4).opt.get (by decide +kernel)).1 :
      Machine.State).core ((0) : BayNo) ((0) : CoreNo)).xGet ((1) : RegNo)) 32).opt.get (by decide +kernel)).1), (((coreLoad (((coreFetch ((wCore
      { wAnch with x := [(1, 0xFFFFFFFFF0000000)], acc := [(0, A192.ofRec 0)] }) : Machine.State) ((0) : BayNo) ((0) : CoreNo) 4).opt.get (by decide +kernel)).1 :
      Machine.State) ((0) : BayNo) ((0) : CoreNo) (((((coreFetch ((wCore { wAnch with x := [(1, 0xFFFFFFFFF0000000)], acc := [(0, A192.ofRec 0)] }) : Machine.State) ((0)
      : BayNo) ((0) : CoreNo) 4).opt.get (by decide +kernel)).1 : Machine.State).core ((0) : BayNo) ((0) : CoreNo)).xGet ((1) : RegNo)) 32).opt.get
      (by decide +kernel)).2), (((anchorFmt ((((coreFetch ((wCore { wAnch with x := [(1, 0xFFFFFFFFF0000000)], acc := [(0, A192.ofRec 0)] }) : Machine.State) ((0) :
      BayNo) ((0) : CoreNo) 4).opt.get (by decide +kernel)).1 : Machine.State).core ((0) : BayNo) ((0) : CoreNo))).get (by decide +kernel))),
      (by unfold CoreReady; exact ⟨by decide +kernel, CoreGot.of_opt (of_get _)⟩), by decide +kernel, (of_get (by decide +kernel)), by decide +kernel,
      (by first | exact Got.of_opt (of_get (by decide +kernel)) | exact CoreGot.of_opt (of_get (by decide +kernel)) | exact TileGot.of_opt (of_get (by decide +kernel)) | exact OtMem.of_opt (of_get (by decide +kernel)) | exact Admit.of_opt (of_get (by decide +kernel)) | exact ShRes.of_opt (of_get (by decide +kernel))),
      by decide +kernel⟩
  · exact ⟨(0), (0), (4), (2), (3), (true), (wCore { wAnch with x := [(1, 0xFFFFFFFFF0000000)] }), ((coreFetch ((wCore { wAnch with x := [(1, 0xFFFFFFFFF0000000)] }) :
      Machine.State) ((0) : BayNo) ((0) : CoreNo) 4).opt.get (by decide +kernel)).1, (((anchorFmt ((((coreFetch ((wCore { wAnch with x := [(1, 0xFFFFFFFFF0000000)] }) :
      Machine.State) ((0) : BayNo) ((0) : CoreNo) 4).opt.get (by decide +kernel)).1 : Machine.State).core ((0) : BayNo) ((0) : CoreNo))).get (by decide +kernel))),
      (by unfold CoreReady; exact ⟨by decide +kernel, CoreGot.of_opt (of_get _)⟩), by decide +kernel, (of_get (by decide +kernel)), by decide +kernel⟩

theorem witness_VectorFunctionsComplete :
    (∃ bay : BayNo, ∃ core : CoreNo, ∃ vd : RegNo, ∃ vs2 : RegNo, ∃ bf16 : Bool, ∃ s : Machine.State, ∃ t : Machine.State, FnReady s bay core vd vs2 bf16 t) ∧
    (∃ bay : BayNo, ∃ core : CoreNo, ∃ vd : RegNo, ∃ vs2 : RegNo, ∃ bf16 : Bool, ∃ s : Machine.State, ∃ t : Machine.State, FnReady s bay core vd vs2 bf16 t) ∧
    (∃ bay : BayNo, ∃ core : CoreNo, ∃ vd : RegNo, ∃ vs2 : RegNo, ∃ bf16 : Bool, ∃ s : Machine.State, ∃ t : Machine.State, FnReady s bay core vd vs2 bf16 t) ∧
    (∃ bay : BayNo, ∃ core : CoreNo, ∃ vd : RegNo, ∃ vs2 : RegNo, ∃ bf16 : Bool, ∃ s : Machine.State, ∃ t : Machine.State, FnReady s bay core vd vs2 bf16 t) ∧
    (∃ bay : BayNo, ∃ core : CoreNo, ∃ vd : RegNo, ∃ vs2 : RegNo, ∃ bf16 : Bool, ∃ s : Machine.State, ∃ t : Machine.State, FnReady s bay core vd vs2 bf16 t) ∧
    (∃ bay : BayNo, ∃ core : CoreNo, ∃ vd : RegNo, ∃ vs2 : RegNo, ∃ bf16 : Bool, ∃ s : Machine.State, ∃ t : Machine.State, FnReady s bay core vd vs2 bf16 t) ∧
    (∃ bay : BayNo, ∃ core : CoreNo, ∃ vd : RegNo, ∃ vs2 : RegNo, ∃ bf16 : Bool, ∃ s : Machine.State, ∃ t : Machine.State, FnReady s bay core vd vs2 bf16 t) ∧
    (∃ bay : BayNo, ∃ core : CoreNo, ∃ vd : RegNo, ∃ vs2 : RegNo, ∃ bf16 : Bool, ∃ s : Machine.State, ∃ t : Machine.State, FnReady s bay core vd vs2 bf16 t) := by
  refine ⟨?_, ?_, ?_, ?_, ?_, ?_, ?_, ?_⟩
  · exact ⟨(0), (0), (4), (2), (false), (wCore wVec), ((coreFetch ((wCore wVec) : Machine.State) ((0) : BayNo) ((0) : CoreNo) 4).opt.get (by decide +kernel)).1,
      (by unfold FnReady CoreReady; exact ⟨⟨by decide +kernel, CoreGot.of_opt (of_get _)⟩, by decide +kernel⟩)⟩
  · exact ⟨(0), (3), (4), (2), (true), (wBay (fun b => { b with core3 := wK { vtype := 8, vl := 32 } })), ((coreFetch ((wBay (fun b =>
      { b with core3 := wK { vtype := 8, vl := 32 } })) : Machine.State) ((0) : BayNo) ((3) : CoreNo) 4).opt.get (by decide +kernel)).1,
      (by unfold FnReady CoreReady; exact ⟨⟨by decide +kernel, CoreGot.of_opt (of_get _)⟩, by decide +kernel⟩)⟩
  · exact ⟨(0), (0), (4), (2), (false), (wCore wVec), ((coreFetch ((wCore wVec) : Machine.State) ((0) : BayNo) ((0) : CoreNo) 4).opt.get (by decide +kernel)).1,
      (by unfold FnReady CoreReady; exact ⟨⟨by decide +kernel, CoreGot.of_opt (of_get _)⟩, by decide +kernel⟩)⟩
  · exact ⟨(0), (3), (4), (2), (true), (wBay (fun b => { b with core3 := wK { vtype := 8, vl := 32 } })), ((coreFetch ((wBay (fun b =>
      { b with core3 := wK { vtype := 8, vl := 32 } })) : Machine.State) ((0) : BayNo) ((3) : CoreNo) 4).opt.get (by decide +kernel)).1,
      (by unfold FnReady CoreReady; exact ⟨⟨by decide +kernel, CoreGot.of_opt (of_get _)⟩, by decide +kernel⟩)⟩
  · exact ⟨(0), (0), (4), (2), (false), (wCore wVec), ((coreFetch ((wCore wVec) : Machine.State) ((0) : BayNo) ((0) : CoreNo) 4).opt.get (by decide +kernel)).1,
      (by unfold FnReady CoreReady; exact ⟨⟨by decide +kernel, CoreGot.of_opt (of_get _)⟩, by decide +kernel⟩)⟩
  · exact ⟨(0), (3), (4), (2), (true), (wBay (fun b => { b with core3 := wK { vtype := 8, vl := 32 } })), ((coreFetch ((wBay (fun b =>
      { b with core3 := wK { vtype := 8, vl := 32 } })) : Machine.State) ((0) : BayNo) ((3) : CoreNo) 4).opt.get (by decide +kernel)).1,
      (by unfold FnReady CoreReady; exact ⟨⟨by decide +kernel, CoreGot.of_opt (of_get _)⟩, by decide +kernel⟩)⟩
  · exact ⟨(0), (0), (4), (2), (false), (wCore wVec), ((coreFetch ((wCore wVec) : Machine.State) ((0) : BayNo) ((0) : CoreNo) 4).opt.get (by decide +kernel)).1,
      (by unfold FnReady CoreReady; exact ⟨⟨by decide +kernel, CoreGot.of_opt (of_get _)⟩, by decide +kernel⟩)⟩
  · exact ⟨(0), (3), (4), (2), (true), (wBay (fun b => { b with core3 := wK { vtype := 8, vl := 32 } })), ((coreFetch ((wBay (fun b =>
      { b with core3 := wK { vtype := 8, vl := 32 } })) : Machine.State) ((0) : BayNo) ((3) : CoreNo) 4).opt.get (by decide +kernel)).1,
      (by unfold FnReady CoreReady; exact ⟨⟨by decide +kernel, CoreGot.of_opt (of_get _)⟩, by decide +kernel⟩)⟩

theorem witness_StackRequestsComplete :
    (∃ bay : BayNo, ∃ s : Machine.State, ∃ t : Tile, Tbl.find s.work.tiles (s.bay bay).tile = some t ∧ t.startAt ≠ 0 ∧ t.step = 4) ∧
    (∃ req : MemReq, ∃ s : Machine.State, inStacks req.addr.toNat = true ∧ stackStopped (s.stack (stackOfPa req.addr.toNat)) = false ∧ capped (s.stack (stackOfPa
      req.addr.toNat)) (rqOf s req).master = false) ∧
    (∃ req : MemReq, ∃ s : Machine.State, inStacks req.addr.toNat = true ∧ stackStopped (s.stack (stackOfPa req.addr.toNat)) = true ∧ (s.stack (stackOfPa
      req.addr.toNat)).queue.length < 256) ∧
    (∃ k : StackNo, ∃ bay : BayNo, ∃ order : Nat, ∃ addr : PAddr, ∃ bytes : BitVec 34, ∃ s : Machine.State, (s.stack k).ranges.length < 64) ∧
    (∃ k : StackNo, ∃ bay : BayNo, ∃ order : Nat, ∃ addr : PAddr, ∃ bytes : BitVec 34, ∃ s : Machine.State, 64 ≤ (s.stack k).ranges.length ∧ (s.stack k).pfDrops = 0) ∧
    (∃ k : StackNo, ∃ s : Machine.State, ∃ r : LaRange, (s.stack k).enforcing = false ∧ (s.stack k).queue.length < bitsAt (s.stack k).queueThresh.toNat 16 9 ∧
      stackStopped (s.stack k) = false ∧ (s.stack k).streams = [] ∧ (s.stack k).ranges = [r] ∧ bitsAt (s.stack k).pfCtrl.toNat 1 1 = 1 ∧ r.next = 0 ∧ 0 < r.bytes) := by
  refine ⟨?_, ?_, ?_, ?_, ?_, ?_⟩
  · exact ⟨(0), ({ wSt with work := { wSt.work with tiles := [(1, { cmd := 1, step := 4, startAt := 9 })] }, bays := [(0, { tile := 1 })] }), (((Tbl.find
      (({ wSt with work := { wSt.work with tiles := [(1, { cmd := 1, step := 4, startAt := 9 })] }, bays := [(0, { tile := 1 })] }) : Machine.State).work.tiles
      ((({ wSt with work := { wSt.work with tiles := [(1, { cmd := 1, step := 4, startAt := 9 })] }, bays := [(0, { tile := 1 })] }) : Machine.State).bay ((0) :
      BayNo)).tile).get (by decide +kernel))), (of_get (by decide +kernel)), by decide +kernel, by decide +kernel⟩
  · exact ⟨(wReq), (wSt), by decide +kernel, by decide +kernel, by decide +kernel⟩
  · exact ⟨({ wReq with addr := 0x1BFFFFFFFC0 }), ({ wSt with hbm := (List.range 8).map (fun k => (k, { state := 3, queue := List.replicate 255 wReq })) }),
      by decide +kernel, by decide +kernel, by decide +kernel⟩
  · exact ⟨(7), (0), (1), (0x200000), (256), (wStk 7 (fun x => { x with ranges := List.replicate 63 wRange })), by decide +kernel⟩
  · exact ⟨(7), (0), (1), (0x200000), (256), (wStk 7 (fun x => { x with ranges := List.replicate 64 wRange })), by decide +kernel, by decide +kernel⟩
  · exact ⟨(0), (wStk 0 (fun x => { x with ranges := [wRange], queue := List.replicate 127 wReq })), (wRange), by decide +kernel, by decide +kernel, by decide +kernel,
      by decide +kernel, by decide +kernel, by decide +kernel, by decide +kernel, by decide +kernel⟩

theorem witness_StackMaintenanceComplete :
    (∃ k : StackNo, ∃ part : PartNo, ∃ s : Machine.State, (s.stack k).maint = none) ∧
    (∃ k : StackNo, ∃ part : PartNo, ∃ s : Machine.State, (s.stack k).maint = none) ∧
    (∃ k : StackNo, ∃ shelf : Fin 16, ∃ s : Machine.State, (s.stack k).maint = none) ∧
    (∃ k : StackNo, ∃ s : Machine.State, (s.stack k).maint = none) ∧
    (∃ k : StackNo, ∃ s : Machine.State, ∃ op : Nat × Nat × Nat, (s.stack k).maint = some op) ∧
    (∃ k : StackNo, ∃ s : Machine.State, ∃ op : Nat, ∃ part : Nat, ∃ shelf : Nat, (s.stack k).maint = some (op, part, shelf) ∧ s.mem.txns = []) ∧
    (∃ k : StackNo, ∃ ch : Fin 32, ∃ s : Machine.State, Tbl.getD (s.stack k).lanesUsed ch 0 < 2) ∧
    (∃ k : StackNo, ∃ ch : Fin 32, ∃ s : Machine.State, 2 ≤ Tbl.getD (s.stack k).lanesUsed ch 0) ∧
    (∃ k : StackNo, ∃ s : Machine.State, (s.stack k).selfRefresh = false ∧ (s.stack k).scrubAt = 0 ∧ (s.stack k).scrubCtrl = 0 ∧ s.mem.poison = []) ∧
    (∃ k : StackNo, ∃ s : Machine.State, (s.stack k).nextState = (s.stack k).state ∧ (s.stack k).guarNext = [] ∧ (s.stack k).queue = []) := by
  refine ⟨?_, ?_, ?_, ?_, ?_, ?_, ?_, ?_, ?_, ?_⟩
  · exact ⟨(0), (7), (wStk 0 (fun x => x)), by decide +kernel⟩
  · exact ⟨(0), (0), (wStk 0 (fun x => x)), by decide +kernel⟩
  · exact ⟨(0), (15), (wStk 0 (fun x => x)), by decide +kernel⟩
  · exact ⟨(0), (wStk 0 (fun x => x)), by decide +kernel⟩
  · exact ⟨(0), (wStk 0 (fun x => { x with maint := some (1, 0, 0) })), ((1, 0, 0)), by decide +kernel⟩
  · exact ⟨(0), (wStk 0 (fun x => { x with maint := some (2, 0, 15) })), (2), (0), (15), by decide +kernel, by decide +kernel⟩
  · exact ⟨(0), (31), (wStk 0 (fun x => { x with lanesUsed := [(31, 1)] })), by decide +kernel⟩
  · exact ⟨(0), (0), (wStk 0 (fun x => { x with lanesUsed := [(0, 2)] })), by decide +kernel⟩
  · exact ⟨(0), (wStk 0 (fun x => { x with scrubCtrl := 0 })), by decide +kernel, by decide +kernel, by decide +kernel, by decide +kernel⟩
  · exact ⟨(0), (wStk 0 (fun x => x)), by decide +kernel, by decide +kernel, by decide +kernel⟩

theorem witness_ShelverMovesComplete :
    (∃ sh : ShelverNo, ∃ s : Machine.State, ∃ q : Nat, ∃ w : BitVec 1024, ∃ u : Machine.State, ∃ c : ShCx, ShReady s sh 0 q w u c) ∧
    (∃ sh : ShelverNo, ∃ s : Machine.State, ∃ q : Nat, ∃ w : BitVec 1024, ∃ u : Machine.State, ∃ c : ShCx, ∃ v : Machine.State, ∃ r : ShRun, ShReady s sh 1 q w u c ∧
      shDoes shCopy u c w (shAdmitted s sh q w c) = .did v r) ∧
    (∃ sh : ShelverNo, ∃ s : Machine.State, ∃ q : Nat, ∃ w : BitVec 1024, ∃ u : Machine.State, ∃ c : ShCx, ∃ v : Machine.State, ∃ r : ShRun, ShReady s sh 2 q w u c ∧
      shDoes shFill u c w (shAdmitted s sh q w c) = .did v r) ∧
    (∃ sh : ShelverNo, ∃ s : Machine.State, ∃ q : Nat, ∃ w : BitVec 1024, ∃ u : Machine.State, ∃ c : ShCx, ∃ v : Machine.State, ∃ r : ShRun, ShReady s sh 3 q w u c ∧
      shDoes (shGather false) u c w (shAdmitted s sh q w c) = .did v r) ∧
    (∃ sh : ShelverNo, ∃ s : Machine.State, ∃ q : Nat, ∃ w : BitVec 1024, ∃ u : Machine.State, ∃ c : ShCx, ∃ v : Machine.State, ∃ r : ShRun, ShReady s sh 4 q w u c ∧
      shDoes (shGather true) u c w (shAdmitted s sh q w c) = .did v r) ∧
    (∃ sh : ShelverNo, ∃ s : Machine.State, ∃ q : Nat, ∃ w : BitVec 1024, ∃ u : Machine.State, ∃ c : ShCx, ∃ v : Machine.State, ∃ r : ShRun, ShReady s sh 8 q w u c ∧
      shDoes shTranspose u c w (shAdmitted s sh q w c) = .did v r) ∧
    (∃ sh : ShelverNo, ∃ s : Machine.State, ∃ q : Nat, ∃ w : BitVec 1024, ∃ u : Machine.State, ∃ c : ShCx, ∃ v : Machine.State, ∃ r : ShRun, ShReady s sh 11 q w u c ∧
      shDoes shPrefetch u c w (shAdmitted s sh q w c) = .did v r) ∧
    (∃ sh : ShelverNo, ∃ s : Machine.State, ∃ q : Nat, ∃ w : BitVec 1024, ∃ u : Machine.State, ∃ c : ShCx, ∃ v : Machine.State, ∃ r : ShRun, ShReady s sh 12 q w u c ∧
      shDoes shMigrate u c w (shAdmitted s sh q w c) = .did v r) := by
  refine ⟨?_, ?_, ?_, ?_, ?_, ?_, ?_, ?_⟩
  · exact ⟨(0), (wSh (wShC [0x100])), (8), (wShC [0x100]), ((admission ((regRead ((wSh (wShC [0x100])) : Machine.State) (((((wSh (wShC [0x100])) : Machine.State).shelver ((0)
      : ShelverNo)).queue ((8) : Nat)).cmdBase.toNat + ((((wSh (wShC [0x100])) : Machine.State).shelver ((0) : ShelverNo)).queue ((8) : Nat)).rd % ((((wSh (wShC [0x100]))
      : Machine.State).shelver ((0) : ShelverNo)).queue ((8) : Nat)).size * 128) 128).opt.get (by decide +kernel)).1 ((0) : ShelverNo) ((8) : Nat) ((wShC [0x100]) :
      BitVec 1024)).opt.get (by decide +kernel)).1, ((admission ((regRead ((wSh (wShC [0x100])) : Machine.State) (((((wSh (wShC [0x100])) : Machine.State).shelver ((0) :
      ShelverNo)).queue ((8) : Nat)).cmdBase.toNat + ((((wSh (wShC [0x100])) : Machine.State).shelver ((0) : ShelverNo)).queue ((8) : Nat)).rd % ((((wSh (wShC [0x100])) :
      Machine.State).shelver ((0) : ShelverNo)).queue ((8) : Nat)).size * 128) 128).opt.get (by decide +kernel)).1 ((0) : ShelverNo) ((8) : Nat) ((wShC [0x100]) : BitVec
      1024)).opt.get (by decide +kernel)).2,
      (by unfold ShReady; exact ⟨by decide +kernel, by decide +kernel, by decide +kernel, by decide +kernel, _, _, Got.of_opt (of_get (by decide +kernel)), by decide +kernel, Admit.of_opt (of_get _)⟩)⟩
  · exact ⟨(0), (wSh (wShC [0x101, 0x200000, 0x400000, 64])), (8), (wShC [0x101, 0x200000, 0x400000, 64]), ((admission ((regRead ((wSh (wShC [0x101, 0x200000, 0x400000, 64]))
      : Machine.State) (((((wSh (wShC [0x101, 0x200000, 0x400000, 64])) : Machine.State).shelver ((0) : ShelverNo)).queue ((8) : Nat)).cmdBase.toNat + ((((wSh (wShC
      [0x101, 0x200000, 0x400000, 64])) : Machine.State).shelver ((0) : ShelverNo)).queue ((8) : Nat)).rd % ((((wSh (wShC [0x101, 0x200000, 0x400000, 64])) :
      Machine.State).shelver ((0) : ShelverNo)).queue ((8) : Nat)).size * 128) 128).opt.get (by decide +kernel)).1 ((0) : ShelverNo) ((8) : Nat) ((wShC [0x101, 0x200000,
      0x400000, 64]) : BitVec 1024)).opt.get (by decide +kernel)).1, ((admission ((regRead ((wSh (wShC [0x101, 0x200000, 0x400000, 64])) : Machine.State) (((((wSh (wShC
      [0x101, 0x200000, 0x400000, 64])) : Machine.State).shelver ((0) : ShelverNo)).queue ((8) : Nat)).cmdBase.toNat + ((((wSh (wShC [0x101, 0x200000, 0x400000, 64])) :
      Machine.State).shelver ((0) : ShelverNo)).queue ((8) : Nat)).rd % ((((wSh (wShC [0x101, 0x200000, 0x400000, 64])) : Machine.State).shelver ((0) : ShelverNo)).queue
      ((8) : Nat)).size * 128) 128).opt.get (by decide +kernel)).1 ((0) : ShelverNo) ((8) : Nat) ((wShC [0x101, 0x200000, 0x400000, 64]) : BitVec 1024)).opt.get
      (by decide +kernel)).2, (((shDoes shCopy (((admission ((regRead ((wSh (wShC [0x101, 0x200000, 0x400000, 64])) : Machine.State) (((((wSh (wShC [0x101, 0x200000,
      0x400000, 64])) : Machine.State).shelver ((0) : ShelverNo)).queue ((8) : Nat)).cmdBase.toNat + ((((wSh (wShC [0x101, 0x200000, 0x400000, 64])) :
      Machine.State).shelver ((0) : ShelverNo)).queue ((8) : Nat)).rd % ((((wSh (wShC [0x101, 0x200000, 0x400000, 64])) : Machine.State).shelver ((0) : ShelverNo)).queue
      ((8) : Nat)).size * 128) 128).opt.get (by decide +kernel)).1 ((0) : ShelverNo) ((8) : Nat) ((wShC [0x101, 0x200000, 0x400000, 64]) : BitVec 1024)).opt.get
      (by decide +kernel)).1 : Machine.State) (((admission ((regRead ((wSh (wShC [0x101, 0x200000, 0x400000, 64])) : Machine.State) (((((wSh (wShC [0x101, 0x200000,
      0x400000, 64])) : Machine.State).shelver ((0) : ShelverNo)).queue ((8) : Nat)).cmdBase.toNat + ((((wSh (wShC [0x101, 0x200000, 0x400000, 64])) :
      Machine.State).shelver ((0) : ShelverNo)).queue ((8) : Nat)).rd % ((((wSh (wShC [0x101, 0x200000, 0x400000, 64])) : Machine.State).shelver ((0) : ShelverNo)).queue
      ((8) : Nat)).size * 128) 128).opt.get (by decide +kernel)).1 ((0) : ShelverNo) ((8) : Nat) ((wShC [0x101, 0x200000, 0x400000, 64]) : BitVec 1024)).opt.get
      (by decide +kernel)).2 : ShCx) ((wShC [0x101, 0x200000, 0x400000, 64]) : BitVec 1024) (shAdmitted ((wSh (wShC [0x101, 0x200000, 0x400000, 64])) : Machine.State)
      ((0) : ShelverNo) ((8) : Nat) ((wShC [0x101, 0x200000, 0x400000, 64]) : BitVec 1024) (((admission ((regRead ((wSh (wShC [0x101, 0x200000, 0x400000, 64])) :
      Machine.State) (((((wSh (wShC [0x101, 0x200000, 0x400000, 64])) : Machine.State).shelver ((0) : ShelverNo)).queue ((8) : Nat)).cmdBase.toNat + ((((wSh (wShC [0x101,
      0x200000, 0x400000, 64])) : Machine.State).shelver ((0) : ShelverNo)).queue ((8) : Nat)).rd % ((((wSh (wShC [0x101, 0x200000, 0x400000, 64])) :
      Machine.State).shelver ((0) : ShelverNo)).queue ((8) : Nat)).size * 128) 128).opt.get (by decide +kernel)).1 ((0) : ShelverNo) ((8) : Nat) ((wShC [0x101, 0x200000,
      0x400000, 64]) : BitVec 1024)).opt.get (by decide +kernel)).2 : ShCx))).opt.get (by decide +kernel)).1), (((shDoes shCopy (((admission ((regRead ((wSh (wShC [0x101,
      0x200000, 0x400000, 64])) : Machine.State) (((((wSh (wShC [0x101, 0x200000, 0x400000, 64])) : Machine.State).shelver ((0) : ShelverNo)).queue ((8) :
      Nat)).cmdBase.toNat + ((((wSh (wShC [0x101, 0x200000, 0x400000, 64])) : Machine.State).shelver ((0) : ShelverNo)).queue ((8) : Nat)).rd % ((((wSh (wShC [0x101,
      0x200000, 0x400000, 64])) : Machine.State).shelver ((0) : ShelverNo)).queue ((8) : Nat)).size * 128) 128).opt.get (by decide +kernel)).1 ((0) : ShelverNo) ((8) :
      Nat) ((wShC [0x101, 0x200000, 0x400000, 64]) : BitVec 1024)).opt.get (by decide +kernel)).1 : Machine.State) (((admission ((regRead ((wSh (wShC [0x101, 0x200000,
      0x400000, 64])) : Machine.State) (((((wSh (wShC [0x101, 0x200000, 0x400000, 64])) : Machine.State).shelver ((0) : ShelverNo)).queue ((8) : Nat)).cmdBase.toNat +
      ((((wSh (wShC [0x101, 0x200000, 0x400000, 64])) : Machine.State).shelver ((0) : ShelverNo)).queue ((8) : Nat)).rd % ((((wSh (wShC [0x101, 0x200000, 0x400000, 64]))
      : Machine.State).shelver ((0) : ShelverNo)).queue ((8) : Nat)).size * 128) 128).opt.get (by decide +kernel)).1 ((0) : ShelverNo) ((8) : Nat) ((wShC [0x101,
      0x200000, 0x400000, 64]) : BitVec 1024)).opt.get (by decide +kernel)).2 : ShCx) ((wShC [0x101, 0x200000, 0x400000, 64]) : BitVec 1024) (shAdmitted ((wSh (wShC
      [0x101, 0x200000, 0x400000, 64])) : Machine.State) ((0) : ShelverNo) ((8) : Nat) ((wShC [0x101, 0x200000, 0x400000, 64]) : BitVec 1024) (((admission ((regRead ((wSh
      (wShC [0x101, 0x200000, 0x400000, 64])) : Machine.State) (((((wSh (wShC [0x101, 0x200000, 0x400000, 64])) : Machine.State).shelver ((0) : ShelverNo)).queue ((8) :
      Nat)).cmdBase.toNat + ((((wSh (wShC [0x101, 0x200000, 0x400000, 64])) : Machine.State).shelver ((0) : ShelverNo)).queue ((8) : Nat)).rd % ((((wSh (wShC [0x101,
      0x200000, 0x400000, 64])) : Machine.State).shelver ((0) : ShelverNo)).queue ((8) : Nat)).size * 128) 128).opt.get (by decide +kernel)).1 ((0) : ShelverNo) ((8) :
      Nat) ((wShC [0x101, 0x200000, 0x400000, 64]) : BitVec 1024)).opt.get (by decide +kernel)).2 : ShCx))).opt.get (by decide +kernel)).2),
      (by unfold ShReady; exact ⟨by decide +kernel, by decide +kernel, by decide +kernel, by decide +kernel, _, _, Got.of_opt (of_get (by decide +kernel)), by decide +kernel, Admit.of_opt (of_get _)⟩),
      (ShRes.of_opt (of_get (by decide +kernel)))⟩
  · exact ⟨(0), (wSh (wShC [0x102, 0, 0x400000, 64, 0, 0xAB])), (8), (wShC [0x102, 0, 0x400000, 64, 0, 0xAB]), ((admission ((regRead ((wSh (wShC [0x102, 0, 0x400000, 64, 0,
      0xAB])) : Machine.State) (((((wSh (wShC [0x102, 0, 0x400000, 64, 0, 0xAB])) : Machine.State).shelver ((0) : ShelverNo)).queue ((8) : Nat)).cmdBase.toNat + ((((wSh
      (wShC [0x102, 0, 0x400000, 64, 0, 0xAB])) : Machine.State).shelver ((0) : ShelverNo)).queue ((8) : Nat)).rd % ((((wSh (wShC [0x102, 0, 0x400000, 64, 0, 0xAB])) :
      Machine.State).shelver ((0) : ShelverNo)).queue ((8) : Nat)).size * 128) 128).opt.get (by decide +kernel)).1 ((0) : ShelverNo) ((8) : Nat) ((wShC [0x102, 0,
      0x400000, 64, 0, 0xAB]) : BitVec 1024)).opt.get (by decide +kernel)).1, ((admission ((regRead ((wSh (wShC [0x102, 0, 0x400000, 64, 0, 0xAB])) : Machine.State)
      (((((wSh (wShC [0x102, 0, 0x400000, 64, 0, 0xAB])) : Machine.State).shelver ((0) : ShelverNo)).queue ((8) : Nat)).cmdBase.toNat + ((((wSh (wShC [0x102, 0, 0x400000,
      64, 0, 0xAB])) : Machine.State).shelver ((0) : ShelverNo)).queue ((8) : Nat)).rd % ((((wSh (wShC [0x102, 0, 0x400000, 64, 0, 0xAB])) : Machine.State).shelver ((0) :
      ShelverNo)).queue ((8) : Nat)).size * 128) 128).opt.get (by decide +kernel)).1 ((0) : ShelverNo) ((8) : Nat) ((wShC [0x102, 0, 0x400000, 64, 0, 0xAB]) : BitVec
      1024)).opt.get (by decide +kernel)).2, (((shDoes shFill (((admission ((regRead ((wSh (wShC [0x102, 0, 0x400000, 64, 0, 0xAB])) : Machine.State) (((((wSh (wShC
      [0x102, 0, 0x400000, 64, 0, 0xAB])) : Machine.State).shelver ((0) : ShelverNo)).queue ((8) : Nat)).cmdBase.toNat + ((((wSh (wShC [0x102, 0, 0x400000, 64, 0, 0xAB]))
      : Machine.State).shelver ((0) : ShelverNo)).queue ((8) : Nat)).rd % ((((wSh (wShC [0x102, 0, 0x400000, 64, 0, 0xAB])) : Machine.State).shelver ((0) :
      ShelverNo)).queue ((8) : Nat)).size * 128) 128).opt.get (by decide +kernel)).1 ((0) : ShelverNo) ((8) : Nat) ((wShC [0x102, 0, 0x400000, 64, 0, 0xAB]) : BitVec
      1024)).opt.get (by decide +kernel)).1 : Machine.State) (((admission ((regRead ((wSh (wShC [0x102, 0, 0x400000, 64, 0, 0xAB])) : Machine.State) (((((wSh (wShC
      [0x102, 0, 0x400000, 64, 0, 0xAB])) : Machine.State).shelver ((0) : ShelverNo)).queue ((8) : Nat)).cmdBase.toNat + ((((wSh (wShC [0x102, 0, 0x400000, 64, 0, 0xAB]))
      : Machine.State).shelver ((0) : ShelverNo)).queue ((8) : Nat)).rd % ((((wSh (wShC [0x102, 0, 0x400000, 64, 0, 0xAB])) : Machine.State).shelver ((0) :
      ShelverNo)).queue ((8) : Nat)).size * 128) 128).opt.get (by decide +kernel)).1 ((0) : ShelverNo) ((8) : Nat) ((wShC [0x102, 0, 0x400000, 64, 0, 0xAB]) : BitVec
      1024)).opt.get (by decide +kernel)).2 : ShCx) ((wShC [0x102, 0, 0x400000, 64, 0, 0xAB]) : BitVec 1024) (shAdmitted ((wSh (wShC [0x102, 0, 0x400000, 64, 0, 0xAB])) :
      Machine.State) ((0) : ShelverNo) ((8) : Nat) ((wShC [0x102, 0, 0x400000, 64, 0, 0xAB]) : BitVec 1024) (((admission ((regRead ((wSh (wShC [0x102, 0, 0x400000, 64, 0,
      0xAB])) : Machine.State) (((((wSh (wShC [0x102, 0, 0x400000, 64, 0, 0xAB])) : Machine.State).shelver ((0) : ShelverNo)).queue ((8) : Nat)).cmdBase.toNat + ((((wSh
      (wShC [0x102, 0, 0x400000, 64, 0, 0xAB])) : Machine.State).shelver ((0) : ShelverNo)).queue ((8) : Nat)).rd % ((((wSh (wShC [0x102, 0, 0x400000, 64, 0, 0xAB])) :
      Machine.State).shelver ((0) : ShelverNo)).queue ((8) : Nat)).size * 128) 128).opt.get (by decide +kernel)).1 ((0) : ShelverNo) ((8) : Nat) ((wShC [0x102, 0,
      0x400000, 64, 0, 0xAB]) : BitVec 1024)).opt.get (by decide +kernel)).2 : ShCx))).opt.get (by decide +kernel)).1), (((shDoes shFill (((admission ((regRead ((wSh
      (wShC [0x102, 0, 0x400000, 64, 0, 0xAB])) : Machine.State) (((((wSh (wShC [0x102, 0, 0x400000, 64, 0, 0xAB])) : Machine.State).shelver ((0) : ShelverNo)).queue ((8)
      : Nat)).cmdBase.toNat + ((((wSh (wShC [0x102, 0, 0x400000, 64, 0, 0xAB])) : Machine.State).shelver ((0) : ShelverNo)).queue ((8) : Nat)).rd % ((((wSh (wShC [0x102,
      0, 0x400000, 64, 0, 0xAB])) : Machine.State).shelver ((0) : ShelverNo)).queue ((8) : Nat)).size * 128) 128).opt.get (by decide +kernel)).1 ((0) : ShelverNo) ((8) :
      Nat) ((wShC [0x102, 0, 0x400000, 64, 0, 0xAB]) : BitVec 1024)).opt.get (by decide +kernel)).1 : Machine.State) (((admission ((regRead ((wSh (wShC [0x102, 0,
      0x400000, 64, 0, 0xAB])) : Machine.State) (((((wSh (wShC [0x102, 0, 0x400000, 64, 0, 0xAB])) : Machine.State).shelver ((0) : ShelverNo)).queue ((8) :
      Nat)).cmdBase.toNat + ((((wSh (wShC [0x102, 0, 0x400000, 64, 0, 0xAB])) : Machine.State).shelver ((0) : ShelverNo)).queue ((8) : Nat)).rd % ((((wSh (wShC [0x102, 0,
      0x400000, 64, 0, 0xAB])) : Machine.State).shelver ((0) : ShelverNo)).queue ((8) : Nat)).size * 128) 128).opt.get (by decide +kernel)).1 ((0) : ShelverNo) ((8) :
      Nat) ((wShC [0x102, 0, 0x400000, 64, 0, 0xAB]) : BitVec 1024)).opt.get (by decide +kernel)).2 : ShCx) ((wShC [0x102, 0, 0x400000, 64, 0, 0xAB]) : BitVec 1024)
      (shAdmitted ((wSh (wShC [0x102, 0, 0x400000, 64, 0, 0xAB])) : Machine.State) ((0) : ShelverNo) ((8) : Nat) ((wShC [0x102, 0, 0x400000, 64, 0, 0xAB]) : BitVec 1024)
      (((admission ((regRead ((wSh (wShC [0x102, 0, 0x400000, 64, 0, 0xAB])) : Machine.State) (((((wSh (wShC [0x102, 0, 0x400000, 64, 0, 0xAB])) : Machine.State).shelver
      ((0) : ShelverNo)).queue ((8) : Nat)).cmdBase.toNat + ((((wSh (wShC [0x102, 0, 0x400000, 64, 0, 0xAB])) : Machine.State).shelver ((0) : ShelverNo)).queue ((8) :
      Nat)).rd % ((((wSh (wShC [0x102, 0, 0x400000, 64, 0, 0xAB])) : Machine.State).shelver ((0) : ShelverNo)).queue ((8) : Nat)).size * 128) 128).opt.get
      (by decide +kernel)).1 ((0) : ShelverNo) ((8) : Nat) ((wShC [0x102, 0, 0x400000, 64, 0, 0xAB]) : BitVec 1024)).opt.get (by decide +kernel)).2 : ShCx))).opt.get
      (by decide +kernel)).2),
      (by unfold ShReady; exact ⟨by decide +kernel, by decide +kernel, by decide +kernel, by decide +kernel, _, _, Got.of_opt (of_get (by decide +kernel)), by decide +kernel, Admit.of_opt (of_get _)⟩),
      (ShRes.of_opt (of_get (by decide +kernel)))⟩
  · exact ⟨(0), (wSh (wShC [0x103, 0x200000, 0x400000, 2 + 3 * 2 ^ 40, 0x300000, 4])), (8), (wShC [0x103, 0x200000, 0x400000, 2 + 3 * 2 ^ 40, 0x300000, 4]), ((admission
      ((regRead ((wSh (wShC [0x103, 0x200000, 0x400000, 2 + 3 * 2 ^ 40, 0x300000, 4])) : Machine.State) (((((wSh (wShC [0x103, 0x200000, 0x400000, 2 + 3 * 2 ^ 40,
      0x300000, 4])) : Machine.State).shelver ((0) : ShelverNo)).queue ((8) : Nat)).cmdBase.toNat + ((((wSh (wShC [0x103, 0x200000, 0x400000, 2 + 3 * 2 ^ 40, 0x300000,
      4])) : Machine.State).shelver ((0) : ShelverNo)).queue ((8) : Nat)).rd % ((((wSh (wShC [0x103, 0x200000, 0x400000, 2 + 3 * 2 ^ 40, 0x300000, 4])) :
      Machine.State).shelver ((0) : ShelverNo)).queue ((8) : Nat)).size * 128) 128).opt.get (by decide +kernel)).1 ((0) : ShelverNo) ((8) : Nat) ((wShC [0x103, 0x200000,
      0x400000, 2 + 3 * 2 ^ 40, 0x300000, 4]) : BitVec 1024)).opt.get (by decide +kernel)).1, ((admission ((regRead ((wSh (wShC [0x103, 0x200000, 0x400000, 2 + 3 * 2 ^
      40, 0x300000, 4])) : Machine.State) (((((wSh (wShC [0x103, 0x200000, 0x400000, 2 + 3 * 2 ^ 40, 0x300000, 4])) : Machine.State).shelver ((0) : ShelverNo)).queue ((8)
      : Nat)).cmdBase.toNat + ((((wSh (wShC [0x103, 0x200000, 0x400000, 2 + 3 * 2 ^ 40, 0x300000, 4])) : Machine.State).shelver ((0) : ShelverNo)).queue ((8) : Nat)).rd %
      ((((wSh (wShC [0x103, 0x200000, 0x400000, 2 + 3 * 2 ^ 40, 0x300000, 4])) : Machine.State).shelver ((0) : ShelverNo)).queue ((8) : Nat)).size * 128) 128).opt.get
      (by decide +kernel)).1 ((0) : ShelverNo) ((8) : Nat) ((wShC [0x103, 0x200000, 0x400000, 2 + 3 * 2 ^ 40, 0x300000, 4]) : BitVec 1024)).opt.get
      (by decide +kernel)).2, (((shDoes (shGather false) (((admission ((regRead ((wSh (wShC [0x103, 0x200000, 0x400000, 2 + 3 * 2 ^ 40, 0x300000, 4])) : Machine.State)
      (((((wSh (wShC [0x103, 0x200000, 0x400000, 2 + 3 * 2 ^ 40, 0x300000, 4])) : Machine.State).shelver ((0) : ShelverNo)).queue ((8) : Nat)).cmdBase.toNat + ((((wSh
      (wShC [0x103, 0x200000, 0x400000, 2 + 3 * 2 ^ 40, 0x300000, 4])) : Machine.State).shelver ((0) : ShelverNo)).queue ((8) : Nat)).rd % ((((wSh (wShC [0x103, 0x200000,
      0x400000, 2 + 3 * 2 ^ 40, 0x300000, 4])) : Machine.State).shelver ((0) : ShelverNo)).queue ((8) : Nat)).size * 128) 128).opt.get (by decide +kernel)).1 ((0) :
      ShelverNo) ((8) : Nat) ((wShC [0x103, 0x200000, 0x400000, 2 + 3 * 2 ^ 40, 0x300000, 4]) : BitVec 1024)).opt.get (by decide +kernel)).1 : Machine.State) (((admission
      ((regRead ((wSh (wShC [0x103, 0x200000, 0x400000, 2 + 3 * 2 ^ 40, 0x300000, 4])) : Machine.State) (((((wSh (wShC [0x103, 0x200000, 0x400000, 2 + 3 * 2 ^ 40,
      0x300000, 4])) : Machine.State).shelver ((0) : ShelverNo)).queue ((8) : Nat)).cmdBase.toNat + ((((wSh (wShC [0x103, 0x200000, 0x400000, 2 + 3 * 2 ^ 40, 0x300000,
      4])) : Machine.State).shelver ((0) : ShelverNo)).queue ((8) : Nat)).rd % ((((wSh (wShC [0x103, 0x200000, 0x400000, 2 + 3 * 2 ^ 40, 0x300000, 4])) :
      Machine.State).shelver ((0) : ShelverNo)).queue ((8) : Nat)).size * 128) 128).opt.get (by decide +kernel)).1 ((0) : ShelverNo) ((8) : Nat) ((wShC [0x103, 0x200000,
      0x400000, 2 + 3 * 2 ^ 40, 0x300000, 4]) : BitVec 1024)).opt.get (by decide +kernel)).2 : ShCx) ((wShC [0x103, 0x200000, 0x400000, 2 + 3 * 2 ^ 40, 0x300000, 4]) :
      BitVec 1024) (shAdmitted ((wSh (wShC [0x103, 0x200000, 0x400000, 2 + 3 * 2 ^ 40, 0x300000, 4])) : Machine.State) ((0) : ShelverNo) ((8) : Nat) ((wShC [0x103,
      0x200000, 0x400000, 2 + 3 * 2 ^ 40, 0x300000, 4]) : BitVec 1024) (((admission ((regRead ((wSh (wShC [0x103, 0x200000, 0x400000, 2 + 3 * 2 ^ 40, 0x300000, 4])) :
      Machine.State) (((((wSh (wShC [0x103, 0x200000, 0x400000, 2 + 3 * 2 ^ 40, 0x300000, 4])) : Machine.State).shelver ((0) : ShelverNo)).queue ((8) :
      Nat)).cmdBase.toNat + ((((wSh (wShC [0x103, 0x200000, 0x400000, 2 + 3 * 2 ^ 40, 0x300000, 4])) : Machine.State).shelver ((0) : ShelverNo)).queue ((8) : Nat)).rd %
      ((((wSh (wShC [0x103, 0x200000, 0x400000, 2 + 3 * 2 ^ 40, 0x300000, 4])) : Machine.State).shelver ((0) : ShelverNo)).queue ((8) : Nat)).size * 128) 128).opt.get
      (by decide +kernel)).1 ((0) : ShelverNo) ((8) : Nat) ((wShC [0x103, 0x200000, 0x400000, 2 + 3 * 2 ^ 40, 0x300000, 4]) : BitVec 1024)).opt.get (by decide +kernel)).2
      : ShCx))).opt.get (by decide +kernel)).1), (((shDoes (shGather false) (((admission ((regRead ((wSh (wShC [0x103, 0x200000, 0x400000, 2 + 3 * 2 ^ 40, 0x300000, 4]))
      : Machine.State) (((((wSh (wShC [0x103, 0x200000, 0x400000, 2 + 3 * 2 ^ 40, 0x300000, 4])) : Machine.State).shelver ((0) : ShelverNo)).queue ((8) :
      Nat)).cmdBase.toNat + ((((wSh (wShC [0x103, 0x200000, 0x400000, 2 + 3 * 2 ^ 40, 0x300000, 4])) : Machine.State).shelver ((0) : ShelverNo)).queue ((8) : Nat)).rd %
      ((((wSh (wShC [0x103, 0x200000, 0x400000, 2 + 3 * 2 ^ 40, 0x300000, 4])) : Machine.State).shelver ((0) : ShelverNo)).queue ((8) : Nat)).size * 128) 128).opt.get
      (by decide +kernel)).1 ((0) : ShelverNo) ((8) : Nat) ((wShC [0x103, 0x200000, 0x400000, 2 + 3 * 2 ^ 40, 0x300000, 4]) : BitVec 1024)).opt.get (by decide +kernel)).1
      : Machine.State) (((admission ((regRead ((wSh (wShC [0x103, 0x200000, 0x400000, 2 + 3 * 2 ^ 40, 0x300000, 4])) : Machine.State) (((((wSh (wShC [0x103, 0x200000,
      0x400000, 2 + 3 * 2 ^ 40, 0x300000, 4])) : Machine.State).shelver ((0) : ShelverNo)).queue ((8) : Nat)).cmdBase.toNat + ((((wSh (wShC [0x103, 0x200000, 0x400000, 2
      + 3 * 2 ^ 40, 0x300000, 4])) : Machine.State).shelver ((0) : ShelverNo)).queue ((8) : Nat)).rd % ((((wSh (wShC [0x103, 0x200000, 0x400000, 2 + 3 * 2 ^ 40, 0x300000,
      4])) : Machine.State).shelver ((0) : ShelverNo)).queue ((8) : Nat)).size * 128) 128).opt.get (by decide +kernel)).1 ((0) : ShelverNo) ((8) : Nat) ((wShC [0x103,
      0x200000, 0x400000, 2 + 3 * 2 ^ 40, 0x300000, 4]) : BitVec 1024)).opt.get (by decide +kernel)).2 : ShCx) ((wShC [0x103, 0x200000, 0x400000, 2 + 3 * 2 ^ 40,
      0x300000, 4]) : BitVec 1024) (shAdmitted ((wSh (wShC [0x103, 0x200000, 0x400000, 2 + 3 * 2 ^ 40, 0x300000, 4])) : Machine.State) ((0) : ShelverNo) ((8) : Nat)
      ((wShC [0x103, 0x200000, 0x400000, 2 + 3 * 2 ^ 40, 0x300000, 4]) : BitVec 1024) (((admission ((regRead ((wSh (wShC [0x103, 0x200000, 0x400000, 2 + 3 * 2 ^ 40,
      0x300000, 4])) : Machine.State) (((((wSh (wShC [0x103, 0x200000, 0x400000, 2 + 3 * 2 ^ 40, 0x300000, 4])) : Machine.State).shelver ((0) : ShelverNo)).queue ((8) :
      Nat)).cmdBase.toNat + ((((wSh (wShC [0x103, 0x200000, 0x400000, 2 + 3 * 2 ^ 40, 0x300000, 4])) : Machine.State).shelver ((0) : ShelverNo)).queue ((8) : Nat)).rd %
      ((((wSh (wShC [0x103, 0x200000, 0x400000, 2 + 3 * 2 ^ 40, 0x300000, 4])) : Machine.State).shelver ((0) : ShelverNo)).queue ((8) : Nat)).size * 128) 128).opt.get
      (by decide +kernel)).1 ((0) : ShelverNo) ((8) : Nat) ((wShC [0x103, 0x200000, 0x400000, 2 + 3 * 2 ^ 40, 0x300000, 4]) : BitVec 1024)).opt.get (by decide +kernel)).2
      : ShCx))).opt.get (by decide +kernel)).2),
      (by unfold ShReady; exact ⟨by decide +kernel, by decide +kernel, by decide +kernel, by decide +kernel, _, _, Got.of_opt (of_get (by decide +kernel)), by decide +kernel, Admit.of_opt (of_get _)⟩),
      (ShRes.of_opt (of_get (by decide +kernel)))⟩
  · exact ⟨(0), (wSh (wShC [0x104, 0x200000, 0x400000, 2 + 3 * 2 ^ 40, 0x300000, 4])), (8), (wShC [0x104, 0x200000, 0x400000, 2 + 3 * 2 ^ 40, 0x300000, 4]), ((admission
      ((regRead ((wSh (wShC [0x104, 0x200000, 0x400000, 2 + 3 * 2 ^ 40, 0x300000, 4])) : Machine.State) (((((wSh (wShC [0x104, 0x200000, 0x400000, 2 + 3 * 2 ^ 40,
      0x300000, 4])) : Machine.State).shelver ((0) : ShelverNo)).queue ((8) : Nat)).cmdBase.toNat + ((((wSh (wShC [0x104, 0x200000, 0x400000, 2 + 3 * 2 ^ 40, 0x300000,
      4])) : Machine.State).shelver ((0) : ShelverNo)).queue ((8) : Nat)).rd % ((((wSh (wShC [0x104, 0x200000, 0x400000, 2 + 3 * 2 ^ 40, 0x300000, 4])) :
      Machine.State).shelver ((0) : ShelverNo)).queue ((8) : Nat)).size * 128) 128).opt.get (by decide +kernel)).1 ((0) : ShelverNo) ((8) : Nat) ((wShC [0x104, 0x200000,
      0x400000, 2 + 3 * 2 ^ 40, 0x300000, 4]) : BitVec 1024)).opt.get (by decide +kernel)).1, ((admission ((regRead ((wSh (wShC [0x104, 0x200000, 0x400000, 2 + 3 * 2 ^
      40, 0x300000, 4])) : Machine.State) (((((wSh (wShC [0x104, 0x200000, 0x400000, 2 + 3 * 2 ^ 40, 0x300000, 4])) : Machine.State).shelver ((0) : ShelverNo)).queue ((8)
      : Nat)).cmdBase.toNat + ((((wSh (wShC [0x104, 0x200000, 0x400000, 2 + 3 * 2 ^ 40, 0x300000, 4])) : Machine.State).shelver ((0) : ShelverNo)).queue ((8) : Nat)).rd %
      ((((wSh (wShC [0x104, 0x200000, 0x400000, 2 + 3 * 2 ^ 40, 0x300000, 4])) : Machine.State).shelver ((0) : ShelverNo)).queue ((8) : Nat)).size * 128) 128).opt.get
      (by decide +kernel)).1 ((0) : ShelverNo) ((8) : Nat) ((wShC [0x104, 0x200000, 0x400000, 2 + 3 * 2 ^ 40, 0x300000, 4]) : BitVec 1024)).opt.get
      (by decide +kernel)).2, (((shDoes (shGather true) (((admission ((regRead ((wSh (wShC [0x104, 0x200000, 0x400000, 2 + 3 * 2 ^ 40, 0x300000, 4])) : Machine.State)
      (((((wSh (wShC [0x104, 0x200000, 0x400000, 2 + 3 * 2 ^ 40, 0x300000, 4])) : Machine.State).shelver ((0) : ShelverNo)).queue ((8) : Nat)).cmdBase.toNat + ((((wSh
      (wShC [0x104, 0x200000, 0x400000, 2 + 3 * 2 ^ 40, 0x300000, 4])) : Machine.State).shelver ((0) : ShelverNo)).queue ((8) : Nat)).rd % ((((wSh (wShC [0x104, 0x200000,
      0x400000, 2 + 3 * 2 ^ 40, 0x300000, 4])) : Machine.State).shelver ((0) : ShelverNo)).queue ((8) : Nat)).size * 128) 128).opt.get (by decide +kernel)).1 ((0) :
      ShelverNo) ((8) : Nat) ((wShC [0x104, 0x200000, 0x400000, 2 + 3 * 2 ^ 40, 0x300000, 4]) : BitVec 1024)).opt.get (by decide +kernel)).1 : Machine.State) (((admission
      ((regRead ((wSh (wShC [0x104, 0x200000, 0x400000, 2 + 3 * 2 ^ 40, 0x300000, 4])) : Machine.State) (((((wSh (wShC [0x104, 0x200000, 0x400000, 2 + 3 * 2 ^ 40,
      0x300000, 4])) : Machine.State).shelver ((0) : ShelverNo)).queue ((8) : Nat)).cmdBase.toNat + ((((wSh (wShC [0x104, 0x200000, 0x400000, 2 + 3 * 2 ^ 40, 0x300000,
      4])) : Machine.State).shelver ((0) : ShelverNo)).queue ((8) : Nat)).rd % ((((wSh (wShC [0x104, 0x200000, 0x400000, 2 + 3 * 2 ^ 40, 0x300000, 4])) :
      Machine.State).shelver ((0) : ShelverNo)).queue ((8) : Nat)).size * 128) 128).opt.get (by decide +kernel)).1 ((0) : ShelverNo) ((8) : Nat) ((wShC [0x104, 0x200000,
      0x400000, 2 + 3 * 2 ^ 40, 0x300000, 4]) : BitVec 1024)).opt.get (by decide +kernel)).2 : ShCx) ((wShC [0x104, 0x200000, 0x400000, 2 + 3 * 2 ^ 40, 0x300000, 4]) :
      BitVec 1024) (shAdmitted ((wSh (wShC [0x104, 0x200000, 0x400000, 2 + 3 * 2 ^ 40, 0x300000, 4])) : Machine.State) ((0) : ShelverNo) ((8) : Nat) ((wShC [0x104,
      0x200000, 0x400000, 2 + 3 * 2 ^ 40, 0x300000, 4]) : BitVec 1024) (((admission ((regRead ((wSh (wShC [0x104, 0x200000, 0x400000, 2 + 3 * 2 ^ 40, 0x300000, 4])) :
      Machine.State) (((((wSh (wShC [0x104, 0x200000, 0x400000, 2 + 3 * 2 ^ 40, 0x300000, 4])) : Machine.State).shelver ((0) : ShelverNo)).queue ((8) :
      Nat)).cmdBase.toNat + ((((wSh (wShC [0x104, 0x200000, 0x400000, 2 + 3 * 2 ^ 40, 0x300000, 4])) : Machine.State).shelver ((0) : ShelverNo)).queue ((8) : Nat)).rd %
      ((((wSh (wShC [0x104, 0x200000, 0x400000, 2 + 3 * 2 ^ 40, 0x300000, 4])) : Machine.State).shelver ((0) : ShelverNo)).queue ((8) : Nat)).size * 128) 128).opt.get
      (by decide +kernel)).1 ((0) : ShelverNo) ((8) : Nat) ((wShC [0x104, 0x200000, 0x400000, 2 + 3 * 2 ^ 40, 0x300000, 4]) : BitVec 1024)).opt.get (by decide +kernel)).2
      : ShCx))).opt.get (by decide +kernel)).1), (((shDoes (shGather true) (((admission ((regRead ((wSh (wShC [0x104, 0x200000, 0x400000, 2 + 3 * 2 ^ 40, 0x300000, 4])) :
      Machine.State) (((((wSh (wShC [0x104, 0x200000, 0x400000, 2 + 3 * 2 ^ 40, 0x300000, 4])) : Machine.State).shelver ((0) : ShelverNo)).queue ((8) :
      Nat)).cmdBase.toNat + ((((wSh (wShC [0x104, 0x200000, 0x400000, 2 + 3 * 2 ^ 40, 0x300000, 4])) : Machine.State).shelver ((0) : ShelverNo)).queue ((8) : Nat)).rd %
      ((((wSh (wShC [0x104, 0x200000, 0x400000, 2 + 3 * 2 ^ 40, 0x300000, 4])) : Machine.State).shelver ((0) : ShelverNo)).queue ((8) : Nat)).size * 128) 128).opt.get
      (by decide +kernel)).1 ((0) : ShelverNo) ((8) : Nat) ((wShC [0x104, 0x200000, 0x400000, 2 + 3 * 2 ^ 40, 0x300000, 4]) : BitVec 1024)).opt.get (by decide +kernel)).1
      : Machine.State) (((admission ((regRead ((wSh (wShC [0x104, 0x200000, 0x400000, 2 + 3 * 2 ^ 40, 0x300000, 4])) : Machine.State) (((((wSh (wShC [0x104, 0x200000,
      0x400000, 2 + 3 * 2 ^ 40, 0x300000, 4])) : Machine.State).shelver ((0) : ShelverNo)).queue ((8) : Nat)).cmdBase.toNat + ((((wSh (wShC [0x104, 0x200000, 0x400000, 2
      + 3 * 2 ^ 40, 0x300000, 4])) : Machine.State).shelver ((0) : ShelverNo)).queue ((8) : Nat)).rd % ((((wSh (wShC [0x104, 0x200000, 0x400000, 2 + 3 * 2 ^ 40, 0x300000,
      4])) : Machine.State).shelver ((0) : ShelverNo)).queue ((8) : Nat)).size * 128) 128).opt.get (by decide +kernel)).1 ((0) : ShelverNo) ((8) : Nat) ((wShC [0x104,
      0x200000, 0x400000, 2 + 3 * 2 ^ 40, 0x300000, 4]) : BitVec 1024)).opt.get (by decide +kernel)).2 : ShCx) ((wShC [0x104, 0x200000, 0x400000, 2 + 3 * 2 ^ 40,
      0x300000, 4]) : BitVec 1024) (shAdmitted ((wSh (wShC [0x104, 0x200000, 0x400000, 2 + 3 * 2 ^ 40, 0x300000, 4])) : Machine.State) ((0) : ShelverNo) ((8) : Nat)
      ((wShC [0x104, 0x200000, 0x400000, 2 + 3 * 2 ^ 40, 0x300000, 4]) : BitVec 1024) (((admission ((regRead ((wSh (wShC [0x104, 0x200000, 0x400000, 2 + 3 * 2 ^ 40,
      0x300000, 4])) : Machine.State) (((((wSh (wShC [0x104, 0x200000, 0x400000, 2 + 3 * 2 ^ 40, 0x300000, 4])) : Machine.State).shelver ((0) : ShelverNo)).queue ((8) :
      Nat)).cmdBase.toNat + ((((wSh (wShC [0x104, 0x200000, 0x400000, 2 + 3 * 2 ^ 40, 0x300000, 4])) : Machine.State).shelver ((0) : ShelverNo)).queue ((8) : Nat)).rd %
      ((((wSh (wShC [0x104, 0x200000, 0x400000, 2 + 3 * 2 ^ 40, 0x300000, 4])) : Machine.State).shelver ((0) : ShelverNo)).queue ((8) : Nat)).size * 128) 128).opt.get
      (by decide +kernel)).1 ((0) : ShelverNo) ((8) : Nat) ((wShC [0x104, 0x200000, 0x400000, 2 + 3 * 2 ^ 40, 0x300000, 4]) : BitVec 1024)).opt.get (by decide +kernel)).2
      : ShCx))).opt.get (by decide +kernel)).2),
      (by unfold ShReady; exact ⟨by decide +kernel, by decide +kernel, by decide +kernel, by decide +kernel, _, _, Got.of_opt (of_get (by decide +kernel)), by decide +kernel, Admit.of_opt (of_get _)⟩),
      (ShRes.of_opt (of_get (by decide +kernel)))⟩
  · exact ⟨(0), (wSh (wShC [0x108, 0x200000, 0x400000, 1 + 2 * 2 ^ 40, 0, 0, 8, 8, 2 + 2 * 2 ^ 24])), (8), (wShC [0x108, 0x200000, 0x400000, 1 + 2 * 2 ^ 40, 0, 0, 8, 8, 2 + 2
      * 2 ^ 24]), ((admission ((regRead ((wSh (wShC [0x108, 0x200000, 0x400000, 1 + 2 * 2 ^ 40, 0, 0, 8, 8, 2 + 2 * 2 ^ 24])) : Machine.State) (((((wSh (wShC [0x108,
      0x200000, 0x400000, 1 + 2 * 2 ^ 40, 0, 0, 8, 8, 2 + 2 * 2 ^ 24])) : Machine.State).shelver ((0) : ShelverNo)).queue ((8) : Nat)).cmdBase.toNat + ((((wSh (wShC
      [0x108, 0x200000, 0x400000, 1 + 2 * 2 ^ 40, 0, 0, 8, 8, 2 + 2 * 2 ^ 24])) : Machine.State).shelver ((0) : ShelverNo)).queue ((8) : Nat)).rd % ((((wSh (wShC [0x108,
      0x200000, 0x400000, 1 + 2 * 2 ^ 40, 0, 0, 8, 8, 2 + 2 * 2 ^ 24])) : Machine.State).shelver ((0) : ShelverNo)).queue ((8) : Nat)).size * 128) 128).opt.get
      (by decide +kernel)).1 ((0) : ShelverNo) ((8) : Nat) ((wShC [0x108, 0x200000, 0x400000, 1 + 2 * 2 ^ 40, 0, 0, 8, 8, 2 + 2 * 2 ^ 24]) : BitVec 1024)).opt.get
      (by decide +kernel)).1, ((admission ((regRead ((wSh (wShC [0x108, 0x200000, 0x400000, 1 + 2 * 2 ^ 40, 0, 0, 8, 8, 2 + 2 * 2 ^ 24])) : Machine.State) (((((wSh (wShC
      [0x108, 0x200000, 0x400000, 1 + 2 * 2 ^ 40, 0, 0, 8, 8, 2 + 2 * 2 ^ 24])) : Machine.State).shelver ((0) : ShelverNo)).queue ((8) : Nat)).cmdBase.toNat + ((((wSh
      (wShC [0x108, 0x200000, 0x400000, 1 + 2 * 2 ^ 40, 0, 0, 8, 8, 2 + 2 * 2 ^ 24])) : Machine.State).shelver ((0) : ShelverNo)).queue ((8) : Nat)).rd % ((((wSh (wShC
      [0x108, 0x200000, 0x400000, 1 + 2 * 2 ^ 40, 0, 0, 8, 8, 2 + 2 * 2 ^ 24])) : Machine.State).shelver ((0) : ShelverNo)).queue ((8) : Nat)).size * 128) 128).opt.get
      (by decide +kernel)).1 ((0) : ShelverNo) ((8) : Nat) ((wShC [0x108, 0x200000, 0x400000, 1 + 2 * 2 ^ 40, 0, 0, 8, 8, 2 + 2 * 2 ^ 24]) : BitVec 1024)).opt.get
      (by decide +kernel)).2, (((shDoes shTranspose (((admission ((regRead ((wSh (wShC [0x108, 0x200000, 0x400000, 1 + 2 * 2 ^ 40, 0, 0, 8, 8, 2 + 2 * 2 ^ 24])) :
      Machine.State) (((((wSh (wShC [0x108, 0x200000, 0x400000, 1 + 2 * 2 ^ 40, 0, 0, 8, 8, 2 + 2 * 2 ^ 24])) : Machine.State).shelver ((0) : ShelverNo)).queue ((8) :
      Nat)).cmdBase.toNat + ((((wSh (wShC [0x108, 0x200000, 0x400000, 1 + 2 * 2 ^ 40, 0, 0, 8, 8, 2 + 2 * 2 ^ 24])) : Machine.State).shelver ((0) : ShelverNo)).queue ((8)
      : Nat)).rd % ((((wSh (wShC [0x108, 0x200000, 0x400000, 1 + 2 * 2 ^ 40, 0, 0, 8, 8, 2 + 2 * 2 ^ 24])) : Machine.State).shelver ((0) : ShelverNo)).queue ((8) :
      Nat)).size * 128) 128).opt.get (by decide +kernel)).1 ((0) : ShelverNo) ((8) : Nat) ((wShC [0x108, 0x200000, 0x400000, 1 + 2 * 2 ^ 40, 0, 0, 8, 8, 2 + 2 * 2 ^ 24])
      : BitVec 1024)).opt.get (by decide +kernel)).1 : Machine.State) (((admission ((regRead ((wSh (wShC [0x108, 0x200000, 0x400000, 1 + 2 * 2 ^ 40, 0, 0, 8, 8, 2 + 2 * 2
      ^ 24])) : Machine.State) (((((wSh (wShC [0x108, 0x200000, 0x400000, 1 + 2 * 2 ^ 40, 0, 0, 8, 8, 2 + 2 * 2 ^ 24])) : Machine.State).shelver ((0) : ShelverNo)).queue
      ((8) : Nat)).cmdBase.toNat + ((((wSh (wShC [0x108, 0x200000, 0x400000, 1 + 2 * 2 ^ 40, 0, 0, 8, 8, 2 + 2 * 2 ^ 24])) : Machine.State).shelver ((0) :
      ShelverNo)).queue ((8) : Nat)).rd % ((((wSh (wShC [0x108, 0x200000, 0x400000, 1 + 2 * 2 ^ 40, 0, 0, 8, 8, 2 + 2 * 2 ^ 24])) : Machine.State).shelver ((0) :
      ShelverNo)).queue ((8) : Nat)).size * 128) 128).opt.get (by decide +kernel)).1 ((0) : ShelverNo) ((8) : Nat) ((wShC [0x108, 0x200000, 0x400000, 1 + 2 * 2 ^ 40, 0,
      0, 8, 8, 2 + 2 * 2 ^ 24]) : BitVec 1024)).opt.get (by decide +kernel)).2 : ShCx) ((wShC [0x108, 0x200000, 0x400000, 1 + 2 * 2 ^ 40, 0, 0, 8, 8, 2 + 2 * 2 ^ 24]) :
      BitVec 1024) (shAdmitted ((wSh (wShC [0x108, 0x200000, 0x400000, 1 + 2 * 2 ^ 40, 0, 0, 8, 8, 2 + 2 * 2 ^ 24])) : Machine.State) ((0) : ShelverNo) ((8) : Nat) ((wShC
      [0x108, 0x200000, 0x400000, 1 + 2 * 2 ^ 40, 0, 0, 8, 8, 2 + 2 * 2 ^ 24]) : BitVec 1024) (((admission ((regRead ((wSh (wShC [0x108, 0x200000, 0x400000, 1 + 2 * 2 ^
      40, 0, 0, 8, 8, 2 + 2 * 2 ^ 24])) : Machine.State) (((((wSh (wShC [0x108, 0x200000, 0x400000, 1 + 2 * 2 ^ 40, 0, 0, 8, 8, 2 + 2 * 2 ^ 24])) : Machine.State).shelver
      ((0) : ShelverNo)).queue ((8) : Nat)).cmdBase.toNat + ((((wSh (wShC [0x108, 0x200000, 0x400000, 1 + 2 * 2 ^ 40, 0, 0, 8, 8, 2 + 2 * 2 ^ 24])) :
      Machine.State).shelver ((0) : ShelverNo)).queue ((8) : Nat)).rd % ((((wSh (wShC [0x108, 0x200000, 0x400000, 1 + 2 * 2 ^ 40, 0, 0, 8, 8, 2 + 2 * 2 ^ 24])) :
      Machine.State).shelver ((0) : ShelverNo)).queue ((8) : Nat)).size * 128) 128).opt.get (by decide +kernel)).1 ((0) : ShelverNo) ((8) : Nat) ((wShC [0x108, 0x200000,
      0x400000, 1 + 2 * 2 ^ 40, 0, 0, 8, 8, 2 + 2 * 2 ^ 24]) : BitVec 1024)).opt.get (by decide +kernel)).2 : ShCx))).opt.get (by decide +kernel)).1), (((shDoes
      shTranspose (((admission ((regRead ((wSh (wShC [0x108, 0x200000, 0x400000, 1 + 2 * 2 ^ 40, 0, 0, 8, 8, 2 + 2 * 2 ^ 24])) : Machine.State) (((((wSh (wShC [0x108,
      0x200000, 0x400000, 1 + 2 * 2 ^ 40, 0, 0, 8, 8, 2 + 2 * 2 ^ 24])) : Machine.State).shelver ((0) : ShelverNo)).queue ((8) : Nat)).cmdBase.toNat + ((((wSh (wShC
      [0x108, 0x200000, 0x400000, 1 + 2 * 2 ^ 40, 0, 0, 8, 8, 2 + 2 * 2 ^ 24])) : Machine.State).shelver ((0) : ShelverNo)).queue ((8) : Nat)).rd % ((((wSh (wShC [0x108,
      0x200000, 0x400000, 1 + 2 * 2 ^ 40, 0, 0, 8, 8, 2 + 2 * 2 ^ 24])) : Machine.State).shelver ((0) : ShelverNo)).queue ((8) : Nat)).size * 128) 128).opt.get
      (by decide +kernel)).1 ((0) : ShelverNo) ((8) : Nat) ((wShC [0x108, 0x200000, 0x400000, 1 + 2 * 2 ^ 40, 0, 0, 8, 8, 2 + 2 * 2 ^ 24]) : BitVec 1024)).opt.get
      (by decide +kernel)).1 : Machine.State) (((admission ((regRead ((wSh (wShC [0x108, 0x200000, 0x400000, 1 + 2 * 2 ^ 40, 0, 0, 8, 8, 2 + 2 * 2 ^ 24])) :
      Machine.State) (((((wSh (wShC [0x108, 0x200000, 0x400000, 1 + 2 * 2 ^ 40, 0, 0, 8, 8, 2 + 2 * 2 ^ 24])) : Machine.State).shelver ((0) : ShelverNo)).queue ((8) :
      Nat)).cmdBase.toNat + ((((wSh (wShC [0x108, 0x200000, 0x400000, 1 + 2 * 2 ^ 40, 0, 0, 8, 8, 2 + 2 * 2 ^ 24])) : Machine.State).shelver ((0) : ShelverNo)).queue ((8)
      : Nat)).rd % ((((wSh (wShC [0x108, 0x200000, 0x400000, 1 + 2 * 2 ^ 40, 0, 0, 8, 8, 2 + 2 * 2 ^ 24])) : Machine.State).shelver ((0) : ShelverNo)).queue ((8) :
      Nat)).size * 128) 128).opt.get (by decide +kernel)).1 ((0) : ShelverNo) ((8) : Nat) ((wShC [0x108, 0x200000, 0x400000, 1 + 2 * 2 ^ 40, 0, 0, 8, 8, 2 + 2 * 2 ^ 24])
      : BitVec 1024)).opt.get (by decide +kernel)).2 : ShCx) ((wShC [0x108, 0x200000, 0x400000, 1 + 2 * 2 ^ 40, 0, 0, 8, 8, 2 + 2 * 2 ^ 24]) : BitVec 1024) (shAdmitted
      ((wSh (wShC [0x108, 0x200000, 0x400000, 1 + 2 * 2 ^ 40, 0, 0, 8, 8, 2 + 2 * 2 ^ 24])) : Machine.State) ((0) : ShelverNo) ((8) : Nat) ((wShC [0x108, 0x200000,
      0x400000, 1 + 2 * 2 ^ 40, 0, 0, 8, 8, 2 + 2 * 2 ^ 24]) : BitVec 1024) (((admission ((regRead ((wSh (wShC [0x108, 0x200000, 0x400000, 1 + 2 * 2 ^ 40, 0, 0, 8, 8, 2 +
      2 * 2 ^ 24])) : Machine.State) (((((wSh (wShC [0x108, 0x200000, 0x400000, 1 + 2 * 2 ^ 40, 0, 0, 8, 8, 2 + 2 * 2 ^ 24])) : Machine.State).shelver ((0) :
      ShelverNo)).queue ((8) : Nat)).cmdBase.toNat + ((((wSh (wShC [0x108, 0x200000, 0x400000, 1 + 2 * 2 ^ 40, 0, 0, 8, 8, 2 + 2 * 2 ^ 24])) : Machine.State).shelver ((0)
      : ShelverNo)).queue ((8) : Nat)).rd % ((((wSh (wShC [0x108, 0x200000, 0x400000, 1 + 2 * 2 ^ 40, 0, 0, 8, 8, 2 + 2 * 2 ^ 24])) : Machine.State).shelver ((0) :
      ShelverNo)).queue ((8) : Nat)).size * 128) 128).opt.get (by decide +kernel)).1 ((0) : ShelverNo) ((8) : Nat) ((wShC [0x108, 0x200000, 0x400000, 1 + 2 * 2 ^ 40, 0,
      0, 8, 8, 2 + 2 * 2 ^ 24]) : BitVec 1024)).opt.get (by decide +kernel)).2 : ShCx))).opt.get (by decide +kernel)).2),
      (by unfold ShReady; exact ⟨by decide +kernel, by decide +kernel, by decide +kernel, by decide +kernel, _, _, Got.of_opt (of_get (by decide +kernel)), by decide +kernel, Admit.of_opt (of_get _)⟩),
      (ShRes.of_opt (of_get (by decide +kernel)))⟩
  · exact ⟨(0), (wSh (wShC [0x10B, 0x200000, 0, 128])), (8), (wShC [0x10B, 0x200000, 0, 128]), ((admission ((regRead ((wSh (wShC [0x10B, 0x200000, 0, 128])) : Machine.State)
      (((((wSh (wShC [0x10B, 0x200000, 0, 128])) : Machine.State).shelver ((0) : ShelverNo)).queue ((8) : Nat)).cmdBase.toNat + ((((wSh (wShC [0x10B, 0x200000, 0, 128]))
      : Machine.State).shelver ((0) : ShelverNo)).queue ((8) : Nat)).rd % ((((wSh (wShC [0x10B, 0x200000, 0, 128])) : Machine.State).shelver ((0) : ShelverNo)).queue ((8)
      : Nat)).size * 128) 128).opt.get (by decide +kernel)).1 ((0) : ShelverNo) ((8) : Nat) ((wShC [0x10B, 0x200000, 0, 128]) : BitVec 1024)).opt.get
      (by decide +kernel)).1, ((admission ((regRead ((wSh (wShC [0x10B, 0x200000, 0, 128])) : Machine.State) (((((wSh (wShC [0x10B, 0x200000, 0, 128])) :
      Machine.State).shelver ((0) : ShelverNo)).queue ((8) : Nat)).cmdBase.toNat + ((((wSh (wShC [0x10B, 0x200000, 0, 128])) : Machine.State).shelver ((0) :
      ShelverNo)).queue ((8) : Nat)).rd % ((((wSh (wShC [0x10B, 0x200000, 0, 128])) : Machine.State).shelver ((0) : ShelverNo)).queue ((8) : Nat)).size * 128)
      128).opt.get (by decide +kernel)).1 ((0) : ShelverNo) ((8) : Nat) ((wShC [0x10B, 0x200000, 0, 128]) : BitVec 1024)).opt.get (by decide +kernel)).2, (((shDoes
      shPrefetch (((admission ((regRead ((wSh (wShC [0x10B, 0x200000, 0, 128])) : Machine.State) (((((wSh (wShC [0x10B, 0x200000, 0, 128])) : Machine.State).shelver ((0)
      : ShelverNo)).queue ((8) : Nat)).cmdBase.toNat + ((((wSh (wShC [0x10B, 0x200000, 0, 128])) : Machine.State).shelver ((0) : ShelverNo)).queue ((8) : Nat)).rd %
      ((((wSh (wShC [0x10B, 0x200000, 0, 128])) : Machine.State).shelver ((0) : ShelverNo)).queue ((8) : Nat)).size * 128) 128).opt.get (by decide +kernel)).1 ((0) :
      ShelverNo) ((8) : Nat) ((wShC [0x10B, 0x200000, 0, 128]) : BitVec 1024)).opt.get (by decide +kernel)).1 : Machine.State) (((admission ((regRead ((wSh (wShC [0x10B,
      0x200000, 0, 128])) : Machine.State) (((((wSh (wShC [0x10B, 0x200000, 0, 128])) : Machine.State).shelver ((0) : ShelverNo)).queue ((8) : Nat)).cmdBase.toNat +
      ((((wSh (wShC [0x10B, 0x200000, 0, 128])) : Machine.State).shelver ((0) : ShelverNo)).queue ((8) : Nat)).rd % ((((wSh (wShC [0x10B, 0x200000, 0, 128])) :
      Machine.State).shelver ((0) : ShelverNo)).queue ((8) : Nat)).size * 128) 128).opt.get (by decide +kernel)).1 ((0) : ShelverNo) ((8) : Nat) ((wShC [0x10B, 0x200000,
      0, 128]) : BitVec 1024)).opt.get (by decide +kernel)).2 : ShCx) ((wShC [0x10B, 0x200000, 0, 128]) : BitVec 1024) (shAdmitted ((wSh (wShC [0x10B, 0x200000, 0, 128]))
      : Machine.State) ((0) : ShelverNo) ((8) : Nat) ((wShC [0x10B, 0x200000, 0, 128]) : BitVec 1024) (((admission ((regRead ((wSh (wShC [0x10B, 0x200000, 0, 128])) :
      Machine.State) (((((wSh (wShC [0x10B, 0x200000, 0, 128])) : Machine.State).shelver ((0) : ShelverNo)).queue ((8) : Nat)).cmdBase.toNat + ((((wSh (wShC [0x10B,
      0x200000, 0, 128])) : Machine.State).shelver ((0) : ShelverNo)).queue ((8) : Nat)).rd % ((((wSh (wShC [0x10B, 0x200000, 0, 128])) : Machine.State).shelver ((0) :
      ShelverNo)).queue ((8) : Nat)).size * 128) 128).opt.get (by decide +kernel)).1 ((0) : ShelverNo) ((8) : Nat) ((wShC [0x10B, 0x200000, 0, 128]) : BitVec
      1024)).opt.get (by decide +kernel)).2 : ShCx))).opt.get (by decide +kernel)).1), (((shDoes shPrefetch (((admission ((regRead ((wSh (wShC [0x10B, 0x200000, 0, 128]))
      : Machine.State) (((((wSh (wShC [0x10B, 0x200000, 0, 128])) : Machine.State).shelver ((0) : ShelverNo)).queue ((8) : Nat)).cmdBase.toNat + ((((wSh (wShC [0x10B,
      0x200000, 0, 128])) : Machine.State).shelver ((0) : ShelverNo)).queue ((8) : Nat)).rd % ((((wSh (wShC [0x10B, 0x200000, 0, 128])) : Machine.State).shelver ((0) :
      ShelverNo)).queue ((8) : Nat)).size * 128) 128).opt.get (by decide +kernel)).1 ((0) : ShelverNo) ((8) : Nat) ((wShC [0x10B, 0x200000, 0, 128]) : BitVec
      1024)).opt.get (by decide +kernel)).1 : Machine.State) (((admission ((regRead ((wSh (wShC [0x10B, 0x200000, 0, 128])) : Machine.State) (((((wSh (wShC [0x10B,
      0x200000, 0, 128])) : Machine.State).shelver ((0) : ShelverNo)).queue ((8) : Nat)).cmdBase.toNat + ((((wSh (wShC [0x10B, 0x200000, 0, 128])) :
      Machine.State).shelver ((0) : ShelverNo)).queue ((8) : Nat)).rd % ((((wSh (wShC [0x10B, 0x200000, 0, 128])) : Machine.State).shelver ((0) : ShelverNo)).queue ((8) :
      Nat)).size * 128) 128).opt.get (by decide +kernel)).1 ((0) : ShelverNo) ((8) : Nat) ((wShC [0x10B, 0x200000, 0, 128]) : BitVec 1024)).opt.get (by decide +kernel)).2
      : ShCx) ((wShC [0x10B, 0x200000, 0, 128]) : BitVec 1024) (shAdmitted ((wSh (wShC [0x10B, 0x200000, 0, 128])) : Machine.State) ((0) : ShelverNo) ((8) : Nat) ((wShC
      [0x10B, 0x200000, 0, 128]) : BitVec 1024) (((admission ((regRead ((wSh (wShC [0x10B, 0x200000, 0, 128])) : Machine.State) (((((wSh (wShC [0x10B, 0x200000, 0, 128]))
      : Machine.State).shelver ((0) : ShelverNo)).queue ((8) : Nat)).cmdBase.toNat + ((((wSh (wShC [0x10B, 0x200000, 0, 128])) : Machine.State).shelver ((0) :
      ShelverNo)).queue ((8) : Nat)).rd % ((((wSh (wShC [0x10B, 0x200000, 0, 128])) : Machine.State).shelver ((0) : ShelverNo)).queue ((8) : Nat)).size * 128)
      128).opt.get (by decide +kernel)).1 ((0) : ShelverNo) ((8) : Nat) ((wShC [0x10B, 0x200000, 0, 128]) : BitVec 1024)).opt.get (by decide +kernel)).2 : ShCx))).opt.get
      (by decide +kernel)).2),
      (by unfold ShReady; exact ⟨by decide +kernel, by decide +kernel, by decide +kernel, by decide +kernel, _, _, Got.of_opt (of_get (by decide +kernel)), by decide +kernel, Admit.of_opt (of_get _)⟩),
      (ShRes.of_opt (of_get (by decide +kernel)))⟩
  · exact ⟨(0), (wSh (wShC [0x10C, 0x800000, 0xA00000, 0x200000])), (8), (wShC [0x10C, 0x800000, 0xA00000, 0x200000]), ((admission ((regRead ((wSh (wShC [0x10C, 0x800000,
      0xA00000, 0x200000])) : Machine.State) (((((wSh (wShC [0x10C, 0x800000, 0xA00000, 0x200000])) : Machine.State).shelver ((0) : ShelverNo)).queue ((8) :
      Nat)).cmdBase.toNat + ((((wSh (wShC [0x10C, 0x800000, 0xA00000, 0x200000])) : Machine.State).shelver ((0) : ShelverNo)).queue ((8) : Nat)).rd % ((((wSh (wShC
      [0x10C, 0x800000, 0xA00000, 0x200000])) : Machine.State).shelver ((0) : ShelverNo)).queue ((8) : Nat)).size * 128) 128).opt.get (by decide +kernel)).1 ((0) :
      ShelverNo) ((8) : Nat) ((wShC [0x10C, 0x800000, 0xA00000, 0x200000]) : BitVec 1024)).opt.get (by decide +kernel)).1, ((admission ((regRead ((wSh (wShC [0x10C,
      0x800000, 0xA00000, 0x200000])) : Machine.State) (((((wSh (wShC [0x10C, 0x800000, 0xA00000, 0x200000])) : Machine.State).shelver ((0) : ShelverNo)).queue ((8) :
      Nat)).cmdBase.toNat + ((((wSh (wShC [0x10C, 0x800000, 0xA00000, 0x200000])) : Machine.State).shelver ((0) : ShelverNo)).queue ((8) : Nat)).rd % ((((wSh (wShC
      [0x10C, 0x800000, 0xA00000, 0x200000])) : Machine.State).shelver ((0) : ShelverNo)).queue ((8) : Nat)).size * 128) 128).opt.get (by decide +kernel)).1 ((0) :
      ShelverNo) ((8) : Nat) ((wShC [0x10C, 0x800000, 0xA00000, 0x200000]) : BitVec 1024)).opt.get (by decide +kernel)).2, (((shDoes shMigrate (((admission ((regRead
      ((wSh (wShC [0x10C, 0x800000, 0xA00000, 0x200000])) : Machine.State) (((((wSh (wShC [0x10C, 0x800000, 0xA00000, 0x200000])) : Machine.State).shelver ((0) :
      ShelverNo)).queue ((8) : Nat)).cmdBase.toNat + ((((wSh (wShC [0x10C, 0x800000, 0xA00000, 0x200000])) : Machine.State).shelver ((0) : ShelverNo)).queue ((8) :
      Nat)).rd % ((((wSh (wShC [0x10C, 0x800000, 0xA00000, 0x200000])) : Machine.State).shelver ((0) : ShelverNo)).queue ((8) : Nat)).size * 128) 128).opt.get
      (by decide +kernel)).1 ((0) : ShelverNo) ((8) : Nat) ((wShC [0x10C, 0x800000, 0xA00000, 0x200000]) : BitVec 1024)).opt.get (by decide +kernel)).1 : Machine.State)
      (((admission ((regRead ((wSh (wShC [0x10C, 0x800000, 0xA00000, 0x200000])) : Machine.State) (((((wSh (wShC [0x10C, 0x800000, 0xA00000, 0x200000])) :
      Machine.State).shelver ((0) : ShelverNo)).queue ((8) : Nat)).cmdBase.toNat + ((((wSh (wShC [0x10C, 0x800000, 0xA00000, 0x200000])) : Machine.State).shelver ((0) :
      ShelverNo)).queue ((8) : Nat)).rd % ((((wSh (wShC [0x10C, 0x800000, 0xA00000, 0x200000])) : Machine.State).shelver ((0) : ShelverNo)).queue ((8) : Nat)).size * 128)
      128).opt.get (by decide +kernel)).1 ((0) : ShelverNo) ((8) : Nat) ((wShC [0x10C, 0x800000, 0xA00000, 0x200000]) : BitVec 1024)).opt.get (by decide +kernel)).2 :
      ShCx) ((wShC [0x10C, 0x800000, 0xA00000, 0x200000]) : BitVec 1024) (shAdmitted ((wSh (wShC [0x10C, 0x800000, 0xA00000, 0x200000])) : Machine.State) ((0) :
      ShelverNo) ((8) : Nat) ((wShC [0x10C, 0x800000, 0xA00000, 0x200000]) : BitVec 1024) (((admission ((regRead ((wSh (wShC [0x10C, 0x800000, 0xA00000, 0x200000])) :
      Machine.State) (((((wSh (wShC [0x10C, 0x800000, 0xA00000, 0x200000])) : Machine.State).shelver ((0) : ShelverNo)).queue ((8) : Nat)).cmdBase.toNat + ((((wSh (wShC
      [0x10C, 0x800000, 0xA00000, 0x200000])) : Machine.State).shelver ((0) : ShelverNo)).queue ((8) : Nat)).rd % ((((wSh (wShC [0x10C, 0x800000, 0xA00000, 0x200000])) :
      Machine.State).shelver ((0) : ShelverNo)).queue ((8) : Nat)).size * 128) 128).opt.get (by decide +kernel)).1 ((0) : ShelverNo) ((8) : Nat) ((wShC [0x10C, 0x800000,
      0xA00000, 0x200000]) : BitVec 1024)).opt.get (by decide +kernel)).2 : ShCx))).opt.get (by decide +kernel)).1), (((shDoes shMigrate (((admission ((regRead ((wSh
      (wShC [0x10C, 0x800000, 0xA00000, 0x200000])) : Machine.State) (((((wSh (wShC [0x10C, 0x800000, 0xA00000, 0x200000])) : Machine.State).shelver ((0) :
      ShelverNo)).queue ((8) : Nat)).cmdBase.toNat + ((((wSh (wShC [0x10C, 0x800000, 0xA00000, 0x200000])) : Machine.State).shelver ((0) : ShelverNo)).queue ((8) :
      Nat)).rd % ((((wSh (wShC [0x10C, 0x800000, 0xA00000, 0x200000])) : Machine.State).shelver ((0) : ShelverNo)).queue ((8) : Nat)).size * 128) 128).opt.get
      (by decide +kernel)).1 ((0) : ShelverNo) ((8) : Nat) ((wShC [0x10C, 0x800000, 0xA00000, 0x200000]) : BitVec 1024)).opt.get (by decide +kernel)).1 : Machine.State)
      (((admission ((regRead ((wSh (wShC [0x10C, 0x800000, 0xA00000, 0x200000])) : Machine.State) (((((wSh (wShC [0x10C, 0x800000, 0xA00000, 0x200000])) :
      Machine.State).shelver ((0) : ShelverNo)).queue ((8) : Nat)).cmdBase.toNat + ((((wSh (wShC [0x10C, 0x800000, 0xA00000, 0x200000])) : Machine.State).shelver ((0) :
      ShelverNo)).queue ((8) : Nat)).rd % ((((wSh (wShC [0x10C, 0x800000, 0xA00000, 0x200000])) : Machine.State).shelver ((0) : ShelverNo)).queue ((8) : Nat)).size * 128)
      128).opt.get (by decide +kernel)).1 ((0) : ShelverNo) ((8) : Nat) ((wShC [0x10C, 0x800000, 0xA00000, 0x200000]) : BitVec 1024)).opt.get (by decide +kernel)).2 :
      ShCx) ((wShC [0x10C, 0x800000, 0xA00000, 0x200000]) : BitVec 1024) (shAdmitted ((wSh (wShC [0x10C, 0x800000, 0xA00000, 0x200000])) : Machine.State) ((0) :
      ShelverNo) ((8) : Nat) ((wShC [0x10C, 0x800000, 0xA00000, 0x200000]) : BitVec 1024) (((admission ((regRead ((wSh (wShC [0x10C, 0x800000, 0xA00000, 0x200000])) :
      Machine.State) (((((wSh (wShC [0x10C, 0x800000, 0xA00000, 0x200000])) : Machine.State).shelver ((0) : ShelverNo)).queue ((8) : Nat)).cmdBase.toNat + ((((wSh (wShC
      [0x10C, 0x800000, 0xA00000, 0x200000])) : Machine.State).shelver ((0) : ShelverNo)).queue ((8) : Nat)).rd % ((((wSh (wShC [0x10C, 0x800000, 0xA00000, 0x200000])) :
      Machine.State).shelver ((0) : ShelverNo)).queue ((8) : Nat)).size * 128) 128).opt.get (by decide +kernel)).1 ((0) : ShelverNo) ((8) : Nat) ((wShC [0x10C, 0x800000,
      0xA00000, 0x200000]) : BitVec 1024)).opt.get (by decide +kernel)).2 : ShCx))).opt.get (by decide +kernel)).2),
      (by unfold ShReady; exact ⟨by decide +kernel, by decide +kernel, by decide +kernel, by decide +kernel, _, _, Got.of_opt (of_get (by decide +kernel)), by decide +kernel, Admit.of_opt (of_get _)⟩),
      (ShRes.of_opt (of_get (by decide +kernel)))⟩

theorem witness_ShelverComputesComplete :
    (∃ sh : ShelverNo, ∃ s : Machine.State, ∃ q : Nat, ∃ w : BitVec 1024, ∃ u : Machine.State, ∃ c : ShCx, ∃ v : Machine.State, ∃ r : ShRun, ShReady s sh 5 q w u c ∧
      shDoes shReduce u c w (shAdmitted s sh q w c) = .did v r) ∧
    (∃ sh : ShelverNo, ∃ s : Machine.State, ∃ q : Nat, ∃ w : BitVec 1024, ∃ u : Machine.State, ∃ c : ShCx, ∃ v : Machine.State, ∃ r : ShRun, ShReady s sh 6 q w u c ∧
      shDoes shAtomic u c w (shAdmitted s sh q w c) = .did v r) ∧
    (∃ sh : ShelverNo, ∃ s : Machine.State, ∃ q : Nat, ∃ w : BitVec 1024, ∃ u : Machine.State, ∃ c : ShCx, ∃ v : Machine.State, ∃ r : ShRun, ShReady s sh 7 q w u c ∧
      shDoes shScan u c w (shAdmitted s sh q w c) = .did v r) ∧
    (∃ sh : ShelverNo, ∃ s : Machine.State, ∃ q : Nat, ∃ w : BitVec 1024, ∃ u : Machine.State, ∃ c : ShCx, ∃ v : Machine.State, ∃ r : ShRun, ShReady s sh 9 q w u c ∧
      shDoes shMeasure u c w (shAdmitted s sh q w c) = .did v r) ∧
    (∃ sh : ShelverNo, ∃ s : Machine.State, ∃ q : Nat, ∃ w : BitVec 1024, ∃ u : Machine.State, ∃ c : ShCx, ∃ v : Machine.State, ∃ r : ShRun, ShReady s sh 10 q w u c ∧
      shDoes shScrub u c w (shAdmitted s sh q w c) = .did v r) ∧
    (∃ sh : ShelverNo, ∃ failed : List (BitVec 34), ∃ s : Machine.State, ∃ q : Nat, ∃ w : BitVec 1024, ∃ u : Machine.State, ∃ c : ShCx, ∃ v : Machine.State, ∃ r :
      ShRun, ShReady s sh 14 q w u c ∧ shDoes (shPattern (failed.map (·.toNat))) u c w (shAdmitted s sh q w c) = .did v r) ∧
    (∃ sh : ShelverNo, ∃ s : Machine.State, ∃ q : Nat, ∃ w : BitVec 1024, ∃ u : Machine.State, ∃ c : ShCx, ∃ v : Machine.State, ∃ r : ShRun, ShReady s sh 13 q w u c ∧
      shDoes shIngest u c w (shAdmitted s sh q w c) = .did v r) := by
  refine ⟨?_, ?_, ?_, ?_, ?_, ?_, ?_⟩
  · exact ⟨(0), (wSh (wShC [0x105 + 2 ^ 16 + 2 ^ 21, 0x200000, 0x400000, 4, 0x300000, 0, 0, 0, 1]) (Mem.writeLE [] 0x300008 8 4)), (8), (wShC [0x105 + 2 ^ 16 + 2 ^ 21,
      0x200000, 0x400000, 4, 0x300000, 0, 0, 0, 1]), ((admission ((regRead ((wSh (wShC [0x105 + 2 ^ 16 + 2 ^ 21, 0x200000, 0x400000, 4, 0x300000, 0, 0, 0, 1])
      (Mem.writeLE [] 0x300008 8 4)) : Machine.State) (((((wSh (wShC [0x105 + 2 ^ 16 + 2 ^ 21, 0x200000, 0x400000, 4, 0x300000, 0, 0, 0, 1]) (Mem.writeLE [] 0x300008 8
      4)) : Machine.State).shelver ((0) : ShelverNo)).queue ((8) : Nat)).cmdBase.toNat + ((((wSh (wShC [0x105 + 2 ^ 16 + 2 ^ 21, 0x200000, 0x400000, 4, 0x300000, 0, 0, 0,
      1]) (Mem.writeLE [] 0x300008 8 4)) : Machine.State).shelver ((0) : ShelverNo)).queue ((8) : Nat)).rd % ((((wSh (wShC [0x105 + 2 ^ 16 + 2 ^ 21, 0x200000, 0x400000,
      4, 0x300000, 0, 0, 0, 1]) (Mem.writeLE [] 0x300008 8 4)) : Machine.State).shelver ((0) : ShelverNo)).queue ((8) : Nat)).size * 128) 128).opt.get
      (by decide +kernel)).1 ((0) : ShelverNo) ((8) : Nat) ((wShC [0x105 + 2 ^ 16 + 2 ^ 21, 0x200000, 0x400000, 4, 0x300000, 0, 0, 0, 1]) : BitVec 1024)).opt.get
      (by decide +kernel)).1, ((admission ((regRead ((wSh (wShC [0x105 + 2 ^ 16 + 2 ^ 21, 0x200000, 0x400000, 4, 0x300000, 0, 0, 0, 1]) (Mem.writeLE [] 0x300008 8 4)) :
      Machine.State) (((((wSh (wShC [0x105 + 2 ^ 16 + 2 ^ 21, 0x200000, 0x400000, 4, 0x300000, 0, 0, 0, 1]) (Mem.writeLE [] 0x300008 8 4)) : Machine.State).shelver ((0) :
      ShelverNo)).queue ((8) : Nat)).cmdBase.toNat + ((((wSh (wShC [0x105 + 2 ^ 16 + 2 ^ 21, 0x200000, 0x400000, 4, 0x300000, 0, 0, 0, 1]) (Mem.writeLE [] 0x300008 8 4))
      : Machine.State).shelver ((0) : ShelverNo)).queue ((8) : Nat)).rd % ((((wSh (wShC [0x105 + 2 ^ 16 + 2 ^ 21, 0x200000, 0x400000, 4, 0x300000, 0, 0, 0, 1])
      (Mem.writeLE [] 0x300008 8 4)) : Machine.State).shelver ((0) : ShelverNo)).queue ((8) : Nat)).size * 128) 128).opt.get (by decide +kernel)).1 ((0) : ShelverNo) ((8)
      : Nat) ((wShC [0x105 + 2 ^ 16 + 2 ^ 21, 0x200000, 0x400000, 4, 0x300000, 0, 0, 0, 1]) : BitVec 1024)).opt.get (by decide +kernel)).2, (((shDoes shReduce
      (((admission ((regRead ((wSh (wShC [0x105 + 2 ^ 16 + 2 ^ 21, 0x200000, 0x400000, 4, 0x300000, 0, 0, 0, 1]) (Mem.writeLE [] 0x300008 8 4)) : Machine.State) (((((wSh
      (wShC [0x105 + 2 ^ 16 + 2 ^ 21, 0x200000, 0x400000, 4, 0x300000, 0, 0, 0, 1]) (Mem.writeLE [] 0x300008 8 4)) : Machine.State).shelver ((0) : ShelverNo)).queue ((8)
      : Nat)).cmdBase.toNat + ((((wSh (wShC [0x105 + 2 ^ 16 + 2 ^ 21, 0x200000, 0x400000, 4, 0x300000, 0, 0, 0, 1]) (Mem.writeLE [] 0x300008 8 4)) :
      Machine.State).shelver ((0) : ShelverNo)).queue ((8) : Nat)).rd % ((((wSh (wShC [0x105 + 2 ^ 16 + 2 ^ 21, 0x200000, 0x400000, 4, 0x300000, 0, 0, 0, 1]) (Mem.writeLE
      [] 0x300008 8 4)) : Machine.State).shelver ((0) : ShelverNo)).queue ((8) : Nat)).size * 128) 128).opt.get (by decide +kernel)).1 ((0) : ShelverNo) ((8) : Nat)
      ((wShC [0x105 + 2 ^ 16 + 2 ^ 21, 0x200000, 0x400000, 4, 0x300000, 0, 0, 0, 1]) : BitVec 1024)).opt.get (by decide +kernel)).1 : Machine.State) (((admission
      ((regRead ((wSh (wShC [0x105 + 2 ^ 16 + 2 ^ 21, 0x200000, 0x400000, 4, 0x300000, 0, 0, 0, 1]) (Mem.writeLE [] 0x300008 8 4)) : Machine.State) (((((wSh (wShC [0x105
      + 2 ^ 16 + 2 ^ 21, 0x200000, 0x400000, 4, 0x300000, 0, 0, 0, 1]) (Mem.writeLE [] 0x300008 8 4)) : Machine.State).shelver ((0) : ShelverNo)).queue ((8) :
      Nat)).cmdBase.toNat + ((((wSh (wShC [0x105 + 2 ^ 16 + 2 ^ 21, 0x200000, 0x400000, 4, 0x300000, 0, 0, 0, 1]) (Mem.writeLE [] 0x300008 8 4)) : Machine.State).shelver
      ((0) : ShelverNo)).queue ((8) : Nat)).rd % ((((wSh (wShC [0x105 + 2 ^ 16 + 2 ^ 21, 0x200000, 0x400000, 4, 0x300000, 0, 0, 0, 1]) (Mem.writeLE [] 0x300008 8 4)) :
      Machine.State).shelver ((0) : ShelverNo)).queue ((8) : Nat)).size * 128) 128).opt.get (by decide +kernel)).1 ((0) : ShelverNo) ((8) : Nat) ((wShC [0x105 + 2 ^ 16 +
      2 ^ 21, 0x200000, 0x400000, 4, 0x300000, 0, 0, 0, 1]) : BitVec 1024)).opt.get (by decide +kernel)).2 : ShCx) ((wShC [0x105 + 2 ^ 16 + 2 ^ 21, 0x200000, 0x400000, 4,
      0x300000, 0, 0, 0, 1]) : BitVec 1024) (shAdmitted ((wSh (wShC [0x105 + 2 ^ 16 + 2 ^ 21, 0x200000, 0x400000, 4, 0x300000, 0, 0, 0, 1]) (Mem.writeLE [] 0x300008 8 4))
      : Machine.State) ((0) : ShelverNo) ((8) : Nat) ((wShC [0x105 + 2 ^ 16 + 2 ^ 21, 0x200000, 0x400000, 4, 0x300000, 0, 0, 0, 1]) : BitVec 1024) (((admission ((regRead
      ((wSh (wShC [0x105 + 2 ^ 16 + 2 ^ 21, 0x200000, 0x400000, 4, 0x300000, 0, 0, 0, 1]) (Mem.writeLE [] 0x300008 8 4)) : Machine.State) (((((wSh (wShC [0x105 + 2 ^ 16 +
      2 ^ 21, 0x200000, 0x400000, 4, 0x300000, 0, 0, 0, 1]) (Mem.writeLE [] 0x300008 8 4)) : Machine.State).shelver ((0) : ShelverNo)).queue ((8) : Nat)).cmdBase.toNat +
      ((((wSh (wShC [0x105 + 2 ^ 16 + 2 ^ 21, 0x200000, 0x400000, 4, 0x300000, 0, 0, 0, 1]) (Mem.writeLE [] 0x300008 8 4)) : Machine.State).shelver ((0) :
      ShelverNo)).queue ((8) : Nat)).rd % ((((wSh (wShC [0x105 + 2 ^ 16 + 2 ^ 21, 0x200000, 0x400000, 4, 0x300000, 0, 0, 0, 1]) (Mem.writeLE [] 0x300008 8 4)) :
      Machine.State).shelver ((0) : ShelverNo)).queue ((8) : Nat)).size * 128) 128).opt.get (by decide +kernel)).1 ((0) : ShelverNo) ((8) : Nat) ((wShC [0x105 + 2 ^ 16 +
      2 ^ 21, 0x200000, 0x400000, 4, 0x300000, 0, 0, 0, 1]) : BitVec 1024)).opt.get (by decide +kernel)).2 : ShCx))).opt.get (by decide +kernel)).1), (((shDoes shReduce
      (((admission ((regRead ((wSh (wShC [0x105 + 2 ^ 16 + 2 ^ 21, 0x200000, 0x400000, 4, 0x300000, 0, 0, 0, 1]) (Mem.writeLE [] 0x300008 8 4)) : Machine.State) (((((wSh
      (wShC [0x105 + 2 ^ 16 + 2 ^ 21, 0x200000, 0x400000, 4, 0x300000, 0, 0, 0, 1]) (Mem.writeLE [] 0x300008 8 4)) : Machine.State).shelver ((0) : ShelverNo)).queue ((8)
      : Nat)).cmdBase.toNat + ((((wSh (wShC [0x105 + 2 ^ 16 + 2 ^ 21, 0x200000, 0x400000, 4, 0x300000, 0, 0, 0, 1]) (Mem.writeLE [] 0x300008 8 4)) :
      Machine.State).shelver ((0) : ShelverNo)).queue ((8) : Nat)).rd % ((((wSh (wShC [0x105 + 2 ^ 16 + 2 ^ 21, 0x200000, 0x400000, 4, 0x300000, 0, 0, 0, 1]) (Mem.writeLE
      [] 0x300008 8 4)) : Machine.State).shelver ((0) : ShelverNo)).queue ((8) : Nat)).size * 128) 128).opt.get (by decide +kernel)).1 ((0) : ShelverNo) ((8) : Nat)
      ((wShC [0x105 + 2 ^ 16 + 2 ^ 21, 0x200000, 0x400000, 4, 0x300000, 0, 0, 0, 1]) : BitVec 1024)).opt.get (by decide +kernel)).1 : Machine.State) (((admission
      ((regRead ((wSh (wShC [0x105 + 2 ^ 16 + 2 ^ 21, 0x200000, 0x400000, 4, 0x300000, 0, 0, 0, 1]) (Mem.writeLE [] 0x300008 8 4)) : Machine.State) (((((wSh (wShC [0x105
      + 2 ^ 16 + 2 ^ 21, 0x200000, 0x400000, 4, 0x300000, 0, 0, 0, 1]) (Mem.writeLE [] 0x300008 8 4)) : Machine.State).shelver ((0) : ShelverNo)).queue ((8) :
      Nat)).cmdBase.toNat + ((((wSh (wShC [0x105 + 2 ^ 16 + 2 ^ 21, 0x200000, 0x400000, 4, 0x300000, 0, 0, 0, 1]) (Mem.writeLE [] 0x300008 8 4)) : Machine.State).shelver
      ((0) : ShelverNo)).queue ((8) : Nat)).rd % ((((wSh (wShC [0x105 + 2 ^ 16 + 2 ^ 21, 0x200000, 0x400000, 4, 0x300000, 0, 0, 0, 1]) (Mem.writeLE [] 0x300008 8 4)) :
      Machine.State).shelver ((0) : ShelverNo)).queue ((8) : Nat)).size * 128) 128).opt.get (by decide +kernel)).1 ((0) : ShelverNo) ((8) : Nat) ((wShC [0x105 + 2 ^ 16 +
      2 ^ 21, 0x200000, 0x400000, 4, 0x300000, 0, 0, 0, 1]) : BitVec 1024)).opt.get (by decide +kernel)).2 : ShCx) ((wShC [0x105 + 2 ^ 16 + 2 ^ 21, 0x200000, 0x400000, 4,
      0x300000, 0, 0, 0, 1]) : BitVec 1024) (shAdmitted ((wSh (wShC [0x105 + 2 ^ 16 + 2 ^ 21, 0x200000, 0x400000, 4, 0x300000, 0, 0, 0, 1]) (Mem.writeLE [] 0x300008 8 4))
      : Machine.State) ((0) : ShelverNo) ((8) : Nat) ((wShC [0x105 + 2 ^ 16 + 2 ^ 21, 0x200000, 0x400000, 4, 0x300000, 0, 0, 0, 1]) : BitVec 1024) (((admission ((regRead
      ((wSh (wShC [0x105 + 2 ^ 16 + 2 ^ 21, 0x200000, 0x400000, 4, 0x300000, 0, 0, 0, 1]) (Mem.writeLE [] 0x300008 8 4)) : Machine.State) (((((wSh (wShC [0x105 + 2 ^ 16 +
      2 ^ 21, 0x200000, 0x400000, 4, 0x300000, 0, 0, 0, 1]) (Mem.writeLE [] 0x300008 8 4)) : Machine.State).shelver ((0) : ShelverNo)).queue ((8) : Nat)).cmdBase.toNat +
      ((((wSh (wShC [0x105 + 2 ^ 16 + 2 ^ 21, 0x200000, 0x400000, 4, 0x300000, 0, 0, 0, 1]) (Mem.writeLE [] 0x300008 8 4)) : Machine.State).shelver ((0) :
      ShelverNo)).queue ((8) : Nat)).rd % ((((wSh (wShC [0x105 + 2 ^ 16 + 2 ^ 21, 0x200000, 0x400000, 4, 0x300000, 0, 0, 0, 1]) (Mem.writeLE [] 0x300008 8 4)) :
      Machine.State).shelver ((0) : ShelverNo)).queue ((8) : Nat)).size * 128) 128).opt.get (by decide +kernel)).1 ((0) : ShelverNo) ((8) : Nat) ((wShC [0x105 + 2 ^ 16 +
      2 ^ 21, 0x200000, 0x400000, 4, 0x300000, 0, 0, 0, 1]) : BitVec 1024)).opt.get (by decide +kernel)).2 : ShCx))).opt.get (by decide +kernel)).2),
      (by unfold ShReady; exact ⟨by decide +kernel, by decide +kernel, by decide +kernel, by decide +kernel, _, _, Got.of_opt (of_get (by decide +kernel)), by decide +kernel, Admit.of_opt (of_get _)⟩),
      (ShRes.of_opt (of_get (by decide +kernel)))⟩
  · exact ⟨(0), (wSh (wShC [0x106, 0x200000, 0x400000, 2 + 3 * 2 ^ 40, 0x300000, 4])), (8), (wShC [0x106, 0x200000, 0x400000, 2 + 3 * 2 ^ 40, 0x300000, 4]), ((admission
      ((regRead ((wSh (wShC [0x106, 0x200000, 0x400000, 2 + 3 * 2 ^ 40, 0x300000, 4])) : Machine.State) (((((wSh (wShC [0x106, 0x200000, 0x400000, 2 + 3 * 2 ^ 40,
      0x300000, 4])) : Machine.State).shelver ((0) : ShelverNo)).queue ((8) : Nat)).cmdBase.toNat + ((((wSh (wShC [0x106, 0x200000, 0x400000, 2 + 3 * 2 ^ 40, 0x300000,
      4])) : Machine.State).shelver ((0) : ShelverNo)).queue ((8) : Nat)).rd % ((((wSh (wShC [0x106, 0x200000, 0x400000, 2 + 3 * 2 ^ 40, 0x300000, 4])) :
      Machine.State).shelver ((0) : ShelverNo)).queue ((8) : Nat)).size * 128) 128).opt.get (by decide +kernel)).1 ((0) : ShelverNo) ((8) : Nat) ((wShC [0x106, 0x200000,
      0x400000, 2 + 3 * 2 ^ 40, 0x300000, 4]) : BitVec 1024)).opt.get (by decide +kernel)).1, ((admission ((regRead ((wSh (wShC [0x106, 0x200000, 0x400000, 2 + 3 * 2 ^
      40, 0x300000, 4])) : Machine.State) (((((wSh (wShC [0x106, 0x200000, 0x400000, 2 + 3 * 2 ^ 40, 0x300000, 4])) : Machine.State).shelver ((0) : ShelverNo)).queue ((8)
      : Nat)).cmdBase.toNat + ((((wSh (wShC [0x106, 0x200000, 0x400000, 2 + 3 * 2 ^ 40, 0x300000, 4])) : Machine.State).shelver ((0) : ShelverNo)).queue ((8) : Nat)).rd %
      ((((wSh (wShC [0x106, 0x200000, 0x400000, 2 + 3 * 2 ^ 40, 0x300000, 4])) : Machine.State).shelver ((0) : ShelverNo)).queue ((8) : Nat)).size * 128) 128).opt.get
      (by decide +kernel)).1 ((0) : ShelverNo) ((8) : Nat) ((wShC [0x106, 0x200000, 0x400000, 2 + 3 * 2 ^ 40, 0x300000, 4]) : BitVec 1024)).opt.get
      (by decide +kernel)).2, (((shDoes shAtomic (((admission ((regRead ((wSh (wShC [0x106, 0x200000, 0x400000, 2 + 3 * 2 ^ 40, 0x300000, 4])) : Machine.State) (((((wSh
      (wShC [0x106, 0x200000, 0x400000, 2 + 3 * 2 ^ 40, 0x300000, 4])) : Machine.State).shelver ((0) : ShelverNo)).queue ((8) : Nat)).cmdBase.toNat + ((((wSh (wShC
      [0x106, 0x200000, 0x400000, 2 + 3 * 2 ^ 40, 0x300000, 4])) : Machine.State).shelver ((0) : ShelverNo)).queue ((8) : Nat)).rd % ((((wSh (wShC [0x106, 0x200000,
      0x400000, 2 + 3 * 2 ^ 40, 0x300000, 4])) : Machine.State).shelver ((0) : ShelverNo)).queue ((8) : Nat)).size * 128) 128).opt.get (by decide +kernel)).1 ((0) :
      ShelverNo) ((8) : Nat) ((wShC [0x106, 0x200000, 0x400000, 2 + 3 * 2 ^ 40, 0x300000, 4]) : BitVec 1024)).opt.get (by decide +kernel)).1 : Machine.State) (((admission
      ((regRead ((wSh (wShC [0x106, 0x200000, 0x400000, 2 + 3 * 2 ^ 40, 0x300000, 4])) : Machine.State) (((((wSh (wShC [0x106, 0x200000, 0x400000, 2 + 3 * 2 ^ 40,
      0x300000, 4])) : Machine.State).shelver ((0) : ShelverNo)).queue ((8) : Nat)).cmdBase.toNat + ((((wSh (wShC [0x106, 0x200000, 0x400000, 2 + 3 * 2 ^ 40, 0x300000,
      4])) : Machine.State).shelver ((0) : ShelverNo)).queue ((8) : Nat)).rd % ((((wSh (wShC [0x106, 0x200000, 0x400000, 2 + 3 * 2 ^ 40, 0x300000, 4])) :
      Machine.State).shelver ((0) : ShelverNo)).queue ((8) : Nat)).size * 128) 128).opt.get (by decide +kernel)).1 ((0) : ShelverNo) ((8) : Nat) ((wShC [0x106, 0x200000,
      0x400000, 2 + 3 * 2 ^ 40, 0x300000, 4]) : BitVec 1024)).opt.get (by decide +kernel)).2 : ShCx) ((wShC [0x106, 0x200000, 0x400000, 2 + 3 * 2 ^ 40, 0x300000, 4]) :
      BitVec 1024) (shAdmitted ((wSh (wShC [0x106, 0x200000, 0x400000, 2 + 3 * 2 ^ 40, 0x300000, 4])) : Machine.State) ((0) : ShelverNo) ((8) : Nat) ((wShC [0x106,
      0x200000, 0x400000, 2 + 3 * 2 ^ 40, 0x300000, 4]) : BitVec 1024) (((admission ((regRead ((wSh (wShC [0x106, 0x200000, 0x400000, 2 + 3 * 2 ^ 40, 0x300000, 4])) :
      Machine.State) (((((wSh (wShC [0x106, 0x200000, 0x400000, 2 + 3 * 2 ^ 40, 0x300000, 4])) : Machine.State).shelver ((0) : ShelverNo)).queue ((8) :
      Nat)).cmdBase.toNat + ((((wSh (wShC [0x106, 0x200000, 0x400000, 2 + 3 * 2 ^ 40, 0x300000, 4])) : Machine.State).shelver ((0) : ShelverNo)).queue ((8) : Nat)).rd %
      ((((wSh (wShC [0x106, 0x200000, 0x400000, 2 + 3 * 2 ^ 40, 0x300000, 4])) : Machine.State).shelver ((0) : ShelverNo)).queue ((8) : Nat)).size * 128) 128).opt.get
      (by decide +kernel)).1 ((0) : ShelverNo) ((8) : Nat) ((wShC [0x106, 0x200000, 0x400000, 2 + 3 * 2 ^ 40, 0x300000, 4]) : BitVec 1024)).opt.get (by decide +kernel)).2
      : ShCx))).opt.get (by decide +kernel)).1), (((shDoes shAtomic (((admission ((regRead ((wSh (wShC [0x106, 0x200000, 0x400000, 2 + 3 * 2 ^ 40, 0x300000, 4])) :
      Machine.State) (((((wSh (wShC [0x106, 0x200000, 0x400000, 2 + 3 * 2 ^ 40, 0x300000, 4])) : Machine.State).shelver ((0) : ShelverNo)).queue ((8) :
      Nat)).cmdBase.toNat + ((((wSh (wShC [0x106, 0x200000, 0x400000, 2 + 3 * 2 ^ 40, 0x300000, 4])) : Machine.State).shelver ((0) : ShelverNo)).queue ((8) : Nat)).rd %
      ((((wSh (wShC [0x106, 0x200000, 0x400000, 2 + 3 * 2 ^ 40, 0x300000, 4])) : Machine.State).shelver ((0) : ShelverNo)).queue ((8) : Nat)).size * 128) 128).opt.get
      (by decide +kernel)).1 ((0) : ShelverNo) ((8) : Nat) ((wShC [0x106, 0x200000, 0x400000, 2 + 3 * 2 ^ 40, 0x300000, 4]) : BitVec 1024)).opt.get (by decide +kernel)).1
      : Machine.State) (((admission ((regRead ((wSh (wShC [0x106, 0x200000, 0x400000, 2 + 3 * 2 ^ 40, 0x300000, 4])) : Machine.State) (((((wSh (wShC [0x106, 0x200000,
      0x400000, 2 + 3 * 2 ^ 40, 0x300000, 4])) : Machine.State).shelver ((0) : ShelverNo)).queue ((8) : Nat)).cmdBase.toNat + ((((wSh (wShC [0x106, 0x200000, 0x400000, 2
      + 3 * 2 ^ 40, 0x300000, 4])) : Machine.State).shelver ((0) : ShelverNo)).queue ((8) : Nat)).rd % ((((wSh (wShC [0x106, 0x200000, 0x400000, 2 + 3 * 2 ^ 40, 0x300000,
      4])) : Machine.State).shelver ((0) : ShelverNo)).queue ((8) : Nat)).size * 128) 128).opt.get (by decide +kernel)).1 ((0) : ShelverNo) ((8) : Nat) ((wShC [0x106,
      0x200000, 0x400000, 2 + 3 * 2 ^ 40, 0x300000, 4]) : BitVec 1024)).opt.get (by decide +kernel)).2 : ShCx) ((wShC [0x106, 0x200000, 0x400000, 2 + 3 * 2 ^ 40,
      0x300000, 4]) : BitVec 1024) (shAdmitted ((wSh (wShC [0x106, 0x200000, 0x400000, 2 + 3 * 2 ^ 40, 0x300000, 4])) : Machine.State) ((0) : ShelverNo) ((8) : Nat)
      ((wShC [0x106, 0x200000, 0x400000, 2 + 3 * 2 ^ 40, 0x300000, 4]) : BitVec 1024) (((admission ((regRead ((wSh (wShC [0x106, 0x200000, 0x400000, 2 + 3 * 2 ^ 40,
      0x300000, 4])) : Machine.State) (((((wSh (wShC [0x106, 0x200000, 0x400000, 2 + 3 * 2 ^ 40, 0x300000, 4])) : Machine.State).shelver ((0) : ShelverNo)).queue ((8) :
      Nat)).cmdBase.toNat + ((((wSh (wShC [0x106, 0x200000, 0x400000, 2 + 3 * 2 ^ 40, 0x300000, 4])) : Machine.State).shelver ((0) : ShelverNo)).queue ((8) : Nat)).rd %
      ((((wSh (wShC [0x106, 0x200000, 0x400000, 2 + 3 * 2 ^ 40, 0x300000, 4])) : Machine.State).shelver ((0) : ShelverNo)).queue ((8) : Nat)).size * 128) 128).opt.get
      (by decide +kernel)).1 ((0) : ShelverNo) ((8) : Nat) ((wShC [0x106, 0x200000, 0x400000, 2 + 3 * 2 ^ 40, 0x300000, 4]) : BitVec 1024)).opt.get (by decide +kernel)).2
      : ShCx))).opt.get (by decide +kernel)).2),
      (by unfold ShReady; exact ⟨by decide +kernel, by decide +kernel, by decide +kernel, by decide +kernel, _, _, Got.of_opt (of_get (by decide +kernel)), by decide +kernel, Admit.of_opt (of_get _)⟩),
      (ShRes.of_opt (of_get (by decide +kernel)))⟩
  · exact ⟨(0), (wSh (wShC [0x107 + 2 ^ 16, 0x200000, 0, 4])), (8), (wShC [0x107 + 2 ^ 16, 0x200000, 0, 4]), ((admission ((regRead ((wSh (wShC [0x107 + 2 ^ 16, 0x200000, 0,
      4])) : Machine.State) (((((wSh (wShC [0x107 + 2 ^ 16, 0x200000, 0, 4])) : Machine.State).shelver ((0) : ShelverNo)).queue ((8) : Nat)).cmdBase.toNat + ((((wSh (wShC
      [0x107 + 2 ^ 16, 0x200000, 0, 4])) : Machine.State).shelver ((0) : ShelverNo)).queue ((8) : Nat)).rd % ((((wSh (wShC [0x107 + 2 ^ 16, 0x200000, 0, 4])) :
      Machine.State).shelver ((0) : ShelverNo)).queue ((8) : Nat)).size * 128) 128).opt.get (by decide +kernel)).1 ((0) : ShelverNo) ((8) : Nat) ((wShC [0x107 + 2 ^ 16,
      0x200000, 0, 4]) : BitVec 1024)).opt.get (by decide +kernel)).1, ((admission ((regRead ((wSh (wShC [0x107 + 2 ^ 16, 0x200000, 0, 4])) : Machine.State) (((((wSh
      (wShC [0x107 + 2 ^ 16, 0x200000, 0, 4])) : Machine.State).shelver ((0) : ShelverNo)).queue ((8) : Nat)).cmdBase.toNat + ((((wSh (wShC [0x107 + 2 ^ 16, 0x200000, 0,
      4])) : Machine.State).shelver ((0) : ShelverNo)).queue ((8) : Nat)).rd % ((((wSh (wShC [0x107 + 2 ^ 16, 0x200000, 0, 4])) : Machine.State).shelver ((0) :
      ShelverNo)).queue ((8) : Nat)).size * 128) 128).opt.get (by decide +kernel)).1 ((0) : ShelverNo) ((8) : Nat) ((wShC [0x107 + 2 ^ 16, 0x200000, 0, 4]) : BitVec
      1024)).opt.get (by decide +kernel)).2, (((shDoes shScan (((admission ((regRead ((wSh (wShC [0x107 + 2 ^ 16, 0x200000, 0, 4])) : Machine.State) (((((wSh (wShC [0x107
      + 2 ^ 16, 0x200000, 0, 4])) : Machine.State).shelver ((0) : ShelverNo)).queue ((8) : Nat)).cmdBase.toNat + ((((wSh (wShC [0x107 + 2 ^ 16, 0x200000, 0, 4])) :
      Machine.State).shelver ((0) : ShelverNo)).queue ((8) : Nat)).rd % ((((wSh (wShC [0x107 + 2 ^ 16, 0x200000, 0, 4])) : Machine.State).shelver ((0) : ShelverNo)).queue
      ((8) : Nat)).size * 128) 128).opt.get (by decide +kernel)).1 ((0) : ShelverNo) ((8) : Nat) ((wShC [0x107 + 2 ^ 16, 0x200000, 0, 4]) : BitVec 1024)).opt.get
      (by decide +kernel)).1 : Machine.State) (((admission ((regRead ((wSh (wShC [0x107 + 2 ^ 16, 0x200000, 0, 4])) : Machine.State) (((((wSh (wShC [0x107 + 2 ^ 16,
      0x200000, 0, 4])) : Machine.State).shelver ((0) : ShelverNo)).queue ((8) : Nat)).cmdBase.toNat + ((((wSh (wShC [0x107 + 2 ^ 16, 0x200000, 0, 4])) :
      Machine.State).shelver ((0) : ShelverNo)).queue ((8) : Nat)).rd % ((((wSh (wShC [0x107 + 2 ^ 16, 0x200000, 0, 4])) : Machine.State).shelver ((0) : ShelverNo)).queue
      ((8) : Nat)).size * 128) 128).opt.get (by decide +kernel)).1 ((0) : ShelverNo) ((8) : Nat) ((wShC [0x107 + 2 ^ 16, 0x200000, 0, 4]) : BitVec 1024)).opt.get
      (by decide +kernel)).2 : ShCx) ((wShC [0x107 + 2 ^ 16, 0x200000, 0, 4]) : BitVec 1024) (shAdmitted ((wSh (wShC [0x107 + 2 ^ 16, 0x200000, 0, 4])) : Machine.State)
      ((0) : ShelverNo) ((8) : Nat) ((wShC [0x107 + 2 ^ 16, 0x200000, 0, 4]) : BitVec 1024) (((admission ((regRead ((wSh (wShC [0x107 + 2 ^ 16, 0x200000, 0, 4])) :
      Machine.State) (((((wSh (wShC [0x107 + 2 ^ 16, 0x200000, 0, 4])) : Machine.State).shelver ((0) : ShelverNo)).queue ((8) : Nat)).cmdBase.toNat + ((((wSh (wShC [0x107
      + 2 ^ 16, 0x200000, 0, 4])) : Machine.State).shelver ((0) : ShelverNo)).queue ((8) : Nat)).rd % ((((wSh (wShC [0x107 + 2 ^ 16, 0x200000, 0, 4])) :
      Machine.State).shelver ((0) : ShelverNo)).queue ((8) : Nat)).size * 128) 128).opt.get (by decide +kernel)).1 ((0) : ShelverNo) ((8) : Nat) ((wShC [0x107 + 2 ^ 16,
      0x200000, 0, 4]) : BitVec 1024)).opt.get (by decide +kernel)).2 : ShCx))).opt.get (by decide +kernel)).1), (((shDoes shScan (((admission ((regRead ((wSh (wShC
      [0x107 + 2 ^ 16, 0x200000, 0, 4])) : Machine.State) (((((wSh (wShC [0x107 + 2 ^ 16, 0x200000, 0, 4])) : Machine.State).shelver ((0) : ShelverNo)).queue ((8) :
      Nat)).cmdBase.toNat + ((((wSh (wShC [0x107 + 2 ^ 16, 0x200000, 0, 4])) : Machine.State).shelver ((0) : ShelverNo)).queue ((8) : Nat)).rd % ((((wSh (wShC [0x107 + 2
      ^ 16, 0x200000, 0, 4])) : Machine.State).shelver ((0) : ShelverNo)).queue ((8) : Nat)).size * 128) 128).opt.get (by decide +kernel)).1 ((0) : ShelverNo) ((8) : Nat)
      ((wShC [0x107 + 2 ^ 16, 0x200000, 0, 4]) : BitVec 1024)).opt.get (by decide +kernel)).1 : Machine.State) (((admission ((regRead ((wSh (wShC [0x107 + 2 ^ 16,
      0x200000, 0, 4])) : Machine.State) (((((wSh (wShC [0x107 + 2 ^ 16, 0x200000, 0, 4])) : Machine.State).shelver ((0) : ShelverNo)).queue ((8) : Nat)).cmdBase.toNat +
      ((((wSh (wShC [0x107 + 2 ^ 16, 0x200000, 0, 4])) : Machine.State).shelver ((0) : ShelverNo)).queue ((8) : Nat)).rd % ((((wSh (wShC [0x107 + 2 ^ 16, 0x200000, 0,
      4])) : Machine.State).shelver ((0) : ShelverNo)).queue ((8) : Nat)).size * 128) 128).opt.get (by decide +kernel)).1 ((0) : ShelverNo) ((8) : Nat) ((wShC [0x107 + 2
      ^ 16, 0x200000, 0, 4]) : BitVec 1024)).opt.get (by decide +kernel)).2 : ShCx) ((wShC [0x107 + 2 ^ 16, 0x200000, 0, 4]) : BitVec 1024) (shAdmitted ((wSh (wShC [0x107
      + 2 ^ 16, 0x200000, 0, 4])) : Machine.State) ((0) : ShelverNo) ((8) : Nat) ((wShC [0x107 + 2 ^ 16, 0x200000, 0, 4]) : BitVec 1024) (((admission ((regRead ((wSh
      (wShC [0x107 + 2 ^ 16, 0x200000, 0, 4])) : Machine.State) (((((wSh (wShC [0x107 + 2 ^ 16, 0x200000, 0, 4])) : Machine.State).shelver ((0) : ShelverNo)).queue ((8) :
      Nat)).cmdBase.toNat + ((((wSh (wShC [0x107 + 2 ^ 16, 0x200000, 0, 4])) : Machine.State).shelver ((0) : ShelverNo)).queue ((8) : Nat)).rd % ((((wSh (wShC [0x107 + 2
      ^ 16, 0x200000, 0, 4])) : Machine.State).shelver ((0) : ShelverNo)).queue ((8) : Nat)).size * 128) 128).opt.get (by decide +kernel)).1 ((0) : ShelverNo) ((8) : Nat)
      ((wShC [0x107 + 2 ^ 16, 0x200000, 0, 4]) : BitVec 1024)).opt.get (by decide +kernel)).2 : ShCx))).opt.get (by decide +kernel)).2),
      (by unfold ShReady; exact ⟨by decide +kernel, by decide +kernel, by decide +kernel, by decide +kernel, _, _, Got.of_opt (of_get (by decide +kernel)), by decide +kernel, Admit.of_opt (of_get _)⟩),
      (ShRes.of_opt (of_get (by decide +kernel)))⟩
  · exact ⟨(0), (wSh (wShC [0x109, 0x200000, 0x400000, 8])), (8), (wShC [0x109, 0x200000, 0x400000, 8]), ((admission ((regRead ((wSh (wShC [0x109, 0x200000, 0x400000, 8])) :
      Machine.State) (((((wSh (wShC [0x109, 0x200000, 0x400000, 8])) : Machine.State).shelver ((0) : ShelverNo)).queue ((8) : Nat)).cmdBase.toNat + ((((wSh (wShC [0x109,
      0x200000, 0x400000, 8])) : Machine.State).shelver ((0) : ShelverNo)).queue ((8) : Nat)).rd % ((((wSh (wShC [0x109, 0x200000, 0x400000, 8])) : Machine.State).shelver
      ((0) : ShelverNo)).queue ((8) : Nat)).size * 128) 128).opt.get (by decide +kernel)).1 ((0) : ShelverNo) ((8) : Nat) ((wShC [0x109, 0x200000, 0x400000, 8]) : BitVec
      1024)).opt.get (by decide +kernel)).1, ((admission ((regRead ((wSh (wShC [0x109, 0x200000, 0x400000, 8])) : Machine.State) (((((wSh (wShC [0x109, 0x200000,
      0x400000, 8])) : Machine.State).shelver ((0) : ShelverNo)).queue ((8) : Nat)).cmdBase.toNat + ((((wSh (wShC [0x109, 0x200000, 0x400000, 8])) :
      Machine.State).shelver ((0) : ShelverNo)).queue ((8) : Nat)).rd % ((((wSh (wShC [0x109, 0x200000, 0x400000, 8])) : Machine.State).shelver ((0) : ShelverNo)).queue
      ((8) : Nat)).size * 128) 128).opt.get (by decide +kernel)).1 ((0) : ShelverNo) ((8) : Nat) ((wShC [0x109, 0x200000, 0x400000, 8]) : BitVec 1024)).opt.get
      (by decide +kernel)).2, (((shDoes shMeasure (((admission ((regRead ((wSh (wShC [0x109, 0x200000, 0x400000, 8])) : Machine.State) (((((wSh (wShC [0x109, 0x200000,
      0x400000, 8])) : Machine.State).shelver ((0) : ShelverNo)).queue ((8) : Nat)).cmdBase.toNat + ((((wSh (wShC [0x109, 0x200000, 0x400000, 8])) :
      Machine.State).shelver ((0) : ShelverNo)).queue ((8) : Nat)).rd % ((((wSh (wShC [0x109, 0x200000, 0x400000, 8])) : Machine.State).shelver ((0) : ShelverNo)).queue
      ((8) : Nat)).size * 128) 128).opt.get (by decide +kernel)).1 ((0) : ShelverNo) ((8) : Nat) ((wShC [0x109, 0x200000, 0x400000, 8]) : BitVec 1024)).opt.get
      (by decide +kernel)).1 : Machine.State) (((admission ((regRead ((wSh (wShC [0x109, 0x200000, 0x400000, 8])) : Machine.State) (((((wSh (wShC [0x109, 0x200000,
      0x400000, 8])) : Machine.State).shelver ((0) : ShelverNo)).queue ((8) : Nat)).cmdBase.toNat + ((((wSh (wShC [0x109, 0x200000, 0x400000, 8])) :
      Machine.State).shelver ((0) : ShelverNo)).queue ((8) : Nat)).rd % ((((wSh (wShC [0x109, 0x200000, 0x400000, 8])) : Machine.State).shelver ((0) : ShelverNo)).queue
      ((8) : Nat)).size * 128) 128).opt.get (by decide +kernel)).1 ((0) : ShelverNo) ((8) : Nat) ((wShC [0x109, 0x200000, 0x400000, 8]) : BitVec 1024)).opt.get
      (by decide +kernel)).2 : ShCx) ((wShC [0x109, 0x200000, 0x400000, 8]) : BitVec 1024) (shAdmitted ((wSh (wShC [0x109, 0x200000, 0x400000, 8])) : Machine.State) ((0)
      : ShelverNo) ((8) : Nat) ((wShC [0x109, 0x200000, 0x400000, 8]) : BitVec 1024) (((admission ((regRead ((wSh (wShC [0x109, 0x200000, 0x400000, 8])) : Machine.State)
      (((((wSh (wShC [0x109, 0x200000, 0x400000, 8])) : Machine.State).shelver ((0) : ShelverNo)).queue ((8) : Nat)).cmdBase.toNat + ((((wSh (wShC [0x109, 0x200000,
      0x400000, 8])) : Machine.State).shelver ((0) : ShelverNo)).queue ((8) : Nat)).rd % ((((wSh (wShC [0x109, 0x200000, 0x400000, 8])) : Machine.State).shelver ((0) :
      ShelverNo)).queue ((8) : Nat)).size * 128) 128).opt.get (by decide +kernel)).1 ((0) : ShelverNo) ((8) : Nat) ((wShC [0x109, 0x200000, 0x400000, 8]) : BitVec
      1024)).opt.get (by decide +kernel)).2 : ShCx))).opt.get (by decide +kernel)).1), (((shDoes shMeasure (((admission ((regRead ((wSh (wShC [0x109, 0x200000, 0x400000,
      8])) : Machine.State) (((((wSh (wShC [0x109, 0x200000, 0x400000, 8])) : Machine.State).shelver ((0) : ShelverNo)).queue ((8) : Nat)).cmdBase.toNat + ((((wSh (wShC
      [0x109, 0x200000, 0x400000, 8])) : Machine.State).shelver ((0) : ShelverNo)).queue ((8) : Nat)).rd % ((((wSh (wShC [0x109, 0x200000, 0x400000, 8])) :
      Machine.State).shelver ((0) : ShelverNo)).queue ((8) : Nat)).size * 128) 128).opt.get (by decide +kernel)).1 ((0) : ShelverNo) ((8) : Nat) ((wShC [0x109, 0x200000,
      0x400000, 8]) : BitVec 1024)).opt.get (by decide +kernel)).1 : Machine.State) (((admission ((regRead ((wSh (wShC [0x109, 0x200000, 0x400000, 8])) : Machine.State)
      (((((wSh (wShC [0x109, 0x200000, 0x400000, 8])) : Machine.State).shelver ((0) : ShelverNo)).queue ((8) : Nat)).cmdBase.toNat + ((((wSh (wShC [0x109, 0x200000,
      0x400000, 8])) : Machine.State).shelver ((0) : ShelverNo)).queue ((8) : Nat)).rd % ((((wSh (wShC [0x109, 0x200000, 0x400000, 8])) : Machine.State).shelver ((0) :
      ShelverNo)).queue ((8) : Nat)).size * 128) 128).opt.get (by decide +kernel)).1 ((0) : ShelverNo) ((8) : Nat) ((wShC [0x109, 0x200000, 0x400000, 8]) : BitVec
      1024)).opt.get (by decide +kernel)).2 : ShCx) ((wShC [0x109, 0x200000, 0x400000, 8]) : BitVec 1024) (shAdmitted ((wSh (wShC [0x109, 0x200000, 0x400000, 8])) :
      Machine.State) ((0) : ShelverNo) ((8) : Nat) ((wShC [0x109, 0x200000, 0x400000, 8]) : BitVec 1024) (((admission ((regRead ((wSh (wShC [0x109, 0x200000, 0x400000,
      8])) : Machine.State) (((((wSh (wShC [0x109, 0x200000, 0x400000, 8])) : Machine.State).shelver ((0) : ShelverNo)).queue ((8) : Nat)).cmdBase.toNat + ((((wSh (wShC
      [0x109, 0x200000, 0x400000, 8])) : Machine.State).shelver ((0) : ShelverNo)).queue ((8) : Nat)).rd % ((((wSh (wShC [0x109, 0x200000, 0x400000, 8])) :
      Machine.State).shelver ((0) : ShelverNo)).queue ((8) : Nat)).size * 128) 128).opt.get (by decide +kernel)).1 ((0) : ShelverNo) ((8) : Nat) ((wShC [0x109, 0x200000,
      0x400000, 8]) : BitVec 1024)).opt.get (by decide +kernel)).2 : ShCx))).opt.get (by decide +kernel)).2),
      (by unfold ShReady; exact ⟨by decide +kernel, by decide +kernel, by decide +kernel, by decide +kernel, _, _, Got.of_opt (of_get (by decide +kernel)), by decide +kernel, Admit.of_opt (of_get _)⟩),
      (ShRes.of_opt (of_get (by decide +kernel)))⟩
  · exact ⟨(0), (wSh (wShC [0x10A, 0x200000, 0, 64])), (8), (wShC [0x10A, 0x200000, 0, 64]), ((admission ((regRead ((wSh (wShC [0x10A, 0x200000, 0, 64])) : Machine.State)
      (((((wSh (wShC [0x10A, 0x200000, 0, 64])) : Machine.State).shelver ((0) : ShelverNo)).queue ((8) : Nat)).cmdBase.toNat + ((((wSh (wShC [0x10A, 0x200000, 0, 64])) :
      Machine.State).shelver ((0) : ShelverNo)).queue ((8) : Nat)).rd % ((((wSh (wShC [0x10A, 0x200000, 0, 64])) : Machine.State).shelver ((0) : ShelverNo)).queue ((8) :
      Nat)).size * 128) 128).opt.get (by decide +kernel)).1 ((0) : ShelverNo) ((8) : Nat) ((wShC [0x10A, 0x200000, 0, 64]) : BitVec 1024)).opt.get (by decide +kernel)).1,
      ((admission ((regRead ((wSh (wShC [0x10A, 0x200000, 0, 64])) : Machine.State) (((((wSh (wShC [0x10A, 0x200000, 0, 64])) : Machine.State).shelver ((0) :
      ShelverNo)).queue ((8) : Nat)).cmdBase.toNat + ((((wSh (wShC [0x10A, 0x200000, 0, 64])) : Machine.State).shelver ((0) : ShelverNo)).queue ((8) : Nat)).rd % ((((wSh
      (wShC [0x10A, 0x200000, 0, 64])) : Machine.State).shelver ((0) : ShelverNo)).queue ((8) : Nat)).size * 128) 128).opt.get (by decide +kernel)).1 ((0) : ShelverNo)
      ((8) : Nat) ((wShC [0x10A, 0x200000, 0, 64]) : BitVec 1024)).opt.get (by decide +kernel)).2, (((shDoes shScrub (((admission ((regRead ((wSh (wShC [0x10A, 0x200000,
      0, 64])) : Machine.State) (((((wSh (wShC [0x10A, 0x200000, 0, 64])) : Machine.State).shelver ((0) : ShelverNo)).queue ((8) : Nat)).cmdBase.toNat + ((((wSh (wShC
      [0x10A, 0x200000, 0, 64])) : Machine.State).shelver ((0) : ShelverNo)).queue ((8) : Nat)).rd % ((((wSh (wShC [0x10A, 0x200000, 0, 64])) : Machine.State).shelver
      ((0) : ShelverNo)).queue ((8) : Nat)).size * 128) 128).opt.get (by decide +kernel)).1 ((0) : ShelverNo) ((8) : Nat) ((wShC [0x10A, 0x200000, 0, 64]) : BitVec
      1024)).opt.get (by decide +kernel)).1 : Machine.State) (((admission ((regRead ((wSh (wShC [0x10A, 0x200000, 0, 64])) : Machine.State) (((((wSh (wShC [0x10A,
      0x200000, 0, 64])) : Machine.State).shelver ((0) : ShelverNo)).queue ((8) : Nat)).cmdBase.toNat + ((((wSh (wShC [0x10A, 0x200000, 0, 64])) : Machine.State).shelver
      ((0) : ShelverNo)).queue ((8) : Nat)).rd % ((((wSh (wShC [0x10A, 0x200000, 0, 64])) : Machine.State).shelver ((0) : ShelverNo)).queue ((8) : Nat)).size * 128)
      128).opt.get (by decide +kernel)).1 ((0) : ShelverNo) ((8) : Nat) ((wShC [0x10A, 0x200000, 0, 64]) : BitVec 1024)).opt.get (by decide +kernel)).2 : ShCx) ((wShC
      [0x10A, 0x200000, 0, 64]) : BitVec 1024) (shAdmitted ((wSh (wShC [0x10A, 0x200000, 0, 64])) : Machine.State) ((0) : ShelverNo) ((8) : Nat) ((wShC [0x10A, 0x200000,
      0, 64]) : BitVec 1024) (((admission ((regRead ((wSh (wShC [0x10A, 0x200000, 0, 64])) : Machine.State) (((((wSh (wShC [0x10A, 0x200000, 0, 64])) :
      Machine.State).shelver ((0) : ShelverNo)).queue ((8) : Nat)).cmdBase.toNat + ((((wSh (wShC [0x10A, 0x200000, 0, 64])) : Machine.State).shelver ((0) :
      ShelverNo)).queue ((8) : Nat)).rd % ((((wSh (wShC [0x10A, 0x200000, 0, 64])) : Machine.State).shelver ((0) : ShelverNo)).queue ((8) : Nat)).size * 128) 128).opt.get
      (by decide +kernel)).1 ((0) : ShelverNo) ((8) : Nat) ((wShC [0x10A, 0x200000, 0, 64]) : BitVec 1024)).opt.get (by decide +kernel)).2 : ShCx))).opt.get
      (by decide +kernel)).1), (((shDoes shScrub (((admission ((regRead ((wSh (wShC [0x10A, 0x200000, 0, 64])) : Machine.State) (((((wSh (wShC [0x10A, 0x200000, 0, 64]))
      : Machine.State).shelver ((0) : ShelverNo)).queue ((8) : Nat)).cmdBase.toNat + ((((wSh (wShC [0x10A, 0x200000, 0, 64])) : Machine.State).shelver ((0) :
      ShelverNo)).queue ((8) : Nat)).rd % ((((wSh (wShC [0x10A, 0x200000, 0, 64])) : Machine.State).shelver ((0) : ShelverNo)).queue ((8) : Nat)).size * 128) 128).opt.get
      (by decide +kernel)).1 ((0) : ShelverNo) ((8) : Nat) ((wShC [0x10A, 0x200000, 0, 64]) : BitVec 1024)).opt.get (by decide +kernel)).1 : Machine.State) (((admission
      ((regRead ((wSh (wShC [0x10A, 0x200000, 0, 64])) : Machine.State) (((((wSh (wShC [0x10A, 0x200000, 0, 64])) : Machine.State).shelver ((0) : ShelverNo)).queue ((8) :
      Nat)).cmdBase.toNat + ((((wSh (wShC [0x10A, 0x200000, 0, 64])) : Machine.State).shelver ((0) : ShelverNo)).queue ((8) : Nat)).rd % ((((wSh (wShC [0x10A, 0x200000,
      0, 64])) : Machine.State).shelver ((0) : ShelverNo)).queue ((8) : Nat)).size * 128) 128).opt.get (by decide +kernel)).1 ((0) : ShelverNo) ((8) : Nat) ((wShC [0x10A,
      0x200000, 0, 64]) : BitVec 1024)).opt.get (by decide +kernel)).2 : ShCx) ((wShC [0x10A, 0x200000, 0, 64]) : BitVec 1024) (shAdmitted ((wSh (wShC [0x10A, 0x200000,
      0, 64])) : Machine.State) ((0) : ShelverNo) ((8) : Nat) ((wShC [0x10A, 0x200000, 0, 64]) : BitVec 1024) (((admission ((regRead ((wSh (wShC [0x10A, 0x200000, 0,
      64])) : Machine.State) (((((wSh (wShC [0x10A, 0x200000, 0, 64])) : Machine.State).shelver ((0) : ShelverNo)).queue ((8) : Nat)).cmdBase.toNat + ((((wSh (wShC
      [0x10A, 0x200000, 0, 64])) : Machine.State).shelver ((0) : ShelverNo)).queue ((8) : Nat)).rd % ((((wSh (wShC [0x10A, 0x200000, 0, 64])) : Machine.State).shelver
      ((0) : ShelverNo)).queue ((8) : Nat)).size * 128) 128).opt.get (by decide +kernel)).1 ((0) : ShelverNo) ((8) : Nat) ((wShC [0x10A, 0x200000, 0, 64]) : BitVec
      1024)).opt.get (by decide +kernel)).2 : ShCx))).opt.get (by decide +kernel)).2),
      (by unfold ShReady; exact ⟨by decide +kernel, by decide +kernel, by decide +kernel, by decide +kernel, _, _, Got.of_opt (of_get (by decide +kernel)), by decide +kernel, Admit.of_opt (of_get _)⟩),
      (ShRes.of_opt (of_get (by decide +kernel)))⟩
  · exact ⟨(0), ([1]), (wSh (wShC [0x10E, 0, 0x400000, 64])), (8), (wShC [0x10E, 0, 0x400000, 64]), ((admission ((regRead ((wSh (wShC [0x10E, 0, 0x400000, 64])) :
      Machine.State) (((((wSh (wShC [0x10E, 0, 0x400000, 64])) : Machine.State).shelver ((0) : ShelverNo)).queue ((8) : Nat)).cmdBase.toNat + ((((wSh (wShC [0x10E, 0,
      0x400000, 64])) : Machine.State).shelver ((0) : ShelverNo)).queue ((8) : Nat)).rd % ((((wSh (wShC [0x10E, 0, 0x400000, 64])) : Machine.State).shelver ((0) :
      ShelverNo)).queue ((8) : Nat)).size * 128) 128).opt.get (by decide +kernel)).1 ((0) : ShelverNo) ((8) : Nat) ((wShC [0x10E, 0, 0x400000, 64]) : BitVec
      1024)).opt.get (by decide +kernel)).1, ((admission ((regRead ((wSh (wShC [0x10E, 0, 0x400000, 64])) : Machine.State) (((((wSh (wShC [0x10E, 0, 0x400000, 64])) :
      Machine.State).shelver ((0) : ShelverNo)).queue ((8) : Nat)).cmdBase.toNat + ((((wSh (wShC [0x10E, 0, 0x400000, 64])) : Machine.State).shelver ((0) :
      ShelverNo)).queue ((8) : Nat)).rd % ((((wSh (wShC [0x10E, 0, 0x400000, 64])) : Machine.State).shelver ((0) : ShelverNo)).queue ((8) : Nat)).size * 128) 128).opt.get
      (by decide +kernel)).1 ((0) : ShelverNo) ((8) : Nat) ((wShC [0x10E, 0, 0x400000, 64]) : BitVec 1024)).opt.get (by decide +kernel)).2, (((shDoes (shPattern ((([1]) :
      List (BitVec 34)).map (·.toNat))) (((admission ((regRead ((wSh (wShC [0x10E, 0, 0x400000, 64])) : Machine.State) (((((wSh (wShC [0x10E, 0, 0x400000, 64])) :
      Machine.State).shelver ((0) : ShelverNo)).queue ((8) : Nat)).cmdBase.toNat + ((((wSh (wShC [0x10E, 0, 0x400000, 64])) : Machine.State).shelver ((0) :
      ShelverNo)).queue ((8) : Nat)).rd % ((((wSh (wShC [0x10E, 0, 0x400000, 64])) : Machine.State).shelver ((0) : ShelverNo)).queue ((8) : Nat)).size * 128) 128).opt.get
      (by decide +kernel)).1 ((0) : ShelverNo) ((8) : Nat) ((wShC [0x10E, 0, 0x400000, 64]) : BitVec 1024)).opt.get (by decide +kernel)).1 : Machine.State) (((admission
      ((regRead ((wSh (wShC [0x10E, 0, 0x400000, 64])) : Machine.State) (((((wSh (wShC [0x10E, 0, 0x400000, 64])) : Machine.State).shelver ((0) : ShelverNo)).queue ((8) :
      Nat)).cmdBase.toNat + ((((wSh (wShC [0x10E, 0, 0x400000, 64])) : Machine.State).shelver ((0) : ShelverNo)).queue ((8) : Nat)).rd % ((((wSh (wShC [0x10E, 0,
      0x400000, 64])) : Machine.State).shelver ((0) : ShelverNo)).queue ((8) : Nat)).size * 128) 128).opt.get (by decide +kernel)).1 ((0) : ShelverNo) ((8) : Nat) ((wShC
      [0x10E, 0, 0x400000, 64]) : BitVec 1024)).opt.get (by decide +kernel)).2 : ShCx) ((wShC [0x10E, 0, 0x400000, 64]) : BitVec 1024) (shAdmitted ((wSh (wShC [0x10E, 0,
      0x400000, 64])) : Machine.State) ((0) : ShelverNo) ((8) : Nat) ((wShC [0x10E, 0, 0x400000, 64]) : BitVec 1024) (((admission ((regRead ((wSh (wShC [0x10E, 0,
      0x400000, 64])) : Machine.State) (((((wSh (wShC [0x10E, 0, 0x400000, 64])) : Machine.State).shelver ((0) : ShelverNo)).queue ((8) : Nat)).cmdBase.toNat + ((((wSh
      (wShC [0x10E, 0, 0x400000, 64])) : Machine.State).shelver ((0) : ShelverNo)).queue ((8) : Nat)).rd % ((((wSh (wShC [0x10E, 0, 0x400000, 64])) :
      Machine.State).shelver ((0) : ShelverNo)).queue ((8) : Nat)).size * 128) 128).opt.get (by decide +kernel)).1 ((0) : ShelverNo) ((8) : Nat) ((wShC [0x10E, 0,
      0x400000, 64]) : BitVec 1024)).opt.get (by decide +kernel)).2 : ShCx))).opt.get (by decide +kernel)).1), (((shDoes (shPattern ((([1]) : List (BitVec 34)).map
      (·.toNat))) (((admission ((regRead ((wSh (wShC [0x10E, 0, 0x400000, 64])) : Machine.State) (((((wSh (wShC [0x10E, 0, 0x400000, 64])) : Machine.State).shelver ((0) :
      ShelverNo)).queue ((8) : Nat)).cmdBase.toNat + ((((wSh (wShC [0x10E, 0, 0x400000, 64])) : Machine.State).shelver ((0) : ShelverNo)).queue ((8) : Nat)).rd % ((((wSh
      (wShC [0x10E, 0, 0x400000, 64])) : Machine.State).shelver ((0) : ShelverNo)).queue ((8) : Nat)).size * 128) 128).opt.get (by decide +kernel)).1 ((0) : ShelverNo)
      ((8) : Nat) ((wShC [0x10E, 0, 0x400000, 64]) : BitVec 1024)).opt.get (by decide +kernel)).1 : Machine.State) (((admission ((regRead ((wSh (wShC [0x10E, 0, 0x400000,
      64])) : Machine.State) (((((wSh (wShC [0x10E, 0, 0x400000, 64])) : Machine.State).shelver ((0) : ShelverNo)).queue ((8) : Nat)).cmdBase.toNat + ((((wSh (wShC
      [0x10E, 0, 0x400000, 64])) : Machine.State).shelver ((0) : ShelverNo)).queue ((8) : Nat)).rd % ((((wSh (wShC [0x10E, 0, 0x400000, 64])) : Machine.State).shelver
      ((0) : ShelverNo)).queue ((8) : Nat)).size * 128) 128).opt.get (by decide +kernel)).1 ((0) : ShelverNo) ((8) : Nat) ((wShC [0x10E, 0, 0x400000, 64]) : BitVec
      1024)).opt.get (by decide +kernel)).2 : ShCx) ((wShC [0x10E, 0, 0x400000, 64]) : BitVec 1024) (shAdmitted ((wSh (wShC [0x10E, 0, 0x400000, 64])) : Machine.State)
      ((0) : ShelverNo) ((8) : Nat) ((wShC [0x10E, 0, 0x400000, 64]) : BitVec 1024) (((admission ((regRead ((wSh (wShC [0x10E, 0, 0x400000, 64])) : Machine.State)
      (((((wSh (wShC [0x10E, 0, 0x400000, 64])) : Machine.State).shelver ((0) : ShelverNo)).queue ((8) : Nat)).cmdBase.toNat + ((((wSh (wShC [0x10E, 0, 0x400000, 64])) :
      Machine.State).shelver ((0) : ShelverNo)).queue ((8) : Nat)).rd % ((((wSh (wShC [0x10E, 0, 0x400000, 64])) : Machine.State).shelver ((0) : ShelverNo)).queue ((8) :
      Nat)).size * 128) 128).opt.get (by decide +kernel)).1 ((0) : ShelverNo) ((8) : Nat) ((wShC [0x10E, 0, 0x400000, 64]) : BitVec 1024)).opt.get (by decide +kernel)).2
      : ShCx))).opt.get (by decide +kernel)).2),
      (by unfold ShReady; exact ⟨by decide +kernel, by decide +kernel, by decide +kernel, by decide +kernel, _, _, Got.of_opt (of_get (by decide +kernel)), by decide +kernel, Admit.of_opt (of_get _)⟩),
      (ShRes.of_opt (of_get (by decide +kernel)))⟩
  · exact ⟨(0), (wShI), (8), (wIngest), ((admission ((regRead ((wShI) : Machine.State) (((((wShI) : Machine.State).shelver ((0) : ShelverNo)).queue ((8) : Nat)).cmdBase.toNat
      + ((((wShI) : Machine.State).shelver ((0) : ShelverNo)).queue ((8) : Nat)).rd % ((((wShI) : Machine.State).shelver ((0) : ShelverNo)).queue ((8) : Nat)).size * 128)
      128).opt.get (by decide +kernel)).1 ((0) : ShelverNo) ((8) : Nat) ((wIngest) : BitVec 1024)).opt.get (by decide +kernel)).1, ((admission ((regRead ((wShI) :
      Machine.State) (((((wShI) : Machine.State).shelver ((0) : ShelverNo)).queue ((8) : Nat)).cmdBase.toNat + ((((wShI) : Machine.State).shelver ((0) : ShelverNo)).queue
      ((8) : Nat)).rd % ((((wShI) : Machine.State).shelver ((0) : ShelverNo)).queue ((8) : Nat)).size * 128) 128).opt.get (by decide +kernel)).1 ((0) : ShelverNo) ((8) :
      Nat) ((wIngest) : BitVec 1024)).opt.get (by decide +kernel)).2, (((shDoes shIngest (((admission ((regRead ((wShI) : Machine.State) (((((wShI) :
      Machine.State).shelver ((0) : ShelverNo)).queue ((8) : Nat)).cmdBase.toNat + ((((wShI) : Machine.State).shelver ((0) : ShelverNo)).queue ((8) : Nat)).rd % ((((wShI)
      : Machine.State).shelver ((0) : ShelverNo)).queue ((8) : Nat)).size * 128) 128).opt.get (by decide +kernel)).1 ((0) : ShelverNo) ((8) : Nat) ((wIngest) : BitVec
      1024)).opt.get (by decide +kernel)).1 : Machine.State) (((admission ((regRead ((wShI) : Machine.State) (((((wShI) : Machine.State).shelver ((0) : ShelverNo)).queue
      ((8) : Nat)).cmdBase.toNat + ((((wShI) : Machine.State).shelver ((0) : ShelverNo)).queue ((8) : Nat)).rd % ((((wShI) : Machine.State).shelver ((0) :
      ShelverNo)).queue ((8) : Nat)).size * 128) 128).opt.get (by decide +kernel)).1 ((0) : ShelverNo) ((8) : Nat) ((wIngest) : BitVec 1024)).opt.get
      (by decide +kernel)).2 : ShCx) ((wIngest) : BitVec 1024) (shAdmitted ((wShI) : Machine.State) ((0) : ShelverNo) ((8) : Nat) ((wIngest) : BitVec 1024) (((admission
      ((regRead ((wShI) : Machine.State) (((((wShI) : Machine.State).shelver ((0) : ShelverNo)).queue ((8) : Nat)).cmdBase.toNat + ((((wShI) : Machine.State).shelver ((0)
      : ShelverNo)).queue ((8) : Nat)).rd % ((((wShI) : Machine.State).shelver ((0) : ShelverNo)).queue ((8) : Nat)).size * 128) 128).opt.get (by decide +kernel)).1 ((0)
      : ShelverNo) ((8) : Nat) ((wIngest) : BitVec 1024)).opt.get (by decide +kernel)).2 : ShCx))).opt.get (by decide +kernel)).1), (((shDoes shIngest (((admission
      ((regRead ((wShI) : Machine.State) (((((wShI) : Machine.State).shelver ((0) : ShelverNo)).queue ((8) : Nat)).cmdBase.toNat + ((((wShI) : Machine.State).shelver ((0)
      : ShelverNo)).queue ((8) : Nat)).rd % ((((wShI) : Machine.State).shelver ((0) : ShelverNo)).queue ((8) : Nat)).size * 128) 128).opt.get (by decide +kernel)).1 ((0)
      : ShelverNo) ((8) : Nat) ((wIngest) : BitVec 1024)).opt.get (by decide +kernel)).1 : Machine.State) (((admission ((regRead ((wShI) : Machine.State) (((((wShI) :
      Machine.State).shelver ((0) : ShelverNo)).queue ((8) : Nat)).cmdBase.toNat + ((((wShI) : Machine.State).shelver ((0) : ShelverNo)).queue ((8) : Nat)).rd % ((((wShI)
      : Machine.State).shelver ((0) : ShelverNo)).queue ((8) : Nat)).size * 128) 128).opt.get (by decide +kernel)).1 ((0) : ShelverNo) ((8) : Nat) ((wIngest) : BitVec
      1024)).opt.get (by decide +kernel)).2 : ShCx) ((wIngest) : BitVec 1024) (shAdmitted ((wShI) : Machine.State) ((0) : ShelverNo) ((8) : Nat) ((wIngest) : BitVec 1024)
      (((admission ((regRead ((wShI) : Machine.State) (((((wShI) : Machine.State).shelver ((0) : ShelverNo)).queue ((8) : Nat)).cmdBase.toNat + ((((wShI) :
      Machine.State).shelver ((0) : ShelverNo)).queue ((8) : Nat)).rd % ((((wShI) : Machine.State).shelver ((0) : ShelverNo)).queue ((8) : Nat)).size * 128) 128).opt.get
      (by decide +kernel)).1 ((0) : ShelverNo) ((8) : Nat) ((wIngest) : BitVec 1024)).opt.get (by decide +kernel)).2 : ShCx))).opt.get (by decide +kernel)).2),
      (by unfold ShReady; exact ⟨by decide +kernel, by decide +kernel, by decide +kernel, by decide +kernel, _, _, Got.of_opt (of_get (by decide +kernel)), by decide +kernel, Admit.of_opt (of_get _)⟩),
      (ShRes.of_opt (of_get (by decide +kernel)))⟩

theorem witness_ShelverRunsComplete :
    (∃ sh : ShelverNo, ∃ s : Machine.State, ∃ q : Nat, ∃ r : ShRun, (s.shelver sh).active = q ∧ q < 8 ∧ Tbl.find (s.shelver sh).runs q = some r ∧ r.chunks ≠ 0 ∧
      (s.shelver sh).resetting = false ∧ runHit s r = false) ∧
    (∃ sh : ShelverNo, ∃ s : Machine.State, ∃ q : Nat, ∃ r : ShRun, (s.shelver sh).active = q ∧ q < 8 ∧ Tbl.find (s.shelver sh).runs q = some r ∧ r.chunks ≠ 0 ∧
      (s.shelver sh).resetting = false ∧ runHit s r = true) ∧
    (∃ sh : ShelverNo, ∃ s : Machine.State, ∃ q : Nat, ∃ r : ShRun, endedQueue (s.shelver sh) = some q ∧ Tbl.find (s.shelver sh).runs q = some r ∧ ShCmd.pubOp r.word =
      0) ∧
    (∃ sh : ShelverNo, ∃ s : Machine.State, (s.shelver sh).active ≠ 15) ∧
    (∃ block : PAddr, ∃ s : Machine.State, ∃ d : Nat, direct? block.toNat = some d ∧ ((∀ i < 32, Tbl.find s.mem.msc (alignDown d 4096 / 128 + i) = none))) ∧
    (∃ block : PAddr, ∃ s : Machine.State, ∃ d : Nat, ∃ x : MscLine, direct? block.toNat = some d ∧ Tbl.find s.mem.msc (alignDown d 4096 / 128) = some x ∧ cmpMode x.cmp
      ≠ 0) := by
  refine ⟨?_, ?_, ?_, ?_, ?_, ?_⟩
  · exact ⟨(0), (wRunning wRun 0), (0), (wRun), by decide +kernel, by decide +kernel, by decide +kernel, by decide +kernel, by decide +kernel, by decide +kernel⟩
  · exact ⟨(0), ({ wRunning wRun 0 with cat := { invals := [(0, { part := 0, scope := 1, key := 0, base := 0, bytes := 0 })] } }), (0), (wRun), by decide +kernel,
      by decide +kernel, by decide +kernel, by decide +kernel, by decide +kernel, by decide +kernel⟩
  · exact ⟨(0), (wRunning { wRun with chunks := 0 } 15), (0), ({ wRun with chunks := 0 }), by decide +kernel, by decide +kernel, by decide +kernel⟩
  · exact ⟨(0), (wRunning wRun 0), by decide +kernel⟩
  · exact ⟨(0x200000), (wSt), (0x200000), by decide +kernel, by decide +kernel⟩
  · exact ⟨(0x200000), ({ wSt with mem := { msc := [(0x4000, { way := 0, cmp := 1, s0 := { valid := true, dirty := true } })] } }), (0x200000),
      ({ way := 0, cmp := 1, s0 := { valid := true, dirty := true } }), by decide +kernel, by decide +kernel, by decide +kernel⟩

theorem witness_CoherentRequestsComplete :
    (∃ agent : AgentNo, ∃ line : PAddr, ∃ s : Machine.State, ∃ l : Nat, ∃ p : Nat, coherentCheck s agent line.toNat = .ok (l, p) ∧ isL1 agent = true) ∧
    (∃ agent : AgentNo, ∃ line : PAddr, ∃ s : Machine.State, ∃ l : Nat, ∃ p : Nat, coherentCheck s agent line.toNat = .ok (l, p) ∧ isL1 agent = true) ∧
    (∃ agent : AgentNo, ∃ line : PAddr, ∃ s : Machine.State, ∃ l : Nat, ∃ p : Nat, coherentCheck s agent line.toNat = .ok (l, p) ∧ isL1 agent = false) ∧
    (∃ agent : AgentNo, ∃ line : PAddr, ∃ poison : Bool, ∃ data : BitVec 1024, ∃ s : Machine.State, ∃ l : Nat, ∃ p : Nat, ∃ x : L1Line, coherentCheck s agent line.toNat
      = .ok (l, p) ∧ isL1 agent = true ∧ l1Find s agent l = some x ∧ x.st = .m) ∧
    (∃ agent : AgentNo, ∃ line : PAddr, ∃ data : BitVec 1024, ∃ s : Machine.State, ∃ l : Nat, ∃ p : Nat, coherentCheck s agent line.toNat = .ok (l, p) ∧ isL1 agent =
      false) ∧
    (∃ agent : AgentNo, ∃ line : PAddr, ∃ s : Machine.State, ∃ l : Nat, ∃ p : Nat, coherentCheck s agent line.toNat = .ok (l, p) ∧ isL1 agent = false) ∧
    (∃ agent : AgentNo, ∃ tag : BitVec 12, ∃ addr : PAddr, ∃ op : Fin 10, ∃ operand : DWord, ∃ compare : DWord, ∃ s : Machine.State, ∃ l : Nat, ∃ p : Nat, addr.toNat %
      8 = 0 ∧ coherentCheck s agent addr.toNat = .ok (l, p) ∧ isL1 agent = true) := by
  refine ⟨?_, ?_, ?_, ?_, ?_, ?_, ?_⟩
  · exact ⟨(0), (0x200000), (wSt), (((Except.opt' (coherentCheck ((wSt) : Machine.State) ((0) : AgentNo) ((0x200000) : PAddr).toNat)).get (by decide +kernel)).1),
      (((Except.opt' (coherentCheck ((wSt) : Machine.State) ((0) : AgentNo) ((0x200000) : PAddr).toNat)).get (by decide +kernel)).2), (Except.of_opt' (of_get
      (by decide +kernel))), by decide +kernel⟩
  · exact ⟨(191), (0x200000), (wSt), (((Except.opt' (coherentCheck ((wSt) : Machine.State) ((191) : AgentNo) ((0x200000) : PAddr).toNat)).get (by decide +kernel)).1),
      (((Except.opt' (coherentCheck ((wSt) : Machine.State) ((191) : AgentNo) ((0x200000) : PAddr).toNat)).get (by decide +kernel)).2), (Except.of_opt' (of_get
      (by decide +kernel))), by decide +kernel⟩
  · exact ⟨(192), (0x200000), (wOt), (((Except.opt' (coherentCheck ((wOt) : Machine.State) ((192) : AgentNo) ((0x200000) : PAddr).toNat)).get (by decide +kernel)).1),
      (((Except.opt' (coherentCheck ((wOt) : Machine.State) ((192) : AgentNo) ((0x200000) : PAddr).toNat)).get (by decide +kernel)).2), (Except.of_opt' (of_get
      (by decide +kernel))), by decide +kernel⟩
  · exact ⟨(0), (0x200000), (false), (5), (wCore (wL1 .m 0)), (((Except.opt' (coherentCheck ((wCore (wL1 .m 0)) : Machine.State) ((0) : AgentNo) ((0x200000) :
      PAddr).toNat)).get (by decide +kernel)).1), (((Except.opt' (coherentCheck ((wCore (wL1 .m 0)) : Machine.State) ((0) : AgentNo) ((0x200000) : PAddr).toNat)).get
      (by decide +kernel)).2), ({ st := .m, data := 5 }), (Except.of_opt' (of_get (by decide +kernel))), by decide +kernel, by decide +kernel, by decide +kernel⟩
  · exact ⟨(192), (0x200000), (5), (wOt), (((Except.opt' (coherentCheck ((wOt) : Machine.State) ((192) : AgentNo) ((0x200000) : PAddr).toNat)).get (by decide +kernel)).1),
      (((Except.opt' (coherentCheck ((wOt) : Machine.State) ((192) : AgentNo) ((0x200000) : PAddr).toNat)).get (by decide +kernel)).2), (Except.of_opt' (of_get
      (by decide +kernel))), by decide +kernel⟩
  · exact ⟨(192), (0x200000), (wOt), (((Except.opt' (coherentCheck ((wOt) : Machine.State) ((192) : AgentNo) ((0x200000) : PAddr).toNat)).get (by decide +kernel)).1),
      (((Except.opt' (coherentCheck ((wOt) : Machine.State) ((192) : AgentNo) ((0x200000) : PAddr).toNat)).get (by decide +kernel)).2), (Except.of_opt' (of_get
      (by decide +kernel))), by decide +kernel⟩
  · exact ⟨(0), (0), (0x200008), (9), (1), (0), (wSt), (((Except.opt' (coherentCheck ((wSt) : Machine.State) ((0) : AgentNo) ((0x200008) : PAddr).toNat)).get
      (by decide +kernel)).1), (((Except.opt' (coherentCheck ((wSt) : Machine.State) ((0) : AgentNo) ((0x200008) : PAddr).toNat)).get (by decide +kernel)).2),
      by decide +kernel, (Except.of_opt' (of_get (by decide +kernel))), by decide +kernel⟩

theorem witness_SnoopsAndGrantsComplete :
    (∃ agent : AgentNo, ∃ line : PAddr, ∃ s : Machine.State, ∃ x : Snoop, isL1 agent = true ∧ agentLive s agent = true ∧ holdEnd s agent (lineOf line) 0 ≤ s.now ∧
      s.mem.snoops = [x] ∧ x.agent = agent.val ∧ x.line = lineOf line ∧ x.kind = 0 ∧ x.deferred = false) ∧
    (∃ agent : AgentNo, ∃ line : PAddr, ∃ s : Machine.State, ∃ x : Snoop, agentLive s agent = true ∧ s.now < holdEnd s agent (lineOf line) 1 ∧ s.mem.snoops = [x] ∧
      x.agent = agent.val ∧ x.line = lineOf line ∧ x.kind = 1 ∧ x.deferred = false) ∧
    (∃ agent : AgentNo, ∃ line : PAddr, ∃ s : Machine.State, ∃ x : Snoop, isL1 agent = true ∧ agentLive s agent = true ∧ holdEnd s agent (lineOf line) 1 ≤ s.now ∧
      s.mem.snoops = [x] ∧ x.agent = agent.val ∧ x.line = lineOf line ∧ x.kind = 1 ∧ x.deferred = false) ∧
    (∃ agent : AgentNo, ∃ line : PAddr, ∃ s : Machine.State, ∃ x : Snoop, isL1 agent = true ∧ agentLive s agent = true ∧ holdEnd s agent (lineOf line) 2 ≤ s.now ∧
      s.mem.snoops = [x] ∧ x.agent = agent.val ∧ x.line = lineOf line ∧ x.kind = 2 ∧ x.deferred = false) ∧
    (∃ agent : AgentNo, ∃ line : PAddr, ∃ state : Fin 4, ∃ poison : Bool, ∃ data : BitVec 1024, ∃ s : Machine.State, ∃ x : SnpAns, isL1 agent = true ∧ s.mem.answers =
      [x] ∧ x.agent = agent.val ∧ x.line = lineOf line) ∧
    (∃ agent : AgentNo, ∃ line : PAddr, ∃ data : BitVec 1024, ∃ s : Machine.State, isL1 agent = false) ∧
    (∃ agent : AgentNo, ∃ line : PAddr, ∃ s : Machine.State, ∃ g : Grant, isL1 agent = true ∧ s.mem.grants = [g] ∧ g.agent = agent.val ∧ g.line = lineOf line) ∧
    (∃ agent : AgentNo, ∃ line : PAddr, ∃ s : Machine.State, ∃ x : Snoop, s.mem.snoops = [x] ∧ x.agent = agent.val ∧ x.line = lineOf line ∧ x.deferred = true) ∧
    (∃ line : PAddr, ∃ s : Machine.State, ∃ t : HomeTxn, ∃ a : Nat, Tbl.find s.mem.txns (lineOf line) = some t ∧ t.await = [a] ∧ t.owner = none ∧ isL1 a = true) := by
  refine ⟨?_, ?_, ?_, ?_, ?_, ?_, ?_, ?_, ?_⟩
  · exact ⟨(0), (0x200000), (wSn 0 .m 100), (wSnp 0 false 0), by decide +kernel, by decide +kernel, by decide +kernel, by decide +kernel, by decide +kernel,
      by decide +kernel, by decide +kernel, by decide +kernel⟩
  · exact ⟨(0), (0x200000), (wSn 1 .m 101), (wSnp 1 false 0), by decide +kernel, by decide +kernel, by decide +kernel, by decide +kernel, by decide +kernel,
      by decide +kernel, by decide +kernel⟩
  · exact ⟨(0), (0x200000), (wSn 1 .m 100), (wSnp 1 false 0), by decide +kernel, by decide +kernel, by decide +kernel, by decide +kernel, by decide +kernel,
      by decide +kernel, by decide +kernel, by decide +kernel⟩
  · exact ⟨(0), (0x200000), (wSn 2 .s 200), (wSnp 2 false 0), by decide +kernel, by decide +kernel, by decide +kernel, by decide +kernel, by decide +kernel,
      by decide +kernel, by decide +kernel, by decide +kernel⟩
  · exact ⟨(0), (0x200000), (3), (false), (5), ({ wSt with mem := { answers := [{ agent := 0, line := 0x4000, st := 0 }] } }), ({ agent := 0, line := 0x4000, st := 0 }),
      by decide +kernel, by decide +kernel, by decide +kernel, by decide +kernel⟩
  · exact ⟨(255), (0x200000), (5), (wOt), by decide +kernel⟩
  · exact ⟨(0), (0x200000), ({ wSt with mem := { grants := [{ agent := 0, line := 0x4000, st := 1 }] } }), ({ agent := 0, line := 0x4000, st := 1 }), by decide +kernel,
      by decide +kernel, by decide +kernel, by decide +kernel⟩
  · exact ⟨(0), (0x200000), (wSn 0 .m 200 true), (wSnp 0 true 0), by decide +kernel, by decide +kernel, by decide +kernel, by decide +kernel⟩
  · exact ⟨(0x200000), ({ wSt with mem := { txns := [(0x4000, wTxn)] } }), (wTxn), (1), by decide +kernel, by decide +kernel, by decide +kernel, by decide +kernel⟩

theorem witness_CatalogueAndVotesComplete :
    (∃ req : Fin 1024, ∃ key : LookupKey, ∃ va : BitVec 57, ∃ acc : Access, ∃ s : Machine.State, ∃ e : CatEntry, ∃ t : Machine.State, req.val < 192 ∧ lookup s (keyOf
      key) { req := req, access := accessOf acc, va := va.toNat } = (t, some e)) ∧
    (∃ record : Fin 512, ∃ s : Machine.State, s.isolated = false) ∧
    (∃ record : Fin 512, ∃ s : Machine.State, ∃ m : MissRec, s.isolated = true ∧ Tbl.find (settlePoint1 s).cat.misses record = some m ∧ missHeld (settlePoint1 s) m =
      false ∧ keyRoot (settlePoint1 s) m.key = none) ∧
    (∃ s : Machine.State, ∃ t : Nat, ∃ p : Packet, ∃ u : Machine.State, ∃ r : Round, takeConc s 1 = some (t, p, u) ∧ Tbl.find u.vols.rounds (Conc.handle p) = some r ∧
      r.epoch = Conc.epoch p) ∧
    (∃ s : Machine.State, ∃ t : Nat, ∃ p : Packet, ∃ u : Machine.State, ∃ r : Round, takeConc s 2 = some (t, p, u) ∧ Tbl.find u.vols.rounds (Conc.handle p) = some r ∧
      r.epoch = Conc.epoch p ∧ r.prepare = none) ∧
    (∃ s : Machine.State, ∃ t : Nat, ∃ p : Packet, ∃ u : Machine.State, ∃ r : Round, ∃ n : Nat, ∃ g : BitVec 512, ∃ dl : Nat, takeConc s 3 = some (t, p, u) ∧ Tbl.find
      u.vols.rounds (Conc.handle p) = some r ∧ r.epoch = Conc.epoch p ∧ r.prepare = some (n, g, dl) ∧ t ≤ dl) ∧
    (∃ s : Machine.State, ∃ t : Nat, ∃ p : Packet, ∃ u : Machine.State, ∃ r : Round, ∃ n : Nat, ∃ g : BitVec 512, ∃ dl : Nat, takeConc s 3 = some (t, p, u) ∧ Tbl.find
      u.vols.rounds (Conc.handle p) = some r ∧ r.prepare = some (n, g, dl) ∧ dl < t) := by
  refine ⟨?_, ?_, ?_, ?_, ?_, ?_, ?_⟩
  · exact ⟨0, .ctx 0 0, 0x1000, .atomic, wHit, by
    have h : (lookup wHit (keyOf (.ctx 0 0)) ⟨0, 0, accessOf .atomic, 0x1000⟩).2.isSome = true := by decide +kernel
    exact ⟨_, _, by decide, Prod.ext rfl (of_get h)⟩⟩
  · exact ⟨(0), (wSt), by decide +kernel⟩
  · exact ⟨(511), ({ wSt with pwr := { ctrl := 2 }, cat := { misses := [(511, { key := 5, part := 0, va := 0 })] } }), (((Tbl.find (settlePoint1
      (({ wSt with pwr := { ctrl := 2 }, cat := { misses := [(511, { key := 5, part := 0, va := 0 })] } }) : Machine.State)).cat.misses ((511) : Fin 512)).get
      (by decide +kernel))), by decide +kernel, (of_get (by decide +kernel)), by decide +kernel, by decide +kernel⟩
  · exact ⟨(wConc 1 9 (wVol .steady) wRound), (((takeConc ((wConc 1 9 (wVol .steady) wRound) : Machine.State) 1).get (by decide +kernel)).1), (((takeConc ((wConc 1 9 (wVol
      .steady) wRound) : Machine.State) 1).get (by decide +kernel)).2.1), (((takeConc ((wConc 1 9 (wVol .steady) wRound) : Machine.State) 1).get
      (by decide +kernel)).2.2), (((Tbl.find ((((takeConc ((wConc 1 9 (wVol .steady) wRound) : Machine.State) 1).get (by decide +kernel)).2.2) :
      Machine.State).vols.rounds (Conc.handle ((((takeConc ((wConc 1 9 (wVol .steady) wRound) : Machine.State) 1).get (by decide +kernel)).2.1) : Packet))).get
      (by decide +kernel))), (of_get (by decide +kernel)), (of_get (by decide +kernel)), by decide +kernel⟩
  · exact ⟨(wConc 2 9 (wVol .steady) wRound), (((takeConc ((wConc 2 9 (wVol .steady) wRound) : Machine.State) 2).get (by decide +kernel)).1), (((takeConc ((wConc 2 9 (wVol
      .steady) wRound) : Machine.State) 2).get (by decide +kernel)).2.1), (((takeConc ((wConc 2 9 (wVol .steady) wRound) : Machine.State) 2).get
      (by decide +kernel)).2.2), (((Tbl.find ((((takeConc ((wConc 2 9 (wVol .steady) wRound) : Machine.State) 2).get (by decide +kernel)).2.2) :
      Machine.State).vols.rounds (Conc.handle ((((takeConc ((wConc 2 9 (wVol .steady) wRound) : Machine.State) 2).get (by decide +kernel)).2.1) : Packet))).get
      (by decide +kernel))), (of_get (by decide +kernel)), (of_get (by decide +kernel)), by decide +kernel, by decide +kernel⟩
  · exact ⟨(wConc 3 9 (wVol .steady) { wRound with prepare := some (1, 0, 9) }), (((takeConc ((wConc 3 9 (wVol .steady) { wRound with prepare := some (1, 0, 9) }) :
      Machine.State) 3).get (by decide +kernel)).1), (((takeConc ((wConc 3 9 (wVol .steady) { wRound with prepare := some (1, 0, 9) }) : Machine.State) 3).get
      (by decide +kernel)).2.1), (((takeConc ((wConc 3 9 (wVol .steady) { wRound with prepare := some (1, 0, 9) }) : Machine.State) 3).get (by decide +kernel)).2.2),
      (((Tbl.find ((((takeConc ((wConc 3 9 (wVol .steady) { wRound with prepare := some (1, 0, 9) }) : Machine.State) 3).get (by decide +kernel)).2.2) :
      Machine.State).vols.rounds (Conc.handle ((((takeConc ((wConc 3 9 (wVol .steady) { wRound with prepare := some (1, 0, 9) }) : Machine.State) 3).get
      (by decide +kernel)).2.1) : Packet))).get (by decide +kernel))), (((((((Tbl.find ((((takeConc ((wConc 3 9 (wVol .steady) { wRound with prepare := some (1, 0, 9) })
      : Machine.State) 3).get (by decide +kernel)).2.2) : Machine.State).vols.rounds (Conc.handle ((((takeConc ((wConc 3 9 (wVol .steady)
      { wRound with prepare := some (1, 0, 9) }) : Machine.State) 3).get (by decide +kernel)).2.1) : Packet))).get (by decide +kernel))) : Round).prepare).get
      (by decide +kernel)).1), (((((((Tbl.find ((((takeConc ((wConc 3 9 (wVol .steady) { wRound with prepare := some (1, 0, 9) }) : Machine.State) 3).get
      (by decide +kernel)).2.2) : Machine.State).vols.rounds (Conc.handle ((((takeConc ((wConc 3 9 (wVol .steady) { wRound with prepare := some (1, 0, 9) }) :
      Machine.State) 3).get (by decide +kernel)).2.1) : Packet))).get (by decide +kernel))) : Round).prepare).get (by decide +kernel)).2.1), (((((((Tbl.find ((((takeConc
      ((wConc 3 9 (wVol .steady) { wRound with prepare := some (1, 0, 9) }) : Machine.State) 3).get (by decide +kernel)).2.2) : Machine.State).vols.rounds (Conc.handle
      ((((takeConc ((wConc 3 9 (wVol .steady) { wRound with prepare := some (1, 0, 9) }) : Machine.State) 3).get (by decide +kernel)).2.1) : Packet))).get
      (by decide +kernel))) : Round).prepare).get (by decide +kernel)).2.2), (of_get (by decide +kernel)), (of_get (by decide +kernel)), by decide +kernel, (of_get
      (by decide +kernel)), by decide +kernel⟩
  · exact ⟨(wConc 3 10 (wVol .steady) { wRound with prepare := some (1, 0, 9) }), (((takeConc ((wConc 3 10 (wVol .steady) { wRound with prepare := some (1, 0, 9) }) :
      Machine.State) 3).get (by decide +kernel)).1), (((takeConc ((wConc 3 10 (wVol .steady) { wRound with prepare := some (1, 0, 9) }) : Machine.State) 3).get
      (by decide +kernel)).2.1), (((takeConc ((wConc 3 10 (wVol .steady) { wRound with prepare := some (1, 0, 9) }) : Machine.State) 3).get (by decide +kernel)).2.2),
      (((Tbl.find ((((takeConc ((wConc 3 10 (wVol .steady) { wRound with prepare := some (1, 0, 9) }) : Machine.State) 3).get (by decide +kernel)).2.2) :
      Machine.State).vols.rounds (Conc.handle ((((takeConc ((wConc 3 10 (wVol .steady) { wRound with prepare := some (1, 0, 9) }) : Machine.State) 3).get
      (by decide +kernel)).2.1) : Packet))).get (by decide +kernel))), (((((((Tbl.find ((((takeConc ((wConc 3 10 (wVol .steady) { wRound with prepare := some (1, 0, 9) })
      : Machine.State) 3).get (by decide +kernel)).2.2) : Machine.State).vols.rounds (Conc.handle ((((takeConc ((wConc 3 10 (wVol .steady)
      { wRound with prepare := some (1, 0, 9) }) : Machine.State) 3).get (by decide +kernel)).2.1) : Packet))).get (by decide +kernel))) : Round).prepare).get
      (by decide +kernel)).1), (((((((Tbl.find ((((takeConc ((wConc 3 10 (wVol .steady) { wRound with prepare := some (1, 0, 9) }) : Machine.State) 3).get
      (by decide +kernel)).2.2) : Machine.State).vols.rounds (Conc.handle ((((takeConc ((wConc 3 10 (wVol .steady) { wRound with prepare := some (1, 0, 9) }) :
      Machine.State) 3).get (by decide +kernel)).2.1) : Packet))).get (by decide +kernel))) : Round).prepare).get (by decide +kernel)).2.1), (((((((Tbl.find ((((takeConc
      ((wConc 3 10 (wVol .steady) { wRound with prepare := some (1, 0, 9) }) : Machine.State) 3).get (by decide +kernel)).2.2) : Machine.State).vols.rounds (Conc.handle
      ((((takeConc ((wConc 3 10 (wVol .steady) { wRound with prepare := some (1, 0, 9) }) : Machine.State) 3).get (by decide +kernel)).2.1) : Packet))).get
      (by decide +kernel))) : Round).prepare).get (by decide +kernel)).2.2), (of_get (by decide +kernel)), (of_get (by decide +kernel)), (of_get (by decide +kernel)),
      by decide +kernel⟩

theorem witness_ConcordanceComplete :
    (∃ s : Machine.State, ∃ t : Nat, ∃ p : Packet, ∃ u : Machine.State, ∃ v : Volume, ∃ m : VolMap, ∃ r : Round, takeConc s 4 = some (t, p, u) ∧ Tbl.find u.vols.vols
      (Conc.handle p) = some v ∧ v.st = .prepared ∧ v.next = some m ∧ m.epoch = Conc.epoch p ∧ Tbl.find u.vols.rounds (Conc.handle p) = some r) ∧
    (∃ s : Machine.State, ∃ t : Nat, ∃ p : Packet, ∃ u : Machine.State, ∃ r : Round, takeConc s 5 = some (t, p, u) ∧ Tbl.find u.vols.rounds (Conc.handle p) = some r ∧
      r.epoch = Conc.epoch p) ∧
    (∃ s : Machine.State, ∃ t : Nat, ∃ p : Packet, ∃ u : Machine.State, ∃ v : Volume, takeConc s 6 = some (t, p, u) ∧ Tbl.find u.vols.vols (Conc.handle p) = some v) ∧
    (∃ s : Machine.State, ∃ t : Nat, ∃ p : Packet, ∃ u : Machine.State, ∃ v : Volume, takeConc s 7 = some (t, p, u) ∧ Tbl.find u.vols.vols (Conc.handle p) = some v) ∧
    (∃ s : Machine.State, ∃ t : Nat, ∃ p : Packet, ∃ u : Machine.State, ∃ r : Round, ∃ got : List (Nat × Nat × Nat), takeConc s 8 = some (t, p, u) ∧ Tbl.find
      u.vols.rounds (Conc.handle p) = some r ∧ r.recover = some got) ∧
    (∃ handle : Word, ∃ s : Machine.State, ∃ r : Round, ∃ n : Nat, ∃ g : BitVec 512, ∃ dl : Nat, ∃ own : Nat, Tbl.find s.vols.rounds handle.toNat = some r ∧ r.prepare =
      some (n, g, dl) ∧ r.own = some own ∧ r.recover = none ∧ r.cmd.isSome = true) ∧
    (∃ handle : Word, ∃ s : Machine.State, ∃ v : Volume, Tbl.find s.vols.vols handle.toNat = some v ∧ v.st = .switching) ∧
    (∃ handle : Word, ∃ s : Machine.State, ∃ v : Volume, ∃ m : VolMap, Tbl.find s.vols.vols handle.toNat = some v ∧ v.prev = some m) ∧
    (∃ handle : Word, ∃ s : Machine.State, ∃ r : Round, ∃ v : Volume, Tbl.find s.vols.rounds handle.toNat = some r ∧ Tbl.find s.vols.vols handle.toNat = some v ∧
      r.recover = some [] ∧ r.cmd = none ∧ v.st = .prepared ∧ v.next = none ∧ v.cur = none) := by
  refine ⟨?_, ?_, ?_, ?_, ?_, ?_, ?_, ?_, ?_⟩
  · exact ⟨(wConc 4 9 (wVol .prepared) wRound), (((takeConc ((wConc 4 9 (wVol .prepared) wRound) : Machine.State) 4).get (by decide +kernel)).1), (((takeConc ((wConc 4 9
      (wVol .prepared) wRound) : Machine.State) 4).get (by decide +kernel)).2.1), (((takeConc ((wConc 4 9 (wVol .prepared) wRound) : Machine.State) 4).get
      (by decide +kernel)).2.2), (((Tbl.find ((((takeConc ((wConc 4 9 (wVol .prepared) wRound) : Machine.State) 4).get (by decide +kernel)).2.2) :
      Machine.State).vols.vols (Conc.handle ((((takeConc ((wConc 4 9 (wVol .prepared) wRound) : Machine.State) 4).get (by decide +kernel)).2.1) : Packet))).get
      (by decide +kernel))), (((((((Tbl.find ((((takeConc ((wConc 4 9 (wVol .prepared) wRound) : Machine.State) 4).get (by decide +kernel)).2.2) :
      Machine.State).vols.vols (Conc.handle ((((takeConc ((wConc 4 9 (wVol .prepared) wRound) : Machine.State) 4).get (by decide +kernel)).2.1) : Packet))).get
      (by decide +kernel))) : Volume).next).get (by decide +kernel))), (((Tbl.find ((((takeConc ((wConc 4 9 (wVol .prepared) wRound) : Machine.State) 4).get
      (by decide +kernel)).2.2) : Machine.State).vols.rounds (Conc.handle ((((takeConc ((wConc 4 9 (wVol .prepared) wRound) : Machine.State) 4).get
      (by decide +kernel)).2.1) : Packet))).get (by decide +kernel))), (of_get (by decide +kernel)), (of_get (by decide +kernel)), by decide +kernel, (of_get
      (by decide +kernel)), by decide +kernel, (of_get (by decide +kernel))⟩
  · exact ⟨(wConc 5 9 (wVol .prepared) wRound), (((takeConc ((wConc 5 9 (wVol .prepared) wRound) : Machine.State) 5).get (by decide +kernel)).1), (((takeConc ((wConc 5 9
      (wVol .prepared) wRound) : Machine.State) 5).get (by decide +kernel)).2.1), (((takeConc ((wConc 5 9 (wVol .prepared) wRound) : Machine.State) 5).get
      (by decide +kernel)).2.2), (((Tbl.find ((((takeConc ((wConc 5 9 (wVol .prepared) wRound) : Machine.State) 5).get (by decide +kernel)).2.2) :
      Machine.State).vols.rounds (Conc.handle ((((takeConc ((wConc 5 9 (wVol .prepared) wRound) : Machine.State) 5).get (by decide +kernel)).2.1) : Packet))).get
      (by decide +kernel))), (of_get (by decide +kernel)), (of_get (by decide +kernel)), by decide +kernel⟩
  · exact ⟨(wConc 6 9 (wVol .steady) wRound), (((takeConc ((wConc 6 9 (wVol .steady) wRound) : Machine.State) 6).get (by decide +kernel)).1), (((takeConc ((wConc 6 9 (wVol
      .steady) wRound) : Machine.State) 6).get (by decide +kernel)).2.1), (((takeConc ((wConc 6 9 (wVol .steady) wRound) : Machine.State) 6).get
      (by decide +kernel)).2.2), (((Tbl.find ((((takeConc ((wConc 6 9 (wVol .steady) wRound) : Machine.State) 6).get (by decide +kernel)).2.2) : Machine.State).vols.vols
      (Conc.handle ((((takeConc ((wConc 6 9 (wVol .steady) wRound) : Machine.State) 6).get (by decide +kernel)).2.1) : Packet))).get (by decide +kernel))), (of_get
      (by decide +kernel)), (of_get (by decide +kernel))⟩
  · exact ⟨(wConc 7 9 (wVol .steady) wRound), (((takeConc ((wConc 7 9 (wVol .steady) wRound) : Machine.State) 7).get (by decide +kernel)).1), (((takeConc ((wConc 7 9 (wVol
      .steady) wRound) : Machine.State) 7).get (by decide +kernel)).2.1), (((takeConc ((wConc 7 9 (wVol .steady) wRound) : Machine.State) 7).get
      (by decide +kernel)).2.2), (((Tbl.find ((((takeConc ((wConc 7 9 (wVol .steady) wRound) : Machine.State) 7).get (by decide +kernel)).2.2) : Machine.State).vols.vols
      (Conc.handle ((((takeConc ((wConc 7 9 (wVol .steady) wRound) : Machine.State) 7).get (by decide +kernel)).2.1) : Packet))).get (by decide +kernel))), (of_get
      (by decide +kernel)), (of_get (by decide +kernel))⟩
  · exact ⟨(wConc 8 9 (wVol .steady) { wRound with recover := some [] }), (((takeConc ((wConc 8 9 (wVol .steady) { wRound with recover := some [] }) : Machine.State) 8).get
      (by decide +kernel)).1), (((takeConc ((wConc 8 9 (wVol .steady) { wRound with recover := some [] }) : Machine.State) 8).get (by decide +kernel)).2.1), (((takeConc
      ((wConc 8 9 (wVol .steady) { wRound with recover := some [] }) : Machine.State) 8).get (by decide +kernel)).2.2), (((Tbl.find ((((takeConc ((wConc 8 9 (wVol
      .steady) { wRound with recover := some [] }) : Machine.State) 8).get (by decide +kernel)).2.2) : Machine.State).vols.rounds (Conc.handle ((((takeConc ((wConc 8 9
      (wVol .steady) { wRound with recover := some [] }) : Machine.State) 8).get (by decide +kernel)).2.1) : Packet))).get (by decide +kernel))), (((((((Tbl.find
      ((((takeConc ((wConc 8 9 (wVol .steady) { wRound with recover := some [] }) : Machine.State) 8).get (by decide +kernel)).2.2) : Machine.State).vols.rounds
      (Conc.handle ((((takeConc ((wConc 8 9 (wVol .steady) { wRound with recover := some [] }) : Machine.State) 8).get (by decide +kernel)).2.1) : Packet))).get
      (by decide +kernel))) : Round).recover).get (by decide +kernel))), (of_get (by decide +kernel)), (of_get (by decide +kernel)), (of_get (by decide +kernel))⟩
  · exact ⟨(1), (wVols (wVol .steady) { wRound with prepare := some (1, 0, 9), own := some 0, cmd := some (0, 0) }), (((Tbl.find ((wVols (wVol .steady)
      { wRound with prepare := some (1, 0, 9), own := some 0, cmd := some (0, 0) }) : Machine.State).vols.rounds ((1) : Word).toNat).get (by decide +kernel))),
      (((((((Tbl.find ((wVols (wVol .steady) { wRound with prepare := some (1, 0, 9), own := some 0, cmd := some (0, 0) }) : Machine.State).vols.rounds ((1) :
      Word).toNat).get (by decide +kernel))) : Round).prepare).get (by decide +kernel)).1), (((((((Tbl.find ((wVols (wVol .steady)
      { wRound with prepare := some (1, 0, 9), own := some 0, cmd := some (0, 0) }) : Machine.State).vols.rounds ((1) : Word).toNat).get (by decide +kernel))) :
      Round).prepare).get (by decide +kernel)).2.1), (((((((Tbl.find ((wVols (wVol .steady) { wRound with prepare := some (1, 0, 9), own := some 0, cmd := some (0, 0) })
      : Machine.State).vols.rounds ((1) : Word).toNat).get (by decide +kernel))) : Round).prepare).get (by decide +kernel)).2.2), (((((((Tbl.find ((wVols (wVol .steady)
      { wRound with prepare := some (1, 0, 9), own := some 0, cmd := some (0, 0) }) : Machine.State).vols.rounds ((1) : Word).toNat).get (by decide +kernel))) :
      Round).own).get (by decide +kernel))), (of_get (by decide +kernel)), (of_get (by decide +kernel)), (of_get (by decide +kernel)), by decide +kernel,
      by decide +kernel⟩
  · exact ⟨(1), (wVols (wVol .switching) wRound), (((Tbl.find ((wVols (wVol .switching) wRound) : Machine.State).vols.vols ((1) : Word).toNat).get (by decide +kernel))),
      (of_get (by decide +kernel)), by decide +kernel⟩
  · exact ⟨(1), (wVols { wVol .steady with prev := some (wMap 1) } wRound), (((Tbl.find ((wVols { wVol .steady with prev := some (wMap 1) } wRound) : Machine.State).vols.vols
      ((1) : Word).toNat).get (by decide +kernel))), (((((((Tbl.find ((wVols { wVol .steady with prev := some (wMap 1) } wRound) : Machine.State).vols.vols ((1) :
      Word).toNat).get (by decide +kernel))) : Volume).prev).get (by decide +kernel))), (of_get (by decide +kernel)), (of_get (by decide +kernel))⟩
  · exact ⟨(1), (wVols { st := .prepared } { wRound with recover := some [] }), (((Tbl.find ((wVols { st := .prepared } { wRound with recover := some [] }) :
      Machine.State).vols.rounds ((1) : Word).toNat).get (by decide +kernel))), (((Tbl.find ((wVols { st := .prepared } { wRound with recover := some [] }) :
      Machine.State).vols.vols ((1) : Word).toNat).get (by decide +kernel))), (of_get (by decide +kernel)), (of_get (by decide +kernel)), by decide +kernel,
      by decide +kernel, by decide +kernel, by decide +kernel, by decide +kernel⟩

theorem witness_LinkStatesComplete :
    (∃ port : LinkNo, ∃ s : Machine.State, linkIn s port 1) ∧
    (∃ port : LinkNo, ∃ bad : BitVec 8, ∃ s : Machine.State, linkIn s port 1 ∧ port.val < 24 ∧ bad.toNat % 16 ≠ 0) ∧
    (∃ port : LinkNo, ∃ s : Machine.State, linkIn s port 2) ∧
    (∃ port : LinkNo, ∃ peer : PeerInfo, ∃ s : Machine.State, ∃ q : Nat, ∃ m : Nat, linkIn s port 3 ∧ port.val < 24 ∧ bondOf s port = (q, m) ∧ peer.verified = false) ∧
    (∃ port : LinkNo, ∃ peer : PeerInfo, ∃ s : Machine.State, linkIn s port 3 ∧ port.val < 24 ∧ bondOf s port = (port.val, 1) ∧ peer.verified = true ∧ peer.bondSize = 1
      ∧ peer.members.map (·.val) = [port.val]) ∧
    (∃ port : LinkNo, ∃ s : Machine.State, linkIn s port 2) ∧
    (∃ port : Fin 2, ∃ s : Machine.State, linkIn s (24 + port.val) 5) ∧
    (∃ port : LinkNo, ∃ s : Machine.State, linkIn s port 4) ∧
    (∃ port : LinkNo, ∃ s : Machine.State, linkIn s port 4) ∧
    (∃ port : LinkNo, ∃ s : Machine.State, linkIn s port 4) ∧
    (∃ port : LinkNo, ∃ s : Machine.State, linkIn s port 4) := by
  refine ⟨?_, ?_, ?_, ?_, ?_, ?_, ?_, ?_, ?_, ?_, ?_⟩
  · exact ⟨(25), (wLink 1 25), (by unfold linkIn; decide +kernel)⟩
  · exact ⟨(23), (0x8), (wLink 1 23), (by unfold linkIn; decide +kernel), by decide +kernel, by decide +kernel⟩
  · exact ⟨(0), (wLink 2 0), (by unfold linkIn; decide +kernel)⟩
  · exact ⟨(0), (wPeer false), (wLink 3 0), (bondOf ((wLink 3 0) : Machine.State) ((0) : LinkNo)).1, (bondOf ((wLink 3 0) : Machine.State) ((0) : LinkNo)).2,
      (by unfold linkIn; decide +kernel), by decide +kernel, rfl, by decide +kernel⟩
  · exact ⟨(0), (wPeer true), (wLink 3 0), (by unfold linkIn; decide +kernel), by decide +kernel, by decide +kernel, by decide +kernel, by decide +kernel, by decide +kernel⟩
  · exact ⟨(0), (wLink 2 0), (by unfold linkIn; decide +kernel)⟩
  · exact ⟨(1), (wLink 5 25), (by unfold linkIn; decide +kernel)⟩
  · exact ⟨(0), (wLink 4 0), (by unfold linkIn; decide +kernel)⟩
  · exact ⟨(23), (wLink 4 23), (by unfold linkIn; decide +kernel)⟩
  · exact ⟨(24), (wLink 4 24), (by unfold linkIn; decide +kernel)⟩
  · exact ⟨(25), (wLink 4 25), (by unfold linkIn; decide +kernel)⟩

theorem witness_FlitsComplete :
    (∃ port : LinkNo, ∃ flit : BitVec 2048, ∃ s : Machine.State, linkIn s port 4 ∧ flitType flit = 1 ∧ flitCrcOk flit = false) ∧
    (∃ port : LinkNo, ∃ flit : BitVec 2048, ∃ s : Machine.State, ∃ l : Link, linkIn s port 4 ∧ flitType flit = 1 ∧ flitCrcOk flit = true ∧ linkOf (applyAck (modLink s
      port (fun l => { l with lastFlit := s.now })) port flit) port = l ∧ l.state = 4 ∧ flitSeq flit = l.rxSeq ∧ flitLast flit = false) ∧
    (∃ port : LinkNo, ∃ flit : BitVec 2048, ∃ s : Machine.State, ∃ l : Link, linkIn s port 4 ∧ flitType flit = 2 ∧ flitCrcOk flit = true ∧ linkOf (applyAck (modLink s
      port (fun l => { l with lastFlit := s.now })) port flit) port = l ∧ l.state = 4 ∧ flitSeq flit = l.rxSeq ∧ flitLast flit = false) ∧
    (∃ port : LinkNo, ∃ flit : BitVec 2048, ∃ s : Machine.State, linkIn s port 4 ∧ flitType flit = 0 ∧ flitCrcOk flit = true) ∧
    (∃ port : LinkNo, ∃ flit : BitVec 2048, ∃ s : Machine.State, ∃ u : Machine.State, ∃ bs : List Byte, takeFlit s port 3 flit = (u, some bs) ∧ port.val < 24) ∧
    (∃ port : LinkNo, ∃ flit : BitVec 2048, ∃ s : Machine.State, ∃ u : Machine.State, ∃ bs : List Byte, takeFlit s port 3 flit = (u, some bs) ∧ 24 ≤ port.val) ∧
    (∃ port : FabricPort, ∃ s : Machine.State, portUp s (leaderOf s port) = true ∧ (s.pwr.link (leaderOf s port)).sentAt = 0) ∧
    (∃ port : LinkNo, ∃ fec : Bool, ∃ s : Machine.State, linkIn s port 4) := by
  refine ⟨?_, ?_, ?_, ?_, ?_, ?_, ?_, ?_⟩
  · exact ⟨(0), (mkFlit 0x1000000 (List.replicate 248 0#8) 1), (wLink 4 0), (by unfold linkIn; decide +kernel), (mkFlit_fld List.length_replicate _ 1 24 3 (by decide)).trans
      (by decide), mkFlit_crcBad List.length_replicate _⟩
  · exact ⟨(0), (wFlit 1), (wLink 4 0), ({ state := 4 }), (by unfold linkIn; decide +kernel), wFlit_type 1, wFlit_crc 1, (congrArg (fun t => linkOf t 0) (wFlit_ack _ 0
      1)).trans (by decide +kernel), by decide +kernel, wFlit_seq 1, wFlit_last 1⟩
  · exact ⟨(0), (wFlit 2), (wLink 4 0), ({ state := 4 }), (by unfold linkIn; decide +kernel), wFlit_type 2, wFlit_crc 2, (congrArg (fun t => linkOf t 0) (wFlit_ack _ 0
      2)).trans (by decide +kernel), by decide +kernel, wFlit_seq 2, wFlit_last 2⟩
  · exact ⟨(0), (wFlit 0), (wLink 4 0), (by unfold linkIn; decide +kernel), wFlit_type 0, wFlit_crc 0⟩
  · exact ⟨0, wTime, wLink 4 0, (wTime_taken (wLink 4 0) 0 (by decide +kernel) (by decide +kernel) (by decide +kernel)).imp (fun u h => h.imp (fun bs h => ⟨h, by decide⟩))⟩
  · exact ⟨24, wTime, wLink 4 24, (wTime_taken (wLink 4 24) 24 (by decide +kernel) (by decide +kernel) (by decide +kernel)).imp (fun u h => h.imp (fun bs h => ⟨h,
      by decide⟩))⟩
  · exact ⟨(0), (wLink 4 0), by decide +kernel, by decide +kernel⟩
  · exact ⟨(0), (true), (wLink 4 0), (by unfold linkIn; decide +kernel)⟩

theorem witness_FabricRequestsComplete :
    (∃ port : FabricPort, ∃ pkt : Packet, ∃ s : Machine.State, ∃ u : Machine.State, ∃ m : VolMap, ∃ t : Machine.State, ∃ st : Nat, ∃ data : List Byte, ReqReady s .rd
      port pkt u m ∧ windowRequest u .rd port m pkt = .ok t (st, data)) ∧
    (∃ port : FabricPort, ∃ pkt : Packet, ∃ s : Machine.State, ∃ u : Machine.State, ∃ m : VolMap, ∃ t : Machine.State, ∃ st : Nat, ∃ data : List Byte, ReqReady s .wr
      port pkt u m ∧ windowRequest u .wr port m pkt = .ok t (st, data)) ∧
    (∃ port : FabricPort, ∃ pkt : Packet, ∃ s : Machine.State, ∃ u : Machine.State, ∃ m : VolMap, ∃ t : Machine.State, ∃ st : Nat, ∃ data : List Byte, ReqReady s
      .atomic port pkt u m ∧ windowRequest u .atomic port m pkt = .ok t (st, data)) ∧
    (∃ port : FabricPort, ∃ pkt : Packet, ∃ s : Machine.State, portUp s port = true ∧ Pk.dst pkt.hdr ≠ s.fab.deviceId) ∧
    (∃ port : FabricPort, ∃ pkt : Packet, ∃ s : Machine.State, ∃ r : FabReq, RespReady s 1 port pkt r ∧ closingBay (tagDone s pkt r) r.who = none ∧ s.now ≤ r.deadline ∧
      Pk.status pkt.hdr = 0) ∧
    (∃ port : FabricPort, ∃ pkt : Packet, ∃ s : Machine.State, ∃ r : FabReq, RespReady s 3 port pkt r ∧ closingBay (tagDone s pkt r) r.who = none ∧ s.now ≤ r.deadline ∧
      Pk.status pkt.hdr ≠ 0) ∧
    (∃ port : FabricPort, ∃ pkt : Packet, ∃ s : Machine.State, ∃ r : FabReq, RespReady s 5 port pkt r ∧ closingBay (tagDone s pkt r) r.who = none ∧ r.deadline < s.now)
      ∧
    (∃ tag : BitVec 16, ∃ s : Machine.State, ∃ r : FabReq, Tbl.find s.fab.tags tag.toNat = some r) ∧
    (∃ s : Machine.State, ∃ r : FabReq, ∃ rest : List FabReq, s.fab.stalled = r :: rest ∧ r.deadline < s.now) ∧
    (∃ s : Machine.State, ∃ r : FabReq, ∃ rest : List FabReq, s.fab.stalled = r :: rest ∧ s.now ≤ r.deadline ∧ tagFree s (requestPort s (Pk.dst r.pkt.hdr)) = true) := by
  refine ⟨?_, ?_, ?_, ?_, ?_, ?_, ?_, ?_, ?_, ?_⟩
  · have hr : ReqReady (wFab id) .rd 0 (wPkt 0x3FF8 5 0 8 0 []) (wFab id) wMap2 := ⟨by decide +kernel, by decide +kernel, by decide +kernel, by decide +kernel, by decide +kernel, by decide +kernel, by decide +kernel⟩
    obtain ⟨t, st, data, h⟩ := Got.of_opt2 (x := windowRequest (wFab id) .rd (0 : FabricPort) wMap2 (wPkt 0x3FF8 5 0 8 0 [])) (by decide +kernel)
    exact ⟨0, _, _, _, _, t, st, data, hr, h⟩
  · have hr : ReqReady (wFab id) .wr 0 (wPkt 0x3FF8 5 2 64 0 (bytesLE 64 5)) (wFab id) wMap2 := ⟨by decide +kernel, by decide +kernel, by decide +kernel, by decide +kernel, by decide +kernel, by decide +kernel, by decide +kernel⟩
    obtain ⟨t, st, data, h⟩ := Got.of_opt2 (x := windowRequest (wFab id) .wr (0 : FabricPort) wMap2 (wPkt 0x3FF8 5 2 64 0 (bytesLE 64 5))) (by decide +kernel)
    exact ⟨0, _, _, _, _, t, st, data, hr, h⟩
  · have hr : ReqReady (wFab id) .atomic 0 (wPkt 0x3FF8 5 4 16 0 (bytesLE 8 0 ++ bytesLE 8 5)) (wFab id) wMap2 := ⟨by decide +kernel, by decide +kernel, by decide +kernel, by decide +kernel, by decide +kernel, by decide +kernel, by decide +kernel⟩
    obtain ⟨t, st, data, h⟩ := Got.of_opt2 (x := windowRequest (wFab id) .atomic (0 : FabricPort) wMap2 (wPkt 0x3FF8 5 4 16 0 (bytesLE 8 0 ++ bytesLE 8 5))) (by decide +kernel)
    exact ⟨0, _, _, _, _, t, st, data, hr, h⟩
  · exact ⟨(0), (wPkt 6 5 0 8 0 []), (wFab id), by decide +kernel, by decide +kernel⟩
  · exact ⟨(0), (wPkt 0x3FF8 5 1 8 0 (bytesLE 8 5)), (wTagged 0 8 [] 1000000), ({ wFabReq with pkt := wPkt 5 0x3FF8 0 8 0 [] }), (by unfold RespReady; decide +kernel),
      by decide +kernel, by decide +kernel, by decide +kernel⟩
  · exact ⟨(0), (wPkt 0x3FF8 5 3 0 2 []), (wTagged 2 8 (bytesLE 8 5) 0), ({ wFabReq with pkt := wPkt 5 0x3FF8 2 8 0 (bytesLE 8 5) }), (by unfold RespReady; decide +kernel),
      by decide +kernel, by decide +kernel, by decide +kernel⟩
  · exact ⟨(0), (wPkt 0x3FF8 5 5 8 0 (bytesLE 8 5)), (wTagged 4 24 (bytesLE 24 0) 1000001), ({ wFabReq with pkt := wPkt 5 0x3FF8 4 24 0 (bytesLE 24 0) }),
      (by unfold RespReady; decide +kernel), by decide +kernel, by decide +kernel⟩
  · exact ⟨(0), (wTagged 0 8 [] 0), (((Tbl.find ((wTagged 0 8 [] 0) : Machine.State).fab.tags ((0) : BitVec 16).toNat).get (by decide +kernel))), (of_get
      (by decide +kernel))⟩
  · exact ⟨({ wFab (fun f => { f with stalled := [wFabReq] }) with now := 1000001 }), (wFabReq), ([]), by decide +kernel, by decide +kernel⟩
  · exact ⟨(wFab (fun f => { f with stalled := [wFabReq], routes := [(5, 0x81)] })), (wFabReq), ([]), by decide +kernel, by decide +kernel, by decide +kernel⟩

theorem witness_CollectivesComplete :
    (∃ port : FabricPort, ∃ pkt : Packet, ∃ s : Machine.State, forRegistrar s 7 port pkt = .ok () ∧ 1 ≤ Conc.code pkt ∧ Conc.code pkt ≤ 8 ∧ 8 ≤ pkt.payload.length) ∧
    (∃ port : FabricPort, ∃ pkt : Packet, ∃ s : Machine.State, forRegistrar s 8 port pkt = .ok () ∧ 1 ≤ Mg.mtype pkt ∧ Mg.mtype pkt ≤ 5 ∧ 16 ≤ pkt.payload.length) ∧
    (∃ port : FabricPort, ∃ pkt : Packet, ∃ s : Machine.State, ∃ g : Nat, portUp s port = true ∧ Pk.dst pkt.hdr = s.fab.deviceId ∧ Pk.ptype pkt.hdr = 6 ∧ collOk pkt =
      true ∧ (List.range 4).find? (fun g => (findColl s g (Ce.key (Pk.volume pkt.hdr) (Ce.pId pkt))).isSome) = some g) ∧
    (∃ g : Fin 4, ∃ id : Nat, ∃ s : Machine.State, ∃ c : Coll, findColl s g id = some c ∧ Ce.op c.desc = 1) ∧
    (∃ g : Fin 4, ∃ id : Nat, ∃ s : Machine.State, ∃ c : Coll, findColl s g id = some c ∧ Ce.op c.desc = 2) ∧
    (∃ g : Fin 4, ∃ id : Nat, ∃ s : Machine.State, ∃ c : Coll, findColl s g id = some c ∧ Ce.op c.desc = 3) ∧
    (∃ g : Fin 4, ∃ id : Nat, ∃ s : Machine.State, ∃ c : Coll, findColl s g id = some c ∧ Ce.op c.desc = 4) ∧
    (∃ g : Fin 4, ∃ id : Nat, ∃ s : Machine.State, ∃ c : Coll, findColl s g id = some c ∧ Ce.op c.desc = 5) ∧
    (∃ g : Fin 4, ∃ id : Nat, ∃ s : Machine.State, ∃ c : Coll, findColl s g id = some c ∧ Ce.op c.desc = 6) ∧
    (∃ g : Fin 4, ∃ id : Nat, ∃ s : Machine.State, ∃ c : Coll, findColl s g id = some c ∧ Ce.op c.desc = 7) ∧
    (∃ g : Fin 4, ∃ id : Nat, ∃ s : Machine.State, ∃ c : Coll, findColl s g id = some c) ∧
    (∃ g : Fin 4, ∃ pkt : Packet, ∃ s : Machine.State, ∃ c : Coll, Pk.dst pkt.hdr = s.fab.deviceId ∧ collOk pkt = true ∧ Ce.pStep pkt = 4 ∧ findColl s g (Ce.key
      (Pk.volume pkt.hdr) (Ce.pId pkt)) = some c) ∧
    (∃ g : Fin 4, ∃ pkt : Packet, ∃ s : Machine.State, ∃ c : Coll, Pk.dst pkt.hdr = s.fab.deviceId ∧ collOk pkt = true ∧ Ce.pStep pkt = 5 ∧ findColl s g (Ce.key
      (Pk.volume pkt.hdr) (Ce.pId pkt)) = some c) ∧
    (∃ g : Fin 4, ∃ id : Nat, ∃ s : Machine.State, ∃ c : Coll, findColl s g id = some c) := by
  refine ⟨?_, ?_, ?_, ?_, ?_, ?_, ?_, ?_, ?_, ?_, ?_, ?_, ?_, ?_⟩
  · exact ⟨(0), (wPkt 0x3FF8 5 7 8 0 (Conc.body 1 3 1 [])), (wFab id), Except.ok1 (by decide +kernel), by decide +kernel, by decide +kernel, by decide +kernel⟩
  · exact ⟨(0), (wMg 0 0), (wFab id), Except.ok1 (by decide +kernel), by decide +kernel, by decide +kernel, by decide +kernel⟩
  · exact ⟨(0), (wCollP 3), (wCe 1), (0), by decide +kernel, by decide +kernel, by decide +kernel, by decide +kernel, by decide +kernel⟩
  · exact ⟨(0), (2 ^ 32 + 7), (wCe 1), (wColl 1), by decide +kernel, by decide +kernel⟩
  · exact ⟨(0), (2 ^ 32 + 7), (wCe 2), (wColl 2), by decide +kernel, by decide +kernel⟩
  · exact ⟨(0), (2 ^ 32 + 7), (wCe 3), (wColl 3), by decide +kernel, by decide +kernel⟩
  · exact ⟨(0), (2 ^ 32 + 7), (wCe 4), (wColl 4), by decide +kernel, by decide +kernel⟩
  · exact ⟨(0), (2 ^ 32 + 7), (wCe 5), (wColl 5), by decide +kernel, by decide +kernel⟩
  · exact ⟨(0), (2 ^ 32 + 7), (wCe 6), (wColl 6), by decide +kernel, by decide +kernel⟩
  · exact ⟨(0), (2 ^ 32 + 7), (wCe 7), (wColl 7), by decide +kernel, by decide +kernel⟩
  · exact ⟨(0), (2 ^ 32 + 7), (wCe 6), (wColl 6), by decide +kernel⟩
  · exact ⟨(0), (wCollP 4), (wCe 1), (wColl 1), by decide +kernel, by decide +kernel, by decide +kernel, by decide +kernel⟩
  · exact ⟨(0), (wCollP 5), (wCe 1), (wColl 1), by decide +kernel, by decide +kernel, by decide +kernel, by decide +kernel⟩
  · exact ⟨(0), (2 ^ 32 + 7), (wCe 6), (wColl 6), by decide +kernel⟩

theorem witness_TimeSourcesComplete :
    (∃ stamp : DWord, ∃ s : Machine.State, s.pwr.dsArmed = false) ∧
    (∃ stamp : DWord, ∃ s : Machine.State, s.pwr.dsArmed = true ∧ (syncPulse s stamp.toNat).pwr.dsArmed = false) ∧
    (∃ s : Machine.State, ∃ t : Nat, s.pwr.pulseAt = some t ∧ s.pwr.source = 1) ∧
    (∃ s : Machine.State, ∃ u : Nat, s.pwr.dsState ≠ 0 ∧ s.pwr.syncOut = some u ∧ s.now ≤ u) ∧
    (∃ s : Machine.State, s.pwr.dsState = 0) := by
  refine ⟨?_, ?_, ?_, ?_, ?_⟩
  · exact ⟨(5), (wSt), by decide +kernel⟩
  · exact ⟨(1000000000), ({ wPw (fun p => { p with dsArmed := true }) with seq := { wSt.seq with straps := 8 } }), by decide +kernel, by decide +kernel⟩
  · exact ⟨(wPw (fun p => { p with pulseAt := some 5, source := 1 })), (5), by decide +kernel, by decide +kernel⟩
  · exact ⟨(wPw (fun p => { p with dsStatus := 0x10000, syncOut := some 7 })), (7), by decide +kernel, by decide +kernel, by decide +kernel⟩
  · exact ⟨(wSt), by decide +kernel⟩

theorem witness_PowerEpochComplete :
    (∃ s : Machine.State, ∃ k : Nat, nextEpoch s s.pwr.voteDone = k ∧ s.vols.vols = []) ∧
    (∃ handle : Word, ∃ s : Machine.State, ∃ m : VolMap, ∃ w : PwrVote, (Tbl.find s.vols.vols handle.toNat).bind (·.cur) = some m ∧ m.coord = s.fab.deviceId ∧ memberOf
      m s.fab.deviceId = true ∧ m.members.filter (fun e => e.device != s.fab.deviceId) = [] ∧ treeChildren (voteTree m) s.fab.deviceId = [] ∧ (s.pwr.vol
      handle.toNat).decided = 0 ∧ (s.pwr.vol handle.toNat).own = some w ∧ w.epoch = s.now / epochNs + 1) ∧
    (∃ s : Machine.State, s.vols.vols = []) ∧
    (∃ s : Machine.State, ∃ stamp : Nat, ∃ p : Packet, ∃ u : Machine.State, ∃ m : VolMap, takeMgmt s (voteMessage 0) = some (stamp, p, u) ∧ (Tbl.find u.vols.vols (Mg.f
      p 0x10 0 32)).bind (·.cur) = some m ∧ (treeChildren (voteTree m) u.fab.deviceId).contains (Pk.src p.hdr) = true ∧ (epochOf u (Mg.f p 0x14 0 32)) ≠ 0 ∧ stamp ≤
      ((epochOf u (Mg.f p 0x14 0 32)) - 1) * epochNs + 786432) ∧
    (∃ s : Machine.State, ∃ stamp : Nat, ∃ p : Packet, ∃ u : Machine.State, ∃ m : VolMap, takeMgmt s (voteMessage 1) = some (stamp, p, u) ∧ (Tbl.find u.vols.vols (Mg.f
      p 0x10 0 32)).bind (·.cur) = some m ∧ Pk.src p.hdr = m.coord ∧ (epochOf u (Mg.f p 0x14 0 32)) ≠ 0 ∧ stamp ≤ ((epochOf u (Mg.f p 0x14 0 32)) - 1) * epochNs + 948576) := by
  refine ⟨?_, ?_, ?_, ?_, ?_⟩
  · exact ⟨(wSt), (nextEpoch ((wSt) : Machine.State) ((wSt) : Machine.State).pwr.voteDone), rfl, by decide +kernel⟩
  · exact ⟨(1), ({ wVols { cur := some (wMap 2) } wRound with pwr := { vols := [(1, { own := some { epoch := 1, code := 50 } })] } }), ((((Tbl.find
      (({ wVols { cur := some (wMap 2) } wRound with pwr := { vols := [(1, { own := some { epoch := 1, code := 50 } })] } }) : Machine.State).vols.vols ((1) :
      Word).toNat).bind (·.cur)).get (by decide +kernel))), ({ epoch := 1, code := 50 }), (of_get (by decide +kernel)), by decide +kernel, by decide +kernel,
      by decide +kernel, by decide +kernel, by decide +kernel, by decide +kernel, by decide +kernel⟩
  · exact ⟨(wSt), by decide +kernel⟩
  · exact ⟨(wFab (fun f => { f with mgmtIn := [(9, wMg 0 1)] })), (((takeMgmt ((wFab (fun f => { f with mgmtIn := [(9, wMg 0 1)] })) : Machine.State) (voteMessage 0)).get
      (by decide +kernel)).1), (((takeMgmt ((wFab (fun f => { f with mgmtIn := [(9, wMg 0 1)] })) : Machine.State) (voteMessage 0)).get (by decide +kernel)).2.1),
      (((takeMgmt ((wFab (fun f => { f with mgmtIn := [(9, wMg 0 1)] })) : Machine.State) (voteMessage 0)).get (by decide +kernel)).2.2), (wMap2), (of_get
      (by decide +kernel)), by decide +kernel, by decide +kernel, by decide +kernel, by decide +kernel⟩
  · exact ⟨({ wFab (fun f => { f with mgmtIn := [(9, wMg 1 1)] }) with vols := { vols := [(1, { cur := some { wMap2 with coord := 5 } })] } }), (((takeMgmt
      (({ wFab (fun f => { f with mgmtIn := [(9, wMg 1 1)] }) with vols := { vols := [(1, { cur := some { wMap2 with coord := 5 } })] } }) : Machine.State) (voteMessage
      1)).get (by decide +kernel)).1), (((takeMgmt
      (({ wFab (fun f => { f with mgmtIn := [(9, wMg 1 1)] }) with vols := { vols := [(1, { cur := some { wMap2 with coord := 5 } })] } }) : Machine.State) (voteMessage
      1)).get (by decide +kernel)).2.1), (((takeMgmt
      (({ wFab (fun f => { f with mgmtIn := [(9, wMg 1 1)] }) with vols := { vols := [(1, { cur := some { wMap2 with coord := 5 } })] } }) : Machine.State) (voteMessage
      1)).get (by decide +kernel)).2.2), ({ wMap2 with coord := 5 }), (of_get (by decide +kernel)), by decide +kernel, by decide +kernel, by decide +kernel,
      by decide +kernel⟩

theorem witness_PowerSensorsComplete :
    (∃ mw : Nat, ∃ s : Machine.State, ∃ v : Machine.State, settleClips ((reach s (alignDown s.now us + us)).modPwr (fun p =>
      { p with samples := (mw :: p.samples).take window60, pkgNj := p.pkgNj + mw })) mw = v ∧ v.pwr.clip4 = false ∧ v.pwr.clip2 = false ∧ v.pwr.capped = false) ∧
    (∃ bay : BayNo, ∃ s : Machine.State, s.isolated = false) ∧
    (∃ bay : BayNo, ∃ s : Machine.State, (s.pwr.bay bay).droop ≠ 0) ∧
    (∃ bay : BayNo, ∃ s : Machine.State, (s.pwr.bay bay).clip ≠ 0 ∧ s.pwr.clip4 = false ∧ s.pwr.clip2 = false ∧ s.pwr.capped = false) ∧
    (∃ bay : BayNo, ∃ temp : BitVec 8, ∃ s : Machine.State, s.isolated = false ∧ temp.toNat < 108) := by
  refine ⟨?_, ?_, ?_, ?_, ?_⟩
  · exact ⟨(500000), (wSt), (settleClips ((reach ((wSt) : Machine.State) (alignDown ((wSt) : Machine.State).now us + us)).modPwr (fun p =>
      { p with samples := (((500000) : Nat) :: p.samples).take window60, pkgNj := p.pkgNj + ((500000) : Nat) })) ((500000) : Nat)), rfl, by decide +kernel,
      by decide +kernel, by decide +kernel⟩
  · exact ⟨(0), (wSt), by decide +kernel⟩
  · exact ⟨(0), (wPw (fun p => { p with bays := [(0, { droop := 1 })] })), by decide +kernel⟩
  · exact ⟨(0), (wPw (fun p => { p with bays := [(0, { clip := 1 })] })), by decide +kernel, by decide +kernel, by decide +kernel, by decide +kernel⟩
  · exact ⟨(0), (107), (wSt), by decide +kernel, by decide +kernel⟩

theorem witness_CommandsComplete :
    (∃ cmd : Nat, ∃ s : Machine.State, ∃ c : Cmd, startable s cmd 1 = some c ∧ c.tileCount = 0) ∧
    (∃ cmd : Nat, ∃ s : Machine.State, ∃ c : Cmd, startable s cmd 1 = some c ∧ c.tileCount ≠ 0 ∧ (availableBays s c.volume).length ≠ 0 ∧ c.gang = false) ∧
    (∃ cmd : Nat, ∃ s : Machine.State, ∃ c : Cmd, ∃ u : Machine.State, ∃ x : Ctx, ∃ sh : Nat, startable s cmd 2 = some c ∧ makeResident s c.ctx = (u, true) ∧ Tbl.find
      u.work.ctxs c.ctx = some x ∧ ShCmd.phys c.tail = true ∧ ShCmd.empty c.tail = false ∧ ShCmd.opcode c.tail ≠ 2 ∧ shelveFenced u c (stackOfPa (ShCmd.src c.tail) % 8) =
      false ∧ shelveHeld u (ctxPart c.ctx) (stackOfPa (ShCmd.src c.tail) % 8) = false ∧ shelveTarget u c (stackOfPa (ShCmd.src c.tail) % 8) = some sh) ∧
    (∃ k : StackNo, ∃ s : Machine.State, ∃ id : Nat, ∃ c : Cmd, ∃ sh : Nat, s.work.cmds = [(id, c)] ∧ c.phase = .held ∧ c.heldStack = k.val ∧ shelveTarget s c k = some
      sh ∧ ((Tbl.find s.work.ctxs c.ctx).bind (·.slot)) = some 0 ∧ (List.range 8).filterMap (fun p => firstReleased (s.work.cmds.filter (fun d => ctxPart d.2.ctx == p)))
      = [(id, c)]) ∧
    (∃ cmd : Nat, ∃ s : Machine.State, ∃ c : Cmd, startable s cmd 3 = some c ∧ volMembers s (Ce.volume c.tail) = none) ∧
    (∃ cmd : Nat, ∃ s : Machine.State, ∃ c : Cmd, ∃ m : VolMap, ∃ u : Machine.State, ∃ p : Nat, startable s cmd 3 = some c ∧ volMembers s (Ce.volume c.tail) = some m ∧
      Ce.ok c.tail (m.members.map (·.device)) = true ∧ lowestPort (volumePorts s m) = some p ∧ makeResident s c.ctx = (u, true) ∧ (u.fab.engine (p / 6)).open_ = []) ∧
    (∃ cmd : Nat, ∃ s : Machine.State, ∃ c : Cmd, startable s cmd 4 = some c) ∧
    (∃ cmd : Nat, ∃ s : Machine.State, ∃ c : Cmd, startable s cmd 5 = some c) ∧
    (∃ cmd : Nat, ∃ s : Machine.State, ∃ c : Cmd, Tbl.find s.work.cmds cmd = some c ∧ c.phase = .accepted ∧ c.barrier = false ∧ c.opcode ≠ 1 ∧ (s.work.cmds.filter (fun
      d => d.1 < cmd && d.2.queue == c.queue)) = [] ∧ ctxRunnable s c.ctx = true ∧ (s.part (ctxPart c.ctx)).ledger.held.length < 256 ∧ cmdDying s c = false ∧ fenceLets s
      c = some false) := by
  refine ⟨?_, ?_, ?_, ?_, ?_, ?_, ?_, ?_, ?_⟩
  · exact ⟨(1), (wWork (wCmd [(0, 1), (384, 1)])), (((startable ((wWork (wCmd [(0, 1), (384, 1)])) : Machine.State) ((1) : Nat) 1).get (by decide +kernel))), (of_get
      (by decide +kernel)), by decide +kernel⟩
  · exact ⟨(1), (wWork (wCmd [(0, 1), (384, 1), (448, 2)])), (((startable ((wWork (wCmd [(0, 1), (384, 1), (448, 2)])) : Machine.State) ((1) : Nat) 1).get
      (by decide +kernel))), (of_get (by decide +kernel)), by decide +kernel, by decide +kernel, by decide +kernel⟩
  · exact ⟨(1), (wWork (wCmd [(0, 2), (384, 7), (1024, 0x101), (1088, 0x200000), (1216, 64)])), (wCmd [(0, 2), (384, 7), (1024, 0x101), (1088, 0x200000), (1216, 64)]), (wWork
      (wCmd [(0, 2), (384, 7), (1024, 0x101), (1088, 0x200000), (1216, 64)])), (((Tbl.find ((wWork (wCmd [(0, 2), (384, 7), (1024, 0x101), (1088, 0x200000), (1216, 64)]))
      : Machine.State).work.ctxs ((wCmd [(0, 2), (384, 7), (1024, 0x101), (1088, 0x200000), (1216, 64)]) : Cmd).ctx).get (by decide +kernel))), (((shelveTarget ((wWork
      (wCmd [(0, 2), (384, 7), (1024, 0x101), (1088, 0x200000), (1216, 64)])) : Machine.State) ((wCmd [(0, 2), (384, 7), (1024, 0x101), (1088, 0x200000), (1216, 64)]) :
      Cmd) (stackOfPa (ShCmd.src ((wCmd [(0, 2), (384, 7), (1024, 0x101), (1088, 0x200000), (1216, 64)]) : Cmd).tail) % 8)).get (by decide +kernel))), by decide +kernel,
      by decide +kernel, (of_get (by decide +kernel)), by decide +kernel, by decide +kernel, by decide +kernel, by decide +kernel, by decide +kernel, (of_get
      (by decide +kernel))⟩
  · exact ⟨(0), (wWork (wCmd [(0, 2), (384, 3), (1024, 0x101), (1088, 0x200000), (1216, 64)] .held)), (1), (wCmd [(0, 2), (384, 3), (1024, 0x101), (1088, 0x200000), (1216,
      64)] .held), (((shelveTarget ((wWork (wCmd [(0, 2), (384, 3), (1024, 0x101), (1088, 0x200000), (1216, 64)] .held)) : Machine.State) ((wCmd [(0, 2), (384, 3), (1024,
      0x101), (1088, 0x200000), (1216, 64)] .held) : Cmd) ((0) : StackNo)).get (by decide +kernel))), by decide +kernel, by decide +kernel, by decide +kernel, (of_get
      (by decide +kernel)), by decide +kernel, by decide +kernel⟩
  · exact ⟨(1), (wWork (wCmd [(0, 3), (1024, 6), (1088, 9)])), (((startable ((wWork (wCmd [(0, 3), (1024, 6), (1088, 9)])) : Machine.State) ((1) : Nat) 3).get
      (by decide +kernel))), (of_get (by decide +kernel)), by decide +kernel⟩
  · exact ⟨(1), (wWork (wCmd [(0, 3), (1024, 6), (1088, 1)])), (wCmd [(0, 3), (1024, 6), (1088, 1)]), (((volMembers ((wWork (wCmd [(0, 3), (1024, 6), (1088, 1)])) :
      Machine.State) (Ce.volume ((wCmd [(0, 3), (1024, 6), (1088, 1)]) : Cmd).tail)).get (by decide +kernel))), (wWork (wCmd [(0, 3), (1024, 6), (1088, 1)])),
      (((lowestPort (volumePorts ((wWork (wCmd [(0, 3), (1024, 6), (1088, 1)])) : Machine.State) ((((volMembers ((wWork (wCmd [(0, 3), (1024, 6), (1088, 1)])) :
      Machine.State) (Ce.volume ((wCmd [(0, 3), (1024, 6), (1088, 1)]) : Cmd).tail)).get (by decide +kernel))) : VolMap))).get (by decide +kernel))), by decide +kernel,
      (of_get (by decide +kernel)), by decide +kernel, (of_get (by decide +kernel)), by decide +kernel, by decide +kernel⟩
  · exact ⟨(1), (wWork (wCmd [(0, 4)])), (((startable ((wWork (wCmd [(0, 4)])) : Machine.State) ((1) : Nat) 4).get (by decide +kernel))), (of_get (by decide +kernel))⟩
  · exact ⟨(1), (wWork (wCmd [(0, 5)])), (((startable ((wWork (wCmd [(0, 5)])) : Machine.State) ((1) : Nat) 5).get (by decide +kernel))), (of_get (by decide +kernel))⟩
  · exact ⟨(1), (wWork (wCmd [(0, 5)] .accepted)), (((Tbl.find ((wWork (wCmd [(0, 5)] .accepted)) : Machine.State).work.cmds ((1) : Nat)).get (by decide +kernel))), (of_get
      (by decide +kernel)), by decide +kernel, by decide +kernel, by decide +kernel, by decide +kernel, by decide +kernel, by decide +kernel, by decide +kernel,
      by decide +kernel⟩

theorem witness_PlacementComplete :
    (∃ queue : BitVec 16, ∃ cmd : BitVec 2048, ∃ s : Machine.State, ∃ x : Queue, Tbl.find s.work.queues queue.toNat = some x ∧ s.seq.fwState = 1 ∧ x.resident.isSome =
      true ∧ x.unread = true ∧ queueDying s x = false ∧ (s.part (s.partOfQueue queue.toNat)).resetting = false ∧ (s.part (s.partOfQueue queue.toNat)).quiesced = false ∧
      s.work.cmds = [] ∧ 0 < 1024 / s.nparts ∧ (x.rd + 65536 - x.returned) % 65536 < x.entries) ∧
    (∃ queue : BitVec 16, ∃ s : Machine.State, ∃ x : Queue, Tbl.find s.work.queues queue.toNat = some x ∧ s.seq.fwState = 1 ∧ x.resident = none ∧ x.unread = true ∧
      queueDying s x = false ∧ (s.work.queues.filter (fun e => s.partOfQueue e.1 == s.partOfQueue queue.toNat && e.2.resident.isSome)).length < queueSlots s) ∧
    (∃ handle : Word, ∃ bay : BayNo, ∃ s : Machine.State, (availableBays s handle.toNat).contains bay.val = true ∧ bayIdle s bay = true ∧ volStopped s handle.toNat =
      false) ∧
    (∃ handle : Word, ∃ ctx : Fin 32768, ∃ s : Machine.State, ∃ t : Nat, Tbl.find (markSlices s handle.toNat).work.heldSince (sliceKey handle.toNat ctx) = some t) ∧
    (∃ bay : BayNo, ∃ s : Machine.State, ∃ t : Tile, ∃ d : Nat, Tbl.find s.work.tiles (s.bay bay).tile = some t ∧ t.deadline = some d ∧ t.heldSince = none ∧ t.status =
      none ∧ (s.bay bay).resetAt = none) ∧
    (∃ bay : BayNo, ∃ s : Machine.State, ∃ t : Tile, ∃ c : Cmd, ∃ p : Nat, tileCmd s (s.bay bay).tile = some (t, c) ∧ t.preemptAt = some p ∧ t.killed = false ∧ t.step <
      7 ∧ t.status = none) ∧
    (∃ bay : BayNo, ∃ s : Machine.State, ∃ d : Nat, (s.work.tiles.filter (fun t => t.2.bay == bay.val)).findSome? (fun t => t.2.answerBy) = some d) ∧
    (∃ handle : Word, ∃ s : Machine.State, ∃ p : Preempt, Tbl.find s.vols.preempts handle.toNat = some p ∧ p.begun = false) ∧
    (∃ handle : Word, ∃ s : Machine.State, ∃ p : Preempt, Tbl.find s.vols.preempts handle.toNat = some p ∧ p.resume ≠ 0 ∧ p.cmd = none) ∧
    (∃ s : Machine.State, ∃ t : Nat, ∃ p : Packet, ∃ u : Machine.State, takeMgmt s (fun p => Mg.mtype p == 2) = some (t, p, u) ∧ Tbl.has u.vols.vols (Mg.f p 0x10 0 32)
      = true) ∧
    (∃ s : Machine.State, ∃ t : Nat, ∃ p : Packet, ∃ u : Machine.State, takeMgmt s (fun p => Mg.mtype p == 3) = some (t, p, u)) := by
  refine ⟨?_, ?_, ?_, ?_, ?_, ?_, ?_, ?_, ?_, ?_, ?_⟩
  · exact ⟨(0), (0), ({ wWork (wCmd []) with work := { (wWork (wCmd [])).work with cmds := [] } }), (wQue), by decide +kernel, by decide +kernel, by decide +kernel,
      by decide +kernel, by decide +kernel, by decide +kernel, by decide +kernel, by decide +kernel, by decide +kernel, by decide +kernel⟩
  · exact ⟨(0), ({ wWork (wCmd []) with work := { (wWork (wCmd [])).work with queues := [(0, { wQue with resident := none })] } }), ({ wQue with resident := none }),
      by decide +kernel, by decide +kernel, by decide +kernel, by decide +kernel, by decide +kernel, by decide +kernel⟩
  · exact ⟨(1), (0), (wWork (wCmd [])), by decide +kernel, by decide +kernel, by decide +kernel⟩
  · exact ⟨(1), (0), ({ wWork (wCmd []) with work := { (wWork (wCmd [])).work with
  ctxs := [(0, wCtx), (1, wCtx)], queues := [(0, wQue), (1, { wQue with ctx := 1 })], tiles := [(1, { cmd := 1 })]
  cmds := [(1, wCmd [(0, 1), (384, 1), (448, 2)] .running), (2, { wCmd [(0, 1), (384, 1), (448, 2)] .running with queue := 1, ctx := 1 })], heldSince := [(0x10000, 0)] } }), (0), by decide +kernel⟩
  · exact ⟨(0), (wTile { cmd := 1, deadline := some 9 }), (((Tbl.find ((wTile { cmd := 1, deadline := some 9 }) : Machine.State).work.tiles (((wTile
      { cmd := 1, deadline := some 9 }) : Machine.State).bay ((0) : BayNo)).tile).get (by decide +kernel))), (((((((Tbl.find ((wTile { cmd := 1, deadline := some 9 }) :
      Machine.State).work.tiles (((wTile { cmd := 1, deadline := some 9 }) : Machine.State).bay ((0) : BayNo)).tile).get (by decide +kernel))) : Tile).deadline).get
      (by decide +kernel))), (of_get (by decide +kernel)), (of_get (by decide +kernel)), by decide +kernel, by decide +kernel, by decide +kernel⟩
  · exact ⟨(0), (wTile { cmd := 1, step := 6, preemptAt := some 9 }), (((tileCmd ((wTile { cmd := 1, step := 6, preemptAt := some 9 }) : Machine.State) (((wTile
      { cmd := 1, step := 6, preemptAt := some 9 }) : Machine.State).bay ((0) : BayNo)).tile).get (by decide +kernel)).1), (((tileCmd ((wTile
      { cmd := 1, step := 6, preemptAt := some 9 }) : Machine.State) (((wTile { cmd := 1, step := 6, preemptAt := some 9 }) : Machine.State).bay ((0) : BayNo)).tile).get
      (by decide +kernel)).2), (((((((tileCmd ((wTile { cmd := 1, step := 6, preemptAt := some 9 }) : Machine.State) (((wTile
      { cmd := 1, step := 6, preemptAt := some 9 }) : Machine.State).bay ((0) : BayNo)).tile).get (by decide +kernel)).1) : Tile).preemptAt).get (by decide +kernel))),
      (of_get (by decide +kernel)), (of_get (by decide +kernel)), by decide +kernel, by decide +kernel, by decide +kernel⟩
  · exact ⟨(0), (wTile { cmd := 1, answerBy := some 9 }), ((((((wTile { cmd := 1, answerBy := some 9 }) : Machine.State).work.tiles.filter (fun t => t.2.bay == ((0) :
      BayNo).val)).findSome? (fun t => t.2.answerBy)).get (by decide +kernel))), (of_get (by decide +kernel))⟩
  · exact ⟨(1), (wPre { at_ := 5 }), (((Tbl.find ((wPre { at_ := 5 }) : Machine.State).vols.preempts ((1) : Word).toNat).get (by decide +kernel))), (of_get
      (by decide +kernel)), by decide +kernel⟩
  · exact ⟨(1), (wPre { at_ := 5, resume := 7 }), (((Tbl.find ((wPre { at_ := 5, resume := 7 }) : Machine.State).vols.preempts ((1) : Word).toNat).get (by decide +kernel))),
      (of_get (by decide +kernel)), by decide +kernel, by decide +kernel⟩
  · exact ⟨(wMgIn 5 2 (bytesLE 8 1 ++ bytesLE 8 5 ++ bytesLE 8 9)), (((takeMgmt ((wMgIn 5 2 (bytesLE 8 1 ++ bytesLE 8 5 ++ bytesLE 8 9)) : Machine.State) (fun p => Mg.mtype p
      == 2)).get (by decide +kernel)).1), (((takeMgmt ((wMgIn 5 2 (bytesLE 8 1 ++ bytesLE 8 5 ++ bytesLE 8 9)) : Machine.State) (fun p => Mg.mtype p == 2)).get
      (by decide +kernel)).2.1), (((takeMgmt ((wMgIn 5 2 (bytesLE 8 1 ++ bytesLE 8 5 ++ bytesLE 8 9)) : Machine.State) (fun p => Mg.mtype p == 2)).get
      (by decide +kernel)).2.2), (of_get (by decide +kernel)), by decide +kernel⟩
  · exact ⟨(wMgIn 5 3 (bytesLE 4 1 ++ bytesLE 4 5 ++ bytesLE 16 9)), (((takeMgmt ((wMgIn 5 3 (bytesLE 4 1 ++ bytesLE 4 5 ++ bytesLE 16 9)) : Machine.State) (fun p => Mg.mtype
      p == 3)).get (by decide +kernel)).1), (((takeMgmt ((wMgIn 5 3 (bytesLE 4 1 ++ bytesLE 4 5 ++ bytesLE 16 9)) : Machine.State) (fun p => Mg.mtype p == 3)).get
      (by decide +kernel)).2.1), (((takeMgmt ((wMgIn 5 3 (bytesLE 4 1 ++ bytesLE 4 5 ++ bytesLE 16 9)) : Machine.State) (fun p => Mg.mtype p == 3)).get
      (by decide +kernel)).2.2), (of_get (by decide +kernel))⟩

theorem witness_DoorbellsComplete :
    (∃ s : Machine.State, ∃ t : Nat, ∃ p : Packet, ∃ u : Machine.State, takeMgmt s (fun p => Mg.mtype p == 4) = some (t, p, u)) ∧
    (∃ s : Machine.State, ∃ t : Nat, ∃ p : Packet, ∃ u : Machine.State, ∃ f : Nat, ∃ i : Nat, ∃ c : MbCmd, takeMgmt s (fun p => Mg.mtype p == 5) = some (t, p, u) ∧
      Tbl.find u.fab.fmSends (Mg.f p 0x10 0 32) = some (f, i) ∧ (u.fn f).active.find? (fun a => a.index == i) = some c ∧ t ≤ c.readAt + fmWait) ∧
    (∃ slot : MbSlot, ∃ s : Machine.State, ∃ c : MbCmd, mbFind s slot = some c ∧ c.opcode = 0x0F ∧ c.started.isSome = true ∧ c.answer = none ∧ s.fab.mgmtIn = []) ∧
    (∃ fn : FnNo, ∃ v : Word, ∃ s : Machine.State, s.fnExists fn = true ∧ (v.toNat % 65536 + 65536 - (s.fn fn).mbResp) % 65536 ≤ mbSlots (s.fn fn) ∧ ((s.fn fn).mbWr +
      65536 - (s.fn fn).mbResp) % 65536 ≤ (v.toNat % 65536 + 65536 - (s.fn fn).mbResp) % 65536) ∧
    (∃ fn : FnNo, ∃ data : BitVec 2048, ∃ s : Machine.State, s.fnExists fn = true ∧ s.seq.fwState = 1 ∧ bitsAt (s.fn fn).mbCtrl.toNat 0 1 = 1 ∧ (s.fn fn).mbRd ≠ (s.fn
      fn).mbWr ∧ (s.fn fn).active = [] ∧ mbReserved data = false) ∧
    (∃ fn : FnNo, ∃ queue : BitVec 16, ∃ v : Word, ∃ s : Machine.State, ∃ x : Queue, fn.val ≠ 0 ∧ s.fnExists fn = true ∧ Tbl.find s.work.queues queue.toNat = some x ∧
      s.partOfQueue queue.toNat = fn.val - 1 ∧ x.destroyAt = none ∧ ((Tbl.find s.work.ctxs x.ctx).map (·.state)) ≠ some .destroying ∧ (v.toNat % 65536 + 65536 - x.rd) %
      65536 ≤ x.entries ∧ (x.wr + 65536 - x.rd) % 65536 ≤ (v.toNat % 65536 + 65536 - x.rd) % 65536) ∧
    (∃ fn : FnNo, ∃ queue : BitVec 16, ∃ v : Word, ∃ s : Machine.State, ∃ x : Queue, fn.val ≠ 0 ∧ s.fnExists fn = true ∧ Tbl.find s.work.queues queue.toNat = some x ∧
      s.partOfQueue queue.toNat = fn.val - 1 ∧ x.destroyAt = none ∧ ((Tbl.find s.work.ctxs x.ctx).map (·.state)) ≠ some .destroying ∧ (v.toNat % 65536 + 65536 -
      x.returned) % 65536 ≤ (x.written % 65536 + 65536 - x.returned) % 65536) ∧
    (∃ fn : FnNo, ∃ v : Word, ∃ s : Machine.State, s.fnExists fn = true) ∧
    (∃ fn : FnNo, ∃ v : Word, ∃ s : Machine.State, s.fnExists fn = true) ∧
    (∃ s : Machine.State, s.seq.fwState = 1) := by
  refine ⟨?_, ?_, ?_, ?_, ?_, ?_, ?_, ?_, ?_, ?_⟩
  · exact ⟨(wMgIn 5 4 (bytesLE 8 8 ++ bytesLE 16 9)), (((takeMgmt ((wMgIn 5 4 (bytesLE 8 8 ++ bytesLE 16 9)) : Machine.State) (fun p => Mg.mtype p == 4)).get
      (by decide +kernel)).1), (((takeMgmt ((wMgIn 5 4 (bytesLE 8 8 ++ bytesLE 16 9)) : Machine.State) (fun p => Mg.mtype p == 4)).get (by decide +kernel)).2.1),
      (((takeMgmt ((wMgIn 5 4 (bytesLE 8 8 ++ bytesLE 16 9)) : Machine.State) (fun p => Mg.mtype p == 4)).get (by decide +kernel)).2.2), (of_get (by decide +kernel))⟩
  · exact ⟨({ wMgIn 100001000 5 (bytesLE 8 1 ++ bytesLE 16 9) with fns := [(0, { active := [{ wMb [(0, 15)] with readAt := 1000, started := some 1000 }] })], fab := { mgmtIn := [(1000, wMgT 5 (bytesLE 8 1 ++ bytesLE 16 9))], fmSends := [(1, (0, 0))] } }),
      (((takeMgmt
      (({ wMgIn 100001000 5 (bytesLE 8 1 ++ bytesLE 16 9) with fns := [(0, { active := [{ wMb [(0, 15)] with readAt := 1000, started := some 1000 }] })], fab := { mgmtIn := [(1000, wMgT 5 (bytesLE 8 1 ++ bytesLE 16 9))], fmSends := [(1, (0, 0))] } })
      : Machine.State) (fun p => Mg.mtype p == 5)).get (by decide +kernel)).1), (((takeMgmt
      (({ wMgIn 100001000 5 (bytesLE 8 1 ++ bytesLE 16 9) with fns := [(0, { active := [{ wMb [(0, 15)] with readAt := 1000, started := some 1000 }] })], fab := { mgmtIn := [(1000, wMgT 5 (bytesLE 8 1 ++ bytesLE 16 9))], fmSends := [(1, (0, 0))] } })
      : Machine.State) (fun p => Mg.mtype p == 5)).get (by decide +kernel)).2.1), (((takeMgmt
      (({ wMgIn 100001000 5 (bytesLE 8 1 ++ bytesLE 16 9) with fns := [(0, { active := [{ wMb [(0, 15)] with readAt := 1000, started := some 1000 }] })], fab := { mgmtIn := [(1000, wMgT 5 (bytesLE 8 1 ++ bytesLE 16 9))], fmSends := [(1, (0, 0))] } })
      : Machine.State) (fun p => Mg.mtype p == 5)).get (by decide +kernel)).2.2), (((Tbl.find ((((takeMgmt
      (({ wMgIn 100001000 5 (bytesLE 8 1 ++ bytesLE 16 9) with fns := [(0, { active := [{ wMb [(0, 15)] with readAt := 1000, started := some 1000 }] })], fab := { mgmtIn := [(1000, wMgT 5 (bytesLE 8 1 ++ bytesLE 16 9))], fmSends := [(1, (0, 0))] } })
      : Machine.State) (fun p => Mg.mtype p == 5)).get (by decide +kernel)).2.2) : Machine.State).fab.fmSends (Mg.f ((((takeMgmt
      (({ wMgIn 100001000 5 (bytesLE 8 1 ++ bytesLE 16 9) with fns := [(0, { active := [{ wMb [(0, 15)] with readAt := 1000, started := some 1000 }] })], fab := { mgmtIn := [(1000, wMgT 5 (bytesLE 8 1 ++ bytesLE 16 9))], fmSends := [(1, (0, 0))] } })
      : Machine.State) (fun p => Mg.mtype p == 5)).get (by decide +kernel)).2.1) : Packet) 0x10 0 32)).get (by decide +kernel)).1), (((Tbl.find ((((takeMgmt
      (({ wMgIn 100001000 5 (bytesLE 8 1 ++ bytesLE 16 9) with fns := [(0, { active := [{ wMb [(0, 15)] with readAt := 1000, started := some 1000 }] })], fab := { mgmtIn := [(1000, wMgT 5 (bytesLE 8 1 ++ bytesLE 16 9))], fmSends := [(1, (0, 0))] } })
      : Machine.State) (fun p => Mg.mtype p == 5)).get (by decide +kernel)).2.2) : Machine.State).fab.fmSends (Mg.f ((((takeMgmt
      (({ wMgIn 100001000 5 (bytesLE 8 1 ++ bytesLE 16 9) with fns := [(0, { active := [{ wMb [(0, 15)] with readAt := 1000, started := some 1000 }] })], fab := { mgmtIn := [(1000, wMgT 5 (bytesLE 8 1 ++ bytesLE 16 9))], fmSends := [(1, (0, 0))] } })
      : Machine.State) (fun p => Mg.mtype p == 5)).get (by decide +kernel)).2.1) : Packet) 0x10 0 32)).get (by decide +kernel)).2), ((((((((takeMgmt
      (({ wMgIn 100001000 5 (bytesLE 8 1 ++ bytesLE 16 9) with fns := [(0, { active := [{ wMb [(0, 15)] with readAt := 1000, started := some 1000 }] })], fab := { mgmtIn := [(1000, wMgT 5 (bytesLE 8 1 ++ bytesLE 16 9))], fmSends := [(1, (0, 0))] } })
      : Machine.State) (fun p => Mg.mtype p == 5)).get (by decide +kernel)).2.2) : Machine.State).fn ((((Tbl.find ((((takeMgmt
      (({ wMgIn 100001000 5 (bytesLE 8 1 ++ bytesLE 16 9) with fns := [(0, { active := [{ wMb [(0, 15)] with readAt := 1000, started := some 1000 }] })], fab := { mgmtIn := [(1000, wMgT 5 (bytesLE 8 1 ++ bytesLE 16 9))], fmSends := [(1, (0, 0))] } })
      : Machine.State) (fun p => Mg.mtype p == 5)).get (by decide +kernel)).2.2) : Machine.State).fab.fmSends (Mg.f ((((takeMgmt
      (({ wMgIn 100001000 5 (bytesLE 8 1 ++ bytesLE 16 9) with fns := [(0, { active := [{ wMb [(0, 15)] with readAt := 1000, started := some 1000 }] })], fab := { mgmtIn := [(1000, wMgT 5 (bytesLE 8 1 ++ bytesLE 16 9))], fmSends := [(1, (0, 0))] } })
      : Machine.State) (fun p => Mg.mtype p == 5)).get (by decide +kernel)).2.1) : Packet) 0x10 0 32)).get (by decide +kernel)).1) : Nat)).active.find? (fun a => a.index
      == ((((Tbl.find ((((takeMgmt
      (({ wMgIn 100001000 5 (bytesLE 8 1 ++ bytesLE 16 9) with fns := [(0, { active := [{ wMb [(0, 15)] with readAt := 1000, started := some 1000 }] })], fab := { mgmtIn := [(1000, wMgT 5 (bytesLE 8 1 ++ bytesLE 16 9))], fmSends := [(1, (0, 0))] } })
      : Machine.State) (fun p => Mg.mtype p == 5)).get (by decide +kernel)).2.2) : Machine.State).fab.fmSends (Mg.f ((((takeMgmt
      (({ wMgIn 100001000 5 (bytesLE 8 1 ++ bytesLE 16 9) with fns := [(0, { active := [{ wMb [(0, 15)] with readAt := 1000, started := some 1000 }] })], fab := { mgmtIn := [(1000, wMgT 5 (bytesLE 8 1 ++ bytesLE 16 9))], fmSends := [(1, (0, 0))] } })
      : Machine.State) (fun p => Mg.mtype p == 5)).get (by decide +kernel)).2.1) : Packet) 0x10 0 32)).get (by decide +kernel)).2) : Nat))).get (by decide +kernel))),
      (of_get (by decide +kernel)), (of_get (by decide +kernel)), (of_get (by decide +kernel)), by decide +kernel⟩
  · exact ⟨({ fn := 0, index := 0 }), (wFn 0 { wMb [(0, 15)] with started := some 0 }), (((mbFind ((wFn 0 { wMb [(0, 15)] with started := some 0 }) : Machine.State)
      (({ fn := 0, index := 0 }) : MbSlot)).get (by decide +kernel))), (of_get (by decide +kernel)), by decide +kernel, by decide +kernel, by decide +kernel,
      by decide +kernel⟩
  · exact ⟨(1), (15), (wSt), by decide +kernel, by decide +kernel, by decide +kernel⟩
  · exact ⟨(0), (wWord [(0, 2)]), ({ wSt with fns := [(0, { mbCtrl := 0x41, mbWr := 1 })] }), by decide +kernel, by decide +kernel, by decide +kernel, by decide +kernel,
      by decide +kernel, by decide +kernel⟩
  · exact ⟨(1), (0), (16), (wWork (wCmd [])), (wQue), by decide +kernel, by decide +kernel, by decide +kernel, by decide +kernel, by decide +kernel, by decide +kernel,
      by decide +kernel, by decide +kernel⟩
  · exact ⟨(1), (0), (0), (wWork (wCmd [])), (wQue), by decide +kernel, by decide +kernel, by decide +kernel, by decide +kernel, by decide +kernel, by decide +kernel,
      by decide +kernel⟩
  · exact ⟨(0), (5), (wSt), by decide +kernel⟩
  · exact ⟨(1), (5), (wSt), by decide +kernel⟩
  · exact ⟨(wSt), by decide +kernel⟩

theorem witness_ConfigCommandsComplete :
    (∃ slot : MbSlot, ∃ s : Machine.State, ∃ c : MbCmd, MbTakes s slot 1 c
      { fields := [(0x10, 0, 8), (0x18, 0, 64)], range := isBit (c.f 0x18 0 64), permitted := isFn0 slot } ∧ c.f 0x10 0 8 = 1) ∧
    (∃ slot : MbSlot, ∃ s : Machine.State, ∃ c : MbCmd, MbTakes s slot 1 c
      { fields := [(0x10, 0, 8), (0x18, 0, 64)], range := isBit (c.f 0x18 0 64), permitted := isFn0 slot } ∧ c.f 0x10 0 8 = 2 ∧ allIdle s = true) ∧
    (∃ slot : MbSlot, ∃ s : Machine.State, ∃ c : MbCmd, MbTakes s slot 1 c
      { fields := [(0x10, 0, 8), (0x18, 0, 64)], range := isBit (c.f 0x18 0 64), permitted := isFn0 slot } ∧ c.f 0x10 0 8 = 2 ∧ allIdle s = false) ∧
    (∃ slot : MbSlot, ∃ s : Machine.State, ∃ c : MbCmd, MbTakes s slot 1 c
      { fields := [(0x10, 0, 8), (0x18, 0, 64)], range := isBit (c.f 0x18 0 64), permitted := isFn0 slot } ∧ c.f 0x10 0 8 = 3) ∧
    (∃ slot : MbSlot, ∃ s : Machine.State, ∃ c : MbCmd, MbTakes s slot 1 c
      { fields := [(0x10, 0, 8), (0x18, 0, 64)], range := isBit (c.f 0x18 0 64), permitted := isFn0 slot } ∧ c.f 0x10 0 8 = 4) ∧
    (∃ slot : MbSlot, ∃ s : Machine.State, ∃ c : MbCmd, MbTakes s slot 1 c
      { fields := [(0x10, 0, 8), (0x18, 0, 64)], range := decide (c.f 0x18 0 64 < 16384), permitted := isFn0 slot } ∧ c.f 0x10 0 8 = 5 ∧ (List.range 24).any (portUp s) =
      false) ∧
    (∃ slot : MbSlot, ∃ s : Machine.State, ∃ c : MbCmd, MbTakes s slot 1 c
      { fields := [(0x10, 0, 8), (0x18, 0, 64)], range := decide (1 ≤ c.f 0x18 0 64) && decide (c.f 0x18 0 64 ≤ 255), permitted := isFn0 slot } ∧ c.f 0x10 0 8 = 6) ∧
    (∃ slot : MbSlot, ∃ s : Machine.State, ∃ c : MbCmd, MbTakes s slot 2 c { fields := [(0x10, 0, 64)], range := c.f 0x10 0 64 % 64 == 0 } ∧ slot.fn.val = 0) := by
  refine ⟨?_, ?_, ?_, ?_, ?_, ?_, ?_, ?_⟩
  · exact ⟨({ fn := 0, index := 0 }), (wFn 0 (wMb [(0, 1), (128, 1), (192, 1)]) wSt), (wMb [(0, 1), (128, 1), (192, 1)]), (by unfold MbTakes; decide +kernel),
      by decide +kernel⟩
  · exact ⟨({ fn := 0, index := 0 }), (wFn 0 (wMb [(0, 1), (128, 2), (192, 1)]) wIdle), (wMb [(0, 1), (128, 2), (192, 1)]), (by unfold MbTakes; decide +kernel),
      by decide +kernel, by decide +kernel⟩
  · exact ⟨({ fn := 0, index := 0 }), (wFn 0 (wMb [(0, 1), (128, 2), (192, 0)]) wSt), (wMb [(0, 1), (128, 2), (192, 0)]), (by unfold MbTakes; decide +kernel),
      by decide +kernel, by decide +kernel⟩
  · exact ⟨({ fn := 0, index := 0 }), (wFn 0 (wMb [(0, 1), (128, 3), (192, 1)]) wSt), (wMb [(0, 1), (128, 3), (192, 1)]), (by unfold MbTakes; decide +kernel),
      by decide +kernel⟩
  · exact ⟨({ fn := 0, index := 0 }), (wFn 0 (wMb [(0, 1), (128, 4), (192, 0)]) wSt), (wMb [(0, 1), (128, 4), (192, 0)]), (by unfold MbTakes; decide +kernel),
      by decide +kernel⟩
  · exact ⟨({ fn := 0, index := 0 }), (wFn 0 (wMb [(0, 1), (128, 5), (192, 16383)]) wSt), (wMb [(0, 1), (128, 5), (192, 16383)]), (by unfold MbTakes; decide +kernel),
      by decide +kernel, by decide +kernel⟩
  · exact ⟨({ fn := 0, index := 0 }), (wFn 0 (wMb [(0, 1), (128, 6), (192, 255)]) wSt), (wMb [(0, 1), (128, 6), (192, 255)]), (by unfold MbTakes; decide +kernel),
      by decide +kernel⟩
  · exact ⟨({ fn := 0, index := 0 }), (wFn 0 (wMb [(0, 2), (128, 64)]) wSt), (wMb [(0, 2), (128, 64)]), (by unfold MbTakes; decide +kernel), by decide +kernel⟩

theorem witness_PartitionCommandsComplete :
    (∃ slot : MbSlot, ∃ s : Machine.State, ∃ c : MbCmd, MbTakes s slot 3 c
      { fields := [(0x10, 0, 4), (0x18, 0, 1), (0x20, 0, 192)], range := [1, 2, 4, 8].contains (c.f 0x10 0 4), permitted := isFn0 slot } ∧ allIdle s = true ∧
      s.vols.releases = [] ∧ c.f 0x18 0 1 = 0 ∧ maintFree s (fun _ => true) = true) ∧
    (∃ slot : MbSlot, ∃ s : Machine.State, ∃ c : MbCmd, ∃ since : Nat, mbFind s slot = some c ∧ c.opcode = 3 ∧ c.answer = none ∧ s.seq.fwState = 1 ∧ c.started = some
      since ∧ c.arg = 1 ∧ maintFree s (fun m => m.1 == 4) = true ∧ [1, 2, 4, 8].contains (c.f 0x10 0 4) = true ∧ c.f 0x18 0 1 = 0) ∧
    (∃ part : PartNo, ∃ s : Machine.State, ∃ r : Release, Tbl.find s.vols.releases part = some r ∧ r.squash = false ∧ r.stage = 0) ∧
    (∃ part : PartNo, ∃ s : Machine.State, ∃ r : Release, Tbl.find (advanceRelease s part).vols.releases part = some r ∧ r.stage = 2) ∧
    (∃ slot : MbSlot, ∃ s : Machine.State, ∃ c : MbCmd, MbTakes s slot 5 c { fields := [(0x10, 0, 1)], permitted := isPartFn slot } ∧ c.f 0x10 0 1 = 0 ∧ partTiles s
      (partOfFn slot) = [] ∧ ((s.modPart (partOfFn slot) (fun x => { x with quiesced := true })).part (partOfFn slot)).quiesced = true ∧ quiet (s.modPart (partOfFn slot)
      (fun x => { x with quiesced := true })) (partOfFn slot) = true) ∧
    (∃ slot : MbSlot, ∃ s : Machine.State, ∃ c : MbCmd, MbTakes s slot 5 c { fields := [(0x10, 0, 1)], permitted := isPartFn slot } ∧ c.f 0x10 0 1 = 1) ∧
    (∃ slot : MbSlot, ∃ s : Machine.State, ∃ c : MbCmd, MbTakes s slot 6 c { fields := [(0x10, 0, 64)], permitted := isPartFn slot } ∧ holdsSealed s (partOfFn slot) =
      false) ∧
    (∃ slot : MbSlot, ∃ s : Machine.State, ∃ c : MbCmd, ∃ t : Machine.State, ∃ n : List Byte, ∃ a : Bool, ∃ u : Machine.State, ∃ all : List Byte, ∃ b : Bool, MbTakes s
      slot 7 c { fields := [(0x10, 0, 512), (0x50, 0, 64)], range := c.f 0x50 0 64 % 8 == 0, permitted := isPartFn slot } ∧ engineRead s
      { master := 42, part := partOfFn slot, bypass := true } 0 (c.f 0x50 0 64) 8 = .ok t (n, a) ∧ engineRead t { master := 42, part := partOfFn slot, bypass := true } 0
      (c.f 0x50 0 64) (8 + natLE n) = .ok u (all, b) ∧ (sha3Nat all).toNat = c.f 0x10 0 512) := by
  refine ⟨?_, ?_, ?_, ?_, ?_, ?_, ?_, ?_⟩
  · exact ⟨({ fn := 0, index := 0 }), (wFn 0 (wMb [(0, 3), (128, 8)]) wIdle), (wMb [(0, 3), (128, 8)]), (by unfold MbTakes; decide +kernel), by decide +kernel,
      by decide +kernel, by decide +kernel, by decide +kernel⟩
  · exact ⟨({ fn := 0, index := 0 }), (wFn 0 { wMb [(0, 3), (128, 8)] with started := some 0, arg := 1 } wIdle),
      ({ wMb [(0, 3), (128, 8)] with started := some 0, arg := 1 }), ((((({ wMb [(0, 3), (128, 8)] with started := some 0, arg := 1 }) : MbCmd).started).get
      (by decide +kernel))), by decide +kernel, by decide +kernel, by decide +kernel, by decide +kernel, (of_get (by decide +kernel)), by decide +kernel,
      by decide +kernel, by decide +kernel, by decide +kernel⟩
  · exact ⟨(7), ({ wSt with vols := { releases := [(7, { limit := 9 })] } }), ({ limit := 9 }), by decide +kernel, by decide +kernel, by decide +kernel⟩
  · exact ⟨(0), ({ wSt with vols := { releases := [(0, { stage := 2 })] } }), ({ stage := 2 }), by decide +kernel, by decide +kernel⟩
  · exact ⟨({ fn := 1, index := 0 }), (wFn 1 (wMb [(0, 5)]) wIdle), (wMb [(0, 5)]), (by unfold MbTakes; decide +kernel), by decide +kernel, by decide +kernel,
      by decide +kernel, by decide +kernel⟩
  · exact ⟨({ fn := 1, index := 0 }), (wFn 1 (wMb [(0, 5), (128, 1)]) wSt), (wMb [(0, 5), (128, 1)]), (by unfold MbTakes; decide +kernel), by decide +kernel⟩
  · exact ⟨({ fn := 1, index := 0 }), (wFn 1 (wMb [(0, 6), (128, 64)]) wSt), (wMb [(0, 6), (128, 64)]), (by unfold MbTakes; decide +kernel), by decide +kernel⟩
  · have h1 : (engineRead wImport { master := 42, part := partOfFn ⟨1, 0⟩, bypass := true } 0 ((wMb wImportC).f 0x50 0 64) 8).opt = some (wRead wImport, List.replicate 8 0#8, false) := by decide +kernel
    have h2 : (engineRead (wRead wImport) { master := 42, part := partOfFn ⟨1, 0⟩, bypass := true } 0 ((wMb wImportC).f 0x50 0 64) (8 + natLE (List.replicate 8 0#8))).opt = some (wRead (wRead wImport), List.replicate 8 0#8, false) := by decide +kernel
    have h3 : engineRead wImport { master := 42, part := partOfFn ⟨1, 0⟩, bypass := true } 0 ((wMb wImportC).f 0x50 0 64) 8 = .ok (wRead wImport) (List.replicate 8 0#8, false) := (have h := Got.of_opt h1; h)
    have h4 : engineRead (wRead wImport) { master := 42, part := partOfFn ⟨1, 0⟩, bypass := true } 0 ((wMb wImportC).f 0x50 0 64) (8 + natLE (List.replicate 8 0#8)) = .ok (wRead (wRead wImport)) (List.replicate 8 0#8, false) := (have h := Got.of_opt h2; h)
    have h5 : (sha3Nat (List.replicate 8 0#8)).toNat = (wMb wImportC).f 0x10 0 512 := by decide +kernel
    have h0 : MbTakes wImport ⟨1, 0⟩ 7 (wMb wImportC) { fields := [(0x10, 0, 512), (0x50, 0, 64)], range := (wMb wImportC).f 0x50 0 64 % 8 == 0, permitted := isPartFn ⟨1, 0⟩ } := by unfold MbTakes; decide +kernel
    exact ⟨_, _, _, _, _, _, _, _, _, h0, h3, h4, h5⟩

theorem witness_PowerCommandsComplete :
    (∃ slot : MbSlot, ∃ s : Machine.State, ∃ c : MbCmd, MbTakes s slot 8 c { fields := [(0x10, 0, 64)], permitted := slot.fn.val == 0 }) ∧
    (∃ slot : MbSlot, ∃ s : Machine.State, ∃ c : MbCmd, MbTakes s slot 9 c
      { fields := [(0x10, 0, 1), (0x18, 0, 32), (0x20, 0, 11)], range := decide (400 ≤ c.f 0x20 0 11) && decide (c.f 0x20 0 11 ≤ 1000), permitted := slot.fn.val == 0 } ∧
      c.f 0x10 0 1 = 0) ∧
    (∃ slot : MbSlot, ∃ s : Machine.State, ∃ c : MbCmd, MbTakes s slot 9 c
      { fields := [(0x10, 0, 1), (0x18, 0, 32), (0x20, 0, 11)], range := decide (c.f 0x20 0 11 ≤ 58), permitted := slot.fn.val != 0 && (tenantHolds s (slot.fn.val - 1) (c.f 0x18 0 32) || !Tbl.has s.vols.vols (c.f 0x18 0 32)), handles := ((Tbl.find s.vols.vols (c.f 0x18 0 32)).bind (·.cur)).isSome }
      ∧ c.f 0x10 0 1 = 1) ∧
    (∃ slot : MbSlot, ∃ s : Machine.State, ∃ c : MbCmd, MbTakes s slot 10 c
      { fields := [(0x10, 0, 10), (0x18, 0, 10)], range := decide (1 ≤ c.f 0x10 0 10) && decide (c.f 0x10 0 10 ≤ 1000) && decide (20 ≤ c.f 0x18 0 10) && decide (c.f 0x18 0 10 ≤ 1000), permitted := isPartFn slot })
      ∧
    (∃ slot : MbSlot, ∃ s : Machine.State, ∃ c : MbCmd, slot.fn.val = 0 ∧ c.f 0x10 0 6 < 36 ∧ c.f 0x10 8 1 = 0 ∧ MbTakes s slot 11 c
      { fields := [(0x10, 0, 6), (0x10, 8, 1), (0x18, 0, 128)], range := true, permitted := true } ∧ ((∀ k < 8, capFloor (c.f 0x10 0 6) ≤ c.f (0x18 + 2 * k) 0 16 ∧
      guarFits s k (c.f 0x10 0 6) (c.f (0x18 + 2 * k) 0 16) = true))) ∧
    (∃ slot : MbSlot, ∃ table : List Byte, ∃ s : Machine.State, ∃ c : MbCmd, MbTakes s slot 12 c { fields := [(0x10, 0, 64)], permitted := isFn0 slot } ∧ bankInGrace s
      = false ∧ table.length = 65536) := by
  refine ⟨?_, ?_, ?_, ?_, ?_, ?_⟩
  · exact ⟨({ fn := 0, index := 0 }), (wFn 0 (wMb [(0, 8), (128, 5)]) wSt), (wMb [(0, 8), (128, 5)]), (by unfold MbTakes; decide +kernel)⟩
  · exact ⟨({ fn := 0, index := 0 }), (wFn 0 (wMb [(0, 9), (256, 400)]) wSt), (wMb [(0, 9), (256, 400)]), (by unfold MbTakes; decide +kernel), by decide +kernel⟩
  · exact ⟨({ fn := 1, index := 0 }), (wFn 1 (wMb [(0, 9), (128, 1), (192, 1), (256, 58)]) (wWork (wCmd []))), (wMb [(0, 9), (128, 1), (192, 1), (256, 58)]),
      (by unfold MbTakes; decide +kernel), by decide +kernel⟩
  · exact ⟨({ fn := 1, index := 0 }), (wFn 1 (wMb [(0, 10), (128, 1000), (192, 20)]) wSt), (wMb [(0, 10), (128, 1000), (192, 20)]), (by unfold MbTakes; decide +kernel)⟩
  · exact ⟨({ fn := 0, index := 0 }), (wFn 0 (wMb [(0, 11), (128, 35)]) wSt), (wMb [(0, 11), (128, 35)]), by decide +kernel, by decide +kernel, by decide +kernel,
      (by unfold MbTakes; decide +kernel), by decide +kernel⟩
  · exact ⟨({ fn := 0, index := 0 }), (List.replicate 65536 0#8), (wFn 0 (wMb [(0, 12), (128, 64)]) wSt), (wMb [(0, 12), (128, 64)]), (by unfold MbTakes; decide +kernel),
      by decide +kernel, List.length_replicate⟩

theorem witness_SecurityCommandsComplete :
    (∃ slot : MbSlot, ∃ s : Machine.State, ∃ c : MbCmd, c.f 0x10 0 5 < 24 ∧ c.f 0x18 8 3 ≤ 4 ∧ MbTakes s slot 0x0D c
      { fields := [(0x10, 0, 5), (0x18, 0, 11), (0x18, 12, 2), (0x18, 16, 1)], permitted := isFn0 slot }) ∧
    (∃ slot : MbSlot, ∃ s : Machine.State, ∃ c : MbCmd, MbTakes s slot 0x0E c { fields := [], permitted := isFn0 slot } ∧ ((∀ b < 32, softRows (s.bay b) = 0)) ∧
      s.sec.fusedRows ≤ Config.fuseRoom ∧ s.sec.imageSecVersion ≤ s.sec.secVersion) ∧
    (∃ slot : MbSlot, ∃ s : Machine.State, ∃ c : MbCmd, 1 ≤ c.f 0x18 0 7 ∧ c.f 0x18 0 7 ≤ 104 ∧ MbTakes s slot 0x0F c
      { fields := [(0x10, 0, 14), (0x18, 0, 7), (0x20, 0, 832)], permitted := isFn0 slot }) ∧
    (∃ slot : MbSlot, ∃ s : Machine.State, ∃ c : MbCmd, ∃ u : Machine.State, ∃ n : Nat, MbTakes s slot 0x61 c
      { fields := [(0x10, 0, 1), (0x18, 0, 512), (0x58, 0, 64)], range := c.f 0x58 0 64 % 64 == 0 } ∧ slot.fn.val = n + 1 ∧ canSign s = true ∧ c.f 0x10 0 1 = 0 ∧ u =
      cmWrite s (n + 1) (c.f 0x58 0 64) (report s (reportBody s (some n) (bytesLE 64 (c.f 0x18 0 512)) none))) ∧
    (∃ slot : MbSlot, ∃ s : Machine.State, ∃ c : MbCmd, MbTakes s slot 0x61 c
      { fields := [(0x10, 0, 1), (0x18, 0, 512), (0x58, 0, 64)], range := c.f 0x58 0 64 % 64 == 0 } ∧ canSign s = false) ∧
    (∃ slot : MbSlot, ∃ blob : List Byte, ∃ s : Machine.State, ∃ c : MbCmd, ∃ i : Nat, ∃ k : KemKey, keyRange s (partOfFn slot) (c.f 0x18 0 12) = true ∧ findKem s
      (partOfFn slot) (c.f 0x10 0 64) = some (i, k) ∧ MbTakes s slot 0x62 c { fields := [(0x10, 0, 64), (0x18, 0, 12), (0x20, 0, 64)], permitted := isPartFn slot } ∧
      Tbl.has s.sec.keys (c.f 0x18 0 12) = false) ∧
    (∃ slot : MbSlot, ∃ s : Machine.State, ∃ c : MbCmd, keyRange s (partOfFn slot) (c.f 0x10 0 12) = true ∧ MbTakes s slot 0x63 c
      { fields := [(0x10, 0, 12)], permitted := isPartFn slot }) ∧
    (∃ slot : MbSlot, ∃ s : Machine.State, ∃ c : MbCmd, c.f 0x10 0 5 < 24 ∧ MbTakes s slot 0x64 c { fields := [(0x10, 0, 5)], permitted := isFn0 slot } ∧ (linkOf s (c.f
      0x10 0 5)).state = 4) ∧
    (∃ slot : MbSlot, ∃ policy : List Byte, ∃ s : Machine.State, ∃ c : MbCmd, MbTakes s slot 0x60 c { fields := [(0x10, 0, 64)], permitted := isPartFn slot } ∧
      s.sec.keys = [] ∧ s.work.objs = [] ∧ policyOk policy = true) ∧
    (∃ slot : MbSlot, ∃ s : Machine.State, ∃ c : MbCmd, MbTakes s slot 0x65 c { fields := lcFields, permitted := isFn0 slot } ∧ c.f 0x10 0 1 = 0 ∧ s.sec.lc = 2) ∧
    (∃ slot : MbSlot, ∃ token : List Byte, ∃ s : Machine.State, ∃ c : MbCmd, MbTakes s slot 0x65 c { fields := lcFields, permitted := isFn0 slot } ∧ c.f 0x10 0 1 = 1) := by
  refine ⟨?_, ?_, ?_, ?_, ?_, ?_, ?_, ?_, ?_, ?_, ?_⟩
  · exact ⟨({ fn := 0, index := 0 }), (wFn 0 (wMb [(0, 13), (128, 23), (200, 4)]) wSt), (wMb [(0, 13), (128, 23), (200, 4)]), by decide +kernel, by decide +kernel,
      (by unfold MbTakes; decide +kernel)⟩
  · exact ⟨({ fn := 0, index := 0 }), (wFn 0 (wMb [(0, 14)]) wSt), (wMb [(0, 14)]), (by unfold MbTakes; decide +kernel), by decide +kernel, Nat.zero_le _, by decide +kernel⟩
  · exact ⟨({ fn := 0, index := 0 }), (wFn 0 (wMb [(0, 15), (128, 5), (192, 104)]) wSt), (wMb [(0, 15), (128, 5), (192, 104)]), by decide +kernel, by decide +kernel,
      (by unfold MbTakes; decide +kernel)⟩
  · exact ⟨⟨1, 0⟩, wFn 1 (wMb [(0, 0x61), (704, 64)]) { wSt with sec := { identity := true } }, wMb [(0, 0x61), (704, 64)], _, 0, by unfold MbTakes; decide +kernel, rfl,
      by decide +kernel, by decide +kernel, rfl⟩
  · exact ⟨({ fn := 1, index := 0 }), (wFn 1 (wMb [(0, 97), (704, 64)]) wSt), (wMb [(0, 97), (704, 64)]), (by unfold MbTakes; decide +kernel), by decide +kernel⟩
  · exact ⟨({ fn := 1, index := 0 }), ([]), (wFn 1 (wMb [(0, 98), (128, 32), (192, 4095)]) ({ wSt with sec := { kems := [(0, wKem)] } })), (wMb [(0, 98), (128, 32), (192,
      4095)]), (0), (wKem), by decide +kernel, by decide +kernel, (by unfold MbTakes; decide +kernel), by decide +kernel⟩
  · exact ⟨({ fn := 1, index := 0 }), (wFn 1 (wMb [(0, 99), (128, 0)]) wSt), (wMb [(0, 99), (128, 0)]), by decide +kernel, (by unfold MbTakes; decide +kernel)⟩
  · exact ⟨({ fn := 0, index := 0 }), (wFn 0 (wMb [(0, 100), (128, 0)]) (wLink 4 0)), (wMb [(0, 100), (128, 0)]), by decide +kernel, (by unfold MbTakes; decide +kernel),
      by decide +kernel⟩
  · exact ⟨({ fn := 1, index := 0 }), (1#8 :: List.replicate 71 0#8), (wFn 1 (wMb [(0, 96), (128, 64)]) wIdle), (wMb [(0, 96), (128, 64)]),
      (by unfold MbTakes; decide +kernel), by decide +kernel, by decide +kernel, by decide +kernel⟩
  · exact ⟨({ fn := 0, index := 0 }), (wFn 0 (wMb [(0, 101)]) ({ wSt with sec := { lc := 2 } })), (wMb [(0, 101)]), (by unfold MbTakes; decide +kernel), by decide +kernel,
      by decide +kernel⟩
  · exact ⟨({ fn := 0, index := 0 }), ([]), (wFn 0 (wMb [(0, 101), (128, 1)]) ({ wSt with sec := { lc := 2 } })), (wMb [(0, 101), (128, 1)]),
      (by unfold MbTakes; decide +kernel), by decide +kernel⟩

theorem witness_ContextCommandsComplete :
    (∃ slot : MbSlot, ∃ s : Machine.State, ∃ c : MbCmd, ∃ key : Nat, ctxFieldsOk s (partOfFn slot) c = true ∧ MbTakes s slot 0x20 c
      { fields := [(0x10, 0, 64), (0x18, 0, 1), (0x18, 8, 6), (0x20, 0, 64), (0x28, 0, 64), (0x30, 0, 64), (0x38, 0, 64), (0x40, 0, 11)], permitted := isPartFn slot } ∧
      Tbl.freeKey s.work.ctxs (partOfFn slot * 4096) ((partOfFn slot + 1) * 4096) = some key) ∧
    (∃ slot : MbSlot, ∃ s : Machine.State, ∃ c : MbCmd, ∃ key : Nat, ∃ x : Ctx, MbTakes s slot 0x21 c
      { fields := [(0x10, 0, 32), (0x18, 0, 64)], permitted := isPartFn slot } ∧ liveCtx s (partOfFn slot) (c.f 0x10 0 32) = some (key, x)) ∧
    (∃ slot : MbSlot, ∃ s : Machine.State, ∃ c : MbCmd, ∃ key : Nat, ∃ x : Ctx, ∃ u : Machine.State, MbTakes s slot 0x22 c
      { fields := [(0x10, 0, 32)], permitted := isPartFn slot } ∧ liveCtx s (partOfFn slot) (c.f 0x10 0 32) = some (key, x) ∧ x.state = .faulted ∧ checkSave (makeResident
      s key).1 key = (u, some 0)) ∧
    (∃ slot : MbSlot, ∃ s : Machine.State, ∃ c : MbCmd, ∃ key : Nat, ∃ x : Ctx, ∃ u : Machine.State, MbTakes s slot 0x23 c
      { fields := [(0x10, 0, 32)], permitted := isPartFn slot } ∧ liveCtx s (partOfFn slot) (c.f 0x10 0 32) = some (key, x) ∧ finishDestroy (beginDestroy s key slot.fn
      c.index) key = (u, true)) ∧
    (∃ bay : BayNo, ∃ s : Machine.State, ∃ id : Nat, ∃ t : Tile, ∃ c : Cmd, ∃ d : Nat, s.work.tiles.filter (fun t => t.2.bay == bay.val) = [(id, t)] ∧ tileCmd s id =
      some (t, c) ∧ (Tbl.find s.work.ctxs c.ctx).bind (·.destroyAt) = some d) ∧
    (∃ slot : MbSlot, ∃ s : Machine.State, ∃ c : MbCmd, ∃ key : Nat, ∃ x : Ctx, MbTakes s slot 0x24 c
      { fields := [(0x10, 0, 32), (0x18, 0, 16)], permitted := isPartFn slot } ∧ liveCtx s (partOfFn slot) (c.f 0x10 0 32) = some (key, x) ∧ x.unacked.contains (c.f 0x18
      0 16) = true) ∧
    (∃ slot : MbSlot, ∃ s : Machine.State, ∃ c : MbCmd, ∃ key : Nat, ∃ x : Ctx, ∃ r : FaultRec, ∃ t : Machine.State, ∃ d : Nat, MbTakes s slot 0x25 c
      { fields := [(0x10, 0, 32), (0x18, 0, 16)], permitted := isPartFn slot } ∧ liveCtx s (partOfFn slot) (c.f 0x10 0 32) = some (key, x) ∧ Tbl.find s.work.faultRecs
      (key * 65536 + c.f 0x18 0 16) = some r ∧ retryRecord (endHolds s r) key r = .done t 0 d []) ∧
    (∃ slot : MbSlot, ∃ s : Machine.State, ∃ c : MbCmd, ∃ key : Nat, ∃ x : Ctx, ∃ r : FaultRec, MbTakes s slot 0x26 c
      { fields := [(0x10, 0, 32), (0x18, 0, 16)], permitted := isPartFn slot } ∧ liveCtx s (partOfFn slot) (c.f 0x10 0 32) = some (key, x) ∧ Tbl.find s.work.faultRecs
      (key * 65536 + c.f 0x18 0 16) = some r) ∧
    (∃ slot : MbSlot, ∃ s : Machine.State, ∃ c : MbCmd, ∃ key : Nat, ∃ x : Ctx, ∃ q : Nat, MbTakes s slot 0x28 c
      { fields := [(0x10, 0, 32), (0x18, 0, 64), (0x20, 0, 64), (0x28, 0, 13), (0x30, 0, 8)], permitted := isPartFn slot } ∧ isPow2 (c.f 0x28 0 13) = true ∧ 16 ≤ c.f 0x28
      0 13 ∧ c.f 0x28 0 13 ≤ 4096 ∧ c.f 0x30 0 8 = 0xFF ∧ liveCtx s (partOfFn slot) (c.f 0x10 0 32) = some (key, x) ∧ Tbl.freeKey s.work.queues (partOfFn slot * (65536 /
      s.nparts)) ((partOfFn slot + 1) * (65536 / s.nparts)) = some q) ∧
    (∃ slot : MbSlot, ∃ s : Machine.State, ∃ c : MbCmd, ∃ q : Nat, ∃ t : Machine.State, ∃ d : Nat, ∃ r : List Nat, MbTakes s slot 0x29 c
      { fields := [(0x10, 0, 32)], permitted := isPartFn slot } ∧ liveQueue s (partOfFn slot) (c.f 0x10 0 32) = some q ∧ endQueue (stopCmds (modQueue s q (fun x =>
      { x with destroyAt := some s.now })) (fun _ c => c.queue == q)) q = .done t 0 d r) := by
  refine ⟨?_, ?_, ?_, ?_, ?_, ?_, ?_, ?_, ?_, ?_⟩
  · exact ⟨({ fn := 1, index := 0 }), (wFn 1 (wMb [(0, 32), (128, 32768), (200, 1), (384, 3407872), (512, 16)]) wIdle), (wMb [(0, 32), (128, 32768), (200, 1), (384, 3407872),
      (512, 16)]), (((Tbl.freeKey ((wFn 1 (wMb [(0, 32), (128, 32768), (200, 1), (384, 3407872), (512, 16)]) wIdle) : Machine.State).work.ctxs (partOfFn
      (({ fn := 1, index := 0 }) : MbSlot) * 4096) ((partOfFn (({ fn := 1, index := 0 }) : MbSlot) + 1) * 4096)).get (by decide +kernel))), by decide +kernel,
      (by unfold MbTakes; decide +kernel), (of_get (by decide +kernel))⟩
  · exact ⟨({ fn := 1, index := 0 }), (wFn 1 (wMb [(0, 33), (128, 65536), (192, 5)]) (wCx wCtx)), (wMb [(0, 33), (128, 65536), (192, 5)]), (0), (wCtx),
      (by unfold MbTakes; decide +kernel), by decide +kernel⟩
  · exact ⟨({ fn := 1, index := 0 }), (wFn 1 (wMb [(0, 34), (128, 65536)]) (wCx { wCtx with state := .faulted })), (wMb [(0, 34), (128, 65536)]), (0),
      ({ wCtx with state := .faulted }), (checkSave (makeResident ((wFn 1 (wMb [(0, 34), (128, 65536)]) (wCx { wCtx with state := .faulted })) : Machine.State) ((0) :
      Nat)).1 ((0) : Nat)).1, (by unfold MbTakes; decide +kernel), by decide +kernel, by decide +kernel, Prod.ext rfl (by decide +kernel)⟩
  · exact ⟨({ fn := 1, index := 0 }), (wFn 1 (wMb [(0, 35), (128, 65536)]) (wCx wCtx)), (wMb [(0, 35), (128, 65536)]), (0), (wCtx), (finishDestroy (beginDestroy ((wFn 1 (wMb
      [(0, 35), (128, 65536)]) (wCx wCtx)) : Machine.State) ((0) : Nat) (({ fn := 1, index := 0 }) : MbSlot).fn ((wMb [(0, 35), (128, 65536)]) : MbCmd).index) ((0) :
      Nat)).1, (by unfold MbTakes; decide +kernel), by decide +kernel, Prod.ext rfl (by decide +kernel)⟩
  · exact ⟨(0), ({ wSt with work := { wSt.work with ctxs := [(0, { wCtx with destroyAt := some 0 })] } }), (1), ({ cmd := 1, step := 7 }), ({ ctx := 0, word := 1#2048 }),
      (0), by decide +kernel, by decide +kernel, by decide +kernel⟩
  · exact ⟨({ fn := 1, index := 0 }), (wFn 1 (wMb [(0, 36), (128, 65536), (192, 3)]) (wCx { wCtx with seq := 5, unacked := [3, 4] })), (wMb [(0, 36), (128, 65536), (192,
      3)]), (0), ({ wCtx with seq := 5, unacked := [3, 4] }), (by unfold MbTakes; decide +kernel), by decide +kernel, by decide +kernel⟩
  · obtain ⟨p, hp⟩ : ∃ p, (retryRecord (endHolds wRs { seq := 3, va := 0 }) 0 { seq := 3, va := 0 }).opt = some p := ⟨_, of_get (by decide +kernel)⟩
    have h4 := MbRes.of_opt hp
    have hr : p.2.2 = [] := by
      have h5 : (retryRecord (endHolds wRs { seq := 3, va := 0 }) 0 { seq := 3, va := 0 }).opt.map (·.2.2) = some [] := by decide +kernel
      rw [hp] at h5; exact Option.some.inj h5
    rw [hr] at h4
    exact ⟨⟨1, 0⟩, wRs, wRc, 0, { wCtx with retry := true }, { seq := 3, va := 0 }, p.1, p.2.1, by unfold MbTakes; decide +kernel, by decide +kernel, by decide +kernel, h4⟩
  · exact ⟨({ fn := 1, index := 0 }), (wFn 1 (wMb [(0, 38), (128, 65536), (192, 3)]) (wCx { wCtx with retry := true } (fun w =>
      { w with faultRecs := [(3, { seq := 3, va := 0 })] }))), (wMb [(0, 38), (128, 65536), (192, 3)]), (0), ({ wCtx with retry := true }), ({ seq := 3, va := 0 }),
      (by unfold MbTakes; decide +kernel), by decide +kernel, by decide +kernel⟩
  · exact ⟨({ fn := 1, index := 0 }), (wFn 1 (wMb [(0, 40), (128, 65536), (320, 16), (384, 255)]) (wCx wCtx)), (wMb [(0, 40), (128, 65536), (320, 16), (384, 255)]), (0),
      (wCtx), (0), (by unfold MbTakes; decide +kernel), by decide +kernel, by decide +kernel, by decide +kernel, by decide +kernel, by decide +kernel, by decide +kernel⟩
  · obtain ⟨p, hp⟩ : ∃ p, (endQueue (stopCmds (modQueue wQs 0 (fun x => { x with destroyAt := some wQs.now })) (fun _ c => c.queue == 0)) 0).opt = some p := ⟨_, of_get (by decide +kernel)⟩
    exact ⟨⟨1, 0⟩, wQs, wQd, 0, p.1, p.2.1, p.2.2, by unfold MbTakes; decide +kernel, by decide +kernel, MbRes.of_opt hp⟩

theorem witness_ObjectCommandsComplete :
    (∃ slot : MbSlot, ∃ s : Machine.State, ∃ c : MbCmd, ∃ k : Nat, ∃ x : Ctx, ∃ ok : Nat, ∃ o : MemObj, ∃ u : Machine.State, ∃ h : BitVec 2048, MbTakes s slot 0x2A c
      { fields := [(0x10, 0, 32), (0x18, 0, 32), (0x20, 0, 64)], permitted := isPartFn slot } ∧ c.f 0x20 0 64 < 2 ^ 57 ∧ liveCtx s (partOfFn slot) (c.f 0x10 0 32) = some
      (k, x) ∧ findObj s (partOfFn slot) (c.f 0x18 0 32) = some (ok, o) ∧ o.holds.contains k = true ∧ o.state = .live ∧ checkImage s k x o (c.f 0x20 0 64) = .ok u (.ok h)
      ∧ Tbl.find u.sec.policies (partOfFn slot) = none) ∧
    (∃ slot : MbSlot, ∃ s : Machine.State, ∃ c : MbCmd, ∃ key : Nat, ∃ o : MemObj, MbTakes s slot 0x2B c { fields := [(0x10, 0, 32)], permitted := isPartFn slot } ∧
      findObj s (partOfFn slot) (c.f 0x10 0 32) = some (key, o) ∧ o.image.isSome = true) ∧
    (∃ slot : MbSlot, ∃ s : Machine.State, ∃ c : MbCmd, ∃ ck : Nat, ∃ x : Ctx, ∃ base : Nat, ∃ key : Nat, ∃ u : Machine.State, MbTakes s slot 0x30 c
      { fields := [(0x10, 0, 32), (0x18, 0, 64), (0x20, 0, 1), (0x20, 8, 8)], permitted := isPartFn slot } ∧ c.f 0x18 0 64 ≠ 0 ∧ c.f 0x18 0 64 % pageBytes = 0 ∧ c.f 0x20
      8 8 = 0xFF ∧ liveCtx s (partOfFn slot) (c.f 0x10 0 32) = some (ck, x) ∧ placeObj s (partOfFn slot) (c.f 0x18 0 64) (c.f 0x20 0 1 == 1) 0xFF = some base ∧
      Tbl.freeKey s.work.objs (partOfFn slot * 65536) ((partOfFn slot + 1) * 65536) = some key ∧ zeroObj s
      ({ gen := Tbl.getD s.work.objGens key 1, base := base, bytes := c.f 0x18 0 64, interleaved := c.f 0x20 0 1 == 1, holds := [ck] } : MemObj) = (u, true)) ∧
    (∃ slot : MbSlot, ∃ s : Machine.State, ∃ c : MbCmd, ∃ ck : Nat, ∃ x : Ctx, ∃ ok : Nat, ∃ o : MemObj, MbTakes s slot 0x31 c
      { fields := [(0x10, 0, 32), (0x18, 0, 32)], permitted := isPartFn slot } ∧ liveCtx s (partOfFn slot) (c.f 0x10 0 32) = some (ck, x) ∧ findObj s (partOfFn slot) (c.f
      0x18 0 32) = some (ok, o) ∧ o.state = .live) ∧
    (∃ slot : MbSlot, ∃ s : Machine.State, ∃ c : MbCmd, ∃ ck : Nat, ∃ x : Ctx, ∃ ok : Nat, ∃ o : MemObj, MbTakes s slot 0x32 c
      { fields := [(0x10, 0, 32), (0x18, 0, 32)], permitted := isPartFn slot } ∧ liveCtx s (partOfFn slot) (c.f 0x10 0 32) = some (ck, x) ∧ findObj s (partOfFn slot) (c.f
      0x18 0 32) = some (ok, o) ∧ o.holds.contains ck = true) ∧
    (∃ slot : MbSlot, ∃ s : Machine.State, ∃ c : MbCmd, ∃ key : Nat, ∃ o : MemObj, MbTakes s slot 0x33 c { fields := [(0x10, 0, 32)], permitted := isPartFn slot } ∧
      findObj s (partOfFn slot) (c.f 0x10 0 32) = some (key, o) ∧ o.state = .quarantined) := by
  refine ⟨?_, ?_, ?_, ?_, ?_, ?_⟩
  · have hs : (checkImage wGs 0 wCtx wObj 0).opt.bind (fun p => p.2.toOption.map (fun _ => (Tbl.find p.1.sec.policies 0).isNone)) = some true := by decide +kernel
    generalize hx : checkImage wGs 0 wCtx wObj 0 = y at hs
    cases y with
    | ok u p =>
      cases p with
      | ok h =>
        have he : wGc.f 0x20 0 64 = 0 := by decide +kernel
        have hx' : checkImage wGs 0 wCtx wObj (wGc.f 0x20 0 64) = .ok u (.ok h) := by rw [he]; exact hx
        exact ⟨⟨1, 0⟩, wGs, wGc, 0, wCtx, 0, wObj, u, h, by unfold MbTakes; decide +kernel, by decide +kernel, by decide +kernel, by decide +kernel, by decide +kernel, by decide +kernel, hx', Option.isNone_iff_eq_none.mp (Option.some.inj hs)⟩
      | error e => simp [Got.opt, Except.toOption] at hs
    | wait u => simp [Got.opt] at hs
    | bad u e => simp [Got.opt] at hs
  · exact ⟨({ fn := 1, index := 0 }), (wFn 1 (wMb [(0, 43), (128, 65536)]) (wCx wCtx (fun w => { w with objs := [(0, { wObj with image := some (0, 0, 0) })] }))), (wMb [(0,
      43), (128, 65536)]), (0), ({ wObj with image := some (0, 0, 0) }), (by unfold MbTakes; decide +kernel), by decide +kernel, by decide +kernel⟩
  · have hz : (zeroObj wOs wOo).2 = true := by decide +kernel
    have hz' : zeroObj wOs wOo = ((zeroObj wOs wOo).1, true) := prod_of hz
    have ht : MbTakes wOs ⟨1, 0⟩ 0x30 wOc { fields := [(0x10, 0, 32), (0x18, 0, 64), (0x20, 0, 1), (0x20, 8, 8)], permitted := isPartFn ⟨1, 0⟩ } := by unfold MbTakes; decide +kernel
    have hl : liveCtx wOs (partOfFn ⟨1, 0⟩) (wOc.f 0x10 0 32) = some (0, wCtx) := by decide +kernel
    exact ⟨⟨1, 0⟩, wOs, wOc, 0, wCtx, 0, 0, (zeroObj wOs wOo).1, ht, by decide +kernel, by decide +kernel, by decide +kernel, hl, by decide +kernel, by decide +kernel, hz'⟩
  · exact ⟨({ fn := 1, index := 0 }), (wFn 1 (wMb [(0, 49), (128, 65536), (192, 65536)]) (wCx wCtx (fun w => { w with objs := [(0, wObj)] }))), (wMb [(0, 49), (128, 65536),
      (192, 65536)]), (0), (wCtx), (0), (wObj), (by unfold MbTakes; decide +kernel), by decide +kernel, by decide +kernel, by decide +kernel⟩
  · exact ⟨({ fn := 1, index := 0 }), (wFn 1 (wMb [(0, 50), (128, 65536), (192, 65536)]) (wCx wCtx (fun w => { w with objs := [(0, wObj)] }))), (wMb [(0, 50), (128, 65536),
      (192, 65536)]), (0), (wCtx), (0), (wObj), (by unfold MbTakes; decide +kernel), by decide +kernel, by decide +kernel, by decide +kernel⟩
  · exact ⟨({ fn := 1, index := 0 }), (wFn 1 (wMb [(0, 51), (128, 65536)]) (wCx wCtx (fun w => { w with objs := [(0, { wObj with state := .quarantined })] }))), (wMb [(0,
      51), (128, 65536)]), (0), ({ wObj with state := .quarantined }), (by unfold MbTakes; decide +kernel), by decide +kernel, by decide +kernel⟩

theorem witness_FenceCommandsComplete :
    (∃ slot : MbSlot, ∃ s : Machine.State, ∃ c : MbCmd, MbTakes s slot 0x38 c { fields := [(0x10, 0, 64), (0x18, 0, 5)], permitted := isPartFn slot } ∧ 4 ≤ c.f 0x18 0 5
      ∧ c.f 0x18 0 5 ≤ 24 ∧ anyFence s (partOfFn slot) = false) ∧
    (∃ slot : MbSlot, ∃ s : Machine.State, ∃ c : MbCmd, ∃ a : Nat, ∃ l : Nat, ∃ key : Nat, MbTakes s slot 0x39 c
      { fields := [(0x10, 0, 64)], permitted := isPartFn slot } ∧ (s.part (partOfFn slot)).fenceTable = some (a, l) ∧ Tbl.freeKey s.work.fences (partOfFn slot * 2 ^ 24)
      (partOfFn slot * 2 ^ 24 + 2 ^ l) = some key) ∧
    (∃ slot : MbSlot, ∃ s : Machine.State, ∃ c : MbCmd, ∃ key : Nat, ∃ f : Fence, MbTakes s slot 0x3A c
      { fields := [(0x10, 0, 32), (0x18, 0, 64)], permitted := isPartFn slot } ∧ findFence s (partOfFn slot) (c.f 0x10 0 32) = some (key, f)) ∧
    (∃ slot : MbSlot, ∃ s : Machine.State, ∃ c : MbCmd, ∃ key : Nat, ∃ f : Fence, MbTakes s slot 0x3B c { fields := [(0x10, 0, 32)], permitted := isPartFn slot } ∧
      findFence s (partOfFn slot) (c.f 0x10 0 32) = some (key, f) ∧ fenceReferenced s key f = false) ∧
    (∃ slot : MbSlot, ∃ s : Machine.State, ∃ c : MbCmd, ∃ key : Nat, ∃ f : Fence, MbTakes s slot 0x3C c { fields := [(0x10, 0, 32)], permitted := isPartFn slot } ∧
      findFence s (partOfFn slot) (c.f 0x10 0 32) = some (key, f)) ∧
    (∃ slot : MbSlot, ∃ s : Machine.State, ∃ c : MbCmd, ∃ key : Nat, ∃ f : Fence, MbTakes s slot 0x3D c
      { fields := [(0x10, 0, 32), (0x18, 0, 64), (0x20, 0, 8)], permitted := isPartFn slot } ∧ 2 ≤ c.f 0x20 0 8 ∧ c.f 0x20 0 8 ≤ 63 ∧ findFence s (partOfFn slot) (c.f
      0x10 0 32) = some (key, f)) := by
  refine ⟨?_, ?_, ?_, ?_, ?_, ?_⟩
  · exact ⟨({ fn := 1, index := 0 }), (wFn 1 (wMb [(0, 56), (128, 64), (192, 4)]) wIdle), (wMb [(0, 56), (128, 64), (192, 4)]), (by unfold MbTakes; decide +kernel),
      by decide +kernel, by decide +kernel, by decide +kernel⟩
  · exact ⟨({ fn := 1, index := 0 }), (wFn 1 (wMb [(0, 57), (128, 9)]) ({ wIdle with parts := [(0, { fenceTable := some (64, 4) })] })), (wMb [(0, 57), (128, 9)]), (64), (4),
      (0), (by unfold MbTakes; decide +kernel), by decide +kernel, by decide +kernel⟩
  · exact ⟨({ fn := 1, index := 0 }), (wFn 1 (wMb [(0, 58), (128, 16777216), (192, 7)]) (wRet {})), (wMb [(0, 58), (128, 16777216), (192, 7)]), (0), ({}),
      (by unfold MbTakes; decide +kernel), by decide +kernel⟩
  · exact ⟨({ fn := 1, index := 0 }), (wFn 1 (wMb [(0, 59), (128, 16777216)]) (wRet {})), (wMb [(0, 59), (128, 16777216)]), (0), ({}), (by unfold MbTakes; decide +kernel),
      by decide +kernel, by decide +kernel⟩
  · exact ⟨({ fn := 1, index := 0 }), (wFn 1 (wMb [(0, 60), (128, 16777216)]) (wRet {})), (wMb [(0, 60), (128, 16777216)]), (0), ({}), (by unfold MbTakes; decide +kernel),
      by decide +kernel⟩
  · exact ⟨({ fn := 1, index := 0 }), (wFn 1 (wMb [(0, 61), (128, 16777216), (192, 7), (256, 2)]) (wRet {})), (wMb [(0, 61), (128, 16777216), (192, 7), (256, 2)]), (0), ({}),
      (by unfold MbTakes; decide +kernel), by decide +kernel, by decide +kernel, by decide +kernel⟩

theorem witness_CatalogueCommandsComplete :
    (∃ slot : MbSlot, ∃ s : Machine.State, ∃ c : MbCmd, MbTakes s slot 0x40 c
      { fields := invalFields 0x10, range := invalRange c 0x10, permitted := isPartFn slot && invalPermitted s (partOfFn slot) c 0x10, handles := invalHandles s (partOfFn slot) c 0x10 }
      ∧ invalVacant s (invalOf s (partOfFn slot) c 0x10 false) = true) ∧
    (∃ slot : MbSlot, ∃ s : Machine.State, ∃ c : MbCmd, ∃ t : Machine.State, ∃ d : Nat, ∃ r : List Nat, MbTakes s slot 0x40 c
      { fields := invalFields 0x10, range := invalRange c 0x10, permitted := isPartFn slot && invalPermitted s (partOfFn slot) c 0x10, handles := invalHandles s (partOfFn slot) c 0x10 }
      ∧ invalVacant s (invalOf s (partOfFn slot) c 0x10 false) = false ∧ finishInval (startInval s slot.fn c.index (invalOf s (partOfFn slot) c 0x10 false)) slot.fn c =
      .done t 0 d r) ∧
    (∃ slot : MbSlot, ∃ s : Machine.State, ∃ c : MbCmd, MbTakes s slot 0x41 c
      { fields := [(0x10, 0, 64), (0x18, 0, 5), (0x18, 8, 1)], permitted := isPartFn slot, range := c.f 0x10 0 64 % 4096 == 0 && decide (10 ≤ c.f 0x18 0 5) && decide (c.f 0x18 0 5 ≤ 20) })
      ∧
    (∃ slot : MbSlot, ∃ s : Machine.State, ∃ c : MbCmd, MbTakes s slot 0x42 c { fields := [(0x10, 0, 32)], permitted := isPartFn slot }) ∧
    (∃ slot : MbSlot, ∃ s : Machine.State, ∃ c : MbCmd, MbTakes s slot 0x43 c
      { fields := [(0x10, 0, 8), (0x10, 12, 4), (0x18, 0, 32), (0x20, 0, 64), (0x28, 0, 64)], range := c.f 0x20 0 64 % 0x8000 == 0 && decide (c.f 0x20 0 64 < 2 ^ 46) && c.f 0x28 0 64 % pageBytes == 0 && decide (c.f 0x28 0 64 < 2 ^ 40), permitted := isPartFn slot && windowHeld s (partOfFn slot) (c.f 0x10 0 8) && partInVolume s (partOfFn slot) (c.f 0x18 0 32) }
      ∧ c.f 0x10 15 1 = 0) ∧
    (∃ slot : MbSlot, ∃ s : Machine.State, ∃ c : MbCmd, MbTakes s slot 0x44 c
      { fields := [(0x10, 0, 8)], permitted := isPartFn slot && windowHeld s (partOfFn slot) (c.f 0x10 0 8) }) ∧
    (∃ slot : MbSlot, ∃ s : Machine.State, ∃ c : MbCmd, MbTakes s slot 0x48 c
      { fields := [(0x10, 0, 64), (0x18, 0, 17)], range := c.f 0x10 0 64 % 128 == 0 && isPow2 (c.f 0x18 0 17) && decide (64 ≤ c.f 0x18 0 17) && decide (c.f 0x18 0 17 ≤ 65536), permitted := isPartFn slot })
      ∧
    (∃ slot : MbSlot, ∃ s : Machine.State, ∃ c : MbCmd, MbTakes s slot 0x49 c { fields := [(0x10, 0, 32)], permitted := isPartFn slot } ∧ ((s.part (partOfFn
      slot)).ledger).acked ≤ ((c.f 0x10 0 32 + 2 ^ 32 - ((s.part (partOfFn slot)).ledger).firstSeq) % 2 ^ 32) ∧ ((c.f 0x10 0 32 + 2 ^ 32 - ((s.part (partOfFn
      slot)).ledger).firstSeq) % 2 ^ 32) ≤ ((s.part (partOfFn slot)).ledger).written) ∧
    (∃ slot : MbSlot, ∃ s : Machine.State, ∃ c : MbCmd, MbTakes s slot 0x4A c { fields := [(0x10, 0, 32), (0x18, 0, 64)], range := c.f 0x18 0 64 % 128 == 0 } ∧
      slot.fn.val = 0 ∧ c.f 0x10 0 32 = 0) := by
  refine ⟨?_, ?_, ?_, ?_, ?_, ?_, ?_, ?_, ?_⟩
  · exact ⟨({ fn := 1, index := 0 }), (wFn 1 (wMb [(0, 64), (128, 1), (192, 65536)]) (wCx { wCtx with slot := none })), (wMb [(0, 64), (128, 1), (192, 65536)]),
      (by unfold MbTakes; decide +kernel), by decide +kernel⟩
  · exact ⟨({ fn := 1, index := 0 }), (wFn 1 (wMb [(0, 64), (128, 0), (192, 65536), (256, 2097152), (320, 1)]) (wCx wCtx)), (wMb [(0, 64), (128, 0), (192, 65536), (256,
      2097152), (320, 1)]), (((finishInval (startInval ((wFn 1 (wMb [(0, 64), (128, 0), (192, 65536), (256, 2097152), (320, 1)]) (wCx wCtx)) : Machine.State)
      (({ fn := 1, index := 0 }) : MbSlot).fn ((wMb [(0, 64), (128, 0), (192, 65536), (256, 2097152), (320, 1)]) : MbCmd).index (invalOf ((wFn 1 (wMb [(0, 64), (128, 0),
      (192, 65536), (256, 2097152), (320, 1)]) (wCx wCtx)) : Machine.State) (partOfFn (({ fn := 1, index := 0 }) : MbSlot)) ((wMb [(0, 64), (128, 0), (192, 65536), (256,
      2097152), (320, 1)]) : MbCmd) 0x10 false)) (({ fn := 1, index := 0 }) : MbSlot).fn ((wMb [(0, 64), (128, 0), (192, 65536), (256, 2097152), (320, 1)]) :
      MbCmd)).opt.get (by decide +kernel)).1), (((finishInval (startInval ((wFn 1 (wMb [(0, 64), (128, 0), (192, 65536), (256, 2097152), (320, 1)]) (wCx wCtx)) :
      Machine.State) (({ fn := 1, index := 0 }) : MbSlot).fn ((wMb [(0, 64), (128, 0), (192, 65536), (256, 2097152), (320, 1)]) : MbCmd).index (invalOf ((wFn 1 (wMb [(0,
      64), (128, 0), (192, 65536), (256, 2097152), (320, 1)]) (wCx wCtx)) : Machine.State) (partOfFn (({ fn := 1, index := 0 }) : MbSlot)) ((wMb [(0, 64), (128, 0), (192,
      65536), (256, 2097152), (320, 1)]) : MbCmd) 0x10 false)) (({ fn := 1, index := 0 }) : MbSlot).fn ((wMb [(0, 64), (128, 0), (192, 65536), (256, 2097152), (320, 1)])
      : MbCmd)).opt.get (by decide +kernel)).2.1), (((finishInval (startInval ((wFn 1 (wMb [(0, 64), (128, 0), (192, 65536), (256, 2097152), (320, 1)]) (wCx wCtx)) :
      Machine.State) (({ fn := 1, index := 0 }) : MbSlot).fn ((wMb [(0, 64), (128, 0), (192, 65536), (256, 2097152), (320, 1)]) : MbCmd).index (invalOf ((wFn 1 (wMb [(0,
      64), (128, 0), (192, 65536), (256, 2097152), (320, 1)]) (wCx wCtx)) : Machine.State) (partOfFn (({ fn := 1, index := 0 }) : MbSlot)) ((wMb [(0, 64), (128, 0), (192,
      65536), (256, 2097152), (320, 1)]) : MbCmd) 0x10 false)) (({ fn := 1, index := 0 }) : MbSlot).fn ((wMb [(0, 64), (128, 0), (192, 65536), (256, 2097152), (320, 1)])
      : MbCmd)).opt.get (by decide +kernel)).2.2), (by unfold MbTakes; decide +kernel), by decide +kernel, (MbRes.of_opt (of_get (by decide +kernel)))⟩
  · exact ⟨({ fn := 1, index := 0 }), (wFn 1 (wMb [(0, 65), (128, 4096), (192, 10)]) wSt), (wMb [(0, 65), (128, 4096), (192, 10)]), (by unfold MbTakes; decide +kernel)⟩
  · exact ⟨({ fn := 1, index := 0 }), (wFn 1 (wMb [(0, 66), (128, 3)]) wSt), (wMb [(0, 66), (128, 3)]), (by unfold MbTakes; decide +kernel)⟩
  · exact ⟨({ fn := 1, index := 0 }), (wFn 1 (wMb [(0, 67), (128, 7), (140, 3), (192, 1), (256, 32768), (320, 2097152)]) (wWork (wCmd []))), (wMb [(0, 67), (128, 7), (140,
      3), (192, 1), (256, 32768), (320, 2097152)]), (by unfold MbTakes; decide +kernel), by decide +kernel⟩
  · exact ⟨({ fn := 1, index := 0 }), (wFn 1 (wMb [(0, 68), (128, 7)]) wSt), (wMb [(0, 68), (128, 7)]), (by unfold MbTakes; decide +kernel)⟩
  · exact ⟨({ fn := 1, index := 0 }), (wFn 1 (wMb [(0, 72), (128, 128), (192, 64)]) wSt), (wMb [(0, 72), (128, 128), (192, 64)]), (by unfold MbTakes; decide +kernel)⟩
  · exact ⟨({ fn := 1, index := 0 }), (wFn 1 (wMb [(0, 73), (128, 2)]) ({ wSt with parts := [(0, { ledger := { written := 4 } })] })), (wMb [(0, 73), (128, 2)]),
      (by unfold MbTakes; decide +kernel), by decide +kernel, by decide +kernel⟩
  · exact ⟨({ fn := 0, index := 0 }), (wFn 0 (wMb [(0, 74), (192, 128)]) wSt), (wMb [(0, 74), (192, 128)]), (by unfold MbTakes; decide +kernel), by decide +kernel,
      by decide +kernel⟩

theorem witness_VolumeCommandsComplete :
    (∃ slot : MbSlot, ∃ map : List Byte, ∃ s : Machine.State, ∃ c : MbCmd, ∃ m : VolMap, parseMap (s.fab.deviceId * 2 ^ 18 + s.vols.nextIndex) map = some m ∧
      m.members.isEmpty = false ∧ mapShape m = true ∧ mapRefused s (s.fab.deviceId * 2 ^ 18 + s.vols.nextIndex) m = none ∧ mapWithin s slot.fn m = true ∧ MbTakes s slot
      0x50 c { fields := [(0x10, 0, 64), (0x18, 0, 24), (0x20, 0, 17)], range := prepareUsOk (c.f 0x20 0 17) && c.f 0x18 0 24 == map.length }) ∧
    (∃ slot : MbSlot, ∃ map : List Byte, ∃ s : Machine.State, ∃ c : MbCmd, ∃ m : VolMap, ∃ v : Volume, ∃ x : VolMap, parseMap (c.f 0x10 0 32) map = some m ∧ Tbl.find
      s.vols.vols (c.f 0x10 0 32) = some v ∧ v.cur = some x ∧ x.coord = s.fab.deviceId ∧ isRouting (c.f 0x10 0 32) = false ∧ volWithin s slot.fn (c.f 0x10 0 32) = true ∧
      mapWithin s slot.fn m = true ∧ Tbl.has s.vols.rounds (c.f 0x10 0 32) = false ∧ m.members.isEmpty = false ∧ mapShape m = true ∧ mapRefused s (c.f 0x10 0 32) m = none
      ∧ MbTakes s slot 0x51 c
      { fields := [(0x10, 0, 32), (0x18, 0, 64), (0x20, 0, 24), (0x28, 0, 17)], range := prepareUsOk (c.f 0x28 0 17) && c.f 0x20 0 24 == map.length }) ∧
    (∃ slot : MbSlot, ∃ s : Machine.State, ∃ c : MbCmd, ∃ v : Volume, ∃ m : VolMap, Tbl.find s.vols.vols (c.f 0x10 0 32) = some v ∧ v.cur = some m ∧ volWithin s slot.fn
      (c.f 0x10 0 32) = true ∧ Tbl.has s.vols.rounds (c.f 0x10 0 32) = false ∧ MbTakes s slot 0x52 c
      { fields := [(0x10, 0, 32), (0x20, 0, 64)], range := prepareUsOk (c.f 0x20 0 64) }) ∧
    (∃ slot : MbSlot, ∃ s : Machine.State, ∃ c : MbCmd, ∃ v : Volume, ∃ m : VolMap, Tbl.find s.vols.vols (c.f 0x10 0 32) = some v ∧ v.cur = some m ∧ v.next = none ∧
      Tbl.find s.vols.rounds (c.f 0x10 0 32) = none ∧ MbTakes s slot 0x53 c { fields := [(0x10, 0, 32)], permitted := slot.fn.val == 0 }) ∧
    (∃ slot : MbSlot, ∃ s : Machine.State, ∃ c : MbCmd, ((Tbl.find s.vols.vols (c.f 0x10 0 32)).bind (·.cur)).isSome = true ∧ c.f 0x20 0 64 ≠ 2 ^ 64 - 1 ∧ MbTakes s
      slot 0x54 c { fields := [(0x10, 0, 32), (0x18, 0, 64), (0x20, 0, 64)], permitted := slot.fn.val == 0 }) ∧
    (∃ slot : MbSlot, ∃ s : Machine.State, ∃ c : MbCmd, ((Tbl.find s.vols.vols (c.f 0x10 0 32)).bind (·.cur)).isSome = true ∧ MbTakes s slot 0x55 c
      { fields := [(0x10, 0, 32)], permitted := slot.fn.val == 0 }) ∧
    (∃ slot : MbSlot, ∃ s : Machine.State, ∃ c : MbCmd, ∃ sh : Nat, flag c.slot 0x10 0 = false ∧ migrateRange c = true ∧ shelfAllows s (partOfFn slot) (c.f 0x18 0 64) =
      true ∧ shelfAllows s (partOfFn slot) (c.f 0x20 0 64) = true ∧ shelfVolumes s (shelfOf (c.f 0x20 0 64)) = [] ∧ ((List.range 4).map (· + 4 * stackOf (c.f 0x18 0
      64))).find? (fun n => (s.shelver n).mirror.isNone && !s.vols.migrations.any (fun m => m.2.sh == n && !m.2.lost) && queueRoom s n 8) = some sh ∧ MbTakes s slot 0x58
      c { fields := [(0x10, 0, 1), (0x18, 0, 64), (0x20, 0, 64), (0x28, 0, 64), (0x30, 0, 32)], permitted := isPartFn slot }) ∧
    (∃ slot : MbSlot, ∃ s : Machine.State, ∃ c : MbCmd, ∃ x : Nat × Migration, ∃ t : Machine.State, ∃ d : Nat, ∃ r : List Nat, flag c.slot 0x10 0 = true ∧ migrateRange
      c = true ∧ invalRange c 0x38 = true ∧ shelfAllows s (partOfFn slot) (c.f 0x18 0 64) = true ∧ shelfAllows s (partOfFn slot) (c.f 0x20 0 64) = true ∧ invalPermitted s
      (partOfFn slot) c 0x38 = true ∧ invalHandles s (partOfFn slot) c 0x38 = true ∧ MbTakes s slot 0x58 c
      { fields := [(0x10, 0, 1), (0x18, 0, 64), (0x20, 0, 64), (0x28, 0, 64), (0x30, 0, 32)] ++ invalFields 0x38, permitted := isPartFn slot } ∧ s.vols.migrations.find?
      (fun m => m.1 == partOfFn slot && m.2.src == c.f 0x18 0 64 && m.2.dst == c.f 0x20 0 64 && m.2.bytes == c.f 0x28 0 64 && m.2.copied) = some x ∧ x.2.lost = false ∧
      (s.shelver x.2.sh).mirror.isSome = true ∧ migrateEnd (startInval s slot.fn c.index (invalOf s (partOfFn slot) c 0x38 true)) slot.fn c = .done t 0 d r) := by
  refine ⟨?_, ?_, ?_, ?_, ?_, ?_, ?_, ?_⟩
  · exact ⟨({ fn := 0, index := 0 }), (mapBytes (wNew 4292870145 1)), (wFn 0 (wMb [(0, 80), (128, 32768), (192, 96)]) wSt), (wMb [(0, 80), (128, 32768), (192, 96)]), (wNew
      4292870145 1), by decide +kernel, by decide +kernel, by decide +kernel, by decide +kernel, by decide +kernel, (by unfold MbTakes; decide +kernel)⟩
  · exact ⟨({ fn := 0, index := 0 }), (mapBytes (wNew 1 3)), (wFn 0 (wMb [(0, 81), (128, 1), (192, 32768), (256, 96)])
      ({ wSt with vols := { vols := [(1, { cur := some (wNew 1 2) })] } })), (wMb [(0, 81), (128, 1), (192, 32768), (256, 96)]), (wNew 1 3), ({ cur := some (wNew 1 2) }),
      (wNew 1 2), by decide +kernel, by decide +kernel, by decide +kernel, by decide +kernel, by decide +kernel, by decide +kernel, by decide +kernel, by decide +kernel,
      by decide +kernel, by decide +kernel, by decide +kernel, (by unfold MbTakes; decide +kernel)⟩
  · exact ⟨({ fn := 0, index := 0 }), (wFn 0 (wMb [(0, 82), (128, 1)]) ({ wSt with vols := { vols := [(1, { cur := some (wNew 1 2) })] } })), (wMb [(0, 82), (128, 1)]),
      ({ cur := some (wNew 1 2) }), (wNew 1 2), by decide +kernel, by decide +kernel, by decide +kernel, by decide +kernel, (by unfold MbTakes; decide +kernel)⟩
  · exact ⟨({ fn := 0, index := 0 }), (wFn 0 (wMb [(0, 83), (128, 1)]) ({ wSt with vols := { vols := [(1, { cur := some (wNew 1 2) })] } })), (wMb [(0, 83), (128, 1)]),
      ({ cur := some (wNew 1 2) }), (wNew 1 2), by decide +kernel, by decide +kernel, by decide +kernel, by decide +kernel, (by unfold MbTakes; decide +kernel)⟩
  · exact ⟨({ fn := 0, index := 0 }), (wFn 0 (wMb [(0, 84), (128, 1), (192, 7), (256, 0)]) ({ wSt with vols := { vols := [(1, { cur := some (wNew 1 2) })] } })), (wMb [(0,
      84), (128, 1), (192, 7), (256, 0)]), by decide +kernel, by decide +kernel, (by unfold MbTakes; decide +kernel)⟩
  · exact ⟨({ fn := 0, index := 0 }), (wFn 0 (wMb [(0, 85), (128, 1)]) ({ wSt with vols := { vols := [(1, { cur := some (wNew 1 2) })] } })), (wMb [(0, 85), (128, 1)]),
      by decide +kernel, (by unfold MbTakes; decide +kernel)⟩
  · exact ⟨({ fn := 1, index := 0 }), (wFn 1 (wMb [(0, 88), (256, 8589934592), (320, 2097152)]) wSt), (wMb [(0, 88), (256, 8589934592), (320, 2097152)]), (0),
      by decide +kernel, by decide +kernel, by decide +kernel, by decide +kernel, by decide +kernel, by decide +kernel, (by unfold MbTakes; decide +kernel)⟩
  · obtain ⟨p, hp⟩ : ∃ p, (migrateEnd (startInval wMigS 1 wMig.index (invalOf wMigS 0 wMig 0x38 true)) 1 wMig).opt = some p := ⟨_, of_get (by decide +kernel)⟩
    exact ⟨⟨1, 0⟩, wMigS, wMig, (0, { sh := 0, src := 0, dst := 8589934592, bytes := 0x200000, index := 0, copied := true }), p.1, p.2.1, p.2.2, by decide +kernel, by decide +kernel, by decide +kernel, by decide +kernel, by decide +kernel, by decide +kernel, by decide +kernel, by unfold MbTakes; decide +kernel, by decide +kernel, by decide +kernel, by decide +kernel, MbRes.of_opt hp⟩

theorem witness_ResetCommandsComplete :
    (∃ slot : MbSlot, ∃ s : Machine.State, ∃ c : MbCmd, MbTakes s slot 4 c { fields := [(0x10, 0, 3), (0x10, 8, 1), (0x18, 0, 14)], permitted := isFn0 slot } ∧ c.f 0x10
      0 3 < s.mode ∧ 1 ≤ c.f 0x18 0 14 ∧ c.f 0x18 0 14 ≤ 10000 ∧ c.f 0x10 8 1 = 0 ∧ Tbl.has s.vols.releases (c.f 0x10 0 3) = false ∧ roundOpen s (c.f 0x10 0 3) = false ∧
      partAbroad s (c.f 0x10 0 3) = false) ∧
    (∃ slot : MbSlot, ∃ s : Machine.State, ∃ c : MbCmd, MbTakes s slot 4 c { fields := [(0x10, 0, 3), (0x10, 8, 1), (0x18, 0, 14)], permitted := isFn0 slot } ∧ c.f 0x10
      0 3 < s.mode ∧ 1 ≤ c.f 0x18 0 14 ∧ c.f 0x18 0 14 ≤ 10000 ∧ c.f 0x10 8 1 = 1 ∧ Tbl.has s.vols.releases (c.f 0x10 0 3) = false ∧ roundOpen s (c.f 0x10 0 3) = false ∧
      partAbroad s (c.f 0x10 0 3) = false) ∧
    (∃ slot : MbSlot, ∃ s : Machine.State, ∃ c : MbCmd, MbTakes s slot 0x70 c { fields := [(0x10, 0, 14), (0x10, 16, 1)], permitted := isFn0 slot } ∧ c.f 0x10 16 1 = 0)
      ∧
    (∃ slot : MbSlot, ∃ s : Machine.State, ∃ c : MbCmd, MbTakes s slot 0x70 c { fields := [(0x10, 0, 14), (0x10, 16, 1)], permitted := isFn0 slot } ∧ c.f 0x10 16 1 = 1)
      ∧
    (∃ slot : MbSlot, ∃ s : Machine.State, ∃ c : MbCmd, MbTakes s slot 0x71 c { fields := [(0x10, 0, 3)], range := decide (resetTarget c < s.mode) } ∧ slot.fn.val = 0)
      ∧
    (∃ slot : MbSlot, ∃ s : Machine.State, ∃ c : MbCmd, MbTakes s slot 0x72 c { fields := [(0x10, 0, 1)], permitted := isFn0 slot } ∧ isFn0 slot = true ∧ (s.fn
      slot.fn).active = [c]) ∧
    (∃ slot : MbSlot, ∃ s : Machine.State, ∃ c : MbCmd, mbFind s slot = some c ∧ c.started = none ∧ c.answer = none ∧ c.deadline ≠ 0) ∧
    (∃ slot : MbSlot, ∃ s : Machine.State, ∃ c : MbCmd, ∃ st : Nat, ∃ d : Nat, ∃ res : List Nat, ∃ b : Nat, mbFind s slot = some c ∧ c.answer = some (st :: d :: res) ∧
      mbBound c = some b) ∧
    (∃ handle : Word, ∃ s : Machine.State, ∃ p : Preempt, ∃ i : Nat, Tbl.find s.vols.preempts handle.toNat = some p ∧ p.cmd = some i ∧ volumeHere s handle.toNat = none) := by
  refine ⟨?_, ?_, ?_, ?_, ?_, ?_, ?_, ?_, ?_⟩
  · exact ⟨({ fn := 0, index := 0 }), (wFn 0 (wMb [(0, 4), (192, 10)]) wSt), (wMb [(0, 4), (192, 10)]), (by unfold MbTakes; decide +kernel), by decide +kernel,
      by decide +kernel, by decide +kernel, by decide +kernel, by decide +kernel, by decide +kernel, by decide +kernel⟩
  · exact ⟨({ fn := 0, index := 0 }), (wFn 0 (wMb [(0, 4), (136, 1), (192, 10)]) wSt), (wMb [(0, 4), (136, 1), (192, 10)]), (by unfold MbTakes; decide +kernel),
      by decide +kernel, by decide +kernel, by decide +kernel, by decide +kernel, by decide +kernel, by decide +kernel, by decide +kernel⟩
  · exact ⟨({ fn := 0, index := 0 }), (wFn 0 (wMb [(0, 112), (128, 0)]) wSt), (wMb [(0, 112), (128, 0)]), (by unfold MbTakes; decide +kernel), by decide +kernel⟩
  · exact ⟨({ fn := 0, index := 0 }), (wFn 0 (wMb [(0, 112), (128, 0), (144, 1)]) wSt), (wMb [(0, 112), (128, 0), (144, 1)]), (by unfold MbTakes; decide +kernel),
      by decide +kernel⟩
  · exact ⟨({ fn := 0, index := 0 }), (wFn 0 (wMb [(0, 113)]) wSt), (wMb [(0, 113)]), (by unfold MbTakes; decide +kernel), by decide +kernel⟩
  · exact ⟨({ fn := 0, index := 0 }), (wFn 0 (wMb [(0, 114)]) wSt), (wMb [(0, 114)]), (by unfold MbTakes; decide +kernel), by decide +kernel, by decide +kernel⟩
  · exact ⟨({ fn := 1, index := 0 }), (wFn 1 (wMb [(0, 8), (64, 9)]) wSt), (wMb [(0, 8), (64, 9)]), by decide +kernel, by decide +kernel, by decide +kernel,
      by decide +kernel⟩
  · exact ⟨({ fn := 1, index := 0 }), (wFn 1 { wMb [(0, 8)] with answer := some [0, 0, 0] } wSt), ({ wMb [(0, 8)] with answer := some [0, 0, 0] }), (0), (0), ([0]),
      (((mbBound (({ wMb [(0, 8)] with answer := some [0, 0, 0] }) : MbCmd)).get (by decide +kernel))), by decide +kernel, by decide +kernel, (of_get
      (by decide +kernel))⟩
  · exact ⟨(1), ({ wSt with vols := { preempts := [(1, { cmd := some 3 })] } }), ({ cmd := some 3 }), (3), by decide +kernel, by decide +kernel, by decide +kernel⟩

theorem witness_OtfoldMessagesComplete :
    (∃ port : Fin 2, ∃ m : OtHead, ∃ s : Machine.State, ∃ rq : Rq, ∃ d : Nat, ∃ t : Machine.State, ∃ bs : List Byte, ∃ bad : Bool, OtServed s port 6 m (Ms.accessOk m
      (Ms.bytes m) && m.data.isEmpty) ∧ OtMemReady s port m rq d ∧ engineRead s rq 0 d (Ms.bytes m) = .ok t (bs, bad)) ∧
    (∃ port : Fin 2, ∃ m : OtHead, ∃ s : Machine.State, ∃ rq : Rq, ∃ d : Nat, ∃ t : Machine.State, OtServed s port 7 m (Ms.accessOk m (Ms.bytes m) && m.data.length ==
      Ms.bytes m) ∧ OtMemReady s port m rq d ∧ engineWrite s rq 0 d m.data (Ms.poison m) = .ok t ()) ∧
    (∃ port : Fin 2, ∃ m : OtHead, ∃ s : Machine.State, ∃ rq : Rq, ∃ d : Nat, ∃ t : Machine.State, ∃ x : List (Nat × Nat), OtServed s port 8 m (otAtomicOk m) ∧
      OtMemReady s port m rq d ∧ prepare s rq true [(d, otAtomicBytes m)] = .ok t x) ∧
    (∃ port : Fin 2, ∃ m : OtHead, ∃ s : Machine.State, OtServed s port 9 m (otOffset m % 4 == 0 && m.data.isEmpty)) ∧
    (∃ port : Fin 2, ∃ m : OtHead, ∃ s : Machine.State, OtServed s port 10 m (otOffset m % 4 == 0 && m.data.length == 4 && Ms.bytes m == 4) ∧ otWritesWait s port =
      false) ∧
    (∃ port : Fin 2, ∃ m : OtHead, ∃ s : Machine.State, otGate s port 10 m (otOffset m % 4 == 0 && m.data.length == 4 && Ms.bytes m == 4) = .drop) ∧
    (∃ port : Fin 2, ∃ m : OtHead, ∃ s : Machine.State, OtServed s port 11 m m.data.isEmpty) ∧
    (∃ port : Fin 2, ∃ m : OtHead, ∃ s : Machine.State, Ms.mtype m = 0x21) ∧
    (∃ port : Fin 2, ∃ m : OtHead, ∃ s : Machine.State, Ms.mtype m = 0x22) ∧
    (∃ tag : BitVec 12, ∃ s : Machine.State, ∃ r : CmReq, s.ot.cm.find? (fun r => r.sent && r.tag % 4096 == tag.toNat) = some r) ∧
    (∃ port : Fin 2, ∃ lane : Fin 8, ∃ s : Machine.State, linkIn s (24 + port.val) 4) ∧
    (∃ port : Fin 2, ∃ s : Machine.State, linkIn s (24 + port.val) 5) := by
  refine ⟨?_, ?_, ?_, ?_, ?_, ?_, ?_, ?_, ?_, ?_, ?_, ?_⟩
  · exact ⟨(0), (wOm 6 2 0x500000), (wOt), ({ master := 40, part := 0 }), (0x500000), (((engineRead ((wOt) : Machine.State) (({ master := 40, part := 0 }) : Rq) 0 ((0x500000)
      : Nat) (Ms.bytes ((wOm 6 2 0x500000) : OtHead))).opt.get (by decide +kernel)).1), (((engineRead ((wOt) : Machine.State) (({ master := 40, part := 0 }) : Rq) 0
      ((0x500000) : Nat) (Ms.bytes ((wOm 6 2 0x500000) : OtHead))).opt.get (by decide +kernel)).2.1), (((engineRead ((wOt) : Machine.State) (({ master := 40, part := 0 })
      : Rq) 0 ((0x500000) : Nat) (Ms.bytes ((wOm 6 2 0x500000) : OtHead))).opt.get (by decide +kernel)).2.2), OtGate.serves (by decide +kernel),
      by unfold OtMemReady; exact ⟨OtMem.of_some (by decide +kernel), by decide +kernel, by decide +kernel⟩,
      (by first | exact Got.of_opt (of_get (by decide +kernel)) | exact CoreGot.of_opt (of_get (by decide +kernel)) | exact TileGot.of_opt (of_get (by decide +kernel)) | exact OtMem.of_opt (of_get (by decide +kernel)) | exact Admit.of_opt (of_get (by decide +kernel)) | exact ShRes.of_opt (of_get (by decide +kernel)))⟩
  · exact ⟨(0), (wOm 7 2 0x500000 (List.replicate 8 1#8)), (wOt), ({ master := 40, part := 0 }), (0x500000), (((engineWrite ((wOt) : Machine.State)
      (({ master := 40, part := 0 }) : Rq) 0 ((0x500000) : Nat) ((wOm 7 2 0x500000 (List.replicate 8 1#8)) : OtHead).data (Ms.poison ((wOm 7 2 0x500000 (List.replicate 8
      1#8)) : OtHead))).opt.get (by decide +kernel)).1), OtGate.serves (by decide +kernel),
      by unfold OtMemReady; exact ⟨OtMem.of_some (by decide +kernel), by decide +kernel, by decide +kernel⟩,
      (by first | exact CoreGot.of_opt1 (of_get (by decide +kernel)) | exact TileGot.of_opt1 (of_get (by decide +kernel)) | exact Got.of_opt1 (of_get (by decide +kernel)))⟩
  · exact ⟨(0), (wOm 8 6 0x500000 (bytesLE 8 256 ++ bytesLE 8 3 ++ bytesLE 8 0)), (wOt), ({ master := 40, part := 0 }), (0x500000), (((prepare ((wOt) : Machine.State)
      (({ master := 40, part := 0 }) : Rq) true [(((0x500000) : Nat), otAtomicBytes ((wOm 8 6 0x500000 (bytesLE 8 256 ++ bytesLE 8 3 ++ bytesLE 8 0)) : OtHead))]).opt.get
      (by decide +kernel)).1), (((prepare ((wOt) : Machine.State) (({ master := 40, part := 0 }) : Rq) true [(((0x500000) : Nat), otAtomicBytes ((wOm 8 6 0x500000
      (bytesLE 8 256 ++ bytesLE 8 3 ++ bytesLE 8 0)) : OtHead))]).opt.get (by decide +kernel)).2), OtGate.serves (by decide +kernel),
      by unfold OtMemReady; exact ⟨OtMem.of_some (by decide +kernel), by decide +kernel, by decide +kernel⟩,
      (by first | exact Got.of_opt (of_get (by decide +kernel)) | exact CoreGot.of_opt (of_get (by decide +kernel)) | exact TileGot.of_opt (of_get (by decide +kernel)) | exact OtMem.of_opt (of_get (by decide +kernel)) | exact Admit.of_opt (of_get (by decide +kernel)) | exact ShRes.of_opt (of_get (by decide +kernel)))⟩
  · exact ⟨(0), (wOm 9 1 8), (wOt), OtGate.serves (by decide +kernel)⟩
  · exact ⟨(0), (wOm 10 1 8 (List.replicate 4 0#8)), (wOt), OtGate.serves (by decide +kernel), by decide +kernel⟩
  · exact ⟨(0), (wOm 63 1 8), (wOt), OtGate.drops (by decide +kernel)⟩
  · exact ⟨(0), (wOm 11 0 0), (wOt), OtGate.serves (by decide +kernel)⟩
  · exact ⟨(0), (wOm 0x21 0 0), (wOt), by decide +kernel⟩
  · exact ⟨(0), (wOm 0x22 0 0), (wOt), by decide +kernel⟩
  · exact ⟨(5), ({ wOt with ot := { wOt.ot with cm := [{ tag := 5, fn := 1, addr := 0, data := [], deadline := 9 }] } }),
      ({ tag := 5, fn := 1, addr := 0, data := [], deadline := 9 }), by decide +kernel⟩
  · exact ⟨(0), (0), (wOt), (by unfold linkIn; decide +kernel)⟩
  · exact ⟨(0), (wLink 5 24), (by unfold linkIn; decide +kernel)⟩

theorem witness_BoardComplete :
    (∃ nonce : BitVec 512, ∃ s : Machine.State, SmbOpen s ∧ canSign s = false) ∧
    (∃ nonce : BitVec 512, ∃ s : Machine.State, SmbOpen s ∧ canSign s = true) ∧
    (∃ s : Machine.State, SmbOpen s) ∧
    (∃ watts : BitVec 16, ∃ s : Machine.State, SmbOpen s ∧ 400 ≤ watts.toNat ∧ watts.toNat ≤ 1000) ∧
    (∃ watts : BitVec 16, ∃ s : Machine.State, SmbOpen s ∧ 1000 < watts.toNat) ∧
    (∃ s : Machine.State, 5 ≤ s.seq.step ∧ s.smb.until_ ≤ s.now) ∧
    (∃ mask : BitVec 16, ∃ s : Machine.State, SmbOpen s) ∧
    (∃ s : Machine.State, 5 ≤ s.seq.step ∧ s.seq.clocksStopped = false) ∧
    (∃ s : Machine.State, s.seq.resetN = false) ∧
    (∃ s : Machine.State, s.seq.resetN = true) ∧
    (∃ s : Machine.State, s.seq.resetN = false) ∧
    (∃ cells : Nat, ∃ s : Machine.State, s.seq.resetN = false) ∧
    (∃ cells : Nat, ∃ s : Machine.State, s.seq.resetN = false) ∧
    (∃ cells : Nat, ∃ s : Machine.State, s.seq.resetN = false) := by
  refine ⟨?_, ?_, ?_, ?_, ?_, ?_, ?_, ?_, ?_, ?_, ?_, ?_, ?_, ?_⟩
  · exact ⟨(7), (wSt), (by unfold SmbOpen; decide +kernel), by decide +kernel⟩
  · exact ⟨(7), ({ wSt with sec := { identity := true } }), (by unfold SmbOpen; decide +kernel), by decide +kernel⟩
  · exact ⟨(wSt), (by unfold SmbOpen; decide +kernel)⟩
  · exact ⟨(400), (wSt), (by unfold SmbOpen; decide +kernel), by decide +kernel, by decide +kernel⟩
  · exact ⟨(1001), (wSt), (by unfold SmbOpen; decide +kernel), by decide +kernel⟩
  · exact ⟨(wSt), by decide +kernel, by decide +kernel⟩
  · exact ⟨(3), (wSt), (by unfold SmbOpen; decide +kernel)⟩
  · exact ⟨(wSt), by decide +kernel, by decide +kernel⟩
  · exact ⟨(wSeq (fun q => { q with resetN := false })), by decide +kernel⟩
  · exact ⟨(wSt), by decide +kernel⟩
  · exact ⟨(wSeq (fun q => { q with resetN := false })), by decide +kernel⟩
  · exact ⟨(5), (wSeq (fun q => { q with resetN := false })), by decide +kernel⟩
  · exact ⟨(5), (wSeq (fun q => { q with resetN := false })), by decide +kernel⟩
  · exact ⟨(5), (wSeq (fun q => { q with resetN := false })), by decide +kernel⟩

theorem witness_StartUpComplete :
    (∃ s : Machine.State, s.seq.railsGood = false) ∧
    (∃ s : Machine.State, s.seq.railsGood = true ∧ s.seq.resetN = true) ∧
    (∃ s : Machine.State, ∃ t : Nat, s.seq.fellAt = some t) ∧
    (∃ s : Machine.State, ∃ t : Nat, s.seq.fellAt = some t ∧ s.seq.restart ≠ 3) ∧
    (∃ s : Machine.State, ∃ t : Nat, s.seq.fellAt = some t ∧ s.seq.restart = 3) ∧
    (∃ clk : Fin 4, ∃ slot : Fin 8, ∃ src : Fin 4, ∃ s : Machine.State, s.seq.railsGood = true ∧ s.seq.resetN = false ∧ s.seq.fellAt = none ∧ s.seq.latched = false ∧
      s.seq.restart = 3) ∧
    (∃ s : Machine.State, s.seq.restart = 3 ∧ s.seq.step = 2) ∧
    (∃ cause : Fin 6, ∃ image : List Byte, ∃ s : Machine.State, ready s = true ∧ s.seq.brState = 0 ∧ s.seq.loading = false ∧ bitsAt s.seq.straps.toNat 0 2 = 1 ∧
      cause.val = 0) ∧
    (∃ cause : Fin 6, ∃ image : List Byte, ∃ s : Machine.State, ready s = true ∧ s.seq.brState = 0 ∧ s.seq.loading = false ∧ bitsAt s.seq.straps.toNat 0 2 = 1 ∧
      cause.val ≠ 0) ∧
    (∃ s : Machine.State, s.seq.fwState = 0 ∧ ready s = true ∧ s.seq.loading = false ∧ s.seq.brState = 1 ∧ 0x2000 ≤ s.seq.brLen.toNat ∧ s.seq.brLen.toNat ≤ 0x600000) ∧
    (∃ s : Machine.State, s.seq.fwState = 0 ∧ s.seq.brState = 1 ∧ s.seq.loading = false) ∧
    (∃ cause : Fin 8, ∃ s : Machine.State, s.seq.restart = 0 ∧ s.seq.fatalPosted = true) ∧
    (∃ s : Machine.State, ∃ t : Nat, s.seq.fusePulse = some t ∧ s.seq.fuseWaits = []) := by
  refine ⟨?_, ?_, ?_, ?_, ?_, ?_, ?_, ?_, ?_, ?_, ?_, ?_, ?_⟩
  · exact ⟨(State.reset), by decide +kernel⟩
  · exact ⟨(wSt), by decide +kernel, by decide +kernel⟩
  · exact ⟨(wSeq (fun q => { q with fellAt := some 5 })), (5), by decide +kernel⟩
  · exact ⟨(wSeq (fun q => { q with fellAt := some 5 })), (5), by decide +kernel, by decide +kernel⟩
  · exact ⟨(wSeq (fun q => { q with fellAt := some 5, restart := 3 })), (5), by decide +kernel, by decide +kernel⟩
  · exact ⟨(3), (7), (3), (wSeq (fun q => { q with resetN := false, latched := false, restart := 3 })), by decide +kernel, by decide +kernel, by decide +kernel,
      by decide +kernel, by decide +kernel⟩
  · exact ⟨(wSeq (fun q => { q with restart := 3, step := 2 })), by decide +kernel, by decide +kernel⟩
  · exact ⟨(0), ([1#8, 2#8]), (wSeq (fun q => { q with restart := 1, brState := 0, straps := 1#32 })), by decide +kernel, by decide +kernel, by decide +kernel,
      by decide +kernel, by decide +kernel⟩
  · exact ⟨(5), ([1#8, 2#8]), (wSeq (fun q => { q with restart := 1, brState := 0, straps := 1#32 })), by decide +kernel, by decide +kernel, by decide +kernel,
      by decide +kernel, by decide +kernel⟩
  · exact ⟨(wSeq (fun q => { q with restart := 1, fwState := 0, brState := 1, brLen := 0x2000#32 })), by decide +kernel, by decide +kernel, by decide +kernel,
      by decide +kernel, by decide +kernel, by decide +kernel⟩
  · exact ⟨(wSeq (fun q => { q with restart := 1, fwState := 0, brState := 1 })), by decide +kernel, by decide +kernel, by decide +kernel⟩
  · exact ⟨(7), (wSeq (fun q => { q with fatalPosted := true })), by decide +kernel, by decide +kernel⟩
  · exact ⟨(wSeq (fun q => { q with fusePulse := some 3 })), (3), by decide +kernel, by decide +kernel⟩

theorem witness_RecoveryComplete :
    (∃ s : Machine.State, s.seq.fwState = 1) ∧
    (∃ pair : Fin 2, ∃ s : Machine.State, s.seq.fwState = 1 ∧ pair.val = s.seq.activePair) ∧
    (∃ s : Machine.State, s.seq.activePair = 0 ∧ resetRuns s 7 1 = true) ∧
    (∃ s : Machine.State, s.seq.restart = 0) ∧
    (∃ inst : Nat, ∃ s : Machine.State, ∃ x : Nat × Nat × Nat, s.seq.running.find? (fun r => r.1 == 5 && r.2.1 == inst) = some x) ∧
    (∃ inst : Nat, ∃ s : Machine.State, ∃ x : Nat × Nat × Nat, s.seq.running.find? (fun r => r.1 == 1 && r.2.1 == inst) = some x) ∧
    (∃ bay : BayNo, ∃ core : Fin 10, ∃ s : Machine.State, ∃ c : Nat, (s.bay bay).coreResets.contains core.val = true ∧ coreOfPort core = some c ∧ (s.bay bay).fenced =
      false) ∧
    (∃ bay : BayNo, ∃ s : Machine.State, ∃ since : Nat, (s.bay bay).resetAt = some since ∧ (s.bay bay).draining = 0 ∧ (s.bay bay).fenced = false ∧ (s.part (s.partOfBay
      bay)).resetting = false) ∧
    (∃ k : StackNo, ∃ s : Machine.State, s.seq.flushing.contains k.val = true ∧ s.mem.msc = []) ∧
    (∃ key : Fin 32, ∃ s : Machine.State, ∃ k : KemKey, Tbl.find s.sec.kems key = some k) ∧
    (∃ record : Fin 512, ∃ s : Machine.State, ∃ m : MissRec, Tbl.find s.cat.misses record = some m ∧ s.isolated = true ∧ m.walked = true) ∧
    (∃ src : Nat, ∃ s : Machine.State, ∃ c : CorrSource, Tbl.find s.corr src = some c ∧ c.count = 0) ∧
    (∃ src : Nat, ∃ s : Machine.State, ∃ c : CorrSource, Tbl.find s.corr src = some c ∧ c.count ≠ 0) ∧
    (∃ g : Fin 4, ∃ pkt : Packet, ∃ s : Machine.State, ∃ c : Coll, Pk.dst pkt.hdr = s.fab.deviceId ∧ collOk pkt = true ∧ Ce.pStep pkt = 6 ∧ findColl s g (Ce.key
      (Pk.volume pkt.hdr) (Ce.pId pkt)) = some c) := by
  refine ⟨?_, ?_, ?_, ?_, ?_, ?_, ?_, ?_, ?_, ?_, ?_, ?_, ?_, ?_⟩
  · exact ⟨(wSt), by decide +kernel⟩
  · exact ⟨(0), (wSt), by decide +kernel, by decide +kernel⟩
  · exact ⟨(wResets (7, 1, 0)), by decide +kernel, by decide +kernel⟩
  · exact ⟨(wSt), by decide +kernel⟩
  · exact ⟨(3), (wResets (5, 3, 0)), ((5, 3, 0)), by decide +kernel⟩
  · exact ⟨(3), (wResets (1, 3, 0)), ((1, 3, 0)), by decide +kernel⟩
  · exact ⟨(0), (9), (wBay (fun b => { b with coreResets := [9] })), (((coreOfPort ((9) : Fin 10)).get (by decide +kernel))), by decide +kernel, (of_get (by decide +kernel)),
      by decide +kernel⟩
  · exact ⟨(0), (wBay (fun b => { b with resetAt := some 4 })), (4), by decide +kernel, by decide +kernel, by decide +kernel, by decide +kernel⟩
  · exact ⟨(7), (wSeq (fun q => { q with flushing := [7] })), by decide +kernel, by decide +kernel⟩
  · exact ⟨(3), ({ wSt with sec := { kems := [(3, wKem)] } }), (wKem), by decide +kernel⟩
  · exact ⟨(511), ({ wSt with pwr := { wSt.pwr with ctrl := 2#32 }, cat := { misses := [(511, { key := 0, part := 0, va := 0, walked := true })] } }),
      ({ key := 0, part := 0, va := 0, walked := true }), by decide +kernel, by decide +kernel, by decide +kernel⟩
  · exact ⟨(3), ({ wSt with corr := [(3, {})] }), ({}), by decide +kernel, by decide +kernel⟩
  · exact ⟨(3), ({ wSt with corr := [(3, { count := 2 })] }), ({ count := 2 }), by decide +kernel, by decide +kernel⟩
  · exact ⟨(0), (wCollP 6), (wCe 0), (wColl 0), by decide +kernel, by decide +kernel, by decide +kernel, by decide +kernel⟩

theorem witness_EveryCommandGoesOn :
    ∃ c : Instr, ∃ s : Machine.State, Inv s :=
  ⟨(.tamper), (wSt), ⟨by decide +kernel, by decide +kernel, by decide +kernel, by decide +kernel, by decide +kernel, by decide +kernel⟩⟩

theorem witness_DatestampNeverGoesBack :
    ∃ c : Instr, ∃ s : Machine.State, ∃ t : Machine.State, Inv s ∧ c ≠ .powerOnReset ∧ c ≠ .railBelowThreshold ∧ exec c s = .next t :=
  ⟨(.tamper), ({ wSt with now := 5 }), (nextOf (exec ((.tamper) : Instr) (({ wSt with now := 5 }) : Machine.State))), ⟨by decide +kernel, by decide +kernel,
    by decide +kernel, by decide +kernel, by decide +kernel, by decide +kernel⟩, by decide +kernel, by decide +kernel, rfl⟩

theorem witness_FusesOnlyGoForward :
    ∃ c : Instr, ∃ s : Machine.State, ∃ t : Machine.State, Inv s ∧ exec c s = .next t :=
  ⟨(.tamper), (wSt), (nextOf (exec ((.tamper) : Instr) ((wSt) : Machine.State))), ⟨by decide +kernel, by decide +kernel, by decide +kernel, by decide +kernel,
    by decide +kernel, by decide +kernel⟩, rfl⟩

theorem witness_MemoryReadsBackAndIsCanonical :
    (∃ m : Mem, ∃ a : Nat, ∃ x : Nat, ∃ bs : List Byte, m.wf = true) ∧
    (∃ m : Mem, ∃ n : Mem, m.wf = true ∧ n.wf = true ∧ ((∀ a, m.read a = n.read a))) := by
  refine ⟨?_, ?_⟩
  · exact ⟨([]), (3), (4), ([1#8]), by decide +kernel⟩
  · exact ⟨([]), ([]), by decide +kernel, by decide +kernel, fun _ => rfl⟩

theorem witness_PairWritesWaitForTheHighHalf :
    ∃ who : Writer, ∃ pair : RegPair, ∃ s : Machine.State, mayWrite s who pair.blk = true ∧ writablePair s pair.blk pair.off.toNat = true :=
  ⟨(.registrar), ({ blk := .timePower, off := 0x10 }), (wSt), by decide +kernel, by decide +kernel⟩

theorem witness_ForwardedPacketsCountHops :
    ∃ q : FabricPort, ∃ p : Packet, ∃ s : Machine.State, ∃ c : Instr, portUp s q = true ∧ Pk.dst p.hdr ≠ s.fab.deviceId ∧ c ∈ [.rd q p, .wr q p, .atomic q p, .conc q p,
      .mgmt q p, .coll q p, .rdResp q p, .wrAck q p, .atomicResp q p] :=
  ⟨(0), (wPkt 5 0x3FF8 0 8 0 []), (wFab id), (.rd 0 (wPkt 5 0x3FF8 0 8 0 [])), by decide +kernel, by decide +kernel, by decide +kernel⟩

theorem witness_StatusClearsBySequence :
    (∃ who : Writer, ∃ reg : StatusReg, ∃ v : Word, ∃ s : Machine.State, ∃ m : Nat, ClearsAt s who reg m ∧ v.toNat % 65536 = evtSeq (statusWord s reg.blk
      reg.off.toNat)) ∧
    (∃ who : Writer, ∃ reg : StatusReg, ∃ v : Word, ∃ s : Machine.State, ∃ m : Nat, ClearsAt s who reg m ∧ v.toNat % 65536 ≠ evtSeq (statusWord s reg.blk
      reg.off.toNat)) := by
  refine ⟨?_, ?_⟩
  · exact ⟨(.registrar), ({ blk := .sequencer, off := 4 }), (0x10000), (wSt), (0x00FF0000),
      by unfold ClearsAt; exact ⟨by decide +kernel, by decide +kernel, fun _ _ h => nomatch h⟩, by decide +kernel⟩
  · exact ⟨(.registrar), ({ blk := .sequencer, off := 4 }), (0x10001), (wSt), (0x00FF0000),
      by unfold ClearsAt; exact ⟨by decide +kernel, by decide +kernel, fun _ _ h => nomatch h⟩, by decide +kernel⟩

end Sys2Proof.Machine
end

section
/-! PROOFS. Status registers and their sequence writes (00_scope.md R5), and the writable pairs (00_scope.md R4). -/

namespace Sys2Proof.Machine

/-! What an accessor reads after the update of the same part. -/

@[simp] theorem Bay.mx_setMx_same {x : Bay} {c : Nat} {m : MatrixCore} : (x.setMx c m).mx c = m := by
  match c with
  | 0 | 1 | 2 | _ + 3 => rfl

@[simp] theorem Bay.mover_setMover_same {x : Bay} {p : Nat} {m : MoverPort} : (x.setMover p m).mover p = m := by
  unfold Bay.setMover Bay.mover
  split <;> rfl

@[simp] theorem State.mx_modMx_same {s : State} {b c : Nat} {f : MatrixCore → MatrixCore} : (s.modMx b c f).mx b c = f (s.mx b c) := by
  simp [State.modMx, State.setMx, State.mx]

@[simp] theorem State.mover_modMover_same {s : State} {b p : Nat} {f : MoverPort → MoverPort} :
    (s.modMover b p f).mover b p = f (s.mover b p) := by
  simp [State.modMover, State.setMover, State.mover]

@[simp] theorem State.fport_modFport_same {s : State} {q : Nat} {f : FabPort → FabPort} : (s.modFport q f).fport q = f (s.fport q) := by
  simp [State.modFport, State.fport, Fab.port, Tbl.getD_put]

@[simp] theorem Ot.port_setPort_same {o : Ot} {p : Nat} {x : OtPort} : (o.setPort p x).port p = x := by
  unfold Ot.setPort Ot.port
  split <;> rfl

/-! EVT_SEQ of a status register (00 R5). -/

/-- EVT_SEQ is the low half of the register. -/
theorem evtSeq_eq (r : Word) : evtSeq r = (r.setWidth 16).toNat := by simp [evtSeq]

theorem evtSeq_statusEvent (r : Word) (mask v : Nat) : evtSeq (statusEvent r mask v) = (evtSeq r + 1) % 65536 := by
  have hmask : BitVec.ofNat 16 mask ||| 0xFFFF#16 = BitVec.allOnes 16 := BitVec.or_allOnes
  have hlow : (statusEvent r mask v).setWidth 16 = BitVec.ofNat 16 ((evtSeq r + 1) % 65536) := by
    simp [statusEvent, BitVec.setWidth_ofNat_of_le, hmask]
  simp [evtSeq_eq (statusEvent r mask v), hlow]

theorem statusClear_of_present {r : Word} {clearable v : Nat} (h : v % 65536 = evtSeq r) :
    statusClear r clearable v = r &&& ~~~(BitVec.ofNat 32 clearable &&& 0xFFFF0000#32) := by
  simp [statusClear, h]

theorem statusClear_of_stale {r : Word} {clearable v : Nat} (h : v % 65536 ≠ evtSeq r) : statusClear r clearable v = r := by
  simp [statusClear, h]

/-- The status registers of the register maps, each with the bits of its events: what `clearable` lists. -/
inductive StatusAt : Block → Nat → Nat → Prop
  | bay (b : BayNo) : StatusAt (.bay b) 0x14 0x07FF0000
  | mover0 (b : BayNo) : StatusAt (.bay b) 0x34 0x0FFF0000
  | mover1 (b : BayNo) : StatusAt (.bay b) 0x54 0x0FFF0000
  | matrix (b : BayNo) (c : Fin 4) : StatusAt (.matrix b c) 0x18 0x2F0000
  | stack (k : StackNo) : StatusAt (.stack k) 4 0x0FFF0000
  | maintenance (k : StackNo) : StatusAt (.stack k) 0x20 0x60000
  | coherence (k : StackNo) : StatusAt (.stack k) 0x408 0x07FF0000
  | shelver (n : ShelverNo) : StatusAt (.shelver n) 8 0xFFFF0000
  | catalogue : StatusAt (.catalogue 0) 4 0x00FF0000
  | fabric : StatusAt (.fabric 0) 8 0x001F0000
  | fabricPort {off : Nat} (lo : 0x400 ≤ off) (hi : off < 0xA00) (at_ : off % 0x40 = 4) : StatusAt (.fabric 0) off 0x00FF0000
  | engine {off : Nat} (lo : 0xC00 ≤ off) (hi : off < 0xD00) (at_ : off % 0x40 = 0) : StatusAt (.fabric 0) off 0x03FF0000
  | datestamp : StatusAt .timePower 8 0x00FC0000
  | power : StatusAt .timePower 0x100 0x00FF0000
  | fn (f : FnNo) : StatusAt (.fn f) 4 0x001F0000
  | otfold (p : Fin 2) : StatusAt (.otfold p) 8 0x07FF0000
  | security : StatusAt .security 4 0x007F0000
  | sequencer : StatusAt .sequencer 4 0x00FF0000

theorem statusAt_of_clearable {blk : Block} {off m : Nat} : clearable blk off = some m → StatusAt blk off m := by
  fun_cases clearable blk off
  all_goals rintro ⟨⟩
  case case9 p hp =>
    obtain rfl : p = 0 := Fin.ext (by simpa using hp)
    exact .catalogue
  case case12 p hp hoff =>
    obtain rfl : p = 0 := Fin.ext (by simpa using hp)
    obtain rfl : off = 8 := by simpa using hoff
    exact .fabric
  case case13 p hp _ hport =>
    obtain rfl : p = 0 := Fin.ext (by simpa using hp)
    obtain ⟨⟨lo, hi⟩, at_⟩ : (0x400 ≤ off ∧ off < 0xA00) ∧ off % 0x40 = 4 := by simpa using hport
    exact .fabricPort lo hi at_
  case case14 p hp _ _ hengine =>
    obtain rfl : p = 0 := Fin.ext (by simpa using hp)
    obtain ⟨⟨lo, hi⟩, at_⟩ : (0xC00 ≤ off ∧ off < 0xD00) ∧ off % 0x40 = 0 := by simpa using hengine
    exact .engine lo hi at_
  all_goals constructor

/-- A sequence write can clear flags alone, never bits of EVT_SEQ. -/
theorem StatusAt.flags_high {blk : Block} {off m : Nat} (h : StatusAt blk off m) : BitVec.ofNat 32 m &&& 0xFFFF0000#32 = BitVec.ofNat 32 m := by
  cases h <;> rfl

theorem StatusAt.aligned {blk : Block} {off m : Nat} (h : StatusAt blk off m) : off % 4 = 0 := by
  cases h
  case fabricPort | engine => omega
  all_goals rfl

/-- A status register is no half of a writable pair. -/
theorem StatusAt.not_pair {blk : Block} {off m : Nat} (h : StatusAt blk off m) (s : State) :
    writablePair s blk off = false ∧ writablePair s blk (off - 4) = false := by
  cases h <;> simp [writablePair, pairGet]

theorem statusWord_clearStatus {s : State} {blk : Block} {off m : Nat} (v : Nat) (h : clearable blk off = some m) :
    statusWord (clearStatus s blk off v) blk off = statusClear (statusWord s blk off) m v := by
  simp only [clearStatus, h]
  cases statusAt_of_clearable h
  case fabricPort lo hi at_ =>
    have hoff : off ≠ 8 := by omega
    have hport : off < 0xC00 := by omega
    simp [statusWord, hoff, hport]
  case engine lo hi at_ =>
    have hoff : off ≠ 8 := by omega
    simp [statusWord, hoff, Nat.not_lt.mpr lo, State.modFab, Tbl.updD, Tbl.getD_put]
  all_goals simp [statusWord]

theorem ClearsAt.statusAt {s : State} {who : Writer} {reg : StatusReg} {m : Nat} (h : ClearsAt s who reg m) :
    StatusAt reg.blk reg.off.toNat m := statusAt_of_clearable h.1

/-- A sequence write that its block's rules permit reaches the status register. -/
theorem writeReg_of_clearsAt {s : State} {who : Writer} {reg : StatusReg} {m : Nat} (v : Word) (h : ClearsAt s who reg m) :
    writeReg s who reg.blk reg.off.toNat v = clearStatus s reg.blk reg.off.toNat v.toNat := by
  obtain ⟨hlo, hhi⟩ := h.statusAt.not_pair s
  have haligned := h.statusAt.aligned
  obtain ⟨hclear, hwrite, hmatrix⟩ := h
  simp only [writeReg, hwrite, haligned, hlo, hhi, hclear, Bool.not_true, bne_self_eq_false, Bool.or_self, Bool.and_false, Bool.false_eq_true, if_false,
    Option.isSome_some, if_true]
  cases hblk : reg.blk with
  | matrix b c => exact if_pos (hmatrix b c hblk)
  | _ => rfl

theorem exec_statusSeqClear {s : State} {who : Writer} {reg : StatusReg} {m : Nat} (v : Word) (h : ClearsAt s who reg m) :
    ∃ t, exec (.statusSeqClear who reg v) s = .next t ∧
      statusWord t reg.blk reg.off.toNat = statusClear (statusWord s reg.blk reg.off.toNat) m v.toNat := by
  have hclear := h.1
  refine ⟨clearStatus s reg.blk reg.off.toNat v.toNat, ?_, statusWord_clearStatus v.toNat hclear⟩
  change execStatusSeqClear who reg v s = _
  simp [execStatusSeqClear, hclear, writeReg_of_clearsAt v h]

/-- Settles O58: the event by its low half; each sequence write by what `statusClear` makes of the register that it reaches. -/
theorem statusClearsBySequence : Obligations.StatusClearsBySequence := by
  refine ⟨evtSeq_statusEvent, fun who reg v s m h hv => ?_, fun who reg v s m h hv => ?_⟩
  · obtain ⟨t, hexec, ht⟩ := exec_statusSeqClear v h
    exact ⟨t, hexec, by rw [ht, statusClear_of_present hv, h.statusAt.flags_high]⟩
  · obtain ⟨t, hexec, ht⟩ := exec_statusSeqClear v h
    exact ⟨t, hexec, by rw [ht, statusClear_of_stale hv]⟩

/-! Writable pairs: a held half (00 R4). -/

/-- Holding a _LO half leaves every pair's value. -/
@[simp] theorem pairGet_holdLo {s : State} {blk blk' : Block} {off off' : Nat} {v : Word} :
    pairGet (holdLo s blk off v) blk' off' = pairGet s blk' off' := rfl

@[simp] theorem mayWrite_holdLo {s : State} {who : Writer} {blk blk' : Block} {off : Nat} {v : Word} :
    mayWrite (holdLo s blk off v) who blk' = mayWrite s who blk' := rfl

@[simp] theorem writablePair_holdLo {s : State} {blk blk' : Block} {off off' : Nat} {v : Word} :
    writablePair (holdLo s blk off v) blk' off' = writablePair s blk' off' := rfl

@[simp] theorem withHeld_holdLo_same {s : State} {blk : Block} {off : Nat} {lo hi : Word} :
    withHeld (holdLo s blk off lo) blk off hi = lo.toNat + hi.toNat * 2 ^ 32 := by
  simp [withHeld, holdLo, Tbl.getD_put]

section
variable {s : State} {who : Writer} {pair : RegPair} (hwrite : mayWrite s who pair.blk = true)
  (hpair : writablePair s pair.blk pair.off.toNat = true)
include hwrite hpair

theorem exec_loWriteHold (lo : Word) : exec (.loWriteHold who pair lo) s = .next (holdLo s pair.blk pair.off.toNat lo) := by
  change execLoWriteHold who pair lo s = _
  simp [execLoWriteHold, hwrite, hpair]

theorem exec_hiWriteCommit (hi : Word) : exec (.hiWriteCommit who pair hi) s =
    .next (setPair s pair.blk pair.off.toNat (withHeld s pair.blk pair.off.toNat hi)) := by
  change execHiWriteCommit who pair hi s = _
  simp [execHiWriteCommit, hwrite, hpair]

end

/-- Settles O56: holding a half changes neither the pair nor who may write it, so each write finds the conditions of the one before. -/
theorem pairWritesWaitForTheHighHalf : Obligations.PairWritesWaitForTheHighHalf := by
  intro who pair s hwrite hpair
  refine ⟨fun lo => ⟨_, exec_loWriteHold hwrite hpair lo, rfl, pairGet_holdLo, fun lo' => ?_⟩, exec_hiWriteCommit hwrite hpair⟩
  refine ⟨_, exec_loWriteHold (by simpa using hwrite) (by simpa using hpair) lo', fun hi => ?_⟩
  rw [exec_hiWriteCommit (by simpa using hwrite) (by simpa using hpair), withHeld_holdLo_same]

end Sys2Proof.Machine
end

section
/-! PROOFS. Packets for other parts (11_fabric.md R318, R320). -/

namespace Sys2Proof.Machine

theorem forwardPacket_of_hops_lt {s : State} {q : Nat} {p : Packet} (h : Pk.hops p.hdr < 64) :
    forwardPacket s q p = routePacket s (portDim s q) { p with hdr := Pk.set p.hdr 0xC 22 8 (Pk.hops p.hdr + 1) } :=
  if_neg (Nat.not_le.mpr h)

theorem response_of_other_dst {s : State} {ptype q : Nat} {p : Packet} (hup : portUp s q = true) (hdst : Pk.dst p.hdr ≠ s.fab.deviceId) :
    response s ptype q p = forwardPacket s q p := by
  simp [response, hup, hdst]

/-- A response that is only forwarded lets parked tiles and partition resets go on all the same. -/
theorem exec_rdResp_of_other_dst {s : State} {q : FabricPort} {p : Packet} (hup : portUp s q = true) (hdst : Pk.dst p.hdr ≠ s.fab.deviceId) :
    exec (.rdResp q p) s = .next (answered (forwardPacket s q p)) := by
  change execRdResp q p s = _
  rw [execRdResp, response_of_other_dst hup hdst]

/-- Partition 0's reset, steps 1 to 4 of 18 R508 over and its flush not yet begun; ports 0 and 1 are UP, and device 5 is reached by port 1. -/
def flushDue : State :=
  { mode := 1, parts := [(0, { resetting := true })]
    fab := { ports := [(0, { link := { state := 4 } }), (1, { link := { state := 4 } })], routes := [(5, 0b101)] } }

/-- An RD_RESP from device 6 to device 5 that has crossed no link yet. -/
def transitRdResp : Packet := { hdr := Pk.make 5 6 1 0 0 0 0 0 0 0, payload := [] }

theorem flushing_forwardPacket_flushDue : ((forwardPacket flushDue 0 transitRdResp).part 0).flushing = false := by decide +kernel

theorem flushing_answered_flushDue : ((answered (forwardPacket flushDue 0 transitRdResp)).part 0).flushing = true := by decide +kernel

/-- Refutes O57: RD_RESP, WR_ACK and ATOMIC_RESP end in `answered` also where the packet is for another part, so in a state with a step of a
partition reset due the part does more than send the packet on: here it begins the flush of `flushDue`. -/
theorem not_forwardedPacketsCountHops : ¬ Obligations.ForwardedPacketsCountHops := by
  intro h
  have hup : portUp flushDue (0 : FabricPort) = true := by decide +kernel
  have hdst : Pk.dst transitRdResp.hdr ≠ flushDue.fab.deviceId := by decide +kernel
  have hhops : Pk.hops transitRdResp.hdr < 64 := by decide +kernel
  obtain ⟨hnext, -⟩ := (h 0 transitRdResp flushDue (.rdResp 0 transitRdResp) hup hdst (by simp)).1 hhops
  rw [← forwardPacket_of_hops_lt hhops, exec_rdResp_of_other_dst hup hdst] at hnext
  have hsame : answered (forwardPacket flushDue 0 transitRdResp) = forwardPacket flushDue 0 transitRdResp := Host.Outcome.next.inj hnext
  have hflush := flushing_answered_flushDue
  rw [hsame, flushing_forwardPacket_flushDue] at hflush
  exact Bool.false_ne_true hflush

end Sys2Proof.Machine
end

section
/-! PROOFS. What every command keeps, and the three invariants of a step that follow from it: the invariant itself, Datestamp, the fuses. -/

namespace Sys2Proof.Machine

/-- A walk in isolated mode leaves its result for MISS_FIXED_RESUME; otherwise the miss ends with it. -/
theorem execTableWalk_kept {k : Mark} {record : Fin 512} {s : State} (h : Kept k s) : Goes (Kept k) (execTableWalk record s) := by
  have hp : Kept k (settlePoint1 s) := settlePoint1_kept h
  unfold execTableWalk
  split
  case isFalse => exact settleInvals_kept (walkMiss_kept h)
  dsimp only
  split
  case h_2 => exact hp
  case h_1 m _ =>
    split
    · exact hp
    have hw : OptAll (Walk.All (Kept k)) ((keyRoot (settlePoint1 s) m.key).map (missWalk (settlePoint1 s) m)) := by
      cases keyRoot (settlePoint1 s) m.key with
      | none => trivial
      | some root => exact missWalk_kept hp
    split
    case h_1 heq => rw [heq] at hw; exact hw
    case h_3 => exact modCat_kept hp
    case h_2 heq =>
      rw [heq] at hw
      split
      case h_1 hseal => exact from_fst hseal (sealPages_kept hw)
      case h_2 hseal => exact modCat_kept (installEntry_kept (from_fst hseal (sealPages_kept hw)))

/-- The mark that a command keeps: that of the state before it, but for Datestamp where the command brings power back (12 R335). -/
def Mark.across (k : Mark) : Instr → Mark
  | .powerOnReset | .railBelowThreshold => { k with now := 0 }
  | _ => k

/-- Every command goes on, to a state that keeps the mark: one law for each meaning. -/
theorem exec_kept {k : Mark} {s : State} (c : Instr) (h : Kept (k.across c) s) : Goes (Kept (k.across c)) (exec c s) :=
  match c with
  | .loReadLatch _ => execLoReadLatch_kept h
  | .loWriteHold _ _ _ => execLoWriteHold_kept h
  | .hiWriteCommit _ _ _ => execHiWriteCommit_kept h
  | .statusSeqClear _ _ _ => execStatusSeqClear_kept h
  | .registerWrite _ _ _ _ => execRegisterWrite_kept h
  | .slowWriteEffect => execSlowWriteEffect_kept h
  | .bankOwnerWrite _ _ _ _ => execBankOwnerWrite_kept h
  | .handoverComplete _ _ => execHandoverComplete_kept h
  | .moverWrWrite _ _ _ => execMoverWrWrite_kept h
  | .groupPretranslate _ _ => execGroupPretranslate_kept h
  | .ttbEntriesFree _ _ => execTtbEntriesFree_kept h
  | .moverTileBegin _ _ => execMoverTileBegin_kept h
  | .moverLoad _ _ => execMoverLoad_kept h
  | .moverStore _ _ => execMoverStore_kept h
  | .moverCopyLocal _ _ => execMoverCopyLocal_kept h
  | .moverFill _ _ => execMoverFill_kept h
  | .moverPrefetch _ _ => execMoverPrefetch_kept h
  | .moverDescriptorComplete _ _ => execMoverDescriptorComplete_kept h
  | .moverResume _ _ => execMoverResume_kept h
  | .moverFlush _ _ => execMoverFlush_kept h
  | .testIntervalExpire _ => execTestIntervalExpire_kept h
  | .testCopyDone _ => execTestCopyDone_kept h
  | .marchCDone _ _ => execMarchCDone_kept h
  | .testRestoreDone _ => execTestRestoreDone_kept h
  | .bayReset _ => execBayReset_kept h
  | .bayResetDrainLimit _ => execBayResetDrainLimit_kept h
  | .coreFenceWrite _ _ => execCoreFenceWrite_kept h
  | .flitParityError _ _ => execFlitParityError_kept h
  | .linkSilence _ _ _ => execLinkSilence_kept h
  | .routerSelfCheckFault _ => execRouterSelfCheckFault_kept h
  | .routeTablesInstall => execRouteTablesInstall_kept h
  | .requestDeadline _ => execRequestDeadline_kept h
  | .cardInject _ => execCardInject_kept h
  | .doorbell _ _ _ => execDoorbell_kept h
  | .fenceSignalMsg _ _ _ => execFenceSignalMsg_kept h
  | .tileRun _ => execTileRun_kept h
  | .tilePreempt _ => execTilePreempt_kept h
  | .tileKill _ => execTileKill_kept h
  | .tileDone => execTileDone_kept h
  | .interrupt _ _ _ => execInterrupt_kept h
  | .powerCmd _ _ _ => execPowerCmd_kept h
  | .moverNotify _ => execMoverNotify_kept h
  | .faultReport => execFaultReport_kept h
  | .user _ => execUser_kept h
  | .routerCtrl _ _ _ => execRouterCtrl_kept h
  | .mxPushS _ _ _ => execMxPushS_kept h
  | .mxPushV _ _ _ => execMxPushV_kept h
  | .mxNop _ _ => execMxNop_kept h
  | .loadTile _ _ => execLoadTile_kept h
  | .storeTile _ _ => execStoreTile_kept h
  | .anchorSet _ _ => execAnchorSet_kept h
  | .expScan _ _ => execExpScan_kept h
  | .mma _ _ => execMma_kept h
  | .mmaFp64 _ _ => execMmaFp64_kept h
  | .conv _ _ => execConv_kept h
  | .accRead _ _ => execAccRead_kept h
  | .accSave _ _ => execAccSave_kept h
  | .accLoad _ _ => execAccLoad_kept h
  | .quantMx _ _ => execQuantMx_kept h
  | .mxDescriptorComplete _ _ => execMxDescriptorComplete_kept h
  | .rampStep _ _ _ => execRampStep_kept h
  | .mxResume _ _ => execMxResume_kept h
  | .mxFlush _ _ => execMxFlush_kept h
  | .matrixCoreReset _ _ => execMatrixCoreReset_kept h
  | .riscvInstruction _ _ _ => execRiscvInstruction_kept h
  | .cnSend _ _ _ _ _ => execCnSend_kept h
  | .cnTrysend _ _ _ _ _ => execCnTrysend_kept h
  | .cnRecv _ _ _ _ => execCnRecv_kept h
  | .cnRecvDeadline _ _ => execCnRecvDeadline_kept h
  | .dsRead _ _ _ => execDsRead_kept h
  | .dsWait _ _ _ _ => execDsWait_kept h
  | .dsWaitReturn _ _ => execDsWaitReturn_kept h
  | .tileYield _ _ _ => execTileYield_kept h
  | .bayGive _ _ _ _ _ => execBayGive_kept h
  | .bayOwn _ _ _ => execBayOwn_kept h
  | .vaSeta _ _ _ _ => execVaSeta_kept h
  | .vaAddV _ _ _ _ => execVaAddV_kept h
  | .vaMacVv _ _ _ _ _ => execVaMacVv_kept h
  | .vaRedV _ _ _ _ => execVaRedV_kept h
  | .vaRedmacVv _ _ _ _ _ => execVaRedmacVv_kept h
  | .vaRdV _ _ _ _ => execVaRdV_kept h
  | .vaRdx _ _ _ _ => execVaRdx_kept h
  | .vaSave _ _ _ => execVaSave_kept h
  | .vaLoad _ _ _ => execVaLoad_kept h
  | .vaAddrec _ _ _ => execVaAddrec_kept h
  | .vfexpmaxVs _ _ _ _ _ _ => execVfexpmaxVs_kept h
  | .vfexp2 _ _ _ _ _ _ => execVfexp2_kept h
  | .vflog2 _ _ _ _ _ _ => execVflog2_kept h
  | .vfsinpi _ _ _ _ _ _ => execVfsinpi_kept h
  | .vfcospi _ _ _ _ _ _ => execVfcospi_kept h
  | .vftanh _ _ _ _ _ _ => execVftanh_kept h
  | .vferf _ _ _ _ _ _ => execVferf_kept h
  | .vfrsqrt _ _ _ _ _ _ => execVfrsqrt_kept h
  | .vfrecip _ _ _ _ _ _ => execVfrecip_kept h
  | .vbl2d _ _ _ _ _ _ _ => execVbl2d_kept h
  | .vbs2d _ _ _ _ _ _ _ => execVbs2d_kept h
  | .gangStart _ => execGangStart_kept h
  | .stackRequest _ => execStackRequest_kept h
  | .writebackPart _ _ => execWritebackPart_kept h
  | .flushPart _ _ => execFlushPart_kept h
  | .flushShelf _ _ => execFlushShelf_kept h
  | .flushAll _ => execFlushAll_kept h
  | .mscMaintDone _ => execMscMaintDone_kept h
  | .lookaheadRange _ _ _ _ _ => execLookaheadRange_kept h
  | .prefetchIssue _ => execPrefetchIssue_kept h
  | .laneFail _ _ => execLaneFail_kept h
  | .patrolScrub _ _ => execPatrolScrub_kept h
  | .dramTempSample _ _ => execDramTempSample_kept h
  | .regulationWindow _ => execRegulationWindow_kept h
  | .shNop _ => execShNop_kept h
  | .shCopy _ => execShCopy_kept h
  | .shFill _ => execShFill_kept h
  | .shGather _ => execShGather_kept h
  | .shScatter _ => execShScatter_kept h
  | .shReduce _ => execShReduce_kept h
  | .shAtomic _ => execShAtomic_kept h
  | .shScan _ => execShScan_kept h
  | .shTranspose _ => execShTranspose_kept h
  | .shMeasure _ => execShMeasure_kept h
  | .shScrub _ => execShScrub_kept h
  | .shPatternTest _ _ => execShPatternTest_kept h
  | .shPrefetch _ => execShPrefetch_kept h
  | .shSealIngest _ => execShSealIngest_kept h
  | .shMigrate _ => execShMigrate_kept h
  | .shelverChunkDone _ => execShelverChunkDone_kept h
  | .shelverComplete _ => execShelverComplete_kept h
  | .shWatchdogExpire _ => execShWatchdogExpire_kept h
  | .scratchParityError _ => execScratchParityError_kept h
  | .halt _ => execHalt_kept h
  | .mirrorStop _ => execMirrorStop_kept h
  | .compressedWriteback _ => execCompressedWriteback_kept h
  | .rdShared _ _ => execRdShared_kept h
  | .rdOwn _ _ => execRdOwn_kept h
  | .upgrade _ _ => execUpgrade_kept h
  | .writeback _ _ _ _ => execWriteback_kept h
  | .cleanEvict _ _ => execCleanEvict_kept h
  | .snpShare _ _ => execSnpShare_kept h
  | .snpInv _ _ => execSnpInv_kept h
  | .snpData _ _ => execSnpData_kept h
  | .snpRsp _ _ _ _ _ => execSnpRsp_kept h
  | .grant _ _ => execGrant_kept h
  | .snoopHoldExpire _ _ => execSnoopHoldExpire_kept h
  | .farAmo _ _ _ _ _ _ _ => execFarAmo_kept h
  | .snoopDeadline _ => execSnoopDeadline_kept h
  | .l1dFlushTimeout _ _ => execL1dFlushTimeout_kept h
  | .catalogueLookup _ _ _ _ _ => execCatalogueLookup_kept h
  | .tableWalk _ => execTableWalk_kept h
  | .dirty _ _ => execDirty_kept h
  | .mapChunk => execMapChunk_kept h
  | .prepare => execPrepare_kept h
  | .vote => execVote_kept h
  | .commit => execCommit_kept h
  | .concAbort => execConcAbort_kept h
  | .drain => execDrain_kept h
  | .query => execQuery_kept h
  | .state => execState_kept h
  | .prepareDeadline _ => execPrepareDeadline_kept h
  | .switchAt _ => execSwitchAt_kept h
  | .graceLimit _ => execGraceLimit_kept h
  | .recoverStateWait _ => execRecoverStateWait_kept h
  | .trainDone _ _ => execTrainDone_kept h
  | .alignDone _ => execAlignDone_kept h
  | .handshakeDone _ _ => execHandshakeDone_kept h
  | .linkStepLimit _ => execLinkStepLimit_kept h
  | .heldTimeout _ => execHeldTimeout_kept h
  | .dataFlit _ _ => execDataFlit_kept h
  | .ctrlFlit _ _ => execCtrlFlit_kept h
  | .idleFlit _ _ => execIdleFlit_kept h
  | .timeFlit _ _ => execTimeFlit_kept h
  | .timeFlitSend _ => execTimeFlitSend_kept h
  | .flitCrcError _ _ => execFlitCrcError_kept h
  | .frameAuthFail _ => execFrameAuthFail_kept h
  | .flitSilence _ => execFlitSilence_kept h
  | .fecLockLoss _ => execFecLockLoss_kept h
  | .keyRollover _ => execKeyRollover_kept h
  | .rd _ _ => execRd_kept h
  | .wr _ _ => execWr_kept h
  | .atomic _ _ => execAtomic_kept h
  | .rdResp _ _ => execRdResp_kept h
  | .wrAck _ _ => execWrAck_kept h
  | .atomicResp _ _ => execAtomicResp_kept h
  | .coll _ _ => execColl_kept h
  | .conc _ _ => execConc_kept h
  | .mgmt _ _ => execMgmt_kept h
  | .fabricDeadline _ => execFabricDeadline_kept h
  | .tagFree => execTagFree_kept h
  | .allreduce _ _ => execAllreduce_kept h
  | .collReduce _ _ => execCollReduce_kept h
  | .broadcast _ _ => execBroadcast_kept h
  | .allgather _ _ => execAllgather_kept h
  | .reduceScatter _ _ => execReduceScatter_kept h
  | .barrier _ _ => execBarrier_kept h
  | .expMax _ _ => execExpMax_kept h
  | .collStartAt _ _ => execCollStartAt_kept h
  | .collDone _ _ => execCollDone_kept h
  | .collComplete _ _ => execCollComplete_kept h
  | .collDeadline _ _ => execCollDeadline_kept h
  | .syncIn _ => execSyncIn_kept h
  | .syncInLoss => execSyncInLoss_kept h
  | .syncOutPulse => execSyncOutPulse_kept h
  | .powerEpochBoundary => execPowerEpochBoundary_kept h
  | .voteInstant => execVoteInstant_kept h
  | .voteDeadline _ => execVoteDeadline_kept h
  | .voltageOffset => execVoltageOffset_kept h
  | .powerVote => execPowerVote_kept h
  | .decide => execDecide_kept h
  | .powerSample _ => execPowerSample_kept h
  | .droopDetect _ => execDroopDetect_kept h
  | .droopRelease _ => execDroopRelease_kept h
  | .stretchDecay _ => execStretchDecay_kept h
  | .thermalSensorSample _ _ => execThermalSensorSample_kept h
  | .thermalTrip => execThermalTrip_kept h
  | .boostBucket => execBoostBucket_kept h
  | .dispatch _ => execDispatch_kept h
  | .shelve _ => execShelve_kept h
  | .shelveSubmit _ => execShelveSubmit_kept h
  | .collective _ => execCollective_kept h
  | .hint _ => execHint_kept h
  | .sync _ => execSync_kept h
  | .queueRead _ _ => execQueueRead_kept h
  | .queueSwapIn _ => execQueueSwapIn_kept h
  | .commandRelease _ => execCommandRelease_kept h
  | .tilePlace _ _ => execTilePlace_kept h
  | .timesliceExpire _ _ => execTimesliceExpire_kept h
  | .tileWatchdog _ => execTileWatchdog_kept h
  | .preemptGraceExpire _ => execPreemptGraceExpire_kept h
  | .runtimeResponseTimeout _ => execRuntimeResponseTimeout_kept h
  | .preemptAt _ => execPreemptAt_kept h
  | .resumeAt _ => execResumeAt_kept h
  | .volPreemptRelay => execVolPreemptRelay_kept h
  | .volPreemptReport => execVolPreemptReport_kept h
  | .fmMessage => execFmMessage_kept h
  | .fmAck => execFmAck_kept h
  | .fmSendTimeout _ => execFmSendTimeout_kept h
  | .mbDb _ _ => execMbDb_kept h
  | .mailboxRead _ _ => execMailboxRead_kept h
  | .cmdDb _ _ _ => execCmdDb_kept h
  | .cplDb _ _ _ => execCplDb_kept h
  | .irqMaskWrite _ _ _ => execIrqMaskWrite_kept h
  | .heartbeat => execHeartbeat_kept h
  | .rsvdPolicy _ => execRsvdPolicy_kept h
  | .isolation _ => execIsolation_kept h
  | .boostEn _ => execBoostEn_kept h
  | .hintsEn _ => execHintsEn_kept h
  | .deviceId _ => execDeviceId_kept h
  | .scrubPeriod _ => execScrubPeriod_kept h
  | .colophonRead _ => execColophonRead_kept h
  | .partMode _ => execPartMode_kept h
  | .partReleaseDrain _ => execPartReleaseDrain_kept h
  | .partReleaseSquash _ => execPartReleaseSquash_kept h
  | .drainLimit _ => execDrainLimit_kept h
  | .partitionScrub _ => execPartitionScrub_kept h
  | .partQuiesce _ => execPartQuiesce_kept h
  | .partQuiesceCancel _ => execPartQuiesceCancel_kept h
  | .partExport _ => execPartExport_kept h
  | .partImport _ => execPartImport_kept h
  | .dsSet _ => execDsSet_kept h
  | .pwrCap _ => execPwrCap_kept h
  | .freqTarget _ => execFreqTarget_kept h
  | .schedSet _ => execSchedSet_kept h
  | .bwGuarantee _ => execBwGuarantee_kept h
  | .routeLoad _ _ => execRouteLoad_kept h
  | .portConfig _ => execPortConfig_kept h
  | .maintFuse _ => execMaintFuse_kept h
  | .fmSend _ => execFmSend_kept h
  | .ctxCreate _ => execCtxCreate_kept h
  | .ctxSet _ => execCtxSet_kept h
  | .ctxResume _ => execCtxResume_kept h
  | .ctxDestroy _ => execCtxDestroy_kept h
  | .destroyTileKill _ => execDestroyTileKill_kept h
  | .faultAck _ => execFaultAck_kept h
  | .faultRetry _ => execFaultRetry_kept h
  | .faultAbort _ => execFaultAbort_kept h
  | .queueCreate _ => execQueueCreate_kept h
  | .queueDestroy _ => execQueueDestroy_kept h
  | .imageRegister _ => execImageRegister_kept h
  | .imageUnregister _ => execImageUnregister_kept h
  | .memAlloc _ => execMemAlloc_kept h
  | .memImport _ => execMemImport_kept h
  | .memFree _ => execMemFree_kept h
  | .memReclaim _ => execMemReclaim_kept h
  | .fenceTable _ => execFenceTable_kept h
  | .fenceAlloc _ => execFenceAlloc_kept h
  | .fenceSignal _ => execFenceSignal_kept h
  | .fenceReset _ => execFenceReset_kept h
  | .fenceFree _ => execFenceFree_kept h
  | .fenceWait _ => execFenceWait_kept h
  | .catInvalidate _ => execCatInvalidate_kept h
  | .dlogSet _ => execDlogSet_kept h
  | .dlogReturn _ => execDlogReturn_kept h
  | .winSet _ => execWinSet_kept h
  | .winClear _ => execWinClear_kept h
  | .ledgerRing _ => execLedgerRing_kept h
  | .ledgerAck _ => execLedgerAck_kept h
  | .ledgerQuery _ => execLedgerQuery_kept h
  | .volCreate _ _ => execVolCreate_kept h
  | .volModify _ _ => execVolModify_kept h
  | .volDestroy _ => execVolDestroy_kept h
  | .volRecover _ => execVolRecover_kept h
  | .volPreempt _ => execVolPreempt_kept h
  | .volResume _ => execVolResume_kept h
  | .shelfMigrateCopy _ => execShelfMigrateCopy_kept h
  | .shelfMigrateFinish _ => execShelfMigrateFinish_kept h
  | .sealPolicy _ _ => execSealPolicy_kept h
  | .attest _ => execAttest_kept h
  | .keyImport _ _ => execKeyImport_kept h
  | .keyDestroy _ => execKeyDestroy_kept h
  | .peerRead _ => execPeerRead_kept h
  | .lcReturnChallenge _ => execLcReturnChallenge_kept h
  | .lcReturnToken _ _ => execLcReturnToken_kept h
  | .peerStateFailed _ => execPeerStateFailed_kept h
  | .peerStateRestored _ => execPeerStateRestored_kept h
  | .partReset _ => execPartReset_kept h
  | .deviceReset _ => execDeviceReset_kept h
  | .rdNc _ _ => execRdNc_kept h
  | .wrNc _ _ => execWrNc_kept h
  | .otAtomic _ _ => execOtAtomic_kept h
  | .regRd _ _ => execRegRd_kept h
  | .regWr _ _ => execRegWr_kept h
  | .timeReq _ _ => execTimeReq_kept h
  | .data _ _ => execData_kept h
  | .ack _ _ => execAck_kept h
  | .cmDeadline _ => execCmDeadline_kept h
  | .otLaneFail _ _ => execOtLaneFail_kept h
  | .otRetrain _ => execOtRetrain_kept h
  | .tamper => execTamper_kept h
  | .getProvenance _ => execGetProvenance_kept h
  | .getTelemetry => execGetTelemetry_kept h
  | .setPwrCap _ => execSetPwrCap_kept h
  | .getResetStatus => execGetResetStatus_kept h
  | .clearAlert _ => execClearAlert_kept h
  | .telemetryRefresh => execTelemetryRefresh_kept h
  | .powerOnReset => execPowerOnReset_kept h
  | .railBelowThreshold => execRailBelowThreshold_kept h
  | .resetNFall => execResetNFall_kept h
  | .shortPulse => execShortPulse_kept h
  | .resetNAssert => execResetNAssert_kept h
  | .resetNRise _ _ _ _ => execResetNRise_kept h
  | .imageReadDone _ _ => execImageReadDone_kept h
  | .bootLoad => execBootLoad_kept h
  | .retrySource => execRetrySource_kept h
  | .registrarWatchdog => execRegistrarWatchdog_kept h
  | .lockstepMismatch _ => execLockstepMismatch_kept h
  | .pairResetDone _ => execPairResetDone_kept h
  | .registrarRestart => execRegistrarRestart_kept h
  | .stepTimerOverrun _ _ => execStepTimerOverrun_kept h
  | .deviceFatal _ => execDeviceFatal_kept h
  | .deviceWarmReset _ => execDeviceWarmReset_kept h
  | .bypass => execBypass_kept h
  | .idcode => execIdcode_kept h
  | .samplePreload _ => execSamplePreload_kept h
  | .clamp => execClamp_kept h
  | .highz => execHighz_kept h
  | .extest _ => execExtest_kept h
  | .extestPulse _ => execExtestPulse_kept h
  | .extestTrain _ => execExtestTrain_kept h
  | .refclkPresent => execRefclkPresent_kept h
  | .coreResetDone _ _ => execCoreResetDone_kept h
  | .bayResetDone _ => execBayResetDone_kept h
  | .shelverResetDone _ => execShelverResetDone_kept h
  | .mscFlushLimit _ => execMscFlushLimit_kept h
  | .volPreemptTimeout _ => execVolPreemptTimeout_kept h
  | .mailboxDeadline _ => execMailboxDeadline_kept h
  | .kemKeyExpiry _ => execKemKeyExpiry_kept h
  | .fusePulseEnd => execFusePulseEnd_kept h
  | .smbusClockLowTimeout => execSmbusClockLowTimeout_kept h
  | .missFixedResume _ => execMissFixedResume_kept h
  | .mailboxFixedAnswer _ => execMailboxFixedAnswer_kept h
  | .correctedReportInterval _ => execCorrectedReportInterval_kept h
  | .collAbort _ _ => execCollAbort_kept h

theorem Inv.kept {s : State} (h : Inv s) : Kept s.mark s where
  queue := rfl
  now := Nat.le_refl _
  mode := h.mode
  dram := h.dram
  cap := h.cap
  device := h.device
  life := ⟨Nat.le_refl _, h.life⟩
  kill := id
  version := Nat.le_refl _
  revoke := rfl
  tamper := ⟨Nat.le_refl _, h.tamper⟩
  serial := rfl
  rows := Nat.le_refl _

theorem Kept.across {k : Mark} {s : State} (h : Kept k s) (c : Instr) : Kept (k.across c) s := by
  unfold Mark.across
  split
  case h_3 => exact h
  all_goals exact { h with now := Nat.zero_le _ }

theorem Kept.inv {k : Mark} {s : State} (h : Kept k s) : Inv s where
  mode := h.mode
  dram := h.dram
  cap := h.cap
  device := h.device
  tamper := h.mk.tamper.2
  life := h.mk.life.2

theorem Kept.fusesOn {k : Mark} {s : State} (h : Kept k s) : FusesOn k.sec s.sec where
  lc := h.mk.life.1
  kill := h.kill
  version := h.version
  tamper := h.mk.tamper.1
  rows := h.rows
  revoke := h.revoke
  serial := h.serial

@[simp] theorem Mark.across_sec (k : Mark) (c : Instr) : (k.across c).sec = k.sec := by
  unfold Mark.across
  split <;> rfl

@[simp] theorem Mark.across_queue (k : Mark) (c : Instr) : (k.across c).queue = k.queue := by
  unfold Mark.across
  split <;> rfl

theorem Mark.across_of_power_on {k : Mark} {c : Instr} (hon : c ≠ .powerOnReset) (hrail : c ≠ .railBelowThreshold) : k.across c = k := by
  unfold Mark.across
  split
  · exact absurd rfl hon
  · exact absurd rfl hrail
  · rfl

/-- What a command answers from a state that meets the invariant keeps that state's mark. -/
theorem Inv.exec_next {s t : State} {c : Instr} (h : Inv s) (hexec : exec c s = .next t) : Kept (s.mark.across c) t := by
  have hgoes := exec_kept c (h.kept.across c)
  rwa [hexec] at hgoes

/-- Settles O52: the law of every command, read for the queue. -/
theorem everyCommandGoesOn : Obligations.EveryCommandGoesOn := by
  intro c s h
  obtain ⟨t, hexec, ht⟩ := (exec_kept c (h.kept.across c)).ex
  exact ⟨t, hexec, ht.queue.trans (Mark.across_queue s.mark c)⟩

/-- Settles O53: a command that does not bring power back keeps the mark with its Datestamp. -/
theorem datestampNeverGoesBack : Obligations.DatestampNeverGoesBack := by
  intro c s t h hon hrail hexec
  have ht := h.exec_next hexec
  rw [Mark.across_of_power_on hon hrail] at ht
  exact ht.now

/-- Settles O54: the law of every command, read for the fuses, which no loss of power takes back. -/
theorem fusesOnlyGoForward : Obligations.FusesOnlyGoForward := by
  intro c s t h hexec
  have ht := (h.exec_next hexec).fusesOn
  rwa [Mark.across_sec] at ht

/-- Settles O4: the queue is no part of the invariant, so the front command runs from a state that meets it; an empty queue ticks. -/
theorem stepKeepsInv : Obligations.StepKeepsInv := by
  intro s t h hstep
  unfold step at hstep
  split at hstep
  case h_1 =>
    cases hstep
    exact (tick_kept h.kept).inv
  case h_2 c rest _ =>
    have hrest : Inv { s with pending := rest } := ⟨h.mode, h.dram, h.cap, h.device, h.tamper, h.life⟩
    exact (hrest.exec_next hstep).inv

/-- Settles O3: the values at reset, field by field. -/
theorem resetKeepsInv : Obligations.ResetKeepsInv where
  mode := rfl
  dram := rfl
  cap := ⟨by decide, by decide⟩
  device := by decide
  tamper := by decide
  life := by decide

/-- Settles O1: by the equation of `step` on a queue that has a front. -/
theorem stepRunsTheFrontCommand : Obligations.StepRunsTheFrontCommand := by
  intro c rest s h
  simp [step, h]

/-- Settles O2: the first test of `tick` is whether Datestamp slews. -/
theorem emptyQueueTicks : Obligations.EmptyQueueTicks := by
  refine ⟨fun s h => by simp [step, idle, h], fun s h => ?_⟩
  simp [tick, h]

/-- Settles O59: `decodeTableWord` answers none. -/
theorem noWordSpellsACommand : Obligations.NoWordSpellsACommand := fun _ _ => ⟨rfl, fun _ => rfl⟩

end Sys2Proof.Machine
end

section
/-! PROOFS. Byte memories read back what is written, and their canonical form is one (06_memory.md); registers at reset. -/

namespace Sys2Proof.Machine

/-- A run of bytes reads as written, and every other byte as before. -/
theorem Mem.read_writeN {m : Mem} {a x : Nat} {bs : List Byte} (h : m.wf = true) :
    (m.writeN a bs).read x = if hx : a ≤ x ∧ x < a + bs.length then bs[x - a]'(by omega) else m.read x := by
  induction bs generalizing m a with
  | nil => simp [Mem.writeN, show ¬ (a ≤ x ∧ x < a) by omega]
  | cons b bs ih =>
    rw [Mem.writeN, ih (Mem.wf_write h), Mem.read_write h]
    rcases Nat.lt_trichotomy x a with hlt | rfl | hgt
    · simp [show ¬ a + 1 ≤ x by omega, show ¬ a ≤ x by omega, show x ≠ a by omega]
    · simp [show ¬ x + 1 ≤ x by omega]
    · have hsub : x - a = x - (a + 1) + 1 := by omega
      simp [hsub, Nat.succ_le_of_lt hgt, Nat.le_of_lt hgt, Nat.ne_of_gt hgt, show x < a + 1 + bs.length ↔ x < a + (bs.length + 1) by omega]

theorem Mem.read_cons_same {a : Nat} {v : Byte} {m : Mem} : Mem.read ((a, v) :: m) a = v := by simp [Mem.read]

/-- Below the first address of a canonical memory nothing is listed. -/
theorem Mem.read_eq_unlisted_of_above {m : Mem} {a lo : Nat} (h : m.above lo) (ha : a < lo) : m.read a = Mem.unlisted :=
  Mem.read_of_above fun c hc => Nat.le_trans ha (h c hc)

/-- The first address that a canonical memory lists is the first that does not read as unlisted. -/
theorem Mem.head_le {a b : Nat} {v w : Byte} {m n : Mem} (hm : Mem.wf ((a, v) :: m) = true)
    (h : ∀ x, Mem.read ((a, v) :: m) x = Mem.read ((b, w) :: n) x) : b ≤ a := by
  refine Nat.le_of_not_lt fun hlt => ?_
  have hread : Mem.read ((b, w) :: n) a = Mem.unlisted := by simp [Mem.read, show b ≠ a by omega, show a < b by omega]
  exact (Mem.wf_cons.1 hm).1 (Mem.read_cons_same.symm.trans ((h a).trans hread))

theorem Mem.read_tail {a x : Nat} {v : Byte} {m : Mem} (h : m.above (a + 1)) :
    m.read x = if x ≤ a then Mem.unlisted else Mem.read ((a, v) :: m) x := by
  split
  case isTrue hx => exact Mem.read_eq_unlisted_of_above h (Nat.lt_succ_of_le hx)
  case isFalse hx => simp [Mem.read, show a ≠ x by omega, show ¬ x < a by omega]

/-- Canonical memories that read alike are the same data: their first listed bytes agree, and so do the rests. -/
theorem Mem.wf_ext {m n : Mem} (hm : m.wf = true) (hn : n.wf = true) (h : ∀ a, m.read a = n.read a) : m = n := by
  induction m generalizing n with
  | nil =>
    cases n with
    | nil => rfl
    | cons d n => exact absurd ((h d.1).trans Mem.read_cons_same).symm (Mem.wf_cons.1 hn).1
  | cons c m ih =>
    obtain ⟨a, v⟩ := c
    cases n with
    | nil => exact absurd (Mem.read_cons_same.symm.trans (h a)) (Mem.wf_cons.1 hm).1
    | cons d n =>
      obtain ⟨b, w⟩ := d
      obtain rfl : a = b := Nat.le_antisymm (Mem.head_le hn (fun x => (h x).symm)) (Mem.head_le hm h)
      obtain rfl : v = w := Mem.read_cons_same.symm.trans ((h a).trans Mem.read_cons_same)
      obtain ⟨-, habove, hwf⟩ := Mem.wf_cons.1 hm
      obtain ⟨-, habove', hwf'⟩ := Mem.wf_cons.1 hn
      rw [ih hwf hwf' fun x => by rw [Mem.read_tail (v := v) habove, Mem.read_tail (v := v) habove', h x]]

/-- Settles O55: a byte written and then the run, and the canonical form by its first byte. -/
theorem memoryReadsBackAndIsCanonical : Obligations.MemoryReadsBackAndIsCanonical :=
  ⟨fun _ _ _ _ h => Mem.read_writeN h, fun _ _ => Mem.wf_ext⟩

/-- Settles O60: each register is read from the state at reset. -/
theorem registersAtReset : Obligations.RegistersAtReset := by
  refine ⟨fun b => ⟨?_, rfl⟩, rfl, rfl, rfl, fun _ => ⟨rfl, rfl⟩, fun _ => rfl, rfl, fun p => ?_, rfl, rfl⟩
  · revert b
    decide
  · revert p
    decide

end Sys2Proof.Machine
end

section
/-! PROOFS. Matrix cores: a descriptor that is ready runs, pushes, the ramp, and the opcodes' own effects (04_matrix_operations.md). -/

namespace Sys2Proof.Machine

section
variable {s : State} {b c op : Nat} {d : BitVec 1024} {act : Bay → MatrixCore → BitVec 1024 → MxDone × Option Nat} {r : MxDone}

/-- A ready descriptor whose opcode finds fault with it halts the core (04 R118). -/
theorem mxRun_halts {cause : Nat} (h : MxReady s b c op d) (hact : act (s.bay b) (s.mx b c) d = (r, some cause)) :
    mxRun s b c op act = mxHalt (s.setBay b (r.bay.setMx c r.core)) b c cause := by
  obtain ⟨hfind, hop, hhalt, hcheck, hstart⟩ := h
  obtain ⟨e, he, rfl⟩ := Option.map_eq_some_iff.1 hfind
  simp only [State.mx] at he hhalt hstart hact
  simp [mxRun, he, hop, hhalt, hcheck, hstart, hact]

/-- A ready descriptor takes effect; AO is trapped by ACC_READ under TRAP_AO alone (04 R120). -/
theorem mxRun_did (h : MxReady s b c op d) (hact : act (s.bay b) (s.mx b c) d = (r, none))
    (hao : op ≠ 8 ∨ Mx.trapAo d = false) : mxRun s b c op act = mxDid s b c r.bay r.core r.exc := by
  obtain ⟨hfind, hop, hhalt, hcheck, hstart⟩ := h
  obtain ⟨e, he, rfl⟩ := Option.map_eq_some_iff.1 hfind
  have hno : (Mx.trapAo e.desc && op == 8 && r.exc &&& Exc.ao != 0) = false := by
    rcases hao with h | h <;> simp [h]
  simp only [State.mx] at he hhalt hstart hact
  simp [mxRun, mxDid, he, hop, hhalt, hcheck, hstart, hact, hno]

theorem mxRun_trapped (h : MxReady s b c 8 d) (hact : act (s.bay b) (s.mx b c) d = (r, none)) (htrap : Mx.trapAo d = true)
    (hao : (r.exc &&& Exc.ao) ≠ 0) :
    mxRun s b c 8 act = mxDid s b c r.bay { r.core with status := statusFlag r.core.status 21, trapAo := true } r.exc := by
  obtain ⟨hfind, hop, hhalt, hcheck, hstart⟩ := h
  obtain ⟨e, he, rfl⟩ := Option.map_eq_some_iff.1 hfind
  simp only [State.mx] at he hhalt hstart hact
  simp [mxRun, mxDid, he, hop, hhalt, hcheck, hstart, hact, htrap, hao]

end

/-- Settles O11: each opcode by the law of a ready descriptor. -/
theorem matrixMovesComplete : Obligations.MatrixMovesComplete := by
  refine ⟨?_, ?_, ?_, ?_, ?_, ?_, fun bay mx s d h hload => ?_, fun bay mx s d h hload => ?_⟩
  case refine_7 =>
    dsimp only [exec, execAccLoad]
    rw [mxRun_did h (by rw [hload]; rfl) (by simp)]
  case refine_8 =>
    dsimp only [exec, execAccLoad]
    rw [mxRun_halts h (by rw [hload]; rfl)]
  all_goals
    intro bay mx s d h
    dsimp only [exec, execMxNop, execLoadTile, execStoreTile, execAnchorSet, execExpScan, execAccSave]
    rw [mxRun_did h rfl (by simp)]

/-- Settles O12: as O11; ACC_READ alone may trap AO. -/
theorem matrixArithmeticCompletes : Obligations.MatrixArithmeticCompletes := by
  refine ⟨?_, ?_, ?_, fun bay mx s d h htrap => ?_, fun bay mx s d h htrap hao => ?_, ?_⟩
  case refine_4 =>
    dsimp only [exec, execAccRead]
    rw [mxRun_did h rfl (.inr htrap)]
  case refine_5 =>
    dsimp only [exec, execAccRead]
    rw [mxRun_trapped h rfl htrap hao]
  all_goals
    intro bay mx s d h
    dsimp only [exec, execMma, execMmaFp64, execConv, execQuantMx]
    rw [mxRun_did h rfl (by simp)]

theorem mxPush_of_room {s : State} {b c : Nat} {vector : Bool} (hreset : (s.bay b).resetAt = none) (hcores : (s.bay b).coreResets = [])
    (hroom : (s.mx b c).fifo.length < 32) : mxPush s b c vector = mxSettle (s.setMx b c { s.mx b c with
      fifo := (s.mx b c).fifo ++ [{ desc := if vector then (s.mx b c).stageV else (s.mx b c).stageS }] }) b c := by
  simp only [State.mx] at hroom
  simp [mxPush, State.mx, hreset, hcores, Nat.not_le.mpr hroom]

/-- Settles O10: a push goes by the core that writes it; the ramp by whether arithmetic issues or waits. -/
theorem matrixPushAndRampComplete : Obligations.MatrixPushAndRampComplete := by
  refine ⟨?_, ?_, ?_, ?_, ?_, ?_, ?_, ?_⟩
  · exact fun bay mx s hreset hcores hroom => congrArg _ (mxPush_of_room hreset hcores hroom)
  · exact fun _ _ _ => rfl
  · intro bay mx w s hreset hcores hroom hw
    dsimp only [exec]
    simp [execMxPushV, hw, mxPush_of_room hreset hcores hroom]
  · intro bay mx w s hw
    dsimp only [exec]
    simp [execMxPushV, hw]
  · intro bay mx s e rest hfifo hran
    dsimp only [exec]
    simp [execMxDescriptorComplete, hfifo, hran]
  · intro bay mx s d hhalt hfifo hran hlo hhi hramp
    dsimp only [exec]
    simp [execRampStep, hhalt, hfifo, hlo, hhi, hramp]
  · intro bay mx s hfifo hramp
    dsimp only [exec]
    simp [execRampStep, hfifo, hramp]
  · exact fun _ _ _ => rfl

end Sys2Proof.Machine
end

section
/-! PROOFS. Shelvers: the opcodes of an admitted command, chunks, completions and faults (07_shelvers.md). -/

namespace Sys2Proof.Machine

/-- Settles O21: each opcode by the law of a command that is ready and admitted. -/
theorem shelverMovesComplete : Obligations.ShelverMovesComplete := by
  refine ⟨fun sh s q w u c h => ?_, ?_, ?_, ?_, ?_, ?_, ?_, ?_⟩
  case refine_1 =>
    have hdoes : shDoes (fun s _ _ r => .did s r) u c w (shAdmitted s sh q w c) = .did u (shAdmitted s sh q w c) := ite_self _
    dsimp only [exec, execShNop]
    rw [shStart_ready h rfl hdoes]
  all_goals
    intro sh s q w u c v r h hdoes
    dsimp only [exec, execShCopy, execShFill, execShGather, execShScatter, execShTranspose, execShPrefetch, execShMigrate]
    rw [shStart_ready h rfl hdoes]

/-- Settles O22: as O21; PATTERN_TEST carries the lines that failed. -/
theorem shelverComputesComplete : Obligations.ShelverComputesComplete := by
  refine ⟨?_, ?_, ?_, ?_, ?_, fun sh failed s q w u c v r h hdoes => ?_, ?_⟩
  case refine_6 =>
    dsimp only [exec, execShPatternTest]
    rw [shStart_ready h rfl hdoes]
  all_goals
    intro sh s q w u c v r h hdoes
    dsimp only [exec, execShReduce, execShAtomic, execShScan, execShMeasure, execShScrub, execShSealIngest]
    rw [shStart_ready h rfl hdoes]

/-- A command that publishes nothing ends with its record alone (07 R207). -/
theorem publish_of_pubOp_zero {s : State} {sh q : Nat} {r : ShRun} (h : ShCmd.pubOp r.word = 0) : publish s sh q r = .none_ s := by
  simp [publish, h]

/-- A fold whose steps all leave the state that it starts from ends there. -/
theorem foldl_eq_self {α β : Type} {f : β → α → β} {b : β} {l : List α} (h : ∀ a ∈ l, f b a = b) : l.foldl f b = b := by
  induction l with
  | nil => rfl
  | cons a l ih => rw [List.foldl_cons, h a (List.mem_cons_self ..), ih fun x hx => h x (List.mem_cons_of_mem _ hx)]

/-- Settles O23: each row in the state of its run. -/
theorem shelverRunsComplete : Obligations.ShelverRunsComplete := by
  refine ⟨?_, ?_, ?_, ?_, ?_, ?_, ?_, ?_, ?_⟩
  · intro sh s q r hactive hq hrun hchunks hreset hhit
    have hnone : q ≠ 15 := by omega
    dsimp only [exec]
    simp [execShelverChunkDone, hactive, hnone, hq, hrun, hchunks, hreset, hhit]
  · intro sh s q r hactive hq hrun hchunks hreset hhit
    have hnone : q ≠ 15 := by omega
    dsimp only [exec]
    simp [execShelverChunkDone, hactive, hnone, hrun, hchunks, hreset, hhit]
  · intro sh s q r hended hrun hpub
    dsimp only [exec]
    simp [execShelverComplete, hended, Tbl.getD, hrun, publish_of_pubOp_zero hpub]
  · intro sh s hactive
    dsimp only [exec]
    simp [execShWatchdogExpire, hactive]
  · exact fun _ _ => rfl
  · exact fun sh s => ⟨_, rfl, by simp, by simp, by simp, rfl⟩
  · exact fun sh s => ⟨_, rfl, by simp, by simp, rfl⟩
  · intro block s d hd hlines
    dsimp only [exec]
    simp only [execCompressedWriteback, hd]
    rw [foldl_eq_self fun i hi => by rw [hlines i (List.mem_range.1 hi)]]
  · intro block s d x hd hx hcmp
    have hfirst : List.range 32 = 0 :: List.range' 1 31 := rfl
    dsimp only [exec]
    simp only [execCompressedWriteback, hd, hfirst, List.foldl_cons, Nat.add_zero, hx, beq_false_of_ne hcmp]
    rfl

end Sys2Proof.Machine
end

section
/-! PROOFS. A tile's messages (14_scheduling.md) and the Card Network's (03_bays.md, 05_vector_scalar.md). -/

namespace Sys2Proof.Machine

@[simp] theorem modTile_done {s : State} {id : Nat} {f : Tile → Tile} : (modTile s id f).work.done = s.work.done := rfl

/-- Settles O13: each message by what the Bay's inbox holds. -/
theorem tileMessagesComplete : Obligations.TileMessagesComplete := by
  refine ⟨?_, ?_, ?_, ?_, ?_, ?_⟩ <;> dsimp only [exec]
  · intro bay s id rest t hid hinbox hopen htile hfree henter
    simp [execTileRun, hinbox, hopen, htile, hfree, hid.symm, henter]
  · intro bay s hinbox
    simp [execTileRun, hinbox]
  · intro bay s id t hinbox hfind hbay hkilled hpre hstatus hdone hstep
    have hmsg : inboxTile (s.bay bay) 1 = some id := by simp [inboxTile, hinbox]
    simp [execTilePreempt, hmsg, hfind, hbay, hkilled, hpre, hstatus, hdone, Nat.not_le.mpr hstep, State.modBay, hinbox]
  · intro bay s id t c hmsg hcmd hbay hgang
    have hcmd' : tileCmd (s.modBay bay fun x => dropMsg x 2 id) id = some (t, c) := hcmd
    simp [execTileKill, hmsg, hcmd', hbay, hgang]
  · intro bay s id t c hmsg hcmd hbay hgang
    have hcmd' : tileCmd (s.modBay bay fun x => dropMsg x 2 id) id = some (t, c) := hcmd
    simp [execTileKill, hmsg, hcmd', hbay, hgang]
  · intro s d rest t hdone hfind
    have hfind' : Tbl.find (s.modWork fun w => { w with done := rest }).work.tiles d.tile = some t := hfind
    refine ⟨_, ?_, hfind', rfl⟩
    simp only [execTileDone, hdone, hfind']
    rfl

/-! What the networks' own state leaves of the Bays and their sites. -/

@[simp] theorem bayAt_modNets {s : State} {f : Nets → Nets} {r : Nat} : bayAt (s.modNets f) r = bayAt s r := rfl
@[simp] theorem epFenced_modNets {s : State} {f : Nets → Nets} {r e : Nat} : epFenced (s.modNets f) r e = epFenced s r e := rfl
@[simp] theorem kernelAt_modNets {s : State} {f : Nets → Nets} {e : CardEnd} : kernelAt (s.modNets f) e = kernelAt s e := rfl
@[simp] theorem core_modNets {s : State} {f : Nets → Nets} {b c : Nat} : (s.modNets f).core b c = s.core b c := rfl
@[simp] theorem bayAt_cardSend {s : State} {m : Card} {r : Nat} : bayAt (cardSend s m) r = bayAt s r := rfl

/-- A message from no kernel core to an endpoint that it may reach arrives there, kept by its type (03 R84 to R86). -/
theorem arrived_cardArrive {s : State} {type : Nat} {src dst : CardEnd} {arg : Word} (hkernel : kernelAt s src = none) (hep : dst.ep ≠ 0)
    (hcross : crosses s src dst = false) (hfenced : epFenced s dst.router.toNat dst.ep.toNat = false) :
    (cardArrive s type src dst arg true).nets.arrived = Tbl.put s.nets.arrived (cardKey dst.router.toNat dst.ep.toNat * 16 + type)
      { srcRouter := src.router.toNat, srcEp := src.ep.toNat, dstRouter := dst.router.toNat, dstEp := dst.ep.toNat, type := type, arg := arg } := by
  have hep' : dst.ep.toNat ≠ 0 := fun h => hep (BitVec.eq_of_toNat_eq h)
  simp [cardArrive, hkernel, hep', hcross, hfenced]

/-- Settles O14: each message by its own row's conditions. -/
theorem cardMessagesComplete : Obligations.CardMessagesComplete := by
  refine ⟨?_, ?_, ?_, fun _ _ _ _ => rfl, fun _ _ _ _ => rfl, ?_, ?_, fun s type src dst arg => arrived_cardArrive, fun _ _ => rfl, ?_, ?_⟩ <;>
    dsimp only [exec]
  · intro s index m hheld hcredit hearlier hfenced hsrc
    simp [execCardInject, hheld, Nat.not_le.mpr hcredit, hearlier, hfenced, hsrc]
  · intro sh queue index s hqueue hon hsize hwr
    simp [execDoorbell, Nat.not_lt.mpr hqueue, hon, Nat.not_lt.mpr hsize, Nat.not_lt.mpr hwr]
  · intro sh queue index s hoff
    simp [execDoorbell, hoff]
  · intro src dst arg s hep hbay
    simp [execPowerCmd, hep, hbay]
  · intro src dst arg s hsrc hep hdst
    simp [execRouterCtrl, hsrc, hep, hdst]
  · intro s r rest hreports hbay
    simp [execFaultReport, hreports, hbay]
  · intro s dst m b c hqueue hkernel hfenced hrun
    simp [execUser, hqueue, hkernel, hfenced, hrun]

end Sys2Proof.Machine
end

section
/-! PROOFS. The cores' own instructions: messages, time, ownership, blocks, anchored accumulators and functions (05_vector_scalar.md). -/

namespace Sys2Proof.Machine

/-- A scalar instruction that ends retires (05 R125). -/
theorem ownStep_scalar_ok {s t u : State} {b : BayNo} {c : CoreNo} {w npc : Nat} {f : State → Nat → CoreGot Nat} (h : CoreReady s b c 4 t)
    (hc : c.val ≠ 4) (hf : f t (pc4 t b c) = .ok u npc) : ownStep s b c false w f = retire u b c npc := by
  rw [ownStep_scalar h hc, hf, retire]

theorem ownStep_scalar_wait {s t u : State} {b : BayNo} {c : CoreNo} {w : Nat} {f : State → Nat → CoreGot Nat} (h : CoreReady s b c 4 t)
    (hc : c.val ≠ 4) (hf : f t (pc4 t b c) = .wait u) : ownStep s b c false w f = u := by
  rw [ownStep_scalar h hc, hf, coreEnd]

/-- A vector instruction that ends retires (05 R125). -/
theorem ownStep_vector_ok {s t u : State} {b : BayNo} {c : CoreNo} {w npc : Nat} {f : State → Nat → CoreGot Nat} (h : CoreReady s b c 4 t)
    (hc : c.val < 4) (hf : f t (pc4 t b c) = .ok u npc) : ownStep s b c true w f = retire u b c npc := by
  rw [ownStep_vector h hc, hf, retire]

theorem cnSend_of_credit {t : State} {b c rd rs1 rs2 npc : Nat} {try_ : Bool} {m : Card}
    (hcard : cardOf t b c ((t.core b c).xGet rs1) ((t.core b c).xGet rs2 % 2 ^ 32) = some m) (hfenced : epFenced t m.dstRouter m.dstEp = false)
    (hcredit : creditsHeld t m.dstRouter m.dstEp < 16) (hheld : t.nets.held = []) :
    cnSend t b c rd rs1 rs2 try_ npc = .ok ((cardSend t m).modCore b c (fun k => k.xSet rd t.now)) npc := by
  simp only [cnSend, hcard]
  simp [hfenced, hcredit, hheld, coreRd]

theorem cnTrysend_of_no_credit {t : State} {b c rd rs1 rs2 npc : Nat} {m : Card}
    (hcard : cardOf t b c ((t.core b c).xGet rs1) ((t.core b c).xGet rs2 % 2 ^ 32) = some m) (hfenced : epFenced t m.dstRouter m.dstEp = false)
    (hcredit : 16 ≤ creditsHeld t m.dstRouter m.dstEp) :
    cnSend t b c rd rs1 rs2 true npc = .ok (t.modCore b c (fun k => k.xSet rd (2 ^ 64 - 1))) npc := by
  simp only [cnSend, hcard]
  simp [hfenced, Nat.not_lt.mpr hcredit, coreRd]

/-- Settles O15: an instruction that ends retires, one that waits leaves what it waits for. -/
theorem coreMessagesAndTimeComplete : Obligations.CoreMessagesAndTimeComplete := by
  refine ⟨?_, ?_, ?_, ?_, ?_, ?_, ?_, ?_, ?_, ?_⟩ <;> dsimp only [exec]
  · intro bay core rd rs1 rs2 s t m h hc hcard hfenced hcredit hheld
    rw [execCnSend, ownStep_scalar_ok h hc (cnSend_of_credit hcard hfenced hcredit hheld)]
  · intro bay core rd rs1 rs2 s t m h hc hcard hfenced hcredit
    rw [execCnTrysend, ownStep_scalar_ok h hc (cnTrysend_of_no_credit hcard hfenced hcredit), retireRd]
  · intro bay core rd rs1 rs2 s t m h hc hcard hfenced hcredit hheld
    rw [execCnTrysend, ownStep_scalar_ok h hc (cnSend_of_credit hcard hfenced hcredit hheld)]
  · intro bay core rd rs1 s t m rest h hc hrecv hdeadline
    have hgot : cnRecv t bay core rd rs1 (pc4 t bay core) = .ok (t.setCore bay core (takeMsg (t.core bay core) rd m)) (pc4 t bay core) := by
      simp [cnRecv, hrecv, hdeadline]
    rw [execCnRecv, ownStep_scalar_ok h hc hgot]
  · intro bay core s d rd hwait
    simp [execCnRecvDeadline, hwait]
  · intro bay core rd s t h hc
    exact congrArg Host.Outcome.next (ownStep_scalar_ok h hc rfl)
  · intro bay core rd rs1 s t h hc hpast
    rw [execDsWait, ownStep_scalar_ok h hc (by simp only [dsWait, ge_iff_le, hpast, if_true]; rfl), retireRd]
  · intro bay core rd rs1 s t h hc hfuture
    rw [execDsWait, ownStep_scalar_wait h hc (by simp only [dsWait, ge_iff_le, Nat.not_le.mpr hfuture, if_false]; rfl)]
  · intro bay core s d rd hwait
    simp [execDsWaitReturn, hwait]
  · intro bay core rs1 s t h hc harg
    rw [execTileYield, ownStep_scalar_ok h hc (by simp only [tileYield, harg]; rfl)]

/-- A mask of one bank names that bank. -/
theorem banks_of_two_pow {i : Nat} (h : i < 16) : (List.range 16).filter (fun j => bitsAt (2 ^ i % 2 ^ 16) j 1 == 1) = [i] := by
  revert i
  decide

/-- BAY.GIVE of a bank that the core owns to kernel control (05 R138). -/
theorem bayGive_of_owned {t : State} {b c rd rs1 rs2 npc i : Nat} (hc : c ≠ 5) (hi : i < 16) (hmask : (t.core b c).xGet rs1 = 2 ^ i)
    (hcode : (t.core b c).xGet rs2 = 5) (howner : bankOwner (t.bay b) i = portOfCore c) :
    bayGive t b c rd rs1 rs2 npc = .ok ((t.modBay b (fun x => setBankOwner x i 5)).modCore b c (fun k => k.xSet rd (2 ^ i))) npc := by
  simp only [bayGive, hmask, hcode, banks_of_two_pow hi]
  simp [howner, hc, coreRd]

/-- The word of `addi x10, x0, 5`. -/
theorem anyWord_addi {t : State} {b : BayNo} {c : Nat} :
    anyWord t b c 0x00500513 = .ok (t.modCore b c (fun k => k.xSet 10 5)) (((t.core b c).pc.toNat + 4) % 2 ^ 64) := by
  have halu : aluImm 0 5 0 = some 5 := by decide
  simp [anyWord, word32, rvScalar, bitsAt, Core.xGet, halu]

section
variable {t : State} {b : BayNo} {c v rs1 rs2 row reg npc : Nat} (hrow : row < 5) (hv : v % 2 ^ reg = 0) (hbase : (t.core b c).xGet rs1 % 32 = 0)
  (hpitch : (t.core b c).xGet rs2 % 32 = 0) (hpending : (t.bay b).pending = 0)
  (hblock : blockBad (t.bay b) c ((List.range (2 ^ reg * 512 / (32 * 2 ^ row))).map
    (fun r => ((t.core b c).xGet rs1 + r * (t.core b c).xGet rs2) % 2 ^ 64)) (32 * 2 ^ row) = none)
include hrow hv hbase hpitch hpending hblock

/-- No bank is in handover, so a block transfer with its rows in place goes on (05 R137). -/
theorem vBlock_load : vBlock t b c true v rs1 rs2 row reg npc = .ok (t.setCore b c
    (((chunks 512 (((List.range (2 ^ reg * 512 / (32 * 2 ^ row))).map
      (fun r => ((t.core b c).xGet rs1 + r * (t.core b c).xGet rs2) % 2 ^ 64)).flatMap (fun a => (t.bay b).read (a - localBase) (32 * 2 ^ row)))).zipIdx).foldl
      (fun (k : Core) q => k.vPutReg (v + q.2) (natLE q.1)) (t.core b c))) npc := by
  simp only [vBlock, hblock]
  simp [Nat.not_le.mpr hrow, hv, hbase, hpitch, hpending, bitsAt]

theorem vBlock_store : vBlock t b c false v rs1 rs2 row reg npc = .ok (t.modBay b (fun x =>
    ((((List.range (2 ^ reg * 512 / (32 * 2 ^ row))).map (fun r => ((t.core b c).xGet rs1 + r * (t.core b c).xGet rs2) % 2 ^ 64)).zip
      (chunks (32 * 2 ^ row) ((List.range (2 ^ reg)).flatMap (fun i => bytesLE 512 ((t.core b c).vReg (v + i)))))).foldl
      (fun (x : Bay) q => x.write (q.1 - localBase) q.2) x))) npc := by
  simp only [vBlock, hblock]
  simp [Nat.not_le.mpr hrow, hv, hbase, hpitch, hpending, bitsAt]

end

/-- Settles O16: each instruction retires with what its own law gives. -/
theorem coreOwnershipAndBlocksComplete : Obligations.CoreOwnershipAndBlocksComplete := by
  refine ⟨?_, ?_, ?_, ?_, ?_, ?_, ?_⟩ <;> dsimp only [exec]
  · intro bay core rd s t h hc
    exact congrArg Host.Outcome.next (ownStep_scalar_ok h hc rfl)
  · intro bay core rd rs1 rs2 s t i h hc hi hmask hcode howner
    rw [execBayGive, ownStep_scalar_ok h (by omega) (bayGive_of_owned (by omega) hi hmask hcode howner)]
  · intro bay core rd rs1 rs2 s t h hc hcode
    rw [execBayGive, ownStep_scalar_ok h hc (by simp only [bayGive, hcode]; rfl), retireRd]
  · intro bay core word s t u npc h hword
    simp only [execRiscvInstruction, beq_iff_eq]
    rw [coreStep_ready h, hword, retire]
  · intro bay core s t h
    change Host.Outcome.next (coreStep s bay core 4 fun s => anyWord s bay core 0x00500513) = _
    rw [coreStep_ready h, anyWord_addi]
    rfl
  · intro bay core vd rs1 rs2 row reg s t h hc hrow hv hbase hpitch hpending hblock
    rw [execVbl2d, ownStep_vector_ok h hc (vBlock_load hrow hv hbase hpitch hpending hblock)]
  · intro bay core vs3 rs1 rs2 row reg s t h hc hrow hv hbase hpitch hpending hblock
    rw [execVbs2d, ownStep_vector_ok h hc (vBlock_store hrow hv hbase hpitch hpending hblock)]

/-- An instruction on the accumulators whose format matches SEW, on at most 64 elements where it is elementwise, acts (05 R133). -/
theorem anchorOp_ok {t : State} {b c w npc : Nat} {elementwise : Bool} {groups : List Nat} {f : Core → Fmt → Core} {fm : Fmt}
    (hfm : anchorFmt (t.core b c) = some fm) (hvl : elementwise = false ∨ (t.core b c).vl ≤ 64)
    (hgroups : ∀ r ∈ groups, vAligned r (t.core b c).vlg = true) :
    anchorOp t b c w npc elementwise groups f = .ok (t.setCore b c { f (t.core b c) fm with vstart := 0 }) npc := by
  have hfits : (elementwise && decide ((t.core b c).vl > 64)) = false := by
    rcases hvl with h | h <;> simp [h]
  have hall : groups.all (fun r => vAligned r (t.core b c).vlg) = true := List.all_eq_true.2 hgroups
  simp only [anchorOp, hfm, hfits, hall]
  rfl

theorem useFree_anchorOp_ok {t : State} {b c w npc n : Nat} {elementwise : Bool} {groups : List Nat} {f : Core → Fmt → Core} {fm : Fmt}
    (hfm : anchorFmt (t.core b c) = some fm) (hvl : elementwise = false ∨ (t.core b c).vl ≤ 64)
    (hgroups : ∀ r ∈ groups, vAligned r (t.core b c).vlg = true) :
    useFree (anchorOp t b c w npc elementwise groups f) n =
      .ok { t.setCore b c { f (t.core b c) fm with vstart := 0 } with free := t.free + n } npc := by
  rw [anchorOp_ok hfm hvl hgroups]
  rfl

/-- Settles O17: each instruction through the law of those on the accumulators, or of a transfer of records. -/
theorem anchoredVectorsComplete : Obligations.AnchoredVectorsComplete := by
  refine ⟨?_, ?_, ?_, ?_, ?_, ?_, ?_, ?_, ?_, ?_, ?_⟩ <;> dsimp only [exec]
  · intro bay core rs1 vm s t fm h hc hfm hvl
    rw [execVaSeta, ownStep_vector_ok h hc (anchorOp_ok hfm (.inr hvl) (by simp))]
  · intro bay core vs2 vm s t fm h hc hfm hvl hvs2
    rw [execVaAddV, ownStep_vector_ok h hc (anchorOp_ok hfm (.inr hvl) (by simpa using hvs2))]
  · intro bay core vs2 vs1 vm s t fm h hc hfm hvl hvs2 hvs1
    rw [execVaMacVv, ownStep_vector_ok h hc (anchorOp_ok hfm (.inr hvl) (by simpa using ⟨hvs2, hvs1⟩))]
  · intro bay core vs2 vm s t fm h hc hfm hvs2
    rw [execVaRedV, ownStep_vector_ok h hc (anchorOp_ok hfm (.inl rfl) (by simpa using hvs2))]
  · intro bay core vs2 vs1 vm s t fm h hc hfm hvs2 hvs1
    rw [execVaRedmacVv, ownStep_vector_ok h hc (anchorOp_ok hfm (.inl rfl) (by simpa using ⟨hvs2, hvs1⟩))]
  · intro bay core vd s t fm h hc hfm hvl hvd
    rw [execVaRdV, ownStep_vector_ok h hc (useFree_anchorOp_ok hfm (.inr hvl) (by simpa using hvd))]
  · intro bay core vd rs1 s t fm h hc hfm
    rw [execVaRdx, ownStep_vector_ok h hc (useFree_anchorOp_ok hfm (.inl rfl) (by simp))]
  · intro bay core rs1 s t u fm h hc hfm hva hsave
    rw [execVaSave, ownStep_vector_ok h hc (by simp only [vaSave, hfm, hva, hsave]; rfl)]
    rfl
  · intro bay core rs1 s t u fm h hc hfm hva hload
    rw [execVaLoad, ownStep_vector_ok h hc (by simp only [vaLoad, hfm, hva, hload]; rfl)]
    rfl
  · intro bay core rs1 s t u bs fm h hc hfm hva hload hanchor
    rw [execVaAddrec, ownStep_vector_ok h hc (by simp only [vaAddrec, hfm, hva, hload, hanchor, bne_self_eq_false]; rfl)]
  · intro bay core vd vs2 vs1 vm s t fm h hc hfm hvs2
    rw [execVfexpmaxVs, ownStep_vector_ok h hc (useFree_anchorOp_ok hfm (.inl rfl) (by simpa using hvs2))]

/-- A function instruction on a core that is ready for it writes its function of the group (05 R136). -/
theorem fnStep_ready {s t : State} {b : BayNo} {c : CoreNo} {code : Nat} {vd vs2 : RegNo} {bf16 : Bool} (h : FnReady s b c vd vs2 bf16 t) :
    fnStep s b c code vd vs2 true bf16 = .next (fnDid t b c code vd vs2 bf16) := by
  obtain ⟨hready, hc, hfmt, hmode, hvd, hvs2⟩ := h
  obtain ⟨f, hf⟩ := Option.isSome_iff_exists.1 hfmt
  obtain ⟨m, hm⟩ := Option.isSome_iff_exists.1 hmode
  rw [fnStep, ownStep_vector_ok hready hc (by simp only [fnOp, hf, hm, hvd, hvs2]; rfl)]
  simp [fnDid, hf, hm]

/-- Settles O18: every function by the one law of a core that is ready for it. -/
theorem vectorFunctionsComplete : Obligations.VectorFunctionsComplete := by
  refine ⟨?_, ?_, ?_, ?_, ?_, ?_, ?_, ?_⟩ <;> exact fun _ _ _ _ _ _ _ h => fnStep_ready h

end Sys2Proof.Machine
end

section
/-! PROOFS. Coherent requests, snoops, answers, grants and deadlines (08_coherence.md, 16_otfold_link.md). -/

namespace Sys2Proof.Machine

/-- A request that passes its check reaches the line's home (08 R226, R227). -/
theorem presentRequest_ok {s : State} {a pa l p : Nat} {req : HomeReq} (h : coherentCheck s a pa = .ok (l, p)) :
    presentRequest s a pa req = homeRequest s l p a (if isL1 a then attrOfAddr s p (128 * l) else 0) req false := by
  simp [presentRequest, h]

/-- Settles O24: each request by its check and the kind of its agent. -/
theorem coherentRequestsComplete : Obligations.CoherentRequestsComplete := by
  refine ⟨?_, ?_, ?_, ?_, ?_, ?_, ?_⟩ <;> dsimp only [exec]
  · intro agent line s l p hcheck hl1
    simp [execRdShared, presentRequest_ok hcheck, hl1]
  · intro agent line s l p hcheck hl1
    simp [execRdOwn, presentRequest_ok hcheck, hl1]
  · intro agent line s l p hcheck hl1
    simp [execUpgrade, presentRequest_ok hcheck, hl1]
  · intro agent line poison data s l p x hcheck hl1 hfind hst
    simp [execWriteback, hcheck, hl1, hfind, hst]
  · intro agent line data s l p hcheck hl1
    simp [execWriteback, hcheck, hl1]
  · intro agent line s l p hcheck hl1
    simp [execCleanEvict, hcheck, hl1]
  · intro agent tag addr op operand compare s l p haligned hcheck hl1
    simp [execFarAmo, haligned, hcheck, hl1]

section
variable {s : State} {a line kind : Nat} {x : Snoop} (hsnoops : s.mem.snoops = [x]) (hagent : x.agent = a) (hline : x.line = line)
  (hkind : x.kind = kind) (hdeferred : x.deferred = false) (hlive : agentLive s a = true)
include hsnoops hagent hline hkind hdeferred hlive

/-- A snoop that a core's L1D takes at once is answered (08 R226). -/
theorem snoopArrives_answered (hl1 : isL1 a = true) (hhold : holdEnd s a line kind ≤ s.now) :
    snoopArrives s a line kind = (l1Answer (s.modMem (fun m => { m with snoops := [] })) a line kind).1.modMem (fun m =>
      { m with answers := m.answers ++ [(l1Answer (s.modMem (fun m => { m with snoops := [] })) a line kind).2] }) := by
  have hlive' : agentLive (s.modMem fun m => { m with snoops := [] }) a = true := hlive
  have hhold' : holdEnd (s.modMem fun m => { m with snoops := [] }) a line kind ≤ s.now := hhold
  have herase : (s.modMem fun m => { m with snoops := m.snoops.erase x }) = s.modMem fun m => { m with snoops := [] } := by
    simp [State.modMem, hsnoops]
  simp [snoopArrives, hsnoops, hagent, hline, hkind, hdeferred, herase, hlive', Nat.not_lt.mpr hhold', hl1]

/-- A snoop within the hold is deferred (08 R231). -/
theorem snoopArrives_deferred (hhold : s.now < holdEnd s a line kind) :
    snoopArrives s a line kind = s.modMem (fun m => { m with snoops := [{ x with deferred := true }] }) := by
  have hlive' : agentLive (s.modMem fun m => { m with snoops := [] }) a = true := hlive
  have hhold' : s.now < holdEnd (s.modMem fun m => { m with snoops := [] }) a line kind := hhold
  have herase : (s.modMem fun m => { m with snoops := m.snoops.erase x }) = s.modMem fun m => { m with snoops := [] } := by
    simp [State.modMem, hsnoops]
  simp [snoopArrives, hsnoops, hagent, hline, hkind, hdeferred, herase, hlive', hhold']
  rfl

end

/-- Settles O25: each message finds the one snoop, answer, grant or transaction that its row speaks of. -/
theorem snoopsAndGrantsComplete : Obligations.SnoopsAndGrantsComplete := by
  refine ⟨?_, ?_, ?_, ?_, ?_, ?_, ?_, ?_, ?_, fun _ _ _ => rfl⟩ <;> dsimp only [exec]
  · intro agent line s x hl1 hlive hhold hsnoops hagent hline hkind hdeferred
    exact congrArg _ (snoopArrives_answered hsnoops hagent hline hkind hdeferred hlive hl1 hhold)
  · intro agent line s x hlive hhold hsnoops hagent hline hkind hdeferred
    exact congrArg _ (snoopArrives_deferred hsnoops hagent hline hkind hdeferred hlive hhold)
  · intro agent line s x hl1 hlive hhold hsnoops hagent hline hkind hdeferred
    exact congrArg _ (snoopArrives_answered hsnoops hagent hline hkind hdeferred hlive hl1 hhold)
  · intro agent line s x hl1 hlive hhold hsnoops hagent hline hkind hdeferred
    exact congrArg _ (snoopArrives_answered hsnoops hagent hline hkind hdeferred hlive hl1 hhold)
  · intro agent line state poison data s x hl1 hanswers hagent hline
    simp [execSnpRsp, hl1, hanswers, hagent, hline, State.modMem]
  · intro agent line data s hl1
    simp [execSnpRsp, hl1]
  · intro agent line s g hl1 hgrants hagent hline
    simp [execGrant, hl1, hgrants, hagent, hline, State.modMem]
  · intro agent line s x hsnoops hagent hline hdeferred
    simp [execSnoopHoldExpire, hsnoops, hagent, hline, hdeferred]
  · intro line s t a htxn hawait howner hl1
    simp [execSnoopDeadline, htxn, hawait, howner, hl1]

end Sys2Proof.Machine
end

section
/-! PROOFS. Links, flits, end-to-end requests and collectives (11_fabric.md, 16_otfold_link.md). -/

namespace Sys2Proof.Machine

/-- Settles O28: each step by the state of its link. -/
theorem linkStatesComplete : Obligations.LinkStatesComplete := by
  refine ⟨?_, ?_, ?_, ?_, ?_, ?_, ?_, ?_, ?_, ?_, ?_⟩ <;> dsimp only [exec, linkIn]
  · intro port s h
    simp [execTrainDone, h]
  · intro port bad s h hport hbad
    simp [execTrainDone, h, hport, hbad]
  · intro port s h
    simp [execAlignDone, h]
  · intro port peer s q m h hport hbond hverified
    simp [execHandshakeDone, h, hport, hbond, hverified]
  · intro port peer s h hport hbond hverified hsize hmembers
    obtain ⟨y, hone, hy⟩ := List.map_eq_singleton_iff.1 hmembers
    simp [execHandshakeDone, h, hport, hbond, hverified, hsize, hone, hy]
  · intro port s h
    simp [execLinkStepLimit, h]
  · intro port s h
    simp [execHeldTimeout, h]
  · intro port s h
    simp [execFrameAuthFail, h]
  · intro port s h
    simp [execFlitSilence, h]
  · intro port s h
    simp [execFecLockLoss, h]
  · intro port s h
    simp [execKeyRollover, h]

/-- A flit with a wrong CRC is counted against its link (11 R305, R306). -/
theorem takeFlit_of_bad_crc {s : State} {n ftype : Nat} {f : BitVec 2048} (hup : linkIn s n 4) (htype : flitType f = ftype)
    (hcrc : flitCrcOk f = false) : takeFlit s n ftype f = (flitError s n false, none) := by
  unfold linkIn at hup
  simp [takeFlit, hup, htype, hcrc]

/-- A flit in sequence that does not end its frame is taken into it (11 R306, R308). -/
theorem takeFlit_of_in_sequence {s : State} {n ftype : Nat} {f : BitVec 2048} {l : Link} (hup : linkIn s n 4) (htype : flitType f = ftype)
    (hcrc : flitCrcOk f = true) (hlink : linkOf (applyAck (modLink s n (fun l => { l with lastFlit := s.now })) n f) n = l) (hstate : l.state = 4)
    (hseq : flitSeq f = l.rxSeq) (hlast : flitLast f = false) :
    takeFlit s n ftype f = (setLink (applyAck (modLink s n (fun l => { l with lastFlit := s.now })) n f) n
      { l with rxSeq := (l.rxSeq + 1) % 4096, nackSent := false, replayFails := 0, frame := l.frame ++ [f] }, none) := by
  unfold linkIn at hup
  simp [takeFlit, hup, htype, hcrc, hlink, hstate, hseq, hlast]

/-- Settles O29: a flit by its CRC and its place in the sequence. -/
theorem flitsComplete : Obligations.FlitsComplete := by
  refine ⟨?_, ?_, ?_, ?_, ?_, ?_, ?_, ?_⟩ <;> dsimp only [exec]
  · intro port flit s hup htype hcrc
    rw [execDataFlit, takeFlit_of_bad_crc hup htype hcrc]
  · intro port flit s l hup htype hcrc hlink hstate hseq hlast
    rw [execDataFlit, takeFlit_of_in_sequence hup htype hcrc hlink hstate hseq hlast]
  · intro port flit s l hup htype hcrc hlink hstate hseq hlast
    rw [execCtrlFlit, takeFlit_of_in_sequence hup htype hcrc hlink hstate hseq hlast]
  · intro port flit s hup htype hcrc
    unfold linkIn at hup
    simp [execIdleFlit, hup, htype, hcrc]
  · intro port flit s u bs htake hport
    simp [execTimeFlit, htake, Nat.not_le.mpr hport]
  · intro port flit s u bs htake hport
    simp [execTimeFlit, htake, hport]
  · intro port s hup hsent
    simp [execTimeFlitSend, hup, hsent]
  · intro port fec s hup
    unfold linkIn at hup
    simp [execFlitCrcError, hup]

/-- A request that is ready and whose window serves it is answered with what the window gives (11 R322). -/
theorem inboundRequest_ok {s u t : State} {k : ReqKind} {port : FabricPort} {p : Packet} {m : VolMap} {st : Nat} {data : List Byte}
    (h : ReqReady s k port p u m) (hwindow : windowRequest u k port m p = .ok t (st, data)) :
    inboundRequest s k port p = respond t p (k.ptype + 1) st data := by
  obtain ⟨hup, hdst, htype, hok, htime, hvol, hepoch⟩ := h
  simp [inboundRequest, hup, hdst, htype, hok, Nat.not_lt.mpr htime, hvol, hepoch, hwindow]

/-- A response that matches an outstanding request whose Bay is not closing ends it, in time or late (11 R323). -/
theorem response_ready {s : State} {ptype : Nat} {port : FabricPort} {p : Packet} {r : FabReq} (h : RespReady s ptype port p r)
    (hbay : closingBay (tagDone s p r) r.who = none) :
    response s ptype port p = trySendDrain (if s.now ≤ r.deadline
      then endRequest (tagDone s p r) (Pk.tag p.hdr) r (Pk.status p.hdr) false (if Pk.status p.hdr == 0 then p.payload else [])
      else endRequest (tagDone s p r) (Pk.tag p.hdr) r Status.timeout.code true []) (Pk.volume r.pkt.hdr) := by
  obtain ⟨hup, hdst, htype, htag, hkind, hdeadline, hsrc⟩ := h
  unfold tagDone at hbay
  simp [response, tagDone, hup, hdst, htype, htag, hkind, hdeadline, hsrc, hbay]

/-- Settles O30: a request that is ready is performed, and a response finds the request that waits for it. -/
theorem fabricRequestsComplete : Obligations.FabricRequestsComplete := by
  refine ⟨?_, ?_, ?_, ?_, ?_, ?_, ?_, ?_, ?_, ?_⟩ <;> dsimp only [exec]
  · exact fun port pkt s u m t st data h hwindow => congrArg _ (inboundRequest_ok h hwindow)
  · exact fun port pkt s u m t st data h hwindow => congrArg _ (inboundRequest_ok h hwindow)
  · exact fun port pkt s u m t st data h hwindow => congrArg _ (inboundRequest_ok h hwindow)
  · intro port pkt s hup hdst
    simp [execRd, inboundRequest, hup, hdst]
  · intro port pkt s r h hbay htime hstatus
    simp [execRdResp, response_ready h hbay, htime, hstatus]
  · intro port pkt s r h hbay htime hstatus
    simp [execWrAck, response_ready h hbay, htime, hstatus]
  · intro port pkt s r h hbay hlate
    simp [execAtomicResp, response_ready h hbay, Nat.not_le.mpr hlate]
  · intro tag s r htag
    simp [execFabricDeadline, htag]
  · intro s r rest hstalled hlate
    simp [execTagFree, hstalled, hlate]
  · intro s r rest hstalled htime hfree
    simp [execTagFree, hstalled, Nat.not_lt.mpr htime, hfree]

/-- A collective's step runs on the engine that holds it, where it is of the row's operation (11 R327). -/
theorem collOp_of_find {s : State} {g id op : Nat} {c : Coll} (hfind : findColl s g id = some c) (hop : Ce.op c.desc = op) :
    collOp s g id op = collRun s g id true collStages := by
  simp [collOp, hfind, hop]

/-- A control packet of a collective that its engine holds reaches it (11 R329). -/
theorem collControl_of_find {s : State} {g step : Nat} {p : Packet} {c : Coll} (hdst : Pk.dst p.hdr = s.fab.deviceId) (hok : collOk p = true)
    (hstep : Ce.pStep p = step) (hfind : findColl s g (Ce.key (Pk.volume p.hdr) (Ce.pId p)) = some c) :
    collControl s g step p = collPacket s g (Ce.key (Pk.volume p.hdr) (Ce.pId p)) c p := by
  simp [collControl, collArrive, hdst, hok, hstep, hfind]

/-- Settles O31: each packet by its step, its part and its engine. -/
theorem collectivesComplete : Obligations.CollectivesComplete := by
  refine ⟨?_, ?_, ?_, ?_, ?_, ?_, ?_, ?_, ?_, ?_, ?_, ?_, ?_, ?_⟩ <;> dsimp only [exec]
  · intro port pkt s hreg hlo hhi hlen
    simp [execConc, hreg, Nat.ne_of_gt hlo, Nat.not_lt.mpr hhi, Nat.not_lt.mpr hlen]
  · intro port pkt s hreg hlo hhi hlen
    simp [execMgmt, hreg, hlo, hhi, Nat.not_lt.mpr hlen]
  · intro port pkt s g hup hdst htype hok hengine
    simp only [execColl, hup, hdst, htype, hok, hengine]
    simp
  · exact fun g id s c hfind hop => congrArg _ (collOp_of_find hfind hop)
  · exact fun g id s c hfind hop => congrArg _ (collOp_of_find hfind hop)
  · exact fun g id s c hfind hop => congrArg _ (collOp_of_find hfind hop)
  · exact fun g id s c hfind hop => congrArg _ (collOp_of_find hfind hop)
  · exact fun g id s c hfind hop => congrArg _ (collOp_of_find hfind hop)
  · exact fun g id s c hfind hop => congrArg _ (collOp_of_find hfind hop)
  · exact fun g id s c hfind hop => congrArg _ (collOp_of_find hfind hop)
  · intro g id s c hfind
    simp [execCollStartAt, hfind]
  · exact fun g pkt s c hdst hok hstep hfind => congrArg _ (collControl_of_find hdst hok hstep hfind)
  · exact fun g pkt s c hdst hok hstep hfind => congrArg _ (collControl_of_find hdst hok hstep hfind)
  · intro g id s c hfind
    simp [execCollDeadline, hfind]

end Sys2Proof.Machine
end

section
/-! PROOFS. The Catalogue's rows, and Concordance's messages and instants (09_translation.md, 10_volumes.md). -/

namespace Sys2Proof.Machine

/-- Settles O26: each message is taken from the inbox, and finds its round. -/
theorem catalogueAndVotesComplete : Obligations.CatalogueAndVotesComplete := by
  refine ⟨?_, ?_, ?_, ?_, ?_, ?_, ?_, ?_⟩ <;> dsimp only [exec]
  · intro req key va acc s e t hreq hlookup
    simp [execCatalogueLookup, lookupAll, hlookup, hreq]
  · intro record s hiso
    simp [execTableWalk, hiso]
  · intro record s m hiso hfind hheld hroot
    simp [execTableWalk, hiso, hfind, hheld, hroot]
  · exact fun _ _ _ => rfl
  · intro s t p u r htake hround hepoch
    simp [execMapChunk, htake, hround, hepoch]
  · intro s t p u r htake hround hepoch hprepare
    simp [execPrepare, htake, hround, hepoch, hprepare]
  · intro s t p u r n g dl htake hround hepoch hprepare htime
    simp [execVote, htake, hround, hepoch, hprepare, Nat.not_lt.mpr htime]
  · intro s t p u r n g dl htake hround hprepare hlate
    simp [execVote, htake, hround, hprepare, hlate]

/-- Settles O27: each instant and message in the state of its round. -/
theorem concordanceComplete : Obligations.ConcordanceComplete := by
  refine ⟨?_, ?_, ?_, ?_, ?_, ?_, ?_, ?_, ?_⟩ <;> dsimp only [exec]
  · intro s t p u v m r htake hvol hst hnext hepoch hround
    simp [execCommit, htake, hvol, hst, hnext, hepoch, hround]
  · intro s t p u r htake hround hepoch
    simp [execConcAbort, htake, hround, hepoch]
  · intro s t p u v htake hvol
    simp [execDrain, htake, hvol]
  · intro s t p u v htake hvol
    simp [execQuery, htake, hvol]
  · intro s t p u r got htake hround hrecover
    simp [execState, htake, hround, hrecover]
  · intro handle s r n g dl own hround hprepare hown hrecover hcmd
    simp [execPrepareDeadline, hround, hprepare, hown, hrecover, hcmd]
  · intro handle s v hvol hst
    simp [execSwitchAt, hvol, hst]
  · intro handle s v m hvol hprev
    simp [execGraceLimit, hvol, hprev]
  · intro handle s r v hround hvol hrecover hcmd hst hnext hcur
    simp [execRecoverStateWait, hround, hvol, hrecover, hcmd, hst, hnext, hcur, volStateCode]

end Sys2Proof.Machine
end

section
/-! PROOFS. Time, the power epoch and its sensors (12_time_and_power.md). -/

namespace Sys2Proof.Machine

theorem alignDown_le (n k : Nat) : alignDown n k ≤ n := Nat.sub_le n (n % k)

/-- Settles O32: SYNC_OUT's next pulse is never behind Datestamp. -/
theorem timeSourcesComplete : Obligations.TimeSourcesComplete := by
  refine ⟨?_, ?_, ?_, ?_, ?_⟩ <;> dsimp only [exec]
  · intro stamp s harmed
    simp [execSyncIn, harmed]
  · intro stamp s harmed hdone
    simp [execSyncIn, harmed, hdone]
  · intro s t hpulse hsource
    simp [execSyncInLoss, hpulse, hsource]
  · intro s u hstate hout hnow
    have hnext : max s.now (max (u + 1000000000) (alignDown s.now 1000000000)) = u + 1000000000 := by
      have := alignDown_le s.now 1000000000
      omega
    have hpulse : max (u + 1000000000) (alignDown s.now 1000000000) = u + 1000000000 := by
      have := alignDown_le s.now 1000000000
      omega
    exact ⟨_, rfl, by simp [hout, hstate, hpulse]; omega, by simp [hout, hstate, hpulse], by simp [hout, hstate]⟩
  · intro s hstate
    dsimp only [execSyncOutPulse]
    rw [if_pos (by simp [hstate])]
    exact ⟨_, rfl, rfl, Nat.le_max_left .., rfl⟩

/-- With no Volume there is no vote. -/
theorem votesFor_of_no_volumes {s : State} {k : Nat} (h : s.vols.vols = []) : votesFor s k = [] := by
  simp [votesFor, myVolumes, h]

theorem stage4_of_no_volumes {s : State} (h : s.vols.vols = []) : stage4 s = s := by
  simp [stage4, myVolumes, h]

/-- Settles O33: with no Volume there is nothing to vote or to set; a vote and a decision come from a known neighbour in time. -/
theorem powerEpochComplete : Obligations.PowerEpochComplete := by
  refine ⟨fun s => ?_, ?_, ?_, ?_, ?_, ?_, fun s => rfl⟩ <;> dsimp only [exec]
  · refine ⟨_, rfl, ?_⟩
    simp
  · intro s k hk hvols
    simp [execVoteInstant, hk, myVolumes, hvols, stage4_of_no_volumes, votesFor_of_no_volumes, noteAlerts]
  · intro handle s m w hcur hcoord hmember hothers hkids hdecided hown hepoch
    simp [execVoteDeadline, hcur, hcoord, hmember, hothers, hkids, hdecided, hown, hepoch]
  · intro s hvols
    simp [execVoltageOffset, myVolumes, hvols]
  · intro s stamp p u m htake hcur hchild hepoch htime
    simp only [execPowerVote, htake, hcur, hchild]
    simp [hepoch, Nat.not_lt.mpr htime]
  · intro s stamp p u m htake hcur hcoord hepoch htime
    simp [execDecide, htake, hcur, hcoord, hepoch, Nat.not_lt.mpr htime]

@[simp] theorem noteAlerts_pwr (s : State) : (noteAlerts s).pwr = s.pwr := rfl
@[simp] theorem noteAlerts_seq (s : State) : (noteAlerts s).seq = s.seq := rfl
@[simp] theorem noteAlerts_mem (s : State) : (noteAlerts s).mem = s.mem := rfl

theorem modBayPwr_bay (s : State) (bay : Nat) (f : BayPwr → BayPwr) : (modBayPwr s bay f).pwr.bay bay = f (s.pwr.bay bay) := by
  simp [modBayPwr, Pwr.bay, Pwr.setBay, Tbl.getD_put]

/-- The record of the hottest Bay leaves every Bay's own power state. -/
theorem modPwr_hottest_bay (s : State) (hot : Nat × Nat) (bay : Nat) :
    (s.modPwr (fun p => { p with tjMax := hot.1, tjBay := hot.2 })).pwr.bay bay = s.pwr.bay bay := rfl

/-- A sensor's sample below the trip of R358, out of isolated mode: the Bay's temperature, the hottest Bay, and the Bay's thermal level. -/
def sampled (s : State) (bay temp : Nat) (hot : Nat × Nat) : State :=
  modBayPwr ((modBayPwr s bay (fun x => { x with temp := temp })).modPwr (fun p => { p with tjMax := hot.1, tjBay := hot.2 }))
    bay (fun x => { x with thermal := thermalLevel x.thermal temp })

theorem sampled_bay (s : State) (bay temp : Nat) (hot : Nat × Nat) :
    (sampled s bay temp hot).pwr.bay bay =
      { s.pwr.bay bay with temp := temp, thermal := thermalLevel (s.pwr.bay bay).thermal temp } := by
  rw [sampled, modBayPwr_bay, modPwr_hottest_bay, modBayPwr_bay]

theorem execThermalSensorSample_of_cool {bay : BayNo} {temp : BitVec 8} {s : State} (hiso : s.isolated = false) (htemp : temp.toNat < 108) :
    ∃ hot, execThermalSensorSample bay temp s = .next (noteAlerts (sampled s bay temp.toNat hot)) := by
  dsimp only [execThermalSensorSample]
  generalize List.foldl _ (0, 0) (List.range 32) = hot
  rw [if_neg (Nat.not_le.mpr htemp)]
  split
  case isTrue h => exact Bool.noConfusion (hiso.symm.trans h)
  case isFalse => exact ⟨hot, rfl⟩

/-- Settles O34: a sensor below its trip changes its own Bay's level alone. -/
theorem powerSensorsComplete : Obligations.PowerSensorsComplete := by
  refine ⟨?_, ?_, ?_, ?_, ?_, fun s => rfl, fun s => ⟨rfl, rfl, rfl⟩⟩ <;> dsimp only [exec]
  · intro mw s v hv hclip4 hclip2 hcapped
    simp [execPowerSample, hv, hclip4, hclip2, hcapped]
  · intro bay s hiso
    simp [execDroopDetect, hiso]
  · intro bay s hdroop
    simp [execDroopRelease, hdroop]
  · intro bay s hclip hclip4 hclip2 hcapped
    simp [execStretchDecay, hclip, hclip4, hclip2, hcapped]
  · intro bay temp s hiso htemp
    obtain ⟨hot, hexec⟩ := execThermalSensorSample_of_cool hiso htemp
    refine ⟨_, hexec, ?_, ?_, ?_, ?_⟩
    · rw [noteAlerts_pwr, sampled_bay]
    · rw [noteAlerts_pwr, sampled_bay]
    · simp [sampled, modBayPwr]
    · simp [sampled, modBayPwr]

end Sys2Proof.Machine
end

section
/-! PROOFS. Commands and their placement (13_work_objects.md, 14_scheduling.md). -/

namespace Sys2Proof.Machine

/-- Settles O35: a released command that nothing holds reaches the last branch of its opcode. -/
theorem commandsComplete : Obligations.CommandsComplete := by
  refine ⟨?_, ?_, ?_, ?_, ?_, ?_, ?_, ?_, ?_⟩ <;> dsimp only [exec]
  · intro cmd s c hstart htiles
    simp [execDispatch, hstart, htiles]
  · intro cmd s c hstart htiles hbays hgang
    simp [execDispatch, hstart, htiles, mt List.length_eq_zero_iff.mpr hbays, hgang]
  · intro cmd s c u x sh hstart hres hctx hphys hempty hop hfence hheld htarget
    simp [execShelve, hstart, hres, hctx, hphys, shelveByte, hempty, hop, hfence, hheld, htarget]
  · intro k s id c sh hcmds hphase hstack htarget hslot hfirst
    have hheld : s.work.cmds.filter (fun d => d.2.phase == .held && d.2.heldStack == k.val) = s.work.cmds := by
      simp [hcmds, hphase, hstack]
    simp only [execShelveSubmit, hheld, hfirst]
    simp [htarget, hslot]
  · intro cmd s c hstart hmem
    simp [execCollective, hstart, hmem]
  · intro cmd s c m u p hstart hmem hok hport hres hopen
    simp [execCollective, hstart, hmem, hok, hport, hres, hopen, Tbl.has, Tbl.find]
  · intro cmd s c hstart
    simp [execHint, hstart]
  · intro cmd s c hstart
    simp [execSync, hstart]
  · intro cmd s c hcmd hphase hbarrier hop hbefore hrun hledger hdying hfence
    simp [execCommandRelease, hcmd, hphase, hbarrier, hop, hbefore, hrun, Nat.not_le.mpr hledger, hdying, hfence]

/-- Settles O36: each row's conditions exclude the branches that leave the state. -/
theorem placementComplete : Obligations.PlacementComplete := by
  refine ⟨?_, ?_, ?_, ?_, ?_, ?_, ?_, ?_, ?_, ?_, ?_⟩ <;> dsimp only [exec]
  · intro queue cmd s x hfind hfw hres hunread hdying hreset hquiet hcmds hslots hroom
    simp [execQueueRead, hfind, hfw, Option.isSome_iff_ne_none.mp hres, hunread, hdying, hreset, hquiet, hcmds, Nat.pos_iff_ne_zero.mp hslots, Nat.not_le.mpr hroom]
  · intro queue s x hfind hfw hres hunread hdying hroom
    simp [execQueueSwapIn, hfind, hfw, hres, hunread, hdying, hroom]
  · intro handle bay s havail hidle hstop
    simp [execTilePlace, List.contains_iff_mem.mp havail, hidle, hstop]
  · intro handle ctx s t hheld
    -- the statement's `match` and the definition's are two matchers when they stand in two modules
    simp only [execTimesliceExpire, hheld] <;> rfl
  · intro bay s t d htile hdeadline hheld hstatus hreset
    simp [execTileWatchdog, htile, hdeadline, hheld, hstatus, hreset]
  · intro bay s t c p htile hat hkilled hstep hstatus
    simp [execPreemptGraceExpire, htile, hat, hkilled, Nat.not_le.mpr hstep, hstatus]
  · intro bay s d hby
    simp only [execRuntimeResponseTimeout, hby]
  · intro handle s p hfind hbegun
    simp [execPreemptAt, hfind, hbegun]
  · intro handle s p hfind hresume hcmd
    simp [execResumeAt, hfind, hresume, hcmd]
  · intro s t p u htake hvol
    simp only [execVolPreemptRelay, htake, hvol]
    rfl
  · intro s t p u htake
    simp only [execVolPreemptReport, htake]

end Sys2Proof.Machine
end

section
/-! PROOFS. Messages between managers, the doorbells and the heartbeat (15_registrar.md). -/

namespace Sys2Proof.Machine

/-- Settles O37: a doorbell within its ring is taken, and one behind it is an error. -/
theorem doorbellsComplete : Obligations.DoorbellsComplete := by
  refine ⟨?_, ?_, ?_, ?_, ?_, ?_, ?_, ?_, ?_, ?_⟩ <;> dsimp only [exec]
  · intro s t p u htake
    simp only [execFmMessage, htake]
  · intro s t p u f i c htake hsend hactive htime
    simp only [execFmAck, htake, hsend, hactive, if_neg (Nat.not_lt.mpr htime)]
  · intro slot s c hfind hop hstarted hanswer hin
    simp [execFmSendTimeout, hfind, hop, hanswer, hin, Option.isSome_iff_ne_none.mp hstarted]
  · intro fn v s hfn hroom hold
    simp only [execMbDb, hfn, Nat.not_lt.mpr hroom, Nat.not_lt.mpr hold]
    rfl
  · intro fn data s hfn hfw hen hne hactive hres
    simp [execMailboxRead, hfn, hfw, hen, hne, hactive, hres]
  · intro fn queue v s x hfn0 hfn hfind hpart halive hctx hroom hold
    simp [execCmdDb, hfn0, hfn, hfind, hpart, halive, hctx, Nat.not_lt.mpr hroom, Nat.not_lt.mpr hold]
  · intro fn queue v s x hfn0 hfn hfind hpart halive hctx hroom
    simp [execCplDb, hfn0, hfn, hfind, hpart, halive, hctx, Nat.not_lt.mpr hroom]
  · intro fn v s hfn
    simp [execIrqMaskWrite, hfn]
  · intro fn v s hfn
    simp [execIrqMaskWrite, hfn]
  · intro s hfw
    simp only [execHeartbeat, hfw]
    rfl

end Sys2Proof.Machine
end

section
/-! PROOFS. The mailbox commands of configuration and of partitions (15 R434 to R436, 10_volumes.md). -/

namespace Sys2Proof.Machine

section
variable {s t : State} {m : MbSlot} {op : Nat} {mine : MbCmd → Bool} {checks : State → MbCmd → MbChecks}
  {body later : State → MbCmd → MbRes} {c : MbCmd} {k : MbChecks}

/-- A command that passes its checks and whose body completes is answered. -/
theorem mbCommand_done {st d : Nat} {res : List Nat} (h : MbTakes s m op c k) (hk : checks s c = k) (hm : mine c = true)
    (hbody : body s c = .done t st d res) : mbCommand s m op mine checks body later = mbAnswer t m.fn c st d res := by
  rw [mbCommand_takes (hk ▸ h) hm, hbody]

/-- A command that passes its checks and whose body waits for an event stays active. -/
theorem mbCommand_going {a : Nat} (h : MbTakes s m op c k) (hk : checks s c = k) (hm : mine c = true)
    (hbody : body s c = .going t a) : mbCommand s m op mine checks body later = mbGoes t m c t.now a := by
  rw [mbCommand_takes (hk ▸ h) hm, hbody]

/-- A command that has started and whose later part completes is answered. -/
theorem mbCommand_later_done {since st d : Nat} {res : List Nat} (hfind : mbFind s m = some c) (hop : c.opcode = op) (hanswer : c.answer = none)
    (hfw : s.seq.fwState = 1) (hstarted : c.started = some since) (hm : mine c = true) (hlater : later s c = .done t st d res) :
    mbCommand s m op mine checks body later = mbAnswer t m.fn c st d res := by
  simp [mbCommand, hfind, hop, hanswer, hfw, hstarted, hm, hlater]

end

section
variable {slot : MbSlot} {s : State} {c : MbCmd} {option : Nat} {range : Nat → Bool} {allowed : State → Bool} {set : State → Nat → State}

/-- CONFIG_SET of an allowed option sets it and answers OK. -/
theorem configSet_allowed (h : MbTakes s slot 1 c { fields := [(0x10, 0, 8), (0x18, 0, 64)], range := range (c.f 0x18 0 64), permitted := isFn0 slot })
    (hoption : c.f 0x10 0 8 = option) (hallowed : allowed s = true) :
    configSet s slot option range allowed set = .next (mbAnswer (set s (c.f 0x18 0 64)) slot.fn c 0 0 []) :=
  congrArg Host.Outcome.next (mbCommand_done h rfl (by simp [hoption]) (by simp [hallowed, mbOk]))

theorem configSet_refused (h : MbTakes s slot 1 c { fields := [(0x10, 0, 8), (0x18, 0, 64)], range := range (c.f 0x18 0 64), permitted := isFn0 slot })
    (hoption : c.f 0x10 0 8 = option) (hallowed : allowed s = false) :
    configSet s slot option range allowed set = .next (mbAnswer s slot.fn c Status.aborted.code 0x10 []) :=
  congrArg Host.Outcome.next (mbCommand_done h rfl (by simp [hoption]) (by simp [hallowed, mbFail]))

end

/-- Settles O38: each option is one use of CONFIG_SET. -/
theorem configCommandsComplete : Obligations.ConfigCommandsComplete := by
  refine ⟨?_, ?_, ?_, ?_, ?_, ?_, ?_, ?_⟩ <;> dsimp only [exec]
  · intro slot s c htakes hoption
    exact configSet_allowed htakes hoption rfl
  · intro slot s c htakes hoption hidle
    exact configSet_allowed htakes hoption hidle
  · intro slot s c htakes hoption hbusy
    exact configSet_refused htakes hoption hbusy
  · intro slot s c htakes hoption
    exact configSet_allowed htakes hoption rfl
  · intro slot s c htakes hoption
    exact configSet_allowed htakes hoption rfl
  · intro slot s c htakes hoption hdown
    refine configSet_allowed (allowed := fun s => !(List.range 24).any (portUp s)) htakes hoption ?_
    rw [hdown]
    rfl
  · intro slot s c htakes hoption
    exact configSet_allowed htakes hoption rfl
  · intro slot s c htakes hfn
    exact congrArg Host.Outcome.next (mbCommand_done htakes rfl rfl (by simp [hfn, mbOk]))

/-- Settles O39: with nothing left to wait for, each stage completes. -/
theorem partitionCommandsComplete : Obligations.PartitionCommandsComplete := by
  refine ⟨?_, ?_, ?_, ?_, ?_, ?_, ?_, ?_⟩ <;> dsimp only [exec]
  · intro slot s c htakes hidle hreleases hmap hfree
    exact congrArg Host.Outcome.next (mbCommand_going htakes rfl rfl (by simp [hidle, hreleases, hmap, hfree]))
  · intro slot s c since hfind hop hanswer hfw hstarted harg hfree hmode hmap
    refine congrArg Host.Outcome.next (mbCommand_later_done hfind hop hanswer hfw hstarted rfl ?_)
    simp only [harg, hfree, hmode, hmap]
    rfl
  · intro part s r hfind hsquash hstage
    simp [execDrainLimit, hfind, hsquash, hstage]
  · intro part s r hfind hstage
    simp [execPartitionScrub, hfind, hstage]
  · intro slot s c htakes hmine htiles hquiesced hquiet
    refine congrArg Host.Outcome.next (mbCommand_done htakes rfl (by simp [hmine]) ?_)
    rw [htiles]
    simp only [List.foldl_nil, hquiesced, hquiet]
    rfl
  · intro slot s c htakes hmine
    exact congrArg Host.Outcome.next (mbCommand_done htakes rfl (by simp [hmine]) rfl)
  · intro slot s c htakes hsealed
    refine congrArg Host.Outcome.next ((mbCommand_takes htakes rfl).trans ?_)
    simp only [hsealed, Bool.false_eq_true, if_false]
    generalize placeObj _ _ _ _ _ = room
    cases room with
    | none => rfl
    | some pa =>
      dsimp only
      generalize engineWrite _ _ _ _ _ = got
      cases got <;> rfl
  · intro slot s c t n a u all b htakes hread hreadAll hdigest
    have hsame : ((sha3Nat all).toNat != c.f 0x10 0 512) = false := bne_eq_false_iff_eq.mpr hdigest
    cases himage : Config.imageOf (all.drop 8) with
    | none => exact congrArg Host.Outcome.next (mbCommand_done htakes rfl rfl (by simp [hread, hreadAll, hsame, himage, mbFail]))
    | some m =>
      by_cases hpart : m.part = partOfFn slot
      · simp only [hpart, if_true]
        exact congrArg Host.Outcome.next (mbCommand_done htakes rfl rfl (by simp [hread, hreadAll, hsame, himage, hpart, mbOk]))
      · simp only [hpart, if_false]
        exact congrArg Host.Outcome.next (mbCommand_done htakes rfl rfl (by simp [hread, hreadAll, hsame, himage, hpart, mbFail]))

end Sys2Proof.Machine
end

section
/-! PROOFS. The mailbox commands of power and of security (12_time_and_power.md, 17_security.md). -/

namespace Sys2Proof.Machine

theorem length_chunks_four {α : Type} {l : List α} (h : l.length = 65536) : (chunks 4 l).length = 16384 := by
  simp [chunks, h]

/-- What ROUTE_LOAD makes of a table: its entries that are not 0, in the bank that is not in force (11 R319). -/
def loadedRoutes (bank : Nat) (table : List Byte) : List (Nat × Nat) :=
  ((chunks 4 table).zipIdx).filterMap (fun e => let v := natLE e.1; if v == 0 then none else some (bank * 16384 + e.2, v))

theorem loadedRoutes_bank {bank : Nat} {table : List Byte} (hlength : table.length = 65536) {e : Nat × Nat} (he : e ∈ loadedRoutes bank table) :
    e.1 / 16384 = bank := by
  obtain ⟨⟨chunk, i⟩, hmem, hentry⟩ := List.mem_filterMap.mp he
  have hi : i < 16384 := by
    have := (List.mem_zipIdx hmem).2.1
    rw [length_chunks_four hlength] at this
    omega
  dsimp only at hentry
  split at hentry
  · cases hentry
  · cases hentry
    dsimp only
    omega

theorem filter_loadedRoutes_other_bank {bank other : Nat} {table : List Byte} (hlength : table.length = 65536) (hne : bank ≠ other) :
    (loadedRoutes bank table).filter (fun e => e.1 / 16384 == other) = [] := by
  simp only [List.filter_eq_nil_iff, beq_iff_eq]
  exact fun e he => loadedRoutes_bank hlength he ▸ hne

theorem filter_kept_routes {bank other : Nat} {routes : List (Nat × Nat)} (hne : bank ≠ other) :
    (routes.filter (fun e => e.1 / 16384 != bank)).filter (fun e => e.1 / 16384 == other) = routes.filter (fun e => e.1 / 16384 == other) := by
  rw [List.filter_filter]
  refine List.filter_congr fun e _ => ?_
  by_cases h : e.1 / 16384 = other
  · simp [h, hne.symm]
  · simp [h]

/-- The table in the bank that is not in force, and its digest; the other bank's routes stay. -/
def loadTable (s : State) (table : List Byte) : State :=
  s.modFab (fun x => { x with
    routes := if 1 - s.fab.bank == 0 then loadedRoutes (1 - s.fab.bank) table ++ s.fab.routes.filter (fun e => e.1 / 16384 != 1 - s.fab.bank)
      else s.fab.routes.filter (fun e => e.1 / 16384 != 1 - s.fab.bank) ++ loadedRoutes (1 - s.fab.bank) table
    standby := some (sha3Nat table) })

theorem execRouteLoad_loads {slot : MbSlot} {table : List Byte} {s : State} {c : MbCmd}
    (htakes : MbTakes s slot 12 c { fields := [(0x10, 0, 64)], permitted := isFn0 slot }) (hgrace : bankInGrace s = false)
    (hlength : table.length = 65536) : execRouteLoad slot table s =
      .next (mbAnswer (loadTable s table) slot.fn c 0 0 ((List.range 4).map (fun i => fld (sha3Nat table) (8 * i) 0 64))) := by
  refine congrArg Host.Outcome.next (mbCommand_done htakes rfl rfl ?_)
  have hcheck : (bankInGrace s || table.length != 65536) = false := by simp [hgrace, hlength]
  rw [if_neg (ne_true_of_eq_false hcheck)]
  rfl

theorem loadTable_routes_in_force {s : State} {table : List Byte} (hlength : table.length = 65536) :
    (loadTable s table).fab.routes.filter (fun e => e.1 / 16384 == s.fab.bank) = s.fab.routes.filter (fun e => e.1 / 16384 == s.fab.bank) := by
  have hne : 1 - s.fab.bank ≠ s.fab.bank := by omega
  have hnew := filter_loadedRoutes_other_bank hlength hne
  have hkept := filter_kept_routes (routes := s.fab.routes) hne
  simp only [loadTable, State.modFab_fab]
  split <;> rw [List.filter_append, hnew, hkept] <;> simp

/-- Settles O40: a loaded table goes to the standby bank. -/
theorem powerCommandsComplete : Obligations.PowerCommandsComplete := by
  refine ⟨?_, ?_, ?_, ?_, ?_, ?_⟩ <;> dsimp only [exec]
  · intro slot s c htakes
    exact congrArg Host.Outcome.next (mbCommand_going htakes rfl rfl rfl)
  · intro slot s c htakes hmine
    exact congrArg Host.Outcome.next (mbCommand_done htakes rfl (by simp [hmine]) rfl)
  · intro slot s c htakes hmine
    exact congrArg Host.Outcome.next (mbCommand_done htakes rfl (by simp [hmine]) rfl)
  · intro slot s c htakes
    exact congrArg Host.Outcome.next (mbCommand_done htakes rfl rfl rfl)
  · intro slot s c hfn hmaster hlow htakes hfits
    have hfloor : (List.range 8).find? (fun k => decide (c.f (0x18 + 2 * k) 0 16 < capFloor (c.f 0x10 0 6))) = none := by
      simp only [List.find?_eq_none, List.mem_range, decide_eq_true_eq, Nat.not_lt]
      exact fun k hk => (hfits k hk).1
    have hbudget : (List.range 8).find? (fun k => !guarFits s k (c.f 0x10 0 6) (c.f (0x18 + 2 * k) 0 16)) = none := by
      simp only [List.find?_eq_none, List.mem_range, Bool.not_eq_true', Bool.not_eq_false]
      exact fun k hk => (hfits k hk).2
    refine congrArg Host.Outcome.next (mbCommand_done htakes ?_ rfl ?_)
    · simp [hfn]; omega
    · simp [hfloor, hbudget, Nat.not_le.mpr hmaster, hlow, mbOk]
  · intro slot table s c htakes hgrace hlength
    exact ⟨_, execRouteLoad_loads htakes hgrace hlength, rfl, rfl, rfl, rfl, loadTable_routes_in_force hlength⟩

end Sys2Proof.Machine
end

section
/-! PROOFS. Ports, fuses and keys by the mailbox (17_security.md). -/

namespace Sys2Proof.Machine

/-- What every step of a fold leaves unchanged, the fold does. -/
theorem foldl_proj {α β γ : Type} (proj : α → γ) {f : α → β → α} (h : ∀ a b, proj (f a b) = proj a) (l : List β) (a : α) :
    proj (l.foldl f a) = proj a := by
  induction l generalizing a with
  | nil => rfl
  | cons b l ih => rw [List.foldl_cons, ih, h]

theorem settleIntr_sec (s : State) : (settleIntr s).sec = s.sec := rfl

theorem raiseVector_sec (s : State) (f v : Nat) : (raiseVector s f v).sec = s.sec := by
  dsimp only [raiseVector]
  split
  · exact settleIntr_sec _
  · rfl

theorem cmWrite_sec (s : State) (f addr : Nat) (bs : List Byte) (u : CmUse) : (cmWrite s f addr bs u).sec = s.sec :=
  foldl_proj State.sec (f := fun s (c : Nat × List Byte) => cmIssue s f c.1 c.2 0 u) (fun _ _ => rfl) _ _

/-- An answer goes to the function's ring: it changes nothing of the Carrel. -/
theorem mbAnswer_sec (s : State) (f : Nat) (c : MbCmd) (st d : Nat) (res : List Nat) : (mbAnswer s f c st d res).sec = s.sec := by
  unfold mbAnswer mbRespond
  split
  · rfl
  · dsimp only
    split <;> simp [raiseVector_sec, cmWrite_sec]

/-- With no soft row in any Bay there is no row to fuse. -/
theorem softRows_sum_eq_zero {s : State} (h : ∀ b < 32, softRows (s.bay b) = 0) :
    (List.range 32).foldl (fun n b => n + softRows (s.bay b)) 0 = 0 := by
  refine foldl_eq_self fun b hb => ?_
  rw [h b (List.mem_range.mp hb)]

theorem foldl_softRows_eq_self {s : State} {f : State → Nat → State} (h : ∀ b < 32, softRows (s.bay b) = 0) :
    (List.range 32).foldl (fun s b => if softRows (s.bay b) == 0 then s else f s b) s = s := by
  refine foldl_eq_self fun b hb => ?_
  simp [h b (List.mem_range.mp hb)]

/-- Fusing no row and no higher version leaves the fuses as they are. -/
theorem modSec_fuse_nothing {s : State} (h : s.sec.imageSecVersion ≤ s.sec.secVersion) :
    modSec s (fun x => { x with fusedRows := x.fusedRows, secVersion := max x.secVersion (min 256 x.imageSecVersion) }) = s := by
  have hversion : max s.sec.secVersion (min 256 s.sec.imageSecVersion) = s.sec.secVersion := by omega
  simp only [modSec, hversion]

/-- A return's token is answered; only a changed life cycle resets the part (17 R473). -/
theorem execLcReturnToken_of_done {slot : MbSlot} {token : List Byte} {s t : State} {c : MbCmd} {st d : Nat}
    (htakes : MbTakes s slot 0x65 c { fields := lcFields, permitted := isFn0 slot }) (hmine : c.f 0x10 0 1 = 1)
    (hbody : (if !tokenOk s token then mbFail s .denied
      else mbOk (secEvent (modSec (wipeCarrel s) (fun x => { x with udsKill := true, lc := 3 })) 22 0 0)) = .done t st d []) :
    execLcReturnToken slot token s = .next (if (mbAnswer t slot.fn c st d []).sec.lc != s.sec.lc
      then warmReset (mbAnswer t slot.fn c st d []) 3 true else mbAnswer t slot.fn c st d []) := by
  dsimp only [execLcReturnToken]
  rw [mbCommand_done htakes rfl (by simp [hmine]) hbody]

/-- Settles O41: an answer leaves the Carrel as it is, so a refused return resets nothing. -/
theorem securityCommandsComplete : Obligations.SecurityCommandsComplete := by
  refine ⟨?_, ?_, ?_, ?_, ?_, ?_, ?_, ?_, ?_, ?_, ?_⟩ <;> dsimp only [exec]
  · intro slot s c hport hmode htakes
    exact congrArg Host.Outcome.next (mbCommand_done htakes (by simp [hport, hmode]) rfl rfl)
  · intro slot s c htakes hsoft hroom hversion
    have hsum := softRows_sum_eq_zero hsoft
    refine congrArg Host.Outcome.next (mbCommand_done htakes rfl rfl ?_)
    simp only [hsum, foldl_softRows_eq_self hsoft, Nat.add_zero, modSec_fuse_nothing hversion]
    simp [Nat.not_lt.mpr hroom, Nat.not_lt.mpr hversion, mbOk]
  · intro slot s c hlow hhigh htakes
    exact congrArg Host.Outcome.next (mbCommand_going htakes (by simp [hlow, hhigh]) rfl rfl)
  · intro slot s c u n htakes hfn hsign hkind hu
    exact congrArg Host.Outcome.next (mbCommand_done htakes rfl rfl (by simp [hfn, hsign, hkind, hu, mbOk]))
  · intro slot s c htakes hsign
    exact congrArg Host.Outcome.next (mbCommand_done htakes rfl rfl (by simp [hsign, mbFail]))
  · intro slot blob s c i k hrange hkem htakes hfree
    cases hblob : openBlob k blob with
    | none => exact congrArg Host.Outcome.next (mbCommand_done htakes (by simp [hrange, hkem]) rfl (by simp [hkem, hfree, hblob, importFail, mbFail]))
    | some pt =>
      by_cases hzero : natLE (pt.drop 40) = 0
      · simp only [hzero, ne_eq, not_true_eq_false, if_false]
        exact congrArg Host.Outcome.next (mbCommand_done htakes (by simp [hrange, hkem]) rfl (by simp [hkem, hfree, hblob, hzero, mbOk]))
      · simp only [hzero, ne_eq, not_false_eq_true, if_true]
        exact congrArg Host.Outcome.next (mbCommand_done htakes (by simp [hrange, hkem]) rfl (by simp [hkem, hfree, hblob, hzero, importFail, mbFail]))
  · intro slot s c hrange htakes
    exact congrArg Host.Outcome.next (mbCommand_done htakes (by simp [hrange]) rfl rfl)
  · intro slot s c hport htakes hup
    exact congrArg Host.Outcome.next (mbCommand_done htakes (by simp; omega) rfl (by simp [hport, hup, mbOk]))
  · intro slot policy s c htakes hkeys hobjs hpolicy
    exact congrArg Host.Outcome.next (mbCommand_done htakes rfl rfl (by simp [hkeys, hobjs, hpolicy, mbOk]))
  · intro slot s c htakes hmine hlc
    exact congrArg Host.Outcome.next (mbCommand_done htakes rfl (by simp [hmine]) (by simp [hlc, mbOk]))
  · intro slot token s c htakes hmine
    by_cases htoken : tokenOk s token = true
    · rw [if_pos htoken]
      exact execLcReturnToken_of_done htakes hmine (by simp [htoken, mbOk])
    · rw [if_neg htoken, execLcReturnToken_of_done htakes hmine (t := s) (st := Status.denied.code) (d := 0) (by simp [htoken, mbFail]),
        mbAnswer_sec]
      simp

end Sys2Proof.Machine
end

section
/-! PROOFS. The mailbox commands of contexts, queues and memory objects (13_work_objects.md). -/

namespace Sys2Proof.Machine

/-- FAULT_RETRY and FAULT_ABORT find the fault's record, end what it holds and do their own part. -/
theorem faultAnswer_done {s t : State} {slot : MbSlot} {op : Nat} {act : State → Nat → FaultRec → MbRes} {c : MbCmd} {key : Nat} {x : Ctx}
    {r : FaultRec} {d : Nat} (htakes : MbTakes s slot op c { fields := [(0x10, 0, 32), (0x18, 0, 16)], permitted := isPartFn slot })
    (hctx : liveCtx s (partOfFn slot) (c.f 0x10 0 32) = some (key, x)) (hrec : Tbl.find s.work.faultRecs (key * 65536 + c.f 0x18 0 16) = some r)
    (hact : act (endHolds s r) key r = .done t 0 d []) : faultAnswer s slot op act = mbAnswer t slot.fn c 0 d [] := by
  unfold faultAnswer
  refine mbCommand_done htakes (by simp [hctx]) rfl ?_
  simp only [hctx, hrec, if_true]
  exact hact

/-- Settles O42: the handle's context, queue or record is found, so the command does its one thing. -/
theorem contextCommandsComplete : Obligations.ContextCommandsComplete := by
  refine ⟨?_, ?_, ?_, ?_, ?_, ?_, ?_, ?_, ?_, ?_⟩ <;> dsimp only [exec]
  · intro slot s c key hfields htakes hkey
    exact congrArg Host.Outcome.next (mbCommand_done htakes (by simp [hfields]) rfl (by simp [hkey, mbOk]))
  · intro slot s c key x htakes hctx
    exact congrArg Host.Outcome.next (mbCommand_done htakes (by simp [hctx]) rfl (by simp [hctx, mbOk]))
  · intro slot s c key x u htakes hctx hstate hsave
    exact congrArg Host.Outcome.next (mbCommand_done htakes (by simp [hctx]) rfl (by simp [hctx, hstate, hsave, mbOk]))
  · intro slot s c key x u htakes hctx hfinish
    exact congrArg Host.Outcome.next (mbCommand_done htakes (by simp [hctx]) rfl (by simp [hctx, hfinish, mbOk]))
  · intro bay s id t c d hbay htile hat
    simp [execDestroyTileKill, hbay, htile, hat]
  · intro slot s c key x htakes hctx hheld
    exact congrArg Host.Outcome.next (mbCommand_done htakes (by simp [hctx]) rfl (by simp only [hctx, hheld]; rfl))
  · intro slot s c key x r t d htakes hctx hrec hact
    exact congrArg Host.Outcome.next (faultAnswer_done htakes hctx hrec hact)
  · intro slot s c key x r htakes hctx hrec
    exact congrArg Host.Outcome.next (faultAnswer_done htakes hctx hrec rfl)
  · intro slot s c key x q htakes hpow hmin hmax hvector hctx hkey
    exact congrArg Host.Outcome.next (mbCommand_done htakes (by simp [hpow, hmin, hmax, hvector, hctx]) rfl (by simp [hctx, hkey, mbOk]))
  · intro slot s c q t d r htakes hqueue hend
    exact congrArg Host.Outcome.next (mbCommand_done htakes (by simp [hqueue]) rfl (by simp [hqueue, hend]))

/-- Settles O43: the object is found and held, so the command changes it. -/
theorem objectCommandsComplete : Obligations.ObjectCommandsComplete := by
  refine ⟨?_, ?_, ?_, ?_, ?_, ?_⟩ <;> dsimp only [exec]
  · intro slot s c k x ok o u h htakes hva hctx hobj hheld hlive himage hpolicy
    have hheld : k ∈ o.holds := List.contains_iff_mem.mp hheld
    exact congrArg Host.Outcome.next (mbCommand_done htakes (by simp [hctx, hobj, hheld, hlive]; exact hva) rfl
      (by simp [hctx, hobj, hheld, hlive, himage, hpolicy, mbOk]))
  · intro slot s c key o htakes hobj himage
    exact congrArg Host.Outcome.next (mbCommand_done htakes (by simp [hobj]) rfl
      (by simp [hobj, Option.isSome_iff_ne_none.mp himage, mbOk]))
  · intro slot s c ck x base key u htakes hbytes halign hshelf hctx hplace hkey hzero
    exact congrArg Host.Outcome.next (mbCommand_done htakes (by simp [hbytes, halign, hshelf, hctx]) rfl
      (by simp [hctx, hshelf, hplace, hkey, hzero, mbOk]))
  · intro slot s c ck x ok o htakes hctx hobj hlive
    exact congrArg Host.Outcome.next (mbCommand_done htakes (by simp [hctx, hobj, hlive]) rfl (by simp [hctx, hobj, mbOk]))
  · intro slot s c ck x ok o htakes hctx hobj hheld
    have hheld : ck ∈ o.holds := List.contains_iff_mem.mp hheld
    exact congrArg Host.Outcome.next (mbCommand_done htakes (by simp [hctx, hobj, hheld]) rfl (by simp [hctx, hobj, mbOk]))
  · intro slot s c key o htakes hobj hstate
    exact congrArg Host.Outcome.next (mbCommand_done htakes (by simp [hobj]) rfl (by simp [hobj, hstate, mbOk]))

end Sys2Proof.Machine
end

section
/-! PROOFS. The mailbox commands of fences, of the Catalogue and of the Ledger (13 R388 to R391, 09_translation.md, 14 R419 to R421). -/

namespace Sys2Proof.Machine

/-- Settles O44: the handle's fence is found, so the command does its one thing. -/
theorem fenceCommandsComplete : Obligations.FenceCommandsComplete := by
  refine ⟨?_, ?_, ?_, ?_, ?_, ?_⟩ <;> dsimp only [exec]
  · intro slot s c htakes hmin hmax hnone
    exact congrArg Host.Outcome.next (mbCommand_done htakes (by simp [hmin, hmax]) rfl (by simp [hnone, mbOk]))
  · intro slot s c a l key htakes htable hkey
    exact congrArg Host.Outcome.next (mbCommand_done htakes rfl rfl (by simp only [htable, hkey]; rfl))
  · intro slot s c key f htakes hfence
    exact congrArg Host.Outcome.next (mbCommand_done htakes (by simp [hfence]) rfl (by simp [hfence, mbOk]))
  · intro slot s c key f htakes hfence hfree
    exact congrArg Host.Outcome.next (mbCommand_done htakes (by simp [hfence]) rfl (by simp [hfence, hfree, mbOk]))
  · intro slot s c key f htakes hfence
    exact congrArg Host.Outcome.next (mbCommand_done htakes (by simp [hfence]) rfl (by simp [hfence, mbOk]))
  · intro slot s c key f htakes hmin hmax hfence
    exact congrArg Host.Outcome.next (mbCommand_done htakes (by simp [hmin, hmax, hfence]) rfl (by simp [hfence, mbOk]))

/-- Settles O45: the checks of each command are those of the statement, so its body runs. -/
theorem catalogueCommandsComplete : Obligations.CatalogueCommandsComplete := by
  refine ⟨?_, ?_, ?_, ?_, ?_, ?_, ?_, ?_, ?_⟩ <;> dsimp only [exec]
  · intro slot s c htakes hvacant
    exact congrArg Host.Outcome.next (mbCommand_done htakes rfl rfl (by simp [hvacant, mbOk]))
  · intro slot s c t d r htakes hvacant hfinish
    exact congrArg Host.Outcome.next (mbCommand_done htakes rfl rfl (by simp [hvacant, hfinish]))
  · intro slot s c htakes
    exact congrArg Host.Outcome.next (mbCommand_done htakes rfl rfl rfl)
  · intro slot s c htakes
    exact congrArg Host.Outcome.next (mbCommand_done htakes rfl rfl rfl)
  · intro slot s c htakes hseal
    exact congrArg Host.Outcome.next (mbCommand_done htakes rfl rfl (by simp [hseal, mbOk]))
  · intro slot s c htakes
    exact congrArg Host.Outcome.next (mbCommand_done htakes rfl rfl rfl)
  · intro slot s c htakes
    exact congrArg Host.Outcome.next (mbCommand_done htakes rfl rfl rfl)
  · intro slot s c htakes hlow hhigh
    exact congrArg Host.Outcome.next (mbCommand_done htakes rfl rfl (by simp only [gt_iff_lt, Nat.not_lt.mpr hlow, Nat.not_lt.mpr hhigh, decide_false, Bool.or_self]; rfl))
  · intro slot s c htakes hfn hall
    exact congrArg Host.Outcome.next (mbCommand_done htakes (by simp [hfn, hall]) rfl (by simp [hfn, hall, mbOk]))

end Sys2Proof.Machine
end

section
/-! PROOFS. The mailbox commands of Volumes, of migration and of resets (10_volumes.md, 18_reset_recovery.md). -/

namespace Sys2Proof.Machine

/-- Settles O46: a request that nothing refuses opens its round. -/
theorem volumeCommandsComplete : Obligations.VolumeCommandsComplete := by
  refine ⟨?_, ?_, ?_, ?_, ?_, ?_, ?_, ?_⟩ <;> dsimp only [exec]
  · intro slot map s c m hparse hmembers hshape hrefused hwithin htakes
    exact congrArg Host.Outcome.next (mbCommand_going htakes (by simp only [hparse, hwithin]) rfl (by simp only [hparse, hmembers, hshape, hrefused]; rfl))
  · intro slot map s c m v x hparse hvol hcur hcoord hrouting hvolin hmapin hround hmembers hshape hrefused htakes
    exact congrArg Host.Outcome.next (mbCommand_going htakes (by simp [hvol, hcur, hcoord, hparse, hrouting, hvolin, hmapin]) rfl
      (by simp [hparse, hround, hmembers, hshape, hrefused, hvol, hcur]))
  · intro slot s c v m hvol hcur hvolin hround htakes
    exact congrArg Host.Outcome.next (mbCommand_going htakes (by simp [hvol, hvolin]) rfl (by simp [hvol, hcur, hround]))
  · intro slot s c v m hvol hcur hnext hround htakes
    exact congrArg Host.Outcome.next (mbCommand_going htakes (by simp [hvol]) rfl (by simp [hvol, hcur, hnext, hround]))
  · intro slot s c hcur hend htakes
    exact congrArg Host.Outcome.next (mbCommand_going htakes (by simp only [hcur, bne_iff_ne.mpr hend]) rfl rfl)
  · intro slot s c hcur htakes
    exact congrArg Host.Outcome.next (mbCommand_done htakes (by simp [hcur]) rfl rfl)
  · intro slot s c sh hflag hrange hsrc hdst hvolumes hshelver htakes
    exact congrArg Host.Outcome.next (mbCommand_going htakes (by simp [hrange, hsrc, hdst]) (by simp [hflag])
      (by simp only [hvolumes, hshelver]; rfl))
  · intro slot s c x t d r hflag hrange hinval hsrc hdst hpermitted hhandles htakes hfind hlost hmirror hend
    exact congrArg Host.Outcome.next (mbCommand_done htakes (by simp [hrange, hinval, hsrc, hdst, hpermitted, hhandles]) hflag
      (by simp only [hfind, hlost]; simp [Option.isSome_iff_ne_none.mp hmirror, hend]))

/-- A release that nothing forbids marks the partition and starts its first stage (10 R299). -/
theorem partRelease_begins {slot : MbSlot} {squash : Bool} {s : State} {c : MbCmd}
    (htakes : MbTakes s slot 4 c { fields := [(0x10, 0, 3), (0x10, 8, 1), (0x18, 0, 14)], permitted := isFn0 slot })
    (hpart : c.f 0x10 0 3 < s.mode) (hmin : 1 ≤ c.f 0x18 0 14) (hmax : c.f 0x18 0 14 ≤ 10000) (hmine : ((c.f 0x10 8 1 == 1) == squash) = true)
    (hfree : Tbl.has s.vols.releases (c.f 0x10 0 3) = false) (hround : roundOpen s (c.f 0x10 0 3) = false) (hhere : partAbroad s (c.f 0x10 0 3) = false) :
    let u := s.modPart (c.f 0x10 0 3) (fun x => { x with releasing := true })
    let r : Release := { cmd := some c.index, limit := s.now + c.f 0x18 0 14 * ms, squash }
    let w := { u with vols := { u.vols with releases := Tbl.put u.vols.releases (c.f 0x10 0 3) r } }
    let v := advanceRelease (if squash then squashPart w (c.f 0x10 0 3) else w) (c.f 0x10 0 3)
    partRelease slot squash s = settlePartResets (mbGoes v slot c v.now 1) := by
  dsimp only [partRelease]
  refine congrArg settlePartResets (mbCommand_going htakes (by simp [hpart, hmin, hmax]) hmine ?_)
  simp only [hfree, hround, hhere]
  rfl

/-- The only active command, once it goes on, is found with what it keeps. -/
theorem mbFind_mbGoes_of_only {s : State} {slot : MbSlot} {c : MbCmd} (now a : Nat) (hfind : mbFind s slot = some c) (hactive : (s.fn slot.fn).active = [c]) :
    mbFind (mbGoes s slot c now a) slot = some { c with started := some now, arg := a } := by
  have hindex : (c.index == slot.index.toNat) = true := by
    have := List.find?_some hfind
    exact this
  simp [mbFind, mbGoes, mbKeep, hactive, beq_iff_eq.mp hindex]

/-- DEVICE_RESET, alone in its ring, resets the part and leaves its answer for after it (18 R508). -/
theorem execDeviceReset_resets {slot : MbSlot} {s : State} {c : MbCmd} (htakes : MbTakes s slot 0x72 c { fields := [(0x10, 0, 1)], permitted := isFn0 slot })
    (hfn : isFn0 slot = true) (hactive : (s.fn slot.fn).active = [c]) : ∃ u, execDeviceReset slot s = .next (warmReset u 4 (c.f 0x10 0 1 == 1)) ∧
      u.seq.resetReply = some c.index ∧ u.mem = s.mem := by
  obtain ⟨hfind, -⟩ := id htakes
  let t := s.modSeq (fun q => { q with resetReply := some c.index })
  refine ⟨mbGoes t slot c t.now (1 + c.f 0x10 0 1), ?_, rfl, rfl⟩
  dsimp only [execDeviceReset]
  rw [mbCommand_going (t := t) (a := 1 + c.f 0x10 0 1) htakes ?checks ?mine ?body, mbFind_mbGoes_of_only (s := t) _ _ hfind hactive]
  case checks | mine | body => rfl
  have hcold : (1 + c.f 0x10 0 1 == 2) = (c.f 0x10 0 1 == 1) := by
    rw [Bool.eq_iff_iff, beq_iff_eq, beq_iff_eq]
    omega
  have hreply : (mbGoes t slot c t.now (1 + c.f 0x10 0 1)).seq.resetReply = some c.index := rfl
  simp [hreply, hfn, hcold]

/-- Settles O47: a reset ends with the answer that waits for it. -/
theorem resetCommandsComplete : Obligations.ResetCommandsComplete := by
  refine ⟨?_, ?_, ?_, ?_, ?_, ?_, ?_, ?_, ?_⟩ <;> dsimp only [exec]
  · intro slot s c htakes hpart hmin hmax hmine hfree hround hhere
    exact congrArg Host.Outcome.next (partRelease_begins (squash := false) htakes hpart hmin hmax (by simp [hmine]) hfree hround hhere)
  · intro slot s c htakes hpart hmin hmax hmine hfree hround hhere
    have hbegins := partRelease_begins (squash := true) htakes hpart hmin hmax (by simp [hmine]) hfree hround hhere
    simp only [if_true] at hbegins
    exact congrArg Host.Outcome.next hbegins
  · intro slot s c htakes hmine
    exact congrArg Host.Outcome.next (mbCommand_done htakes rfl (by simp [hmine]) rfl)
  · intro slot s c htakes hmine
    exact congrArg Host.Outcome.next (mbCommand_done htakes rfl (by simp [hmine]) rfl)
  · intro slot s c htakes hfn
    exact congrArg (fun s => Host.Outcome.next (settlePartResets s)) (mbCommand_going htakes (by simp [hfn]) rfl rfl)
  · intro slot s c htakes hfn hactive
    exact execDeviceReset_resets htakes hfn hactive
  · intro slot s c hfind hstarted hanswer hdeadline
    simp [execMailboxDeadline, hfind, hstarted, hanswer, hdeadline]
  · intro slot s c st d res b hfind hanswer hbound
    simp only [execMailboxFixedAnswer, hfind, hanswer, hbound]
  · intro handle s p i hpreempt hcmd hnone
    simp only [execVolPreemptTimeout, hpreempt, hcmd, hnone, List.foldl_nil, Nat.zero_mul, Nat.add_zero]

end Sys2Proof.Machine
end

section
/-! PROOFS. The companion's messages (16_otfold_link.md), the SMBus interface and JTAG (19_electrical.md). -/

namespace Sys2Proof.Machine

theorem otRequest_served {s : State} {port : Fin 2} {mtype : Nat} {m : OtHead} {ok : Bool} {answer : Nat → OtMsg} {serve : State → State}
    (h : OtServed s port mtype m ok) : otRequest s port mtype m ok answer serve = serve s := by
  rw [OtServed] at h
  simp only [otRequest, h]

/-- A memory request whose address and agent are good, on a stack that runs, is performed and answered. -/
theorem otMemory_performed {s t : State} {port : Fin 2} {m : OtHead} {rq : Rq} {d : Nat} {refuse : Nat → OtMsg} {perform : State → Rq → Nat → Got OtMsg}
    {a : OtMsg} (h : OtMemReady s port m rq d) (hperform : perform s rq d = .ok t a) : otMemory s port m refuse perform = otAnswer t port m a := by
  obtain ⟨hcheck, hrestart, hstopped⟩ := h
  simp [otMemory, hcheck, hrestart, hstopped, hperform]

/-- Settles O48: a message that passes its gate is served, and one that the gate drops is counted as bad. -/
theorem otfoldMessagesComplete : Obligations.OtfoldMessagesComplete := by
  refine ⟨?_, ?_, ?_, ?_, ?_, ?_, ?_, ?_, ?_, ?_, ?_, ?_⟩ <;> dsimp only [exec]
  · intro port m s rq d t bs bad hserved hready hread
    exact congrArg Host.Outcome.next ((otRequest_served hserved).trans (otMemory_performed hready (by simp only [hread])))
  · intro port m s rq d t hserved hready hwrite
    exact congrArg Host.Outcome.next ((otRequest_served hserved).trans (otMemory_performed hready (by simp only [hwrite])))
  · intro port m s rq d t x hserved hready hprepare
    exact congrArg Host.Outcome.next ((otRequest_served hserved).trans (otMemory_performed hready (by simp only [hprepare])))
  · intro port m s hserved
    exact congrArg Host.Outcome.next (otRequest_served hserved)
  · intro port m s hserved hwait
    rw [OtServed] at hserved
    simp [execRegWr, hserved, hwait]
  · intro port m s hgate
    simp only [execRegWr, hgate]
  · intro port m s hserved
    exact congrArg Host.Outcome.next (otRequest_served hserved)
  · intro port m s htype
    simp [execData, htype]
  · intro port m s htype
    simp [execAck, htype]
  · intro tag s r hfind
    simp only [execCmDeadline, hfind]
  · intro port lane s hstate
    rw [linkIn] at hstate
    simp [execOtLaneFail, hstate]
  · intro port s hstate
    rw [linkIn] at hstate
    simp [execOtRetrain, hstate]

theorem smbServed_open {s : State} {body : State → State} (h : SmbOpen s) : smbServed s false body = body s := by
  obtain ⟨hstep, hfree, hreset, hfw⟩ := h
  simp [smbServed, Nat.not_lt.mpr hstep, Nat.not_lt.mpr hfree, hreset, hfw]

theorem jtagLow_of_low {s : State} {effect : State → State} (h : s.seq.resetN = false) : jtagLow s effect = effect s := by
  simp [jtagLow, h]

/-- Settles O49: an open SMBus interface serves the command, and RESET_N held low lets the JTAG instructions take the pins. -/
theorem boardComplete : Obligations.BoardComplete := by
  refine ⟨?_, ?_, ?_, ?_, ?_, ?_, ?_, ?_, ?_, ?_, ?_, ?_, ?_, ?_, ?_, ?_, ?_, ?_, ?_⟩ <;> dsimp only [exec]
  · exact fun s => rfl
  · intro nonce s hopen hsign
    exact congrArg Host.Outcome.next ((smbServed_open hopen).trans (by simp [hsign]))
  · intro nonce s hopen hsign
    exact congrArg Host.Outcome.next ((smbServed_open hopen).trans (by simp [hsign]))
  · intro s hopen
    exact congrArg Host.Outcome.next (smbServed_open hopen)
  · intro watts s hopen hmin hmax
    exact congrArg Host.Outcome.next ((smbServed_open hopen).trans (by simp [hmin, hmax]))
  · intro watts s hopen hmax
    exact congrArg Host.Outcome.next ((smbServed_open hopen).trans (by simp [Nat.not_le.mpr hmax]))
  · intro s hstep hfree
    simp [execGetResetStatus, smbServed, Nat.not_lt.mpr hstep, Nat.not_lt.mpr hfree]
  · intro mask s hopen
    exact ⟨_, congrArg Host.Outcome.next (smbServed_open hopen), rfl, rfl, rfl⟩
  · intro s hstep hclocks
    simp [execTelemetryRefresh, Nat.not_lt.mpr hstep, hclocks]
  · exact fun s => rfl
  · exact fun s => rfl
  · exact fun cells s => rfl
  · intro s hlow
    exact congrArg Host.Outcome.next (jtagLow_of_low hlow)
  · intro s hhigh
    simp only [execClamp, jtagLow, hhigh]
    rfl
  · intro s hlow
    exact congrArg Host.Outcome.next (jtagLow_of_low hlow)
  · intro cells s hlow
    exact congrArg Host.Outcome.next (jtagLow_of_low hlow)
  · intro cells s hlow
    exact congrArg Host.Outcome.next (jtagLow_of_low hlow)
  · intro cells s hlow
    exact congrArg Host.Outcome.next (jtagLow_of_low hlow)
  · exact fun s => rfl

end Sys2Proof.Machine
end

section
/-! PROOFS. Start-up, the ladder of recovery and the ends of resets (18_reset_recovery.md). -/

namespace Sys2Proof.Machine

theorem modSeq_modSeq (s : State) (f g : Seq → Seq) : (s.modSeq f).modSeq g = s.modSeq (fun q => g (f q)) := rfl

/-- Settles O50: each row is the branch of its state of the sequencer. -/
theorem startUpComplete : Obligations.StartUpComplete := by
  refine ⟨?_, ?_, ?_, ?_, ?_, ?_, ?_, ?_, ?_, ?_, ?_, ?_, ?_, ?_, ?_⟩ <;> dsimp only [exec]
  · intro s hrails
    simp [execPowerOnReset, hrails]
  · exact fun s => rfl
  · intro s hrails hhigh
    simp [execResetNFall, hrails, hhigh]
  · intro s t hfell
    simp [execShortPulse, hfell]
  · intro s t hfell hrestart
    simp [execResetNAssert, hfell, hrestart, reach]
  · intro s t hfell hrestart
    simp [execResetNAssert, hfell, hrestart, reach, modSeq_modSeq]
  · intro clk slot src s hrails hlow hfell hlatched hrestart
    simp [execResetNRise, hrails, hlow, hfell, hlatched, hrestart, modSeq_modSeq]
  · intro s hrestart hstep
    simp [execRefclkPresent, hrestart, hstep]
  · intro cause image s hready hstate hidle hsource hcause
    simp [execImageReadDone, hready, hstate, hidle, hsource, hcause]
  · intro cause image s hready hstate hidle hsource hcause
    simp [execImageReadDone, hready, hstate, hidle, hsource, hcause]
  · intro s hfw hready hidle hstate hmin hmax
    simp [execBootLoad, hfw, hready, hidle, hstate, Nat.not_lt.mpr hmin, Nat.not_lt.mpr hmax]
  · intro s hfw hstate hidle
    simp [execRetrySource, hfw, hstate, hidle]
  · intro cause s hrestart hposted
    simp [execDeviceFatal, hrestart, hposted]
  · exact fun cause s => rfl
  · intro s t hpulse hwaits
    simp only [execFusePulseEnd, hpulse, hwaits]

theorem Bay.setCore_coreResets (b : Bay) (c : Nat) (k : Core) : (b.setCore c k).coreResets = b.coreResets := by
  unfold Bay.setCore; split <;> rfl

theorem Bay.setCore_coreFence (b : Bay) (c : Nat) (k : Core) : (b.setCore c k).coreFence = b.coreFence := by
  unfold Bay.setCore; split <;> rfl

theorem Bay.setCore_fenced (b : Bay) (c : Nat) (k : Core) : (b.setCore c k).fenced = b.fenced := by
  unfold Bay.setCore; split <;> rfl

theorem Bay.setCore_mem (b : Bay) (c : Nat) (k : Core) : (b.setCore c k).mem = b.mem := by
  unfold Bay.setCore; split <;> rfl

theorem endReset_bay (s : State) (level inst b : Nat) : (endReset s level inst).bay b = s.bay b := rfl

theorem endReset_mem (s : State) (level inst : Nat) : (endReset s level inst).mem = s.mem := rfl

/-- Settles O51: each row is the branch of its level, with nothing else left to end. -/
theorem recoveryComplete : Obligations.RecoveryComplete := by
  refine ⟨?_, ?_, ?_, ?_, ?_, ?_, ?_, ?_, ?_, ?_, ?_, ?_, ?_, ?_, ?_⟩ <;> dsimp only [exec]
  · intro s hfw
    simp [execRegistrarWatchdog, hfw]
  · intro pair s hfw hpair
    simp [execLockstepMismatch, hfw, hpair]
  · intro s hactive hruns
    simp [execPairResetDone, hactive, hruns]
  · intro s hrestart
    simp [execRegistrarRestart, hrestart]
  · intro inst s x hrunning
    have hrunning : s.seq.running.find? (fun r => r.1 == (5 : Fin 8).val && r.2.1 == inst) = some x := hrunning
    simp only [execStepTimerOverrun, hrunning]
    rfl
  · intro inst s x hrunning
    have hrunning : s.seq.running.find? (fun r => r.1 == (1 : Fin 8).val && r.2.1 == inst) = some x := hrunning
    simp only [execStepTimerOverrun, hrunning]
    rfl
  · intro bay core s c hreset hcore hfenced
    simp only [execCoreResetDone, hreset, hcore]
    refine ⟨_, rfl, ?_⟩
    simp [endReset_bay, endReset_mem, State.setCore, Bay.setCore_coreResets, Bay.setCore_coreFence, Bay.setCore_fenced, Bay.setCore_mem, hfenced]
  · intro bay s since hreset hdrained hfenced hpart
    simp [execBayResetDone, hreset, hdrained, hfenced, hpart]
  · exact fun sh s => rfl
  · intro k s hflushing hmsc
    have hmine : Tbl.keep (reach s (s.seq.restartAt + ms)).mem.msc (fun l _ => stackOf (128 * l) == k.val) = [] := by
      rw [show (reach s (s.seq.restartAt + ms)).mem.msc = [] from hmsc]
      rfl
    simp only [execMscFlushLimit, hflushing, hmine]
    rfl
  · intro key s k hkem
    simp only [execKemKeyExpiry, hkem]
  · intro record s m hmiss hisolated hwalked
    simp [execMissFixedResume, hmiss, hisolated, hwalked]
  · intro src s c hcorr hcount
    simp [execCorrectedReportInterval, hcorr, hcount]
  · intro src s c hcorr hcount
    simp [execCorrectedReportInterval, hcorr, hcount]
  · intro g pkt s c hdst hok hstep hcoll
    exact congrArg Host.Outcome.next (collControl_of_find hdst hok hstep hcoll)

end Sys2Proof.Machine
end

section
/-! PROOFS. A prefetched line leaves the partition mode, and so each Bay's partition, as they are (01 R17, 06 R179). -/

namespace Sys2Proof.Machine

@[simp] theorem raiseVector_mode (s : State) (f v : Nat) : (raiseVector s f v).mode = s.mode := by
  dsimp only [raiseVector]
  split
  · rfl
  · simp

@[simp] theorem cmWrite_mode (s : State) (f addr : Nat) (bs : List Byte) (u : CmUse) : (cmWrite s f addr bs u).mode = s.mode :=
  foldl_proj State.mode (f := fun s (c : Nat × List Byte) => cmIssue s f c.1 c.2 0 u) (fun _ _ => rfl) _ _

@[simp] theorem evWrite_mode (s : State) (f type status sev body : Nat) : (evWrite s f type status sev body).mode = s.mode := by
  simp [evWrite, cmRecord]

@[simp] theorem postEvent_mode (s : State) (f type status sev body : Nat) : (postEvent s f type status sev body).mode = s.mode := by
  dsimp only [postEvent]
  split
  · rfl
  · split <;> simp

@[simp] theorem postErrorNow_mode (s : State) (e : Err) : (postErrorNow s e).mode = s.mode := by
  dsimp only [postErrorNow]
  split
  all_goals
    split
    · simp
    · refine (foldl_proj State.mode (fun s p => ?_) _ _).trans (by simp)
      split <;> simp

@[simp] theorem postError_mode (s : State) (e : Err) : (postError s e).mode = s.mode := by
  dsimp only [postError]
  split
  · simp
  · split
    · split
      · rfl
      · simp
    · simp

@[simp] theorem stackEvent_mode (s : State) (k b sev parts : Nat) (addr : Option Nat) : (stackEvent s k b sev parts addr).mode = s.mode := by
  simp [stackEvent]

@[simp] theorem shEvent_mode (s : State) (sh b status queue sev parts : Nat) : (shEvent s sh b status queue sev parts).mode = s.mode := by
  simp [shEvent]

@[simp] theorem logErr_mode (s : State) (d type : Nat) : (logErr s d type).mode = s.mode := rfl

@[simp] theorem poisonChunks_mode (s : State) (cs : List Nat) : (poisonChunks s cs).mode = s.mode := rfl

@[simp] theorem rawPut_mode (s : State) (d : Nat) (bs : List Byte) : (rawPut s d bs).mode = s.mode := rfl

@[simp] theorem setMscLine_mode (s : State) (line : Nat) (x : MscLine) : (setMscLine s line x).mode = s.mode := rfl

@[simp] theorem mscUse_mode (s : State) (d way : Nat) : (mscUse s d way).mode = s.mode := rfl

@[simp] theorem mscDrop_mode (s : State) (line : Nat) : (mscDrop s line).mode = s.mode := rfl

@[simp] theorem chargeGranules_mode (s : State) (k : Nat) (rq : Rq) (n : Nat) : (chargeGranules s k rq n).mode = s.mode := by
  unfold chargeGranules
  split <;> rfl

@[simp] theorem readChunk_mode (s : State) (c n scrub : Nat) : (readChunk s c n scrub).1.mode = s.mode := by
  dsimp only [readChunk]
  split
  · simp
  · split
    · rfl
    · split
      · simp
      · split <;> simp

@[simp] theorem readChunks_mode (s : State) (c : Nat) (errs : List Nat) (n : Nat) : (readChunks s c errs n).1.mode = s.mode := by
  induction n generalizing s c errs with
  | zero => rfl
  | succ n ih => simp [readChunks, ih]

@[simp] theorem fetchBlock_mode (s : State) (base cmp : Nat) (errs : List Nat) : (fetchBlock s base cmp errs).1.mode = s.mode := by
  dsimp only [fetchBlock]
  split
  · split <;> simp
  · split <;> simp

@[simp] theorem fetchLine_mode (s : State) (line cmp : Nat) (errs : List Nat) : (fetchLine s line cmp errs).1.mode = s.mode := by
  dsimp only [fetchLine]
  split
  · simp
  · split <;> simp

@[simp] theorem putBlock_mode (s : State) (base cmp : Nat) (bs : List Byte) (poison : Bool) : (putBlock s base cmp bs poison).mode = s.mode := by
  dsimp only [putBlock]
  split
  · split <;> simp
  · split <;> split <;> simp

@[simp] theorem mirrorCopy_mode (s : State) (m : Mirror) (base : Nat) : (mirrorCopy s m base).mode = s.mode := by
  dsimp only [mirrorCopy]
  split
  · rw [poisonChunks_mode, rawPut_mode]
  · rw [putBlock_mode, fetchBlock_mode]

@[simp] theorem mirrorBlock_mode (s : State) (d : Nat) : (mirrorBlock s d).mode = s.mode := by
  refine foldl_proj State.mode (fun s i => ?_) _ _
  split
  · split <;> simp
  · rfl

@[simp] theorem putChunks_mode (s : State) (line cmp : Nat) (bs : List Byte) (mask poison : Nat) : (putChunks s line cmp bs mask poison).mode = s.mode := by
  refine foldl_proj State.mode (fun s i => ?_) _ _
  have hpoison : ∀ (b : Bool) (t : State) (cs : List Nat), (if b then poisonChunks t cs else t).mode = t.mode := by
    intro b t cs
    cases b <;> rfl
  rw [hpoison]
  split
  · rfl
  · split <;> rfl

@[simp] theorem storeLine_mode (s : State) (line cmp : Nat) (bs : List Byte) (mask poison : Nat) : (storeLine s line cmp bs mask poison).mode = s.mode := by
  dsimp only [storeLine]
  rw [mirrorBlock_mode]
  split
  · simp
  · split <;> simp

@[simp] theorem writeBackBlock_mode (s : State) (rq : Rq) (base cmp : Nat) : (writeBackBlock s rq base cmp).mode = s.mode := by
  dsimp only [writeBackBlock]
  split
  · rfl
  · rw [mirrorBlock_mode, chargeGranules_mode, foldl_proj State.mode (fun s l => setMscLine_mode s _ _), putBlock_mode, fetchBlock_mode]

@[simp] theorem writeBackLine_mode (s : State) (rq : Rq) (line : Nat) : (writeBackLine s rq line).mode = s.mode := by
  unfold writeBackLine
  split
  · rfl
  · split
    · rfl
    · split <;> simp

@[simp] theorem mscPlace_mode (s : State) (rq : Rq) (line cmp : Nat) : (mscPlace s rq line cmp).mode = s.mode := by
  dsimp only [mscPlace]
  split
  · simp
  · rw [mscUse_mode, setMscLine_mode]
    split <;> simp

@[simp] theorem fillLine_mode (s : State) (rq : Rq) (line cmp : Nat) (bs : List Byte) (poison : Nat) : (fillLine s rq line cmp bs poison).mode = s.mode := by
  simp [fillLine]

@[simp] theorem prefetchLine_mode (s : State) (rq : Rq) (line : Nat) : (prefetchLine s rq line).mode = s.mode := by
  dsimp only [prefetchLine]
  split
  · rfl
  · split
    · rfl
    · split
      · rfl
      · split <;> simp

theorem moverView_rq_congr {s t : State} (h : s.mode = t.mode) (b p : Nat) (d : BitVec 512) (i : Nat) :
    (moverView s b p d).rq i = (moverView t b p d).rq i := by
  simp [moverView, State.partOfBay, State.nparts, h]

/-- A mover's requester is the same before and after each line it fetches, so it may be read of either state. -/
theorem foldl_prefetchLine_moverView {s : State} (b p : Nat) (d : BitVec 512) (lines : List Nat) (t : State) (h : s.mode = t.mode) :
    lines.foldl (fun t l => prefetchLine t ((moverView s b p d).rq 0) l) t =
      lines.foldl (fun t l => prefetchLine t ((moverView t b p d).rq 0) l) t := by
  induction lines generalizing t with
  | nil => rfl
  | cons l lines ih =>
    have ih := ih (prefetchLine t ((moverView t b p d).rq 0) l) (h.trans (prefetchLine_mode ..).symm)
    simpa only [List.foldl_cons, moverView_rq_congr h b p d 0] using ih

end Sys2Proof.Machine
end

section
/-! PROOFS. The register interface, banks and rings, and the movers' descriptors (00 R3 to R7, 03_bays.md). -/

namespace Sys2Proof.Machine

/-- Settles O5: what is held or latched under a register's key is what its other half finds there. -/
theorem registerAccessesComplete : Obligations.RegisterAccessesComplete := by
  refine ⟨?_, ?_, ?_, ?_, ?_, ?_⟩ <;> dsimp only [exec]
  · intro pair v s hget
    exact ⟨by simp only [execLoReadLatch, hget], by simp [shadowHi, latchHi, Tbl.getD_put]⟩
  · intro who pair v s hmay hpair
    exact ⟨by simp [execLoWriteHold, hmay, hpair], fun hi => by simp [withHeld, holdLo, Tbl.getD_put]⟩
  · intro who pair v s hmay hpair
    simp [execHiWriteCommit, hmay, hpair]
  · intro who reg v s hclear
    simp [execStatusSeqClear, hclear]
  · intro blk off v s
    cases blk <;> rfl
  · intro s w rest hslow
    simp only [execSlowWriteEffect, hslow]

/-- Settles O6: the Registrar's write always reaches the owners, and a ring's own port alone moves. -/
theorem banksAndRingsComplete : Obligations.BanksAndRingsComplete := by
  refine ⟨?_, ?_, ?_, ?_, ?_, ?_, ?_⟩ <;> dsimp only [exec]
  · exact fun bay hi v s => rfl
  · intro bay bank s
    refine ⟨_, rfl, by simp, by simp, fun b hb => ?_⟩
    simp [Ne.symm hb]
  · intro bay port wr s hopen
    dsimp only [execMoverWrWrite]
    rw [if_neg (by simp [hopen])]
    exact ⟨_, rfl, by simp [State.mover], by simp [State.mover], rfl⟩
  · intro bay port s hwait
    simp [execGroupPretranslate, hwait]
  · intro bay port s hwait
    simp [execTtbEntriesFree, hwait]
  · intro bay port s hhalted
    refine ⟨s.modMover bay port moverResume, by simp [execMoverResume, hhalted], ?_, ?_, rfl⟩
    · simp [moverResume]
    · simp [moverResume]
  · exact fun bay port s => rfl

/-- Bytes of which none is poisoned hold no first poisoned one, whatever their addresses. -/
theorem find?_zip_poisoned_eq_none {bs : List (Byte × Bool)} {vas : List Nat} (h : bs.all (fun c => !c.2) = true) :
    (bs.zip vas).find? (fun c => c.1.2) = none := by
  rw [List.find?_eq_none]
  intro c hc
  have := List.all_eq_true.mp h c.1 (List.of_mem_zip hc).1
  simpa using this

/-- Settles O7: a descriptor of local pieces alone has none to ask another part for. -/
theorem moverDescriptorsComplete : Obligations.MoverDescriptorsComplete := by
  refine ⟨?_, ?_, ?_, ?_, ?_, ?_, ?_, ?_⟩ <;> dsimp only [exec]
  · intro bay port s d order group hnext
    simp only [execMoverTileBegin, hnext]
  · intro bay port s d order group t bs hnext hremote hread hgood
    simp only [execMoverLoad, moverLoad, hnext, hread, find?_zip_poisoned_eq_none hgood, hremote]
    rfl
  · intro bay port s d order group t ds hnext hearly hremote hwrite
    have hready : (moverNext s bay port 2).filter (fun _ => !storesEarly s bay port) = some (d, order, group) := by simp [hnext, hearly]
    simp only [execMoverStore, moverStore, hready, hwrite, hremote]
    rfl
  · intro bay port s d order group hnext
    simp only [execMoverCopyLocal, moverCopyLocal, hnext]
  · intro bay port s d order group hnext
    simp only [execMoverFill, moverFill, hnext]
  · intro bay port s d order group hnext hpieces
    simp [execMoverPrefetch, moverPrefetch, hnext, hpieces]
  · intro bay port s d order group q hnext hpieces hlocal
    simp [execMoverPrefetch, moverPrefetch, hnext, hpieces, hlocal, foldl_prefetchLine_moverView]
  · intro bay port s o rest hstarted hhalted hwaits hbad hnotify
    simp [execMoverDescriptorComplete, hstarted, hhalted, hwaits, hbad, hnotify]

end Sys2Proof.Machine
end

section
/-! PROOFS. The Bay test engine, Bay reset, the on-die networks and the stacks' controllers (03_bays.md, 06_memory.md). -/

namespace Sys2Proof.Machine

theorem reach_bay (s : State) (t b : Nat) : (reach s t).bay b = s.bay b := rfl

theorem reach_stack (s : State) (t k : Nat) : (reach s t).stack k = s.stack k := rfl

theorem noRows_failed : (List.range 16).filter (fun i => bitsAt (0#16).toNat i 1 == 1) = [] := by decide

/-- Settles O8: each state of the test engine is left by its own event alone. -/
theorem bayTestAndResetComplete : Obligations.BayTestAndResetComplete := by
  refine ⟨?_, ?_, ?_, ?_, ?_, ?_, ?_⟩ <;> dsimp only [exec]
  · intro bay s hstate henabled hreset
    dsimp only [execTestIntervalExpire]
    rw [if_neg (by simp [hstate, henabled, hreset])]
    exact ⟨_, rfl, by simp, by simp, Nat.le_max_left .., by simp [reach_bay]⟩
  · intro bay s hstate
    dsimp only [execTestCopyDone]
    rw [if_neg (by simp [hstate])]
    exact ⟨_, rfl, by simp, by simp, by simp⟩
  · intro bay s hstate
    dsimp only [execMarchCDone]
    rw [if_neg (by simp [hstate]), noRows_failed]
    exact ⟨_, rfl, by simp, by simp⟩
  · intro bay s hstate
    dsimp only [execTestRestoreDone]
    rw [if_neg (by simp [hstate])]
    exact ⟨_, rfl, by simp, by simp, rfl⟩
  · intro bay s hreset htile hnext hnone
    simp [execBayReset, resetBay, hreset, htile, hnext, hnone]
  · intro bay s since hreset hdraining
    simp only [execBayResetDrainLimit, hreset]
    rw [if_neg (by simp [hdraining])]
    exact ⟨_, rfl, by simp [clearBay], by simp [clearBay], by simp [clearBay], Nat.le_max_right ..⟩
  · intro bay core s hopen
    simp [execCoreFenceWrite, hopen]

/-- The first failed replay of a key is counted, and fails no link. -/
theorem replayFailed_first {s : State} {key : Nat} (h : Tbl.getD s.nets.replayFails key 0 = 0) :
    replayFailed s key = (s.modNets (fun n => { n with replayFails := Tbl.put n.replayFails key 1 }), false) := by
  simp [replayFailed, h]

/-- Settles O9: a first failed replay is only counted. -/
theorem networksComplete : Obligations.NetworksComplete := by
  refine ⟨?_, ?_, ?_, ?_, ?_, ?_⟩ <;> dsimp only [exec]
  · exact fun plane a b s => rfl
  · intro plane a b s hnone
    refine ⟨s.modNets (fun n => { n with replayFails := Tbl.put n.replayFails (linkNo (netLink plane a b)) 1 }), ?_, ?_, rfl⟩
    · simp [execFlitParityError, replayFailed_first hnone]
    · simp [Tbl.getD_put]
  · exact fun plane a b s => rfl
  · exact fun router s => rfl
  · exact fun s => ⟨_, rfl, rfl, rfl, rfl, rfl, rfl⟩
  · intro index s r hrequest hcore
    simp [execRequestDeadline, hrequest, hcore]

/-- Settles O19: a stack that runs performs the request, and one that is stopped holds it. -/
theorem stackRequestsComplete : Obligations.StackRequestsComplete := by
  refine ⟨?_, ?_, ?_, ?_, ?_, ?_, ?_, ?_⟩ <;> dsimp only [exec]
  · exact fun bay mx s => rfl
  · exact fun bay mx s => rfl
  · intro bay s t htile hstart hstep
    simp [execGangStart, htile, hstart, hstep]
  · intro req s hin hruns hcap
    simp [execStackRequest, hin, hruns, hcap]
  · intro req s hin hstopped hroom
    simp [execStackRequest, hin, hstopped, Nat.not_le.mpr hroom]
  · intro k bay order addr bytes s hroom
    exact ⟨_, rfl, by simp [Nat.not_le.mpr hroom], rfl, by simp [Nat.not_le.mpr hroom]⟩
  · intro k bay order addr bytes s hfull hdrops
    exact ⟨_, rfl, by simp [hfull, hdrops], by simp [hfull], rfl⟩
  · intro k s r henforcing hqueue hruns hstreams hranges hctrl hnext hbytes
    have hwindow : ∀ n, 0 < max 1 n := fun n => by omega
    simp [execPrefetchIssue, henforcing, Nat.not_le.mpr hqueue, hruns, hstreams, hranges, hctrl, hnext, hbytes, hwindow]
    rfl

/-- A chunk without poison and without wrong symbols reads as it stands (06 R170). -/
theorem readChunk_good {s : State} (c scrub : Nat) (h : s.mem.poison = []) :
    readChunk s c 0 scrub = (s, BitVec.ofNat 256 (s.mem.dram.readLE (32 * c) 32), false) := by
  simp [readChunk, h]

/-- A window's turn: the counts of the old window become the last ones, and the state and the guarantees that wait take effect (06 R177). -/
def windowed (s : State) (k : Nat) : State :=
  (reach s ((s.now / 1024 + 1) * 1024)).setStack k { s.stack k with
    used := (s.stack k).usedNow, usedNow := [], farLines := [], state := (s.stack k).nextState, deliverable := deliverableOf (s.stack k).nextState
    guar := (s.stack k).guarNext.foldl (fun g e => Tbl.put g e.1 e.2) (s.stack k).guar, guarNext := [] }

/-- A window in which no state, no guarantee and no request waits raises no event and issues nothing. -/
theorem execRegulationWindow_quiet {k : StackNo} {s : State} (hstate : (s.stack k).nextState = (s.stack k).state)
    (hguar : (s.stack k).guarNext = []) (hqueue : (s.stack k).queue = []) :
    execRegulationWindow k s = .next (noteAlerts (windowed s k)) := by
  simp [execRegulationWindow, windowed, reach_stack, hstate, hguar, hqueue, issueQueue]

theorem noteAlerts_stack (s : State) (k : Nat) : (noteAlerts s).stack k = s.stack k := rfl

theorem windowed_stack (s : State) (k : Nat) : (windowed s k).stack k = { s.stack k with
    used := (s.stack k).usedNow, usedNow := [], farLines := [], state := (s.stack k).nextState, deliverable := deliverableOf (s.stack k).nextState
    guar := (s.stack k).guarNext.foldl (fun g e => Tbl.put g e.1 e.2) (s.stack k).guar, guarNext := [] } := by
  simp [windowed]

/-- Settles O20: an idle stack starts its one operation, and with nothing to change a scrub and a window change their own counts alone. -/
theorem stackMaintenanceComplete : Obligations.StackMaintenanceComplete := by
  refine ⟨?_, ?_, ?_, ?_, ?_, ?_, ?_, ?_, ?_, ?_, ?_⟩ <;> dsimp only [exec]
  · intro k part s hidle
    simp [execWritebackPart, startMaint, hidle]
  · intro k part s hidle
    simp [execFlushPart, startMaint, hidle]
  · intro k shelf s hidle
    simp [execFlushShelf, startMaint, hidle]
  · intro k s hidle
    simp [execFlushAll, startMaint, hidle]
  · intro k s op hbusy
    simp [execFlushAll, startMaint, hbusy]
  · intro k s op part shelf hbusy htxns
    simp [execMscMaintDone, hbusy, htxns]
  · intro k ch s hspare
    simp [execLaneFail, hspare]
  · intro k ch s hused
    simp [execLaneFail, Nat.not_lt.mpr hused]
  · intro k s hrefresh hat hctrl hpoison
    dsimp only [execPatrolScrub]
    rw [if_neg (by simp [hrefresh, hctrl, bitsAt]), readChunk_good _ _ ?poison]
    case poison => exact hpoison
    exact ⟨_, rfl, by simp [hat, shelfBytes], by simp [hat, shelfBytes], rfl⟩
  · exact fun k temp s => rfl
  · intro k s hstate hguar hqueue
    refine ⟨_, execRegulationWindow_quiet hstate hguar hqueue, ?_⟩
    simp only [noteAlerts_stack, windowed_stack, hstate, hguar, List.foldl_nil, true_and]
    exact ⟨Nat.le_max_right .., rfl⟩

end Sys2Proof.Machine
end
